-- ==== Sys2Proof/Word.lean ====
section
/-!
DEFINITION. The units of data (Table 0.4, R5), a register field's place, and the sparse map that holds every large array of
the device as plain data.
-/
namespace Sys2Proof

/-- A word: the unit of cells, memories, channels and transom flits (Table 0.4). -/
abbrev Word := BitVec 40

/-- A half: a D-mode lane, a component of a complex value (Table 0.4). -/
abbrev Half := BitVec 20

/-- A host word: the unit of BAR0 registers (Table 0.4). -/
abbrev HWord := BitVec 32

/-- An octet (Table 0.4). -/
abbrev Octet := BitVec 8

/-- The bit range [hi:lo] of a register field. -/
structure Fld where
  hi : Nat
  lo : Nat
  deriving DecidableEq, Repr

/-- A large array held sparsely: (key, value) pairs, keys rising, no pair that holds what an unlisted key reads as. -/
abbrev SMap (α : Type) := List (Nat × α)

/-- The coordinate of a word cell (R11): die, pane index, tile row and column, cluster, cell. -/
structure CellId where
  d : Fin 4
  p : Fin 64
  tr : Fin 8
  tc : Fin 8
  k : Fin 4
  n : Fin 8
  deriving DecidableEq, Repr

/-- A transom packet (Table 8.3): a header unit and its payload words. `dst` and `src` are port names: a port of a pane router at 64·(64·die + pane)
+ port, a hub port x at 16,384 + x, the companion at 20,480 (Tables 8.1, 8.2). `par`: the five byte-parity bits that each payload word carries
(R174), or no list where every word's are right. -/
structure Packet where
  dst : Nat := 0
  src : Nat := 0
  cmd : Fin 16 := 0
  prio : Fin 4 := 0
  tag : Fin 1024 := 0
  len : Fin 65 := 0
  ecode : Fin 8 := 0
  klen : Bool := false
  hit : Bool := false
  addr : Word := 0
  opnd : Word := 0
  data : List Word := []
  par : List (BitVec 5) := []
  deriving DecidableEq, Repr

/-- A packet of the knock chain (R302): header octets TYPE, DST, SRC and SEQ, the payload, and the CRC-16 received with it. LEN is the
payload's length. -/
structure ChainPkt where
  typ : Octet
  dst : Octet
  src : Octet
  seq : Octet
  payload : List Octet
  crc : BitVec 16
  deriving DecidableEq, Repr

/-- A character that a receiver of the knock chain takes in (R301): a comma, another good one, or a code error. -/
inductive ChainChar where
  | comma | good | bad
  deriving DecidableEq, Repr

/-- A code group of the knock chain (R301): a data octet or a control one. -/
inductive CodeGroup where
  | d (o : Octet)
  | k (o : Octet)
  deriving DecidableEq, Repr

/-- One record of a TICK control flit (Table 11.4): domain, kind (0 frame tick, 1 line tick, 2 arm, 3 commit, 4 disarm, 5 member
acknowledge), member index for kind 5, frame number. -/
structure TickRec where
  dom : Fin 8
  kind : Fin 8
  mem : Fin 1024
  frame : Fin 16777216
  deriving DecidableEq, Repr

/-- How a read comes (R10, R282): it consumes, it is a debug read without CONSUME, it comes through BAR0 of PF1, or it reads BAR4 of PF0 or of
PF1. -/
inductive ReadBy where
  | consume
  | quiet
  | pf1
  | bar4 (fn : Fin 2)
  deriving DecidableEq, Repr

/-- What is asked of a flit slot of a hinge leaf (R255, R260, R261): data, on a transom leaf of channel `v`; a control flit; nothing. -/
inductive FlitSel where
  | idle
  | data (v : Fin 8)
  | ack
  | ecred (half : Fin 2)
  | tcred
  | tick
  deriving DecidableEq, Repr

/-- Bits [hi:lo] of a number. -/
def bitsOf (x hi lo : Nat) : Nat := x / 2 ^ lo % 2 ^ (hi + 1 - lo)

/-- A number read as two's complement in `w` bits. -/
def signedOf (w x : Nat) : Int := if x % 2 ^ w < 2 ^ (w - 1) then (x % 2 ^ w : Nat) else ((x % 2 ^ w : Nat) : Int) - 2 ^ w

/-- An integer taken modulo 2^w. -/
def wrapTo (w : Nat) (x : Int) : Nat := (x % (2 ^ w : Nat)).toNat

end Sys2Proof
end

