-- ==== Sys2Proof/Syntax.lean ====
section
/-!
DEFINITION. The commands of the device: one constructor for each row of spec/opcode_table.json, with its operands. A command is a
register access, a packet or flit taken in, or an event of the device; what an event needs from outside the state (a word received,
the time that has passed) is an operand. Numbers that name an instance are bounded by their type.
-/
namespace Sys2Proof

inductive Instr where
  /-- REGISTER_WRITE (R7): A BAR0 write to a register that has no row of its own; each field acts by its type code, and ST fields reach only the
  shadow. -/
  | registerWrite (src : Fin 9) (off : BitVec 26) (len : Nat) (v : BitVec 64)
  /-- READ_CLEAR (R10): A read of an RC field returns its value and clears it, except for a debug read without CONSUME. -/
  | readClear (off : BitVec 26) (len : Nat) (how : ReadBy)
  /-- NOP (R31): Cell opcode 0x00 writes nothing and obeys its SEQ. -/
  | nop (c : CellId) (dt : Nat)
  /-- FCLR (R70): Cell clears SAT and/or C, Z, N and V. -/
  | fclr (c : CellId) (dt : Nat)
  /-- FGET (R70): Cell writes the flag image to its destination. -/
  | fget (c : CellId) (dt : Nat)
  /-- MOV (R60): Cell copies operand a to its destination. -/
  | mov (c : CellId) (dt : Nat)
  /-- MOVK (R60): Cell shifts a left 12 bits and ORs in the immediate. -/
  | movk (c : CellId) (dt : Nat)
  /-- ADD (R60): Cell adds per lane, modulo the lane width. -/
  | add (c : CellId) (dt : Nat)
  /-- ADC (R60): Cell adds per lane with carry in. -/
  | adc (c : CellId) (dt : Nat)
  /-- ADDU (R61): Cell adds per lane with unsigned saturation. -/
  | addu (c : CellId) (dt : Nat)
  /-- ADDS (R61): Cell adds per lane with signed saturation. -/
  | adds (c : CellId) (dt : Nat)
  /-- SUB (R60): Cell subtracts per lane, modulo the lane width. -/
  | sub (c : CellId) (dt : Nat)
  /-- SBC (R60): Cell subtracts per lane with borrow. -/
  | sbc (c : CellId) (dt : Nat)
  /-- SUBU (R61): Cell subtracts per lane with unsigned saturation. -/
  | subu (c : CellId) (dt : Nat)
  /-- SUBS (R61): Cell subtracts per lane with signed saturation. -/
  | subs (c : CellId) (dt : Nat)
  /-- MINU (R60): Cell takes the unsigned minimum per lane. -/
  | minu (c : CellId) (dt : Nat)
  /-- MAXU (R60): Cell takes the unsigned maximum per lane. -/
  | maxu (c : CellId) (dt : Nat)
  /-- MINS (R60): Cell takes the signed minimum per lane. -/
  | mins (c : CellId) (dt : Nat)
  /-- MAXS (R60): Cell takes the signed maximum per lane. -/
  | maxs (c : CellId) (dt : Nat)
  /-- ABSD (R60): Cell forms the unsigned absolute difference per lane. -/
  | absd (c : CellId) (dt : Nat)
  /-- CLAMPU (R61): Cell clamps per lane between unsigned bounds. -/
  | clampu (c : CellId) (dt : Nat)
  /-- CLAMPS (R61): Cell clamps per lane between signed bounds. -/
  | clamps (c : CellId) (dt : Nat)
  /-- CMPU (R60): Cell compares unsigned and writes only flags. -/
  | cmpu (c : CellId) (dt : Nat)
  /-- CMPS (R60): Cell compares signed and writes only flags. -/
  | cmps (c : CellId) (dt : Nat)
  /-- SEL (R68): Cell selects a or b per lane by a flag. -/
  | sel (c : CellId) (dt : Nat)
  /-- AND (R60): Cell forms the bitwise AND. -/
  | and (c : CellId) (dt : Nat)
  /-- OR (R60): Cell forms the bitwise OR. -/
  | or (c : CellId) (dt : Nat)
  /-- XOR (R60): Cell forms the bitwise XOR. -/
  | xor (c : CellId) (dt : Nat)
  /-- ANDN (R60): Cell forms a AND NOT b. -/
  | andn (c : CellId) (dt : Nat)
  /-- LOG3 (R68): Cell applies a three-input truth table bitwise. -/
  | log3 (c : CellId) (dt : Nat)
  /-- SHL (R63): Cell shifts each lane left with zero fill. -/
  | shl (c : CellId) (dt : Nat)
  /-- SHR (R63): Cell shifts each lane right with zero fill. -/
  | shr (c : CellId) (dt : Nat)
  /-- SAR (R63): Cell shifts each lane right with sign fill. -/
  | sar (c : CellId) (dt : Nat)
  /-- ROL (R63): Cell rotates each lane left. -/
  | rol (c : CellId) (dt : Nat)
  /-- FSH (R64): Cell funnel-shifts the 80-bit value a:b. -/
  | fsh (c : CellId) (dt : Nat)
  /-- EXT (R65): Cell extracts a bit field, zero-extended. -/
  | ext (c : CellId) (dt : Nat)
  /-- EXTS (R65): Cell extracts a bit field, sign-extended. -/
  | exts (c : CellId) (dt : Nat)
  /-- INS (R65): Cell inserts the low bits of b into a field of a. -/
  | ins (c : CellId) (dt : Nat)
  /-- UNPK (R66): Cell unpacks two samples into two halves. -/
  | unpk (c : CellId) (dt : Nat)
  /-- PKS (R66): Cell rounds and packs four halves into four samples. -/
  | pks (c : CellId) (dt : Nat)
  /-- MUL (R67): Cell multiplies 20x20 in W mode, or four 10x10 products in S mode. -/
  | mul (c : CellId) (dt : Nat)
  /-- MULA (R67): Cell multiplies 20x20 and adds c modulo 2^40. -/
  | mula (c : CellId) (dt : Nat)
  /-- CAS (R69): Cell drives its cascade lines and selects a word through the wide multiplexer. -/
  | cas (c : CellId) (dt : Nat)
  /-- POP (R71): Cell pops the head of its consumer queue into its destination. -/
  | pop (c : CellId) (dt : Nat)
  /-- PUSH (R71): Cell pushes a to its producer queue with tag 0. -/
  | push (c : CellId) (dt : Nat)
  /-- PUSHE (R71): Cell pushes a to its producer queue with tag 1. -/
  | pushe (c : CellId) (dt : Nat)
  /-- SLAM (R157): A consumer discards the rest of the current packet, or every present entry, of its queue. -/
  | slam (c : CellId) (dt : Nat)
  /-- PANE_GATE (R85): A write of PANE_CLK.GATE gates the pane's clocks or starts a relock. -/
  | paneGate (d : Fin 4) (p : Fin 64) (v : BitVec 32) (edge : Bool)
  /-- PANE_RELOCK (R85): The pane loop relocks and its three clocks restart. -/
  | paneRelock (d : Fin 4) (p : Fin 64)
  /-- PANE_LOSS_OF_LOCK (R85): The pane loop loses lock, stops all three clocks and sets LOL. -/
  | paneLossOfLock (d : Fin 4) (p : Fin 64)
  /-- CHANNEL_ENTER (R87): An inlet enters an item into the first stage of an elastic channel, tagged with the live bank. -/
  | channelEnter (d : Fin 4) (p : Fin 64) (k : Fin 64) (dt : Nat)
  /-- CHANNEL_DELIVER (R87): An outlet delivers the head item under the bank its tag names, to a queue, latch or THRU target. -/
  | channelDeliver (d : Fin 4) (p : Fin 64) (k : Fin 64) (dt : Nat)
  /-- TBU_SET_H_WRITE (R105): A write of TBU_SET_H sets device time at the next TBU edge and aborts armed TIME-mode commits. -/
  | tbuSetHWrite (v : BitVec 32)
  /-- TBU_NOW_L_READ (R105): A read of TBU_NOW_L returns time [31:0] and captures the whole time. -/
  | tbuNowLRead (dt : Nat)
  /-- TB_FRAMEL_READ (R106): A read of TB_FRAMEL returns frame [31:0] and captures [47:0]. -/
  | tbFramelRead (t : Fin 8) (dt : Nat)
  /-- GENERATION_ADOPT (R109): A complete generation group is checked and adopted or marked BAD at the next TBU edge. -/
  | generationAdopt (t : Fin 8) (dt : Nat)
  /-- TB_REF_EDGE (R107): An active edge on the reference pin of a PIN-mode domain begins a new frame or is ignored. -/
  | tbRefEdge (t : Fin 8) (dt : Nat)
  /-- TB_REF_LOST (R107): No reference edge arrives within 1.25 P; the domain begins a frame itself and sets REFLOST. -/
  | tbRefLost (t : Fin 8) (dt : Nat)
  /-- FRAME_TICK (R108): A domain's frame number changes; it issues a frame tick, and an armed commit is sent or counted as a miss. -/
  | frameTick (t : Fin 8) (dt : Nat)
  /-- LINE_TICK (R108): A domain issues a line tick at the start of each line. -/
  | lineTick (t : Fin 8) (dt : Nat)
  /-- SHT_ARM_GO (R113): A GO to SHT_ARM checks the set, resolves the target frame and arms the members, or refuses. -/
  | shtArmGo (t : Fin 8) (v : BitVec 32)
  /-- ABORT (R118): ABORT written while ARMED disarms every member and ends the arm ABORTED. -/
  | abort (t : Fin 8) (v : BitVec 32)
  /-- ARM_RECEIVE (R114): A member receives the arm and starts refusing shadow writes. -/
  | armReceive (m : Fin 912)
  /-- MEMBER_ACKNOWLEDGE (R115): An armed member that is ready acknowledges the arm. -/
  | memberAcknowledge (m : Fin 912)
  /-- DISARM (R118): A member receives a disarm and accepts shadow writes again. -/
  | disarm (m : Fin 912)
  /-- PANE_SWITCH (R51): A pane exchanges louvres, bindings, routing bank and ST fields at the first cell edge after the commit tick. -/
  | paneSwitch (d : Fin 4) (p : Fin 64) (dt : Nat)
  /-- ENGINE_SWITCH (R145): An engine exchanges program banks and ST fields, then continues or restarts. -/
  | engineSwitch (d : Fin 4) (e : Fin 128)
  /-- LANE_SWITCH (R251): A lane's ST fields change at the first word boundary after the commit tick. -/
  | laneSwitch (d : Fin 4) (l : Fin 32)
  /-- DDR_QOS_SWITCH (R223): A DDR5 controller exchanges DDR_QOS at its first clock edge after the commit tick. -/
  | ddrQosSwitch (c : Fin 8)
  /-- PIN_BANK_SWITCH (R388): A pin bank's ST fields switch and each changing pin's pad latch captures its drive. -/
  | pinBankSwitch (b : Fin 8)
  /-- PIN_HANDOVER (R388): At the second SOSC edge the new pin settings take the pad and the filter restarts. -/
  | pinHandover (b : Fin 8)
  /-- COMMIT_COMPLETE (R117): Every member has switched; STATE becomes COMMITTED, CFRAME is set and the set map clears. -/
  | commitComplete (t : Fin 8)
  /-- CMUL (R128): Engine sets an accumulator to a complex product. -/
  | cmul (d : Fin 4) (e : Fin 128) (dt : Nat)
  /-- CMAC (R128): Engine adds a complex product to an accumulator. -/
  | cmac (d : Fin 4) (e : Fin 128) (dt : Nat)
  /-- CMSU (R128): Engine subtracts a complex product from an accumulator. -/
  | cmsu (d : Fin 4) (e : Fin 128) (dt : Nat)
  /-- CMACJ (R128): Engine adds X times conj(Y) to an accumulator. -/
  | cmacj (d : Fin 4) (e : Fin 128) (dt : Nat)
  /-- DMUL (R128): Engine sets an accumulator to two real products. -/
  | dmul (d : Fin 4) (e : Fin 128) (dt : Nat)
  /-- DMAC (R128): Engine adds two real products to an accumulator. -/
  | dmac (d : Fin 4) (e : Fin 128) (dt : Nat)
  /-- PWR (R128): Engine accumulates the energy of a complex word. -/
  | pwr (d : Fin 4) (e : Fin 128) (dt : Nat)
  /-- ALD (R128): Engine loads an accumulator from a complex word. -/
  | ald (d : Fin 4) (e : Fin 128) (dt : Nat)
  /-- ACLR (R128): Engine clears an accumulator. -/
  | aclr (d : Fin 4) (e : Fin 128) (dt : Nat)
  /-- MOVA (R129): Engine rounds, scales and clamps both accumulator halves into a register. -/
  | mova (d : Fin 4) (e : Fin 128) (dt : Nat)
  /-- MOVAW (R129): Engine moves the real accumulator half to a 40-bit register. -/
  | movaw (d : Fin 4) (e : Fin 128) (dt : Nat)
  /-- ENG_MOV (R131): Engine ALU copies a register. -/
  | engMov (d : Fin 4) (e : Fin 128) (dt : Nat)
  /-- MOVI (R131): Engine loads a sign-extended 12-bit immediate. -/
  | movi (d : Fin 4) (e : Fin 128) (dt : Nat)
  /-- ENG_MOVK (R131): Engine shifts a register left 12 bits and adds an immediate. -/
  | engMovk (d : Fin 4) (e : Fin 128) (dt : Nat)
  /-- ENG_ADD (R131): Engine ALU adds, wrapping. -/
  | engAdd (d : Fin 4) (e : Fin 128) (dt : Nat)
  /-- ENG_SUB (R131): Engine ALU subtracts, wrapping. -/
  | engSub (d : Fin 4) (e : Fin 128) (dt : Nat)
  /-- ENG_ADDS (R131): Engine ALU adds, saturating. -/
  | engAdds (d : Fin 4) (e : Fin 128) (dt : Nat)
  /-- ENG_SUBS (R131): Engine ALU subtracts, saturating. -/
  | engSubs (d : Fin 4) (e : Fin 128) (dt : Nat)
  /-- MIN (R131): Engine ALU takes the signed minimum. -/
  | min (d : Fin 4) (e : Fin 128) (dt : Nat)
  /-- MAX (R131): Engine ALU takes the signed maximum. -/
  | max (d : Fin 4) (e : Fin 128) (dt : Nat)
  /-- ABS (R131): Engine ALU takes the saturating absolute value. -/
  | abs (d : Fin 4) (e : Fin 128) (dt : Nat)
  /-- NEG (R131): Engine ALU negates, saturating. -/
  | neg (d : Fin 4) (e : Fin 128) (dt : Nat)
  /-- ENG_AND (R131): Engine ALU forms the bitwise AND. -/
  | engAnd (d : Fin 4) (e : Fin 128) (dt : Nat)
  /-- ENG_OR (R131): Engine ALU forms the bitwise OR. -/
  | engOr (d : Fin 4) (e : Fin 128) (dt : Nat)
  /-- ENG_XOR (R131): Engine ALU forms the bitwise XOR. -/
  | engXor (d : Fin 4) (e : Fin 128) (dt : Nat)
  /-- ENG_SHL (R131): Engine ALU shifts left. -/
  | engShl (d : Fin 4) (e : Fin 128) (dt : Nat)
  /-- ENG_SHR (R131): Engine ALU shifts right with zero fill. -/
  | engShr (d : Fin 4) (e : Fin 128) (dt : Nat)
  /-- ENG_SAR (R131): Engine ALU shifts right with sign fill. -/
  | engSar (d : Fin 4) (e : Fin 128) (dt : Nat)
  /-- CONJ (R131): Engine negates half 0 of a complex word. -/
  | conj (d : Fin 4) (e : Fin 128) (dt : Nat)
  /-- SWAPH (R131): Engine exchanges the halves of a word. -/
  | swaph (d : Fin 4) (e : Fin 128) (dt : Nat)
  /-- CMPEQ (R131): Engine sets a predicate on equality. -/
  | cmpeq (d : Fin 4) (e : Fin 128) (dt : Nat)
  /-- CMPLT (R131): Engine sets a predicate on signed less-than. -/
  | cmplt (d : Fin 4) (e : Fin 128) (dt : Nat)
  /-- CMPLTU (R131): Engine sets a predicate on unsigned less-than. -/
  | cmpltu (d : Fin 4) (e : Fin 128) (dt : Nat)
  /-- PSET (R131): Engine sets a predicate to a constant. -/
  | pset (d : Fin 4) (e : Fin 128) (dt : Nat)
  /-- MFC (R132): Engine reads a control register. -/
  | mfc (d : Fin 4) (e : Fin 128) (dt : Nat)
  /-- MTC (R132): Engine writes a control register. -/
  | mtc (d : Fin 4) (e : Fin 128) (dt : Nat)
  /-- XADD (R133): Engine steps an index register. -/
  | xadd (d : Fin 4) (e : Fin 128) (dt : Nat)
  /-- XCP (R131): Engine copies one index register to another. -/
  | xcp (d : Fin 4) (e : Fin 128) (dt : Nat)
  /-- BXT (R130): Engine feeds both halves of a register to the block-exponent tracker. -/
  | bxt (d : Fin 4) (e : Fin 128) (dt : Nat)
  /-- LD (R133): Engine loads from data memory and post-steps the index. -/
  | ld (d : Fin 4) (e : Fin 128) (dt : Nat)
  /-- LDO (R133): Engine loads from data memory at an offset address. -/
  | ldo (d : Fin 4) (e : Fin 128) (dt : Nat)
  /-- ST (R133): Engine stores to data memory and post-steps the index. -/
  | st (d : Fin 4) (e : Fin 128) (dt : Nat)
  /-- STO (R133): Engine stores to data memory at an offset address. -/
  | sto (d : Fin 4) (e : Fin 128) (dt : Nat)
  /-- SPOP (R136): Engine pops its port's consumer queue, stalling or not as WAIT says. -/
  | spop (d : Fin 4) (e : Fin 128) (dt : Nat)
  /-- SPUSH (R136): Engine pushes to its port's producer queue, stalling or discarding when full. -/
  | spush (d : Fin 4) (e : Fin 128) (dt : Nat)
  /-- SSLAM (R136): Engine sends SLAM to its port's consumer queue. -/
  | sslam (d : Fin 4) (e : Fin 128) (dt : Nat)
  /-- ENG_TRD (R137): Engine issues a transom RD of n words into data memory. -/
  | engTrd (d : Fin 4) (e : Fin 128) (dt : Nat)
  /-- ENG_TWR (R137): Engine issues a transom WR or WRP of n words from data memory. -/
  | engTwr (d : Fin 4) (e : Fin 128) (dt : Nat)
  /-- BR (R139): Engine branches, with two gap cycles. -/
  | br (d : Fin 4) (e : Fin 128) (dt : Nat)
  /-- CALL (R139): Engine pushes a return address and branches. -/
  | call (d : Fin 4) (e : Fin 128) (dt : Nat)
  /-- RET (R139): Engine returns to a popped address. -/
  | ret (d : Fin 4) (e : Fin 128) (dt : Nat)
  /-- LOOP (R140): Engine starts a hardware loop with an immediate count. -/
  | loop (d : Fin 4) (e : Fin 128) (dt : Nat)
  /-- LOOPV (R140): Engine starts a hardware loop with a count from a register. -/
  | loopv (d : Fin 4) (e : Fin 128) (dt : Nat)
  /-- LOOPP (R141): Engine starts a pipelined loop with stage predicates. -/
  | loopp (d : Fin 4) (e : Fin 128) (dt : Nat)
  /-- TWAIT (R125): Engine stalls until pending transom requests fall to a threshold. -/
  | twait (d : Fin 4) (e : Fin 128) (dt : Nat)
  /-- WDOG (R144): Engine reloads its watchdog. -/
  | wdog (d : Fin 4) (e : Fin 128) (dt : Nat)
  /-- BLK (R130): Engine ends a block and updates EXP, APL and TRK. -/
  | blk (d : Fin 4) (e : Fin 128) (dt : Nat)
  /-- SIG (R147): Engine records a code in ENG_SIG and raises ENG_EVENT. -/
  | sig (d : Fin 4) (e : Fin 128) (dt : Nat)
  /-- STOP (R143): Engine enters STOPPED after this bundle. -/
  | stop (d : Fin 4) (e : Fin 128) (dt : Nat)
  /-- ENG_CTL_START (R143): ENG_CTL.START sets PC to ENTRY, cancels loops and enters RUN, or is refused. -/
  | engCtlStart (d : Fin 4) (e : Fin 128)
  /-- ENG_CTL_STOP (R143): ENG_CTL.STOP ends execution after the present bundle and enters STOPPED. -/
  | engCtlStop (d : Fin 4) (e : Fin 128)
  /-- ENGINE_WATCHDOG_EXPIRY (R144): The engine watchdog reaches 0, sets WDX and EXPD and reloads or faults. -/
  | engineWatchdogExpiry (d : Fin 4) (e : Fin 128)
  /-- RAM_PORT_SERVE (R161): A RAM port serves its next request, reading or writing one entry. -/
  | ramPortServe (d : Fin 4) (p : Fin 64) (m : Fin 6) (i : Fin 2) (dt : Nat)
  /-- LOCK_BREAK (R166): A lock held LKTO x 1,024 cycles is broken, LKBRK is set and the first waiter is served. -/
  | lockBreak (d : Fin 4) (p : Fin 64) (m : Fin 6) (q : Fin 4)
  /-- MOVER_FETCH_LINE (R167): A FETCH mover with no line pops a command word and latches its settings. -/
  | moverFetchLine (d : Fin 4) (p : Fin 64) (m : Fin 6) (dt : Nat)
  /-- MOVER_FETCH_ISSUE (R167): A FETCH mover issues an RD when requests and queue space allow, reserving positions. -/
  | moverFetchIssue (d : Fin 4) (p : Fin 64) (m : Fin 6) (dt : Nat)
  /-- MOVER_POST_ENTRY (R168): A POST mover pops an entry, either a control word or a data word of the line. -/
  | moverPostEntry (d : Fin 4) (p : Fin 64) (m : Fin 6) (dt : Nat)
  /-- MOVER_POST_ISSUE (R168): A POST mover issues a gathered WRP. -/
  | moverPostIssue (d : Fin 4) (p : Fin 64) (m : Fin 6) (dt : Nat)
  /-- MOVER_POST_IDLE_TIMEOUT (R168): DQ shows no head for 64 cycles and the mover issues what it holds. -/
  | moverPostIdleTimeout (d : Fin 4) (p : Fin 64) (m : Fin 6) (dt : Nat)
  /-- LEDGER_SNAP (R172): WM_LCTL.SNAP captures every queue ledger of the block. -/
  | ledgerSnap (d : Fin 4) (p : Fin 64) (m : Fin 6)
  /-- WM_PATROL_READ (R177): Patrol reads and checks the next entry of the array. -/
  | wmPatrolRead (d : Fin 4) (p : Fin 64) (m : Fin 6)
  /-- RD (R183): A transom read request taken whole by its target. -/
  | rd (pk : Packet) (host : Option (List (BitVec 40)))
  /-- WR (R183): A non-posted transom write taken whole by its target. -/
  | wr (pk : Packet) (ok : Bool)
  /-- WRP (R183): A posted transom write taken whole by its target. -/
  | wrp (pk : Packet) (ok : Bool)
  /-- RDLK (R165): A transom read that takes a queue lock. -/
  | rdlk (pk : Packet)
  /-- WRUL (R165): A transom write that releases a queue lock. -/
  | wrul (pk : Packet)
  /-- TRANSOM_ADD (R183): A transom atomic add on one word. -/
  | transomAdd (pk : Packet)
  /-- SWAP (R183): A transom atomic swap on one word. -/
  | swap (pk : Packet)
  /-- MSG (R300): A posted message written into a message ring. -/
  | msg (pk : Packet)
  /-- LKUP (R207): A stream directory lookup answered by a CPL with action word and HIT. -/
  | lkup (pk : Packet)
  /-- LOOKUP_RECORD (R207): A posted lookup record is looked up and answered by a one-word WRP. -/
  | lookupRecord (lp : Fin 4)
  /-- CPL (R186): A completion arrives and is matched to its request by source and tag. -/
  | cpl (pk : Packet)
  /-- CPLE (R184): An error completion arrives at its initiator with its cause. -/
  | cple (pk : Packet)
  /-- PACKET_FORWARD (R181): A router forwards a packet on its output virtual channel. -/
  | packetForward (i : Fin 16448) (pk : Packet)
  /-- REQUEST_TIMEOUT (R189): An initiator's completion timer expires; CPLE TIMEOUT is delivered and the tag enters quarantine. -/
  | requestTimeout (port : Fin 16448) (tag : Fin 1024)
  /-- QUARANTINE_END (R189): A quarantined tag's period ends and the tag is free. -/
  | quarantineEnd (port : Fin 16448) (tag : Fin 1024)
  /-- CREDIT_TIMEOUT (R197): A flit waits TOCR x 1,024 cycles for a credit and the port is boarded up. -/
  | creditTimeout (l : Fin 16448) (v : Fin 8)
  /-- COMPLETION_TIMEOUT (R197): A tracked request waits TOCP x 1,024 cycles and the port is boarded up. -/
  | completionTimeout (l : Fin 16448)
  /-- TR_CMD_BOARD (R197): A write of TR_CMD.BOARD boards up a port with cause CMD. -/
  | trCmdBoard (l : Fin 16448)
  /-- TR_CMD_UNBOARD (R200): A write of TR_CMD.UNBOARD resets the link to the target and unboards the port. -/
  | trCmdUnboard (l : Fin 16448)
  /-- TR_CMD_SNAP (R203): A write of TR_CMD.SNAP captures every ledger of the router. -/
  | trCmdSnap (d : Fin 4) (p : Fin 64)
  /-- TR_GSNAP_GO (R203): A write of TR_GSNAP.GO requests a global capture at the next tick of DOM. -/
  | trGsnapGo (v : BitVec 32)
  /-- GLOBAL_CAPTURE (R203): Each router, switch and hinge stage captures its ledgers when the tick arrives. -/
  | globalCapture
  /-- DRAIN_END (R298): The drain of a parking die ends and the ports facing it are boarded with cause PARK. -/
  | drainEnd
  /-- DRAIN_TIMEOUT (R298): TR_PDTO expires during a park drain; the hub proceeds and sets PDEXP. -/
  | drainTimeout
  /-- SETMISS (R209): SD_CMD sets the miss action word. -/
  | setmiss (klen : Bool)
  /-- UPSERT (R209): SD_CMD replaces or inserts a directory entry. -/
  | upsert (klen : Bool)
  /-- DELETE (R209): SD_CMD invalidates a key's entry. -/
  | delete (klen : Bool)
  /-- FIND (R209): SD_CMD reports a key's entry index. -/
  | find (klen : Bool)
  /-- DDR_INIT (R221): DDR_CTL INIT runs the full training sequence. -/
  | ddrInit (c : Fin 8)
  /-- DDR_RETRAIN (R221): DDR_CTL RETRAIN runs training steps 3 to 7, or is deferred while armed. -/
  | ddrRetrain (c : Fin 8)
  /-- DDR_OFFLINE (R221): DDR_CTL OFFLINE takes the controller offline once accepted pieces are done. -/
  | ddrOffline (c : Fin 8)
  /-- DDR_ONLINE (R221): DDR_CTL ONLINE returns an offline controller to service. -/
  | ddrOnline (c : Fin 8)
  /-- DEFERRED_RETRAIN (R221): A deferred RETRAIN starts when the arm ends. -/
  | deferredRetrain (c : Fin 8)
  /-- DDR_REFRESH (R222): The controller issues same-bank refresh at the refresh interval. -/
  | ddrRefresh (c : Fin 8)
  /-- DQS_DRIFT_TRACK (R222): Every 16 ms the controller tracks DQS drift, pausing the sub-channel. -/
  | dqsDriftTrack (c : Fin 8)
  /-- DDR_PATROL_SCRUB (R226): Patrol scrub reads and checks the next block. -/
  | ddrPatrolScrub (c : Fin 8)
  /-- FRAME_STORE_HELPER (R220): A write of DDR_FSHIN computes the line and frame strides. -/
  | frameStoreHelper (v : BitVec 32)
  /-- LANE_ENABLE (R230): LANE_CTL.EN enables or disables a lane; an enabled lane with a valid configuration starts. -/
  | laneEnable (d : Fin 4) (l : Fin 32) (en : Bool)
  /-- QUAD_LOCK (R230): The quad loop locks and its lanes may transmit and receive. -/
  | quadLock (d : Fin 4) (q : Fin 8)
  /-- QUAD_LOSS_OF_LOCK (R230): The quad loop loses lock; every lane of the quad stops and sets LOL. -/
  | quadLossOfLock (d : Fin 4) (q : Fin 8)
  /-- CDR_LOCK_CHANGE (R238): Transparent clock recovery gains or loses lock. -/
  | cdrLockChange (d : Fin 4) (l : Fin 32) (lock : Bool)
  /-- LANE_RECEIVE_WORD (R237): A transparent lane pushes each 40 received bits as one word. -/
  | laneReceiveWord (d : Fin 4) (l : Fin 32) (w : BitVec 40) (dt : Nat)
  /-- LANE_TRANSMIT_WORD (R237): A transparent lane pops one word per 40 bit times, or sends the idle word. -/
  | laneTransmitWord (d : Fin 4) (l : Fin 32) (dt : Nat)
  /-- NATIVE_FRAME_RECEIVE (R242): A native frame is received and checked; good frames push their data items. -/
  | nativeFrameReceive (d : Fin 4) (l : Fin 32) (bits : List Bool) (dt : Nat)
  /-- NATIVE_FRAME_SEND (R243): A native lane sends a frame of data, fill and control items. -/
  | nativeFrameSend (d : Fin 4) (l : Fin 32) (dt : Nat)
  /-- STEP_SWITCH (R245): After 64 frames of GO the side switches to the next bring-up step and trains its CTLE. -/
  | stepSwitch (d : Fin 4) (l : Fin 32)
  /-- STEP_FALLBACK (R246): RDY is missing 5 ms after a switch; the side returns a step, lowers CEIL and sets FALLBK. -/
  | stepFallback (d : Fin 4) (l : Fin 32)
  /-- SEEK_RESTART (R246): RDY does not return within 5 ms after a fallback and the side enters SEEK afresh. -/
  | seekRestart (d : Fin 4) (l : Fin 32)
  /-- DOWN_TO_SEEK (R247): 1 µs in DOWN with AUTO set and the lane enters SEEK. -/
  | downToSeek (d : Fin 4) (l : Fin 32)
  /-- LANE_RETRAIN (R247): LANE_CTL.RETRAIN enters SEEK at once. -/
  | laneRetrain (d : Fin 4) (l : Fin 32)
  /-- EYEGO (R249): LANE_CTL.EYEGO starts an eye-margin measurement. -/
  | eyego (d : Fin 4) (l : Fin 32)
  /-- EYE_DONE (R249): The eye measurement ends after 2^GATE bits; DONE is set. -/
  | eyeDone (d : Fin 4) (l : Fin 32) (errs : BitVec 32)
  /-- PLAIN_FLIT (R257): A plain edge flit of eight items of one channel is received. -/
  | plainFlit (e : Fin 14) (j : Fin 32) (noise : List (BitVec 48))
  /-- MARKED_FLIT (R257): A marked edge flit with a descriptor and up to seven items is received. -/
  | markedFlit (e : Fin 14) (j : Fin 32) (noise : List (BitVec 48))
  /-- FLIT_ONE (R256): A transom leaf flit carrying one transom flit is received. -/
  | flitOne (e : Fin 14) (j : Fin 32) (noise : List (BitVec 48))
  /-- FLIT_TWO (R256): A transom leaf flit carrying two transom flits of one channel is received. -/
  | flitTwo (e : Fin 14) (j : Fin 32) (noise : List (BitVec 48))
  /-- ACK (R261): An ACK control flit releases acknowledged replay slots. -/
  | ack (e : Fin 14) (j : Fin 32) (noise : List (BitVec 48))
  /-- ECRED (R261): An ECRED control flit returns edge-channel credits. -/
  | ecred (e : Fin 14) (j : Fin 32) (noise : List (BitVec 48))
  /-- TCRED (R261): A TCRED control flit returns transom stage credits. -/
  | tcred (e : Fin 14) (j : Fin 32) (noise : List (BitVec 48))
  /-- TICK (R261): A TICK control flit carries frame, line, arm, commit, disarm or acknowledge records. -/
  | tick (e : Fin 14) (j : Fin 32) (noise : List (BitVec 48))
  /-- WIDTH (R271): A WIDTH control flit is compared with the receiving end's width and mask. It comes to the first or the second end of hinge k. -/
  | width (k : Fin 6) (second : Bool) (j : Fin 32) (noise : List (BitVec 48))
  /-- REPLAY_TIMEOUT (R263): The oldest held flit has no ACK or NAK for 64 ns and the sender replays. -/
  | replayTimeout (e : Fin 14) (j : Fin 32)
  /-- LEAF_CLOCK_LOSS (R264): A leaf's receiver loses its forwarded clock for 16 beats and the leaf fails. -/
  | leafClockLoss (e : Fin 14) (j : Fin 32)
  /-- HNG_RETRAIN (R267): HNG_CTL.RETRAIN starts training of the hinge. -/
  | hngRetrain (e : Fin 14) (good : BitVec 32)
  /-- TRAINING_STEP_TIMEOUT (R271): A hinge training step exceeds its bound and the hinge fails. -/
  | trainingStepTimeout (k : Fin 6)
  /-- HNG_SNAP (R277): HNG_CTL.SNAP captures the hinge and stage ledgers. -/
  | hngSnap (e : Fin 14)
  /-- FEATURE_LEVEL_FIXED (R273): Once every hinge has trained or failed, HUB_STEP.LEVEL takes the lowest fabric stepping. -/
  | featureLevelFixed
  /-- UCL_UNIT (R279): A Jenwyn unit of transom flits and credits arrives over the companion link. Its 512 bits come by 128, the highest first. -/
  | uclUnit (u3 u2 u1 u0 : BitVec 128) (retry : Bool)
  /-- UCL_RETRAIN (R280): UCL_CTL.RETRAIN retrains the companion link and boards up port 32. -/
  | uclRetrain (v : BitVec 32)
  /-- UCIE_LINK_ERROR (R280): The companion link errors; port 32 is boarded up with cause CMD. -/
  | ucieLinkError
  /-- UCIE_LINK_ACTIVE (R280): The companion link becomes ACTIVE and port 32 is unboarded. -/
  | ucieLinkActive (rate : Fin 4) (x8 : Bool)
  /-- PCIE_RESET (R283): PERST_N, hot reset, link-down or FLR resets the endpoint and host command state. -/
  | pcieReset (kind : Fin 5)
  /-- BAR2_WRITE (R286): A BAR2 write TLP becomes WRP requests of up to 64 slots each. -/
  | bar2Write (b : BitVec 36) (bytes : List (Option (BitVec 8)))
  /-- BAR2_READ (R286): A BAR2 read TLP becomes RD requests, with failures returning 0xFF. -/
  | bar2Read (b : BitVec 36) (len : Nat) (id : Nat)
  /-- HCQ_DOORBELL (R289): A write of HCQ_DB advances TAIL and lets the queue fetch commands. -/
  | hcqDoorbell (q : Fin 64) (v : BitVec 32)
  /-- HCQ_CQH_WRITE (R289): A write of HCQ_CQH reports consumed completions. -/
  | hcqCqhWrite (q : Fin 64) (v : BitVec 32)
  /-- HCQ_ENABLE (R290): Writing HCQ_CFG.EN to 1 resets the ring indices; 0 stops fetching. -/
  | hcqEnable (q : Fin 64) (v : BitVec 32)
  /-- COMMAND_FETCH (R289): The device fetches the next command of a queue when the ring and limits allow. -/
  | commandFetch (q : Fin 64) (cw : List (BitVec 32)) (ok : Bool)
  /-- COMMAND_COMPLETE (R296): A command's completion entry is written after its data, then its MSI-X. -/
  | commandComplete (q : Fin 64) (i : Fin 4096)
  /-- HCQ_NOP (R291): Host command NOP completes at once. -/
  | hcqNop (q : Fin 64)
  /-- DMA_TO (R292): Host command moves n words from host memory to word addresses. -/
  | dmaTo (q : Fin 64) (i : Fin 4096) (bytes : List (BitVec 8)) (ok : Bool)
  /-- DMA_FROM (R292): Host command moves n words from word addresses to host memory. -/
  | dmaFrom (q : Fin 64) (i : Fin 4096)
  /-- ARM (R293): Host command writes a set map and arms a domain, completing when the arm ends. -/
  | arm (q : Fin 64) (map : List (BitVec 32)) (ok : Bool)
  /-- LOAD (R294): Host command passes configuration packets to the controller as a run-time load. -/
  | load (q : Fin 64) (ws : List (BitVec 32)) (ok : Bool)
  /-- LAUNCH (R295): Host command starts an engine as ENG_CTL.START. -/
  | launch (q : Fin 64)
  /-- PARK (R297): Host command parks a fabric die. -/
  | park (q : Fin 64)
  /-- UNPARK (R299): Host command powers, trains, loads and restarts a parked die. -/
  | unpark (q : Fin 64) (ups : BitVec 6) (lock : Bool)
  /-- PCTL_PARK (R297): HUB_PCTL.GO with UNPARK 0 requests a park of DIE. -/
  | pctlPark (d : Fin 4)
  /-- PCTL_UNPARK (R299): HUB_PCTL.GO with UNPARK 1 requests an unpark of DIE. -/
  | pctlUnpark (d : Fin 4) (ups : BitVec 6) (lock : Bool)
  /-- CHAIN_LOCK_CHANGE (R306): A chain receiver gains or loses lock and the device sends KNOCK_REQ upstream. -/
  | chainLockChange (out : Bool) (cs : List ChainChar)
  /-- HEAD_ELECTION (R303): 2 ms after hub reset, a device with no lock on CHAIN_IN_RX becomes head with address 0. -/
  | headElection
  /-- KNOCK_ROUND_START (R304): The head starts a knock round, sending KNOCK with the next ROUND. -/
  | knockRoundStart
  /-- KNOCK (R304): A device receiving KNOCK takes an address and passes the packet on. -/
  | knock (pk : ChainPkt)
  /-- KNOCK_END (R304): KNOCK_END reaches the head, ending the round and filling CHN_MAP. -/
  | knockEnd (pk : ChainPkt)
  /-- KNOCK_REQ (R304): The head receives KNOCK_REQ and, under AUTOK, starts a round. -/
  | knockReq (pk : ChainPkt)
  /-- KNOCK_TIMEOUT (R304): No KNOCK_END within 10 ms; the head sets KTO and ends the round. -/
  | knockTimeout
  /-- CFG (R347): A CFG chain packet carries image octets to chain-booted devices and is forwarded. -/
  | cfg (pk : ChainPkt) (late : Bool)
  /-- MREQ (R307): A management request performs BAR0 accesses at its target and draws an MRSP. -/
  | mreq (pk : ChainPkt) (down : Bool)
  /-- MRSP (R307): A management reply is copied into CHN_RBUF and MDONE is set. -/
  | mrsp (pk : ChainPkt) (down : Bool)
  /-- KPR (R402): A KPR chain packet carries one Keeper message. -/
  | kpr (pk : ChainPkt) (down : Bool)
  /-- CHN_CTL_KNOCK (R304): CHN_CTL.KNOCK asks the head to start a round. -/
  | chnCtlKnock (v : BitVec 32)
  /-- CHN_CTL_MGO (R307): CHN_CTL.MGO sends the MREQ held in CHN_MBUF. -/
  | chnCtlMgo (v : BitVec 32)
  /-- CHN_CTL_SNAP (R308): CHN_CTL.SNAP captures every CHN_LEDGER counter. -/
  | chnCtlSnap (v : BitVec 32)
  /-- MREQ_TIMEOUT (R307): No MRSP within 1 ms; MDONE is set with STATUS 1. -/
  | mreqTimeout
  /-- CLK_HLCFG_WRITE (R322): A write of a loop SRC moves its reference and can end fallback. -/
  | clkHlcfgWrite (v : BitVec 32)
  /-- MUX_SWITCH (R317): A clock multiplexer switches glitch-free between its clocks. -/
  | muxSwitch (id : Fin 12)
  /-- MUX_FORCED_SWITCH (R317): The old clock gives no edge for 64 new-clock cycles; the switch completes without it. -/
  | muxForcedSwitch (id : Fin 12)
  /-- MUX_SWITCH_ABANDON (R317): The new clock gives no edge within 32 SOSC ticks and the switch is abandoned. -/
  | muxSwitchAbandon (id : Fin 12) (dead : Bool)
  /-- FM_GO (R318): FM_CTL.GO starts a frequency measurement. -/
  | fmGo (v : BitVec 32)
  /-- FM_DONE (R318): A frequency measurement ends, FM_CNT is set and DONE is set. -/
  | fmDone (n : BitVec 40)
  /-- MONITOR_WINDOW (R319): A clock monitor window ends; out-of-limits counts set OUT, FAIL, OVR and ROC. -/
  | monitorWindow (i : Fin 6) (n : Nat)
  /-- HUB_LOOP_LOSS_OF_LOCK (R321): A hub loop loses lock and its consumers move through their multiplexer. -/
  | hubLoopLossOfLock (n : Fin 4)
  /-- HUB_LOOP_RELOCK (R321): A hub loop relocks after losing lock. -/
  | hubLoopRelock (n : Fin 4)
  /-- FOSC_CHECK_WINDOW (R323): A 256-tick SOSC window checks FOSC, and two bad windows reset the device. -/
  | foscCheckWindow (n : Nat)
  /-- POWER_ON (R326): Supplies return with PWRGOOD and the reset order runs from step 1. -/
  | powerOn
  /-- HRESET (R326): HRESET_N held low then rises and the device resets. -/
  | hreset
  /-- CLK_RST_DEV (R326): CLK_RST with DEV and the key resets the device. -/
  | clkRstDev (v : BitVec 32)
  /-- LOCK_TIMEOUT (R348): LOCK does not end within 2 ms and the attempt fails with LOCKTO. -/
  | lockTimeout
  /-- DONE_N_HIGH (R349): DONE_N is seen high for 1 µs after release and start-up continues. -/
  | doneNHigh
  /-- DONE_TIMEOUT (R349): The DONE wait reaches DTO x 100 ms; the device continues and sets DONETO. -/
  | doneTimeout
  /-- CLK_HOLD_GO (R331): CLK_HOLD.GO with the key enters HOLD, latching pads and powering down, or is refused. -/
  | clkHoldGo (v : BitVec 32)
  /-- BELL_WAKE (R332): An enabled bell pin edge ends HOLD and the reset order runs from step 2. Of the bell pins that `k` names the filtered
  levels become those of `level` at one moment. -/
  | bellWake (k level : BitVec 4)
  /-- STORE_READ (R336): Store command READ copies 256 octets into CFG_SBUF. -/
  | storeRead
  /-- STORE_PROGRAM (R336): Store command PROGRAM writes CFG_SBUF into a page. -/
  | storeProgram
  /-- STORE_ERASE (R336): Store command ERASE sets a 64 KiB sector to 0xFF. -/
  | storeErase
  /-- STORE_COMMAND_END (R336): A store command ends and DONE is set. -/
  | storeCommandEnd (fail : Bool)
  /-- SKIP_PACKET (R339): A packet with REG 0x00 is passed over unread. -/
  | skipPacket
  /-- CFG_IDCODE (R339): A CFG_IDCODE packet is checked against the device's IDCODE. -/
  | cfgIdcode
  /-- CFG_FSEL (R339): A CFG_FSEL packet sets the frame select. -/
  | cfgFsel
  /-- CFG_FLOAD (R341): A CFG_FLOAD packet checks and writes n frames at the frame select. -/
  | cfgFload (bad : Bool)
  /-- CFG_CTL (R339): A CFG_CTL packet marks a full load or restarts the running CRC. -/
  | cfgCtl
  /-- CFG_CRC (R339): A CFG_CRC packet checks the running CRC. -/
  | cfgCrc
  /-- CFG_START_ORDER (R348): A CFG_START_ORDER packet sets the start-up order of a boot image. -/
  | cfgStartOrder
  /-- CFG_SHUT (R352): A CFG_SHUT packet shuts or opens a pane in a run-time stream. -/
  | cfgShut
  /-- CFG_END (R340): A CFG_END packet checks the frame count and closes the load or stream. -/
  | cfgEnd
  /-- CFG_RTPKT_WRITE (R351): A host word written to CFG_RTPKT feeds or opens a run-time stream. -/
  | cfgRtpktWrite (v : BitVec 32)
  /-- RTPKT_STREAM_TIMEOUT (R351): 10 ms without a CFG_RTPKT write closes the stream. -/
  | rtpktStreamTimeout
  /-- READBACK (R353): CFG_RBSEL.GO reads one frame from the live or shadow copy. -/
  | readback (v : BitVec 32)
  /-- SCRUB_FRAME (R354): The scrubber reads a frame copy and corrects or reports it. -/
  | scrubFrame (copy : Fin 2) (f : BitVec 25)
  /-- REGION_RELOAD (R356): A region reload rewrites queued uncorrectable frames from the running slot. -/
  | regionReload
  /-- SCRUB_SELF_FAULT (R357): The scrubber's redundant control disagrees; it stops and sets SELF. -/
  | scrubSelfFault
  /-- CFG_SCRUB_WRITE (R357): A write of CFG_SCRUB reloads every copy of the scrubber settings. -/
  | cfgScrubWrite (v : BitVec 32)
  /-- IST_CELL_SIGNATURE (R358): After 64 idle slots a pane's test signature is compared with CFG_ISTREF. -/
  | istCellSignature (d : Fin 4) (p : Fin 64) (sig : BitVec 32) (dt : Nat)
  /-- IST_ENGINE_TEST (R358): An idle engine completes its 256-cycle test and its signature is compared. -/
  | istEngineTest (d : Fin 4) (e : Fin 128) (sig : BitVec 32)
  /-- IST_SPARE_LEAF_BLOCK (R358): A spare hinge leaf completes a pattern block and CFG_ISTHNG is updated. -/
  | istSpareLeafBlock (k : Fin 6) (j : Fin 32) (bad : Bool)
  /-- OTP_PROGRAM (R368): OTP_CMD PROGRAM writes OTP_DATA into the next generation of a field. -/
  | otpProgram (f : Fin 16)
  /-- OTP_VOID (R368): OTP_CMD VOID voids the active generation of a field. -/
  | otpVoid (f : Fin 16)
  /-- OTP_COMMAND_END (R369): An OTP command completes and OTP_GEN follows. -/
  | otpCommandEnd
  /-- EXTEST (R371): The TAP drives pins from the boundary register. -/
  | extest (done : Bool) (data : Option (BitVec 194))
  /-- JTAG_IDCODE (R371): The TAP selects the identification register. -/
  | jtagIdcode
  /-- SAMPLE_PRELOAD (R371): The TAP samples or preloads the boundary register. -/
  | samplePreload (done : Bool) (data : Option (BitVec 194))
  /-- HIGHZ (R371): The TAP places pins in high impedance. -/
  | highz
  /-- CLAMP (R371): The TAP clamps pins to the boundary register and selects bypass. -/
  | clamp
  /-- BYPASS (R371): The TAP selects the bypass register. -/
  | bypass
  /-- LOCKSTEP_DISAGREEMENT (R374): SC's cores disagree; SC stops and sets LSERR. -/
  | lockstepDisagreement
  /-- VOLTAGE_SAMPLE (R375): A voltage monitor samples its rail; two bad samples set VOUT and ROC. -/
  | voltageSample (i : Fin 9) (mv : BitVec 12)
  /-- TEMPERATURE_SAMPLE (R376): A temperature sensor sample sets DB_TEMP and WARN, TRIP or ROC. -/
  | temperatureSample (i : Fin 19) (t : BitVec 12)
  /-- THERMAL_TRIP_RESET (R376): 1 ms after a trip, or at 125 °C, the device resets with cause 6. -/
  | thermalTripReset
  /-- DEADBOLT_WATCHDOG_EXPIRY (R377): The deadbolt watchdog expires, setting EXP and reloading to WDGRACE, or resets the device. -/
  | deadboltWatchdogExpiry
  /-- HEARTBEAT (R378): A write of HUB_DBBEAT reloads the watchdog if good, else counts BADBEAT. -/
  | heartbeat (v : BitVec 32)
  /-- SC_WATCHDOG_RELOAD (R378): SC reloads the watchdog every 1 ms while start-up, WDSTART, HOLD or FAILED lasts. -/
  | scWatchdogReload
  /-- PIN_INPUT_EDGE (R386): A filtered pin edge or level sets PIN_ISTAT as IMODE names. -/
  | pinInputEdge (k : Fin 64) (raw : Bool) (ticks : Nat) (dt : Nat)
  /-- PIN_GPOUT_WRITE (R389): A write of PIN_GPOUT or PIN_GPOE drives GPIO pins within 100 ns. -/
  | pinGpoutWrite (b : Fin 4) (oe : Bool) (v : BitVec 32)
  /-- UART_TX_WRITE (R391): A write of UART_TX pushes an octet for transmission. -/
  | uartTxWrite (u : Fin 4) (v : BitVec 32)
  /-- UART_RX_OCTET (R391): A UART receives an octet into its FIFO or loses it with OVR. -/
  | uartRxOctet (u : Fin 4) (o : BitVec 8) (perr : Bool) (ferr : Bool)
  /-- UART_POP (R391): UART_CTL.POP removes the head received octet. -/
  | uartPop (u : Fin 4)
  /-- I2C_START (R391): I2C OP START issues a start condition. -/
  | i2cStart (i : Fin 2)
  /-- I2C_WRITE_DATA (R391): I2C OP WRITE DATA writes one octet. -/
  | i2cWriteData (i : Fin 2) (data : BitVec 8)
  /-- I2C_READ_WITH_ACK (R391): I2C OP reads one octet and acknowledges. -/
  | i2cReadWithAck (i : Fin 2)
  /-- I2C_READ_WITH_NACK (R391): I2C OP reads one octet and does not acknowledge. -/
  | i2cReadWithNack (i : Fin 2)
  /-- I2C_STOP (R391): I2C OP STOP issues a stop condition. -/
  | i2cStop (i : Fin 2)
  /-- I2C_OP_DONE (R391): An I2C OP ends and DONE is set, with NACK or ARBL as found. -/
  | i2cOpDone (i : Fin 2) (rdata : BitVec 8) (nack : Bool) (arbl : Bool)
  /-- SPI_XFER_GO (R391): SPI_XFER.GO starts an 8-bit exchange. -/
  | spiXferGo (i : Fin 2) (v : BitVec 32)
  /-- SPI_XFER_DONE (R391): An SPI exchange ends, RDATA is set and DONE is set. -/
  | spiXferDone (i : Fin 2) (rdata : BitVec 8)
  /-- FAN_COUNT_UPDATE (R392): Each whole second FAN_STAT.COUNT takes the tachometer edges of that second. -/
  | fanCountUpdate (f : Fin 2)
  /-- FPIN_WORD_OUT (R394): A fabric output pin pops a word at the start of each word time. -/
  | fpinWordOut (d : Fin 4) (n : Fin 48) (dt : Nat)
  /-- FPIN_WORD_IN (R394): A fabric input pin pushes a sampled word at the end of each word time. -/
  | fpinWordIn (d : Fin 4) (n : Fin 48) (w : BitVec 40) (dt : Nat)
  /-- EVENT_SOURCE_CHANGE (R397): A source rises or falls and groups, core lines, MSI-X and NMI follow. -/
  | eventSourceChange (n : Fin 1704)
  /-- EVT_SRC_WRITE (R398): A write of EVT_SRC re-routes a source between groups. -/
  | evtSrcWrite (n : Fin 1704) (v : BitVec 32)
  /-- EVT_GACK_WRITE (R398): A write of EVT_GACK resends the vector of an active group. -/
  | evtGackWrite (hi : Bool) (v : BitVec 32)
  /-- EVT_SWSET_WRITE (R396): A write of EVT_SWSET raises software sources. -/
  | evtSwsetWrite (v : BitVec 32)
  /-- EVT_SWCLR_WRITE (R396): A write of EVT_SWCLR clears software sources. -/
  | evtSwclrWrite (v : BitVec 32)
  /-- KPR_TXD_WRITE (R404): A host word written to KPR_TXD enters the Keeper mailbox, or is ignored with TXOVR. -/
  | kprTxdWrite (v : BitVec 32)
  /-- KPR_RXPOP_WRITE (R404): KPR_RXPOP removes the oldest word from the Keeper. -/
  | kprRxpopWrite (v : BitVec 32)
  /-- MAILBOX_GAP_TIMEOUT (R404): 10 ms pass between two mailbox words and the partial message is discarded. -/
  | mailboxGapTimeout
  /-- IDENT (R405): Keeper replies with IDCODE and the device identity key. -/
  | ident (c : Fin 3)
  /-- HELLO (R405): Keeper starts a session opening and replies CHAL. -/
  | hello (c : Fin 3)
  /-- OWNK (R405): Keeper checks the owner debug key against DKH. -/
  | ownk (c : Fin 3)
  /-- CRED (R405): Keeper verifies the debug credential and its level. -/
  | cred (c : Fin 3)
  /-- PROVE (R405): Keeper verifies the subject's signature and opens the session. -/
  | prove (c : Fin 3)
  /-- OPENING_TIMEOUT (R405): A session opening gets no next request within 1 s and is abandoned. -/
  | openingTimeout
  /-- SESSION_IDLE_TIMEOUT (R406): 60 s without a valid request ends the session. -/
  | sessionIdleTimeout
  /-- BYE (R406): BYE ends the session, resuming halted targets. -/
  | bye (c : Fin 3)
  /-- KEEPER_RD (R409): Keeper reads BAR0 host words through the debug bus master. -/
  | keeperRd (c : Fin 3)
  /-- KEEPER_WR (R408): Keeper writes BAR0 host words through the debug bus master. -/
  | keeperWr (c : Fin 3)
  /-- KEEPER_TRD (R409): Keeper reads transom words through the debug bus master. -/
  | keeperTrd (c : Fin 3)
  /-- KEEPER_TWR (R408): Keeper writes transom words through the debug bus master. -/
  | keeperTwr (c : Fin 3)
  /-- HALT (R410): Keeper halts an engine or MC0, deferring for a locked sequence. -/
  | halt (c : Fin 3)
  /-- RESUME (R410): Keeper resumes a halted target. -/
  | resume (c : Fin 3)
  /-- STEP (R410): Keeper steps a halted target by one bundle or instruction. -/
  | step (c : Fin 3)
  /-- TSTAT (R407): Keeper returns a target's status. -/
  | tstat (c : Fin 3)
  /-- RREG (R412): Keeper reads a register of a halted or idle target. -/
  | rreg (c : Fin 3)
  /-- WREG (R412): Keeper writes a register of a halted or idle target. -/
  | wreg (c : Fin 3)
  /-- WDSUSP (R414): Keeper asks SC to suspend the deadbolt watchdog under a level-3 credential. -/
  | wdsusp (c : Fin 3)
  /-- WDRES (R414): Keeper ends a watchdog suspension. -/
  | wdres (c : Fin 3)
  /-- WATCHDOG_SUSPENSION_END (R414): A watchdog suspension's duration runs out and the watchdog reloads. -/
  | watchdogSuspensionEnd
  /-- DBCLR (R415): Keeper asks SC to clear deadbolt W1C bits whose conditions are absent. -/
  | dbclr (c : Fin 3)
  /-- MC0_HALT_DEFER_EXPIRY (R411): A deferred MC0 halt reaches 1,024 cycles and MC0 halts holding its lock. -/
  | mc0HaltDeferExpiry
  /-- MC_WDT_KICK (R413): MC_WDT.KICK reloads a core watchdog. -/
  | mcWdtKick (c : Fin 2) (v : BitVec 32)
  /-- MC_WATCHDOG_EXPIRY (R413): A core watchdog reaches 0, sets EXPD and reloads. -/
  | mcWatchdogExpiry (c : Fin 2)
  /-- DIAG_INJ_DATA_BIT (R423): DIAG_INJ kind 1 inverts one data bit of the next DDR5 block written. -/
  | diagInjDataBit (key : BitVec 16) (tgt : Fin 64)
  /-- DIAG_INJ_TWO_SYMBOLS (R423): DIAG_INJ kind 2 corrupts two symbols of the next DDR5 block written. -/
  | diagInjTwoSymbols (key : BitVec 16) (tgt : Fin 64)
  /-- DIAG_INJ_PARITY (R423): DIAG_INJ kind 3 inverts a parity bit of the next data word leaving a hub port. -/
  | diagInjParity (key : BitVec 16) (tgt : Fin 64)
  /-- DIAG_INJ_FLIT_CRC (R423): DIAG_INJ kind 4 inverts the CRC of the next flit from a hub hinge end. -/
  | diagInjFlitCrc (key : BitVec 16) (tgt : Fin 64)
  /-- DIAG_CRED_ADD (R423): DIAG_CRED adds one credit at a hub switch output. -/
  | diagCredAdd (key : BitVec 16) (port : Fin 64) (vc : Fin 8)
  /-- DIAG_CRED_REMOVE (R423): DIAG_CRED removes one credit at a hub switch output. -/
  | diagCredRemove (key : BitVec 16) (port : Fin 64) (vc : Fin 8)
  /-- SLOT_NOP (R123): An engine slot whose opcode is 0x00 has no effect, so a bundle of such slots only advances PC, counts towards the watchdog
  and can end a loop iteration. -/
  | slotNop (d : Fin 4) (e : Fin 128) (dt : Nat)
  /-- DDR_TRAINING_DONE (R221): The last step of a controller's training sequence completes and the controller enters ONLINE. -/
  | ddrTrainingDone (c : Fin 8) (fail : Fin 9) (sc : Fin 2)
  /-- PCIE_LINK_UP (R283): The PCIe link finishes training after PERST_N and hub reset are released, and HOST_LINK takes its speed and width. -/
  | pcieLinkUp (speed : Fin 6) (width : Fin 17)
  /-- UART_TX_OCTET_SENT (R391): A UART finishes sending an octet from its transmit FIFO, raising TXFREE and possibly the UART_u source under TXIE. -/
  | uartTxOctetSent (u : Fin 4)
  /-- LEAF_FLIT_SEND (R255): In each flit slot a hinge leaf sends a flit, chosen under R259, R260 and R269 and entered into the replay buffer, or an
  idle flit, with ACKs and NAKs placed in control flits as R262 requires. -/
  | leafFlitSend (e : Fin 14) (j : Fin 32) (sel : FlitSel)
  /-- PWRGOOD_FALL (R333): The board drives PWRGOOD low before supplies leave their range, and the device loses power and all state except OTP and
  the store die. -/
  | pwrgoodFall
  deriving DecidableEq, Repr

end Sys2Proof
end

