-- ==== Sys2Proof/Decode.lean ====
section
/-!
DEFINITION. The command that a word spells by the bits of spec/opcode_table.json. The table gives no row any bits: its rows are
accesses, packets and events, whose operands the device takes from its interfaces. No word spells a command.
-/
namespace Sys2Proof

/-- The command spelled by `w` in `nbits` bits: none. -/
def decodeTableWord (_nbits _w : Nat) : Option Instr := none

end Sys2Proof
end

