-- ==== Sys2Proof/Config.lean ====
section
/-!
DEFINITION. What the spec leaves open, and the functions it takes from other standards, as constants without a body: nothing can
be proved of their values, so that a statement that holds in this model holds whatever they are. A step that needs a value the spec
leaves open reads `freeValue` at the counter `State.fresh` and advances the counter.
-/
namespace Sys2Proof.Config

/-- Values the spec leaves open, one for each use (DESIGN CHOICE, log entry 2). -/
opaque freeValue : Nat → Nat

/-- The seven SECDED check bits over an entry's word and tag (R149); the spec names the code and does not write it out (log entry 27). -/
opaque secded : BitVec 41 → BitVec 7

/-- The check word of a burst block: the five Reed–Solomon check symbols over its 75 data octets, given as words 0 to 14, and its local number
(R214); the spec names the code's field and size and does not write it out (log entry 27). -/
opaque rsCheck : List (BitVec 40) → Nat → BitVec 40

/-! Functions of FIPS 180-4, FIPS 186-5, FIPS 198-1, NIST SP 800-38D, SP 800-56A and SP 800-208, which the spec names and does not write
out (DESIGN CHOICE, log entry 3). -/

/-- SHA-384 of a string of octets, as a number whose most significant octet is the first. -/
opaque sha384 : List Octet → Nat

/-- Does an ECDSA P-384 signature (r then s) verify over a digest with a public key (x then y)? -/
opaque ecdsaOk : List Octet → Nat → List Octet → Bool

/-- Host word `i` of the ECDSA P-384 signature of a digest with a private key. -/
opaque ecdsaWord : Nat → Nat → Nat → HWord

/-- The signature: 24 host words. -/
def ecdsaSign (key digest : Nat) : List HWord := (List.range 24).map (ecdsaWord key digest)

/-- Host word `i` of the public key of a P-384 private key. -/
opaque ecPublicWord : Nat → Nat → HWord

/-- The public key: x then y, 24 host words. -/
def ecPublic (key : Nat) : List HWord := (List.range 24).map (ecPublicWord key)

/-- Octet `i` of the x-coordinate of the ECDH P-384 point of a private key and a public key. -/
opaque ecdhOctet : Nat → List HWord → Nat → Octet

/-- The x-coordinate: 48 octets. -/
def ecdhX (key : Nat) (pub : List HWord) : List Octet := (List.range 48).map (ecdhOctet key pub)

/-- Does an LMS signature verify over a digest with a public key, the types of both being among those R363 names? -/
opaque lmsOk : List Octet → Nat → List Octet → Bool

/-- Host word `i` of HMAC-SHA-384 under a key. -/
opaque hmacWord : Nat → List Octet → Nat → HWord

/-- The first 16 octets of HMAC-SHA-384, as four host words. -/
def hmacTag (key : Nat) (os : List Octet) : List HWord := (List.range 4).map (hmacWord key os)

/-- Host word `i` of the AES-256-GCM key stream of a key and a nonce, with which a ciphertext word is combined by XOR. -/
opaque gcmStream : Nat → Nat → Nat → HWord

/-- The AES-256-GCM tag of a key, a nonce, additional data and a ciphertext. -/
opaque gcmTag : Nat → Nat → List HWord → List HWord → Nat

end Sys2Proof.Config
end

