-- ==== Sys2Proof/Machine/Regs.lean ====
section
/-!
DEFINITION. The register file's layout: every register of Tables 18.5 and 18.6 (R424), where it stands (R418, R419), its fields
and their type codes (Table 0.5, R7), as the register tables of the defining chapters (R12) give them.
`R.<REGISTER>` is a register's BAR0 offset, `F.<REGISTER>.<FIELD>` a field's bit range, `regTab` the type codes.
The hub switch's TR_CTL, TR_ERR, TR_LEDGER and TR_DPATH, which share a name with a router's, are spelled HTR_…; the
ledgers of the transom stages at a hinge end (Table 8.11) HNGTR_LEDGER.
-/
namespace Sys2Proof.Machine

/-- The register types of the device (R424), one constructor each. -/
inductive RegKind where
  | HUB_PARTID | HUB_INTEGRITY | HUB_STEP | HUB_PCTL | HUB_WMSUM | HUB_TRSUM
  | HUB_DBBEAT | MC_WDT | CHN_CTL | CHN_CFG | CHN_STAT | CHN_MAP
  | CHN_CNT | CHN_LEDGER | CHN_MBUF | CHN_RBUF | HOST_CTL | HOST_HWB_L
  | HOST_HWB_H | HOST_LINK | HOST_ERR | MSG_RB_L | MSG_RB_H | MSG_CFG
  | MSG_TAIL | MSG_HEAD | MSG_DROP | DIAG_INJ | DIAG_CRED | CLK_XCFG
  | CLK_HLCFG | CLK_HLSTAT | CLK_MUX | CLK_VFAB | CLK_RST | CLK_RSTCAUSE
  | CLK_HOLD | FM_CTL | FM_CNT_L | FM_CNT_H | PIN_CFG | PIN_GPOUT
  | PIN_GPOE | PIN_GPIN | PIN_ISTAT | PIN_TALLY | PIN_STAT | PIN_TS_L
  | PIN_TS_H | PIN_TSSTAT | FAN_CFG | FAN_STAT | UART_CFG | UART_TX
  | UART_RX | UART_CTL | UART_STAT | I2C_CMD | I2C_STAT | I2C_CFG
  | SPI_CFG | SPI_XFER | SPI_STAT | EVT_RAISED | EVT_GCFG | EVT_GSTAT
  | EVT_GACK_L | EVT_GACK_H | EVT_NMI | EVT_NMISTAT | EVT_SWSET | EVT_SWCLR
  | EVT_CPEND | EVT_SRC | CFG_BOOT | CFG_IDCODE | CFG_BSTAT | CFG_BFSEL
  | CFG_SORDER | CFG_SADR | CFG_SCMD | CFG_RTPKT | CFG_RTSTAT | CFG_RBSEL
  | CFG_SCRUB | CFG_SCRST | CFG_SCCNT | CFG_SCUEA | CFG_IST | CFG_ISTREF
  | CFG_ISTFAIL | CFG_ISTEFAIL | CFG_ISTHNG | CFG_SBUF | CFG_RBDAT | SEC_STAT
  | SEC_DIGEST | OTP_CMD | OTP_STAT | OTP_DATA | OTP_GEN | OTP_VAL
  | DB_STAT | DB_WDT | DB_LOG | DB_VSTAT | DB_TSTAT | DB_TEMP
  | DB_VOLT | CM_CFG | CM_STATUS | CM_PLOL | KPR_STAT | KPR_CFG
  | KPR_TXD | KPR_RXD | KPR_RXPOP | KPR_VTSTAT | KPR_HSTAT | DDR_CTL
  | DDR_CFG | DDR_STATUS | DDR_QOS | DDR_SCRUB | DDR_ERR | DDR_UEADR
  | DDR_MAP | DDR_FSHIN | DDR_FSHL | DDR_FSHF | HCQ_CFG | HCQ_SQB_L
  | HCQ_SQB_H | HCQ_CQB_L | HCQ_CQB_H | HCQ_DB | HCQ_CQH | HCQ_STAT
  | TBU_INCR | TBU_NOW_L | TBU_NOW_H | TBU_SET_L | TBU_SET_H | TB_CFG
  | TB_RATE | TB_LINES | TB_OFFSET | TB_POS | TB_FRAMEL | TB_FRAMEH
  | SHT_ARM | SHT_STATUS | SHT_MISS | SHT_SET | HTR_CTL | TR_HBRD_L
  | TR_HBRD_H | HTR_ERR | TR_HBOARD_L | TR_HBOARD_H | TR_HUNBOARD_L | TR_HUNBOARD_H
  | TR_GSNAP | TR_PDTO | HTR_DPATH | HTR_LEDGER | SD_K0L | SD_K0H
  | SD_K1L | SD_K1H | SD_AL | SD_AH | SD_CMD | SD_RES
  | SD_COUNT | SD_HITS | SD_MISSES | SD_RUNT | UCL_CTL | UCL_STAT
  | PANE_CTX | PANE_CLK | PANE_LVSCHED | PANE_LVERR | PANE_LVILL | PANE_BUSCON
  | PANE_CHIN | PANE_CHOUT | PANE_CHSTAT | WM_CFG | WM_LCTL | WM_ERR
  | WM_QCFG | WM_QIDLE_L | WM_QIDLE_H | WM_QSTAT | WM_QLEDGER | WM_MVCFG
  | WM_MVBASE_L | WM_MVBASE_H | WM_MVLSTR | WM_MVFSTR | WM_MVSTAT | LANE_CTL
  | LANE_CFG | LANE_TX | LANE_CTLE | LANE_QB | LANE_NCFG | LANE_STAT
  | LANE_PCAP_L | LANE_PCAP_H | LANE_ERR | LANE_CNT_BAD | LANE_CNT_DROP | LANE_CNT_UNDR
  | LANE_CNT_GOOD | LANE_CNT_RST | LANE_EYE | LANE_EYER | LANE_QCLK | ENG_CTL
  | ENG_STATUS | ENG_CFG | ENG_WDT | ENG_SPB | ENG_ERR | ENG_SIG
  | ENG_STALLS | HNG_CTL | HNG_STAT | HNG_LFAIL | HNG_XMASK | HNG_ERR
  | HNG_CNT | HNGTR_LEDGER | HNG_LEDGER | TR_CTL | TR_STAT | TR_CMD
  | TR_ERR | TR_PPRI | TR_LEDGER | TR_DPATH | FPIN_CFG | FPIN_ERR_L
  | FPIN_ERR_H
  deriving DecidableEq, Repr

/-- One line of the register tables: where the instances stand and which bits carry which type code of Table 0.5 (R7).
`dims` lists (stride, count) of the instance indexes, outermost first; `reset` holds the reset values the tables give, with 0
for the fields an image or OTP fills; `img` marks the fields whose reset is "image" (R328, R338, R342). -/
structure RegRow where
  kind : RegKind
  base : Nat
  dims : List (Nat × Nat)
  ro : BitVec 32
  rw : BitVec 32
  w1c : BitVec 32
  w1s : BitVec 32
  rc : BitVec 32
  wo : BitVec 32
  st : BitVec 32
  lk : BitVec 32
  img : BitVec 32
  reset : BitVec 32
  deriving DecidableEq, Repr

/-- The block of hinge end `e`: ends 0–11 are port h of fabric die d at e = 3d + h, ends 12 and 13 the hub's ends of hinges
H–F0 and H–F1 (R14, Tables 18.1, 18.2). -/
def hngBlock (e : Nat) : Nat :=
  if e < 12 then 0x1180000 + (e / 3) * 0x400000 + (e % 3) * 0x1000 else 0x410000 + (e - 12) * 0x1000

namespace R
def HUB_PARTID : Nat := 0x0
def HUB_INTEGRITY : Nat := 0x4
def HUB_STEP : Nat := 0x8
def HUB_PCTL : Nat := 0x10
def HUB_WMSUM (x i : Nat) : Nat := 0x100 + x * 0x8 + i * 0x4
def HUB_TRSUM (x i : Nat) : Nat := 0x120 + x * 0x8 + i * 0x4
def HUB_DBBEAT : Nat := 0x200
def MC_WDT (i : Nat) : Nat := 0x300 + i * 0x4
def CHN_CTL : Nat := 0x800
def CHN_CFG : Nat := 0x804
def CHN_STAT : Nat := 0x808
def CHN_MAP : Nat := 0x80c
def CHN_CNT : Nat := 0x810
def CHN_LEDGER (i : Nat) : Nat := 0x840 + i * 0x4
def CHN_MBUF (i : Nat) : Nat := 0x900 + i * 0x4
def CHN_RBUF (i : Nat) : Nat := 0x980 + i * 0x4
def HOST_CTL : Nat := 0x1000
def HOST_HWB_L : Nat := 0x1004
def HOST_HWB_H : Nat := 0x1008
def HOST_LINK : Nat := 0x100c
def HOST_ERR : Nat := 0x1010
def MSG_RB_L (i : Nat) : Nat := 0x1100 + i * 0x20
def MSG_RB_H (i : Nat) : Nat := 0x1104 + i * 0x20
def MSG_CFG (i : Nat) : Nat := 0x1108 + i * 0x20
def MSG_TAIL (i : Nat) : Nat := 0x110c + i * 0x20
def MSG_HEAD (i : Nat) : Nat := 0x1110 + i * 0x20
def MSG_DROP (i : Nat) : Nat := 0x1114 + i * 0x20
def DIAG_INJ : Nat := 0x4000
def DIAG_CRED : Nat := 0x4004
def CLK_XCFG : Nat := 0x10000
def CLK_HLCFG : Nat := 0x10004
def CLK_HLSTAT : Nat := 0x10008
def CLK_MUX : Nat := 0x1000c
def CLK_VFAB : Nat := 0x10010
def CLK_RST : Nat := 0x10020
def CLK_RSTCAUSE : Nat := 0x10024
def CLK_HOLD : Nat := 0x10028
def FM_CTL : Nat := 0x10040
def FM_CNT_L : Nat := 0x10044
def FM_CNT_H : Nat := 0x10048
def PIN_CFG (i : Nat) : Nat := 0x20000 + i * 0x4
def PIN_GPOUT (i : Nat) : Nat := 0x20100 + i * 0x20
def PIN_GPOE (i : Nat) : Nat := 0x20104 + i * 0x20
def PIN_GPIN (i : Nat) : Nat := 0x20108 + i * 0x20
def PIN_ISTAT (i : Nat) : Nat := 0x2010c + i * 0x20
def PIN_TALLY (i : Nat) : Nat := 0x20110 + i * 0x20
def PIN_STAT : Nat := 0x20180
def PIN_TS_L (i : Nat) : Nat := 0x201c0 + i * 0x10
def PIN_TS_H (i : Nat) : Nat := 0x201c4 + i * 0x10
def PIN_TSSTAT (i : Nat) : Nat := 0x201c8 + i * 0x10
def FAN_CFG (i : Nat) : Nat := 0x20600 + i * 0x10
def FAN_STAT (i : Nat) : Nat := 0x20604 + i * 0x10
def UART_CFG (i : Nat) : Nat := 0x20800 + i * 0x20
def UART_TX (i : Nat) : Nat := 0x20804 + i * 0x20
def UART_RX (i : Nat) : Nat := 0x20808 + i * 0x20
def UART_CTL (i : Nat) : Nat := 0x2080c + i * 0x20
def UART_STAT (i : Nat) : Nat := 0x20810 + i * 0x20
def I2C_CMD (i : Nat) : Nat := 0x20900 + i * 0x20
def I2C_STAT (i : Nat) : Nat := 0x20904 + i * 0x20
def I2C_CFG (i : Nat) : Nat := 0x20908 + i * 0x20
def SPI_CFG (i : Nat) : Nat := 0x20a00 + i * 0x20
def SPI_XFER (i : Nat) : Nat := 0x20a04 + i * 0x20
def SPI_STAT (i : Nat) : Nat := 0x20a08 + i * 0x20
def EVT_RAISED (i : Nat) : Nat := 0x21000 + i * 0x4
def EVT_GCFG (i : Nat) : Nat := 0x21200 + i * 0x4
def EVT_GSTAT (i : Nat) : Nat := 0x21300 + i * 0x4
def EVT_GACK_L : Nat := 0x21400
def EVT_GACK_H : Nat := 0x21404
def EVT_NMI : Nat := 0x21408
def EVT_NMISTAT : Nat := 0x2140c
def EVT_SWSET : Nat := 0x21410
def EVT_SWCLR : Nat := 0x21414
def EVT_CPEND (x i : Nat) : Nat := 0x21420 + x * 0x8 + i * 0x4
def EVT_SRC (i : Nat) : Nat := 0x28000 + i * 0x4
def CFG_BOOT : Nat := 0x30000
def CFG_IDCODE : Nat := 0x30004
def CFG_BSTAT : Nat := 0x30008
def CFG_BFSEL : Nat := 0x3000c
def CFG_SORDER : Nat := 0x30010
def CFG_SADR : Nat := 0x30020
def CFG_SCMD : Nat := 0x30024
def CFG_RTPKT : Nat := 0x30030
def CFG_RTSTAT : Nat := 0x30034
def CFG_RBSEL : Nat := 0x30040
def CFG_SCRUB : Nat := 0x30050
def CFG_SCRST : Nat := 0x30054
def CFG_SCCNT : Nat := 0x30058
def CFG_SCUEA : Nat := 0x3005c
def CFG_IST : Nat := 0x30060
def CFG_ISTREF : Nat := 0x30064
def CFG_ISTFAIL (x i : Nat) : Nat := 0x30080 + x * 0x8 + i * 0x4
def CFG_ISTEFAIL (x i : Nat) : Nat := 0x300a0 + x * 0x10 + i * 0x4
def CFG_ISTHNG (i : Nat) : Nat := 0x300e0 + i * 0x4
def CFG_SBUF (i : Nat) : Nat := 0x30100 + i * 0x4
def CFG_RBDAT (i : Nat) : Nat := 0x30200 + i * 0x4
def SEC_STAT : Nat := 0x40000
def SEC_DIGEST (i : Nat) : Nat := 0x40010 + i * 0x4
def OTP_CMD : Nat := 0x40040
def OTP_STAT : Nat := 0x40044
def OTP_DATA (i : Nat) : Nat := 0x40080 + i * 0x4
def OTP_GEN (i : Nat) : Nat := 0x400c0 + i * 0x4
def OTP_VAL (x i : Nat) : Nat := 0x40100 + x * 0x40 + i * 0x4
def DB_STAT : Nat := 0x50000
def DB_WDT : Nat := 0x50004
def DB_LOG : Nat := 0x50008
def DB_VSTAT : Nat := 0x50010
def DB_TSTAT : Nat := 0x50014
def DB_TEMP (i : Nat) : Nat := 0x50040 + i * 0x4
def DB_VOLT (i : Nat) : Nat := 0x500c0 + i * 0x4
def CM_CFG : Nat := 0x50100
def CM_STATUS : Nat := 0x50104
def CM_PLOL (x i : Nat) : Nat := 0x50108 + x * 0x8 + i * 0x4
def KPR_STAT : Nat := 0x60000
def KPR_CFG : Nat := 0x60004
def KPR_TXD : Nat := 0x60010
def KPR_RXD : Nat := 0x60014
def KPR_RXPOP : Nat := 0x60018
def KPR_VTSTAT : Nat := 0x6001c
def KPR_HSTAT : Nat := 0x60020
def DDR_CTL (c : Nat) : Nat := 0x80000 + c * 0x8000
def DDR_CFG (c : Nat) : Nat := 0x80004 + c * 0x8000
def DDR_STATUS (c : Nat) : Nat := 0x80008 + c * 0x8000
def DDR_QOS (c : Nat) : Nat := 0x8000c + c * 0x8000
def DDR_SCRUB (c : Nat) : Nat := 0x80010 + c * 0x8000
def DDR_ERR (c i : Nat) : Nat := 0x80020 + c * 0x8000 + i * 0x10
def DDR_UEADR (c i : Nat) : Nat := 0x80024 + c * 0x8000 + i * 0x10
def DDR_MAP : Nat := 0xc0000
def DDR_FSHIN : Nat := 0xc0010
def DDR_FSHL : Nat := 0xc0014
def DDR_FSHF : Nat := 0xc0018
def HCQ_CFG (q : Nat) : Nat := 0x100000 + q * 0x40
def HCQ_SQB_L (q : Nat) : Nat := 0x100004 + q * 0x40
def HCQ_SQB_H (q : Nat) : Nat := 0x100008 + q * 0x40
def HCQ_CQB_L (q : Nat) : Nat := 0x10000c + q * 0x40
def HCQ_CQB_H (q : Nat) : Nat := 0x100010 + q * 0x40
def HCQ_DB (q : Nat) : Nat := 0x100014 + q * 0x40
def HCQ_CQH (q : Nat) : Nat := 0x100018 + q * 0x40
def HCQ_STAT (q : Nat) : Nat := 0x10001c + q * 0x40
def TBU_INCR : Nat := 0x200000
def TBU_NOW_L : Nat := 0x200004
def TBU_NOW_H : Nat := 0x200008
def TBU_SET_L : Nat := 0x20000c
def TBU_SET_H : Nat := 0x200010
def TB_CFG (i : Nat) : Nat := 0x200100 + i * 0x20
def TB_RATE (i : Nat) : Nat := 0x200104 + i * 0x20
def TB_LINES (i : Nat) : Nat := 0x200108 + i * 0x20
def TB_OFFSET (i : Nat) : Nat := 0x20010c + i * 0x20
def TB_POS (i : Nat) : Nat := 0x200110 + i * 0x20
def TB_FRAMEL (i : Nat) : Nat := 0x200114 + i * 0x20
def TB_FRAMEH (i : Nat) : Nat := 0x200118 + i * 0x20
def SHT_ARM (i : Nat) : Nat := 0x200400 + i * 0x10
def SHT_STATUS (i : Nat) : Nat := 0x200404 + i * 0x10
def SHT_MISS (i : Nat) : Nat := 0x200408 + i * 0x10
def SHT_SET (x i : Nat) : Nat := 0x200800 + x * 0x80 + i * 0x4
def HTR_CTL : Nat := 0x400000
def TR_HBRD_L : Nat := 0x400004
def TR_HBRD_H : Nat := 0x400008
def HTR_ERR : Nat := 0x40000c
def TR_HBOARD_L : Nat := 0x400010
def TR_HBOARD_H : Nat := 0x400014
def TR_HUNBOARD_L : Nat := 0x400018
def TR_HUNBOARD_H : Nat := 0x40001c
def TR_GSNAP : Nat := 0x400020
def TR_PDTO : Nat := 0x400024
def HTR_DPATH : Nat := 0x400028
def HTR_LEDGER (x i : Nat) : Nat := 0x401000 + x * 0x40 + i * 0x4
def SD_K0L : Nat := 0x408000
def SD_K0H : Nat := 0x408004
def SD_K1L : Nat := 0x408008
def SD_K1H : Nat := 0x40800c
def SD_AL : Nat := 0x408010
def SD_AH : Nat := 0x408014
def SD_CMD : Nat := 0x408018
def SD_RES : Nat := 0x40801c
def SD_COUNT : Nat := 0x408020
def SD_HITS : Nat := 0x408024
def SD_MISSES : Nat := 0x408028
def SD_RUNT : Nat := 0x40802c
def UCL_CTL : Nat := 0x418000
def UCL_STAT : Nat := 0x418004
def PANE_CTX (d p : Nat) : Nat := 0x1000000 + d * 0x400000 + p * 0x4000
def PANE_CLK (d p : Nat) : Nat := 0x1000010 + d * 0x400000 + p * 0x4000
def PANE_LVSCHED (d p : Nat) : Nat := 0x1000100 + d * 0x400000 + p * 0x4000
def PANE_LVERR (d p : Nat) : Nat := 0x1000104 + d * 0x400000 + p * 0x4000
def PANE_LVILL (d p : Nat) : Nat := 0x1000108 + d * 0x400000 + p * 0x4000
def PANE_BUSCON (d p : Nat) : Nat := 0x100010c + d * 0x400000 + p * 0x4000
def PANE_CHIN (d p i : Nat) : Nat := 0x1000400 + d * 0x400000 + p * 0x4000 + i * 0x4
def PANE_CHOUT (d p i : Nat) : Nat := 0x1000500 + d * 0x400000 + p * 0x4000 + i * 0x4
def PANE_CHSTAT (d p i : Nat) : Nat := 0x1000600 + d * 0x400000 + p * 0x4000 + i * 0x4
def WM_CFG (d p m : Nat) : Nat := 0x1001000 + d * 0x400000 + p * 0x4000 + m * 0x800
def WM_LCTL (d p m : Nat) : Nat := 0x1001004 + d * 0x400000 + p * 0x4000 + m * 0x800
def WM_ERR (d p m : Nat) : Nat := 0x1001008 + d * 0x400000 + p * 0x4000 + m * 0x800
def WM_QCFG (d p m i : Nat) : Nat := 0x1001010 + d * 0x400000 + p * 0x4000 + m * 0x800 + i * 0x10
def WM_QIDLE_L (d p m i : Nat) : Nat := 0x1001014 + d * 0x400000 + p * 0x4000 + m * 0x800 + i * 0x10
def WM_QIDLE_H (d p m i : Nat) : Nat := 0x1001018 + d * 0x400000 + p * 0x4000 + m * 0x800 + i * 0x10
def WM_QSTAT (d p m i : Nat) : Nat := 0x100101c + d * 0x400000 + p * 0x4000 + m * 0x800 + i * 0x10
def WM_QLEDGER (d p m x i : Nat) : Nat := 0x1001100 + d * 0x400000 + p * 0x4000 + m * 0x800 + x * 0x20 + i * 0x4
def WM_MVCFG (d p m : Nat) : Nat := 0x1001200 + d * 0x400000 + p * 0x4000 + m * 0x800
def WM_MVBASE_L (d p m : Nat) : Nat := 0x1001204 + d * 0x400000 + p * 0x4000 + m * 0x800
def WM_MVBASE_H (d p m : Nat) : Nat := 0x1001208 + d * 0x400000 + p * 0x4000 + m * 0x800
def WM_MVLSTR (d p m : Nat) : Nat := 0x100120c + d * 0x400000 + p * 0x4000 + m * 0x800
def WM_MVFSTR (d p m : Nat) : Nat := 0x1001210 + d * 0x400000 + p * 0x4000 + m * 0x800
def WM_MVSTAT (d p m : Nat) : Nat := 0x1001214 + d * 0x400000 + p * 0x4000 + m * 0x800
def LANE_CTL (d l : Nat) : Nat := 0x1100000 + d * 0x400000 + l * 0x1000
def LANE_CFG (d l : Nat) : Nat := 0x1100004 + d * 0x400000 + l * 0x1000
def LANE_TX (d l : Nat) : Nat := 0x1100008 + d * 0x400000 + l * 0x1000
def LANE_CTLE (d l : Nat) : Nat := 0x110000c + d * 0x400000 + l * 0x1000
def LANE_QB (d l : Nat) : Nat := 0x1100010 + d * 0x400000 + l * 0x1000
def LANE_NCFG (d l : Nat) : Nat := 0x1100014 + d * 0x400000 + l * 0x1000
def LANE_STAT (d l : Nat) : Nat := 0x1100018 + d * 0x400000 + l * 0x1000
def LANE_PCAP_L (d l : Nat) : Nat := 0x110001c + d * 0x400000 + l * 0x1000
def LANE_PCAP_H (d l : Nat) : Nat := 0x1100020 + d * 0x400000 + l * 0x1000
def LANE_ERR (d l : Nat) : Nat := 0x1100024 + d * 0x400000 + l * 0x1000
def LANE_CNT_BAD (d l : Nat) : Nat := 0x1100028 + d * 0x400000 + l * 0x1000
def LANE_CNT_DROP (d l : Nat) : Nat := 0x110002c + d * 0x400000 + l * 0x1000
def LANE_CNT_UNDR (d l : Nat) : Nat := 0x1100030 + d * 0x400000 + l * 0x1000
def LANE_CNT_GOOD (d l : Nat) : Nat := 0x1100034 + d * 0x400000 + l * 0x1000
def LANE_CNT_RST (d l : Nat) : Nat := 0x1100038 + d * 0x400000 + l * 0x1000
def LANE_EYE (d l : Nat) : Nat := 0x1100040 + d * 0x400000 + l * 0x1000
def LANE_EYER (d l : Nat) : Nat := 0x1100044 + d * 0x400000 + l * 0x1000
def LANE_QCLK (d q : Nat) : Nat := 0x1100080 + d * 0x400000 + q * 0x4000
def ENG_CTL (d e : Nat) : Nat := 0x1140000 + d * 0x400000 + e * 0x800
def ENG_STATUS (d e : Nat) : Nat := 0x1140004 + d * 0x400000 + e * 0x800
def ENG_CFG (d e : Nat) : Nat := 0x1140008 + d * 0x400000 + e * 0x800
def ENG_WDT (d e : Nat) : Nat := 0x114000c + d * 0x400000 + e * 0x800
def ENG_SPB (d e i : Nat) : Nat := 0x1140010 + d * 0x400000 + e * 0x800 + i * 0x4
def ENG_ERR (d e : Nat) : Nat := 0x1140018 + d * 0x400000 + e * 0x800
def ENG_SIG (d e : Nat) : Nat := 0x114001c + d * 0x400000 + e * 0x800
def ENG_STALLS (d e : Nat) : Nat := 0x1140020 + d * 0x400000 + e * 0x800
def HNG_CTL (e : Nat) : Nat := hngBlock e + 0x0
def HNG_STAT (e : Nat) : Nat := hngBlock e + 0x4
def HNG_LFAIL (e : Nat) : Nat := hngBlock e + 0x8
def HNG_XMASK (e : Nat) : Nat := hngBlock e + 0xc
def HNG_ERR (e : Nat) : Nat := hngBlock e + 0x10
def HNG_CNT (e : Nat) : Nat := hngBlock e + 0x14
def HNGTR_LEDGER (e x i : Nat) : Nat := hngBlock e + 0x400 + x * 0x40 + i * 0x4
def HNG_LEDGER (e j i : Nat) : Nat := hngBlock e + 0x800 + j * 0x10 + i * 0x4
def TR_CTL (d p : Nat) : Nat := 0x11c0000 + d * 0x400000 + p * 0x800
def TR_STAT (d p : Nat) : Nat := 0x11c0004 + d * 0x400000 + p * 0x800
def TR_CMD (d p : Nat) : Nat := 0x11c0008 + d * 0x400000 + p * 0x800
def TR_ERR (d p : Nat) : Nat := 0x11c000c + d * 0x400000 + p * 0x800
def TR_PPRI (d p : Nat) : Nat := 0x11c0010 + d * 0x400000 + p * 0x800
def TR_LEDGER (d p x i : Nat) : Nat := 0x11c0100 + d * 0x400000 + p * 0x800 + x * 0x40 + i * 0x4
def TR_DPATH (d : Nat) : Nat := 0x11e0000 + d * 0x400000
def FPIN_CFG (d i : Nat) : Nat := 0x11f0000 + d * 0x400000 + i * 0x4
def FPIN_ERR_L (d : Nat) : Nat := 0x11f0100 + d * 0x400000
def FPIN_ERR_H (d : Nat) : Nat := 0x11f0104 + d * 0x400000
end R

namespace F
def HUB_PARTID.VARIANT : Fld := ⟨31, 28⟩
def HUB_PARTID.SPEED : Fld := ⟨27, 24⟩
def HUB_PARTID.TEMP : Fld := ⟨23, 20⟩
def HUB_PARTID.HUBSTEP : Fld := ⟨19, 16⟩
def HUB_PARTID.PKG : Fld := ⟨15, 12⟩
def HUB_INTEGRITY.ROC : Fld := ⟨3, 3⟩
def HUB_INTEGRITY.DIAG_OVR : Fld := ⟨2, 2⟩
def HUB_INTEGRITY.UE_OUT : Fld := ⟨1, 1⟩
def HUB_INTEGRITY.CONSERVE : Fld := ⟨0, 0⟩
def HUB_STEP.LEVEL : Fld := ⟨31, 28⟩
def HUB_STEP.F3STEP : Fld := ⟨15, 12⟩
def HUB_STEP.F2STEP : Fld := ⟨11, 8⟩
def HUB_STEP.F1STEP : Fld := ⟨7, 4⟩
def HUB_STEP.F0STEP : Fld := ⟨3, 0⟩
def HUB_PCTL.GO : Fld := ⟨31, 31⟩
def HUB_PCTL.BUSY : Fld := ⟨30, 30⟩
def HUB_PCTL.RESULT : Fld := ⟨29, 26⟩
def HUB_PCTL.PARKED : Fld := ⟨23, 20⟩
def HUB_PCTL.UNPARK : Fld := ⟨4, 4⟩
def HUB_PCTL.DIE : Fld := ⟨1, 0⟩
def HUB_WMSUM.PANES : Fld := ⟨31, 0⟩
def HUB_TRSUM.PANES : Fld := ⟨31, 0⟩
def HUB_DBBEAT.BEAT : Fld := ⟨31, 0⟩
def MC_WDT.PERIOD : Fld := ⟨31, 16⟩
def MC_WDT.EXPD : Fld := ⟨15, 15⟩
def MC_WDT.KICK : Fld := ⟨14, 14⟩
def CHN_CTL.SNAP : Fld := ⟨31, 31⟩
def CHN_CTL.KNOCK : Fld := ⟨30, 30⟩
def CHN_CTL.MGO : Fld := ⟨29, 29⟩
def CHN_CTL.MDST : Fld := ⟨3, 0⟩
def CHN_CFG.AUTOK : Fld := ⟨31, 31⟩
def CHN_CFG.MGMT : Fld := ⟨30, 30⟩
def CHN_CFG.STICKY : Fld := ⟨29, 29⟩
def CHN_CFG.SADDR : Fld := ⟨3, 0⟩
def CHN_STAT.HEAD : Fld := ⟨31, 31⟩
def CHN_STAT.END : Fld := ⟨30, 30⟩
def CHN_STAT.INLK : Fld := ⟨29, 29⟩
def CHN_STAT.OUTLK : Fld := ⟨28, 28⟩
def CHN_STAT.NOADDR : Fld := ⟨27, 27⟩
def CHN_STAT.ADDRCHG : Fld := ⟨26, 26⟩
def CHN_STAT.KTO : Fld := ⟨25, 25⟩
def CHN_STAT.KDONE : Fld := ⟨24, 24⟩
def CHN_STAT.ROUND : Fld := ⟨23, 16⟩
def CHN_STAT.ADDR : Fld := ⟨15, 12⟩
def CHN_STAT.AVALID : Fld := ⟨11, 11⟩
def CHN_STAT.MSTATUS : Fld := ⟨10, 8⟩
def CHN_STAT.MBUSY : Fld := ⟨7, 7⟩
def CHN_STAT.MDONE : Fld := ⟨6, 6⟩
def CHN_MAP.SMAP : Fld := ⟨31, 16⟩
def CHN_MAP.MAP : Fld := ⟨15, 0⟩
def CHN_CNT.CRCERR : Fld := ⟨15, 0⟩
def CHN_LEDGER.COUNT : Fld := ⟨31, 0⟩
def CHN_MBUF.DATA : Fld := ⟨31, 0⟩
def CHN_RBUF.DATA : Fld := ⟨31, 0⟩
def HOST_CTL.B2PRI : Fld := ⟨9, 8⟩
def HOST_CTL.B2WIN : Fld := ⟨7, 0⟩
def HOST_HWB_L.ADDR : Fld := ⟨31, 12⟩
def HOST_HWB_H.ADDR : Fld := ⟨31, 0⟩
def HOST_LINK.SPEED : Fld := ⟨31, 28⟩
def HOST_LINK.WIDTH : Fld := ⟨20, 16⟩
def HOST_ERR.PARTIAL : Fld := ⟨3, 3⟩
def HOST_ERR.B2CPLE : Fld := ⟨2, 2⟩
def HOST_ERR.HWDROP : Fld := ⟨31, 16⟩
def MSG_RB_L.DATA : Fld := ⟨31, 0⟩
def MSG_RB_H.DATA : Fld := ⟨31, 0⟩
def MSG_CFG.EN : Fld := ⟨31, 31⟩
def MSG_CFG.VEC : Fld := ⟨26, 16⟩
def MSG_CFG.LOG2N : Fld := ⟨3, 0⟩
def MSG_TAIL.MTAIL : Fld := ⟨9, 0⟩
def MSG_HEAD.MHEAD : Fld := ⟨9, 0⟩
def MSG_DROP.MDROP : Fld := ⟨15, 0⟩
def DIAG_INJ.KEY : Fld := ⟨31, 16⟩
def DIAG_INJ.TGT : Fld := ⟨13, 8⟩
def DIAG_INJ.KIND : Fld := ⟨3, 0⟩
def DIAG_CRED.KEY : Fld := ⟨31, 16⟩
def DIAG_CRED.SUB : Fld := ⟨15, 15⟩
def DIAG_CRED.VC : Fld := ⟨14, 12⟩
def DIAG_CRED.PORT : Fld := ⟨11, 6⟩
def CLK_XCFG.XBEXT : Fld := ⟨31, 31⟩
def CLK_XCFG.XBF : Fld := ⟨28, 16⟩
def CLK_XCFG.XAEXT : Fld := ⟨15, 15⟩
def CLK_XCFG.XAF : Fld := ⟨12, 0⟩
def CLK_HLCFG.SRC0 : Fld := ⟨1, 0⟩
def CLK_HLCFG.SRC1 : Fld := ⟨3, 2⟩
def CLK_HLCFG.SRC2 : Fld := ⟨5, 4⟩
def CLK_HLCFG.SRC3 : Fld := ⟨7, 6⟩
def CLK_HLSTAT.LOCK0 : Fld := ⟨3, 3⟩
def CLK_HLSTAT.FB0 : Fld := ⟨2, 2⟩
def CLK_HLSTAT.LOL0 : Fld := ⟨1, 1⟩
def CLK_HLSTAT.LOCK1 : Fld := ⟨7, 7⟩
def CLK_HLSTAT.FB1 : Fld := ⟨6, 6⟩
def CLK_HLSTAT.LOL1 : Fld := ⟨5, 5⟩
def CLK_HLSTAT.LOCK2 : Fld := ⟨11, 11⟩
def CLK_HLSTAT.FB2 : Fld := ⟨10, 10⟩
def CLK_HLSTAT.LOL2 : Fld := ⟨9, 9⟩
def CLK_HLSTAT.LOCK3 : Fld := ⟨15, 15⟩
def CLK_HLSTAT.FB3 : Fld := ⟨14, 14⟩
def CLK_HLSTAT.LOL3 : Fld := ⟨13, 13⟩
def CLK_MUX.FORCED : Fld := ⟨31, 16⟩
def CLK_MUX.SWFAIL : Fld := ⟨15, 15⟩
def CLK_MUX.FSW : Fld := ⟨14, 14⟩
def CLK_MUX.MUXID : Fld := ⟨3, 0⟩
def CLK_VFAB.VREQ : Fld := ⟨4, 0⟩
def CLK_RST.KEY : Fld := ⟨31, 16⟩
def CLK_RST.DEV : Fld := ⟨0, 0⟩
def CLK_RSTCAUSE.COUNT : Fld := ⟨31, 16⟩
def CLK_RSTCAUSE.WAKE : Fld := ⟨11, 8⟩
def CLK_RSTCAUSE.CAUSE : Fld := ⟨3, 0⟩
def CLK_HOLD.KEY : Fld := ⟨31, 16⟩
def CLK_HOLD.BELLEN : Fld := ⟨11, 8⟩
def CLK_HOLD.BELLPOL : Fld := ⟨7, 4⟩
def CLK_HOLD.HREJ : Fld := ⟨1, 1⟩
def CLK_HOLD.GO : Fld := ⟨0, 0⟩
def FM_CTL.GO : Fld := ⟨31, 31⟩
def FM_CTL.BUSY : Fld := ⟨30, 30⟩
def FM_CTL.DONE : Fld := ⟨29, 29⟩
def FM_CTL.GATE : Fld := ⟨28, 24⟩
def FM_CTL.REF : Fld := ⟨23, 16⟩
def FM_CTL.MEAS : Fld := ⟨15, 0⟩
def FM_CNT_L.COUNT : Fld := ⟨31, 0⟩
def FM_CNT_H.COUNT : Fld := ⟨7, 0⟩
def PIN_CFG.FTICKS : Fld := ⟨31, 16⟩
def PIN_CFG.FCLK : Fld := ⟨15, 15⟩
def PIN_CFG.IMODE : Fld := ⟨14, 12⟩
def PIN_CFG.INV : Fld := ⟨11, 11⟩
def PIN_CFG.OD : Fld := ⟨10, 10⟩
def PIN_CFG.DRIVE : Fld := ⟨9, 8⟩
def PIN_CFG.PULL : Fld := ⟨7, 6⟩
def PIN_CFG.FUNC : Fld := ⟨3, 0⟩
def PIN_GPOUT.OUT : Fld := ⟨15, 0⟩
def PIN_GPOE.OE : Fld := ⟨15, 0⟩
def PIN_GPIN.IN : Fld := ⟨15, 0⟩
def PIN_ISTAT.INT : Fld := ⟨15, 0⟩
def PIN_TALLY.TALLY : Fld := ⟨15, 0⟩
def PIN_STAT.CONF : Fld := ⟨31, 31⟩
def PIN_STAT.CPIN : Fld := ⟨13, 8⟩
def PIN_STAT.BELL : Fld := ⟨3, 0⟩
def PIN_TS_L.TIME : Fld := ⟨31, 0⟩
def PIN_TS_H.TIME : Fld := ⟨31, 0⟩
def PIN_TSSTAT.VALID : Fld := ⟨31, 31⟩
def PIN_TSSTAT.OVR : Fld := ⟨30, 30⟩
def FAN_CFG.EN : Fld := ⟨31, 31⟩
def FAN_CFG.MINCNT : Fld := ⟨23, 16⟩
def FAN_CFG.DUTY : Fld := ⟨7, 0⟩
def FAN_STAT.COUNT : Fld := ⟨15, 0⟩
def UART_CFG.EN : Fld := ⟨31, 31⟩
def UART_CFG.PAR : Fld := ⟨30, 29⟩
def UART_CFG.STOP2 : Fld := ⟨28, 28⟩
def UART_CFG.RXTH : Fld := ⟨27, 24⟩
def UART_CFG.TXIE : Fld := ⟨23, 23⟩
def UART_CFG.DIV : Fld := ⟨15, 0⟩
def UART_TX.DATA : Fld := ⟨7, 0⟩
def UART_RX.VALID : Fld := ⟨31, 31⟩
def UART_RX.PERR : Fld := ⟨30, 30⟩
def UART_RX.FERR : Fld := ⟨29, 29⟩
def UART_RX.DATA : Fld := ⟨7, 0⟩
def UART_CTL.POP : Fld := ⟨0, 0⟩
def UART_STAT.OVR : Fld := ⟨31, 31⟩
def UART_STAT.TXFREE : Fld := ⟨20, 16⟩
def UART_STAT.RXCNT : Fld := ⟨4, 0⟩
def I2C_CMD.GO : Fld := ⟨31, 31⟩
def I2C_CMD.OP : Fld := ⟨11, 8⟩
def I2C_CMD.DATA : Fld := ⟨7, 0⟩
def I2C_STAT.BUSY : Fld := ⟨31, 31⟩
def I2C_STAT.DONE : Fld := ⟨30, 30⟩
def I2C_STAT.NACK : Fld := ⟨29, 29⟩
def I2C_STAT.ARBL : Fld := ⟨28, 28⟩
def I2C_STAT.RDATA : Fld := ⟨7, 0⟩
def I2C_CFG.EN : Fld := ⟨31, 31⟩
def I2C_CFG.FAST : Fld := ⟨30, 30⟩
def SPI_CFG.EN : Fld := ⟨31, 31⟩
def SPI_CFG.MODE : Fld := ⟨30, 29⟩
def SPI_CFG.DIV : Fld := ⟨15, 0⟩
def SPI_XFER.GO : Fld := ⟨31, 31⟩
def SPI_XFER.HOLDCS : Fld := ⟨8, 8⟩
def SPI_XFER.TDATA : Fld := ⟨7, 0⟩
def SPI_STAT.BUSY : Fld := ⟨31, 31⟩
def SPI_STAT.DONE : Fld := ⟨30, 30⟩
def SPI_STAT.RDATA : Fld := ⟨7, 0⟩
def EVT_RAISED.SRC : Fld := ⟨31, 0⟩
def EVT_GCFG.MSIX : Fld := ⟨31, 31⟩
def EVT_GCFG.MC0 : Fld := ⟨30, 30⟩
def EVT_GCFG.MC1 : Fld := ⟨29, 29⟩
def EVT_GCFG.SC : Fld := ⟨28, 28⟩
def EVT_GCFG.VEC : Fld := ⟨10, 0⟩
def EVT_GSTAT.ACTIVE : Fld := ⟨31, 31⟩
def EVT_GSTAT.COUNT : Fld := ⟨26, 16⟩
def EVT_GSTAT.LOWEST : Fld := ⟨10, 0⟩
def EVT_GACK_L.ACK : Fld := ⟨31, 0⟩
def EVT_GACK_H.ACK : Fld := ⟨31, 0⟩
def EVT_NMI.MSIX : Fld := ⟨31, 31⟩
def EVT_NMI.MC0 : Fld := ⟨30, 30⟩
def EVT_NMI.MC1 : Fld := ⟨29, 29⟩
def EVT_NMI.NMIVEC : Fld := ⟨10, 0⟩
def EVT_NMISTAT.ACTIVE : Fld := ⟨31, 31⟩
def EVT_NMISTAT.LOWEST : Fld := ⟨10, 0⟩
def EVT_SWSET.SW : Fld := ⟨7, 0⟩
def EVT_SWCLR.SW : Fld := ⟨7, 0⟩
def EVT_CPEND.GRP : Fld := ⟨31, 0⟩
def EVT_SRC.EN : Fld := ⟨31, 31⟩
def EVT_SRC.RAISED : Fld := ⟨30, 30⟩
def EVT_SRC.UE : Fld := ⟨29, 29⟩
def EVT_SRC.NMI : Fld := ⟨28, 28⟩
def EVT_SRC.GROUP : Fld := ⟨5, 0⟩
def CFG_BOOT.UPDEN : Fld := ⟨31, 31⟩
def CFG_BOOT.RECOV : Fld := ⟨30, 30⟩
def CFG_BOOT.SRC : Fld := ⟨29, 29⟩
def CFG_BOOT.FWD : Fld := ⟨28, 28⟩
def CFG_BOOT.GOLDWE : Fld := ⟨27, 27⟩
def CFG_BOOT.DTO : Fld := ⟨23, 16⟩
def CFG_IDCODE.ID : Fld := ⟨31, 0⟩
def CFG_BSTAT.STATE : Fld := ⟨31, 29⟩
def CFG_BSTAT.SLOT : Fld := ⟨28, 28⟩
def CFG_BSTAT.FALLBK : Fld := ⟨27, 27⟩
def CFG_BSTAT.SRC : Fld := ⟨26, 26⟩
def CFG_BSTAT.RECOV : Fld := ⟨25, 25⟩
def CFG_BSTAT.DONETO : Fld := ⟨24, 24⟩
def CFG_BSTAT.MISSING : Fld := ⟨23, 20⟩
def CFG_BSTAT.LOADED : Fld := ⟨19, 16⟩
def CFG_BSTAT.UCAUSE : Fld := ⟨15, 8⟩
def CFG_BSTAT.CAUSE : Fld := ⟨7, 0⟩
def CFG_BFSEL.VALID : Fld := ⟨31, 31⟩
def CFG_BFSEL.FSEL : Fld := ⟨24, 0⟩
def CFG_SORDER.ORDER : Fld := ⟨14, 0⟩
def CFG_SADR.ADDR : Fld := ⟨28, 0⟩
def CFG_SCMD.GO : Fld := ⟨31, 31⟩
def CFG_SCMD.BUSY : Fld := ⟨30, 30⟩
def CFG_SCMD.DONE : Fld := ⟨29, 29⟩
def CFG_SCMD.ERR : Fld := ⟨28, 28⟩
def CFG_SCMD.LOCKERR : Fld := ⟨27, 27⟩
def CFG_SCMD.OP : Fld := ⟨3, 0⟩
def CFG_RTPKT.DATA : Fld := ⟨31, 0⟩
def CFG_RTSTAT.OPEN : Fld := ⟨31, 31⟩
def CFG_RTSTAT.OWNER : Fld := ⟨30, 30⟩
def CFG_RTSTAT.RTREJ : Fld := ⟨29, 29⟩
def CFG_RTSTAT.REJ : Fld := ⟨28, 28⟩
def CFG_RTSTAT.CAUSE : Fld := ⟨23, 16⟩
def CFG_RTSTAT.FRAMES : Fld := ⟨15, 0⟩
def CFG_RBSEL.GO : Fld := ⟨31, 31⟩
def CFG_RBSEL.PLANE : Fld := ⟨30, 30⟩
def CFG_RBSEL.BUSY : Fld := ⟨29, 29⟩
def CFG_RBSEL.REJ : Fld := ⟨28, 28⟩
def CFG_RBSEL.FSEL : Fld := ⟨24, 0⟩
def CFG_SCRUB.EN : Fld := ⟨31, 31⟩
def CFG_SCRUB.RELOAD : Fld := ⟨30, 30⟩
def CFG_SCRUB.PACE : Fld := ⟨3, 0⟩
def CFG_SCRST.SELF : Fld := ⟨31, 31⟩
def CFG_SCRST.UE : Fld := ⟨30, 30⟩
def CFG_SCRST.CE : Fld := ⟨29, 29⟩
def CFG_SCRST.RUN : Fld := ⟨28, 28⟩
def CFG_SCRST.PASSES : Fld := ⟨15, 0⟩
def CFG_SCCNT.CECNT : Fld := ⟨31, 16⟩
def CFG_SCCNT.UECNT : Fld := ⟨15, 0⟩
def CFG_SCUEA.COPY : Fld := ⟨31, 31⟩
def CFG_SCUEA.FSEL : Fld := ⟨24, 0⟩
def CFG_IST.EN : Fld := ⟨31, 29⟩
def CFG_ISTREF.SIG : Fld := ⟨31, 0⟩
def CFG_ISTFAIL.PANES : Fld := ⟨31, 0⟩
def CFG_ISTEFAIL.ENG : Fld := ⟨31, 0⟩
def CFG_ISTHNG.MASK : Fld := ⟨31, 0⟩
def CFG_SBUF.DATA : Fld := ⟨31, 0⟩
def CFG_RBDAT.DATA : Fld := ⟨31, 0⟩
def SEC_STAT.PROV : Fld := ⟨31, 31⟩
def SEC_STAT.ENC : Fld := ⟨30, 30⟩
def SEC_STAT.JTAG : Fld := ⟨29, 29⟩
def SEC_STAT.SVN : Fld := ⟨15, 0⟩
def SEC_DIGEST.D : Fld := ⟨31, 0⟩
def OTP_CMD.KEY : Fld := ⟨31, 16⟩
def OTP_CMD.FIELD : Fld := ⟨11, 8⟩
def OTP_CMD.OP : Fld := ⟨1, 0⟩
def OTP_STAT.BUSY : Fld := ⟨31, 31⟩
def OTP_STAT.DONE : Fld := ⟨30, 30⟩
def OTP_STAT.REJ : Fld := ⟨29, 29⟩
def OTP_STAT.CAUSE : Fld := ⟨2, 0⟩
def OTP_DATA.DATA : Fld := ⟨31, 0⟩
def OTP_GEN.AVALID : Fld := ⟨19, 19⟩
def OTP_GEN.ACTIVE : Fld := ⟨18, 16⟩
def OTP_GEN.BADGEN : Fld := ⟨11, 8⟩
def OTP_GEN.PV : Fld := ⟨7, 0⟩
def OTP_VAL.VAL : Fld := ⟨31, 0⟩
def DB_STAT.DENY : Fld := ⟨31, 31⟩
def DB_STAT.LSERR : Fld := ⟨30, 30⟩
def DB_STAT.DSRC : Fld := ⟨29, 27⟩
def DB_WDT.EXP : Fld := ⟨31, 31⟩
def DB_WDT.SUSP : Fld := ⟨30, 30⟩
def DB_WDT.BADBEAT : Fld := ⟨15, 0⟩
def DB_LOG.NSUSP : Fld := ⟨31, 16⟩
def DB_LOG.LASTMS : Fld := ⟨15, 0⟩
def DB_VSTAT.VOUT : Fld := ⟨8, 0⟩
def DB_TSTAT.TRIP : Fld := ⟨1, 1⟩
def DB_TSTAT.WARN : Fld := ⟨0, 0⟩
def DB_TEMP.T : Fld := ⟨11, 0⟩
def DB_VOLT.MV : Fld := ⟨11, 0⟩
def CM_CFG.EN : Fld := ⟨5, 0⟩
def CM_STATUS.OUT : Fld := ⟨21, 16⟩
def CM_STATUS.FAIL : Fld := ⟨13, 8⟩
def CM_STATUS.OVR : Fld := ⟨5, 0⟩
def CM_PLOL.PANES : Fld := ⟨31, 0⟩
def KPR_STAT.STATE : Fld := ⟨31, 30⟩
def KPR_STAT.CHAN : Fld := ⟨29, 28⟩
def KPR_STAT.LEVEL : Fld := ⟨27, 26⟩
def KPR_STAT.SCHG : Fld := ⟨25, 25⟩
def KPR_STAT.BADTAG : Fld := ⟨24, 24⟩
def KPR_STAT.NHALT : Fld := ⟨23, 16⟩
def KPR_STAT.BADMSG : Fld := ⟨15, 0⟩
def KPR_CFG.UEN : Fld := ⟨31, 31⟩
def KPR_CFG.CEN : Fld := ⟨30, 30⟩
def KPR_TXD.DATA : Fld := ⟨31, 0⟩
def KPR_RXD.DATA : Fld := ⟨31, 0⟩
def KPR_RXPOP.POP : Fld := ⟨0, 0⟩
def KPR_VTSTAT.TXOVR : Fld := ⟨31, 31⟩
def KPR_VTSTAT.TXFREE : Fld := ⟨22, 16⟩
def KPR_VTSTAT.RXCNT : Fld := ⟨6, 0⟩
def KPR_HSTAT.HALTED : Fld := ⟨31, 31⟩
def KPR_HSTAT.PEND : Fld := ⟨30, 30⟩
def KPR_HSTAT.LOCK_HELD_AT_HALT : Fld := ⟨29, 29⟩
def DDR_CTL.CMD : Fld := ⟨2, 0⟩
def DDR_CFG.AUTO : Fld := ⟨31, 31⟩
def DDR_CFG.RATE : Fld := ⟨19, 16⟩
def DDR_CFG.SCEN : Fld := ⟨15, 14⟩
def DDR_CFG.RANKS : Fld := ⟨13, 13⟩
def DDR_CFG.COMP : Fld := ⟨12, 11⟩
def DDR_STATUS.STATE : Fld := ⟨31, 29⟩
def DDR_STATUS.LOCK : Fld := ⟨28, 28⟩
def DDR_STATUS.DEFER : Fld := ⟨27, 27⟩
def DDR_STATUS.TSTEP : Fld := ⟨26, 24⟩
def DDR_STATUS.FSC : Fld := ⟨23, 23⟩
def DDR_STATUS.DROP : Fld := ⟨15, 0⟩
def DDR_QOS.W0 : Fld := ⟨3, 0⟩
def DDR_QOS.W1 : Fld := ⟨7, 4⟩
def DDR_QOS.W2 : Fld := ⟨11, 8⟩
def DDR_QOS.W3 : Fld := ⟨15, 12⟩
def DDR_SCRUB.PEN : Fld := ⟨31, 31⟩
def DDR_SCRUB.PASS : Fld := ⟨15, 0⟩
def DDR_ERR.UE : Fld := ⟨31, 31⟩
def DDR_ERR.CE : Fld := ⟨30, 30⟩
def DDR_ERR.XPAR : Fld := ⟨29, 29⟩
def DDR_ERR.PWDROP : Fld := ⟨28, 28⟩
def DDR_ERR.CEDEV : Fld := ⟨27, 24⟩
def DDR_ERR.CECNT : Fld := ⟨23, 16⟩
def DDR_ERR.RMW : Fld := ⟨15, 0⟩
def DDR_UEADR.BLK : Fld := ⟨26, 0⟩
def DDR_MAP.LOCK : Fld := ⟨31, 31⟩
def DDR_MAP.NSCL : Fld := ⟨2, 0⟩
def DDR_FSHIN.LINES : Fld := ⟨31, 16⟩
def DDR_FSHIN.LWORDS : Fld := ⟨15, 0⟩
def DDR_FSHL.LBLK : Fld := ⟨31, 20⟩
def DDR_FSHL.LSTRIDE : Fld := ⟨19, 0⟩
def DDR_FSHF.FSTRIDE : Fld := ⟨31, 0⟩
def HCQ_CFG.EN : Fld := ⟨31, 31⟩
def HCQ_CFG.LOG2SIZE : Fld := ⟨14, 11⟩
def HCQ_CFG.VEC : Fld := ⟨10, 0⟩
def HCQ_SQB_L.ADDR : Fld := ⟨31, 6⟩
def HCQ_SQB_H.ADDR : Fld := ⟨31, 0⟩
def HCQ_CQB_L.ADDR : Fld := ⟨31, 4⟩
def HCQ_CQB_H.ADDR : Fld := ⟨31, 0⟩
def HCQ_DB.TAIL : Fld := ⟨11, 0⟩
def HCQ_CQH.HEAD : Fld := ⟨11, 0⟩
def HCQ_STAT.RUN : Fld := ⟨31, 31⟩
def HCQ_STAT.FERR : Fld := ⟨30, 30⟩
def HCQ_STAT.INFL : Fld := ⟨29, 25⟩
def HCQ_STAT.HEAD : Fld := ⟨23, 12⟩
def HCQ_STAT.CQT : Fld := ⟨11, 0⟩
def TBU_INCR.INCR : Fld := ⟨31, 0⟩
def TBU_NOW_L.TIME : Fld := ⟨31, 0⟩
def TBU_NOW_H.TIME : Fld := ⟨31, 0⟩
def TBU_SET_L.TIME : Fld := ⟨31, 0⟩
def TBU_SET_H.TIME : Fld := ⟨31, 0⟩
def TB_CFG.GEN : Fld := ⟨31, 30⟩
def TB_CFG.AGEN : Fld := ⟨13, 12⟩
def TB_CFG.BAD : Fld := ⟨11, 11⟩
def TB_CFG.REFLOST : Fld := ⟨10, 10⟩
def TB_CFG.EDGE : Fld := ⟨9, 9⟩
def TB_CFG.PIN : Fld := ⟨8, 3⟩
def TB_CFG.SRC : Fld := ⟨2, 1⟩
def TB_CFG.EN : Fld := ⟨0, 0⟩
def TB_RATE.GEN : Fld := ⟨31, 30⟩
def TB_RATE.DEN : Fld := ⟨27, 16⟩
def TB_RATE.NUM : Fld := ⟨15, 0⟩
def TB_LINES.GEN : Fld := ⟨31, 30⟩
def TB_LINES.LINES : Fld := ⟨15, 0⟩
def TB_OFFSET.GEN : Fld := ⟨31, 30⟩
def TB_OFFSET.OFFSET : Fld := ⟨29, 0⟩
def TB_POS.FRAME : Fld := ⟨31, 16⟩
def TB_POS.LINE : Fld := ⟨15, 0⟩
def TB_FRAMEL.FRAME : Fld := ⟨31, 0⟩
def TB_FRAMEH.FRAME : Fld := ⟨15, 0⟩
def SHT_ARM.GO : Fld := ⟨31, 31⟩
def SHT_ARM.ABORT : Fld := ⟨30, 30⟩
def SHT_ARM.NEXT : Fld := ⟨29, 29⟩
def SHT_ARM.RETRY : Fld := ⟨23, 20⟩
def SHT_ARM.FRAME : Fld := ⟨15, 0⟩
def SHT_STATUS.STATE : Fld := ⟨31, 29⟩
def SHT_STATUS.MISSED : Fld := ⟨28, 28⟩
def SHT_STATUS.WREJ : Fld := ⟨27, 27⟩
def SHT_STATUS.GOREJ : Fld := ⟨26, 26⟩
def SHT_STATUS.CAUSE : Fld := ⟨25, 23⟩
def SHT_STATUS.CDONE : Fld := ⟨22, 22⟩
def SHT_STATUS.XEND : Fld := ⟨21, 21⟩
def SHT_STATUS.MISSES : Fld := ⟨19, 16⟩
def SHT_STATUS.CFRAME : Fld := ⟨15, 0⟩
def SHT_MISS.COUNT : Fld := ⟨25, 16⟩
def SHT_MISS.MEMBER : Fld := ⟨9, 0⟩
def SHT_SET.MAP : Fld := ⟨31, 0⟩
def HTR_CTL.RQTO : Fld := ⟨31, 24⟩
def HTR_CTL.TOCP : Fld := ⟨23, 16⟩
def HTR_CTL.TOCR : Fld := ⟨15, 8⟩
def TR_HBRD_L.BRD : Fld := ⟨31, 0⟩
def TR_HBRD_H.BRD : Fld := ⟨0, 0⟩
def HTR_ERR.BRDEV : Fld := ⟨31, 31⟩
def HTR_ERR.BCAUSE : Fld := ⟨30, 29⟩
def HTR_ERR.BPORT : Fld := ⟨28, 23⟩
def HTR_ERR.XPAR : Fld := ⟨22, 22⟩
def HTR_ERR.HPAR : Fld := ⟨21, 21⟩
def HTR_ERR.UNMAP : Fld := ⟨20, 20⟩
def HTR_ERR.TOUT : Fld := ⟨15, 8⟩
def HTR_ERR.LATE : Fld := ⟨7, 0⟩
def TR_HBOARD_L.BOARD : Fld := ⟨31, 0⟩
def TR_HBOARD_H.BOARD : Fld := ⟨0, 0⟩
def TR_HUNBOARD_L.UNBOARD : Fld := ⟨31, 0⟩
def TR_HUNBOARD_H.UNBOARD : Fld := ⟨0, 0⟩
def TR_GSNAP.GO : Fld := ⟨31, 31⟩
def TR_GSNAP.PDEXP : Fld := ⟨30, 30⟩
def TR_GSNAP.GSEQ : Fld := ⟨15, 8⟩
def TR_GSNAP.DOM : Fld := ⟨2, 0⟩
def TR_PDTO.PDTO : Fld := ⟨15, 0⟩
def HTR_DPATH.PATH : Fld := ⟨31, 0⟩
def HTR_LEDGER.COUNT : Fld := ⟨31, 0⟩
def SD_K0L.KEY : Fld := ⟨31, 0⟩
def SD_K0H.KEY : Fld := ⟨7, 0⟩
def SD_K1L.KEY : Fld := ⟨31, 0⟩
def SD_K1H.KEY : Fld := ⟨7, 0⟩
def SD_AL.ACT : Fld := ⟨31, 0⟩
def SD_AH.ACT : Fld := ⟨7, 0⟩
def SD_CMD.GO : Fld := ⟨31, 31⟩
def SD_CMD.KLEN : Fld := ⟨30, 30⟩
def SD_CMD.OP : Fld := ⟨1, 0⟩
def SD_RES.BUSY : Fld := ⟨31, 31⟩
def SD_RES.RESULT : Fld := ⟨30, 29⟩
def SD_RES.INDEX : Fld := ⟨16, 0⟩
def SD_COUNT.VALID : Fld := ⟨17, 0⟩
def SD_HITS.COUNT : Fld := ⟨31, 0⟩
def SD_MISSES.COUNT : Fld := ⟨31, 0⟩
def SD_RUNT.COUNT : Fld := ⟨31, 0⟩
def UCL_CTL.RETRAIN : Fld := ⟨31, 31⟩
def UCL_CTL.RATE : Fld := ⟨3, 2⟩
def UCL_CTL.RAW : Fld := ⟨1, 1⟩
def UCL_CTL.EN : Fld := ⟨0, 0⟩
def UCL_STAT.STATE : Fld := ⟨31, 29⟩
def UCL_STAT.TRATE : Fld := ⟨28, 27⟩
def UCL_STAT.X8 : Fld := ⟨26, 26⟩
def UCL_STAT.LCHG : Fld := ⟨25, 25⟩
def UCL_STAT.FAIL : Fld := ⟨24, 24⟩
def UCL_STAT.RTRY : Fld := ⟨15, 0⟩
def PANE_CTX.WREJ : Fld := ⟨2, 2⟩
def PANE_CTX.DRAINED : Fld := ⟨1, 1⟩
def PANE_CTX.LIVE : Fld := ⟨0, 0⟩
def PANE_CLK.LOCK : Fld := ⟨31, 31⟩
def PANE_CLK.LOL : Fld := ⟨30, 30⟩
def PANE_CLK.GATED : Fld := ⟨29, 29⟩
def PANE_CLK.GATE : Fld := ⟨28, 28⟩
def PANE_CLK.RFREQ : Fld := ⟨27, 21⟩
def PANE_CLK.EFREQ : Fld := ⟨20, 14⟩
def PANE_CLK.CFREQ : Fld := ⟨13, 7⟩
def PANE_LVSCHED.SLOT7 : Fld := ⟨31, 28⟩
def PANE_LVSCHED.SLOT6 : Fld := ⟨27, 24⟩
def PANE_LVSCHED.SLOT5 : Fld := ⟨23, 20⟩
def PANE_LVSCHED.SLOT4 : Fld := ⟨19, 16⟩
def PANE_LVSCHED.SLOT3 : Fld := ⟨15, 12⟩
def PANE_LVSCHED.SLOT2 : Fld := ⟨11, 8⟩
def PANE_LVSCHED.SLOT1 : Fld := ⟨7, 4⟩
def PANE_LVSCHED.SLOT0 : Fld := ⟨3, 0⟩
def PANE_LVERR.VALID : Fld := ⟨31, 31⟩
def PANE_LVERR.MORE : Fld := ⟨30, 30⟩
def PANE_LVERR.COUNT : Fld := ⟨29, 22⟩
def PANE_LVERR.TROW : Fld := ⟨16, 14⟩
def PANE_LVERR.TCOL : Fld := ⟨13, 11⟩
def PANE_LVERR.CLUSTER : Fld := ⟨10, 9⟩
def PANE_LVERR.CELL : Fld := ⟨8, 6⟩
def PANE_LVERR.LOUVRE : Fld := ⟨5, 3⟩
def PANE_LVERR.SLOT : Fld := ⟨2, 0⟩
def PANE_LVILL.VALID : Fld := ⟨31, 31⟩
def PANE_LVILL.MORE : Fld := ⟨30, 30⟩
def PANE_LVILL.COUNT : Fld := ⟨29, 22⟩
def PANE_LVILL.CAUSE : Fld := ⟨19, 17⟩
def PANE_LVILL.TROW : Fld := ⟨16, 14⟩
def PANE_LVILL.TCOL : Fld := ⟨13, 11⟩
def PANE_LVILL.CLUSTER : Fld := ⟨10, 9⟩
def PANE_LVILL.CELL : Fld := ⟨8, 6⟩
def PANE_LVILL.LOUVRE : Fld := ⟨5, 3⟩
def PANE_LVILL.SLOT : Fld := ⟨2, 0⟩
def PANE_BUSCON.VALID : Fld := ⟨31, 31⟩
def PANE_BUSCON.MORE : Fld := ⟨30, 30⟩
def PANE_BUSCON.COUNT : Fld := ⟨29, 22⟩
def PANE_BUSCON.TROW : Fld := ⟨17, 15⟩
def PANE_BUSCON.WIRE : Fld := ⟨14, 11⟩
def PANE_BUSCON.DRV : Fld := ⟨10, 3⟩
def PANE_CHIN.LVMASK : Fld := ⟨31, 24⟩
def PANE_CHIN.SCELL : Fld := ⟨23, 13⟩
def PANE_CHIN.TSRC : Fld := ⟨12, 7⟩
def PANE_CHIN.Q : Fld := ⟨6, 5⟩
def PANE_CHIN.MEM : Fld := ⟨4, 2⟩
def PANE_CHIN.MODE : Fld := ⟨1, 0⟩
def PANE_CHOUT.TDST : Fld := ⟨15, 10⟩
def PANE_CHOUT.LATCH : Fld := ⟨9, 7⟩
def PANE_CHOUT.Q : Fld := ⟨6, 5⟩
def PANE_CHOUT.MEM : Fld := ⟨4, 2⟩
def PANE_CHOUT.MODE : Fld := ⟨1, 0⟩
def PANE_CHSTAT.OVR : Fld := ⟨31, 24⟩
def PANE_CHSTAT.DISC : Fld := ⟨23, 16⟩
def PANE_CHSTAT.OCC : Fld := ⟨15, 12⟩
def PANE_CHSTAT.PERR : Fld := ⟨11, 11⟩
def PANE_CHSTAT.MISM : Fld := ⟨10, 10⟩
def PANE_CHSTAT.HELD : Fld := ⟨9, 9⟩
def PANE_CHSTAT.OLDB : Fld := ⟨8, 8⟩
def WM_CFG.LKTO : Fld := ⟨21, 14⟩
def WM_CFG.PRATE : Fld := ⟨13, 10⟩
def WM_CFG.PEN : Fld := ⟨9, 9⟩
def WM_CFG.LOCKED : Fld := ⟨8, 5⟩
def WM_CFG.NQ : Fld := ⟨4, 3⟩
def WM_CFG.MODE : Fld := ⟨2, 0⟩
def WM_LCTL.SEQ : Fld := ⟨15, 8⟩
def WM_LCTL.SNAP : Fld := ⟨0, 0⟩
def WM_ERR.UE : Fld := ⟨31, 31⟩
def WM_ERR.CE : Fld := ⟨30, 30⟩
def WM_ERR.XPAR : Fld := ⟨29, 29⟩
def WM_ERR.OVL : Fld := ⟨28, 28⟩
def WM_ERR.LKBRK : Fld := ⟨27, 27⟩
def WM_ERR.WDROP : Fld := ⟨26, 26⟩
def WM_ERR.CECNT : Fld := ⟨25, 18⟩
def WM_ERR.UEADR : Fld := ⟨13, 0⟩
def WM_QCFG.SIZEM1 : Fld := ⟨29, 16⟩
def WM_QCFG.BASE : Fld := ⟨13, 0⟩
def WM_QIDLE_L.IDLE : Fld := ⟨31, 0⟩
def WM_QIDLE_H.IDLE : Fld := ⟨7, 0⟩
def WM_QSTAT.DPEND : Fld := ⟨31, 31⟩
def WM_QSTAT.LOCK : Fld := ⟨30, 30⟩
def WM_QSTAT.DIS : Fld := ⟨29, 29⟩
def WM_QSTAT.RSV : Fld := ⟨28, 15⟩
def WM_QSTAT.OCC : Fld := ⟨14, 0⟩
def WM_QLEDGER.COUNT : Fld := ⟨31, 0⟩
def WM_MVCFG.RWORDS : Fld := ⟨25, 20⟩
def WM_MVCFG.LWORDS : Fld := ⟨19, 6⟩
def WM_MVCFG.CQ : Fld := ⟨5, 4⟩
def WM_MVCFG.DQ : Fld := ⟨3, 2⟩
def WM_MVCFG.DIR : Fld := ⟨1, 0⟩
def WM_MVBASE_L.BASE : Fld := ⟨31, 0⟩
def WM_MVBASE_H.BASE : Fld := ⟨7, 0⟩
def WM_MVLSTR.LSTRIDE : Fld := ⟨23, 0⟩
def WM_MVFSTR.FSTRIDE : Fld := ⟨31, 0⟩
def WM_MVSTAT.TERR : Fld := ⟨31, 31⟩
def WM_MVSTAT.PEND : Fld := ⟨20, 16⟩
def WM_MVSTAT.LINES : Fld := ⟨15, 0⟩
def LANE_CTL.EYEGO : Fld := ⟨2, 2⟩
def LANE_CTL.RETRAIN : Fld := ⟨1, 1⟩
def LANE_CTL.EN : Fld := ⟨0, 0⟩
def LANE_CFG.AUTO : Fld := ⟨4, 4⟩
def LANE_CFG.DIV : Fld := ⟨3, 2⟩
def LANE_CFG.MODE : Fld := ⟨1, 0⟩
def LANE_TX.TXINV : Fld := ⟨9, 9⟩
def LANE_TX.TXON : Fld := ⟨8, 8⟩
def LANE_TX.DEEMPH : Fld := ⟨7, 4⟩
def LANE_TX.SWING : Fld := ⟨3, 0⟩
def LANE_CTLE.TPEAK : Fld := ⟨12, 9⟩
def LANE_CTLE.RXINV : Fld := ⟨8, 8⟩
def LANE_CTLE.AUTO : Fld := ⟨4, 4⟩
def LANE_CTLE.PEAK : Fld := ⟨3, 0⟩
def LANE_QB.RQEN : Fld := ⟨15, 15⟩
def LANE_QB.RQMEM : Fld := ⟨14, 12⟩
def LANE_QB.RQ : Fld := ⟨11, 10⟩
def LANE_QB.TQEN : Fld := ⟨7, 7⟩
def LANE_QB.TQMEM : Fld := ⟨6, 4⟩
def LANE_QB.TQ : Fld := ⟨3, 2⟩
def LANE_NCFG.MAXSTEP : Fld := ⟨17, 16⟩
def LANE_NCFG.NODE : Fld := ⟨15, 0⟩
def LANE_STAT.RUN : Fld := ⟨31, 31⟩
def LANE_STAT.CDR : Fld := ⟨30, 30⟩
def LANE_STAT.CFGERR : Fld := ⟨29, 29⟩
def LANE_STAT.NSTATE : Fld := ⟨28, 26⟩
def LANE_STAT.STEP : Fld := ⟨25, 24⟩
def LANE_STAT.CEIL : Fld := ⟨23, 22⟩
def LANE_PCAP_L.CAP : Fld := ⟨31, 0⟩
def LANE_PCAP_H.CAP : Fld := ⟨7, 0⟩
def LANE_ERR.LCHG : Fld := ⟨31, 31⟩
def LANE_ERR.LOL : Fld := ⟨30, 30⟩
def LANE_ERR.OVF : Fld := ⟨29, 29⟩
def LANE_ERR.UNDR : Fld := ⟨28, 28⟩
def LANE_ERR.UNB : Fld := ⟨27, 27⟩
def LANE_ERR.CRC : Fld := ⟨26, 26⟩
def LANE_ERR.STUFF : Fld := ⟨25, 25⟩
def LANE_ERR.MLOST : Fld := ⟨24, 24⟩
def LANE_ERR.FALLBK : Fld := ⟨23, 23⟩
def LANE_ERR.CFG : Fld := ⟨22, 22⟩
def LANE_CNT_BAD.COUNT : Fld := ⟨31, 0⟩
def LANE_CNT_DROP.COUNT : Fld := ⟨31, 0⟩
def LANE_CNT_UNDR.COUNT : Fld := ⟨31, 0⟩
def LANE_CNT_GOOD.COUNT : Fld := ⟨31, 0⟩
def LANE_CNT_RST.COUNT : Fld := ⟨31, 0⟩
def LANE_EYE.BUSY : Fld := ⟨31, 31⟩
def LANE_EYE.DONE : Fld := ⟨30, 30⟩
def LANE_EYE.GATE : Fld := ⟨24, 20⟩
def LANE_EYE.HOFS : Fld := ⟨13, 8⟩
def LANE_EYE.VOFS : Fld := ⟨6, 0⟩
def LANE_EYER.ERRS : Fld := ⟨31, 0⟩
def LANE_QCLK.QLOCK : Fld := ⟨31, 31⟩
def LANE_QCLK.QRUN : Fld := ⟨30, 30⟩
def LANE_QCLK.TCLIP : Fld := ⟨29, 29⟩
def LANE_QCLK.TOFS : Fld := ⟨25, 16⟩
def LANE_QCLK.TRACK : Fld := ⟨7, 7⟩
def LANE_QCLK.TDOM : Fld := ⟨6, 4⟩
def LANE_QCLK.FAM : Fld := ⟨2, 0⟩
def ENG_CTL.STOP : Fld := ⟨1, 1⟩
def ENG_CTL.START : Fld := ⟨0, 0⟩
def ENG_STATUS.STATE : Fld := ⟨31, 29⟩
def ENG_STATUS.STALL : Fld := ⟨28, 26⟩
def ENG_STATUS.BANK : Fld := ⟨25, 25⟩
def ENG_STATUS.SREJ : Fld := ⟨24, 24⟩
def ENG_STATUS.TPEND : Fld := ⟨23, 19⟩
def ENG_STATUS.PC : Fld := ⟨11, 0⟩
def ENG_CFG.AUTOSTART : Fld := ⟨17, 17⟩
def ENG_CFG.CMTACT : Fld := ⟨16, 16⟩
def ENG_CFG.ENTRY : Fld := ⟨11, 0⟩
def ENG_WDT.PERIOD : Fld := ⟨31, 16⟩
def ENG_WDT.ACT : Fld := ⟨15, 15⟩
def ENG_WDT.EXPD : Fld := ⟨14, 14⟩
def ENG_SPB.CEN : Fld := ⟨15, 15⟩
def ENG_SPB.CMEM : Fld := ⟨14, 12⟩
def ENG_SPB.CQ : Fld := ⟨11, 10⟩
def ENG_SPB.PEN : Fld := ⟨7, 7⟩
def ENG_SPB.PMEM : Fld := ⟨6, 4⟩
def ENG_SPB.PQ : Fld := ⟨3, 2⟩
def ENG_ERR.ILL : Fld := ⟨31, 31⟩
def ENG_ERR.PUE : Fld := ⟨30, 30⟩
def ENG_ERR.DUE : Fld := ⟨29, 29⟩
def ENG_ERR.WDX : Fld := ⟨28, 28⟩
def ENG_ERR.LOOPF : Fld := ⟨27, 27⟩
def ENG_ERR.TERR : Fld := ⟨26, 26⟩
def ENG_ERR.UNB : Fld := ⟨25, 25⟩
def ENG_ERR.WCOL : Fld := ⟨24, 24⟩
def ENG_ERR.CE : Fld := ⟨23, 23⟩
def ENG_ERR.SLOT : Fld := ⟨22, 21⟩
def ENG_ERR.FPC : Fld := ⟨11, 0⟩
def ENG_SIG.PEND : Fld := ⟨31, 31⟩
def ENG_SIG.CODE : Fld := ⟨7, 0⟩
def ENG_STALLS.COUNT : Fld := ⟨31, 0⟩
def HNG_CTL.SNAP : Fld := ⟨31, 31⟩
def HNG_CTL.RETRAIN : Fld := ⟨30, 30⟩
def HNG_STAT.STATE : Fld := ⟨31, 29⟩
def HNG_STAT.WCODE : Fld := ⟨28, 26⟩
def HNG_STAT.AUTH : Fld := ⟨25, 25⟩
def HNG_STAT.PSTEP : Fld := ⟨23, 20⟩
def HNG_STAT.OSTEP : Fld := ⟨19, 16⟩
def HNG_STAT.SEQ : Fld := ⟨15, 8⟩
def HNG_STAT.RTR : Fld := ⟨7, 0⟩
def HNG_LFAIL.MASK : Fld := ⟨31, 0⟩
def HNG_XMASK.MASK : Fld := ⟨31, 0⟩
def HNG_ERR.DOWN : Fld := ⟨31, 31⟩
def HNG_ERR.LFAIL : Fld := ⟨30, 30⟩
def HNG_ERR.NARROW : Fld := ⟨29, 29⟩
def HNG_ERR.WMIS : Fld := ⟨28, 28⟩
def HNG_ERR.REPLAY : Fld := ⟨27, 27⟩
def HNG_ERR.XPAR : Fld := ⟨26, 26⟩
def HNG_ERR.DESC : Fld := ⟨25, 25⟩
def HNG_ERR.LCHG : Fld := ⟨24, 24⟩
def HNG_CNT.CRCCNT : Fld := ⟨31, 16⟩
def HNG_CNT.RPLCNT : Fld := ⟨15, 0⟩
def HNGTR_LEDGER.COUNT : Fld := ⟨31, 0⟩
def HNG_LEDGER.COUNT : Fld := ⟨31, 0⟩
def TR_CTL.RQTO : Fld := ⟨31, 24⟩
def TR_CTL.TOCP : Fld := ⟨23, 16⟩
def TR_CTL.TOCR : Fld := ⟨15, 8⟩
def TR_STAT.BRD : Fld := ⟨31, 20⟩
def TR_STAT.SEQ : Fld := ⟨19, 12⟩
def TR_CMD.SNAP : Fld := ⟨31, 31⟩
def TR_CMD.BOARD : Fld := ⟨27, 16⟩
def TR_CMD.UNBOARD : Fld := ⟨11, 0⟩
def TR_ERR.BRDEV : Fld := ⟨31, 31⟩
def TR_ERR.BCAUSE : Fld := ⟨30, 29⟩
def TR_ERR.BPORT : Fld := ⟨28, 25⟩
def TR_ERR.XPAR : Fld := ⟨24, 24⟩
def TR_ERR.HPAR : Fld := ⟨23, 23⟩
def TR_ERR.UNMAP : Fld := ⟨22, 22⟩
def TR_ERR.TOUT : Fld := ⟨15, 8⟩
def TR_ERR.LATE : Fld := ⟨7, 0⟩
def TR_PPRI.PRI4 : Fld := ⟨1, 0⟩
def TR_PPRI.PRI5 : Fld := ⟨3, 2⟩
def TR_PPRI.PRI6 : Fld := ⟨5, 4⟩
def TR_PPRI.PRI7 : Fld := ⟨7, 6⟩
def TR_PPRI.PRI8 : Fld := ⟨9, 8⟩
def TR_PPRI.PRI9 : Fld := ⟨11, 10⟩
def TR_PPRI.PRI10 : Fld := ⟨13, 12⟩
def TR_PPRI.PRI11 : Fld := ⟨15, 14⟩
def TR_LEDGER.COUNT : Fld := ⟨31, 0⟩
def TR_DPATH.PATH : Fld := ⟨31, 0⟩
def FPIN_CFG.INV : Fld := ⟨15, 15⟩
def FPIN_CFG.PULL : Fld := ⟨14, 13⟩
def FPIN_CFG.DIV : Fld := ⟨12, 9⟩
def FPIN_CFG.MODE : Fld := ⟨8, 6⟩
def FPIN_CFG.QEN : Fld := ⟨5, 5⟩
def FPIN_CFG.QMEM : Fld := ⟨4, 2⟩
def FPIN_CFG.Q : Fld := ⟨1, 0⟩
def FPIN_ERR_L.ERR : Fld := ⟨31, 0⟩
def FPIN_ERR_H.ERR : Fld := ⟨15, 0⟩
end F

def regTab0 : List RegRow :=
  [⟨.HUB_PARTID, 0x0, [], 0xfffff000, 0x0, 0x0, 0x0, 0x0, 0x0, 0x0, 0x0, 0x0, 0xb0000⟩,
   ⟨.HUB_INTEGRITY, 0x4, [], 0xf, 0x0, 0x0, 0x0, 0x0, 0x0, 0x0, 0x0, 0x0, 0x1⟩,
   ⟨.HUB_STEP, 0x8, [], 0xf000ffff, 0x0, 0x0, 0x0, 0x0, 0x0, 0x0, 0x0, 0x0, 0x0⟩,
   ⟨.HUB_PCTL, 0x10, [], 0x7cf00000, 0x13, 0x0, 0x0, 0x0, 0x80000000, 0x0, 0x0, 0x0, 0x0⟩,
   ⟨.HUB_WMSUM, 0x100, [(0x8, 4), (0x4, 2)], 0xffffffff, 0x0, 0x0, 0x0, 0x0, 0x0, 0x0, 0x0, 0x0, 0x0⟩,
   ⟨.HUB_TRSUM, 0x120, [(0x8, 4), (0x4, 2)], 0xffffffff, 0x0, 0x0, 0x0, 0x0, 0x0, 0x0, 0x0, 0x0, 0x0⟩,
   ⟨.HUB_DBBEAT, 0x200, [], 0x0, 0xffffffff, 0x0, 0x0, 0x0, 0x0, 0x0, 0x0, 0x0, 0x0⟩,
   ⟨.MC_WDT, 0x300, [(0x4, 2)], 0x0, 0xffff0000, 0x8000, 0x0, 0x0, 0x4000, 0x0, 0x0, 0xffff0000, 0x0⟩,
   ⟨.CHN_CTL, 0x800, [], 0x0, 0xf, 0x0, 0x0, 0x0, 0xe0000000, 0x0, 0x0, 0x0, 0x0⟩,
   ⟨.CHN_CFG, 0x804, [], 0x0, 0xe000000f, 0x0, 0x0, 0x0, 0x0, 0x0, 0x0, 0x0, 0x0⟩,
   ⟨.CHN_STAT, 0x808, [], 0xf8ffff80, 0x0, 0x7000040, 0x0, 0x0, 0x0, 0x0, 0x0, 0x0, 0x0⟩,
   ⟨.CHN_MAP, 0x80c, [], 0xffffffff, 0x0, 0x0, 0x0, 0x0, 0x0, 0x0, 0x0, 0x0, 0x0⟩,
   ⟨.CHN_CNT, 0x810, [], 0x0, 0x0, 0x0, 0x0, 0xffff, 0x0, 0x0, 0x0, 0x0, 0x0⟩,
   ⟨.CHN_LEDGER, 0x840, [(0x4, 12)], 0xffffffff, 0x0, 0x0, 0x0, 0x0, 0x0, 0x0, 0x0, 0x0, 0x0⟩,
   ⟨.CHN_MBUF, 0x900, [(0x4, 18)], 0x0, 0xffffffff, 0x0, 0x0, 0x0, 0x0, 0x0, 0x0, 0x0, 0x0⟩,
   ⟨.CHN_RBUF, 0x980, [(0x4, 16)], 0xffffffff, 0x0, 0x0, 0x0, 0x0, 0x0, 0x0, 0x0, 0x0, 0x0⟩,
   ⟨.HOST_CTL, 0x1000, [], 0x0, 0x3ff, 0x0, 0x0, 0x0, 0x0, 0x0, 0x0, 0x0, 0x1⟩,
   ⟨.HOST_HWB_L, 0x1004, [], 0x0, 0xfffff000, 0x0, 0x0, 0x0, 0x0, 0x0, 0x0, 0x0, 0x0⟩,
   ⟨.HOST_HWB_H, 0x1008, [], 0x0, 0xffffffff, 0x0, 0x0, 0x0, 0x0, 0x0, 0x0, 0x0, 0x0⟩,
   ⟨.HOST_LINK, 0x100c, [], 0xf01f0000, 0x0, 0x0, 0x0, 0x0, 0x0, 0x0, 0x0, 0x0, 0x0⟩,
   ⟨.HOST_ERR, 0x1010, [], 0x0, 0x0, 0xc, 0x0, 0xffff0000, 0x0, 0x0, 0x0, 0x0, 0x0⟩,
   ⟨.MSG_RB_L, 0x1100, [(0x20, 3)], 0x0, 0xffffffff, 0x0, 0x0, 0x0, 0x0, 0x0, 0x0, 0x0, 0x0⟩,
   ⟨.MSG_RB_H, 0x1104, [(0x20, 3)], 0x0, 0xffffffff, 0x0, 0x0, 0x0, 0x0, 0x0, 0x0, 0x0, 0x0⟩,
   ⟨.MSG_CFG, 0x1108, [(0x20, 3)], 0x0, 0x87ff000f, 0x0, 0x0, 0x0, 0x0, 0x0, 0x0, 0x0, 0x4⟩,
   ⟨.MSG_TAIL, 0x110c, [(0x20, 3)], 0x3ff, 0x0, 0x0, 0x0, 0x0, 0x0, 0x0, 0x0, 0x0, 0x0⟩,
   ⟨.MSG_HEAD, 0x1110, [(0x20, 3)], 0x0, 0x3ff, 0x0, 0x0, 0x0, 0x0, 0x0, 0x0, 0x0, 0x0⟩,
   ⟨.MSG_DROP, 0x1114, [(0x20, 3)], 0x0, 0x0, 0x0, 0x0, 0xffff, 0x0, 0x0, 0x0, 0x0, 0x0⟩,
   ⟨.DIAG_INJ, 0x4000, [], 0x0, 0x0, 0x0, 0x0, 0x0, 0xffff3f0f, 0x0, 0x0, 0x0, 0x0⟩,
   ⟨.DIAG_CRED, 0x4004, [], 0x0, 0x0, 0x0, 0x0, 0x0, 0xffffffc0, 0x0, 0x0, 0x0, 0x0⟩,
   ⟨.CLK_XCFG, 0x10000, [], 0x9fff9fff, 0x0, 0x0, 0x0, 0x0, 0x0, 0x0, 0x0, 0x0, 0x0⟩,
   ⟨.CLK_HLCFG, 0x10004, [], 0x0, 0xff, 0x0, 0x0, 0x0, 0x0, 0x0, 0x0, 0x0, 0x0⟩,
   ⟨.CLK_HLSTAT, 0x10008, [], 0xcccc, 0x0, 0x2222, 0x0, 0x0, 0x0, 0x0, 0x0, 0x0, 0x0⟩,
   ⟨.CLK_MUX, 0x1000c, [], 0xf, 0x0, 0xc000, 0x0, 0xffff0000, 0x0, 0x0, 0x0, 0x0, 0x0⟩,
   ⟨.CLK_VFAB, 0x10010, [], 0x1f, 0x0, 0x0, 0x0, 0x0, 0x0, 0x0, 0x0, 0x0, 0x0⟩,
   ⟨.CLK_RST, 0x10020, [], 0x0, 0x0, 0x0, 0x0, 0x0, 0xffff0001, 0x0, 0x0, 0x0, 0x0⟩,
   ⟨.CLK_RSTCAUSE, 0x10024, [], 0xffff0f0f, 0x0, 0x0, 0x0, 0x0, 0x0, 0x0, 0x0, 0x0, 0x0⟩,
   ⟨.CLK_HOLD, 0x10028, [], 0x0, 0xff0, 0x2, 0x0, 0x0, 0xffff0001, 0x0, 0x0, 0x0, 0xf00⟩,
   ⟨.FM_CTL, 0x10040, [], 0x40000000, 0x1fffffff, 0x20000000, 0x0, 0x0, 0x80000000, 0x0, 0x0, 0x0, 0xa020000⟩,
   ⟨.FM_CNT_L, 0x10044, [], 0xffffffff, 0x0, 0x0, 0x0, 0x0, 0x0, 0x0, 0x0, 0x0, 0x0⟩,
   ⟨.FM_CNT_H, 0x10048, [], 0xff, 0x0, 0x0, 0x0, 0x0, 0x0, 0x0, 0x0, 0x0, 0x0⟩]

def regTab1 : List RegRow :=
  [⟨.PIN_CFG, 0x20000, [(0x4, 64)], 0x0, 0x0, 0x0, 0x0, 0x0, 0x0, 0xffffffcf, 0x0, 0xffffffcf, 0x0⟩,
   ⟨.PIN_GPOUT, 0x20100, [(0x20, 4)], 0x0, 0xffff, 0x0, 0x0, 0x0, 0x0, 0x0, 0x0, 0x0, 0x0⟩,
   ⟨.PIN_GPOE, 0x20104, [(0x20, 4)], 0x0, 0xffff, 0x0, 0x0, 0x0, 0x0, 0x0, 0x0, 0x0, 0x0⟩,
   ⟨.PIN_GPIN, 0x20108, [(0x20, 4)], 0xffff, 0x0, 0x0, 0x0, 0x0, 0x0, 0x0, 0x0, 0x0, 0x0⟩,
   ⟨.PIN_ISTAT, 0x2010c, [(0x20, 4)], 0x0, 0x0, 0xffff, 0x0, 0x0, 0x0, 0x0, 0x0, 0x0, 0x0⟩,
   ⟨.PIN_TALLY, 0x20110, [(0x20, 4)], 0x0, 0x0, 0x0, 0x0, 0x0, 0x0, 0xffff, 0x0, 0xffff, 0x0⟩,
   ⟨.PIN_STAT, 0x20180, [], 0x3f0f, 0x0, 0x80000000, 0x0, 0x0, 0x0, 0x0, 0x0, 0x0, 0x0⟩,
   ⟨.PIN_TS_L, 0x201c0, [(0x10, 4)], 0xffffffff, 0x0, 0x0, 0x0, 0x0, 0x0, 0x0, 0x0, 0x0, 0x0⟩,
   ⟨.PIN_TS_H, 0x201c4, [(0x10, 4)], 0xffffffff, 0x0, 0x0, 0x0, 0x0, 0x0, 0x0, 0x0, 0x0, 0x0⟩,
   ⟨.PIN_TSSTAT, 0x201c8, [(0x10, 4)], 0x0, 0x0, 0xc0000000, 0x0, 0x0, 0x0, 0x0, 0x0, 0x0, 0x0⟩,
   ⟨.FAN_CFG, 0x20600, [(0x10, 2)], 0x0, 0x80ff00ff, 0x0, 0x0, 0x0, 0x0, 0x0, 0x0, 0x0, 0xff⟩,
   ⟨.FAN_STAT, 0x20604, [(0x10, 2)], 0xffff, 0x0, 0x0, 0x0, 0x0, 0x0, 0x0, 0x0, 0x0, 0x0⟩,
   ⟨.UART_CFG, 0x20800, [(0x20, 4)], 0x0, 0xff80ffff, 0x0, 0x0, 0x0, 0x0, 0x0, 0x0, 0x0, 0x1000000⟩,
   ⟨.UART_TX, 0x20804, [(0x20, 4)], 0x0, 0x0, 0x0, 0x0, 0x0, 0xff, 0x0, 0x0, 0x0, 0x0⟩,
   ⟨.UART_RX, 0x20808, [(0x20, 4)], 0xe00000ff, 0x0, 0x0, 0x0, 0x0, 0x0, 0x0, 0x0, 0x0, 0x0⟩,
   ⟨.UART_CTL, 0x2080c, [(0x20, 4)], 0x0, 0x0, 0x0, 0x0, 0x0, 0x1, 0x0, 0x0, 0x0, 0x0⟩,
   ⟨.UART_STAT, 0x20810, [(0x20, 4)], 0x1f001f, 0x0, 0x80000000, 0x0, 0x0, 0x0, 0x0, 0x0, 0x0, 0x100000⟩,
   ⟨.I2C_CMD, 0x20900, [(0x20, 2)], 0x0, 0xfff, 0x0, 0x0, 0x0, 0x80000000, 0x0, 0x0, 0x0, 0x0⟩,
   ⟨.I2C_STAT, 0x20904, [(0x20, 2)], 0x800000ff, 0x0, 0x70000000, 0x0, 0x0, 0x0, 0x0, 0x0, 0x0, 0x0⟩,
   ⟨.I2C_CFG, 0x20908, [(0x20, 2)], 0x0, 0xc0000000, 0x0, 0x0, 0x0, 0x0, 0x0, 0x0, 0x0, 0x0⟩,
   ⟨.SPI_CFG, 0x20a00, [(0x20, 2)], 0x0, 0xe000ffff, 0x0, 0x0, 0x0, 0x0, 0x0, 0x0, 0x0, 0x0⟩,
   ⟨.SPI_XFER, 0x20a04, [(0x20, 2)], 0x0, 0x1ff, 0x0, 0x0, 0x0, 0x80000000, 0x0, 0x0, 0x0, 0x0⟩,
   ⟨.SPI_STAT, 0x20a08, [(0x20, 2)], 0x800000ff, 0x0, 0x40000000, 0x0, 0x0, 0x0, 0x0, 0x0, 0x0, 0x0⟩,
   ⟨.EVT_RAISED, 0x21000, [(0x4, 54)], 0xffffffff, 0x0, 0x0, 0x0, 0x0, 0x0, 0x0, 0x0, 0x0, 0x0⟩,
   ⟨.EVT_GCFG, 0x21200, [(0x4, 64)], 0x0, 0xf00007ff, 0x0, 0x0, 0x0, 0x0, 0x0, 0x0, 0x0, 0x0⟩,
   ⟨.EVT_GSTAT, 0x21300, [(0x4, 64)], 0x87ff07ff, 0x0, 0x0, 0x0, 0x0, 0x0, 0x0, 0x0, 0x0, 0x0⟩,
   ⟨.EVT_GACK_L, 0x21400, [], 0x0, 0x0, 0x0, 0x0, 0x0, 0xffffffff, 0x0, 0x0, 0x0, 0x0⟩,
   ⟨.EVT_GACK_H, 0x21404, [], 0x0, 0x0, 0x0, 0x0, 0x0, 0xffffffff, 0x0, 0x0, 0x0, 0x0⟩,
   ⟨.EVT_NMI, 0x21408, [], 0x0, 0xe00007ff, 0x0, 0x0, 0x0, 0x0, 0x0, 0x0, 0x0, 0x40000000⟩,
   ⟨.EVT_NMISTAT, 0x2140c, [], 0x800007ff, 0x0, 0x0, 0x0, 0x0, 0x0, 0x0, 0x0, 0x0, 0x0⟩,
   ⟨.EVT_SWSET, 0x21410, [], 0x0, 0x0, 0x0, 0xff, 0x0, 0x0, 0x0, 0x0, 0x0, 0x0⟩,
   ⟨.EVT_SWCLR, 0x21414, [], 0x0, 0x0, 0xff, 0x0, 0x0, 0x0, 0x0, 0x0, 0x0, 0x0⟩,
   ⟨.EVT_CPEND, 0x21420, [(0x8, 3), (0x4, 2)], 0xffffffff, 0x0, 0x0, 0x0, 0x0, 0x0, 0x0, 0x0, 0x0, 0x0⟩,
   ⟨.EVT_SRC, 0x28000, [(0x4, 1704)], 0x70000000, 0x8000003f, 0x0, 0x0, 0x0, 0x0, 0x0, 0x0, 0x0, 0x0⟩,
   ⟨.CFG_BOOT, 0x30000, [], 0xf8000000, 0xff0000, 0x0, 0x0, 0x0, 0x0, 0x0, 0x0, 0x0, 0x0⟩,
   ⟨.CFG_IDCODE, 0x30004, [], 0xffffffff, 0x0, 0x0, 0x0, 0x0, 0x0, 0x0, 0x0, 0x0, 0x0⟩,
   ⟨.CFG_BSTAT, 0x30008, [], 0xfeffffff, 0x0, 0x1000000, 0x0, 0x0, 0x0, 0x0, 0x0, 0x0, 0x0⟩,
   ⟨.CFG_BFSEL, 0x3000c, [], 0x81ffffff, 0x0, 0x0, 0x0, 0x0, 0x0, 0x0, 0x0, 0x0, 0x0⟩,
   ⟨.CFG_SORDER, 0x30010, [], 0x7fff, 0x0, 0x0, 0x0, 0x0, 0x0, 0x0, 0x0, 0x7fff, 0x0⟩,
   ⟨.CFG_SADR, 0x30020, [], 0x0, 0x1fffffff, 0x0, 0x0, 0x0, 0x0, 0x0, 0x0, 0x0, 0x0⟩]

def regTab2 : List RegRow :=
  [⟨.CFG_SCMD, 0x30024, [], 0x40000000, 0xf, 0x38000000, 0x0, 0x0, 0x80000000, 0x0, 0x0, 0x0, 0x0⟩,
   ⟨.CFG_RTPKT, 0x30030, [], 0x0, 0x0, 0x0, 0x0, 0x0, 0xffffffff, 0x0, 0x0, 0x0, 0x0⟩,
   ⟨.CFG_RTSTAT, 0x30034, [], 0xc0ffffff, 0x0, 0x30000000, 0x0, 0x0, 0x0, 0x0, 0x0, 0x0, 0x0⟩,
   ⟨.CFG_RBSEL, 0x30040, [], 0x20000000, 0x41ffffff, 0x10000000, 0x0, 0x0, 0x80000000, 0x0, 0x0, 0x0, 0x0⟩,
   ⟨.CFG_SCRUB, 0x30050, [], 0x0, 0xc000000f, 0x0, 0x0, 0x0, 0x0, 0x0, 0x0, 0x0, 0xc0000000⟩,
   ⟨.CFG_SCRST, 0x30054, [], 0x1000ffff, 0x0, 0xe0000000, 0x0, 0x0, 0x0, 0x0, 0x0, 0x0, 0x0⟩,
   ⟨.CFG_SCCNT, 0x30058, [], 0x0, 0x0, 0x0, 0x0, 0xffffffff, 0x0, 0x0, 0x0, 0x0, 0x0⟩,
   ⟨.CFG_SCUEA, 0x3005c, [], 0x81ffffff, 0x0, 0x0, 0x0, 0x0, 0x0, 0x0, 0x0, 0x0, 0x0⟩,
   ⟨.CFG_IST, 0x30060, [], 0x0, 0xe0000000, 0x0, 0x0, 0x0, 0x0, 0x0, 0x0, 0x0, 0xe0000000⟩,
   ⟨.CFG_ISTREF, 0x30064, [], 0xffffffff, 0x0, 0x0, 0x0, 0x0, 0x0, 0x0, 0x0, 0x0, 0x3a5c91e7⟩,
   ⟨.CFG_ISTFAIL, 0x30080, [(0x8, 4), (0x4, 2)], 0x0, 0x0, 0xffffffff, 0x0, 0x0, 0x0, 0x0, 0x0, 0x0, 0x0⟩,
   ⟨.CFG_ISTEFAIL, 0x300a0, [(0x10, 4), (0x4, 4)], 0x0, 0x0, 0xffffffff, 0x0, 0x0, 0x0, 0x0, 0x0, 0x0, 0x0⟩,
   ⟨.CFG_ISTHNG, 0x300e0, [(0x4, 6)], 0xffffffff, 0x0, 0x0, 0x0, 0x0, 0x0, 0x0, 0x0, 0x0, 0x0⟩,
   ⟨.CFG_SBUF, 0x30100, [(0x4, 64)], 0x0, 0xffffffff, 0x0, 0x0, 0x0, 0x0, 0x0, 0x0, 0x0, 0x0⟩,
   ⟨.CFG_RBDAT, 0x30200, [(0x4, 125)], 0xffffffff, 0x0, 0x0, 0x0, 0x0, 0x0, 0x0, 0x0, 0x0, 0x0⟩,
   ⟨.SEC_STAT, 0x40000, [], 0xe000ffff, 0x0, 0x0, 0x0, 0x0, 0x0, 0x0, 0x0, 0x0, 0x20000000⟩,
   ⟨.SEC_DIGEST, 0x40010, [(0x4, 12)], 0xffffffff, 0x0, 0x0, 0x0, 0x0, 0x0, 0x0, 0x0, 0x0, 0x0⟩,
   ⟨.OTP_CMD, 0x40040, [], 0x0, 0x0, 0x0, 0x0, 0x0, 0xffff0f03, 0x0, 0x0, 0x0, 0x0⟩,
   ⟨.OTP_STAT, 0x40044, [], 0x80000007, 0x0, 0x60000000, 0x0, 0x0, 0x0, 0x0, 0x0, 0x0, 0x0⟩,
   ⟨.OTP_DATA, 0x40080, [(0x4, 12)], 0x0, 0xffffffff, 0x0, 0x0, 0x0, 0x0, 0x0, 0x0, 0x0, 0x0⟩,
   ⟨.OTP_GEN, 0x400c0, [(0x4, 16)], 0xf0fff, 0x0, 0x0, 0x0, 0x0, 0x0, 0x0, 0x0, 0x0, 0x0⟩,
   ⟨.OTP_VAL, 0x40100, [(0x40, 16), (0x4, 12)], 0xffffffff, 0x0, 0x0, 0x0, 0x0, 0x0, 0x0, 0x0, 0x0, 0x0⟩,
   ⟨.DB_STAT, 0x50000, [], 0x78000000, 0x0, 0x80000000, 0x0, 0x0, 0x0, 0x0, 0x0, 0x0, 0x0⟩,
   ⟨.DB_WDT, 0x50004, [], 0x40000000, 0x0, 0x8000ffff, 0x0, 0x0, 0x0, 0x0, 0x0, 0x0, 0x0⟩,
   ⟨.DB_LOG, 0x50008, [], 0xffffffff, 0x0, 0x0, 0x0, 0x0, 0x0, 0x0, 0x0, 0x0, 0x0⟩,
   ⟨.DB_VSTAT, 0x50010, [], 0x0, 0x0, 0x1ff, 0x0, 0x0, 0x0, 0x0, 0x0, 0x0, 0x0⟩,
   ⟨.DB_TSTAT, 0x50014, [], 0x0, 0x0, 0x3, 0x0, 0x0, 0x0, 0x0, 0x0, 0x0, 0x0⟩,
   ⟨.DB_TEMP, 0x50040, [(0x4, 19)], 0xfff, 0x0, 0x0, 0x0, 0x0, 0x0, 0x0, 0x0, 0x0, 0x0⟩,
   ⟨.DB_VOLT, 0x500c0, [(0x4, 9)], 0xfff, 0x0, 0x0, 0x0, 0x0, 0x0, 0x0, 0x0, 0x0, 0x0⟩,
   ⟨.CM_CFG, 0x50100, [], 0x0, 0x3f, 0x0, 0x0, 0x0, 0x0, 0x0, 0x0, 0x0, 0x0⟩,
   ⟨.CM_STATUS, 0x50104, [], 0x3f0000, 0x0, 0x3f3f, 0x0, 0x0, 0x0, 0x0, 0x0, 0x0, 0x0⟩,
   ⟨.CM_PLOL, 0x50108, [(0x8, 4), (0x4, 2)], 0xffffffff, 0x0, 0x0, 0x0, 0x0, 0x0, 0x0, 0x0, 0x0, 0x0⟩,
   ⟨.KPR_STAT, 0x60000, [], 0xfcff0000, 0x0, 0x3000000, 0x0, 0xffff, 0x0, 0x0, 0x0, 0x0, 0x0⟩,
   ⟨.KPR_CFG, 0x60004, [], 0x0, 0xc0000000, 0x0, 0x0, 0x0, 0x0, 0x0, 0x0, 0xc0000000, 0x0⟩,
   ⟨.KPR_TXD, 0x60010, [], 0x0, 0x0, 0x0, 0x0, 0x0, 0xffffffff, 0x0, 0x0, 0x0, 0x0⟩,
   ⟨.KPR_RXD, 0x60014, [], 0xffffffff, 0x0, 0x0, 0x0, 0x0, 0x0, 0x0, 0x0, 0x0, 0x0⟩,
   ⟨.KPR_RXPOP, 0x60018, [], 0x0, 0x0, 0x0, 0x0, 0x0, 0x1, 0x0, 0x0, 0x0, 0x0⟩,
   ⟨.KPR_VTSTAT, 0x6001c, [], 0x7f007f, 0x0, 0x80000000, 0x0, 0x0, 0x0, 0x0, 0x0, 0x0, 0x400000⟩,
   ⟨.KPR_HSTAT, 0x60020, [], 0xe0000000, 0x0, 0x0, 0x0, 0x0, 0x0, 0x0, 0x0, 0x0, 0x0⟩,
   ⟨.DDR_CTL, 0x80000, [(0x8000, 8)], 0x0, 0x0, 0x0, 0x0, 0x0, 0x7, 0x0, 0x0, 0x0, 0x0⟩]

def regTab3 : List RegRow :=
  [⟨.DDR_CFG, 0x80004, [(0x8000, 8)], 0x0, 0x0, 0x0, 0x0, 0x0, 0x0, 0x0, 0x800ff800, 0x800ff800, 0x0⟩,
   ⟨.DDR_STATUS, 0x80008, [(0x8000, 8)], 0xff800000, 0x0, 0x0, 0x0, 0xffff, 0x0, 0x0, 0x0, 0x0, 0x0⟩,
   ⟨.DDR_QOS, 0x8000c, [(0x8000, 8)], 0x0, 0x0, 0x0, 0x0, 0x0, 0x0, 0xffff, 0x0, 0xffff, 0x0⟩,
   ⟨.DDR_SCRUB, 0x80010, [(0x8000, 8)], 0x0, 0x8000ffff, 0x0, 0x0, 0x0, 0x0, 0x0, 0x0, 0x8000ffff, 0x0⟩,
   ⟨.DDR_ERR, 0x80020, [(0x8000, 8), (0x10, 2)], 0xf000000, 0x0, 0xf0000000, 0x0, 0xffffff, 0x0, 0x0, 0x0, 0x0, 0x0⟩,
   ⟨.DDR_UEADR, 0x80024, [(0x8000, 8), (0x10, 2)], 0x7ffffff, 0x0, 0x0, 0x0, 0x0, 0x0, 0x0, 0x0, 0x0, 0x0⟩,
   ⟨.DDR_MAP, 0xc0000, [], 0x80000000, 0x0, 0x0, 0x0, 0x0, 0x0, 0x0, 0x7, 0x7, 0x0⟩,
   ⟨.DDR_FSHIN, 0xc0010, [], 0x0, 0xffffffff, 0x0, 0x0, 0x0, 0x0, 0x0, 0x0, 0x0, 0x0⟩,
   ⟨.DDR_FSHL, 0xc0014, [], 0xffffffff, 0x0, 0x0, 0x0, 0x0, 0x0, 0x0, 0x0, 0x0, 0x0⟩,
   ⟨.DDR_FSHF, 0xc0018, [], 0xffffffff, 0x0, 0x0, 0x0, 0x0, 0x0, 0x0, 0x0, 0x0, 0x0⟩,
   ⟨.HCQ_CFG, 0x100000, [(0x40, 64)], 0x0, 0x800007ff, 0x0, 0x0, 0x0, 0x0, 0x0, 0x7800, 0x0, 0x2000⟩,
   ⟨.HCQ_SQB_L, 0x100004, [(0x40, 64)], 0x0, 0x0, 0x0, 0x0, 0x0, 0x0, 0x0, 0xffffffc0, 0x0, 0x0⟩,
   ⟨.HCQ_SQB_H, 0x100008, [(0x40, 64)], 0x0, 0x0, 0x0, 0x0, 0x0, 0x0, 0x0, 0xffffffff, 0x0, 0x0⟩,
   ⟨.HCQ_CQB_L, 0x10000c, [(0x40, 64)], 0x0, 0x0, 0x0, 0x0, 0x0, 0x0, 0x0, 0xfffffff0, 0x0, 0x0⟩,
   ⟨.HCQ_CQB_H, 0x100010, [(0x40, 64)], 0x0, 0x0, 0x0, 0x0, 0x0, 0x0, 0x0, 0xffffffff, 0x0, 0x0⟩,
   ⟨.HCQ_DB, 0x100014, [(0x40, 64)], 0x0, 0xfff, 0x0, 0x0, 0x0, 0x0, 0x0, 0x0, 0x0, 0x0⟩,
   ⟨.HCQ_CQH, 0x100018, [(0x40, 64)], 0x0, 0xfff, 0x0, 0x0, 0x0, 0x0, 0x0, 0x0, 0x0, 0x0⟩,
   ⟨.HCQ_STAT, 0x10001c, [(0x40, 64)], 0xbeffffff, 0x0, 0x40000000, 0x0, 0x0, 0x0, 0x0, 0x0, 0x0, 0x0⟩,
   ⟨.TBU_INCR, 0x200000, [], 0x0, 0xffffffff, 0x0, 0x0, 0x0, 0x0, 0x0, 0x0, 0x0, 0x20000000⟩,
   ⟨.TBU_NOW_L, 0x200004, [], 0xffffffff, 0x0, 0x0, 0x0, 0x0, 0x0, 0x0, 0x0, 0x0, 0x0⟩,
   ⟨.TBU_NOW_H, 0x200008, [], 0xffffffff, 0x0, 0x0, 0x0, 0x0, 0x0, 0x0, 0x0, 0x0, 0x0⟩,
   ⟨.TBU_SET_L, 0x20000c, [], 0x0, 0xffffffff, 0x0, 0x0, 0x0, 0x0, 0x0, 0x0, 0x0, 0x0⟩,
   ⟨.TBU_SET_H, 0x200010, [], 0x0, 0xffffffff, 0x0, 0x0, 0x0, 0x0, 0x0, 0x0, 0x0, 0x0⟩,
   ⟨.TB_CFG, 0x200100, [(0x20, 8)], 0x3800, 0xc00003ff, 0x400, 0x0, 0x0, 0x0, 0x0, 0x0, 0x0, 0x0⟩,
   ⟨.TB_RATE, 0x200104, [(0x20, 8)], 0x0, 0xcfffffff, 0x0, 0x0, 0x0, 0x0, 0x0, 0x0, 0x0, 0x0⟩,
   ⟨.TB_LINES, 0x200108, [(0x20, 8)], 0x0, 0xc000ffff, 0x0, 0x0, 0x0, 0x0, 0x0, 0x0, 0x0, 0x0⟩,
   ⟨.TB_OFFSET, 0x20010c, [(0x20, 8)], 0x0, 0xffffffff, 0x0, 0x0, 0x0, 0x0, 0x0, 0x0, 0x0, 0x0⟩,
   ⟨.TB_POS, 0x200110, [(0x20, 8)], 0xffffffff, 0x0, 0x0, 0x0, 0x0, 0x0, 0x0, 0x0, 0x0, 0x0⟩,
   ⟨.TB_FRAMEL, 0x200114, [(0x20, 8)], 0xffffffff, 0x0, 0x0, 0x0, 0x0, 0x0, 0x0, 0x0, 0x0, 0x0⟩,
   ⟨.TB_FRAMEH, 0x200118, [(0x20, 8)], 0xffff, 0x0, 0x0, 0x0, 0x0, 0x0, 0x0, 0x0, 0x0, 0x0⟩,
   ⟨.SHT_ARM, 0x200400, [(0x10, 8)], 0x0, 0x20f0ffff, 0x0, 0x0, 0x0, 0xc0000000, 0x0, 0x0, 0x0, 0x0⟩,
   ⟨.SHT_STATUS, 0x200404, [(0x10, 8)], 0xe38fffff, 0x0, 0x1c600000, 0x0, 0x0, 0x0, 0x0, 0x0, 0x0, 0x0⟩,
   ⟨.SHT_MISS, 0x200408, [(0x10, 8)], 0x3ff03ff, 0x0, 0x0, 0x0, 0x0, 0x0, 0x0, 0x0, 0x0, 0x0⟩,
   ⟨.SHT_SET, 0x200800, [(0x80, 8), (0x4, 32)], 0x0, 0x0, 0x0, 0x0, 0x0, 0x0, 0x0, 0xffffffff, 0x0, 0x0⟩,
   ⟨.HTR_CTL, 0x400000, [], 0x0, 0xffffff00, 0x0, 0x0, 0x0, 0x0, 0x0, 0x0, 0xffffff00, 0x0⟩,
   ⟨.TR_HBRD_L, 0x400004, [], 0xffffffff, 0x0, 0x0, 0x0, 0x0, 0x0, 0x0, 0x0, 0x0, 0x0⟩,
   ⟨.TR_HBRD_H, 0x400008, [], 0x1, 0x0, 0x0, 0x0, 0x0, 0x0, 0x0, 0x0, 0x0, 0x0⟩,
   ⟨.HTR_ERR, 0x40000c, [], 0x7f800000, 0x0, 0x80700000, 0x0, 0xffff, 0x0, 0x0, 0x0, 0x0, 0x0⟩,
   ⟨.TR_HBOARD_L, 0x400010, [], 0x0, 0x0, 0x0, 0x0, 0x0, 0xffffffff, 0x0, 0x0, 0x0, 0x0⟩,
   ⟨.TR_HBOARD_H, 0x400014, [], 0x0, 0x0, 0x0, 0x0, 0x0, 0x1, 0x0, 0x0, 0x0, 0x0⟩]

def regTab4 : List RegRow :=
  [⟨.TR_HUNBOARD_L, 0x400018, [], 0x0, 0x0, 0x0, 0x0, 0x0, 0xffffffff, 0x0, 0x0, 0x0, 0x0⟩,
   ⟨.TR_HUNBOARD_H, 0x40001c, [], 0x0, 0x0, 0x0, 0x0, 0x0, 0x1, 0x0, 0x0, 0x0, 0x0⟩,
   ⟨.TR_GSNAP, 0x400020, [], 0xff00, 0x7, 0x40000000, 0x0, 0x0, 0x80000000, 0x0, 0x0, 0x0, 0x0⟩,
   ⟨.TR_PDTO, 0x400024, [], 0x0, 0xffff, 0x0, 0x0, 0x0, 0x0, 0x0, 0x0, 0x0, 0x64⟩,
   ⟨.HTR_DPATH, 0x400028, [], 0xffffffff, 0x0, 0x0, 0x0, 0x0, 0x0, 0x0, 0x0, 0x0, 0x0⟩,
   ⟨.HTR_LEDGER, 0x401000, [(0x40, 33), (0x4, 16)], 0xffffffff, 0x0, 0x0, 0x0, 0x0, 0x0, 0x0, 0x0, 0x0, 0x0⟩,
   ⟨.SD_K0L, 0x408000, [], 0x0, 0xffffffff, 0x0, 0x0, 0x0, 0x0, 0x0, 0x0, 0x0, 0x0⟩,
   ⟨.SD_K0H, 0x408004, [], 0x0, 0xff, 0x0, 0x0, 0x0, 0x0, 0x0, 0x0, 0x0, 0x0⟩,
   ⟨.SD_K1L, 0x408008, [], 0x0, 0xffffffff, 0x0, 0x0, 0x0, 0x0, 0x0, 0x0, 0x0, 0x0⟩,
   ⟨.SD_K1H, 0x40800c, [], 0x0, 0xff, 0x0, 0x0, 0x0, 0x0, 0x0, 0x0, 0x0, 0x0⟩,
   ⟨.SD_AL, 0x408010, [], 0x0, 0xffffffff, 0x0, 0x0, 0x0, 0x0, 0x0, 0x0, 0x0, 0x0⟩,
   ⟨.SD_AH, 0x408014, [], 0x0, 0xff, 0x0, 0x0, 0x0, 0x0, 0x0, 0x0, 0x0, 0x0⟩,
   ⟨.SD_CMD, 0x408018, [], 0x0, 0x40000003, 0x0, 0x0, 0x0, 0x80000000, 0x0, 0x0, 0x0, 0x0⟩,
   ⟨.SD_RES, 0x40801c, [], 0xe001ffff, 0x0, 0x0, 0x0, 0x0, 0x0, 0x0, 0x0, 0x0, 0x0⟩,
   ⟨.SD_COUNT, 0x408020, [], 0x3ffff, 0x0, 0x0, 0x0, 0x0, 0x0, 0x0, 0x0, 0x0, 0x0⟩,
   ⟨.SD_HITS, 0x408024, [], 0x0, 0x0, 0x0, 0x0, 0xffffffff, 0x0, 0x0, 0x0, 0x0, 0x0⟩,
   ⟨.SD_MISSES, 0x408028, [], 0x0, 0x0, 0x0, 0x0, 0xffffffff, 0x0, 0x0, 0x0, 0x0, 0x0⟩,
   ⟨.SD_RUNT, 0x40802c, [], 0x0, 0x0, 0x0, 0x0, 0xffffffff, 0x0, 0x0, 0x0, 0x0, 0x0⟩,
   ⟨.UCL_CTL, 0x418000, [], 0x0, 0x1, 0x0, 0x0, 0x0, 0x80000000, 0x0, 0xe, 0xf, 0x0⟩,
   ⟨.UCL_STAT, 0x418004, [], 0xfc000000, 0x0, 0x3000000, 0x0, 0xffff, 0x0, 0x0, 0x0, 0x0, 0x0⟩,
   ⟨.PANE_CTX, 0x1000000, [(0x400000, 4), (0x4000, 64)], 0x3, 0x0, 0x4, 0x0, 0x0, 0x0, 0x0, 0x0, 0x0, 0x2⟩,
   ⟨.PANE_CLK, 0x1000010, [(0x400000, 4), (0x4000, 64)], 0xa0000000, 0x10000000, 0x40000000, 0x0, 0x0, 0x0, 0x0, 0xfffff80, 0xfffff80, 0x0⟩,
   ⟨.PANE_LVSCHED, 0x1000100, [(0x400000, 4), (0x4000, 64)], 0x0, 0x0, 0x0, 0x0, 0x0, 0x0, 0xffffffff, 0x0, 0xffffffff, 0xfffffff8⟩,
   ⟨.PANE_LVERR, 0x1000104, [(0x400000, 4), (0x4000, 64)], 0x1ffff, 0x0, 0xc0000000, 0x0, 0x3fc00000, 0x0, 0x0, 0x0, 0x0, 0x0⟩,
   ⟨.PANE_LVILL, 0x1000108, [(0x400000, 4), (0x4000, 64)], 0xfffff, 0x0, 0xc0000000, 0x0, 0x3fc00000, 0x0, 0x0, 0x0, 0x0, 0x0⟩,
   ⟨.PANE_BUSCON, 0x100010c, [(0x400000, 4), (0x4000, 64)], 0x3fff8, 0x0, 0xc0000000, 0x0, 0x3fc00000, 0x0, 0x0, 0x0, 0x0, 0x0⟩,
   ⟨.PANE_CHIN, 0x1000400, [(0x400000, 4), (0x4000, 64), (0x4, 64)], 0x0, 0x0, 0x0, 0x0, 0x0, 0x0, 0xffffffff, 0x0, 0xffffffff, 0x0⟩,
   ⟨.PANE_CHOUT, 0x1000500, [(0x400000, 4), (0x4000, 64), (0x4, 64)], 0x0, 0x0, 0x0, 0x0, 0x0, 0x0, 0xffff, 0x0, 0xffff, 0x0⟩,
   ⟨.PANE_CHSTAT, 0x1000600, [(0x400000, 4), (0x4000, 64), (0x4, 64)], 0xf300, 0x0, 0xc00, 0x0, 0xffff0000, 0x0, 0x0, 0x0, 0x0, 0x0⟩,
   ⟨.WM_CFG, 0x1001000, [(0x400000, 4), (0x4000, 64), (0x800, 6)], 0x0, 0x3ffe00, 0x0, 0x0, 0x0, 0x0, 0x1ff, 0x0, 0x3fffff, 0x0⟩,
   ⟨.WM_LCTL, 0x1001004, [(0x400000, 4), (0x4000, 64), (0x800, 6)], 0xff00, 0x0, 0x0, 0x0, 0x0, 0x1, 0x0, 0x0, 0x0, 0x0⟩,
   ⟨.WM_ERR, 0x1001008, [(0x400000, 4), (0x4000, 64), (0x800, 6)], 0x3fff, 0x0, 0xfc000000, 0x0, 0x3fc0000, 0x0, 0x0, 0x0, 0x0, 0x0⟩,
   ⟨.WM_QCFG, 0x1001010, [(0x400000, 4), (0x4000, 64), (0x800, 6), (0x10, 4)], 0x0, 0x0, 0x0, 0x0, 0x0, 0x0, 0x3fff3fff, 0x0, 0x3fff3fff, 0x0⟩,
   ⟨.WM_QIDLE_L, 0x1001014, [(0x400000, 4), (0x4000, 64), (0x800, 6), (0x10, 4)], 0x0, 0x0, 0x0, 0x0, 0x0, 0x0, 0xffffffff, 0x0, 0x0, 0x4080040⟩,
   ⟨.WM_QIDLE_H, 0x1001018, [(0x400000, 4), (0x4000, 64), (0x800, 6), (0x10, 4)], 0x0, 0x0, 0x0, 0x0, 0x0, 0x0, 0xff, 0x0, 0x0, 0x80⟩,
   ⟨.WM_QSTAT, 0x100101c, [(0x400000, 4), (0x4000, 64), (0x800, 6), (0x10, 4)], 0x7fffffff, 0x0, 0x80000000, 0x0, 0x0, 0x0, 0x0, 0x0, 0x0, 0x0⟩,
   ⟨.WM_QLEDGER, 0x1001100, [(0x400000, 4), (0x4000, 64), (0x800, 6), (0x20, 4), (0x4, 6)], 0xffffffff, 0x0, 0x0, 0x0, 0x0, 0x0, 0x0, 0x0, 0x0, 0x0⟩,
   ⟨.WM_MVCFG, 0x1001200, [(0x400000, 4), (0x4000, 64), (0x800, 6)], 0x0, 0x0, 0x0, 0x0, 0x0, 0x0, 0x3ffffff, 0x0, 0x3ffffff, 0x0⟩,
   ⟨.WM_MVBASE_L, 0x1001204, [(0x400000, 4), (0x4000, 64), (0x800, 6)], 0x0, 0x0, 0x0, 0x0, 0x0, 0x0, 0xffffffff, 0x0, 0xffffffff, 0x0⟩,
   ⟨.WM_MVBASE_H, 0x1001208, [(0x400000, 4), (0x4000, 64), (0x800, 6)], 0x0, 0x0, 0x0, 0x0, 0x0, 0x0, 0xff, 0x0, 0xff, 0x0⟩]

def regTab5 : List RegRow :=
  [⟨.WM_MVLSTR, 0x100120c, [(0x400000, 4), (0x4000, 64), (0x800, 6)], 0x0, 0x0, 0x0, 0x0, 0x0, 0x0, 0xffffff, 0x0, 0xffffff, 0x0⟩,
   ⟨.WM_MVFSTR, 0x1001210, [(0x400000, 4), (0x4000, 64), (0x800, 6)], 0x0, 0x0, 0x0, 0x0, 0x0, 0x0, 0xffffffff, 0x0, 0xffffffff, 0x0⟩,
   ⟨.WM_MVSTAT, 0x1001214, [(0x400000, 4), (0x4000, 64), (0x800, 6)], 0x1f0000, 0x0, 0x80000000, 0x0, 0xffff, 0x0, 0x0, 0x0, 0x0, 0x0⟩,
   ⟨.LANE_CTL, 0x1100000, [(0x400000, 4), (0x1000, 32)], 0x0, 0x1, 0x0, 0x0, 0x0, 0x6, 0x0, 0x0, 0x1, 0x0⟩,
   ⟨.LANE_CFG, 0x1100004, [(0x400000, 4), (0x1000, 32)], 0x0, 0x0, 0x0, 0x0, 0x0, 0x0, 0x0, 0x1f, 0x1f, 0x0⟩,
   ⟨.LANE_TX, 0x1100008, [(0x400000, 4), (0x1000, 32)], 0x0, 0x0, 0x0, 0x0, 0x0, 0x0, 0x3ff, 0x0, 0x3ff, 0x0⟩,
   ⟨.LANE_CTLE, 0x110000c, [(0x400000, 4), (0x1000, 32)], 0x1e00, 0x0, 0x0, 0x0, 0x0, 0x0, 0x11f, 0x0, 0x11f, 0x0⟩,
   ⟨.LANE_QB, 0x1100010, [(0x400000, 4), (0x1000, 32)], 0x0, 0x0, 0x0, 0x0, 0x0, 0x0, 0xfcfc, 0x0, 0xfcfc, 0x0⟩,
   ⟨.LANE_NCFG, 0x1100014, [(0x400000, 4), (0x1000, 32)], 0x0, 0x0, 0x0, 0x0, 0x0, 0x0, 0x0, 0x3ffff, 0x3ffff, 0x0⟩,
   ⟨.LANE_STAT, 0x1100018, [(0x400000, 4), (0x1000, 32)], 0xffc00000, 0x0, 0x0, 0x0, 0x0, 0x0, 0x0, 0x0, 0x0, 0x0⟩,
   ⟨.LANE_PCAP_L, 0x110001c, [(0x400000, 4), (0x1000, 32)], 0xffffffff, 0x0, 0x0, 0x0, 0x0, 0x0, 0x0, 0x0, 0x0, 0x0⟩,
   ⟨.LANE_PCAP_H, 0x1100020, [(0x400000, 4), (0x1000, 32)], 0xff, 0x0, 0x0, 0x0, 0x0, 0x0, 0x0, 0x0, 0x0, 0x0⟩,
   ⟨.LANE_ERR, 0x1100024, [(0x400000, 4), (0x1000, 32)], 0x0, 0x0, 0xffc00000, 0x0, 0x0, 0x0, 0x0, 0x0, 0x0, 0x0⟩,
   ⟨.LANE_CNT_BAD, 0x1100028, [(0x400000, 4), (0x1000, 32)], 0x0, 0x0, 0x0, 0x0, 0xffffffff, 0x0, 0x0, 0x0, 0x0, 0x0⟩,
   ⟨.LANE_CNT_DROP, 0x110002c, [(0x400000, 4), (0x1000, 32)], 0x0, 0x0, 0x0, 0x0, 0xffffffff, 0x0, 0x0, 0x0, 0x0, 0x0⟩,
   ⟨.LANE_CNT_UNDR, 0x1100030, [(0x400000, 4), (0x1000, 32)], 0x0, 0x0, 0x0, 0x0, 0xffffffff, 0x0, 0x0, 0x0, 0x0, 0x0⟩,
   ⟨.LANE_CNT_GOOD, 0x1100034, [(0x400000, 4), (0x1000, 32)], 0x0, 0x0, 0x0, 0x0, 0xffffffff, 0x0, 0x0, 0x0, 0x0, 0x0⟩,
   ⟨.LANE_CNT_RST, 0x1100038, [(0x400000, 4), (0x1000, 32)], 0x0, 0x0, 0x0, 0x0, 0xffffffff, 0x0, 0x0, 0x0, 0x0, 0x0⟩,
   ⟨.LANE_EYE, 0x1100040, [(0x400000, 4), (0x1000, 32)], 0x80000000, 0x1f03f7f, 0x40000000, 0x0, 0x0, 0x0, 0x0, 0x0, 0x0, 0x1000000⟩,
   ⟨.LANE_EYER, 0x1100044, [(0x400000, 4), (0x1000, 32)], 0xffffffff, 0x0, 0x0, 0x0, 0x0, 0x0, 0x0, 0x0, 0x0, 0x0⟩,
   ⟨.LANE_QCLK, 0x1100080, [(0x400000, 4), (0x4000, 8)], 0xc3ff0000, 0x0, 0x20000000, 0x0, 0x0, 0x0, 0x0, 0xf7, 0xf7, 0x0⟩,
   ⟨.ENG_CTL, 0x1140000, [(0x400000, 4), (0x800, 128)], 0x0, 0x0, 0x0, 0x0, 0x0, 0x3, 0x0, 0x0, 0x0, 0x0⟩,
   ⟨.ENG_STATUS, 0x1140004, [(0x400000, 4), (0x800, 128)], 0xfef80fff, 0x0, 0x1000000, 0x0, 0x0, 0x0, 0x0, 0x0, 0x0, 0x0⟩,
   ⟨.ENG_CFG, 0x1140008, [(0x400000, 4), (0x800, 128)], 0x0, 0x0, 0x0, 0x0, 0x0, 0x0, 0x30fff, 0x0, 0x30fff, 0x0⟩,
   ⟨.ENG_WDT, 0x114000c, [(0x400000, 4), (0x800, 128)], 0x0, 0xffff8000, 0x4000, 0x0, 0x0, 0x0, 0x0, 0x0, 0xffff8000, 0x0⟩,
   ⟨.ENG_SPB, 0x1140010, [(0x400000, 4), (0x800, 128), (0x4, 2)], 0x0, 0x0, 0x0, 0x0, 0x0, 0x0, 0xfcfc, 0x0, 0xfcfc, 0x0⟩,
   ⟨.ENG_ERR, 0x1140018, [(0x400000, 4), (0x800, 128)], 0x600fff, 0x0, 0xff800000, 0x0, 0x0, 0x0, 0x0, 0x0, 0x0, 0x0⟩,
   ⟨.ENG_SIG, 0x114001c, [(0x400000, 4), (0x800, 128)], 0xff, 0x0, 0x80000000, 0x0, 0x0, 0x0, 0x0, 0x0, 0x0, 0x0⟩,
   ⟨.ENG_STALLS, 0x1140020, [(0x400000, 4), (0x800, 128)], 0x0, 0x0, 0x0, 0x0, 0xffffffff, 0x0, 0x0, 0x0, 0x0, 0x0⟩,
   ⟨.HNG_CTL, 0x1180000, [(0x400000, 4), (0x1000, 3)], 0x0, 0x0, 0x0, 0x0, 0x0, 0xc0000000, 0x0, 0x0, 0x0, 0x0⟩,
   ⟨.HNG_CTL, 0x410000, [(0x1000, 2)], 0x0, 0x0, 0x0, 0x0, 0x0, 0xc0000000, 0x0, 0x0, 0x0, 0x0⟩,
   ⟨.HNG_STAT, 0x1180004, [(0x400000, 4), (0x1000, 3)], 0xfeffffff, 0x0, 0x0, 0x0, 0x0, 0x0, 0x0, 0x0, 0x0, 0x0⟩,
   ⟨.HNG_STAT, 0x410004, [(0x1000, 2)], 0xfeffffff, 0x0, 0x0, 0x0, 0x0, 0x0, 0x0, 0x0, 0x0, 0x0⟩,
   ⟨.HNG_LFAIL, 0x1180008, [(0x400000, 4), (0x1000, 3)], 0xffffffff, 0x0, 0x0, 0x0, 0x0, 0x0, 0x0, 0x0, 0x0, 0x0⟩,
   ⟨.HNG_LFAIL, 0x410008, [(0x1000, 2)], 0xffffffff, 0x0, 0x0, 0x0, 0x0, 0x0, 0x0, 0x0, 0x0, 0x0⟩,
   ⟨.HNG_XMASK, 0x118000c, [(0x400000, 4), (0x1000, 3)], 0x0, 0xffffffff, 0x0, 0x0, 0x0, 0x0, 0x0, 0x0, 0x0, 0x0⟩,
   ⟨.HNG_XMASK, 0x41000c, [(0x1000, 2)], 0x0, 0xffffffff, 0x0, 0x0, 0x0, 0x0, 0x0, 0x0, 0x0, 0x0⟩,
   ⟨.HNG_ERR, 0x1180010, [(0x400000, 4), (0x1000, 3)], 0x0, 0x0, 0xff000000, 0x0, 0x0, 0x0, 0x0, 0x0, 0x0, 0x0⟩,
   ⟨.HNG_ERR, 0x410010, [(0x1000, 2)], 0x0, 0x0, 0xff000000, 0x0, 0x0, 0x0, 0x0, 0x0, 0x0, 0x0⟩,
   ⟨.HNG_CNT, 0x1180014, [(0x400000, 4), (0x1000, 3)], 0x0, 0x0, 0x0, 0x0, 0xffffffff, 0x0, 0x0, 0x0, 0x0, 0x0⟩]

def regTab6 : List RegRow :=
  [⟨.HNG_CNT, 0x410014, [(0x1000, 2)], 0x0, 0x0, 0x0, 0x0, 0xffffffff, 0x0, 0x0, 0x0, 0x0, 0x0⟩,
   ⟨.HNGTR_LEDGER, 0x1180400, [(0x400000, 4), (0x1000, 3), (0x40, 8), (0x4, 16)], 0xffffffff, 0x0, 0x0, 0x0, 0x0, 0x0, 0x0, 0x0, 0x0, 0x0⟩,
   ⟨.HNGTR_LEDGER, 0x410400, [(0x1000, 2), (0x40, 8), (0x4, 16)], 0xffffffff, 0x0, 0x0, 0x0, 0x0, 0x0, 0x0, 0x0, 0x0, 0x0⟩,
   ⟨.HNG_LEDGER, 0x1180800, [(0x400000, 4), (0x1000, 3), (0x10, 32), (0x4, 4)], 0xffffffff, 0x0, 0x0, 0x0, 0x0, 0x0, 0x0, 0x0, 0x0, 0x0⟩,
   ⟨.HNG_LEDGER, 0x410800, [(0x1000, 2), (0x10, 32), (0x4, 4)], 0xffffffff, 0x0, 0x0, 0x0, 0x0, 0x0, 0x0, 0x0, 0x0, 0x0⟩,
   ⟨.TR_CTL, 0x11c0000, [(0x400000, 4), (0x800, 64)], 0x0, 0xffffff00, 0x0, 0x0, 0x0, 0x0, 0x0, 0x0, 0xffffff00, 0x0⟩,
   ⟨.TR_STAT, 0x11c0004, [(0x400000, 4), (0x800, 64)], 0xfffff000, 0x0, 0x0, 0x0, 0x0, 0x0, 0x0, 0x0, 0x0, 0x0⟩,
   ⟨.TR_CMD, 0x11c0008, [(0x400000, 4), (0x800, 64)], 0x0, 0x0, 0x0, 0x0, 0x0, 0x8fff0fff, 0x0, 0x0, 0x0, 0x0⟩,
   ⟨.TR_ERR, 0x11c000c, [(0x400000, 4), (0x800, 64)], 0x7e000000, 0x0, 0x81c00000, 0x0, 0xffff, 0x0, 0x0, 0x0, 0x0, 0x0⟩,
   ⟨.TR_PPRI, 0x11c0010, [(0x400000, 4), (0x800, 64)], 0x0, 0x0, 0x0, 0x0, 0x0, 0x0, 0xffff, 0x0, 0xffff, 0x0⟩,
   ⟨.TR_LEDGER, 0x11c0100, [(0x400000, 4), (0x800, 64), (0x40, 12), (0x4, 16)], 0xffffffff, 0x0, 0x0, 0x0, 0x0, 0x0, 0x0, 0x0, 0x0, 0x0⟩,
   ⟨.TR_DPATH, 0x11e0000, [(0x400000, 4)], 0xffffffff, 0x0, 0x0, 0x0, 0x0, 0x0, 0x0, 0x0, 0x0, 0x0⟩,
   ⟨.FPIN_CFG, 0x11f0000, [(0x400000, 4), (0x4, 48)], 0x0, 0x0, 0x0, 0x0, 0x0, 0x0, 0xffff, 0x0, 0xffff, 0x0⟩,
   ⟨.FPIN_ERR_L, 0x11f0100, [(0x400000, 4)], 0x0, 0x0, 0xffffffff, 0x0, 0x0, 0x0, 0x0, 0x0, 0x0, 0x0⟩,
   ⟨.FPIN_ERR_H, 0x11f0104, [(0x400000, 4)], 0x0, 0x0, 0xffff, 0x0, 0x0, 0x0, 0x0, 0x0, 0x0, 0x0⟩]

/-- Every line of the register tables. -/
def regTab : List RegRow := regTab0 ++ regTab1 ++ regTab2 ++ regTab3 ++ regTab4 ++ regTab5 ++ regTab6

/-- The lines with a reset value other than 0. -/
def resetTab : List RegRow :=
  [⟨.HUB_PARTID, 0x0, [], 0xfffff000, 0x0, 0x0, 0x0, 0x0, 0x0, 0x0, 0x0, 0x0, 0xb0000⟩,
   ⟨.HUB_INTEGRITY, 0x4, [], 0xf, 0x0, 0x0, 0x0, 0x0, 0x0, 0x0, 0x0, 0x0, 0x1⟩,
   ⟨.HOST_CTL, 0x1000, [], 0x0, 0x3ff, 0x0, 0x0, 0x0, 0x0, 0x0, 0x0, 0x0, 0x1⟩,
   ⟨.MSG_CFG, 0x1108, [(0x20, 3)], 0x0, 0x87ff000f, 0x0, 0x0, 0x0, 0x0, 0x0, 0x0, 0x0, 0x4⟩,
   ⟨.CLK_HOLD, 0x10028, [], 0x0, 0xff0, 0x2, 0x0, 0x0, 0xffff0001, 0x0, 0x0, 0x0, 0xf00⟩,
   ⟨.FM_CTL, 0x10040, [], 0x40000000, 0x1fffffff, 0x20000000, 0x0, 0x0, 0x80000000, 0x0, 0x0, 0x0, 0xa020000⟩,
   ⟨.FAN_CFG, 0x20600, [(0x10, 2)], 0x0, 0x80ff00ff, 0x0, 0x0, 0x0, 0x0, 0x0, 0x0, 0x0, 0xff⟩,
   ⟨.UART_CFG, 0x20800, [(0x20, 4)], 0x0, 0xff80ffff, 0x0, 0x0, 0x0, 0x0, 0x0, 0x0, 0x0, 0x1000000⟩,
   ⟨.UART_STAT, 0x20810, [(0x20, 4)], 0x1f001f, 0x0, 0x80000000, 0x0, 0x0, 0x0, 0x0, 0x0, 0x0, 0x100000⟩,
   ⟨.EVT_NMI, 0x21408, [], 0x0, 0xe00007ff, 0x0, 0x0, 0x0, 0x0, 0x0, 0x0, 0x0, 0x40000000⟩,
   ⟨.CFG_SCRUB, 0x30050, [], 0x0, 0xc000000f, 0x0, 0x0, 0x0, 0x0, 0x0, 0x0, 0x0, 0xc0000000⟩,
   ⟨.CFG_IST, 0x30060, [], 0x0, 0xe0000000, 0x0, 0x0, 0x0, 0x0, 0x0, 0x0, 0x0, 0xe0000000⟩,
   ⟨.CFG_ISTREF, 0x30064, [], 0xffffffff, 0x0, 0x0, 0x0, 0x0, 0x0, 0x0, 0x0, 0x0, 0x3a5c91e7⟩,
   ⟨.SEC_STAT, 0x40000, [], 0xe000ffff, 0x0, 0x0, 0x0, 0x0, 0x0, 0x0, 0x0, 0x0, 0x20000000⟩,
   ⟨.KPR_VTSTAT, 0x6001c, [], 0x7f007f, 0x0, 0x80000000, 0x0, 0x0, 0x0, 0x0, 0x0, 0x0, 0x400000⟩,
   ⟨.HCQ_CFG, 0x100000, [(0x40, 64)], 0x0, 0x800007ff, 0x0, 0x0, 0x0, 0x0, 0x0, 0x7800, 0x0, 0x2000⟩,
   ⟨.TBU_INCR, 0x200000, [], 0x0, 0xffffffff, 0x0, 0x0, 0x0, 0x0, 0x0, 0x0, 0x0, 0x20000000⟩,
   ⟨.TR_PDTO, 0x400024, [], 0x0, 0xffff, 0x0, 0x0, 0x0, 0x0, 0x0, 0x0, 0x0, 0x64⟩,
   ⟨.PANE_CTX, 0x1000000, [(0x400000, 4), (0x4000, 64)], 0x3, 0x0, 0x4, 0x0, 0x0, 0x0, 0x0, 0x0, 0x0, 0x2⟩,
   ⟨.PANE_LVSCHED, 0x1000100, [(0x400000, 4), (0x4000, 64)], 0x0, 0x0, 0x0, 0x0, 0x0, 0x0, 0xffffffff, 0x0, 0xffffffff, 0xfffffff8⟩,
   ⟨.WM_QIDLE_L, 0x1001014, [(0x400000, 4), (0x4000, 64), (0x800, 6), (0x10, 4)], 0x0, 0x0, 0x0, 0x0, 0x0, 0x0, 0xffffffff, 0x0, 0x0, 0x4080040⟩,
   ⟨.WM_QIDLE_H, 0x1001018, [(0x400000, 4), (0x4000, 64), (0x800, 6), (0x10, 4)], 0x0, 0x0, 0x0, 0x0, 0x0, 0x0, 0xff, 0x0, 0x0, 0x80⟩,
   ⟨.LANE_EYE, 0x1100040, [(0x400000, 4), (0x1000, 32)], 0x80000000, 0x1f03f7f, 0x40000000, 0x0, 0x0, 0x0, 0x0, 0x0, 0x0, 0x1000000⟩,
   ⟨.TR_DPATH, 0x11e0000, [], 0xffffffff, 0x0, 0x0, 0x0, 0x0, 0x0, 0x0, 0x0, 0x0, 0x428f⟩,
   ⟨.TR_DPATH, 0x15e0000, [], 0xffffffff, 0x0, 0x0, 0x0, 0x0, 0x0, 0x0, 0x0, 0x0, 0x4638⟩,
   ⟨.TR_DPATH, 0x19e0000, [], 0xffffffff, 0x0, 0x0, 0x0, 0x0, 0x0, 0x0, 0x0, 0x0, 0x7c0⟩,
   ⟨.TR_DPATH, 0x1de0000, [], 0xffffffff, 0x0, 0x0, 0x0, 0x0, 0x0, 0x0, 0x0, 0x0, 0x1e89⟩,
   ⟨.HTR_DPATH, 0x400028, [], 0xffffffff, 0x0, 0x0, 0x0, 0x0, 0x0, 0x0, 0x0, 0x0, 0x7208⟩]

/-- The instance indexes of offset `r` past a row's base, or none where `r` falls on no instance. -/
def dimsIx : List (Nat × Nat) → Nat → Option (List Nat)
  | [], r => if r = 0 then some [] else none
  | (st, n) :: ds, r => if r / st < n then (dimsIx ds (r % st)).map (r / st :: ·) else none

/-- Does offset `off` fall on an instance of the row, and on which? -/
def RegRow.at (row : RegRow) (off : Nat) : Option (List Nat) :=
  if off < row.base then none else dimsIx row.dims (off - row.base)

/-- The register at a BAR0 offset, with its instance indexes; none at a reserved offset (R418). -/
def regAt (off : Nat) : Option (RegRow × List Nat) :=
  regTab.findSome? fun row => (row.at off).map fun ix => (row, ix)

/-- The reset value of the register at an offset: the tables' where they give one, else 0. -/
def resetVal (off : Nat) : BitVec 32 :=
  ((resetTab.find? fun row => (row.at off).isSome).map (·.reset)).getD 0

end Sys2Proof.Machine
end

