-- ==== Sys2Proof/Machine/SMap.lean ====
section
/-!
DEFINITION. Reading and writing a sparse map. Both keep the canonical form: keys strictly rising, and no key listed with the
value that an unlisted key reads as, so that equal arrays are equal data.
-/
namespace Sys2Proof.Machine

/-- The value at key `k`; `d` where the key is not listed. -/
def SMap.get {α : Type} (d : α) : SMap α → Nat → α
  | [], _ => d
  | (j, v) :: m, k => if j = k then v else if k < j then d else SMap.get d m k

/-- Put `v` at key `k`, between the smaller and the larger keys. -/
def SMap.put {α : Type} : SMap α → Nat → α → SMap α
  | [], k, v => [(k, v)]
  | (j, u) :: m, k, v => if j = k then (k, v) :: m else if k < j then (k, v) :: (j, u) :: m else (j, u) :: SMap.put m k v

/-- Take key `k` out (and, in a list that is not in canonical form, whatever stands out of order just behind it). -/
def SMap.del {α : Type} : SMap α → Nat → SMap α
  | [], _ => []
  | (j, u) :: m, k => if j = k then m.dropWhile (fun x => decide (x.1 ≤ k)) else if k < j then (j, u) :: m else (j, u) :: SMap.del m k

/-- Make key `k` read as `v`; `d` is what the key reads as when it is not listed. -/
def SMap.set {α : Type} [DecidableEq α] (d : α) (m : SMap α) (k : Nat) (v : α) : SMap α :=
  if v = d then SMap.del m k else SMap.put m k v

/-- Are the keys strictly rising, all above `lo`, and is every value other than the unlisted key's? -/
def SMap.wfFrom {α : Type} [DecidableEq α] (d : Nat → α) : Nat → SMap α → Bool
  | _, [] => true
  | lo, (j, v) :: m => decide (lo ≤ j) && decide (v ≠ d j) && SMap.wfFrom d (j + 1) m

/-- The canonical form of a sparse map, `d` giving what an unlisted key reads as. -/
def SMap.wf {α : Type} [DecidableEq α] (d : Nat → α) (m : SMap α) : Bool := SMap.wfFrom d 0 m

/-- Change the value at one key. -/
def SMap.upd {α : Type} [DecidableEq α] (d : α) (m : SMap α) (k : Nat) (f : α → α) : SMap α :=
  SMap.set d m k (f (SMap.get d m k))

/-- A sparse map without the keys that `p` names. -/
def SMap.drop {α : Type} (m : SMap α) (p : Nat → Bool) : SMap α := m.filter fun e => !p e.1

end Sys2Proof.Machine
end

