-- ==== Sys2Proof/Machine/State.lean ====
section
/-!
DEFINITION. The state of the device: every register, memory, queue, counter, mode and pin the spec gives it, as plain data, and
the queue of commands that wait. Large arrays are sparse maps (`SMap`), whose unlisted keys read as the array's reset value.
-/
namespace Sys2Proof.Machine

/-! ### Word cells (Table 2.2) -/

/-- What the SEQ field of a cell's last instruction chose for its next cycle (R36, Table 3.5). -/
inductive Redir where
  | next                    -- the louvre the slot names
  | nop                     -- NOP
  | louvre (k : Fin 8)      -- louvre Lk
  deriving DecidableEq, Repr

/-- One word cell (Table 2.2). Louvres and queue bindings are held in the cell's frames (`State.frames`).
`ran`, `outPrev`, `lastLv`, `wroteOut` and `casc` are the model's own: the pane cycle (plus 1) of the last instruction, OUT as it
stood at the start of that cycle, the louvre executed in it (8: a NOP that SEQ chose), whether it wrote OUT, and the words it drove
onto its cascade lines. -/
structure CellSt where
  q0 : Word := 0
  q1 : Word := 0
  q2 : Word := 0
  q3 : Word := 0
  out : Word := 0
  c : BitVec 5 := 0
  z : BitVec 5 := 0
  n : BitVec 5 := 0
  v : BitVec 5 := 0
  sat : BitVec 5 := 0
  qi : Bool := false
  qr : Bool := false
  qt : Bool := false
  ran : Nat := 0
  outPrev : Word := 0
  redir : Redir := .next
  lastLv : Nat := 0
  wroteOut : Bool := false
  casc : List Word := []
  deriving DecidableEq, Repr

/-! ### Panes and elastic channels -/

/-- A fabric die's progress: powered down by a park (R297), loaded by an image, and how far its start-up order has come (R348); and its
stepping, which the package fixes (R273). -/
structure DieSt where
  step : Nat := 0xB
  off : Bool := false
  loaded : Bool := false
  gsr : Bool := false            -- GSR has been released
  writes : Bool := false         -- WRITES has been reached
  outputs : Bool := false        -- OUTPUTS has been reached
  gcap : Bool := false           -- a global capture waits for its tick (R203)
  deriving DecidableEq, Repr

/-- A push of the present cycle whose fate the rest of the cycle may still change (R153, R158): a transom request at queue `q` of block `m`,
or a word of lane `l` or fabric pin `n` that found a PQUEUE full. -/
inductive LatePush where
  | net (m q : Nat) (pk : Packet)
  | lane (m q l : Nat) (w : Word) (tag : Bool)
  | pin (m q n : Nat) (w : Word)
  deriving DecidableEq, Repr

/-- One pane (Table 2.2's slot counter, R79–R91, R85). Row, column and bus registers are kept by line number:
row line j of tile row r at 64r + j, column line j of tile column c at 64c + j, wire w of tile row r at 16r + w.
`cycle` counts the pane's cell-clock cycles and is the model's own, as is `latchW`, the latch writes of the present cycle. -/
structure PaneSt where
  cycle : Nat := 0
  slot : Nat := 0
  row : SMap Word := []
  col : SMap Word := []
  bus : SMap Word := []
  latch : SMap Word := []
  latchW : List (Nat × Word) := []
  relocking : Bool := false      -- the loop is relocking (R85)
  gatePend : Bool := false       -- GATE was written 1 and the cycle's end has not come (R85)
  switchPend : Nat := 0          -- commits whose exchange waits for the clocks to resume (R52, R117)
  shut : Bool := false           -- shut by CFG_SHUT (R352)
  reload : Bool := false         -- a region reload of the pane is in progress (R356)
  errCyc : Nat := 0              -- cycle (plus 1) of the capture held in PANE_LVERR, in PANE_LVILL (R47)
  illCyc : Nat := 0
  snaps : Nat := 0               -- ledger captures of the pane's router that wait for its clock (R203)
  gcap : Bool := false           -- a global capture of the router waits for its clock
  lapse : Nat := 0               -- cycle (plus 1) in which every SEQ redirection has lapsed (R51)
  istSlots : Nat := 0            -- idle slots since the last test signature (R358)
  brds : List (Nat × Bool) := [] -- BOARD (true) and UNBOARD writes of the router's ports that wait for its clock (R421)
  late : List LatePush := []     -- pushes of the present cycle that its end decides (R153, R158)
  deriving DecidableEq, Repr

/-- An item of an elastic channel as it is carried (R174): word, three copies of the queue tag, three copies of the context bit (1: bank
B), and the word's five byte-parity bits. -/
structure ChanItem where
  word : Word
  tags : BitVec 3
  ctxs : BitVec 3
  par : BitVec 5
  deriving DecidableEq, Repr

/-- An elastic channel, named by its sending pane and outbound index. `near` holds the items in the sending die's stages and
`fly` those on the leaves of a hinge (both empty but for a hinge channel); `far` those in the receiving pane's stages; oldest
first. `inCyc`, `outCyc`: cycle (plus 1) of the last entry and delivery, and `outBank` the bank of the item then delivered, the model's
own (R87, R89). -/
structure ChanSt where
  near : List ChanItem := []
  fly : List ChanItem := []
  far : List ChanItem := []
  inCyc : Nat := 0
  outCyc : Nat := 0
  outBank : Bool := false
  again : List ChanItem := []   -- items in the sending end's recall store (R265)
  ctx : Bool := false            -- the channel's current context at its sending and at its receiving hinge end (R258)
  rxCtx : Bool := false
  credit : Nat := 8              -- far-side stages the sending hinge end may still fill
  ret : Nat := 0                 -- far-side stages freed and not yet returned as credits
  deriving DecidableEq, Repr

/-! ### Word memories (Chapter 7) -/

/-- One array entry (R149). `bad` says how many of its stored bits are wrong: 0, 1 (SECDED delivers `word`) or 2
(`word` is what is stored). The check bits are `Entry.check`, a function of word and tag. -/
structure Entry where
  word : Word := 0
  tag : Bool := false
  bad : Fin 3 := 0
  deriving DecidableEq, Repr

/-- One position of a queue between its read and write positions: an entry present, or one the line mover has reserved.
`made` and `acc`: the cycle (plus 1) in which it was taken and in which it was filled (R153, R155); `resv`: the line mover reserved it;
`net`: the transom pushed it. -/
structure QSlot where
  pos : Nat
  filled : Bool
  made : Nat
  acc : Nat
  resv : Bool := false
  net : Bool := false
  deriving DecidableEq, Repr

/-- One queue of a word memory block (R153, R157, R165, R171, R426). `wpos`, `rpos` count from BASE; `lock` names the port
that holds the lock. `goneCyc`, `goneN`: the cycle (plus 1) of the last removal and how many positions it freed; `dpEnd`: the cycle
(plus 1) at whose end DPEND clears (R158); `refCyc`, `refN`, `refTag`: the cycle (plus 1) of the last push refused to the binding, how
many were refused in it, and whether one carried tag 1. -/
structure QueueSt where
  wpos : Nat := 0
  rpos : Nat := 0
  slots : List QSlot := []
  dpend : Bool := false
  dpEnd : Nat := 0
  refCyc : Nat := 0
  refN : Nat := 0
  refTag : Bool := false
  lock : Option Nat := none
  waiters : List Packet := []
  cIn : HWord := 0
  cOut : HWord := 0
  cSlam : HWord := 0
  cFlush : HWord := 0
  cRef : HWord := 0
  goneCyc : Nat := 0
  goneN : Nat := 0
  deriving DecidableEq, Repr

/-- A RAM port (R160–R162): request words (word, tag, cycle of acceptance), whether the last was an address word (and which
entry it named), and the responses with the cycle from which each is at the head. `goneCyc`, `goneN`: the cycle (plus 1) of the last request
served and the request words it freed; `popCyc`, `popN`: that of the last pops and their number. -/
structure PortReq where
  write : Bool
  addr : Nat
  word : Word
  tag : Bool
  cyc : Nat
  deriving DecidableEq, Repr

structure PortResp where
  word : Word
  tag : Bool
  cyc : Nat
  deriving DecidableEq, Repr

structure PortSt where
  reqs : List PortReq := []
  addr : Option Nat := none
  resps : List PortResp := []
  goneCyc : Nat := 0
  goneN : Nat := 0
  popCyc : Nat := 0
  popN : Nat := 0
  deriving DecidableEq, Repr

/-- The settings a line mover latches for a line (R167, R168). -/
structure MvSet where
  dir : Nat := 0
  cq : Nat := 0
  dq : Nat := 0
  lwords : Nat := 0
  rwords : Nat := 0
  base : Nat := 0
  lstride : Nat := 0
  fstride : Nat := 0
  deriving DecidableEq, Repr

/-- A pending FETCH request: its tag, the positions it reserved, whether it holds the line's last word, and whether a flush
cancelled the reservation (R170). -/
structure MvReq where
  tag : Nat
  q : Nat
  pos : List Nat
  last : Bool
  cancelled : Bool
  deriving DecidableEq, Repr

/-- One entry of the array written in the present cycle: its address, who wrote it last (0, 1 the RAM ports, 2 the transom window, 3 the
queue controller), and what it held at the start of the cycle (R162). -/
structure ArrWrite where
  addr : Nat
  who : Nat
  old : Entry
  deriving DecidableEq, Repr

/-- A block's line mover (R167–R169), its patrol position (R177), the ledger captures that wait for the pane's clocks (R172), the cycle
(plus 1) of the last FETCH request, and the array's writes of cycle `wrCyc` − 1. `ctl`: a POST mover holds the settings it latched. -/
structure MoverSt where
  hold : Bool := false           -- FETCH: a line is in progress
  set : MvSet := {}
  slot : Nat := 0
  line : Nat := 0
  i : Nat := 0
  ctl : Bool := false
  buf : List Word := []          -- POST: words gathered
  bufAddr : Nat := 0
  full : Bool := false           -- POST: the gathered words must be issued
  pend : List MvReq := []
  patrol : Nat := 0
  snaps : Nat := 0
  issCyc : Nat := 0
  wrCyc : Nat := 0
  wrs : List ArrWrite := []
  deriving DecidableEq, Repr

/-! ### The shutter (Chapter 5) -/

/-- One timebase domain's adopted settings and position (R106–R109). -/
structure DomainSt where
  en : Bool := false
  pinMode : Bool := false
  pin : Nat := 0
  fall : Bool := false
  num : Nat := 0
  den : Nat := 0
  lines : Nat := 0
  offset : Nat := 0
  frame : Int := 0
  ticked : Int := 0              -- the frame number at the last tick
  began : Nat := 0               -- PIN: when the present frame began, in TbuSt.run's count
  prevLen : Nat := 0             -- PIN: length of the previous frame (0: none yet)
  lost : Bool := false           -- PIN: running without its reference
  line : Nat := 0                -- line of the last line tick
  capture : Nat := 0             -- what TB_FRAMEL captured
  deriving DecidableEq, Repr

/-- An arm of a domain (R113–R118): the settings latched at the GO, the members that acknowledged, those of fabric dies that have sent their
acknowledgement, once the commit is sent its frame and the members that have switched, and whether the arm has ended without one. -/
structure ArmSt where
  target : Int := 0
  retry : Nat := 0
  acked : List Nat := []
  said : List Nat := []
  sent : Bool := false
  ended : Bool := false
  frame : Int := 0
  reach : List (Nat × Nat) := []     -- records (kind of Table 11.4, die) that have arrived at a fabric die (R112, R272)
  switched : List Nat := []
  seq : Nat := 0                 -- arms begun by the domain
  deriving DecidableEq, Repr

/-- Device time and its registers (R104, R105): time in units of 2^-28 ns, the same count without settings, the capture, and a
setting that waits for the next TBU edge. -/
structure TbuSt where
  time : Nat := 0
  run : Nat := 0
  capture : Nat := 0
  setPend : Option Nat := none
  deriving DecidableEq, Repr
/-! ### Signal engines (Table 6.1) -/

/-- Table 6.11. -/
inductive EngState where
  | off | idle | run | stopped | fault | halt
  deriving DecidableEq, Repr

/-- An active hardware loop (R140, R141): which LC, first bundle and length of its body, rotating or not, stages of a LOOPP (0: none),
its N and the number of the present iteration. -/
structure LoopRec where
  k : Nat
  first : Nat
  len : Nat
  rot : Bool
  stages : Nat
  n : Nat
  iter : Nat
  deriving DecidableEq, Repr

/-- A TWR whose words port B still reads (R137): the request with the words read so far, the index of the next word, how many are left, and
whether one read was uncorrectable. -/
structure TwrSt where
  pk : Packet
  x : BitVec 20
  left : Nat
  due : Bool := false
  deriving DecidableEq, Repr

/-- One signal engine (Table 6.1). Programs stand in the engine-program frames, data memory in `State.dm`, pending non-posted
requests in `State.outst`. -/
structure EngSt where
  v : SMap Word := []
  aRe : SMap Int := []
  aIm : SMap Int := []
  p : BitVec 8 := 1
  lc : SMap Nat := []
  x : SMap (BitVec 20) := []
  scl : Word := 0
  bexp : Word := 0
  rrb : Word := 0
  estat : BitVec 3 := 0
  pc : Nat := 0
  ret : List Nat := []
  loops : List LoopRec := []
  state : EngState := .off
  stall : Nat := 0
  wdog : Nat := 0                -- engine cycles left
  wdLoad : Nat := 0              -- PERIOD at the last reload; 0: disabled
  twr : List TwrSt := []         -- oldest first
  noStart : Bool := false        -- its pane is shut: START is refused (R352)
  switchPend : Nat := 0          -- commits whose exchange waits for the clocks to resume (R117, R145)
  refCyc : Nat := 0              -- cycle (plus 1) of the last SPUSH that found its queue full, and the predicate it wrote (R158)
  refP : Nat := 0
  deriving DecidableEq, Repr

/-! ### The transom network (Chapter 8) -/

/-- Why a request was sent, and so what its completion does. -/
inductive Purpose where
  | engRead (eng : Nat) (x : BitVec 20) (n : Nat)     -- TRD of engine `eng` into DM at successive steps from x (R137)
  | engWrite (eng : Nat)                               -- TWR with completion
  | mover (blk : Nat)                                  -- FETCH of a line mover (R167)
  | bar2Read (id part : Nat)                            -- an RD of BAR2 read TLP `id`, from its slot `part` on (R286)
  | bar2Write                                          -- a BAR2 access sent as WR
  | dma (id part : Nat)                                -- part of the DMA command of that number (R292)
  | keeper (id : Nat)                                  -- the debug bus master (R408)
  | core (c : Nat)                                     -- MC0 or MC1
  | extern                                             -- the companion die or another initiator outside the model
  deriving DecidableEq, Repr

/-- An outstanding non-posted request of an initiator port (R186). -/
structure Outst where
  port : Nat
  tag : Nat
  cmd : Fin 16
  addr : Word
  len : Nat
  why : Purpose
  deriving DecidableEq, Repr

/-- A packet tracked at a local target port (R198): the output port (`portId`), its source and tag, whether it is posted or a
completion, its priority, the flits of it not yet sent, and the credits that still have to come back on its channel before the target
has taken the last flit sent. -/
structure Tracked where
  link : Nat
  src : Nat
  tag : Nat
  posted : Bool
  cpl : Bool
  prio : Nat
  left : Nat
  ahead : Nat
  deriving DecidableEq, Repr

/-- A transom flit (R182, R174): its four words, W3 first, with their parity bits in the same order. `head` (a header unit) and `pos` (the
position along an edge at which its packet entered the present die, R193) are the model's own. -/
structure TFlit where
  w : BitVec 160
  par : BitVec 20
  head : Bool := false
  pos : Nat := 0
  deriving DecidableEq, Repr

/-- Packets at a port that has still to send them, oldest first, and the flits of the first that have gone. -/
structure SrcQ where
  pks : List Packet := []
  done : Nat := 0
  deriving DecidableEq, Repr

/-- The packet that passes a router input on one channel (R191): its header's fields, the output link it has taken (none: the router
discards it), and its flits still to come. -/
structure Worm where
  hdr : Packet := {}
  out : Option Nat := none
  left : Nat := 0
  deriving DecidableEq, Repr

/-- One stream directory entry (R206). -/
structure SdEnt where
  valid : Bool := false
  klen : Bool := false
  k1 : Word := 0
  k0 : Word := 0
  act : Word := 0
  deriving DecidableEq, Repr

/-! ### Frame memory (Chapter 9) -/

/-- What is wrong in a stored burst block (R213, R214): by beat, which of its 40 bits are inverted; `ue`: it has been reported uncorrectable and
stays so until it is written whole (R227). -/
structure BlkErr where
  flips : SMap Word := []
  ue : Bool := false
  deriving DecidableEq, Repr

/-- Where a component holds a block (Table 9.2). -/
structure BlkLoc where
  bankGroup : Nat
  column : Nat
  bank : Nat
  row : Nat
  rank : Nat
  deriving DecidableEq, Repr

/-- One piece of a request for frame memory (R217): a block, its first word and its number of words, and the index of its first word in the
request; when its controller accepted it, in TbuSt.run's count (none: it is on its way), and whether that was before the last exchange of the
controller's DDR_QOS (R223). -/
structure Piece where
  sc : Nat
  bl : Nat
  k : Nat
  n : Nat
  at_ : Nat
  since : Option Nat := none
  old : Bool := false
  deriving DecidableEq, Repr

/-- A piece that has been performed: the index of its first word, the words read, and the cause of its failure (0: none). -/
structure FmPart where
  at_ : Nat
  words : List Word
  cause : Fin 8
  deriving DecidableEq, Repr

/-- A request that frame memory's splitter has divided (R217): the request without its words, DPORT being the port that answers it, its pieces
that have still to be performed, and what became of the others. -/
structure FmReq where
  pk : Packet
  left : List Piece := []
  done : List FmPart := []
  deriving DecidableEq, Repr

/-- A DDR5 controller: whether the training in progress is the full sequence (Table 9.5), whether an INIT waits for an arm to end (R114), the patrol
position (twice Bl plus the sub-channel, R226), an injection that waits for the next block written to a sub-channel (Table 18.3: 0 none, 1, 2),
whether RESET_N is high (R329), the service each priority has had, the weights before the last exchange while pieces accepted before it wait (R223),
and whether an OFFLINE waits for accepted pieces (R221). -/
structure DdrSt where
  full : Bool := false
  initWait : Bool := false
  patrol : Nat := 0
  inj0 : Nat := 0
  inj1 : Nat := 0
  rstN : Bool := false
  used : SMap Nat := []
  qosOld : Option HWord := none
  offWait : Bool := false
  deriving DecidableEq, Repr

/-- A posted lookup that waits at a lookup port (R207), and the initiator that sent it. -/
structure LkRec where
  src : Nat
  prio : Fin 4
  reply : Word
  klen : Bool
  k1 : Word
  k0 : Word
  deriving DecidableEq, Repr

/-! ### Hinges (Chapter 11) -/

/-- What a flit of a hinge leaf holds (R256, R257, Table 11.4). A control flit carries a NAK of a leaf and sequence number, if any. -/
inductive FlitBody where
  | edge (half ch : Nat) (items : List ChanItem) (plain : Bool)
  | transom (x v : Nat) (fl : List TFlit)
  | ack (seqs : List Nat)                  -- per physical leaf of the reverse direction: one more than the last accepted
  | ecred (half : Nat) (n : List Nat)
  | tcred (n : List Nat)
  | tick (recs : List TickRec)
  | width (step wcode : Nat) (mask : BitVec 32)
  deriving DecidableEq, Repr

/-- A flit with its sequence number, its NAK, the number of its sendings, and whether this sending is corrupted. -/
structure HFlit where
  seq : Nat
  body : FlitBody
  nak : Option (Nat × Nat) := none
  sends : Nat := 1
  bad : Bool := false
  deriving DecidableEq, Repr

/-- One direction of a physical leaf, at its sending end (R255, R263, R266) and, in the last three fields, at its receiving end:
the next sequence number, the replay buffer, the sequence number a replay goes on from, the flits on the wires, and the counters
NEW, ACKED and RECALLED; then the next sequence number that is not an idle flit's, the bad flit waited for, and whether an acknowledgement
is due. Numbers are kept whole here; the wires carry their low five bits (R261; log entry 173). -/
structure LeafSt where
  next : Nat := 0
  held : List HFlit := []
  resend : Option Nat := none
  wire : List HFlit := []
  cNew : HWord := 0
  cAcked : HWord := 0
  cRecalled : HWord := 0
  rxNext : Nat := 0
  rxBad : Option Nat := none
  ackDue : Bool := false
  deriving DecidableEq, Repr

/-- One virtual channel of one pane link of a transom stage: flits to send, flits received, and credits to return. -/
structure StageSt where
  out : List TFlit := []
  inq : List TFlit := []
  freed : Nat := 0
  deriving DecidableEq, Repr

/-- A hinge: which leaves pass the pattern test (an input from outside), whether each end has seen its partner's WIDTH agree, whether
the last WIDTH disagreed, the widest W allowed after a disagreement, which ends have trained since their reset, what a training waits for
(0 nothing, 1 its turn of R273, 2 the clocks of step 1 of Table 11.7), the leaves whose forwarded clock has stopped at each end (R264,
R314), and whether DIAG_INJ kind 4 waits at the hub end. -/
structure HingeSt where
  good : BitVec 32 := 0xFFFFFFFF
  ok0 : Bool := false
  ok1 : Bool := false
  mis : Bool := false
  cap : Nat := 32
  trained0 : Bool := false
  trained1 : Bool := false
  wait : Nat := 0
  stop0 : BitVec 32 := 0
  stop1 : BitVec 32 := 0
  injCrc : Bool := false
  deriving DecidableEq, Repr

/-! ### Lanes (Chapter 10) -/

/-- A serial lane's native bring-up (Tables 10.5, 10.7): consecutive good frames and frames without a marker, whether RDY holds at the
present step, the frames of GO sent (none: not moving), DONE being sent and sent, whether a step's 5 ms run and whether it fell back,
the frames that have passed without a control item (16: the first frame carries one at once, DESIGN CHOICE, log entry 168), and the GATE of an eye
measurement that runs (R249). -/
structure LaneSt where
  good : Nat := 0
  miss : Nat := 0
  rdy : Bool := false
  go : Option Nat := none
  done : Bool := false
  doneSent : Bool := false
  window : Bool := false
  fell : Bool := false
  since : Nat := 16
  gate : Nat := 16
  deriving DecidableEq, Repr
/-! ### Pins (Chapter 16) -/

/-- A hub pin (R383–R390): the level last sampled at its ball, the filtered level; while its pad latch holds, the drive enable and the
level held, and the settings in force until the handover. -/
structure PinSt where
  raw : Bool := false
  filt : Bool := false
  hold : Bool := false
  heldEn : Bool := false
  heldLevel : Bool := false
  old : HWord := 0
  deriving DecidableEq, Repr

/-- A fabric user pin (R394, R395): the last bit it sent, and what its pad latch holds, its weak pull (0 none, 1 down, 2 up) among it. -/
structure FpinSt where
  last : Bool := false
  hold : Bool := false
  heldEn : Bool := false
  heldLevel : Bool := false
  heldPull : Nat := 0
  deriving DecidableEq, Repr

/-- A received octet with its parity and framing errors. -/
structure UartRx where
  octet : BitVec 8
  perr : Bool
  ferr : Bool
  deriving DecidableEq, Repr

/-- The FIFOs of a UART, oldest octet first (R391). -/
structure UartSt where
  tx : List (BitVec 8) := []
  rx : List UartRx := []
  deriving DecidableEq, Repr

/-- The test access port (R371): the instruction in force, the boundary register's update and capture stages, and whether a source has become
the running image since the device reset (R372). -/
structure TapSt where
  instr : Nat := 1
  update : BitVec 194 := 0
  capture : BitVec 194 := 0
  booted : Bool := false
  deriving DecidableEq, Repr

/-! ### Clocks (Chapter 13) -/

/-- The clock tree: what each multiplexer selects (0–3: XA 0, XB 1, FOSC 2; 4–7: FOSC 0, the loop 1; 8–11: hinge port 0 or 1) and what it has been
asked to select (1 + the input; 0 nothing); the loops that run (HL2, HL3 start at first use), and those that cannot lock, a property from outside
(R327); HL2's RATE; whether HL3 has locked to its first rate (R311); which monitored clocks and whether FOSC had their last window out of limits;
and the clocks and the gate of the measurement in progress. -/
structure ClkSt where
  mux : SMap Nat := []
  ask : SMap Nat := []
  started : BitVec 4 := 0
  cant : BitVec 4 := 0
  rate2 : Nat := 0
  ran3 : Bool := false
  bad : BitVec 6 := 0
  foscBad : Bool := false
  meas : Nat := 0
  ref : Nat := 0
  gate : Nat := 0
  deriving DecidableEq, Repr

/-! ### Configuration (Chapter 14) -/

/-- The source of an open stream of configuration packets. -/
inductive Feed where
  | none
  | slot (n : Nat)     -- a boot load from a slot of the store
  | chain              -- a boot load down the knock chain
  | rtpkt              -- a run-time stream through CFG_RTPKT
  | load               -- a run-time stream of a LOAD command
  deriving DecidableEq, Repr

/-- The configuration controller: the open stream and where it stands, the present boot attempt, the start-up order's progress, the running
image, the registers its entries have set, panes shut by the stream, and the scrubber's place in its pass and reload queue (copy, frame). -/
structure CfgSt where
  feed : Feed := .none
  pos : Nat := 0                -- slot: image host word of the next packet
  words : List HWord := []      -- host words received and not yet taken (a chain image: from its next packet on)
  octs : List (BitVec 8) := []  -- chain: the image's octets received so far
  seq : Nat := 0                -- chain: SEQ expected
  chainAt : Nat := 0            -- chain: when the last packet came, in TbuSt.run's count (R347)
  head : List HWord := []       -- the header of the image being loaded
  fsel : Nat := 0
  frames : Nat := 0
  crc : Nat := 0xFFFFFFFF       -- running CRC, before its final inversion
  first : Bool := true          -- no packet of the image taken yet
  order : Nat := 0x2B19
  second : Bool := false        -- the attempt follows a failed one
  loaded : Bool := false        -- CFG_END has been taken
  up : Bool := false            -- the start-up order runs
  place : Nat := 0              -- its position
  railOut : Bool := false       -- a rail went out of range during the attempt (R364)
  digest : Nat := 0             -- D of the reading that was authenticated (R364)
  sig : List HWord := []        -- the signature block of that reading
  again : List HWord := []      -- slot: the host words of the packets as they have been read for the second time (R364)
  runSlot : Option Nat := none
  runChain : Bool := false
  offs : List Nat := []
  shut : List Nat := []
  quiet : Bool := false         -- CFG_RTPKT discards until 10 ms pass
  reload : List (Nat × Nat) := []
  due : Bool := false           -- the reset order has not reached step 7
  stopped : Bool := false       -- the scrubber has stopped itself (R357)
  cmd : Nat × Nat := (0, 0)     -- the store command that runs: OP and address
  cmdWaits : Bool := false      -- it came while a load or reload read the store (R336)
  scrub0 : Nat := 0             -- 1 + the frame of copy 0, and of copy 1, that the scrubber's pass read last; 0 none (R354)
  scrub1 : Nat := 0
  deriving DecidableEq, Repr

/-! ### Security and the deadbolt (Chapter 15) -/

/-- One generation of an OTP field (R367): its value, P, V and the stored check. -/
structure OtpGen where
  val : Nat := 0
  p : Bool := false
  v : Bool := false
  chk : Nat := 0
  deriving DecidableEq, Repr

/-- An OTP command that runs: PROGRAM (1) or VOID (2), the field, the generation and the value. -/
structure OtpRun where
  op : Nat
  field : Nat
  gen : Nat
  val : Nat
  deriving DecidableEq, Repr

/-- The power of the device. -/
inductive Power where
  | on | off | hold
  deriving DecidableEq, Repr

/-- The deadbolt partition: what the watchdog was last loaded with, in ms, and whether it runs its grace period; the last good heartbeat; whether SC
has stopped; of each rail whether the last sample, and whether the last two samples, lay outside the range; the value of DBPOL taken at the last
device reset (R367); whether a reading has tripped, so that SC resets the device (R376); a reset order that waits for the sensors to cool, and the
sensors sampled since; the samples and windows in succession without the condition of a rail, a sensor and a clock; ms since DONE. -/
structure DbSt where
  count : Nat := 1000
  beat : Option Nat := none
  scDead : Bool := false
  rails : BitVec 9 := 0
  out : BitVec 9 := 0
  pol : Option Nat := none
  grace : Bool := false
  tripped : Bool := false
  cool : Bool := false
  seen : BitVec 19 := 0
  okV : SMap Nat := []
  okT : SMap Nat := []
  okC : SMap Nat := []
  sinceDone : Nat := 0
  deriving DecidableEq, Repr
/-! ### The host interface and the knock chain (Chapter 12) -/

/-- A host command in progress (R291): its number, queue, ring index and words; whether it has started; of a DMA the words dealt with, the words
moved, the requests outstanding, the lowest word of a failed request with its ECODE, the lowest word whose host memory access failed, and
the dies parked under it; the domain it armed or the engine it waits for; and, once it has ended, STATUS, INFO and CE3. -/
structure HCmd where
  id : Nat := 0
  q : Nat
  idx : Nat
  cw : List HWord
  started : Bool := false
  pos : Nat := 0
  moved : Nat := 0
  opened : Nat := 0
  fail : Option (Nat × Nat) := none
  hostFail : Option Nat := none
  gone : List Nat := []
  arm : Option Nat := none
  eng : Option Nat := none
  result : Option (Nat × Nat × Nat) := none
  deriving DecidableEq, Repr

/-- A host command queue beside its registers: stopped by a failed fetch (R290), and the passes its completion ring has made. -/
structure HcqSt where
  stop : Bool := false
  pass : Nat := 0
  deriving DecidableEq, Repr

/-- A BAR2 read TLP (R286): its first byte, its length, the requests outstanding, and the slots read (none: a failed request's). -/
structure B2Read where
  id : Nat
  off : Nat
  len : Nat
  opened : Nat
  slots : SMap (Option Word) := []
  deriving DecidableEq, Repr

/-- A park in progress (R298): the die, and the number of the host command that asked for it (none: HUB_PCTL). -/
structure ParkSt where
  die : Nat
  cmd : Option Nat
  deriving DecidableEq, Repr

/-- A receiver of the knock chain (R301): good commas since the last code error, whether each of the last 16 characters was in error, and
the characters since the last comma. -/
structure ChainRx where
  commas : Nat := 0
  errs : BitVec 16 := 0
  quiet : Nat := 0
  deriving DecidableEq, Repr

/-- The knock chain (R301–R308): whether the head has been decided (R303), whether a round is in progress at the head, the SMAP of the last
completed round, the number of the last round the head started, the knock counters GEN, RCVD, SENT, CONS and HELD, those of DONE_N (R350), and
whether this device drives DONE_N low; the address the outstanding MREQ asked for is in CHN_CTL; the receivers of CHAIN_IN and CHAIN_OUT. -/
structure ChnSt where
  elected : Bool := false
  round : Bool := false
  smap : Nat := 0
  num : Nat := 0
  gen : HWord := 0
  rcvd : HWord := 0
  sent : HWord := 0
  cons : HWord := 0
  held : HWord := 0
  asserted : HWord := 0
  released : HWord := 0
  seen : HWord := 0
  low : Bool := false
  rxIn : ChainRx := {}
  rxOut : ChainRx := {}
  deriving DecidableEq, Repr

/-! ### The Keeper (Chapter 17) -/

/-- MC0 as the Keeper sees it (Table 17.5, R411): its registers x1–x31, pc and CSRs, the word addresses of its locked sequences, whether it
is halted, and whether a halt is deferred. -/
structure CoreSt where
  x : SMap HWord := []
  pc : HWord := 0
  csr : SMap HWord := []
  locks : List Nat := []
  halted : Bool := false
  pend : Bool := false
  deriving DecidableEq, Repr

/-- A Keeper request whose reply is still to come: its channel, TYPE and SEQ, and on the chain the address to reply to and whether the
request came downstream. -/
structure KReq where
  chan : Nat
  typ : Nat
  seq : Nat
  dst : Nat
  down : Bool
  deriving DecidableEq, Repr

/-- MSI-X of a function (Table 12.2): its enable and function mask, its table by host word (entry v at words 4v to 4v + 3), and the vectors that
are pending. -/
structure MsixFn where
  on : Bool := false
  fmask : Bool := false
  tab : SMap HWord := []
  pend : SMap Bool := []
  deriving DecidableEq, Repr

/-- Who has asked for an access of control space: the host and the cores, whose reads return values alone; a management request (R307) that came
in direction `down` from device `dst`; or a request of the Keeper's debug bus master (R408), whose reply has status `st`. -/
inductive Asker where
  | bar0
  | chain (down : Bool) (dst seq : Nat)
  | keeper (r : KReq) (st : Nat)
  deriving DecidableEq, Repr

/-- An access that waits at the hub (R421, R422): the words that it writes from an offset on, or how many it reads. `since`: in TbuSt.run's
count. -/
structure HeldAcc where
  asker : Asker := .bar0
  src : Nat := 0
  off : Nat
  write : Option (List HWord)
  n : Nat := 0
  quiet : Bool := false
  since : Nat
  deriving DecidableEq, Repr

/-- The Keeper (R400–R415). `inq` holds the words received on channel 0 mailbox, 1 UART, 2 chain and not yet taken; `srcs` the chain address of each
message on channel 2 and whether it came downstream, `src` those of the message last taken; `uart` the octets of a UART message in progress and
`sync` how much of its leading pair has been seen; `outq` the mailbox's output, `late` words that wait for room in it; `skip` the words still to
come of a discarded mailbox message. Then the opening: how many of HELLO, OWNK and CRED have succeeded, with their payloads, CHAL's, and the
Keeper's ephemeral key; the session's key, message counters and halted targets, the PROVE signature, whether the suspension was made in the session
and when it began in TbuSt.run's count; a deferred halt's request; and requests that wait for the transom, by tag. -/
structure KprSt where
  inq : SMap (List HWord) := []
  srcs : List (Nat × Bool) := []
  src : Nat × Bool := (0, false)
  uart : List (BitVec 8) := []
  sync : Nat := 0
  outq : List HWord := []
  late : List HWord := []
  skip : Nat := 0
  steps : Nat := 0
  hello : List HWord := []
  chal : List HWord := []
  priv : Nat := 0
  ownk : List HWord := []
  cred : List HWord := []
  sig : List HWord := []
  key : Nat := 0
  ctrIn : Nat := 0
  ctrOut : Nat := 0
  halted : List Nat := []
  susp : Bool := false
  suspAt : Nat := 0
  due : Option KReq := none
  trans : List (Nat × KReq) := []
  deriving DecidableEq, Repr
/-! ### Outputs, stops and the whole state -/

/-- What the device hands to the outside: the values its reads return, its messages and interrupts, its pins. Newest first in
`State.out`. -/
inductive OutEv where
  | busRead (off : Nat) (v : HWord)                 -- the value of a BAR0 read
  | tick (t : Nat) (line : Bool) (n : Int)          -- a frame or line tick leaves the TBU, with the frame number or the line
  | ddrBurst (sc : Nat) (write : Bool) (at_ : BlkLoc)  -- a burst on a sub-channel (R213, R216)
  | ddrRefresh (c : Nat)                            -- a same-bank refresh
  | laneWord (d l : Nat) (w : Word)                 -- a transparent lane sends 40 bits, bit 39 first
  | laneFrame (d l : Nat) (bits : List Bool)        -- a native lane sends a frame
  | tickArrive (die : Nat) (r : TickRec)            -- a tick record reaches a fabric die
  | ddrTrack (c : Nat)                              -- a read of the components' interval oscillators
  | msix (v : Nat)                                  -- vector v of PF0
  | bar4Read (fn off : Nat) (v : HWord)             -- the value of a read through BAR4 of a function (R282)
  | msix1 (v : Nat)                                 -- vector v of PF1
  | hostWrite (addr : Nat) (bytes : List (BitVec 8))  -- bytes written to host memory
  | bar2Data (id : Nat) (bytes : List (BitVec 8))   -- the data of a BAR2 read
  | coreIrq (c : Nat)                               -- message ring 1 + c interrupts its core
  | unsupported (write : Bool) (off len : Nat)      -- an access of BAR0 completed as an Unsupported Request
  | chainTx (down : Bool) (pk : ChainPkt)           -- a chain packet sent downstream or upstream
  | uartTx (u : Nat) (o : BitVec 8)                 -- an octet on a UART's transmit line
  | i2c (i op : Nat) (data : BitVec 8)              -- an I2C OP on its bus
  | spi (i : Nat) (data : BitVec 8)                 -- an octet exchanged on SPI
  | fpinWord (d n : Nat) (w : Word)                 -- a fabric user pin sends a word, bit 39 first
  | tapData (w : Nat)                               -- what a TAP instruction shifts out
  | keeperUart (os : List (BitVec 8))               -- octets of a Keeper message on the transmit line of UART 3
  | uclUnit (u : BitVec 512)                        -- a Jenwyn unit sent to the companion die
  | bridge (addr : Nat) (pk : Packet)               -- a host-window request as a PCIe memory request at a host byte address
  deriving DecidableEq, Repr

/-- The reasons a step stops with a fault. The spec gives every command of the table an effect or lets it pass without one, and
the device has no command that ends its operation, so there is none. -/
inductive Fault where
  deriving DecidableEq, Repr

/-- The reasons a command has no meaning. -/
inductive Refusal where
  /-- Raised by `exec` alone, for a command whose meaning is not written yet. Safe: the run stops. -/
  | notModelled (mnemonic : String)
  deriving DecidableEq, Repr

structure State where
  regs : SMap HWord := []            -- live value of every field but the ST fields, by BAR0 offset
  stv : SMap HWord := []             -- ST fields: copy 0 or 1 of the register at offset x at 2x + copy
  bank : SMap Bool := []             -- by member index: which copy is live (R111)
  frames : SMap Word := []           -- configuration frames: word w of frame f of copy c at (c·2^25 + f)·128 + w
  cells : SMap CellSt := []
  panes : SMap PaneSt := []
  chans : SMap ChanSt := []
  arrays : SMap Entry := []          -- word memory arrays: entry a of block b at 16384b + a
  queues : SMap QueueSt := []        -- queue q of block b at 4b + q
  ports : SMap PortSt := []
  movers : SMap MoverSt := []
  lvPar : SMap (BitVec 2) := []      -- parity bits of the louvres: louvre k of cell c in copy x at (x·2^19 + c)·8 + k
  dies : SMap DieSt := []
  tbu : TbuSt := {}
  doms : SMap DomainSt := []
  arms : SMap ArmSt := []
  armedBy : SMap Nat := []           -- by member: 1 + 8·(the arm's number) + domain of the arm it has received (R114)
  engs : SMap EngSt := []
  dm : SMap Entry := []              -- data memory of engine e, word a at 32768e + a
  pmBad : SMap (Fin 3) := []
  srcs : SMap SrcQ := []             -- channel v at the source port i: 8i + v; so too `inqs`, `worms`, `lost` and `tins`
  inqs : SMap (List TFlit) := []     -- a router's input queues
  worms : SMap Worm := []
  lost : SMap Nat := []              -- arbitrations lost in succession by the flit at the head of an input's channel (R192)
  turns : SMap Nat := []             -- by output link: the input that last won there (R192)
  tins : SMap (List TFlit) := []     -- flits that a target or initiator holds, not yet performed
  owns : List Packet := []           -- completions that routers make (R199, R215), not yet forwarded
  selfCpl : List Packet := []        -- completions that an initiator's own interface makes (R185)
  fmSeq : List FmReq := []           -- requests for frame memory, in the order in which its splitter got them
  fmOut : SMap SrcQ := []            -- pieces that the splitter has still to send, by the controller's port and channel: 8i + v
  outst : List Outst := []
  quar : List (Nat × Nat) := []
  tracked : List Tracked := []
  answered : List (Nat × Nat × Nat) := []   -- requests answered at a boarding: port, source, tag (R199)
  uclLeft : SMap Nat := []           -- by channel: flits still to come of the packet arriving at hub port 32
  uclHdr : SMap Packet := []        -- header of the packet last begun on each channel of hub port 32
  uclOwed : SMap Nat := []          -- credits of each channel of hub port 32 that no unit has carried yet (R279)
  credOff : SMap Int := []          -- credits that DIAG_CRED has added to, or removed from, each channel of a hub port (Table 18.4)
  ledger : SMap HWord := []           -- live transom ledger counters, by the offset of their captured copy
  stageBrd : SMap Bool := []         -- boarded transom stages of hinge ends
  parkBrd : List Nat := []           -- links boarded with cause PARK (R200)
  lanes : SMap LaneSt := []          -- lane l of die d at 32d + l
  hinges : SMap HingeSt := []
  leaves : SMap LeafSt := []         -- leaf j sent by end e at 32e + j
  stages : SMap StageSt := []        -- channel v of pane link x of end e at (8e + x)·8 + v
  recalls : SMap (List (Nat × TFlit)) := [] -- the recall store (R265): pane link x of end e at 8e + x, flits with their channel, oldest first
  gsnap : Bool := false              -- a global capture is requested (R203)
  gsnapDue : Nat := 0                -- ticks issued whose global capture has not happened
  edgeTurn : SMap Nat := []          -- by end and half, 2e + half: the channel last served (R260)
  tickQ : SMap (List TickRec) := []  -- by hinge end: tick records that wait for its hinge (R272)
  sd : SMap SdEnt := []
  sdMiss : Word := 0
  sdOp : Option (Nat × Bool) := none -- the command that runs: OP and KLEN of SD_CMD (R209)
  lkRecs : SMap (List LkRec) := []   -- posted lookups that wait at lookup port lp, oldest first
  fm : SMap Word := []               -- frame memory: word k of block Bl of sub-channel sc at (sc·2^27 + Bl)·16 + k
  fmErr : SMap BlkErr := []          -- by block: sc·2^27 + Bl
  ddrs : SMap DdrSt := []
  pins : SMap PinSt := []            -- GP0–GP63
  fpins : SMap FpinSt := []          -- fabric pin n of die d at 64d + n
  outputs : Bool := false            -- the hub pins have their image functions (R348)
  uarts : SMap UartSt := []
  i2cs : SMap Nat := []              -- OP running, 0 none
  spis : SMap Bool := []             -- CS_N held low
  fans : SMap Nat := []              -- tachometer edges in the present second
  tap : TapSt := {}
  clk : ClkSt := {}
  cfg : CfgSt := {}
  chk : SMap Word := []              -- check words of a stored frame: word 98 + i of frame f of copy c at (c·2^25 + f)·2 + i
  imgBit : SMap Bool := []           -- image bit of a frame copy (R355)
  store : SMap HWord := []           -- store die, host word n: octets 4n to 4n + 3
  progd : SMap Bool := []            -- pages programmed since their sector was last erased
  unread : SMap Bool := []           -- pages of the store die whose reads it cannot correct (R344), a property from outside
  otp : SMap OtpGen := []            -- generation g of field f at 4f + g
  otpRun : Option OtpRun := none
  power : Power := .on
  db : DbSt := {}
  host : List HCmd := []
  hostSeq : Nat := 0                 -- commands fetched
  hcqs : SMap HcqSt := []
  b2 : List B2Read := []
  park : Option ParkSt := none
  unparkReq : Option Nat := none     -- an unpark that HUB_PCTL asked for and that has not run its steps: its die (R299)
  msixs : SMap MsixFn := []          -- by function, PF0 and PF1
  pcieUp : Bool := false             -- the PCIe link is up (R283)
  mcMem : SMap Word := []            -- local memory of MC0 and MC1, as word slots: slot n of core c at c·2^61 + n (R300)
  chn : ChnSt := {}
  core0 : CoreSt := {}
  mcCount : SMap Nat := []           -- count of MC_WDT[c]
  kpr : KprSt := {}
  heldAcc : List HeldAcc := []       -- oldest first
  hubPar : SMap Bool := []           -- DIAG_INJ kind 3 waits at a hub port
  fresh : Nat := 0
  out : List OutEv := []
  pending : List Instr := []
  deriving DecidableEq, Repr

def State.reset : State := {}

/-- What a command's meaning answers. -/
abbrev Res := Host.Outcome State Fault Refusal

end Sys2Proof.Machine
end

