-- ==== Sys2Proof/Machine/Ops.lean ====
section
/-!
DEFINITION. The named operations over the register file, the staged copies and the configuration frames.
-/
namespace Sys2Proof.Machine

/-! ### Bits and checks -/

/-- Bits of a number, first bit most significant. -/
def bitsMsb (n x : Nat) : List Bool := (List.range n).map fun i => x.testBit (n - 1 - i)

/-- The number that a bit list spells, first bit most significant. -/
def natOfBits (bs : List Bool) : Nat := bs.foldl (fun a b => 2 * a + (if b then 1 else 0)) 0

/-- CRC-16 of a bit sequence: x^16 + x^12 + x^5 + 1, initial value 0xFFFF. -/
def crc16 (bs : List Bool) : Nat :=
  bs.foldl (fun c b => (2 * c % 0x10000) ^^^ (if (c.testBit 15 ^^ b) then 0x1021 else 0)) 0xFFFF

/-- The five byte-parity bits of a word (R174): bit k makes octet k with the bit hold an even number of ones. -/
def byteParity (w : Word) : BitVec 5 :=
  BitVec.ofNat 5 (((List.range 5).map fun k =>
    if ((List.range 8).foldl (fun a i => a ^^ w.getLsbD (8 * k + i)) false) then 2 ^ k else 0).sum)

/-- What two or three of three copies say (R174). -/
def majority (x : BitVec 3) : Bool :=
  (x.getLsbD 0 && x.getLsbD 1) || (x.getLsbD 0 && x.getLsbD 2) || (x.getLsbD 1 && x.getLsbD 2)

/-- Three equal copies of a bit. -/
def thrice (b : Bool) : BitVec 3 := if b then 7 else 0

/-- The item's tag, and the bank its context names (true: bank B). -/
def ChanItem.tag (it : ChanItem) : Bool := majority it.tags
def ChanItem.bank (it : ChanItem) : Bool := majority it.ctxs

/-! ### Fields and registers -/

/-- The value of a field in a host word. -/
def getF (v : HWord) (f : Fld) : Nat := bitsOf v.toNat f.hi f.lo

/-- A host word with one field replaced. -/
def putF (v : HWord) (f : Fld) (n : Nat) : HWord :=
  let w := f.hi + 1 - f.lo
  BitVec.ofNat 32 (v.toNat - getF v f * 2 ^ f.lo + n % 2 ^ w * 2 ^ f.lo)

/-- The register at a BAR0 offset (the fields that are not ST). -/
def State.reg (s : State) (off : Nat) : HWord := SMap.get (resetVal off) s.regs off

/-- Give a register a value. -/
def State.setReg (s : State) (off : Nat) (v : HWord) : State := { s with regs := SMap.set (resetVal off) s.regs off v }

/-- A field of a register. -/
def State.fld (s : State) (off : Nat) (f : Fld) : Nat := getF (s.reg off) f

/-- A one-bit field of a register. -/
def State.flag (s : State) (off : Nat) (f : Fld) : Bool := decide (s.fld off f ≠ 0)

/-- Give a field of a register a value. -/
def State.setFld (s : State) (off : Nat) (f : Fld) (n : Nat) : State := s.setReg off (putF (s.reg off) f n)

/-- Add to a field that saturates at its largest value (the COUNT fields of R47 and their like). -/
def State.addSat (s : State) (off : Nat) (f : Fld) (n : Nat) : State :=
  s.setFld off f (min (s.fld off f + n) (2 ^ (f.hi + 1 - f.lo) - 1))

/-- Send something to the outside. -/
def State.emit (s : State) (e : OutEv) : State := { s with out := e :: s.out }

/-- A meaning that goes on. -/
abbrev ok (s : State) : Res := .next s

/-! ### Staged fields (R7, R111, R120) -/

/-- The live copy, 0 or 1, of shutter member `m`. -/
def State.liveCopy (s : State) (m : Nat) : Nat := if SMap.get false s.bank m then 1 else 0

/-- The ST fields of the register at `off` in copy `c`. -/
def State.stAt (s : State) (c off : Nat) : HWord := SMap.get (resetVal off) s.stv (2 * off + c)

/-- Write the ST fields of the register at `off` in copy `c`. -/
def State.setStAt (s : State) (c off : Nat) (v : HWord) : State :=
  { s with stv := SMap.set (resetVal off) s.stv (2 * off + c) v }

/-- The live value of the ST fields of a register of member `m` (R120). -/
def State.live (s : State) (m off : Nat) : HWord := s.stAt (s.liveCopy m) off

/-- The staged value of the ST fields of a register of member `m` (R7). -/
def State.staged (s : State) (m off : Nat) : HWord := s.stAt (1 - s.liveCopy m) off

/-- A live ST field. -/
def State.liveF (s : State) (m off : Nat) (f : Fld) : Nat := getF (s.live m off) f

/-- The live copy of member `m` becomes the other one: the exchange of R111. -/
def State.flip (s : State) (m : Nat) : State := { s with bank := SMap.upd false s.bank m not }

/-! ### Member indices (Table 5.4) and instance keys -/

/-- The name of pane p of fabric die d, and its member index (Table 5.4). -/
def paneId (d p : Nat) : Nat := d * 64 + p

/-- The member index of engine e of die d. -/
def engMember (d e : Nat) : Nat := 0x100 + d * 128 + e

/-- The member index of lane l of die d. -/
def laneMember (d l : Nat) : Nat := 0x300 + d * 32 + l

/-- The member index of DDR5 controller c. -/
def ddrMember (c : Nat) : Nat := 0x380 + c

/-- The member index of pin bank b: 0–3 the hub's, 4–7 the fabric user pins of F0–F3. -/
def pinMember (b : Nat) : Nat := 0x388 + b

/-- The fabric die a member lies on, if it lies on one. -/
def memberDie (m : Nat) : Option Nat :=
  if m < 0x100 then some (m / 64) else if m < 0x300 then some ((m - 0x100) / 128)
  else if m < 0x380 then some ((m - 0x300) / 32) else if 0x38C ≤ m ∧ m < 0x390 then some (m - 0x38C) else none

/-- The number of a word memory block. -/
def blkId (d p m : Nat) : Nat := paneId d p * 6 + m

/-- The number of an engine. -/
def engId (d e : Nat) : Nat := d * 128 + e

/-- The number of a word cell: tile t = 8·row + column of pane P, cell c = 8·cluster + cell of it. -/
def cellKey (pane tile c : Nat) : Nat := (pane * 64 + tile) * 32 + c

/-! ### Configuration frames (R341, Tables 14.4, 14.5) -/

/-- A frame address (Table 14.4). -/
def frameAddr (die type row col column minor : Nat) : Nat :=
  die * 2 ^ 23 + type * 2 ^ 20 + row * 2 ^ 17 + col * 2 ^ 14 + column * 2 ^ 8 + minor

/-- The key of word `w` of frame `f` in physical copy `c`. -/
def frameKey (c f w : Nat) : Nat := (c * 2 ^ 25 + f) * 128 + w

/-- Word `w` of a frame. -/
def State.frameWord (s : State) (c f w : Nat) : Word := SMap.get 0 s.frames (frameKey c f w)

/-- Bits `i` to `i + n − 1` of a frame's data, first bit most significant; n up to 81 (R341). -/
def State.frameBits (s : State) (c f i n : Nat) : Nat :=
  let w := i / 40
  let v := (s.frameWord c f w).toNat * 2 ^ 80 + (s.frameWord c f (w + 1)).toNat * 2 ^ 40 + (s.frameWord c f (w + 2)).toNat
  v / 2 ^ (120 - i % 40 - n) % 2 ^ n

/-- The frame address of a pane's frames. -/
def paneFrame (pane type column minor : Nat) : Nat :=
  frameAddr (pane / 64) type (pane % 64 / 8) (pane % 8) column minor

/-- Louvre `k` of cell `c` of tile `t` of a pane, in physical copy `x` (Table 14.5). -/
def State.louvreAt (s : State) (x pane tile c k : Nat) : BitVec 48 :=
  BitVec.ofNat 48 (s.frameBits x (paneFrame pane 0 tile (k / 2)) (48 * (32 * (k % 2) + c)) 48)

/-- The queue binding of a cell in physical copy `x`: 12 bits in the field order of Table 2.7, CQ_EN first. -/
def State.bindingAt (s : State) (x pane tile c : Nat) : Nat :=
  s.frameBits x (paneFrame pane 0 tile 0) (3072 + 12 * c) 12

/-- The parity a louvre's two halves ask for (R31): bit 0 even over [23:0], bit 1 even over [47:24]. -/
def louvreParity (l : BitVec 48) : BitVec 2 :=
  let par := fun (x : Nat) => (List.range 24).foldl (fun a i => a ^^ x.testBit i) false
  BitVec.ofNat 2 ((if par (l.toNat % 2 ^ 24) then 1 else 0) + (if par (l.toNat / 2 ^ 24) then 2 else 0))

/-- The key of the stored parity bits of a louvre. -/
def lvParKey (x pane tile c k : Nat) : Nat := (x * 2 ^ 19 + cellKey pane tile c) * 8 + k

/-- The stored parity bits of a louvre. -/
def State.lvParAt (s : State) (x pane tile c k : Nat) : BitVec 2 := SMap.get 0 s.lvPar (lvParKey x pane tile c k)

/-- A cell's state while GSR holds it, and until it first changes: the initial values of its frame (R29, Table 2.9). -/
def State.initCell (s : State) (key : Nat) : CellSt :=
  let pane := key / 2048; let tile := key / 32 % 64; let c := key % 32
  let f := paneFrame pane 0 tile (4 + c / 16)
  let w := fun r => BitVec.ofNat 40 (s.frameBits 0 f (200 * (c % 16) + 40 * r) 40)
  { q0 := w 0, q1 := w 1, q2 := w 2, q3 := w 3, out := w 4 }

/-- A word cell. -/
def State.cell (s : State) (key : Nat) : CellSt := SMap.get (s.initCell key) s.cells key

/-- Change a word cell. -/
def State.setCell (s : State) (key : Nat) (c : CellSt) : State :=
  { s with cells := SMap.set (s.initCell key) s.cells key c }

/-- A pane's state. -/
def State.pane (s : State) (p : Nat) : PaneSt := SMap.get {} s.panes p

def State.setPane (s : State) (p : Nat) (x : PaneSt) : State := { s with panes := SMap.set {} s.panes p x }

/-- Is a die configured, past GSR and WRITES (R50)? -/
def State.dieRuns (s : State) (d : Nat) : Bool := let x := SMap.get {} s.dies d; x.gsr && x.writes && !x.off

/-- Is a fabric die parked or undiscovered, so that its blocks read as 0 and ignore writes (R422)? -/
def State.dieDark (s : State) (d : Nat) : Bool :=
  (SMap.get {} s.dies d).off || decide (bitsOf (s.reg R.HUB_STEP).toNat (4 * d + 3) (4 * d) = 0)

/-- State of a hinge end (Table 11.9). -/
def State.hingeState (s : State) (e : Nat) : Nat := s.fld (R.HNG_STAT e) F.HNG_STAT.STATE

/-- Is every hinge UP on the way from the hub to a fabric die (Table 1.2)? F2 is reached through F0, F3 through F1; round the other
pair where that die is parked. Ends are named 3d + h. -/
def State.pathUp (s : State) (d : Nat) : Bool :=
  let up := fun e => decide (s.hingeState e = 2)
  let off := fun d => (SMap.get {} s.dies d).off
  match d with
  | 0 => up 0
  | 1 => up 3
  | 2 => if off 0 then up 3 && up 5 && up 7 else up 0 && up 2
  | _ => if off 1 then up 0 && up 2 && up 7 else up 3 && up 5

/-- A register write that a command makes at fabric die `d` (R422): a dark die ignores it, one whose path is not UP has it held at the hub, as the
write of `v` at `off`, and any other performs it as `f`. -/
def State.reach (s : State) (d off : Nat) (v : HWord) (f : State → State) : State :=
  if s.dieDark d then s
  else if s.pathUp d then f s
  else { s with heldAcc := s.heldAcc ++ [{ off := off, write := some [v], since := s.tbu.run }] }

/-- Does a park in progress quiesce fabric die `d` (R298)? -/
def State.quiesces (s : State) (d : Nat) : Bool := match s.park with | some p => decide (p.die = d) | none => false

/-- Do a pane's cells run: GSR released and WRITES reached, the loop locked and not gated, the pane not shut (R50, R52, R352)? A shut pane's patrol,
line movers and waiting RAM port requests stand still with them (DESIGN CHOICE, log entry 163). -/
def State.paneRuns (s : State) (pane : Nat) : Bool :=
  s.dieRuns (pane / 64) && s.flag (R.PANE_CLK (pane / 64) (pane % 64)) F.PANE_CLK.LOCK && !(s.pane pane).shut

/-- The pane has passed GSR and WRITES and is not shut, whether or not its clocks run (R99, R173, R352). -/
def State.paneOpen (s : State) (pane : Nat) : Bool := s.dieRuns (pane / 64) && !(s.pane pane).shut

end Sys2Proof.Machine
end

