-- ==== Sys2Proof/Machine/Loops.lean ====
section
/-!
DEFINITION. The hub loops (R311, Table 13.5): the multiplexers, the references that SRC names, and the start of a loop on its reference or
on fallback (R309, R320).
-/
namespace Sys2Proof.Machine

/-- What a multiplexer selects. -/
def State.mux (s : State) (id : Nat) : Nat := SMap.get 0 s.clk.mux id

def State.setMux (s : State) (id v : Nat) : State := { s with clk := { s.clk with mux := SMap.set 0 s.clk.mux id v } }

/-- Ask a multiplexer to select an input. -/
def State.askMux (s : State) (id v : Nat) : State :=
  { s with clk := { s.clk with ask := SMap.set 0 s.clk.ask id (if s.mux id = v then 0 else v + 1) } }

/-- The places of LOCK, FB and LOL of loop n in CLK_HLSTAT, and of SRC in CLK_HLCFG (Table 13.5). -/
def lockF (n : Nat) : Fld := ⟨4 * n + 3, 4 * n + 3⟩
def fbF (n : Nat) : Fld := ⟨4 * n + 2, 4 * n + 2⟩
def lolF (n : Nat) : Fld := ⟨4 * n + 1, 4 * n + 1⟩
def srcF (n : Nat) : Fld := ⟨2 * n + 1, 2 * n⟩

/-- The reference a loop's SRC names: 0 XA, 1 XB, 2 FOSC; 3 acts as 2. -/
def State.loopSrc (s : State) (n : Nat) : Nat := min 2 (s.fld R.CLK_HLCFG (srcF n))

/-- Is a reference present (R309)? -/
def State.refPresent (s : State) (i : Nat) : Bool :=
  let f := if i = 0 then s.fld R.CLK_XCFG F.CLK_XCFG.XAF else s.fld R.CLK_XCFG F.CLK_XCFG.XBF
  decide (2 ≤ i ∨ (1000 ≤ f ∧ f ≤ 5400))

/-- Is a reference good: present and not failed? -/
def State.refGood (s : State) (i : Nat) : Bool := s.refPresent i && (decide (2 ≤ i) || !(s.fld R.CM_STATUS F.CM_STATUS.FAIL).testBit i)

/-- Does hub loop n run (R311)? -/
def State.loopOn (s : State) (n : Nat) : Bool := s.clk.started.getLsbD n

/-- Do HL0's consumers have a clock: does their multiplexer not hold its output low (R317)? -/
def State.hubRuns (s : State) : Bool := decide (s.mux 4 ≠ 3)

/-- FB clears when the loop runs from its programmed reference and its consumers from the loop (R322). -/
def State.fbCheck (s : State) (n : Nat) : State :=
  if s.mux n = s.loopSrc n ∧ s.flag R.CLK_HLSTAT (lockF n) ∧ (2 ≤ n ∨ s.mux (4 + n) = 1) ∧ SMap.get 0 s.clk.ask n = 0 ∧
      SMap.get 0 s.clk.ask (4 + n) = 0 then s.setFld R.CLK_HLSTAT (fbF n) 0
  else s

/-- Has hub loop n, HL3, started and not locked yet (R311)? -/
def State.unlocked3 (s : State) (n : Nat) : Bool := decide (n = 3) && s.loopOn 3 && !s.clk.ran3

/-- Hub loop n locks for the first time: to the reference that SRC names, or on fallback where that is absent or has failed. A loop that
cannot lock stays unlocked and on fallback (R327); one that has come into fallback before stays there until SRC is written (R322). -/
def State.lockLoop (s : State) (n : Nat) : State :=
  let there := s.refGood (s.loopSrc n); let locks := !s.clk.cant.getLsbD n
  let s1 := s.setFld R.CLK_HLSTAT (lockF n) (if locks then 1 else 0)
  if s.flag R.CLK_HLSTAT (fbF n) then s1.fbCheck n
  else
    let s2 := (s1.setFld R.CLK_HLSTAT (fbF n) (if there && locks then 0 else 1)).setMux n (if there then s.loopSrc n else 2)
    { s2 with clk := { s2.clk with ask := SMap.set 0 s2.clk.ask n 0 } }

/-- Hub loop n starts. -/
def State.startLoop (s : State) (n : Nat) : State :=
  { s with clk := { s.clk with started := s.clk.started ||| BitVec.ofNat 4 (2 ^ n) } }

end Sys2Proof.Machine
end

