-- ==== Sys2Proof/Machine/Flags.lean ====
section
/-!
DEFINITION. Lanes (Table 2.1) and the flag classes of the word cell (Table 3.6, R25, R59), saturation (Table 3.8, R61) and
rounding (R62). The engine's clamps use the same functions.
-/
namespace Sys2Proof.Machine

/-- Lane width of a mode (Table 2.1): 0 W, 1 D, 2 S, 3 O. -/
def laneW : Nat → Nat | 0 => 40 | 1 => 20 | 2 => 10 | _ => 8

/-- Number of lanes of a mode. -/
def laneN : Nat → Nat | 0 => 1 | 1 => 2 | 2 => 4 | _ => 5

/-- Lane `j` of a word, as a number. -/
def lane (m j : Nat) (x : Word) : Nat := x.toNat / 2 ^ (laneW m * j) % 2 ^ laneW m

/-- Lane `j` of a word, as a signed number. -/
def laneS (m j : Nat) (x : Word) : Int := signedOf (laneW m) (lane m j x)

/-- The word whose lane `j` is `f j`, each taken modulo the lane width. -/
def pack (m : Nat) (f : Nat → Nat) : Word :=
  BitVec.ofNat 40 (((List.range (laneN m)).map fun j => f j % 2 ^ laneW m * 2 ^ (laneW m * j)).sum)

/-- Five flag positions: position `j` holds `f j` where the mode has a lane `j`, and 0 elsewhere (R25). -/
def flags5 (m : Nat) (f : Nat → Bool) : BitVec 5 :=
  BitVec.ofNat 5 (((List.range (laneN m)).map fun j => if f j then 2 ^ j else 0).sum)

/-- Most significant bit of a lane value. -/
def msb (w x : Nat) : Bool := decide (2 ^ (w - 1) ≤ x % 2 ^ w)

/-- Clamp to the unsigned bounds of width `w` (Table 3.8). -/
def satU (w : Nat) (x : Int) : Int := max 0 (min x (2 ^ w - 1))

/-- Clamp to the signed bounds of width `w` (Table 3.8). -/
def satS (w : Nat) (x : Int) : Int := max (-(2 ^ (w - 1))) (min x (2 ^ (w - 1) - 1))

/-- Rounding by `s` bits: (x + 2^(s−1)) shifted right arithmetically (R62). -/
def roundBy (s : Nat) (x : Int) : Int := if s = 0 then x else (x + 2 ^ (s - 1)) / 2 ^ s

/-- The flags C, Z, N, V an instruction writes. -/
structure CZNV where
  c : BitVec 5
  z : BitVec 5
  n : BitVec 5
  v : BitVec 5
  deriving DecidableEq, Repr

/-- What a cell's operation gives: its result, the flags it writes (none: they stay), the lanes that saturated, and whether SAT is
cleared. -/
structure AluRes where
  r : Word
  fl : Option CZNV := none
  sat : BitVec 5 := 0
  satClr : Bool := false
  deriving DecidableEq, Repr

/-- A result whose Z and N follow the lanes of `r` (Table 3.6), with C and V as given. -/
def resFlags (m : Nat) (r : Word) (c v : Nat → Bool) (sat : Nat → Bool) : AluRes :=
  { r := r
    fl := some ⟨flags5 m c, flags5 m fun j => decide (lane m j r = 0), flags5 m fun j => msb (laneW m) (lane m j r), flags5 m v⟩
    sat := flags5 m sat }

/-- LOGIC: C and V are 0. -/
def logicRes (m : Nat) (r : Word) : AluRes := resFlags m r (fun _ => false) (fun _ => false) (fun _ => false)

/-- ARITH: add with a carry-in; C is the carry out, V the signed overflow of the lane. -/
def addRes (m : Nat) (cin : Nat → Nat) (a b : Word) : AluRes :=
  let w := laneW m
  let u := fun j => lane m j a + lane m j b + cin j
  let t := fun j => laneS m j a + laneS m j b + cin j
  resFlags m (pack m u) (fun j => decide (2 ^ w ≤ u j)) (fun j => decide (satS w (t j) ≠ t j)) (fun _ => false)

/-- ARITH: subtract with a borrow-in; C is 1 when no borrow, V the signed overflow of the lane. -/
def subRes (m : Nat) (bin : Nat → Nat) (a b : Word) : AluRes :=
  let w := laneW m
  let t := fun j => laneS m j a - laneS m j b - bin j
  resFlags m (pack m fun j => wrapTo w ((lane m j a : Int) - lane m j b - bin j))
    (fun j => decide (lane m j b + bin j ≤ lane m j a)) (fun j => decide (satS w (t j) ≠ t j)) (fun _ => false)

/-- SATUR: the clamped value of `x j`; V and SAT where a lane clamps, C as the unsaturated operation gives it. -/
def satRes (m : Nat) (clamp : Nat → Int → Int) (x : Nat → Int) (c : Nat → Bool) : AluRes :=
  let w := laneW m
  let hit := fun j => decide (clamp w (x j) ≠ x j)
  resFlags m (pack m fun j => wrapTo w (clamp w (x j))) c hit hit

/-- ORDER: C is 1 when a ≥ b in the opcode's order. -/
def orderRes (m : Nat) (ge : Nat → Bool) (r : Nat → Nat) : AluRes :=
  resFlags m (pack m r) ge (fun _ => false) (fun _ => false)

/-- CLAMP: lower bound first, then the upper (R61); C where the upper bound c was met from above, V and SAT where r ≠ a. -/
def clampRes (m : Nat) (val : Nat → Word → Int) (a b c : Word) : AluRes :=
  let x := fun j => min (max (val j a) (val j b)) (val j c)
  let r := pack m fun j => wrapTo (laneW m) (x j)
  let hit := fun j => decide (x j ≠ val j a)
  resFlags m r (fun j => decide (x j = val j c ∧ val j c < val j a)) hit hit

/-- COMPARE: C when a ≥ b, Z when equal, N when a < b, V 0. -/
def compareRes (m : Nat) (val : Nat → Word → Int) (a b : Word) : AluRes :=
  { r := 0
    fl := some ⟨flags5 m fun j => decide (val j b ≤ val j a), flags5 m fun j => decide (val j a = val j b),
                flags5 m fun j => decide (val j a < val j b), 0⟩ }

/-- SHIFT: lane values and last bits shifted out. -/
def shiftRes (m : Nat) (r : Nat → Nat) (last : Nat → Bool) : AluRes :=
  resFlags m (pack m r) last (fun _ => false) (fun _ => false)

/-- NARROW: values clamped (or cut, where `clamp` is none) to the lanes; V and SAT where a lane clamps. -/
def narrowRes (m : Nat) (clamp : Option (Nat → Int → Int)) (x : Nat → Int) : AluRes :=
  let w := laneW m
  match clamp with
  | some f => satRes m f x (fun _ => false)
  | none => resFlags m (pack m fun j => wrapTo w (x j)) (fun _ => false) (fun _ => false) (fun _ => false)

/-- MACC: p + c modulo 2^40, with carry out and signed overflow of the addition. -/
def maccRes (p c : Word) : AluRes := addRes 0 (fun _ => 0) p c

end Sys2Proof.Machine
end

