-- ==== Sys2Proof/Machine/Queues.lean ====
section
/-!
DEFINITION. Word memory queues as their clients see them: which queues exist (R150, R152), who serves each role (R154), the head
(R155), push, pop and SLAM (R153, R157–R159), entries and their check bits (R176), and the ledger counts (R171).
-/
namespace Sys2Proof.Machine

/-! ### Settings of a block -/

/-- A live WM_CFG field of block `m` of a pane. -/
def State.wmCfg (s : State) (pane m : Nat) (f : Fld) : Nat := s.liveF pane (R.WM_CFG (pane / 64) (pane % 64) m) f

/-- The block's mode is QUEUE or PQUEUE (Table 7.1). -/
def State.queueMode (s : State) (pane m : Nat) : Bool :=
  let x := s.wmCfg pane m F.WM_CFG.MODE
  decide (x = 3 ∨ x = 4)

/-- How many queues exist (Table 7.1). -/
def State.numQueues (s : State) (pane m : Nat) : Nat :=
  if s.queueMode pane m then s.wmCfg pane m F.WM_CFG.NQ + 1 else 0

/-- How many RAM ports the block's mode offers (Table 7.1). -/
def State.numPorts (s : State) (pane m : Nat) : Nat :=
  match s.wmCfg pane m F.WM_CFG.MODE with | 1 => 1 | 2 => 2 | _ => 0

/-- BASE and size of a queue's region. -/
def State.qRegion (s : State) (pane m q : Nat) : Nat × Nat :=
  let c := s.live pane (R.WM_QCFG (pane / 64) (pane % 64) m q)
  (getF c F.WM_QCFG.BASE, getF c F.WM_QCFG.SIZEM1 + 1)

/-- Do two circular regions of the array share an entry (R152)? -/
def regionsMeet (a b : Nat × Nat) : Bool :=
  decide ((b.1 + 16384 - a.1) % 16384 < a.2) || decide ((a.1 + 16384 - b.1) % 16384 < b.2)

/-- The queues of the first `n` that exist and are not disabled by overlap, taken in ascending number (R152). -/
def State.enabledQueues (s : State) (pane m : Nat) : Nat → List Nat
  | 0 => []
  | n + 1 =>
    let es := s.enabledQueues pane m n
    if n < s.numQueues pane m ∧ ¬ es.any (fun k => regionsMeet (s.qRegion pane m k) (s.qRegion pane m n)) then es ++ [n] else es

/-- Queue `q` exists and is not disabled. -/
def State.qUsable (s : State) (pane m q : Nat) : Bool := (s.enabledQueues pane m 4).contains q

/-- Queue `q` exists and is disabled by overlap. -/
def State.qDisabled (s : State) (pane m q : Nat) : Bool := decide (q < s.numQueues pane m) && !s.qUsable pane m q

/-- Is a binding to (`en`, `mem`, `q`) bound (R42): to a queue that exists and is not disabled, or to a RAM port offered? -/
def State.bound (s : State) (pane : Nat) (en : Bool) (mem q : Nat) : Bool :=
  en && decide (mem < 6) && (s.qUsable pane mem q || decide (q < s.numPorts pane mem))

/-- Is queue `q` in locked use? -/
def State.lockedUse (s : State) (pane m q : Nat) : Bool := (s.wmCfg pane m F.WM_CFG.LOCKED).testBit q

/-- A queue's idle word: the live value of WM_QIDLE_H:WM_QIDLE_L (R155). -/
def State.idleWord (s : State) (pane m q : Nat) : Word :=
  let h := s.liveF pane (R.WM_QIDLE_H (pane / 64) (pane % 64) m q) F.WM_QIDLE_H.IDLE
  BitVec.ofNat 40 (h * 2 ^ 32 + (s.live pane (R.WM_QIDLE_L (pane / 64) (pane % 64) m q)).toNat)

/-! ### Who serves a role (R154) -/

/-- A client of a queue. -/
inductive QClient where
  | transom                     -- locked use
  | lane
  | fpin (n : Nat)
  | port (j i : Nat)            -- stream port i of engine j
  | mover
  | chan (k : Nat)
  | cell (tc : Nat)             -- 32 · tile + cell
  deriving DecidableEq, Repr

/-- The three fields of a queue binding register: enable, memory and queue. -/
def bindOf (v : HWord) (en mem q : Fld) : Bool × Nat × Nat := (decide (getF v en = 1), getF v mem, getF v q)

/-- A cell's binding in the live copy: consumer (`prod` false) or producer (Table 2.7). -/
def State.cellBinding (s : State) (pane tc : Nat) (prod : Bool) : Bool × Nat × Nat :=
  let b := s.bindingAt (s.liveCopy pane) pane (tc / 32) (tc % 32)
  let x := if prod then b % 64 else b / 64
  (decide (x / 32 = 1), x / 4 % 8, x % 4)

/-- The mode a fabric user pin acts in: reserved codes, and LVDS codes on odd pins, act as OFF (Table 16.6, R394). -/
def State.fpinMode (s : State) (d n : Nat) : Nat :=
  let x := s.liveF (pinMember (4 + d)) (R.FPIN_CFG d n) F.FPIN_CFG.MODE
  let even := s.liveF (pinMember (4 + d)) (R.FPIN_CFG d (n - n % 2)) F.FPIN_CFG.MODE
  if n % 2 = 1 then (if even = 4 ∨ even = 5 ∨ x ≥ 4 then 0 else x) else if x ≥ 6 then 0 else x

/-- The pane a fabric user pin is attached to (R393). -/
def fpinPane (d n : Nat) : Nat := d * 64 + 8 * (n / 2 / 3) + 2 * (n / 2 % 3) + 1

/-- The line mover's live settings. -/
def State.mvLive (s : State) (pane m : Nat) : MvSet :=
  let d := pane / 64; let p := pane % 64
  let c := s.live pane (R.WM_MVCFG d p m)
  let lw := getF c F.WM_MVCFG.LWORDS
  { dir := if getF c F.WM_MVCFG.DIR = 3 then 0 else getF c F.WM_MVCFG.DIR
    cq := getF c F.WM_MVCFG.CQ
    dq := getF c F.WM_MVCFG.DQ
    lwords := if lw = 0 then 16384 else lw
    rwords := getF c F.WM_MVCFG.RWORDS + 1
    base := s.liveF pane (R.WM_MVBASE_H d p m) F.WM_MVBASE_H.BASE * 2 ^ 32 + (s.live pane (R.WM_MVBASE_L d p m)).toNat
    lstride := s.liveF pane (R.WM_MVLSTR d p m) F.WM_MVLSTR.LSTRIDE
    fstride := (s.live pane (R.WM_MVFSTR d p m)).toNat }

/-- A block's line mover. -/
def State.mover (s : State) (blk : Nat) : MoverSt := SMap.get {} s.movers blk

def State.setMover (s : State) (blk : Nat) (x : MoverSt) : State := { s with movers := SMap.set {} s.movers blk x }

/-- The settings the line mover works under: those latched while a FETCH line is held or under POST (R169), else the live ones. -/
def State.mvEff (s : State) (pane m : Nat) : MvSet :=
  let mv := s.mover (pane * 6 + m)
  if mv.hold ∨ mv.ctl then mv.set else s.mvLive pane m

/-- Does the line mover hold the role of queue `q`: consumer of the command queue under FETCH and of the data queue under POST,
producer of the data queue under FETCH (R167, R168)? -/
def State.mvServes (s : State) (pane m q : Nat) (prod : Bool) : Bool :=
  let e := s.mvEff pane m
  match e.dir, prod with
  | 1, true => decide (e.dq = q)
  | 1, false => decide (e.cq = q)
  | 2, false => decide (e.dq = q)
  | _, _ => false

/-- An elastic channel, by sending pane and outbound index. -/
def State.chan (s : State) (pane k : Nat) : ChanSt := SMap.get {} s.chans (pane * 64 + k)

def State.setChan (s : State) (pane k : Nat) (x : ChanSt) : State := { s with chans := SMap.set {} s.chans (pane * 64 + k) x }

/-- The neighbour of pane (r, c) of a die on side s within the die (Table 4.10). -/
def nbrInDie (p side : Nat) : Option Nat :=
  let r := p / 8; let c := p % 8
  match side with
  | 0 => if 0 < r then some (p - 8) else none
  | 1 => if c < 7 then some (p + 1) else none
  | 2 => if r < 7 then some (p + 8) else none
  | _ => if 0 < c then some (p - 1) else none

/-- The die that side `side` of die `d` faces across a hinge (Table 11.1). -/
def dieFace (d side : Nat) : Option Nat :=
  match d, side with
  | 0, 1 => some 1 | 0, 2 => some 2 | 1, 2 => some 3 | 1, 3 => some 0
  | 2, 0 => some 0 | 2, 1 => some 3 | 3, 0 => some 1 | 3, 3 => some 2
  | _, _ => none

/-- The neighbour of a pane on a side, within its die or across a hinge, and whether a hinge lies between (R86, R253). -/
def nbr (pane side : Nat) : Option (Nat × Bool) :=
  let d := pane / 64; let p := pane % 64
  match nbrInDie p side with
  | some p' => some (d * 64 + p', false)
  | none => (dieFace d side).map fun d' =>
      (d' * 64 + (match side with | 0 => 56 + p % 8 | 1 => p / 8 * 8 | 2 => p % 8 | _ => p / 8 * 8 + 7), true)

/-- The channel that arrives at a pane as inbound index `k`: its sending pane, outbound index, and whether it crosses a hinge
(R86). -/
def inboundOf (pane k : Nat) : Option (Nat × Nat × Bool) :=
  (nbr pane (k / 16)).map fun x => (x.1, 16 * ((k / 16 + 2) % 4) + k % 16, x.2)

/-- The settings word of an inlet or outlet in copy `c`; 0 where the channel is absent (R86). -/
def State.chIn (s : State) (c pane k : Nat) : HWord :=
  if (nbr pane (k / 16)).isSome then s.stAt c (R.PANE_CHIN (pane / 64) (pane % 64) k) else 0

def State.chOut (s : State) (c pane k : Nat) : HWord :=
  if (nbr pane (k / 16)).isSome then s.stAt c (R.PANE_CHOUT (pane / 64) (pane % 64) k) else 0

/-- The item at the head of a pane's inbound channel `k`. -/
def State.inboundHead (s : State) (pane k : Nat) : Option ChanItem :=
  match inboundOf pane k with
  | none => none
  | some (sp, sk, _) => (s.chan sp sk).far.head?

/-- The bank under which the outlet of inbound channel `k` acts in the present cycle: that of the item it has delivered in it, else that
of its head item (R89, R96). -/
def State.outletBank (s : State) (pane k : Nat) : Option Bool :=
  match inboundOf pane k with
  | none => none
  | some (sp, sk, _) =>
    let ch := s.chan sp sk
    if ch.outCyc = (s.pane pane).cycle + 1 then some ch.outBank else ch.far.head?.map ChanItem.bank

/-- Does the channel end `k` claim queue `q` of memory `m` in the role: an inlet in QUEUE mode, or an outlet in QUEUE mode under
the live settings or under those of the item it delivers in the present cycle (R89)? -/
def State.chanClaims (s : State) (pane m q k : Nat) (prod : Bool) : Bool :=
  let names := fun (v : HWord) => decide (getF v F.PANE_CHIN.MODE = 1 ∧ getF v F.PANE_CHIN.MEM = m ∧ getF v F.PANE_CHIN.Q = q)
  if prod then
    names (s.chOut (s.liveCopy pane) pane k) ||
      (match s.outletBank pane k with
       | some b => names (s.chOut (if b then 1 else 0) pane k)
       | none => false)
  else names (s.chIn (s.liveCopy pane) pane k)

/-- The clients that claim a role of queue (or port) `q` of memory `m`, in the order of R154, and the first of them. -/
def State.clientOf (s : State) (pane m q : Nat) (prod : Bool) : Option QClient :=
  let d := pane / 64; let p := pane % 64
  let is := fun (b : Bool × Nat × Nat) => decide (b = (true, m, q))
  let lane : Option QClient :=
    if p % 2 = 0 then
      let v := s.live (laneMember d (p / 2)) (R.LANE_QB d (p / 2))
      if is (if prod then bindOf v F.LANE_QB.RQEN F.LANE_QB.RQMEM F.LANE_QB.RQ
             else bindOf v F.LANE_QB.TQEN F.LANE_QB.TQMEM F.LANE_QB.TQ) then some .lane else none
    else none
  let fpin : Option QClient :=
    ((List.range 48).find? fun n =>
      decide (fpinPane d n = pane) && is (bindOf (s.live (pinMember (4 + d)) (R.FPIN_CFG d n)) F.FPIN_CFG.QEN F.FPIN_CFG.QMEM F.FPIN_CFG.Q)
        && (let x := s.fpinMode d n; if prod then decide (x = 3 ∨ x = 5) else decide (x = 1 ∨ x = 2 ∨ x = 4))).map .fpin
  let port : Option QClient :=
    ((List.range 4).find? fun x =>
      let e := 2 * p + x / 2
      let v := s.live (engMember d e) (R.ENG_SPB d e (x % 2))
      is (if prod then bindOf v F.ENG_SPB.PEN F.ENG_SPB.PMEM F.ENG_SPB.PQ
          else bindOf v F.ENG_SPB.CEN F.ENG_SPB.CMEM F.ENG_SPB.CQ)).map fun x => .port (x / 2) (x % 2)
  let mover : Option QClient := if s.queueMode pane m ∧ s.mvServes pane m q prod then some .mover else none
  let chan : Option QClient := ((List.range 64).find? fun k => s.chanClaims pane m q k prod).map .chan
  let cell : Option QClient :=
    ((List.range 2048).find? fun tc => decide (tc / 32 % 8 ≠ 4) && is (s.cellBinding pane tc prod)).map .cell
  if ¬ prod ∧ s.queueMode pane m ∧ s.lockedUse pane m q then some .transom
  else lane <|> fpin <|> port <|> mover <|> chan <|> cell

/-- Is client `c`, bound to (`en`, `mem`, `q`), served in that role (R42, R154)? -/
def State.served (s : State) (pane : Nat) (b : Bool × Nat × Nat) (prod : Bool) (c : QClient) : Bool :=
  s.bound pane b.1 b.2.1 b.2.2 && decide (s.clientOf pane b.2.1 b.2.2 prod = some c)

/-! ### Entries (R149, R176) -/

def State.queue (s : State) (blk q : Nat) : QueueSt := SMap.get {} s.queues (blk * 4 + q)

def State.setQueue (s : State) (blk q : Nat) (x : QueueSt) : State := { s with queues := SMap.set {} s.queues (blk * 4 + q) x }

/-- An array entry. -/
def State.entry (s : State) (blk a : Nat) : Entry := SMap.get {} s.arrays (blk * 16384 + a)

def State.setEntry (s : State) (blk a : Nat) (x : Entry) : State := { s with arrays := SMap.set {} s.arrays (blk * 16384 + a) x }

/-- The seven check bits of an entry, over its tag and word (R149). -/
def Entry.check (e : Entry) : BitVec 7 := Config.secded ((BitVec.ofBool e.tag) ++ e.word)

/-- An entry's 48 bits as written: check bits, tag, word (R149). -/
def Entry.stored (e : Entry) : BitVec 48 := e.check ++ ((BitVec.ofBool e.tag) ++ e.word)

/-- The writes of a block's array in the present cycle `u`. -/
def MoverSt.writes (x : MoverSt) (u : Nat) : List ArrWrite := if x.wrCyc = u + 1 then x.wrs else []

/-- The write of entry `a` in the present cycle, if there is one. -/
def State.arrWrite (s : State) (blk a : Nat) : Option ArrWrite :=
  ((s.mover blk).writes (s.pane (blk / 6)).cycle).find? fun w => decide (w.addr = a)

/-- An entry as it stood at the start of the present cycle (R161, R162). -/
def State.entryStart (s : State) (blk a : Nat) : Entry := ((s.arrWrite blk a).map ArrWrite.old).getD (s.entry blk a)

/-- An entry as the transom window reads it: as it stood at the start of the cycle (R162), or as an earlier request of the window left
it. -/
def State.entryNet (s : State) (blk a : Nat) : Entry :=
  match s.arrWrite blk a with
  | some w => if w.who = 2 then s.entry blk a else w.old
  | none => s.entry blk a

/-- Write an entry in the present cycle: of the ports 0 and 1 and the transom window (2) the last in this order remains (R162); 3 is the
queue controller. -/
def State.storeEntry (s : State) (blk a who : Nat) (x : Entry) : State :=
  let u := (s.pane (blk / 6)).cycle; let mv := s.mover blk
  let log := fun (old : Entry) => s.setMover blk { mv with
    wrCyc := u + 1, wrs := ⟨a, who, old⟩ :: (mv.writes u).filter fun w => !decide (w.addr = a) }
  match s.arrWrite blk a with
  | some w => if who < w.who then s else (log w.old).setEntry blk a x
  | none => (log (s.entry blk a)).setEntry blk a x

/-- The WM_ERR register of a block. -/
def wmErr (blk : Nat) : Nat := R.WM_ERR (blk / 6 / 64) (blk / 6 % 64) (blk % 6)

/-- The check of an array read (R176): a single-bit error is corrected, written back and counted; a double-bit error sets UE and
captures the address at the first. -/
def State.checkEntry (s : State) (blk a : Nat) : State :=
  match (s.entry blk a).bad with
  | 0 => s
  | 1 => ((s.setEntry blk a { s.entry blk a with bad := 0 }).setFld (wmErr blk) F.WM_ERR.CE 1).addSat (wmErr blk) F.WM_ERR.CECNT 1
  | _ =>
    let s1 := if s.flag (wmErr blk) F.WM_ERR.UE then s else s.setFld (wmErr blk) F.WM_ERR.UEADR a
    s1.setFld (wmErr blk) F.WM_ERR.UE 1

/-! ### Queue operations -/

/-- The present cycle of the pane a block lies in. -/
def State.cyc (s : State) (pane : Nat) : Nat := (s.pane pane).cycle

/-- Positions taken at the start of the present cycle `u`: OCC + RSV (R153). -/
def QueueSt.startCount (x : QueueSt) (u : Nat) : Nat :=
  (x.slots.filter fun e => decide (e.made ≤ u)).length + (if x.goneCyc = u + 1 then x.goneN else 0)

/-- Positions taken in the present cycle, R153's b among them: a push counts against the transom's that come after it in the cycle. -/
def QueueSt.pushedNow (x : QueueSt) (u : Nat) : Nat := (x.slots.filter fun e => decide (e.made = u + 1)).length

/-- OCC: the entries present. -/
def QueueSt.occ (x : QueueSt) : Nat := (x.slots.filter fun e => e.filled).length

/-- RSV: the positions reserved and not filled. -/
def QueueSt.rsv (x : QueueSt) : Nat := (x.slots.filter fun e => !e.filled).length

/-- The position of the head that a consumer sees in cycle `u` (R155). -/
def QueueSt.visible (x : QueueSt) (u : Nat) : Option Nat :=
  match x.slots with
  | e :: _ => if e.filled ∧ e.acc < u then some e.pos else none
  | [] => none

/-- The position of the head as every rule but R155 counts it: present from the start of the cycle after its acceptance. -/
def QueueSt.present (x : QueueSt) (u : Nat) : Option Nat :=
  match x.slots with
  | e :: _ => if e.filled ∧ e.acc ≤ u then some e.pos else none
  | [] => none

/-- The next position of a region (R426). -/
def nextPos (region : Nat × Nat) (pos : Nat) : Nat :=
  (region.1 + ((pos + 16384 - region.1) % 16384 + 1) % region.2) % 16384

/-- The write position: an unmoved one stands at BASE (R426). -/
def State.writePos (s : State) (pane m q : Nat) : Nat :=
  let x := s.queue (pane * 6 + m) q
  ((s.qRegion pane m q).1 + x.wpos % (s.qRegion pane m q).2) % 16384

/-- Take the head off a queue: the read position moves on and OUT counts (R171). -/
def State.dropHead (s : State) (pane m q : Nat) : State :=
  let blk := pane * 6 + m; let x := s.queue blk q; let u := s.cyc pane
  s.setQueue blk q { x with
    slots := x.slots.tail, rpos := x.rpos + 1, cOut := x.cOut + 1
    goneCyc := u + 1, goneN := (if x.goneCyc = u + 1 then x.goneN else 0) + 1 }

/-- Take what a consumer finds at `head`: word, tag and whether it was a real entry; the idle word with tag 0 where it finds no head
(R155), else the head, checked (R176) and removed. -/
def State.takeHead (s : State) (pane m q : Nat) (head : Option Nat) : (Word × Bool × Bool) × State :=
  let blk := pane * 6 + m
  match head with
  | none => ((s.idleWord pane m q, false, false), s)
  | some pos => (((s.entry blk pos).word, (s.entry blk pos).tag, true), (s.checkEntry blk pos).dropHead pane m q)

/-- Pop for a consumer of the cell clock, which finds the head that R155 lets it see. -/
def State.popQueue (s : State) (pane m q : Nat) : (Word × Bool × Bool) × State :=
  s.takeHead pane m q ((s.queue (pane * 6 + m) q).visible (s.cyc pane))

/-- What an array read that delivers `e` finds (R176): an entry written in the same cycle is delivered as it stood before, and its correction
is not written back over the write. -/
def State.checkRead (s : State) (blk a : Nat) (e : Entry) : State :=
  if (s.arrWrite blk a).isNone then s.checkEntry blk a
  else match e.bad with
  | 0 => s
  | 1 => (s.setFld (wmErr blk) F.WM_ERR.CE 1).addSat (wmErr blk) F.WM_ERR.CECNT 1
  | _ =>
    let s1 := if s.flag (wmErr blk) F.WM_ERR.UE then s else s.setFld (wmErr blk) F.WM_ERR.UEADR a
    s1.setFld (wmErr blk) F.WM_ERR.UE 1

/-- Is there room for `n` more positions: beside those taken at the start of the cycle and those taken in it (R153)? -/
def State.hasRoom (s : State) (pane m q n : Nat) : Bool :=
  let x := s.queue (pane * 6 + m) q; let u := s.cyc pane
  decide (x.startCount u + x.pushedNow u + n ≤ (s.qRegion pane m q).2)

/-- What the binding itself has taken in the present cycle. -/
def QueueSt.boundNow (x : QueueSt) (u : Nat) : Nat := (x.slots.filter fun e => !e.net && decide (e.made = u + 1)).length

/-- Is there room for a push of the binding, which stands before the transom's of its cycle (R153)? -/
def State.bindRoom (s : State) (pane m q : Nat) : Bool :=
  let x := s.queue (pane * 6 + m) q; let u := s.cyc pane
  decide (x.startCount u + x.boundNow u < (s.qRegion pane m q).2)

/-- DPEND in cycle `u`: set, and not cleared at the end of an earlier cycle (R158). -/
def QueueSt.dpending (x : QueueSt) (u : Nat) : Bool := x.dpend && decide (x.dpEnd = 0 ∨ x.dpEnd = u + 1)

/-- Does the queue discard a push of the present cycle (R158)? -/
def State.discards (s : State) (pane m q : Nat) : Bool := (s.queue (pane * 6 + m) q).dpending (s.cyc pane)

/-- Put one word at the write position, which moves on (R426). `net`: the transom pushes it. -/
def State.appendWord (s : State) (pane m q : Nat) (w : Word) (tag net : Bool) : State :=
  let blk := pane * 6 + m; let u := s.cyc pane; let pos := s.writePos pane m q
  let s1 := s.storeEntry blk pos 3 { word := w, tag := tag }
  s1.setQueue blk q { s1.queue blk q with
    slots := (s1.queue blk q).slots ++ [{ pos := pos, filled := true, made := u + 1, acc := u + 1, net := net }]
    wpos := (s1.queue blk q).wpos + 1 }

/-- The transom's words of the present cycle at the end of a queue. -/
def QueueSt.netNow (x : QueueSt) (u : Nat) : List QSlot :=
  (x.slots.reverse.takeWhile fun e => e.net && e.filled && decide (e.made = u + 1)).reverse

/-- Store one accepted word, or discard it while DPEND is 1 (R158). A word of the producer binding stands before what the transom has
pushed in the same cycle (R153). -/
def State.acceptWord (s : State) (pane m q : Nat) (w : Word) (tag net : Bool) : State :=
  let blk := pane * 6 + m; let x := s.queue blk q; let u := s.cyc pane
  if x.dpending u then
    s.setQueue blk q { x with cIn := x.cIn + 1, cSlam := x.cSlam + 1, dpEnd := if tag then u + 1 else x.dpEnd }
  else
    let behind := if net then [] else x.netNow u
    let s1 := s.setQueue blk q { x with
      slots := x.slots.take (x.slots.length - behind.length), wpos := x.wpos - behind.length, cIn := x.cIn + 1
      dpend := false, dpEnd := 0 }
    let s2 := s1.appendWord pane m q w tag net
    behind.foldl (fun a e => a.appendWord pane m q (s.entry blk e.pos).word (s.entry blk e.pos).tag true) s2

/-- Count refused words (R171). The counters stay 0 while GSR is held (R179). -/
def State.refuse (s : State) (pane m q n : Nat) : State :=
  let blk := pane * 6 + m; let x := s.queue blk q
  if (SMap.get {} s.dies (pane / 64)).gsr then s.setQueue blk q { x with cRef := x.cRef + BitVec.ofNat 32 n } else s

/-- Note a push that found the queue full: a SLAM of the same cycle that leaves DPEND at 1 accepts it yet (R158). -/
def State.noteFull (s : State) (pane m q : Nat) (tag : Bool) : State :=
  let blk := pane * 6 + m; let x := s.queue blk q; let u := s.cyc pane
  let again := decide (x.refCyc = u + 1)
  s.setQueue blk q { x with refCyc := u + 1, refN := (if again then x.refN else 0) + 1, refTag := tag || (again && x.refTag) }

/-- A push by the producer binding (R153, R173): accepted, with the state after it, or refused and counted. -/
def State.pushQueue (s : State) (pane m q : Nat) (w : Word) (tag : Bool) : Bool × State :=
  if ¬ s.paneOpen pane then (false, s.refuse pane m q 1)
  else if s.discards pane m q ∨ s.bindRoom pane m q then (true, s.acceptWord pane m q w tag false)
  else (false, (s.refuse pane m q 1).noteFull pane m q tag)

/-- The entries of a queue up to and including the first with tag 1. -/
def State.uptoTag (s : State) (blk : Nat) : List QSlot → List QSlot
  | [] => []
  | e :: es => if (s.entry blk e.pos).tag then [e] else e :: s.uptoTag blk es

/-- A list without the first `n` elements that `p` names. -/
def dropFirst {α : Type} (p : α → Bool) : Nat → List α → List α
  | n + 1, e :: es => if p e then dropFirst p n es else e :: dropFirst p (n + 1) es
  | _, es => es

/-- Put back what entries held at the start of the cycle. -/
def State.restore (s : State) (blk : Nat) (as : List Nat) : State :=
  as.foldl (fun a p => a.setEntry blk p (a.entryStart blk p)) s

/-- SLAM on a queue (R157–R159): in PQUEUE mode the entries present up to the first with tag 1, or all of them and DPEND; in QUEUE mode
all of them. Reservations stay. A SLAM that sets DPEND also discards the pushes of its own cycle, those that found the queue full among
them (R158); they are stored nowhere (R426). DESIGN CHOICE (log entry 98): a reservation that the line mover filled in the cycle is no push
and stays, and so does one filled while DPEND is 1. -/
def State.slamQueue (s : State) (pane m q : Nat) : State :=
  let blk := pane * 6 + m; let x := s.queue blk q; let u := s.cyc pane
  let pres := x.slots.filter fun e => e.filled && decide (e.acc ≤ u)
  let packet := decide (s.wmCfg pane m F.WM_CFG.MODE = 4)
  let cut := if packet then s.uptoTag blk pres else pres
  let whole := pres.any fun e => (s.entry blk e.pos).tag
  let sets := packet && !whole && !x.dpending u
  let now := fun (e : QSlot) => !e.resv && e.filled && decide (e.made = u + 1 ∧ u < e.acc)
  let late := if sets then x.slots.filter now else []
  let full := if sets ∧ x.refCyc = u + 1 then x.refN else 0
  let left := dropFirst (fun e => e.filled && decide (e.acc ≤ u)) cut.length x.slots
  let ends := late.any (fun e => (s.entry blk e.pos).tag) || (decide (0 < full) && x.refTag)
  (s.restore blk (late.map QSlot.pos)).setQueue blk q { x with
    slots := if sets then left.filter fun e => !now e else left
    rpos := x.rpos + cut.length, wpos := x.wpos - late.length
    cIn := x.cIn + BitVec.ofNat 32 full, cRef := x.cRef - BitVec.ofNat 32 full, refN := x.refN - full
    cSlam := x.cSlam + BitVec.ofNat 32 (cut.length + late.length + full)
    dpend := sets || x.dpending u, dpEnd := if sets then (if ends then u + 1 else 0) else x.dpEnd
    goneCyc := u + 1, goneN := (if x.goneCyc = u + 1 then x.goneN else 0) + cut.length }

/-! ### RAM ports (R160, R161) -/

def State.port (s : State) (blk i : Nat) : PortSt := SMap.get {} s.ports (blk * 2 + i)

def State.setPort (s : State) (blk i : Nat) (x : PortSt) : State := { s with ports := SMap.set {} s.ports (blk * 2 + i) x }

/-- Request words the port holds, as a push in cycle `u` counts them: a write takes an address word and a data word, and what is served in
the cycle itself makes no room (R44, R160). -/
def PortSt.used (x : PortSt) (u : Nat) : Nat :=
  (x.reqs.map fun r => if r.write then 2 else 1).sum + (if x.addr.isSome then 1 else 0) + (if x.goneCyc = u + 1 then x.goneN else 0)

/-- Pending reads and responses held, those popped in cycle `u` itself counted (R44, R160). -/
def PortSt.reads (x : PortSt) (u : Nat) : Nat :=
  (x.reqs.filter fun r => !r.write).length + x.resps.length + (if x.popCyc = u + 1 then x.popN else 0)

/-- A push to a RAM port (Table 7.6). -/
def State.pushPort (s : State) (pane m i : Nat) (w : Word) (tag : Bool) : Bool × State :=
  let blk := pane * 6 + m; let x := s.port blk i; let u := s.cyc pane
  if ¬ s.paneOpen pane ∨ 4 ≤ x.used u then (false, s)
  else match x.addr with
    | some a => (true, s.setPort blk i { x with reqs := x.reqs ++ [⟨true, a, w, tag, u⟩], addr := none })
    | none =>
      if tag then (true, s.setPort blk i { x with addr := some (w.toNat % 16384) })
      else if 4 ≤ x.reads u then (false, s)
      else (true, s.setPort blk i { x with reqs := x.reqs ++ [⟨false, w.toNat % 16384, 0, false, u⟩] })

/-- A pop of a RAM port's response queue; the idle word of queue 0 or 1 where it is empty (R161). -/
def State.popPort (s : State) (pane m i : Nat) : (Word × Bool × Bool) × State :=
  let blk := pane * 6 + m; let x := s.port blk i; let u := s.cyc pane
  match x.resps with
  | r :: rs => if r.cyc ≤ u then ((r.word, r.tag, true),
                 s.setPort blk i { x with resps := rs, popCyc := u + 1, popN := (if x.popCyc = u + 1 then x.popN else 0) + 1 })
               else ((s.idleWord pane m i, false, false), s)
  | [] => ((s.idleWord pane m i, false, false), s)

/-- Pop, and push, by a bound client of queue or port `q`. -/
def State.popBound (s : State) (pane m q : Nat) : (Word × Bool × Bool) × State :=
  if s.queueMode pane m then s.popQueue pane m q else s.popPort pane m q

/-- Pop by an engine port. R135 bounds, in engine edges, when it finds a pushed word: no later than the third; DESIGN CHOICE (log entry 159):
at the first that follows the edge which ended the push's cell cycle. -/
def State.popEngine (s : State) (pane m q : Nat) : (Word × Bool × Bool) × State :=
  if s.queueMode pane m then s.takeHead pane m q ((s.queue (pane * 6 + m) q).present (s.cyc pane)) else s.popPort pane m q

def State.pushBound (s : State) (pane m q : Nat) (w : Word) (tag : Bool) : Bool × State :=
  if s.queueMode pane m then s.pushQueue pane m q w tag else s.pushPort pane m q w tag

end Sys2Proof.Machine
end

