-- ==== Sys2Proof/Machine/Panes.lean ====
section
/-!
DEFINITION. A pane's cycle: its schedule (R32–R36), its routing selections (R79–R83), and what the edge that ends a cycle does to
the registers of its lines, its latches and its slot counter.
-/
namespace Sys2Proof.Machine

/-! ### The schedule -/

/-- Code of slot `i` of a pane's live schedule. -/
def State.slotCode (s : State) (pane i : Nat) : Nat :=
  bitsOf (s.live pane (R.PANE_LVSCHED (pane / 64) (pane % 64))).toNat (4 * i + 3) (4 * i)

/-- The slot codes before the first END (Table 2.4, R33). -/
def State.slotCodes (s : State) (pane : Nat) : List Nat :=
  ((List.range 8).map (s.slotCode pane)).takeWhile fun c => decide (c ≠ 15)

/-- The schedule the pane runs (R33, R34): one idle slot where SLOT0 holds END or a reserved code stands before the first END. -/
def State.schedule (s : State) (pane : Nat) : List Nat :=
  let cs := s.slotCodes pane
  if cs = [] ∨ cs.any (fun c => decide (8 < c)) then [8] else cs

/-- The code of the pane's present slot; 8 (idle) while its cells do not run (R50). -/
def State.slotNow (s : State) (pane : Nat) : Nat :=
  if s.paneRuns pane then (s.schedule pane).getD ((s.pane pane).slot % (s.schedule pane).length) 8 else 8

/-- What the SEQ of a cell's previous instruction chose for the present cycle (R36): it lapses unless that instruction ran in the
cycle before, and at a commit (R51). -/
def State.redirNow (s : State) (pane key : Nat) : Redir :=
  if (s.cell key).ran = s.cyc pane ∧ s.cyc pane ≠ 0 ∧ (s.pane pane).lapse ≠ s.cyc pane + 1 then (s.cell key).redir else .next

/-- A louvre about to be issued: which louvre of the cell (none for a NOP that SEQ chose) and its 48 bits. -/
structure Issue where
  lv : Option Nat
  word : BitVec 48
  deriving DecidableEq, Repr

/-- What a cell issues in the present cycle (Table 2.5 step 1); none in an idle slot. -/
def State.issued (s : State) (pane tile c : Nat) : Option Issue :=
  let slot := s.slotNow pane
  let get := fun k => (⟨some k, s.louvreAt (s.liveCopy pane) pane tile c k⟩ : Issue)
  if 8 ≤ slot then none
  else match s.redirNow pane (cellKey pane tile c) with
    | .next => some (get slot)
    | .nop => some ⟨none, 0⟩
    | .louvre k => some (get k.val)

/-! ### Routing -/

/-- OUT of a cell as it stood at the start of the present cycle (R37). -/
def State.outStart (s : State) (pane tile c : Nat) : Word :=
  let x := s.cell (cellKey pane tile c)
  if x.ran = s.cyc pane + 1 then x.outPrev else x.out

/-- A field of a tile's routing record in the live bank (Tables 4.4, 14.5): bits `ofs` onward, `w` of them. -/
def State.routeField (s : State) (pane tile ofs w : Nat) : Nat :=
  s.frameBits (s.liveCopy pane) (paneFrame pane 1 (tile / 8) (tile % 8 / 4)) (544 * (tile % 4) + ofs) w

def State.rowSel (s : State) (pane tile i : Nat) : Nat := s.routeField pane tile (5 * i) 5
def State.colSel (s : State) (pane tile i : Nat) : Nat := s.routeField pane tile (40 + 7 * i) 7
def State.pSel (s : State) (pane tile j : Nat) : Nat := s.routeField pane tile (96 + 8 * j) 8
def State.busEn (s : State) (pane tile w : Nat) : Nat := s.routeField pane tile (352 + 2 * w) 2
def State.busSrc (s : State) (pane tile w : Nat) : Nat := s.routeField pane tile (384 + 5 * w) 5
def State.busEc (s : State) (pane tile w : Nat) : Nat := s.routeField pane tile (464 + 5 * w) 5

/-- Row line `j` of a tile row, column line `j` of a tile column, wire `w` of a tile row, as seen in the present cycle. -/
def PaneSt.rowLine (x : PaneSt) (r j : Nat) : Word := SMap.get 0 x.row (64 * r + j)
def PaneSt.colLine (x : PaneSt) (c j : Nat) : Word := SMap.get 0 x.col (64 * c + j)
def PaneSt.wire (x : PaneSt) (r w : Nat) : Word := SMap.get 0 x.bus (16 * r + w)

/-- The word of input P`m` of cluster `k` of a logic tile (R79, Table 4.2). -/
def State.pInput (s : State) (pane tile k m : Nat) : Word :=
  let code := s.pSel pane tile (8 * k + m); let x := s.pane pane
  if code < 0x20 then s.outStart pane tile code
  else if code < 0x60 then x.rowLine (tile / 8) (code - 0x20)
  else if code < 0xA0 then x.colLine (tile % 8) (code - 0x60)
  else if code < 0xB0 then x.wire (tile / 8) (code - 0xA0)
  else if code < 0xB8 then SMap.get 0 x.latch (code - 0xB0)
  else 0

/-- What column output `i` of a tile captures (Table 4.3). -/
def State.colSource (s : State) (pane tile i : Nat) : Word :=
  let code := s.colSel pane tile i; let x := s.pane pane
  if code < 0x20 then (if tile % 8 = 4 then 0 else s.outStart pane tile code)
  else if code < 0x60 then x.rowLine (tile / 8) (code - 0x20)
  else if code < 0x70 then x.wire (tile / 8) (code - 0x60)
  else 0

/-- Is the driver of tile column `c` on wire `w` of tile row `r` enabled in the present cycle (Table 4.6)? -/
def State.driverOn (s : State) (pane r w c : Nat) : Bool :=
  let tile := 8 * r + c
  decide (c ≠ 4) &&
  match s.busEn pane tile w with
  | 1 => true
  | 2 => (s.outStart pane tile (s.busEc pane tile w)).getLsbD 0
  | _ => false

/-- The enabled drivers of a wire, by tile column, lowest first. -/
def State.drivers (s : State) (pane r w : Nat) : List Nat := (List.range 8).filter (s.driverOn pane r w)

/-- What the register of a wire captures (R81). -/
def State.wireSource (s : State) (pane r w : Nat) : Word :=
  match s.drivers pane r w with
  | c :: _ => s.outStart pane (8 * r + c) (s.busSrc pane (8 * r + c) w)
  | [] => 0

/-! ### Capture registers (R47) -/

/-- The capture of R47 into a register with VALID [31], MORE [30] and COUNT [29:22]: `loc` replaces the location fields when
VALID is 0; COUNT takes `n` more. -/
def State.capture (s : State) (off : Nat) (mask loc : HWord) (n : Nat) : State :=
  let v := s.reg off
  let v1 := if v.getLsbD 31 then v ||| 0x40000000 else (v &&& ~~~mask) ||| (loc &&& mask) ||| 0x80000000
  (s.setReg off v1).addSat off F.PANE_LVERR.COUNT n

/-- The wires of a pane that see contention in the present cycle (R82): 16·row + wire, lowest first. -/
def State.contended (s : State) (pane : Nat) : List Nat :=
  (List.range 128).filter fun x => decide (2 ≤ (s.drivers pane (x / 16) (x % 16)).length)

/-- Record this cycle's contention (R83). -/
def State.recordContention (s : State) (pane : Nat) : State :=
  match s.contended pane with
  | [] => s
  | x :: xs =>
    let drv := ((s.drivers pane (x / 16) (x % 16)).map (2 ^ ·)).sum
    s.capture (R.PANE_BUSCON (pane / 64) (pane % 64)) 0x3FFFF8
      (BitVec.ofNat 32 (x / 16 * 2 ^ 15 + x % 16 * 2 ^ 11 + drv * 2 ^ 3)) (xs.length + 1)

/-! ### The edge that ends a cycle -/

/-- A sparse map of the values `f` gives at the keys below `n`. -/
def captureAll (n : Nat) (f : Nat → Word) : SMap Word :=
  (List.range n).filterMap fun k => if f k = 0 then none else some (k, f k)

/-- Gate a pane: its clocks stop (R85). -/
def State.gate (s : State) (pane : Nat) : State :=
  let r := R.PANE_CLK (pane / 64) (pane % 64)
  ((s.setFld r F.PANE_CLK.LOCK 0).setFld r F.PANE_CLK.GATED 1).setPane pane
    { s.pane pane with gatePend := false, relocking := false }

end Sys2Proof.Machine
end

