-- ==== Sys2Proof/Machine/Operands.lean ====
section
/-!
DEFINITION. The louvre word (Table 3.1), the operand forms of the word cell (Tables 2.6, 3.2), its conditions (Table 3.4), the
legality of a louvre (Table 3.7, R73) and the wide-multiplexer cascade (R40, R41).
-/
namespace Sys2Proof.Machine

/-! ### Fields of a louvre (Table 3.1) -/

def lvOp (l : BitVec 48) : Nat := bitsOf l.toNat 47 41
def lvLane (l : BitVec 48) : Nat := bitsOf l.toNat 40 38
def lvA (l : BitVec 48) : Nat := bitsOf l.toNat 37 33
def lvB (l : BitVec 48) : Nat := bitsOf l.toNat 32 28
def lvC (l : BitVec 48) : Nat := bitsOf l.toNat 27 23
def lvDst (l : BitVec 48) : Nat := bitsOf l.toNat 22 20
def lvCond (l : BitVec 48) : Nat := bitsOf l.toNat 19 16
def lvImm (l : BitVec 48) : Nat := bitsOf l.toNat 15 4
def lvSeq (l : BitVec 48) : Nat := bitsOf l.toNat 3 0

/-! ### The opcode map (Table 3.7) -/

/-- A row of Table 3.7: modes permitted (W, D, S, O), which operands are used, whether IMM is a control field, whether DST is
used. -/
structure OpRow where
  modes : List Nat
  a : Bool
  b : Bool
  c : Bool
  ctl : Bool
  dst : Bool
  deriving DecidableEq, Repr

/-- The row of an opcode; operand use as `l`'s control field makes it (a variable shift reads b, a variable FSH reads c). -/
def opRow (l : BitVec 48) : Option OpRow :=
  let any := [0, 1, 2, 3]
  let var := (lvImm l).testBit 11
  let ab : OpRow := ⟨any, true, true, false, false, true⟩
  let abc : OpRow := ⟨any, true, true, true, false, true⟩
  match lvOp l with
  | 0x00 => some ⟨any, false, false, false, false, false⟩
  | 0x01 => some ⟨any, false, false, false, true, false⟩
  | 0x02 => some ⟨any, false, false, false, false, true⟩
  | 0x03 => some ⟨any, true, false, false, false, true⟩
  | 0x04 => some ⟨[0], true, false, false, true, true⟩
  | 0x08 | 0x09 | 0x0A | 0x0B | 0x0C | 0x0D | 0x0E | 0x0F | 0x10 | 0x11 | 0x12 | 0x13 | 0x14 => some ab
  | 0x15 | 0x16 => some abc
  | 0x18 | 0x19 => some { ab with dst := false }
  | 0x1A => some { ab with ctl := true }
  | 0x20 | 0x21 | 0x22 | 0x23 => some ab
  | 0x24 => some { abc with ctl := true }
  | 0x28 | 0x29 | 0x2A | 0x2B => some ⟨any, true, var, false, true, true⟩
  | 0x2C => some ⟨[0], true, true, var, true, true⟩
  | 0x30 | 0x31 => some ⟨[0], true, false, false, true, true⟩
  | 0x32 => some ⟨[0], true, true, false, true, true⟩
  | 0x34 => some ⟨[1], true, false, false, true, true⟩
  | 0x35 => some ⟨[2], true, true, false, true, true⟩
  | 0x38 => some ⟨[0, 2], true, true, false, true, true⟩
  | 0x39 => some ⟨[0], true, true, true, true, true⟩
  | 0x3C => some ⟨[0], true, true, true, true, true⟩
  | 0x40 => some ⟨any, false, false, false, false, true⟩
  | 0x41 | 0x42 => some ⟨any, true, false, false, false, false⟩
  | 0x43 => some ⟨any, false, false, false, false, false⟩
  | _ => none

/-- Does a reserved bit, or a value the chapter calls illegal, stand in the control field (R73 cause 4)? -/
def immIllegal (l : BitVec 48) : Bool :=
  let i := lvImm l
  match lvOp l with
  | 0x01 => decide (bitsOf i 11 2 ≠ 0)
  | 0x1A => decide (bitsOf i 11 4 ≠ 0 ∨ bitsOf i 2 0 > 4)
  | 0x24 => decide (bitsOf i 11 8 ≠ 0)
  | 0x28 | 0x29 | 0x2A | 0x2B => decide (bitsOf i 10 6 ≠ 0)
  | 0x2C => decide (bitsOf i 10 6 ≠ 0 ∨ (bitsOf i 11 11 = 0 ∧ bitsOf i 5 0 > 40))
  | 0x30 | 0x31 | 0x32 => let u := bitsOf i 11 6; decide (u = 0 ∨ u > 40 ∨ bitsOf i 5 0 + u > 40)
  | 0x34 => decide (bitsOf i 11 2 ≠ 0)
  | 0x35 => decide (bitsOf i 11 6 ≠ 0 ∨ bitsOf i 1 0 = 3)
  | 0x38 => if lvLane l = 0 then decide (bitsOf i 10 0 ≠ 0) else decide (bitsOf i 10 5 ≠ 0 ∨ bitsOf i 4 0 ≥ 20)
  | 0x39 => decide (bitsOf i 10 0 ≠ 0)
  | 0x3C => decide (bitsOf i 1 0 ≠ 0)
  | _ => false

/-- The operand codes an instruction uses, the fourth cascade source among them (R54, R69). -/
def usedCodes (l : BitVec 48) (row : OpRow) : List Nat :=
  (if row.a then [lvA l] else []) ++ (if row.b then [lvB l] else []) ++ (if row.c then [lvC l] else []) ++
    (if lvOp l = 0x3C then [bitsOf (lvImm l) 11 7] else [])

/-- The lowest cause of R73 that makes a louvre illegal, or none. -/
def illegalCause (l : BitVec 48) : Option Nat :=
  if lvOp l = 0 then none
  else match opRow l with
  | none => some 0
  | some row =>
    if ¬ row.modes.contains (lvLane l) then some 1
    else if (usedCodes l row).any (fun x => decide (24 ≤ x)) then some 2
    else if row.ctl ∧ (usedCodes l row).contains 20 then some 3
    else if immIllegal l then some 4
    else none

/-! ### Operand values -/

/-- The immediate as an operand (Table 3.2). -/
def immValue (mode imm : Nat) : Word :=
  match mode with
  | 0 => BitVec.ofInt 40 (signedOf 12 imm)
  | 1 => pack 1 fun _ => wrapTo 20 (signedOf 12 imm)
  | 2 => pack 2 fun _ => imm
  | _ => pack 3 fun _ => imm

/-- What a consumer client finds at its queue or port in the present cycle: word, tag, and whether it is a real entry (R155, R161);
nothing is removed. -/
def State.peekBound (s : State) (pane m q : Nat) : Word × Bool × Bool := (s.popBound pane m q).1

/-- What source 23 delivers to a cell: word, tag, and whether it is a real entry; 0 where the binding is unbound (R42, R44). -/
def State.queueHead (s : State) (pane tc : Nat) : Word × Bool × Bool :=
  let b := s.cellBinding pane tc false
  if s.served pane b false (.cell tc) then s.peekBound pane b.2.1 b.2.2 else (0, false, false)

/-- The value of a source code in the present cycle (Table 2.6). -/
def State.source (s : State) (pane tile c mode imm code : Nat) : Word :=
  let x := s.cell (cellKey pane tile c)
  if code = 0 then x.q0 else if code = 1 then x.q1 else if code = 2 then x.q2 else if code = 3 then x.q3
  else if code < 12 then s.outStart pane tile (c / 8 * 8 + (code - 4))
  else if code < 20 then s.pInput pane tile (c / 8) (code - 12)
  else if code = 20 then immValue mode imm
  else if code = 22 then s.outStart pane tile c
  else if code = 23 then (s.queueHead pane (32 * tile + c)).1
  else 0

/-! ### Conditions (Table 3.4) -/

/-- Does a condition hold, with the flags as they stood at the start of the cycle (R57)? -/
def condHolds (x : CellSt) (mode cond : Nat) : Bool :=
  let za := (List.range (laneN mode)).all fun j => x.z.getLsbD j
  match cond with
  | 0 => true
  | 1 => x.z.getLsbD 0 | 2 => !x.z.getLsbD 0
  | 3 => x.c.getLsbD 0 | 4 => !x.c.getLsbD 0
  | 5 => x.n.getLsbD 0 | 6 => !x.n.getLsbD 0
  | 7 => x.v.getLsbD 0 | 8 => !x.v.getLsbD 0
  | 9 => za | 10 => !za
  | 11 => decide (x.sat ≠ 0)
  | 12 => !x.qi | 13 => x.qi
  | 14 => x.qr
  | _ => x.qt

/-- The redirection a SEQ code settles, with the flags as they stand at the end of the cycle (Table 3.5); `lv` is the louvre
executed. -/
def seqRedir (x : CellSt) (seq : Nat) (lv : Option Nat) : Redir :=
  let again : Redir := match lv with | some k => .louvre (Fin.ofNat 8 k) | none => .nop
  match seq with
  | 0 => .next
  | 1 => .nop
  | 2 => if x.z.getLsbD 0 then .nop else .next
  | 3 => if x.z.getLsbD 0 then .next else .nop
  | 4 => if x.qi then .nop else .next
  | 5 => if x.qt then .nop else .next
  | 6 => again
  | 7 => if x.qr then again else .next
  | k => .louvre (Fin.ofNat 8 (k - 8))

/-! ### The cascade (R40, R41) -/

/-- Is a cell executing a legal cascade operation in the present cycle? -/
def State.cascading (s : State) (pane tile c : Nat) : Option (BitVec 48) :=
  match s.issued pane tile c with
  | some ⟨some k, l⟩ =>
    if lvOp l = 0x3C ∧ illegalCause l = none ∧ s.lvParAt (s.liveCopy pane) pane tile c k = louvreParity l then some l else none
  | _ => none

/-- Line `i` of the cascade set of a cell: what it drove if it has executed in this cycle, else what its louvre will drive. -/
def State.cascadeLine (s : State) (pane tile c i : Nat) : Word :=
  if (s.cell (cellKey pane tile c)).ran = s.cyc pane + 1 then (s.cell (cellKey pane tile c)).casc.getD i 0
  else match s.cascading pane tile c with
  | none => 0
  | some l =>
    let code := match i with | 0 => lvA l | 1 => lvB l | 2 => lvC l | _ => bitsOf (lvImm l) 11 7
    s.source pane tile c 0 (lvImm l) code

/-- The word a participating cell selects. -/
def State.cascadeResult (s : State) (pane tile c : Nat) (imm : Nat) : Word :=
  let g := 2 ^ bitsOf imm 6 5
  let n := c % 8; let b := g * (n / g)
  let x := (s.outStart pane tile (c / 8 * 8 + bitsOf imm 4 2)).toNat % 32
  let i := x % (4 * g)
  s.cascadeLine pane tile (c / 8 * 8 + b + i / 4) (i % 4)

/-- SLAM by a bound consumer (R157). A push of the same cycle that found the queue full, and that DPEND now accepts, leaves QR at 0 in the
cell that made it, and the SEQ of that cell's instruction follows (R36, R158); the predicate of an SPUSH that did not wait becomes 1. One that
waits is issued in the next cycle (log entry 147). -/
def State.slamBound (s : State) (pane m q : Nat) : State :=
  let blk := pane * 6 + m; let u := s.cyc pane
  let s1 := s.slamQueue pane m q
  if (s1.queue blk q).refN = (s.queue blk q).refN then s1
  else match s.clientOf pane m q true with
    | some (.cell tc) =>
      let key := cellKey pane (tc / 32) (tc % 32); let x := s1.cell key
      let seq := lvSeq (s1.louvreAt (s1.liveCopy pane) pane (tc / 32) (tc % 32) x.lastLv)
      if x.ran = u + 1 then s1.setCell key { x with qr := false, redir := if seq = 7 then .next else x.redir } else s1
    | some (.port e _) =>
      let x : EngSt := SMap.get {} s1.engs (2 * pane + e)
      if x.refCyc = u + 1 ∧ x.refP ≠ 0 then
        { s1 with engs := SMap.set {} s1.engs (2 * pane + e) { x with p := x.p ||| (1#8 <<< x.refP) } }
      else s1
    | _ => s1

end Sys2Proof.Machine
end

