-- ==== Sys2Proof/Machine/Access.lean ====
section
/-!
DEFINITION. A BAR0 write of a host word to a register as its type codes ask (R7, R9), the lock bits of LK fields, the member an ST
field belongs to (R111), and the refusal of writes to a shadow (R78, R114).
-/
namespace Sys2Proof.Machine

/-- The shutter member an ST field of the register belongs to (R110, R111). -/
def stMember (k : RegKind) (ix : List Nat) : Option Nat :=
  match k, ix with
  | .PANE_LVSCHED, [d, p] => some (paneId d p)
  | .PANE_CHIN, [d, p, _] => some (paneId d p)
  | .PANE_CHOUT, [d, p, _] => some (paneId d p)
  | .WM_CFG, [d, p, _] => some (paneId d p)
  | .WM_QCFG, [d, p, _, _] => some (paneId d p)
  | .WM_QIDLE_L, [d, p, _, _] => some (paneId d p)
  | .WM_QIDLE_H, [d, p, _, _] => some (paneId d p)
  | .WM_MVCFG, [d, p, _] => some (paneId d p)
  | .WM_MVBASE_L, [d, p, _] => some (paneId d p)
  | .WM_MVBASE_H, [d, p, _] => some (paneId d p)
  | .WM_MVLSTR, [d, p, _] => some (paneId d p)
  | .WM_MVFSTR, [d, p, _] => some (paneId d p)
  | .TR_PPRI, [d, p] => some (paneId d p)
  | .ENG_CFG, [d, e] => some (engMember d e)
  | .ENG_SPB, [d, e, _] => some (engMember d e)
  | .LANE_TX, [d, l] => some (laneMember d l)
  | .LANE_CTLE, [d, l] => some (laneMember d l)
  | .LANE_QB, [d, l] => some (laneMember d l)
  | .DDR_QOS, [c] => some (ddrMember c)
  | .PIN_CFG, [k] => some (pinMember (k / 16))
  | .PIN_TALLY, [b] => some (pinMember b)
  | .FPIN_CFG, [d, _] => some (pinMember (4 + d))
  | _, _ => none

/-- STATE of domain `t`: 1 ARMED (Table 5.9). -/
def State.armState (s : State) (t : Nat) : Nat := s.fld (R.SHT_STATUS t) F.SHT_STATUS.STATE

/-- Is the register's lock bit set, so that its LK fields ignore a write (Table 0.5)? -/
def State.lkLocked (s : State) (k : RegKind) (ix : List Nat) : Bool :=
  match k, ix with
  | .PANE_CLK, [d, p] => s.flag (R.PANE_CLK d p) F.PANE_CLK.LOCK
  | .SHT_SET, [t, _] => decide (s.armState t = 1)
  | .LANE_CFG, [d, l] => s.flag (R.LANE_STAT d l) F.LANE_STAT.RUN
  | .LANE_NCFG, [d, l] => s.flag (R.LANE_STAT d l) F.LANE_STAT.RUN
  | .LANE_QCLK, [d, q] => s.flag (R.LANE_QCLK d q) F.LANE_QCLK.QRUN
  | .HCQ_CFG, [q] => s.flag (R.HCQ_STAT q) F.HCQ_STAT.RUN
  | .HCQ_SQB_L, [q] => s.flag (R.HCQ_STAT q) F.HCQ_STAT.RUN
  | .HCQ_SQB_H, [q] => s.flag (R.HCQ_STAT q) F.HCQ_STAT.RUN
  | .HCQ_CQB_L, [q] => s.flag (R.HCQ_STAT q) F.HCQ_STAT.RUN
  | .HCQ_CQB_H, [q] => s.flag (R.HCQ_STAT q) F.HCQ_STAT.RUN
  | .DDR_MAP, [] => s.flag R.DDR_MAP F.DDR_MAP.LOCK
  | .DDR_CFG, [c] => s.flag (R.DDR_STATUS c) F.DDR_STATUS.LOCK
  | .UCL_CTL, [] => s.flag R.UCL_CTL F.UCL_CTL.EN
  | _, _ => false

/-- Does no inbound channel of the pane hold an item tagged with its shadow bank (R98)? DESIGN CHOICE (log entry 99): where R78's "never
reads 0 ... under GSR" and R98's "exactly when" disagree, R98 is followed. -/
def State.drained (s : State) (pane : Nat) : Bool :=
  let shadow := !SMap.get false s.bank pane
  (List.range 64).all fun k =>
    match inboundOf pane k with
    | none => true
    | some (sp, sk, _) =>
      let ch := s.chan sp sk
      (ch.near ++ ch.again ++ ch.fly ++ ch.far).all fun it => it.bank != shadow

/-- Note a refused write to the shadow of member `m` (R78, R114). -/
def State.noteRefused (s : State) (m : Nat) : State :=
  let t := SMap.get 0 s.armedBy m
  let s1 := if t ≠ 0 then s.setFld (R.SHT_STATUS ((t - 1) % 8)) F.SHT_STATUS.WREJ 1 else s
  if m < 0x100 then s1.setFld (R.PANE_CTX (m / 64) (m % 64)) F.PANE_CTX.WREJ 1 else s1

/-- Does member `m` refuse a write to its shadow: armed (R114), or a pane that is not drained (R78)? -/
def State.shadowBusy (s : State) (m : Nat) : Bool :=
  decide (SMap.get 0 s.armedBy m ≠ 0) || (decide (m < 0x100) && !s.drained m)

/-- Write the ST fields of a register to the shadow, or refuse. -/
def State.writeStaged (s : State) (m off : Nat) (mask v : HWord) : State :=
  if s.shadowBusy m then s.noteRefused m
  else s.setStAt (1 - s.liveCopy m) off ((s.staged m off &&& ~~~mask) ||| (v &&& mask))

/-- The fabric die whose block an offset lies in. -/
def dieOf (off : Nat) : Option Nat := if 0x1000000 ≤ off ∧ off < 0x2000000 then some ((off - 0x1000000) / 0x400000) else none

/-- Is the register at `off` absent or dark: a die parked or undiscovered (R422), an absent hinge port (R14), an absent channel
(R86), the companion link of an HVX4-460 (R1)? -/
def State.absent (s : State) (off : Nat) (k : RegKind) (ix : List Nat) : Bool :=
  (match dieOf off with | some d => s.dieDark d | none => false) ||
  (match k, ix with
   | .PANE_CHIN, [d, p, i] => (nbr (paneId d p) (i / 16)).isNone
   | .PANE_CHOUT, [d, p, i] => (nbr (paneId d p) (i / 16)).isNone
   | .PANE_CHSTAT, [d, p, i] => (nbr (paneId d p) (i / 16)).isNone
   | .UCL_CTL, _ => decide (s.fld R.HUB_PARTID F.HUB_PARTID.VARIANT ≠ 1)
   | .UCL_STAT, _ => decide (s.fld R.HUB_PARTID F.HUB_PARTID.VARIANT ≠ 1)
   | _, _ => decide (0x1980000 ≤ off ∧ off < 0x1983000 ∧ (off - 0x1980000) / 0x1000 = 2) ||
             decide (0x1D80000 ≤ off ∧ off < 0x1D83000 ∧ (off - 0x1D80000) / 0x1000 = 2))

/-- The bits of SHT_SET that name members; the rest read as 0 and ignore writes (R110). -/
def setMapBits (k : RegKind) (ix : List Nat) : HWord :=
  match k, ix with
  | .SHT_SET, [_, i] => if i < 28 then 0xFFFFFFFF else if i = 28 then 0xFFFF else 0
  | _, _ => 0xFFFFFFFF

/-- The write of a host word to a register by its type codes alone (R7, R9): RW, LK where unlocked, W1C and W1S bits act, ST bits go to
the shadow, and everything else is ignored. -/
def State.writeReg (s : State) (off : Nat) (v : HWord) : State :=
  match regAt off with
  | none => s
  | some (row, ix) =>
    if s.absent off row.kind ix then s
    else
      let mask := row.rw ||| (if s.lkLocked row.kind ix then 0 else row.lk &&& setMapBits row.kind ix)
      let r := s.reg off
      let clr : HWord := if row.kind = .DB_WDT ∧ v &&& 0xFFFF ≠ 0 then 0xFFFF else 0
      let r1 := ((r &&& ~~~mask) ||| (v &&& mask)) &&& ~~~((v &&& row.w1c) ||| (clr &&& row.w1c)) ||| (v &&& row.w1s)
      let s1 := if r1 = r then s else s.setReg off r1
      match stMember row.kind ix with
      | some m => s1.writeStaged m off row.st v
      | none => s1

end Sys2Proof.Machine
end

