-- ==== Sys2Proof/Machine/Flits.lean ====
section
/-!
DEFINITION. Transom packets and their flits (R182–R184, R190, R174): the codes of a header unit, its bits, the data units, byte parity,
and the packet that a run of flits spells.
-/
namespace Sys2Proof.Machine

/-- CMD codes (Table 8.4). -/
def cRD : Fin 16 := 0
def cWR : Fin 16 := 1
def cWRP : Fin 16 := 2
def cRDLK : Fin 16 := 3
def cWRUL : Fin 16 := 4
def cADD : Fin 16 := 5
def cSWAP : Fin 16 := 6
def cMSG : Fin 16 := 7
def cLKUP : Fin 16 := 8
def cCPL : Fin 16 := 14
def cCPLE : Fin 16 := 15

/-- CPLE causes (Table 8.5). -/
def eUNSUP : Fin 8 := 1
def eRANGE : Fin 8 := 2
def eREFUSED : Fin 8 := 3
def eDATA : Fin 8 := 4
def eBOARDED : Fin 8 := 5
def eTIMEOUT : Fin 8 := 6

/-- WRP and MSG have no completion (R183). -/
def posted (c : Fin 16) : Bool := decide (c = cWRP ∨ c = cMSG)

/-- Is the packet a completion? -/
def isCompletion (c : Fin 16) : Bool := decide (c = cCPL ∨ c = cCPLE)

/-- Flits of a packet: its header unit and its data units (Table 8.4). -/
def flitsOf (pk : Packet) : Nat :=
  1 + (if pk.cmd = cWR ∨ pk.cmd = cWRP ∨ pk.cmd = cMSG ∨ pk.cmd = cWRUL ∨ pk.cmd = cCPL then (pk.len.val + 3) / 4 else 0)

/-- The virtual channel of a packet (R190). -/
def vcOf (pk : Packet) : Nat := (if isCompletion pk.cmd then 4 else 0) + pk.prio.val

/-- The parity bits that payload word `k` carries. -/
def parOf (pk : Packet) (k : Nat) : BitVec 5 := pk.par.getD k (byteParity (pk.data.getD k 0))

/-- Does payload word `k` fail byte parity? -/
def failsAt (pk : Packet) (k : Nat) : Bool := decide (parOf pk k ≠ byteParity (pk.data.getD k 0))

/-- Does a payload word fail byte parity? -/
def anyFails (pk : Packet) : Bool := (List.range pk.data.length).any (failsAt pk)

/-! ### Header units (Table 8.3) -/

/-- The header unit of a packet. A port's name is its die, row, column and port fields side by side. -/
def headerUnit (pk : Packet) : BitVec 160 :=
  BitVec.ofNat 160 (pk.dst % 2 ^ 15 * 2 ^ 145 + pk.cmd.val * 2 ^ 141 + pk.prio.val * 2 ^ 139 + pk.tag.val * 2 ^ 129 + pk.len.val * 2 ^ 122 +
    pk.src % 2 ^ 15 * 2 ^ 105 + pk.ecode.val * 2 ^ 102 + (if pk.klen then 2 ^ 101 else 0) + (if pk.hit then 2 ^ 100 else 0) +
    pk.addr.toNat * 2 ^ 40 + pk.opnd.toNat)

/-- The packet, without its payload, that a header unit spells. -/
def headerOf (w : BitVec 160) : Packet :=
  let x := w.toNat
  { dst := bitsOf x 159 145, cmd := Fin.ofNat 16 (bitsOf x 144 141), prio := Fin.ofNat 4 (bitsOf x 140 139),
    tag := Fin.ofNat 1024 (bitsOf x 138 129), len := Fin.ofNat 65 (min 64 (bitsOf x 128 122)), src := bitsOf x 119 105,
    ecode := Fin.ofNat 8 (bitsOf x 104 102), klen := x.testBit 101, hit := x.testBit 100,
    addr := BitVec.ofNat 40 (bitsOf x 79 40), opnd := BitVec.ofNat 40 x }

/-! ### Flits -/

/-- Four words as a flit holds them, the first in W3 (R6). -/
def flitBits (ws : List Word) : BitVec 160 :=
  BitVec.ofNat 160 (((List.range 4).map fun b => (ws.getD b 0).toNat * 2 ^ (120 - 40 * b)).sum)

/-- The parity bits of four words as a flit holds them. -/
def flitPars (ps : List (BitVec 5)) : BitVec 20 :=
  BitVec.ofNat 20 (((List.range 4).map fun b => (ps.getD b 0).toNat * 2 ^ (15 - 5 * b)).sum)

/-- Word W(3 − b) of a flit, and its parity bits. -/
def TFlit.word (f : TFlit) (b : Nat) : Word := BitVec.ofNat 40 (f.w.toNat / 2 ^ (120 - 40 * b))
def TFlit.parAt (f : TFlit) (b : Nat) : BitVec 5 := BitVec.ofNat 5 (f.par.toNat / 2 ^ (15 - 5 * b))

/-- Does a word of the flit fail byte parity (R201)? -/
def TFlit.fails (f : TFlit) : Bool := (List.range 4).any fun b => decide (f.parAt b ≠ byteParity (f.word b))

/-- Flit `i` of a packet: its header unit, or a data unit with four payload words, those beyond LEN 0. -/
def flitAt (pk : Packet) (i : Nat) : TFlit :=
  if i = 0 then
    let w := headerUnit pk
    { w := w, par := flitPars ((List.range 4).map fun b => byteParity (BitVec.ofNat 40 (w.toNat / 2 ^ (120 - 40 * b)))), head := true }
  else
    let k := 4 * (i - 1)
    { w := flitBits ((List.range 4).map fun b => pk.data.getD (k + b) 0), par := flitPars ((List.range 4).map fun b => parOf pk (k + b)) }

/-- The flits of a packet, in order. -/
def flitsFor (pk : Packet) : List TFlit := (List.range (flitsOf pk)).map (flitAt pk)

/-- The packet that a header unit and its data units spell. -/
def assemble (h : TFlit) (ds : List TFlit) : Packet :=
  let p := headerOf h.w
  let n := if ds = [] then 0 else p.len.val
  let ws := (ds.flatMap fun f => (List.range 4).map f.word).take n
  let ps := (ds.flatMap fun f => (List.range 4).map f.parAt).take n
  { p with data := ws, par := if ps = ws.map byteParity then [] else ps }

/-- The first packet of a run of flits, if it stands there whole. -/
def frontPacket (fs : List TFlit) : Option Packet :=
  match fs with
  | [] => none
  | h :: ds => let n := flitsOf (headerOf h.w); if n ≤ ds.length + 1 then some (assemble h (ds.take (n - 1))) else none

/-! ### The companion's units (R279) -/

/-- A flit as 180 bits: W3 and its parity first. -/
def TFlit.bits180 (f : TFlit) : Nat :=
  ((List.range 4).map fun b => ((f.word b).toNat * 32 + (f.parAt b).toNat) * 2 ^ (135 - 45 * b)).sum

/-- The flit that 180 bits spell. -/
def flitOf180 (x : Nat) : TFlit :=
  { w := flitBits ((List.range 4).map fun b => BitVec.ofNat 40 (x / 2 ^ (140 - 45 * b)))
    par := flitPars ((List.range 4).map fun b => BitVec.ofNat 5 (x / 2 ^ (135 - 45 * b))) }

/-- A Jenwyn unit: up to two flits of channel `v`, and `credits` freed on channel `cv`. -/
def jenwynUnit (v : Nat) (fs : List TFlit) (cv credits : Nat) : BitVec 512 :=
  BitVec.ofNat 512 (min 2 fs.length * 2 ^ 510 + v % 8 * 2 ^ 507 + (match fs with | f :: _ => f.bits180 * 2 ^ 324 | [] => 0) +
    (match fs with | _ :: g :: _ => g.bits180 * 2 ^ 144 | _ => 0) + credits % 16 * 2 ^ (112 + 4 * (cv % 8)))

/-- The unit of four runs of 128 bits, the highest first. -/
def unitOf (u3 u2 u1 u0 : BitVec 128) : BitVec 512 := u3 ++ u2 ++ u1 ++ u0

/-- KIND, channel, flits and credits by channel of a unit received. -/
def unitKind (u : BitVec 512) : Nat := bitsOf u.toNat 511 510
def unitV (u : BitVec 512) : Nat := bitsOf u.toNat 509 507
def unitFlits (u : BitVec 512) : List TFlit :=
  ([flitOf180 (bitsOf u.toNat 503 324), flitOf180 (bitsOf u.toNat 323 144)] : List TFlit).take (unitKind u)
def unitCredit (u : BitVec 512) (v : Nat) : Nat := bitsOf u.toNat (115 + 4 * v) (112 + 4 * v)

end Sys2Proof.Machine
end

