-- ==== Sys2Proof/Machine/Transom.lean ====
section
/-!
DEFINITION. The transom network's shared operations: the address map (R185), links and their credit ledgers (R190, R202), requests and
completions (R183, R186), boarding up and unboarding (R197–R200).
-/
namespace Sys2Proof.Machine

/-! ### Names -/

/-- The name of port `x` of router `r`: pane routers 0–255, the hub switch 256. It also names the port's output link. -/
def portId (r x : Nat) : Nat := r * 64 + x

/-- The router of a port or link, and its port number. -/
def routerOf (l : Nat) : Nat := l / 64
def portOf (l : Nat) : Nat := l % 64

/-- The link of pane link `x` of the transom stage at hinge end `e`. -/
def stageLink (e x : Nat) : Nat := 32768 + e * 8 + x

/-! ### The address map (Tables 8.6, 8.7) -/

/-- Is the part an HVX4U-460? -/
def State.hasCompanion (s : State) : Bool := decide (s.fld R.HUB_PARTID F.HUB_PARTID.VARIANT = 1)

/-- The port that serves a word address, or none where it is unmapped. Frame memory gives the route code MEM, hub port 63. -/
def State.routeOf (s : State) (addr : Word) : Option Nat :=
  let a := addr.toNat
  if a < 0x10000 then some (portId 256 (24 + a / 2 ^ 11 % 4))
  else if a < 0x10003 then some (portId 256 (28 + a % 4))
  else if a < 0x1000000 then none
  else if a < 0x5000000 then
    let o := a - 0x1000000; let pane := o / 0x40000; let w := o % 0x40000
    some (portId pane (if w < 0x30000 then 4 + w / 0x8000 else 10 + (w - 0x30000) / 0x8000))
  else if a < 0x8000000 then none
  else if a < 0x10000000 then (if s.hasCompanion then some (portId 256 32) else none)
  else if a < 0x100000000 then none
  else if a < 0x1000000000 then some (portId 256 63)
  else if a < 0x2000000000 then some (portId 256 28)
  else none

/-! ### Ledgers (Table 8.11) -/

/-- The links with queues of 16: those of hinge transom stages, and hub switch port 32 (R190, R279). -/
def wideLink (l : Nat) : Bool := decide (32768 ≤ l ∨ l = portId 256 32)

/-- Queue depth per channel. -/
def linkDepth (l : Nat) : Nat := if wideLink l then 16 else 4

/-- Width of a channel's field in OAVAIL and IOCC. -/
def fieldW (l : Nat) : Nat := if wideLink l then 5 else 4

/-- The offset of the captured copy of counter `i` of a link. -/
def ledOff (l i : Nat) : Nat :=
  if 32768 ≤ l then R.HNGTR_LEDGER ((l - 32768) / 8) ((l - 32768) % 8) i
  else if routerOf l = 256 then R.HTR_LEDGER (portOf l) i
  else R.TR_LEDGER (routerOf l / 64) (routerOf l % 64) (portOf l) i

/-- The eight channel fields of OAVAIL after reset of a link: every credit held. -/
def fullAvail (l : Nat) : Nat := ((List.range 8).map fun v => linkDepth l * 2 ^ (fieldW l * v)).sum

/-- A counter after reset. -/
def ledInit (l i : Nat) : HWord :=
  if i = 2 then BitVec.ofNat 32 (fullAvail l) else if i = 11 ∧ wideLink l then BitVec.ofNat 32 (fullAvail l / 2 ^ 32) else 0

/-- Counter `i` of a link. -/
def State.led (s : State) (l i : Nat) : HWord := SMap.get (ledInit l i) s.ledger (ledOff l i)

def State.setLed (s : State) (l i : Nat) (v : HWord) : State := { s with ledger := SMap.set (ledInit l i) s.ledger (ledOff l i) v }

def State.addLed (s : State) (l i n : Nat) : State := s.setLed l i (s.led l i + BitVec.ofNat 32 n)

/-- The eight channel fields held in counters `i` and (at hinge stages) `j`. -/
def State.chanFields (s : State) (l i j : Nat) : Nat :=
  (s.led l i).toNat + (if wideLink l then (s.led l j).toNat * 2 ^ 32 else 0)

def State.setChanFields (s : State) (l i j n : Nat) : State :=
  let s1 := s.setLed l i (BitVec.ofNat 32 n)
  if wideLink l then s1.setLed l j (BitVec.ofNat 32 (n / 2 ^ 32)) else s1

/-- One channel's field. -/
def chanField (l x v : Nat) : Nat := x / 2 ^ (fieldW l * v) % 2 ^ fieldW l

/-- Credits held for channel `v` at a link's output. -/
def State.avail (s : State) (l v : Nat) : Nat := chanField l (s.chanFields l 2 11) v

def State.setAvail (s : State) (l v n : Nat) : State :=
  let x := s.chanFields l 2 11
  s.setChanFields l 2 11 (x - chanField l x v * 2 ^ (fieldW l * v) + n * 2 ^ (fieldW l * v))

/-- Flits held for channel `v` at a link's input. -/
def State.iocc (s : State) (l v : Nat) : Nat := chanField l (s.chanFields l 5 12) v

def State.setIocc (s : State) (l v n : Nat) : State :=
  let x := s.chanFields l 5 12
  s.setChanFields l 5 12 (x - chanField l x v * 2 ^ (fieldW l * v) + n * 2 ^ (fieldW l * v))

/-- The credits that channel v of an output holds in all: its depth, but for what DIAG_CRED has changed (Table 18.4). -/
def State.depthOf (s : State) (l v : Nat) : Nat := (linkDepth l + SMap.get 0 s.credOff (8 * l + v)).toNat

/-- Up to `n` flits leave on an output, each spending a credit. -/
def State.sendFlits (s : State) (l v n : Nat) : State :=
  let k := min n (s.avail l v)
  (s.addLed l 0 k).setAvail l v (s.avail l v - k)

/-- The virtual channel of a tracked packet. -/
def Tracked.vc (t : Tracked) : Nat := (if t.cpl then 4 else 0) + t.prio

/-- A tracked packet when `k` credits have come back on its channel: none once the target has taken it whole and no completion is to
come (R198). -/
def Tracked.credited (t : Tracked) (k : Nat) : Option Tracked :=
  if t.left = 0 ∧ t.ahead ≤ k ∧ (t.posted ∨ t.cpl) then none else some { t with ahead := t.ahead - k }

/-- Up to `n` spent credits come back to an output: the target has taken as many flits. -/
def State.creditBack (s : State) (l v n : Nat) : State :=
  let k := min n (s.depthOf l v - s.avail l v)
  let s1 := (s.addLed l 1 k).setAvail l v (s.avail l v + k)
  { s1 with tracked := s1.tracked.filterMap fun t => if t.link = l ∧ t.vc = v then t.credited k else some t }

/-- Up to `n` flits arrive at an input's queue. -/
def State.takeFlits (s : State) (l v n : Nat) : State :=
  let k := min n (linkDepth l - s.iocc l v)
  (s.addLed l 3 k).setIocc l v (s.iocc l v + k)

/-- Up to `n` held flits leave an input, and their credits return. -/
def State.freeFlits (s : State) (l v n : Nat) : State :=
  let k := min n (s.iocc l v)
  (s.addLed l 4 k).setIocc l v (s.iocc l v - k)

/-! ### Error registers -/

/-- The offset of TR_ERR of the router of a link, and whether it has the hub's layout. -/
def trErr (r : Nat) : Nat := if r = 256 then R.HTR_ERR else R.TR_ERR (r / 64) (r % 64)

/-- Set a field of TR_ERR by its pane-router or its hub layout (Tables 8.13, 8.17). -/
def State.setTrErr (s : State) (r : Nat) (pane hub : Fld) (n : Nat) : State :=
  s.setFld (trErr r) (if r = 256 then hub else pane) n

/-- Is a link's port boarded up? -/
def State.boarded (s : State) (l : Nat) : Bool :=
  if 32768 ≤ l then SMap.get false s.stageBrd l
  else if routerOf l = 256 then
    (if portOf l < 32 then (s.reg R.TR_HBRD_L).getLsbD (portOf l) else (s.reg R.TR_HBRD_H).getLsbD (portOf l - 32))
  else (s.reg (R.TR_STAT (routerOf l / 64) (routerOf l % 64))).getLsbD (20 + portOf l)

/-- Set or clear a port's BRD bit. -/
def State.setBoarded (s : State) (l : Nat) (b : Bool) : State :=
  let put := fun (s : State) off i => s.setFld off ⟨i, i⟩ (if b then 1 else 0)
  if 32768 ≤ l then { s with stageBrd := SMap.set false s.stageBrd l b }
  else if routerOf l = 256 then (if portOf l < 32 then put s R.TR_HBRD_L (portOf l) else put s R.TR_HBRD_H (portOf l - 32))
  else put s (R.TR_STAT (routerOf l / 64) (routerOf l % 64)) (20 + portOf l)

/-! ### Queues (R190) -/

/-- The key of channel `v` of a port's queues. -/
def vcKey (i v : Nat) : Nat := 8 * i + v

/-- The packets that channel v of a source port has still to send. -/
def State.srcq (s : State) (i v : Nat) : SrcQ := SMap.get {} s.srcs (vcKey i v)
def State.setSrcq (s : State) (i v : Nat) (x : SrcQ) : State := { s with srcs := SMap.set {} s.srcs (vcKey i v) x }

/-- The queue of channel v at a router's input. -/
def State.inq (s : State) (i v : Nat) : List TFlit := SMap.get [] s.inqs (vcKey i v)
def State.setInq (s : State) (i v : Nat) (x : List TFlit) : State := { s with inqs := SMap.set [] s.inqs (vcKey i v) x }

/-- The packet that passes channel v of a router's input. -/
def State.worm (s : State) (i v : Nat) : Worm := SMap.get {} s.worms (vcKey i v)
def State.setWorm (s : State) (i v : Nat) (x : Worm) : State := { s with worms := SMap.set {} s.worms (vcKey i v) x }

/-- The flits of channel v that the target or initiator of a local port holds. -/
def State.tin (s : State) (l v : Nat) : List TFlit := SMap.get [] s.tins (vcKey l v)
def State.setTin (s : State) (l v : Nat) (x : List TFlit) : State := { s with tins := SMap.set [] s.tins (vcKey l v) x }

/-- A flit enters a router's input queue. -/
def State.enter (s : State) (i v : Nat) (f : TFlit) : State := (s.setInq i v (s.inq i v ++ [f])).takeFlits i v 1

/-- The completion of a request has left the target at port `i`, which tracks the request no longer (R198). -/
def State.hasLeft (s : State) (i : Nat) (pk : Packet) : State :=
  if isCompletion pk.cmd then
    { s with tracked := s.tracked.filter fun t => !(decide (t.link = i ∧ t.src = pk.dst ∧ t.tag = pk.tag.val) && !t.posted && !t.cpl) }
  else s

/-- A source port sends its next flit of channel v into the router's input queue, if there is room. -/
def State.fillOne (s : State) (i v : Nat) : State :=
  let q := s.srcq i v
  match q.pks with
  | [] => s
  | pk :: rest =>
    if linkDepth i ≤ s.iocc i v then s
    else
      let s1 := s.enter i v (flitAt pk q.done)
      if flitsOf pk ≤ q.done + 1 then (s1.setSrcq i v ⟨rest, 0⟩).hasLeft i pk else s1.setSrcq i v { q with done := q.done + 1 }

/-- A source port fills the router's input queue. -/
def State.fill (s : State) (i v : Nat) : State := (List.range 4).foldl (fun a _ => a.fillOne i v) s

/-- The credits that the flits a target holds have spent: it takes the flits of the packet it is to perform next as they come, but for the
last, which it takes with the packet; an initiator takes completions as they come (R188, R198). -/
def creditsHeld (v : Nat) (fs : List TFlit) : Nat :=
  match fs with
  | [] => 0
  | h :: ds =>
    let n := flitsOf (headerOf h.w)
    if 4 ≤ v ∨ ds.length + 1 < n then 0 else ds.length + 2 - n

/-- The credits of what a target has taken come back. -/
def State.settleTin (s : State) (l v : Nat) : State :=
  s.creditBack l v (s.depthOf l v - s.avail l v - creditsHeld v (s.tin l v))

/-- The packet that the target or initiator of a local port is to perform next on channel v, its DPORT the port's. -/
def State.headAt (s : State) (l v : Nat) : Option Packet := (frontPacket (s.tin l v)).map fun p => { p with dst := l }

/-- That packet leaves the queue. -/
def State.popTin (s : State) (l v : Nat) : State :=
  let fs := s.tin l v
  match fs with
  | [] => s
  | h :: _ => (s.setTin l v (fs.drop (flitsOf (headerOf h.w)))).settleTin l v

/-! ### Packets on their way -/

/-- A source port takes a packet to send. -/
def State.launch (s : State) (pk : Packet) : State :=
  let v := vcOf pk; let q := s.srcq pk.src v
  (s.setSrcq pk.src v { q with pks := q.pks ++ [pk] }).fill pk.src v

/-- The completion of a request: from its target to its source, with its tag and priority (R182). -/
def completion (pk : Packet) (cmd : Fin 16) : Packet :=
  { dst := pk.src, src := pk.dst, cmd := cmd, prio := pk.prio, tag := pk.tag }

/-- A non-posted request is outstanding from its issue (R186). -/
def State.holdTag (s : State) (pk : Packet) (why : Purpose) : State :=
  if posted pk.cmd then s else { s with outst := s.outst ++ [⟨pk.src, pk.tag, pk.cmd, pk.addr, pk.len, why⟩] }

/-- Where a request goes. An LKUP carries a key in place of an address (Table 8.4): it goes to the stream directory whatever key word 1 is, by that
word's bits 12:11 (DESIGN CHOICE, log entry 149). -/
def State.routeFor (s : State) (pk : Packet) : Option Nat :=
  if pk.cmd = cLKUP then some (portId 256 (24 + pk.addr.toNat / 2 ^ 11 % 4)) else s.routeOf pk.addr

/-- The interface of an initiator routes a request (R185): one to an unmapped address goes nowhere, a non-posted one then completing with
CPLE RANGE and a posted one setting UNMAP; else it is on its way. -/
def State.routeReq (s : State) (pk : Packet) : State :=
  match s.routeFor pk with
  | some dst => s.launch { pk with dst := dst }
  | none =>
    if posted pk.cmd then s.setTrErr (routerOf pk.src) F.TR_ERR.UNMAP F.HTR_ERR.UNMAP 1
    else { s with selfCpl := s.selfCpl ++ [{ completion pk cCPLE with src := pk.src, ecode := eRANGE }] }

/-- An initiator port sends a request (R185, R186). -/
def State.sendReq (s : State) (pk : Packet) (why : Purpose) : State := (s.holdTag pk why).routeReq pk

/-- A target answers a request: its completion sets out. A posted request draws none. -/
def State.answer (s : State) (pk : Packet) (cpl : Packet) : State := if posted pk.cmd then s else s.launch cpl

/-- Answer with an error completion; a posted request draws none. -/
def State.answerErr (s : State) (pk : Packet) (e : Fin 8) : State := s.answer pk { completion pk cCPLE with ecode := e }

/-- Answer a read with words. -/
def State.answerData (s : State) (pk : Packet) (ws : List Word) : State :=
  s.answer pk { completion pk cCPL with data := ws, len := Fin.ofNat 65 ws.length }

/-- The tag of a new request of an initiator port: the lowest of `n` that no outstanding request and no quarantine holds (R186,
R189). -/
def State.freeTag (s : State) (port n : Nat) : Option Nat :=
  (List.range n).find? fun t =>
    !(s.outst.any fun o => decide (o.port = port ∧ o.tag = t)) && !(s.quar.any fun q => decide (q = (port, t)))

/-! ### Boarding up (R199, R200) -/

/-- A CPLE that a router makes itself at port l. -/
def State.ownCple (s : State) (l : Nat) (dst : Nat) (prio : Fin 4) (tag : Fin 1024) (e : Fin 8) : State :=
  { s with owns := s.owns ++ [{ dst := dst, src := l, cmd := cCPLE, prio := prio, tag := tag, ecode := e }] }

/-- What a boarded port does with a flit routed to it: it counts it, and with a header unit the packet, answering a non-posted request
with CPLE BOARDED. -/
def State.absorb (s : State) (l : Nat) (f : TFlit) : State :=
  let s1 := s.addLed l 10 1; let pk := headerOf f.w
  if ¬ f.head then s1
  else if isCompletion pk.cmd then s1.addLed l 9 1
  else if posted pk.cmd then s1.addLed l 7 1
  else (s1.addLed l 8 1).ownCple l pk.src pk.prio pk.tag eBOARDED

/-! ### The splitter of frame memory (R217)

A request with route code MEM leaves the hub switch for the splitter, which holds it whole, divides it at block boundaries and sends each piece, a
packet of its own, by the port of the controller that owns its block. -/

/-- The way from the hub switch to the splitter, which no port stands for: route code MEM. -/
def memLink : Nat := portId 256 63

/-- The port of a controller at the hub switch (Table 8.2). -/
def fmPortOf (c : Nat) : Nat := portId 256 (16 + c)

/-- Is a link the port of a DDR5 controller? -/
def fmPort (l : Nat) : Bool := decide (routerOf l = 256 ∧ 16 ≤ portOf l ∧ portOf l < 24)

/-- The pieces of channel v that the splitter has still to send to the controller at port l. -/
def State.fmQueue (s : State) (l v : Nat) : SrcQ := SMap.get {} s.fmOut (vcKey l v)
def State.setFmQueue (s : State) (l v : Nat) (x : SrcQ) : State := { s with fmOut := SMap.set {} s.fmOut (vcKey l v) x }

/-- The answer to a request whose pieces have all been dealt with: the cause of the failing piece with the lowest address, or what was read, in
address order (R217). DESIGN CHOICE (log entry 160): it leaves by the port of its first piece's controller. -/
def State.fmAnswer (s : State) (pk : Packet) (done : List FmPart) : State :=
  let ps := (List.range 64).filterMap fun i => done.find? fun p => decide (p.at_ = i)
  match ps.find? fun p => decide (p.cause ≠ 0) with
  | some p => s.answerErr pk p.cause
  | none =>
    let ws := ps.flatMap FmPart.words
    if pk.cmd = cADD ∨ pk.cmd = cSWAP then s.answer pk { completion pk cCPL with opnd := ws.headD 0 } else s.answerData pk ws

/-- Requests of which no piece is left are answered. -/
def State.fmFinish (s : State) : State :=
  (s.fmSeq.filter fun e => decide (e.left = [])).foldl (fun a e => a.fmAnswer e.pk e.done)
    { s with fmSeq := s.fmSeq.filter fun e => !decide (e.left = []) }

/-- A list with its first `a` replaced. -/
def replaceFirst {α : Type} [DecidableEq α] (a b : α) : List α → List α
  | [] => []
  | x :: xs => if x = a then b :: xs else x :: replaceFirst a b xs

/-- A piece of a request has ended as `r` says. -/
def State.fmEnd (s : State) (e : FmReq) (p : Piece) (r : FmPart) : State :=
  ({ s with fmSeq := replaceFirst e { e with left := e.left.erase p, done := e.done ++ [r] } s.fmSeq } : State).fmFinish

/-- A boarded port absorbs what the splitter has still to send of a piece, from flit `i` on (R199). -/
def State.absorbPiece (s : State) (l : Nat) (pk : Packet) (i : Nat) : State :=
  let s1 := s.addLed l 10 (flitsOf pk - i)
  if i = 0 then s1.addLed l (if posted pk.cmd then 7 else 8) 1 else s1

/-- A controller's port is boarded: it absorbs what the splitter still had for it, and the splitter takes BOARDED as the end of every piece that
has not been performed. -/
def State.fmCut (s : State) (l : Nat) : State :=
  let s1 := (List.range 4).foldl (fun (a : State) v =>
    let q := a.fmQueue l v
    match q.pks with
    | [] => a
    | pk :: rest => rest.foldl (fun b p => b.absorbPiece l p 0) ((a.setFmQueue l v {}).absorbPiece l pk q.done)) s
  let here := fun (p : Piece) => decide (fmPortOf (p.sc / 2) = l)
  ({ s1 with fmSeq := s1.fmSeq.map fun e => { e with
      left := e.left.filter fun p => !here p
      done := e.done ++ (e.left.filter here).map fun p => ⟨p.at_, [], eBOARDED⟩ } } : State).fmFinish

/-! ### Boarding -/

/-- The credits that a port's output holds fewer than its queues' depth, for every channel, come back at once: ORET counts them, and RECL where
`recl`; then AVAIL is the depth (R199, R200). A credit that DIAG_CRED has removed or added counts among them, so that the first identity of R202
stays broken (R423). -/
def State.reclaim (s : State) (l : Nat) (recl : Bool) : State :=
  let out : HWord := BitVec.ofInt 32 (((List.range 8).map fun v => (linkDepth l : Int) - s.avail l v).sum)
  let s1 := s.setLed l 1 (s.led l 1 + out)
  let s2 := if recl then s1.setLed l 6 (s1.led l 6 + out) else s1
  { (s2.setChanFields l 2 11 (fullAvail l)) with credOff := s2.credOff.filter fun x => !decide (x.1 / 8 = l) }

/-- Board up a port (R199): cause 0 CMD, 1 CREDIT, 2 COMPLETION, 3 PARK. The pieces tracked at a controller's port end at the splitter. -/
def State.board (s : State) (l cause : Nat) : State :=
  if s.boarded l then s
  else
    let mine := s.tracked.filter fun t => decide (t.link = l)
    let reqs := mine.filter fun t => !t.posted && !t.cpl
    let owed := if fmPort l then [] else reqs
    let s1 := ((s.addLed l 8 reqs.length).addLed l 7 (mine.filter (·.posted)).length).reclaim l true
    let s2 := owed.foldl (fun a t => a.ownCple l t.src (Fin.ofNat 4 t.prio) (Fin.ofNat 1024 t.tag) eBOARDED) s1
    let s3 := { s2 with
      tracked := s2.tracked.filter fun t => !decide (t.link = l)
      answered := s2.answered ++ owed.map fun (t : Tracked) => (l, t.src, t.tag)
      parkBrd := if cause = 3 then l :: s2.parkBrd else s2.parkBrd }
    let s4 := if fmPort l then (s3.setBoarded l true).fmCut l else s3.setBoarded l true
    if 32768 ≤ l then s4
    else
      let r := routerOf l
      ((s4.setTrErr r F.TR_ERR.BRDEV F.HTR_ERR.BRDEV 1).setTrErr r F.TR_ERR.BCAUSE F.HTR_ERR.BCAUSE cause).setTrErr r
        F.TR_ERR.BPORT F.HTR_ERR.BPORT (portOf l)

/-- Unboard a port (R200): the link is reset, what stands in the target's input queues is lost, tracking is cleared, and credits are at
their depth. Completions that an initiator has accepted are no part of those queues (R188). The rest of a packet whose header unit the
boarded port took is discarded (DESIGN CHOICE, log entry 114). -/
def State.unboard (s : State) (l : Nat) : State :=
  if s.boarded l then
    let s1 := (List.range 4).foldl (fun (a : State) v => a.setTin l v []) (s.reclaim l false)
    { (s1.setBoarded l false) with
      tracked := s1.tracked.filter (fun t => !decide (t.link = l)), answered := s1.answered.filter (fun x => !decide (x.1 = l))
      worms := s1.worms.map fun e => if e.2.out = some l ∧ e.2.left ≠ 0 then (e.1, { e.2 with out := none }) else e
      uclLeft := if l = portId 256 32 then [] else s1.uclLeft
      uclHdr := if l = portId 256 32 then [] else s1.uclHdr
      parkBrd := s1.parkBrd.filter (fun x => !decide (x = l)) }
  else s

/-- Is an address a queue port of a word memory window (Table 7.7A)? -/
def queuePortAddr (a : Nat) : Bool :=
  let o := (a - 0x1000000) % 0x40000
  decide (0x1000000 ≤ a ∧ a < 0x5000000 ∧ o < 0x30000 ∧ 0x4000 ≤ o % 0x8000 ∧ o % 0x8000 < 0x4004)

end Sys2Proof.Machine
end

