-- ==== Sys2Proof/Machine/Cycle.lean ====
section
/-!
DEFINITION. The end of a pane's cycle (R153, R158): locked use of a queue and the transom's pushes (R163–R165), the pushes that the rest of
their cycle may still change, and what the edge does.
-/
namespace Sys2Proof.Machine

/-! ### Locked use (R164, R165) -/

/-- Entries present at the head of a queue, as the transom counts them: filled, from the start of the cycle after acceptance, up to the
first reservation. -/
def State.presentHead (s : State) (pane m q : Nat) : List QSlot :=
  (s.queue (pane * 6 + m) q).slots.takeWhile fun e => e.filled && decide (e.acc ≤ s.cyc pane)

/-- Pop `n` present entries for a transom RD: the words, whether an uncorrectable error was met, the state after. -/
def State.popMany (s : State) (pane m q : Nat) : Nat → List Word × Bool × State
  | 0 => ([], false, s)
  | n + 1 =>
    let blk := pane * 6 + m
    match (s.queue blk q).slots with
    | [] => ([], false, s)
    | e :: _ =>
      if ¬ e.filled then ([], false, s)
      else
        let x := s.entry blk e.pos
        let r := ((s.checkEntry blk e.pos).dropHead pane m q).popMany pane m q n
        (x.word :: r.1, decide (x.bad = 2) || r.2.1, r.2.2)

/-- A RD of a queue in locked use with the lock free or held by the requester (R164). DESIGN CHOICE (log entry 100): one that meets an
uncorrectable entry completes with CPLE and its entries are removed all the same. -/
def State.lockedRead (s : State) (pane m q : Nat) (pk : Packet) : State :=
  if (s.presentHead pane m q).length < pk.len.val then s.answerErr pk eREFUSED
  else
    let r := s.popMany pane m q pk.len.val
    if r.2.1 then r.2.2.answerErr pk eDATA else r.2.2.answerData pk r.1

/-- RDLK from a free lock, or by the holder (R165): the head, or the idle word. DESIGN CHOICE (log entry 100): where the head is
uncorrectable the request completes with CPLE and the lock is taken all the same. -/
def State.takeLock (s : State) (pane m q : Nat) (pk : Packet) : State :=
  let blk := pane * 6 + m
  let s1 := s.setQueue blk q { s.queue blk q with lock := some pk.src }
  match s.presentHead pane m q with
  | e :: _ =>
    let s2 := s1.checkEntry blk e.pos
    if (s.entry blk e.pos).bad = 2 then s2.answerErr pk eDATA else s2.answerData pk [(s.entry blk e.pos).word]
  | [] => s1.answerData pk [s.idleWord pane m q]

/-! ### Pushes of the transom (R153, R158, R163) -/

/-- Push words at a queue port, all with tag 0 but the last in PQUEUE mode. -/
def State.pushWords (s : State) (pane m q : Nat) : List Word → State
  | [] => s
  | w :: ws => (s.acceptWord pane m q w (decide (ws = [] ∧ s.wmCfg pane m F.WM_CFG.MODE = 4)) true).pushWords pane m q ws

/-- Note a transport parity failure on words taken in (R175). -/
def State.wmXpar (s : State) (blk : Nat) (bad : Bool) : State := if bad then s.setFld (wmErr blk) F.WM_ERR.XPAR 1 else s

/-- Does a push of `n` words by the transom wait for the end of the cycle? It does where the queue would be full by one push of the binding,
which stands before it (R153), where a SLAM of the cycle could yet set DPEND (R158), and behind one that waits. What no later command of the
cycle can change is decided at once. -/
def State.netWaits (s : State) (pane m q n : Nat) : Bool :=
  let x := s.queue (pane * 6 + m) q
  !s.discards pane m q &&
    ((s.pane pane).late.any (fun e => match e with | .net a b _ => decide (a = m ∧ b = q) | _ => false) ||
     (s.hasRoom pane m q n && !s.hasRoom pane m q (n + 1) && decide (x.boundNow (s.cyc pane) = 0)) ||
     (!s.hasRoom pane m q n && decide (s.wmCfg pane m F.WM_CFG.MODE = 4) && !s.lockedUse pane m q))

/-- Put a push among those that wait. -/
def State.waitPush (s : State) (pane : Nat) (e : LatePush) : State :=
  s.setPane pane { s.pane pane with late := (s.pane pane).late ++ [e] }

/-- The word of the lock holder's WRUL (R165): with a word, it replaces the head or is pushed; with none, the head is removed. A word to be pushed
that finds no room (R153) completes with CPLE REFUSED (R163). The lock is released in every case (log entry 17). -/
def State.storeUnlock (s : State) (pane m q : Nat) (pk : Packet) : State :=
  let blk := pane * 6 + m
  let tag := decide (s.wmCfg pane m F.WM_CFG.MODE = 4)
  let s1 := match pk.data, s.presentHead pane m q with
    | w :: _, e :: _ => (s.storeEntry blk e.pos 3 { word := w, tag := tag }).answerData pk []
    | w :: _, [] =>
      if s.discards pane m q ∨ s.hasRoom pane m q 1 then (s.acceptWord pane m q w tag true).answerData pk []
      else s.answerErr pk eREFUSED
    | [], _ :: _ => (s.dropHead pane m q).answerData pk []
    | [], [] => s.answerData pk []
  s1.setQueue blk q { s1.queue blk q with lock := none }

/-- A RD, RDLK or WRUL of a queue in locked use whose lock is free or held by the requester (R164, R165). A WRUL whose push the rest of the cycle
may still change waits for the cycle's end; one of a free lock completes with CPLE. -/
def State.lockedServe (s : State) (pane m q : Nat) (pk : Packet) : State :=
  if pk.cmd = cRD then s.lockedRead pane m q pk
  else if pk.cmd = cRDLK then s.takeLock pane m q pk
  else if (s.queue (pane * 6 + m) q).lock = none then s.answerErr pk eREFUSED
  else if s.presentHead pane m q = [] ∧ s.netWaits pane m q pk.data.length then s.waitPush pane (.net m q pk)
  else (s.wmXpar (pane * 6 + m) (anyFails pk)).storeUnlock pane m q pk

/-- Of block `m`, does a request of the source and priority of `pk` wait for the end of its cycle (R187)? -/
def State.lateOf (s : State) (pane m : Nat) (pk : Packet) : Bool :=
  (s.pane pane).late.any fun e => match e with | .net a _ w => decide (a = m ∧ w.src = pk.src ∧ w.prio = pk.prio) | _ => false

/-- Serve the requests that wait at a queue's lock, in arrival order: while it is free the first, while it is held those of its holder (R165).
One behind a push of its source and priority that waits for the cycle's end stays (R187). -/
def State.serveWaiters (s : State) (pane m q : Nat) : Nat → State
  | 0 => s
  | fuel + 1 =>
    let blk := pane * 6 + m; let x := s.queue blk q
    match x.waiters.find? fun w => decide (x.lock = none ∨ x.lock = some w.src) with
    | some pk =>
      if s.lateOf pane m pk then s
      else ((s.setQueue blk q { x with waiters := x.waiters.erase pk }).lockedServe pane m q pk).serveWaiters pane m q fuel
    | none => s

/-- Release a lock and serve the requests that may now go on. -/
def State.unlock (s : State) (pane m q : Nat) : State :=
  let blk := pane * 6 + m
  (s.setQueue blk q { s.queue blk q with lock := none }).serveWaiters pane m q 5

/-- The lock holder's WRUL, and the requests that waited for it. -/
def State.writeUnlock (s : State) (pane m q : Nat) (pk : Packet) : State := (s.storeUnlock pane m q pk).serveWaiters pane m q 5

/-- A WR or WRP pushes its words, whole, or is refused whole: a posted one then sets WDROP (R153, R163, R173). -/
def State.netPush (s : State) (pane m q : Nat) (pk : Packet) : State :=
  let blk := pane * 6 + m
  if s.discards pane m q ∨ s.hasRoom pane m q pk.data.length then ((s.pushWords pane m q pk.data).wmXpar blk (anyFails pk)).answerData pk []
  else
    let s1 := s.refuse pane m q pk.data.length
    if posted pk.cmd then s1.setFld (wmErr blk) F.WM_ERR.WDROP 1 else s1.answerErr pk eREFUSED

/-- Would a binding's push find a PQUEUE full that a SLAM of the cycle could still make discard it (R158)? -/
def State.pushWaits (s : State) (pane m q : Nat) : Bool :=
  s.queueMode pane m && s.paneOpen pane && decide (s.wmCfg pane m F.WM_CFG.MODE = 4) && !s.discards pane m q && !s.bindRoom pane m q

/-- The error bit of a fabric user pin (R394). -/
def State.fpinErr (s : State) (d n : Nat) : State :=
  if n < 32 then s.setFld (R.FPIN_ERR_L d) ⟨n, n⟩ 1 else s.setFld (R.FPIN_ERR_H d) ⟨n - 32, n - 32⟩ 1

/-- A lane's word is dropped (R235). -/
def State.laneDrop (s : State) (d l : Nat) : State :=
  (s.addSat (R.LANE_CNT_DROP d l) F.LANE_CNT_DROP.COUNT 1).setFld (R.LANE_ERR d l) F.LANE_ERR.OVF 1

/-- The end of the cycle decides a push that waited. -/
def State.decidePush (s : State) (pane : Nat) (e : LatePush) : State :=
  match e with
  | .net m q pk =>
    if pk.cmd = cWRUL then (s.wmXpar (pane * 6 + m) (anyFails pk)).writeUnlock pane m q pk else s.netPush pane m q pk
  | .lane m q l w tag =>
    let r := s.pushQueue pane m q w tag
    if r.1 then r.2 else r.2.laneDrop (pane / 64) l
  | .pin m q n w =>
    let r := s.pushQueue pane m q w false
    if r.1 then r.2 else r.2.fpinErr (pane / 64) n

/-- Every push that waits is decided, in the order they came. -/
def State.settleLate (s : State) (pane : Nat) : State :=
  match (s.pane pane).late with
  | [] => s
  | l => l.foldl (fun a e => a.decidePush pane e) (s.setPane pane { s.pane pane with late := [] })

/-! ### The edge that ends a cycle -/

/-- The edge that ends a pane's present cycle, but for the cells' own writes: the line registers capture (R80, R81), contention is
recorded (R83), the latches take what was delivered (R91), the slot counter moves on (R33), and a gating asked for takes effect
(R85). The pushes that wait for the cycle's end are decided first (R153, R158). Nothing happens while the pane's cell clock stands still. -/
def State.closeCycle (s : State) (pane : Nat) : State :=
  if ¬ s.flag (R.PANE_CLK (pane / 64) (pane % 64)) F.PANE_CLK.LOCK then s
  else
    let s := s.settleLate pane
    let x := s.pane pane
    let row := captureAll 512 fun k =>
      let tile := k / 64 * 8 + k % 64 / 8
      if tile % 8 = 4 then 0 else s.outStart pane tile (s.rowSel pane tile (k % 8))
    let col := captureAll 512 fun k => s.colSource pane (k % 64 / 8 * 8 + k / 64) (k % 8)
    let bus := captureAll 128 fun k => s.wireSource pane (k / 16) (k % 16)
    let latch := x.latchW.foldl (fun m e => SMap.set 0 m e.1 e.2) x.latch
    let idle := decide (s.slotNow pane = 8) && s.paneRuns pane
    let s1 := (s.recordContention pane).setPane pane { x with
      cycle := x.cycle + 1
      slot := if s.paneRuns pane then (x.slot % (s.schedule pane).length + 1) % (s.schedule pane).length else x.slot
      row := row, col := col, bus := bus, latch := latch, latchW := []
      istSlots := x.istSlots + (if idle then 1 else 0) }
    if x.gatePend then s1.gate pane else s1

/-- `n` edges of a pane's cell clock pass. -/
def State.advance (s : State) (pane : Nat) : Nat → State
  | 0 => s
  | n + 1 => (s.closeCycle pane).advance pane n

end Sys2Proof.Machine
end

