-- ==== Sys2Proof/Machine/Channels.lean ====
section
/-!
DEFINITION. The pane clock island (R84, R85) and the elastic channels (R86–R101): the meanings of PANE_GATE, PANE_RELOCK,
PANE_LOSS_OF_LOCK, CHANNEL_ENTER and CHANNEL_DELIVER.
-/
namespace Sys2Proof.Machine

/-! ### The clock island -/

/-- The register block offset of PANE_CLK. -/
def paneClk (pane : Nat) : Nat := R.PANE_CLK (pane / 64) (pane % 64)

/-- The frequency code a field acts as (R84, Table 4.9): `g3` for a -G3 part. -/
def effFreq (lo g2 g3 v : Nat) (isG3 : Bool) : Nat := max lo (min v (if isG3 then g3 else g2))

/-- Is the part of speed grade -G3 (Table 0.3)? -/
def State.isG3 (s : State) : Bool := decide (s.fld R.HUB_PARTID F.HUB_PARTID.SPEED = 3)

/-- The frequencies, in units of 25 MHz, the pane's clocks run at: cell, engine, router (R84). -/
def State.paneFreqs (s : State) (pane : Nat) : Nat × Nat × Nat :=
  (effFreq 4 36 42 (s.fld (paneClk pane) F.PANE_CLK.CFREQ) s.isG3, effFreq 4 40 48 (s.fld (paneClk pane) F.PANE_CLK.EFREQ) s.isG3,
   effFreq 12 60 60 (s.fld (paneClk pane) F.PANE_CLK.RFREQ) s.isG3)

/-- R85. A write of PANE_CLK: its other fields as their types ask, and GATE followed: 1 gates the clocks at the end of the cell
cycle (`edge`: that edge comes before the next command; else the gating waits for the pane's next edge), or ends a relock; 0
cancels a gating that waits, or starts a relock of a gated pane. -/
def State.gateWrite (s : State) (pane : Nat) (v : HWord) (edge : Bool) : State :=
  let r := paneClk pane
  let s1 := s.writeReg r v
  let x := s1.pane pane
  if s1.dieDark (pane / 64) then s1
  else if s1.flag r F.PANE_CLK.GATE then
    if s1.flag r F.PANE_CLK.LOCK then
      let s2 := s1.setPane pane { x with gatePend := true }
      if edge then s2.closeCycle pane else s2
    else (s1.setFld r F.PANE_CLK.GATED 1).setPane pane { x with relocking := false }
  else if x.gatePend then s1.setPane pane { x with gatePend := false }
  else if s1.flag r F.PANE_CLK.GATED then s1.setPane pane { x with relocking := true }
  else s1

/-- R85. -/
def execPaneGate (d : Fin 4) (p : Fin 64) (v : BitVec 32) (edge : Bool) (s : State) : Res :=
  .next (s.reach d (R.PANE_CLK d p) v (·.gateWrite (paneId d p) v edge))

/-- The loop of a pane loses lock: all three clocks stop, LOL is set, and the loop relocks; a pane whose GATE is 1 is gated instead, for
it follows the value that GATE holds (R85). -/
def State.paneLoses (s : State) (pane : Nat) : State :=
  let r := paneClk pane
  if s.flag r F.PANE_CLK.LOCK then
    let s1 := s.setFld r F.PANE_CLK.LOL 1
    if s.flag r F.PANE_CLK.GATE then s1.gate pane
    else (s1.setFld r F.PANE_CLK.LOCK 0).setPane pane { s.pane pane with relocking := true, gatePend := false }
  else s

/-- R85. -/
def execPaneLossOfLock (d : Fin 4) (p : Fin 64) (s : State) : Res := .next (s.paneLoses (paneId d p))

/-! ### Channels -/

/-- Can a channel take one more item: is its first stage empty (R94)? A channel into a powered-down die acts as full (R100). -/
def State.stageFree (s : State) (pane k : Nat) : Bool :=
  match nbr pane (k / 16) with
  | none => false
  | some (np, hinge) =>
    let ch := s.chan pane k
    !(SMap.get {} s.dies (np / 64)).off && decide ((if hinge then ch.near.length else ch.far.length) < 8)

/-- Enter an item into the first stage of an outbound channel. -/
def State.enterItem (s : State) (pane k : Nat) (it : ChanItem) : State :=
  let ch := s.chan pane k
  match nbr pane (k / 16) with
  | some (_, true) => s.setChan pane k { ch with near := ch.near ++ [it] }
  | _ => s.setChan pane k { ch with far := ch.far ++ [it] }

/-- An item an inlet of the pane enters: tagged with its live bank (R95), tag and context written three times, parity formed (R174). -/
def State.newItem (s : State) (pane : Nat) (w : Word) (tag : Bool) : ChanItem :=
  ⟨w, thrice tag, thrice (SMap.get false s.bank pane), byteParity w⟩

/-- R87, R88, R90, R95. The inlet of outbound channel `k` enters an item at the edge that ends the pane's present cycle. Where two items would enter
it at that edge, a THRU pass of an old-bank item and what the live inlet enters, the first of them enters, and the other does not (DESIGN CHOICE, log
entry 157). -/
def execChannelEnter (d : Fin 4) (p : Fin 64) (k : Fin 64) (dt : Nat) (s : State) : Res :=
  let pane := paneId d p
  let s1 := s.advance pane dt
  let u := s1.cyc pane; let ch := s1.chan pane k; let v := s1.chIn (s1.liveCopy pane) pane k
  let done := fun (s2 : State) => s2.setChan pane k { s2.chan pane k with inCyc := u + 1 }
  .next (
    if ¬ s1.paneRuns pane ∨ ch.inCyc = u + 1 then s1
    else match getF v F.PANE_CHIN.MODE with
    | 1 =>
      let m := getF v F.PANE_CHIN.MEM; let q := getF v F.PANE_CHIN.Q
      if s1.served pane (true, m, q) false (.chan k) ∧ s1.stageFree pane k then
        let r := s1.popBound pane m q
        if r.1.2.2 then done (r.2.enterItem pane k (s1.newItem pane r.1.1 r.1.2.1)) else s1
      else s1
    | 2 =>
      let sc := getF v F.PANE_CHIN.SCELL
      let x := s1.cell (cellKey pane (sc / 32) (sc % 32))
      if sc / 32 % 8 = 4 ∨ x.ran ≠ u + 1 ∨ ¬ x.wroteOut ∨ ¬ (getF v F.PANE_CHIN.LVMASK).testBit x.lastLv then s1
      else if s1.stageFree pane k then done (s1.enterItem pane k (s1.newItem pane x.out false))
      else done (s1.addSat (R.PANE_CHSTAT d p k) F.PANE_CHSTAT.OVR 1)
    | _ => s1)

/-- Has the outlet of inbound channel `j` delivered in the present cycle (R87)? -/
def State.outletDone (s : State) (pane j : Nat) : Bool :=
  match inboundOf pane j with
  | some (sp, sk, _) => decide ((s.chan sp sk).outCyc = s.cyc pane + 1)
  | none => false

/-- Does a LATCH outlet of lower inbound index deliver to latch `l` at this edge (R91)? One that has delivered in the cycle is noted among
the latch's writes; its next item waits for the next edge (R87). -/
def State.latchTaken (s : State) (pane k l : Nat) : Bool :=
  (s.pane pane).latchW.any (fun e => decide (e.1 = l)) ||
  (List.range k).any fun j =>
    !s.outletDone pane j &&
    match s.inboundHead pane j with
    | none => false
    | some it =>
      let v := s.chOut (if it.bank then 1 else 0) pane j
      decide (getF v F.PANE_CHOUT.MODE = 2 ∧ getF v F.PANE_CHOUT.LATCH = l)

/-- What the outlet of inbound channel `k` does with its head item (Table 4.12, R89–R92, R96): the state after a delivery, or none
where it holds the item. The inlet that a THRU pass enters takes one item in a cycle (R87). -/
def State.deliverItem (s : State) (pane k : Nat) (it : ChanItem) : Option State :=
  let c := if it.bank then 1 else 0
  let v := s.chOut c pane k
  match getF v F.PANE_CHOUT.MODE with
  | 1 =>
    let m := getF v F.PANE_CHOUT.MEM; let q := getF v F.PANE_CHOUT.Q
    if s.served pane (true, m, q) true (.chan k) then
      if s.queueMode pane m then
        if s.discards pane m q ∨ s.bindRoom pane m q then some (s.pushQueue pane m q it.word it.tag).2 else none
      else
        let r := s.pushPort pane m q it.word it.tag
        if r.1 then some r.2 else none
    else none
  | 2 =>
    let l := getF v F.PANE_CHOUT.LATCH
    if s.latchTaken pane k l then none
    else some (s.setPane pane { s.pane pane with latchW := (s.pane pane).latchW ++ [(l, it.word)] })
  | 3 =>
    let j := getF v F.PANE_CHOUT.TDST
    let w := s.chIn c pane j
    if getF w F.PANE_CHIN.MODE = 3 ∧ getF w F.PANE_CHIN.TSRC = k ∧ s.stageFree pane j ∧ (s.chan pane j).inCyc ≠ s.cyc pane + 1 then
      let s1 := s.enterItem pane j it
      some (s1.setChan pane j { s1.chan pane j with inCyc := s.cyc pane + 1 })
    else none
  | _ => none

/-- Is the head item held because the THRU pair does not match (R92)? -/
def State.mismatched (s : State) (pane k : Nat) (it : ChanItem) : Bool :=
  let c := if it.bank then 1 else 0
  let v := s.chOut c pane k
  let w := s.chIn c pane (getF v F.PANE_CHOUT.TDST)
  decide (getF v F.PANE_CHOUT.MODE = 3) && !decide (getF w F.PANE_CHIN.MODE = 3 ∧ getF w F.PANE_CHIN.TSRC = k)

/-- R87–R92, R96, R101. The outlet of inbound channel `k` delivers its head item, under the bank its tag names, at the edge that ends
the receiving pane's present cycle; or holds it. -/
def execChannelDeliver (d : Fin 4) (p : Fin 64) (k : Fin 64) (dt : Nat) (s : State) : Res :=
  let pane := paneId d p
  let s1 := s.advance pane dt
  let u := s1.cyc pane
  .next (
    match inboundOf pane k with
    | none => s1
    | some (sp, sk, hinge) =>
      match (s1.chan sp sk).far with
      | [] => s1
      | it :: _ =>
        if ¬ s1.paneRuns pane ∨ (s1.chan sp sk).outCyc = u + 1 then s1
        else match s1.deliverItem pane k it with
        | none => if s1.mismatched pane k it then s1.setFld (R.PANE_CHSTAT d p k) F.PANE_CHSTAT.MISM 1 else s1
        | some s2 =>
          let ch := s2.chan sp sk
          let s3 := s2.setChan sp sk { ch with far := ch.far.tail, outCyc := u + 1, outBank := it.bank, ret := if hinge then ch.ret + 1 else ch.ret }
          if byteParity it.word = it.par then s3 else s3.setFld (R.PANE_CHSTAT d p k) F.PANE_CHSTAT.PERR 1)

end Sys2Proof.Machine
end

