-- ==== Sys2Proof/Machine/WordMem.lean ====
section
/-!
DEFINITION. Word memory blocks (Chapter 7): the transom window and locked use (R163–R166), the line mover (R167–R169), RAM ports (R161),
flushes (R170), the ledger (R171, R172) and patrol (R177).
-/
namespace Sys2Proof.Machine

/-! ### The transom window (R163, Table 7.7A) -/

/-- Write words to entries from `a` on, tag 0. -/
def State.writeEntries (s : State) (blk a : Nat) : List Word → State
  | [] => s
  | w :: ws => (s.storeEntry blk a 2 { word := w }).writeEntries blk (a + 1) ws

/-- Read `n` entries from `a` on, as the window sees them (R162), checked: the words, whether one was uncorrectable, the state after. -/
def State.readEntries (s : State) (blk : Nat) : Nat → Nat → List Word × Bool × State
  | _, 0 => ([], false, s)
  | a, n + 1 =>
    let x := s.entryNet blk a
    let r := (s.checkRead blk a x).readEntries blk (a + 1) n
    (x.word :: r.1, decide (x.bad = 2) || r.2.1, r.2.2)

/-- A request at the entry range. -/
def State.wmEntries (s : State) (pane m a : Nat) (pk : Packet) : State :=
  let blk := pane * 6 + m
  let ram := decide (1 ≤ s.numPorts pane m)
  if pk.cmd = cRD then
    if 16384 < a + pk.len.val then s.answerErr pk eRANGE
    else
      let r := s.readEntries blk a pk.len.val
      if r.2.1 then r.2.2.answerErr pk eDATA else r.2.2.answerData pk r.1
  else if ¬ ram then s.answerErr pk eUNSUP
  else if pk.cmd = cWR ∨ pk.cmd = cWRP then
    if 16384 < a + pk.len.val then s.answerErr pk eRANGE
    else ((s.writeEntries blk a pk.data).wmXpar blk (anyFails pk)).answerData pk []
  else if pk.cmd = cADD ∨ pk.cmd = cSWAP then
    let x := s.entryNet blk a
    let s1 := s.checkRead blk a x
    if x.bad = 2 then s1.answerErr pk eDATA
    else (s1.storeEntry blk a 2 { word := if pk.cmd = cADD then x.word + pk.opnd else pk.opnd, tag := x.tag }).answer pk
      { completion pk cCPL with opnd := x.word }
  else s.answerErr pk eUNSUP

/-- A request at a queue port: one whose push the rest of the cycle may still change waits for the cycle's end (R153, R158). A posted write
that the queue does not serve counts in its REFUSED (R163, R185). DESIGN CHOICE (log entry 17): an RDLK by the initiator that already holds the
lock is served at once and keeps the lock. -/
def State.wmQueuePort (s : State) (pane m q : Nat) (pk : Packet) : State :=
  let blk := pane * 6 + m; let x := s.queue blk q
  if ¬ s.qUsable pane m q then
    (if posted pk.cmd then s.refuse pane m q pk.data.length else s).answerErr pk eUNSUP
  else if pk.cmd = cWR ∨ pk.cmd = cWRP then
    if s.netWaits pane m q pk.data.length then s.waitPush pane (.net m q pk) else s.netPush pane m q pk
  else if ¬ s.lockedUse pane m q then s.answerErr pk eUNSUP
  else if pk.cmd = cRD ∨ pk.cmd = cRDLK ∨ pk.cmd = cWRUL then
    if x.lock = none ∨ x.lock = some pk.src then
      (if pk.cmd = cWRUL then (s.lockedServe pane m q pk).serveWaiters pane m q 5 else s.lockedServe pane m q pk)
    else if x.waiters.length < 4 then s.setQueue blk q { x with waiters := x.waiters ++ [pk] }
    else s.answerErr pk eREFUSED
  else s.answerErr pk eUNSUP

/-- A transom request taken whole by block `m` of a pane at window offset `o` (R163, R173). While GSR is held no lock is taken (R179; log
entry 101). -/
def State.wmTarget (s : State) (pane m o : Nat) (pk : Packet) : State :=
  let writes := decide (pk.cmd = cWR ∨ pk.cmd = cWRP ∨ pk.cmd = cADD ∨ pk.cmd = cSWAP ∨ pk.cmd = cWRUL)
  if 0x4004 ≤ o then s.answerErr pk eRANGE
  else if writes ∧ ¬ s.paneOpen pane then
    let s1 := if (pk.cmd = cWR ∨ pk.cmd = cWRP) ∧ 0x4000 ≤ o then s.refuse pane m (o - 0x4000) pk.data.length else s
    s1.answerErr pk eREFUSED
  else if pk.cmd = cRDLK ∧ 0x4000 ≤ o ∧ ¬ (SMap.get {} s.dies (pane / 64)).gsr then s.answerErr pk eREFUSED
  else if 0x4000 ≤ o then s.wmQueuePort pane m (o - 0x4000) pk
  else s.wmEntries pane m o pk

/-- R166. The pane's clock counts the cycles; neither the start-up order nor a shut pane holds them up. -/
def execLockBreak (d : Fin 4) (p : Fin 64) (m : Fin 6) (q : Fin 4) (s : State) : Res :=
  let pane := paneId d p; let blk := blkId d p m
  .next (
    if s.fld (R.WM_CFG d p m) F.WM_CFG.LKTO ≠ 0 ∧ (s.queue blk q).lock.isSome ∧ ¬ s.dieDark d ∧ s.flag (R.PANE_CLK d p) F.PANE_CLK.LOCK then
      (s.setFld (wmErr blk) F.WM_ERR.LKBRK 1).unlock pane m q
    else s)

/-! ### RAM ports -/

/-- R161, R162. The port serves its next request, accepted in an earlier cycle, one in a cycle. A read sees the entry as it stood at the
start of the cycle; of several writes of one entry in one cycle that of port 1 stands before that of port 0, and the transom's before
both. -/
def execRamPortServe (d : Fin 4) (p : Fin 64) (m : Fin 6) (i : Fin 2) (dt : Nat) (s : State) : Res :=
  let pane := paneId d p; let blk := blkId d p m
  let s1 := s.advance pane dt
  let x := s1.port blk i; let u := s1.cyc pane
  .next (
    match x.reqs with
    | [] => s1
    | r :: rs =>
      if u ≤ r.cyc ∨ x.goneCyc = u + 1 ∨ s1.numPorts pane m ≤ i.val ∨ ¬ s1.paneRuns pane then s1
      else if r.write then
        (s1.storeEntry blk r.addr i { word := r.word, tag := r.tag }).setPort blk i { x with reqs := rs, goneCyc := u + 1, goneN := 2 }
      else
        let e := s1.entryStart blk r.addr
        (s1.checkRead blk r.addr e).setPort blk i
          { x with reqs := rs, resps := x.resps ++ [⟨e.word, e.tag, u + 2⟩], goneCyc := u + 1, goneN := 1 })

/-! ### The line mover -/

/-- The priority of a local port's requests (Table 8.18). -/
def State.portPrio (s : State) (pane port : Nat) : Fin 4 :=
  let v := s.live pane (R.TR_PPRI (pane / 64) (pane % 64))
  Fin.ofNat 4 (bitsOf v.toNat (2 * (port - 4) + 1) (2 * (port - 4)))

/-- The word address of word `i` of a line (before R167). -/
def mvAddr (e : MvSet) (slot line i : Nat) : Nat := (e.base + slot * e.fstride + line * e.lstride + i) % 2 ^ 40

/-- Has the consumer of a queue popped in the present cycle? A line mover pops one entry in a cycle (R162). -/
def State.poppedNow (s : State) (pane m q : Nat) : Bool := decide ((s.queue (pane * 6 + m) q).goneCyc = s.cyc pane + 1)

/-- R167. A FETCH mover with no line pops a command word and latches its settings. -/
def execMoverFetchLine (d : Fin 4) (p : Fin 64) (m : Fin 6) (dt : Nat) (s : State) : Res :=
  let pane := paneId d p; let blk := blkId d p m
  let s1 := s.advance pane dt
  let mv := s1.mover blk; let e := s1.mvLive pane m
  let cq := s1.liveF pane (R.WM_MVCFG d p m) F.WM_MVCFG.CQ
  .next (
    if mv.hold ∨ mv.ctl ∨ e.dir ≠ 1 ∨ ¬ s1.paneRuns pane ∨ ¬ s1.served pane (true, m, cq) false .mover ∨ s1.poppedNow pane m cq then s1
    else
      let r := s1.popQueue pane m cq
      if r.1.2.2 then
        r.2.setMover blk { mv with hold := true, set := e, slot := bitsOf r.1.1.toNat 39 36, line := bitsOf r.1.1.toNat 15 0, i := 0 }
      else s1)

/-- R167. A FETCH mover issues its next RD, reserving positions of its data queue: one in a cycle, and not behind words that the transom has
pushed in the cycle (R153: what stood at its start counts; log entry 102). With its line's last RD the position returns to SLOT 0, LINE 0, from
which a POST mover starts (R168), and the mover holds no line, though completions are still to come (DESIGN CHOICE, log entry 164). -/
def execMoverFetchIssue (d : Fin 4) (p : Fin 64) (m : Fin 6) (dt : Nat) (s : State) : Res :=
  let pane := paneId d p; let blk := blkId d p m
  let s1 := s.advance pane dt
  let mv := s1.mover blk; let e := mv.set; let u := s1.cyc pane
  let n := min e.rwords (e.lwords - mv.i); let port := portId pane (4 + m)
  .next (
    if ¬ mv.hold ∨ e.dir ≠ 1 ∨ mv.pend.length ≥ 16 ∨ ¬ s1.paneRuns pane ∨ ¬ s1.served pane (true, m, e.dq) true .mover ∨
        ¬ s1.hasRoom pane m e.dq n ∨ mv.issCyc = u + 1 ∨ (s1.queue blk e.dq).netNow u ≠ [] then s1
    else match s1.freeTag port 16 with
    | none => s1
    | some t =>
      let x := s1.queue blk e.dq
      let reg := s1.qRegion pane m e.dq
      let pos := (List.range n).map fun j => (reg.1 + (x.wpos + j) % reg.2) % 16384
      let last := decide (mv.i + n = e.lwords)
      let s2 := s1.setQueue blk e.dq { x with slots := x.slots ++ pos.map fun a => ⟨a, false, u + 1, 0, true, false⟩, wpos := x.wpos + n }
      let s3 := s2.setMover blk { mv with
        i := if last then 0 else mv.i + n, slot := if last then 0 else mv.slot, line := if last then 0 else mv.line
        hold := !last, issCyc := u + 1, pend := mv.pend ++ [⟨t, e.dq, pos, last, false⟩] }
      s3.sendReq { src := port, cmd := cRD, prio := s1.portPrio pane (4 + m), tag := Fin.ofNat 1024 t, len := Fin.ofNat 65 n,
                   addr := BitVec.ofNat 40 (mvAddr e mv.slot mv.line mv.i) } (.mover blk))

/-- The slots with the reservation of a position filled, if there is one. -/
def fillFirst (pos acc : Nat) : List QSlot → Option (List QSlot)
  | [] => none
  | e :: es => if e.pos = pos ∧ ¬ e.filled then some ({ e with filled := true, acc := acc } :: es) else (fillFirst pos acc es).map (e :: ·)

/-- Fill reserved positions with the words of a completion (R167); the last word of the line carries tag 1. A word whose position is not
reserved counts as one dropped. -/
def State.fillSlots (s : State) (pane m q : Nat) (last : Bool) : List Nat → List Word → State
  | pos :: ps, w :: ws =>
    let blk := pane * 6 + m; let x := s.queue blk q; let u := s.cyc pane
    (match fillFirst pos (u + 1) x.slots with
     | some sl => (s.storeEntry blk pos 3 { word := w, tag := last && ps.isEmpty }).setQueue blk q { x with cIn := x.cIn + 1, slots := sl }
     | none => s.setQueue blk q { x with cIn := x.cIn + 1, cFlush := x.cFlush + 1 }).fillSlots pane m q last ps ws
  | _, _ => s

/-- A completion reaches a line mover: CPL with words, or CPLE (none) (R167, R170). DESIGN CHOICE (log entry 103): LINES counts a FETCH line
at the completion of the request that was issued last for it, and a POST line at the pop of its last word. -/
def State.moverDone (s : State) (blk tag : Nat) (ws : Option (List Word)) (xpar : Bool) : State :=
  let pane := blk / 6; let m := blk % 6; let mv := s.mover blk
  match mv.pend.find? fun r => decide (r.tag = tag) with
  | none => s
  | some r =>
    let s1 := s.setMover blk { mv with pend := mv.pend.filter fun x => !decide (x.tag = tag) }
    let n := r.pos.length
    let st := R.WM_MVSTAT (pane / 64) (pane % 64) m
    let words := match ws with | some l => l | none => List.replicate n (s.idleWord pane m r.q)
    let s2 := if r.cancelled then
        let x := s1.queue blk r.q
        s1.setQueue blk r.q { x with cIn := x.cIn + BitVec.ofNat 32 n, cFlush := x.cFlush + BitVec.ofNat 32 n }
      else s1.fillSlots pane m r.q r.last r.pos words
    let s3 := if r.last then s2.addSat st F.WM_MVSTAT.LINES 1 else s2
    (if ws.isNone then s3.setFld st F.WM_MVSTAT.TERR 1 else s3).wmXpar blk xpar

/-- R168. A POST mover takes its next entry: a control word once nothing gathered waits, or a data word. DESIGN CHOICE (log entry 104): LINE
goes on past 0xFFFF where LWORDS lets it, for the address is taken modulo 2^40 alone. -/
def execMoverPostEntry (d : Fin 4) (p : Fin 64) (m : Fin 6) (dt : Nat) (s : State) : Res :=
  let pane := paneId d p; let blk := blkId d p m
  let s1 := s.advance pane dt
  let mv := s1.mover blk; let e := s1.mvEff pane m
  .next (
    if e.dir ≠ 2 ∨ mv.full ∨ ¬ s1.paneRuns pane ∨ ¬ s1.served pane (true, m, e.dq) false .mover ∨ s1.poppedNow pane m e.dq then s1
    else match (s1.queue blk e.dq).visible (s1.cyc pane) with
    | none => s1
    | some pos =>
      if (s1.entry blk pos).tag then
        if mv.buf ≠ [] then s1.setMover blk { mv with full := true }
        else
          let r := s1.popQueue pane m e.dq
          let l := s1.mvLive pane m
          r.2.setMover blk { mv with
            set := l, ctl := decide (l.dir = 2), i := 0
            slot := if l.dir = 2 then bitsOf r.1.1.toNat 39 36 else 0, line := if l.dir = 2 then bitsOf r.1.1.toNat 15 0 else 0 }
      else
        let r := s1.popQueue pane m e.dq
        let buf := mv.buf ++ [r.1.1]
        let wrap := decide (mv.i + 1 = e.lwords)
        let s2 := r.2.setMover blk { mv with
          buf := buf
          bufAddr := if mv.buf = [] then mvAddr e mv.slot mv.line mv.i else mv.bufAddr
          i := if wrap then 0 else mv.i + 1
          line := if wrap then mv.line + 1 else mv.line
          full := wrap || decide (e.rwords ≤ buf.length) }
        if wrap then s2.addSat (R.WM_MVSTAT d p m) F.WM_MVSTAT.LINES 1 else s2)

/-- Issue the gathered words of a POST mover as one WRP. -/
def State.moverPost (s : State) (pane m : Nat) : State :=
  let blk := pane * 6 + m; let mv := s.mover blk; let port := portId pane (4 + m)
  (s.setMover blk { mv with buf := [], full := false }).sendReq
    { src := port, cmd := cWRP, prio := s.portPrio pane (4 + m), len := Fin.ofNat 65 mv.buf.length,
      addr := BitVec.ofNat 40 mv.bufAddr, data := mv.buf } (.mover blk)

/-- R168. -/
def execMoverPostIssue (d : Fin 4) (p : Fin 64) (m : Fin 6) (dt : Nat) (s : State) : Res :=
  let pane := paneId d p; let s1 := s.advance pane dt; let mv := s1.mover (blkId d p m)
  .next (if mv.full ∧ mv.buf ≠ [] ∧ s1.paneRuns pane then s1.moverPost pane m else s1)

/-- R168. DQ has shown no head for 64 cycles: what is gathered is issued. -/
def execMoverPostIdleTimeout (d : Fin 4) (p : Fin 64) (m : Fin 6) (dt : Nat) (s : State) : Res :=
  let pane := paneId d p; let s1 := s.advance pane dt; let mv := s1.mover (blkId d p m); let e := s1.mvEff pane m
  .next (
    if mv.buf ≠ [] ∧ s1.paneRuns pane ∧ (s1.queue (blkId d p m) e.dq).visible (s1.cyc pane) = none then s1.moverPost pane m
    else s1)

/-! ### Flushes (R170) -/

/-- What R170 compares of a queue's live settings: MODE, existence, region, LOCKED, disabled. -/
def State.qSettings (s : State) (pane m q : Nat) : Nat × Bool × (Nat × Nat) × Bool × Bool :=
  (s.wmCfg pane m F.WM_CFG.MODE, decide (q < s.numQueues pane m), s.qRegion pane m q, s.lockedUse pane m q, s.qDisabled pane m q)

/-- Flush a queue. -/
def State.flushQueue (s : State) (pane m q : Nat) : State :=
  let blk := pane * 6 + m; let x := s.queue blk q; let mv := s.mover blk
  let s1 := x.waiters.foldl (fun a pk => a.answerErr pk eREFUSED) s
  let s2 := s1.setQueue blk q { x with
    slots := [], wpos := 0, rpos := 0, dpend := false, dpEnd := 0, refN := 0, lock := none, waiters := []
    cFlush := x.cFlush + BitVec.ofNat 32 x.occ, goneCyc := 0, goneN := 0 }
  s2.setMover blk { mv with pend := mv.pend.map fun r => if r.q = q then { r with cancelled := true } else r }

/-- The overlaps that disable queues (R152): a queue that is enabled, a higher one that exists, and the regions they share. -/
def State.overlaps (s : State) (pane m : Nat) : List (Nat × Nat × (Nat × Nat) × (Nat × Nat)) :=
  (s.enabledQueues pane m 4).flatMap fun k =>
    ((List.range (s.numQueues pane m)).filter fun q => decide (k < q) && regionsMeet (s.qRegion pane m k) (s.qRegion pane m q)).map fun q =>
      (k, q, s.qRegion pane m k, s.qRegion pane m q)

/-- Set OVL where an overlap stands that did not stand among `old` (R152). -/
def State.noteOverlaps (s : State) (pane m : Nat) (old : List (Nat × Nat × (Nat × Nat) × (Nat × Nat))) : State :=
  if (s.overlaps pane m).any fun x => !old.contains x then s.setFld (wmErr (pane * 6 + m)) F.WM_ERR.OVL 1 else s

/-- A POST mover that has taken no control word keeps the settings it works under over a commit (R169). -/
def State.latchPost (s : State) (pane m : Nat) : State :=
  let mv := s.mover (pane * 6 + m); let l := s.mvLive pane m
  if ¬ mv.hold ∧ ¬ mv.ctl ∧ l.dir = 2 then s.setMover (pane * 6 + m) { mv with set := l, ctl := true } else s

/-- What the switching edge of a pane does to block `m`, `old` being the state before it. -/
def State.flushBlock (s old : State) (pane m : Nat) : State :=
  let s1 := ((List.range 4).foldl (fun a q =>
    if s.qSettings pane m q = old.qSettings pane m q then a else a.flushQueue pane m q) s).noteOverlaps pane m (old.overlaps pane m)
  if s.wmCfg pane m F.WM_CFG.MODE = old.wmCfg pane m F.WM_CFG.MODE then s1
  else (s1.setPort (pane * 6 + m) 0 {}).setPort (pane * 6 + m) 1 {}

/-- The switching edge of a pane at a commit (R51, R76, R111, R170): the present cycle ends under the old settings, the copies
exchange roles, queues whose settings changed are flushed, the schedule restarts at slot 0 and every SEQ redirection lapses. -/
def State.exchangePane (s : State) (pane : Nat) : State :=
  let s1 := (List.range 6).foldl (fun a m => a.latchPost pane m) (s.closeCycle pane)
  let s2 := s1.flip pane
  let s3 := (List.range 6).foldl (fun a m => a.flushBlock s1 pane m) s2
  s3.setPane pane { s3.pane pane with slot := 0, lapse := (s3.pane pane).cycle + 1 }

/-! ### Ledger and patrol -/

/-- Capture the ledger of a block (R171, R172). -/
def State.snapBlock (s : State) (d p m : Nat) : State :=
  let blk := blkId d p m
  let s1 := (List.range 4).foldl (fun a q =>
    let x := s.queue blk q
    ((((((a.setReg (R.WM_QLEDGER d p m q 0) x.cIn).setReg (R.WM_QLEDGER d p m q 1) x.cOut).setReg
      (R.WM_QLEDGER d p m q 2) x.cSlam).setReg (R.WM_QLEDGER d p m q 3) x.cFlush).setReg
      (R.WM_QLEDGER d p m q 4) (BitVec.ofNat 32 x.occ)).setReg (R.WM_QLEDGER d p m q 5) x.cRef)) s
  (s1.setFld (R.WM_LCTL d p m) F.WM_LCTL.SEQ (s.fld (R.WM_LCTL d p m) F.WM_LCTL.SEQ + 1)).setMover blk
    { s1.mover blk with snaps := 0 }

/-- A capture for each of `n` writes of SNAP that waited. -/
def State.snapTimes (s : State) (d p m : Nat) : Nat → State
  | 0 => s
  | n + 1 => (s.snapBlock d p m).snapTimes d p m n

/-- R172. A write of 1 to WM_LCTL.SNAP: the capture, or, while the pane's clocks are stopped, a capture that waits for them. -/
def State.lctlSnap (s : State) (d p m : Nat) : State :=
  if s.dieDark d then s
  else if s.flag (R.PANE_CLK d p) F.PANE_CLK.LOCK then s.snapBlock d p m
  else s.setMover (blkId d p m) { s.mover (blkId d p m) with snaps := (s.mover (blkId d p m)).snaps + 1 }

/-- R172. -/
def execLedgerSnap (d : Fin 4) (p : Fin 64) (m : Fin 6) (s : State) : Res := .next (s.reach d (R.WM_LCTL d p m) 1 (·.lctlSnap d p m))

/-- Does an entry hold live data (R177)? -/
def State.liveEntry (s : State) (pane m a : Nat) : Bool :=
  decide (1 ≤ s.numPorts pane m) ||
  (List.range (s.numQueues pane m)).any fun q => ((s.queue (pane * 6 + m) q).slots).any fun e => e.filled && decide (e.pos = a)

/-- R177. -/
def execWmPatrolRead (d : Fin 4) (p : Fin 64) (m : Fin 6) (s : State) : Res :=
  let pane := paneId d p; let blk := blkId d p m; let mv := s.mover blk
  .next (
    if s.flag (R.WM_CFG d p m) F.WM_CFG.PEN ∧ s.paneRuns pane then
      let a := mv.patrol
      let s1 := if (s.entry blk a).bad = 2 ∧ ¬ s.liveEntry pane m a then (s.setEntry blk a {}).addSat (wmErr blk) F.WM_ERR.CECNT 1
                else s.checkEntry blk a
      s1.setMover blk { mv with patrol := (a + 1) % 16384 }
    else s)

end Sys2Proof.Machine
end

