-- ==== Sys2Proof/Machine/Engines.lean ====
section
/-!
DEFINITION. Signal engines (Chapter 6): the bundle (R123), one engine cycle (R124–R126), the operations of the four slots, running and
stopping (R143), the watchdog (R144), and the data memory as a transom target (R138).
-/
namespace Sys2Proof.Machine

/-! ### State and memories -/

def State.eng (s : State) (g : Nat) : EngSt := SMap.get {} s.engs g

def State.setEng (s : State) (g : Nat) (x : EngSt) : State := { s with engs := SMap.set {} s.engs g x }

/-- Die, index and pane of engine number `g`. -/
def engDie (g : Nat) : Nat := g / 128
def engIx (g : Nat) : Nat := g % 128
def engPane (g : Nat) : Nat := g / 2

/-- A word of data memory. -/
def State.dmWord (s : State) (g a : Nat) : Entry := SMap.get {} s.dm (32768 * g + a)

def State.setDm (s : State) (g a : Nat) (x : Entry) : State := { s with dm := SMap.set {} s.dm (32768 * g + a) x }

/-- ENG_ERR of an engine. -/
def engErr (g : Nat) : Nat := R.ENG_ERR (engDie g) (engIx g)

/-- Set ENG_SIG.PEND (R147). -/
def State.engPend (s : State) (g : Nat) : State := s.setFld (R.ENG_SIG (engDie g) (engIx g)) F.ENG_SIG.PEND 1

/-- Set an error bit that raises ENG_EVENT at its rise (R147). -/
def State.engRaise (s : State) (g : Nat) (f : Fld) : State :=
  if s.flag (engErr g) f then s else (s.setFld (engErr g) f 1).engPend g

/-- The check of a data memory read (R134): a single-bit error is corrected and noted. -/
def State.checkDm (s : State) (g a : Nat) : State :=
  if (s.dmWord g a).bad = 1 then (s.setDm g a { s.dmWord g a with bad := 0 }).setFld (engErr g) F.ENG_ERR.CE 1 else s

/-- The 120 bits of the bundle at an address, in program bank `c` (Table 14.5). -/
def State.bundleAt (s : State) (c g pc : Nat) : Nat :=
  let f := paneFrame (engPane g) 3 (g % 2) (pc / 32)
  let w := fun i => (s.frameWord c f (3 * (pc % 32) + i)).toNat
  w 0 * 2 ^ 80 + w 1 * 2 ^ 40 + w 2

/-- The key of the SECDED mark of a bundle. -/
def pmKey (c g pc : Nat) : Nat := (c * 512 + g) * 4096 + pc

/-- The 30 bits of slot `i`: 0 LS, 1 MAC, 2 ALU, 3 BR (Table 6.2). -/
def slotOf (b i : Nat) : Nat := b / 2 ^ (90 - 30 * i) % 2 ^ 30

def slotOp (w : Nat) : Nat := bitsOf w 29 24

/-! ### Legality (R123, R142, R143) -/

/-- Is a slot's operation legal: a known opcode, reserved fields 0, and no code the chapter calls illegal? -/
def slotLegal (i w : Nat) : Bool :=
  let z := fun hi lo => decide (bitsOf w hi lo = 0)
  let mode := bitsOf w 19 18
  match i, slotOp w with
  | _, 0x00 => true
  | 0, 0x01 | 0, 0x02 | 0, 0x03 | 0, 0x04 => true
  | 0, 0x08 => z 5 0
  | 0, 0x09 => z 11 10 && z 5 0
  | 0, 0x0A => z 19 14 && z 12 0
  | 0, 0x10 => z 5 0
  | 0, 0x11 => z 4 0
  | 1, 0x01 | 1, 0x02 | 1, 0x03 | 1, 0x04 | 1, 0x08 | 1, 0x09 => z 5 0
  | 1, 0x0A | 1, 0x10 => z 11 0
  | 1, 0x11 => z 17 0
  | 1, 0x18 | 1, 0x19 => z 17 7
  | 2, 0x01 | 2, 0x19 => decide (mode = 0) && z 5 0
  | 2, 0x02 | 2, 0x03 => z 19 18
  | 2, 0x08 | 2, 0x09 | 2, 0x0A | 2, 0x0B | 2, 0x0C | 2, 0x0D | 2, 0x14 | 2, 0x15 | 2, 0x16 => decide (mode ≤ 1)
  | 2, 0x0E | 2, 0x0F => decide (mode ≤ 1) && z 5 0
  | 2, 0x10 | 2, 0x11 | 2, 0x12 => decide (mode = 0)
  | 2, 0x18 => decide (mode = 1) && z 5 0
  | 2, 0x1C | 2, 0x1D | 2, 0x1E => decide (mode = 0) && z 17 15
  | 2, 0x1F => decide (mode = 0) && z 17 15 && z 11 1
  | 2, 0x20 => decide (mode = 0) && z 5 0 && decide (bitsOf w 11 6 ≤ 15)
  | 2, 0x21 => decide (mode = 0) && z 5 0 && (let k := bitsOf w 17 12; decide (k ≤ 2 ∨ (6 ≤ k ∧ k ≤ 15)))
  | 2, 0x22 => z 19 15
  | 2, 0x23 => z 19 15 && z 11 9 && z 5 0
  | 2, 0x28 => decide (mode = 0) && z 17 12 && z 5 0
  | 3, 0x01 | 3, 0x02 => z 19 12
  | 3, 0x03 | 3, 0x11 | 3, 0x12 | 3, 0x14 => z 19 0
  | 3, 0x08 => decide (bitsOf w 19 18 ≠ 3)
  | 3, 0x09 => decide (bitsOf w 19 18 ≠ 3) && z 4 0
  | 3, 0x0A => decide (bitsOf w 19 18 ≠ 3 ∧ bitsOf w 11 9 ≠ 0) && z 2 0
  | 3, 0x10 => z 19 5 && decide (bitsOf w 4 0 ≤ 16)
  | 3, 0x13 => z 19 8
  | _, _ => false

/-- The slots whose operation is not legal, lowest first. -/
def illegalSlots (b : Nat) : List Nat := (List.range 4).filter fun i => !slotLegal i (slotOf b i)

/-- Does a slot execute: not a slot NOP, and its predicate holds (R123)? -/
def slotRuns (x : EngSt) (w : Nat) : Bool :=
  decide (slotOp w ≠ 0) && (x.p.getLsbD (bitsOf w 22 20) ^^ w.testBit 23)

/-! ### Registers -/

/-- The physical register that number `r` names (R127). -/
def EngSt.phys (x : EngSt) (r : Nat) : Nat :=
  let f := x.rrb.toNat; let b := 8 * bitsOf f 2 0; let z := 8 * (bitsOf f 5 3 + 1)
  if f.testBit 6 ∧ b ≤ r ∧ r < b + z then b + (r - b + bitsOf f 12 7) % z else r

def EngSt.vr (x : EngSt) (r : Nat) : Word := SMap.get 0 x.v (x.phys r)

/-- What a bundle's slots have written so far: the engine's state, and the V (0–63), predicate (64 + n) and index (128 + k) registers
written, in order. -/
structure EngW where
  x : EngSt
  w : List Nat := []
  deriving DecidableEq, Repr

/-- Write a V register, named as the bundle saw it at its start. -/
def EngW.setV (a : EngW) (x0 : EngSt) (r : Nat) (v : Word) : EngW :=
  ⟨{ a.x with v := SMap.set 0 a.x.v (x0.phys r) v }, x0.phys r :: a.w⟩

/-- Write a predicate; P0 ignores writes. -/
def EngW.setP (a : EngW) (n : Nat) (b : Bool) : EngW :=
  if n = 0 then a
  else ⟨{ a.x with p := (a.x.p &&& ~~~(1#8 <<< n)) ||| (if b then 1#8 <<< n else 0) }, (64 + n) :: a.w⟩

def EngSt.xr (x : EngSt) (k : Nat) : BitVec 20 := SMap.get 0 x.x k

def EngW.setX (a : EngW) (k : Nat) (v : BitVec 20) : EngW := ⟨{ a.x with x := SMap.set 0 a.x.x k v }, (128 + k) :: a.w⟩

/-- step(Xk, d) (R133). -/
def stepX (v : BitVec 20) (d : Int) : BitVec 20 :=
  let a : Nat := v.toNat % 2 ^ 15; let m : Nat := v.toNat / 2 ^ 16
  let lo (w : Nat) : Nat := wrapTo w ((a : Int) + d)
  let a' : Nat := if m = 0 then lo 15 else a / 2 ^ m * 2 ^ m + lo m
  BitVec.ofNat 20 (m * 2 ^ 16 + v.toNat / 2 ^ 15 % 2 * 2 ^ 15 + a' % 2 ^ 15)

/-- The data memory address of an index register. -/
def addrX (v : BitVec 20) : Nat := v.toNat % 2 ^ 15

/-! ### MAC slot (Table 6.5) -/

/-- Clamp an accumulator half (R128). -/
def accClamp (v : Int) : Int := satS 56 v

/-- Set accumulator K to exact sums, clamped; AOV where a clamp changes a value. -/
def EngW.setAcc (a : EngW) (k : Nat) (re im : Int) : EngW :=
  let hit := accClamp re ≠ re ∨ accClamp im ≠ im
  { a with x := { a.x with
      aRe := SMap.set 0 a.x.aRe k (accClamp re), aIm := SMap.set 0 a.x.aIm k (accClamp im)
      estat := if hit then a.x.estat ||| 2 else a.x.estat } }

/-- h / 2^k to the nearest integer, halves to the even one (R129). -/
def roundEven (k : Nat) (h : Int) : Int :=
  let q := h / 2 ^ k; let r := h - q * 2 ^ k
  if 2 * r < 2 ^ k then q else if 2 ^ k < 2 * r then q + 1 else if q % 2 = 0 then q else q + 1

/-- The scaling shift of a move (R130). -/
def EngSt.shift (x : EngSt) : Nat := if x.scl.getLsbD 4 then bitsOf x.bexp.toNat 11 8 else bitsOf x.scl.toNat 3 0

/-- m(v): the smallest n from 0 to 19 with −2^n ≤ v < 2^n (R130). -/
def bitsNeeded (v : Int) : Nat := ((List.range 20).find? fun n => decide (-(2 ^ n) ≤ v ∧ v < 2 ^ n)).getD 19

/-- Feed both halves of a word to the block-exponent tracker. -/
def EngW.feed (a : EngW) (w : Word) : EngW :=
  let t := max (bitsOf a.x.bexp.toNat 4 0) (max (bitsNeeded (laneS 1 0 w)) (bitsNeeded (laneS 1 1 w)))
  { a with x := { a.x with bexp := BitVec.ofNat 40 (a.x.bexp.toNat / 32 * 32 + t) } }

/-- The MAC slot of a bundle; `x0` is the state at the start of the cycle. -/
def macSlot (x0 : EngSt) (w : Nat) (a : EngW) : EngW :=
  let k := bitsOf w 19 18; let vx := x0.vr (bitsOf w 17 12); let vy := x0.vr (bitsOf w 11 6)
  let xr := laneS 1 1 vx; let xi := laneS 1 0 vx; let yr := laneS 1 1 vy; let yi := laneS 1 0 vy
  let re := SMap.get 0 x0.aRe k; let im := SMap.get 0 x0.aIm k; let s := x0.shift
  let clr := fun (a : EngW) => if w.testBit 6 then a.setAcc k 0 0 else a
  let msat := fun (a : EngW) hit => if hit then { a with x := { a.x with estat := a.x.estat ||| 1 } } else a
  match slotOp w with
  | 0x01 => a.setAcc k (xr * yr - xi * yi) (xr * yi + xi * yr)
  | 0x02 => a.setAcc k (re + (xr * yr - xi * yi)) (im + (xr * yi + xi * yr))
  | 0x03 => a.setAcc k (re - (xr * yr - xi * yi)) (im - (xr * yi + xi * yr))
  | 0x04 => a.setAcc k (re + xr * yr + xi * yi) (im + xi * yr - xr * yi)
  | 0x08 => a.setAcc k (xr * yr) (xi * yi)
  | 0x09 => a.setAcc k (re + xr * yr) (im + xi * yi)
  | 0x0A => a.setAcc k (re + xr * xr + xi * xi) im
  | 0x10 => a.setAcc k (xr * 2 ^ 19) (xi * 2 ^ 19)
  | 0x11 => a.setAcc k 0 0
  | 0x18 =>
    let qr := roundEven (19 + s) re; let qi := roundEven (19 + s) im
    let v := pack 1 fun h => wrapTo 20 (satS 20 (if h = 1 then qr else qi))
    clr ((msat (a.setV x0 (bitsOf w 5 0) v) (decide (satS 20 qr ≠ qr ∨ satS 20 qi ≠ qi))).feed v)
  | 0x19 =>
    let q := roundEven s re
    clr (msat (a.setV x0 (bitsOf w 5 0) (BitVec.ofInt 40 (satS 40 q))) (decide (satS 40 q ≠ q)))
  | _ => a

/-! ### ALU slot (Table 6.7) -/

/-- Read a control register (Table 6.8). -/
def EngSt.control (x : EngSt) (k : Nat) : Word :=
  match k with
  | 0 => x.scl | 1 => x.bexp | 2 => x.rrb
  | 3 | 4 | 5 => BitVec.ofNat 40 (SMap.get 0 x.lc (k - 3))
  | 6 => x.estat.setWidth 40
  | 7 => x.p.setWidth 40
  | _ => (x.xr (k - 8)).setWidth 40

/-- z of an RRB value. -/
def rrbZ (v : Nat) : Nat := 8 * (bitsOf v 5 3 + 1)

/-- Is an MTC of this value to RRB illegal (R127)? -/
def rrbIllegal (v : Nat) : Bool := v.testBit 6 && decide (64 < 8 * bitsOf v 2 0 + rrbZ v)

/-- Write a control register: its defined fields (R132). No write of a control register sets WCOL (R126); DESIGN CHOICE (log entry 106): nor
does an MTC to codes 7 to 15 that meets another slot's write of the same predicate or index register. -/
def EngW.setControl (a : EngW) (k : Nat) (v : Word) : EngW :=
  match k with
  | 0 => { a with x := { a.x with scl := v &&& 0x7F } }
  | 1 => { a with x := { a.x with bexp := v &&& 0xFF0F1F } }
  | 2 => { a with x := { a.x with rrb := BitVec.ofNat 40 (v.toNat % 2 ^ 7 + bitsOf v.toNat 12 7 % rrbZ v.toNat * 2 ^ 7) } }
  | 6 => { a with x := { a.x with estat := v.setWidth 3 } }
  | 7 => { a with x := { a.x with p := (v.setWidth 8) ||| 1 } }
  | k => if 8 ≤ k then { a with x := { a.x with x := SMap.set 0 a.x.x (k - 8) (v.setWidth 20 &&& 0xF7FFF) } } else a

/-- A lane-wise result, saturating where asked; ASAT where a lane clamps. -/
def EngW.alu (a : EngW) (x0 : EngSt) (m d : Nat) (sat : Bool) (f : Nat → Int) : EngW :=
  let g := fun j => if sat then satS (laneW m) (f j) else f j
  let a1 := a.setV x0 d (pack m fun j => wrapTo (laneW m) (g j))
  if sat ∧ (List.range (laneN m)).any (fun j => decide (g j ≠ f j)) then { a1 with x := { a1.x with estat := a1.x.estat ||| 4 } } else a1

/-- The ALU slot of a bundle. -/
def aluSlot (x0 : EngSt) (w : Nat) (a : EngW) : EngW :=
  let m := bitsOf w 19 18; let d := bitsOf w 17 12; let k := bitsOf w 5 0
  let va := x0.vr (bitsOf w 11 6); let vb := x0.vr k
  let sa := fun j => laneS m j va; let sb := fun j => laneS m j vb; let ua := fun j => lane m j va
  let pd := bitsOf w 14 12; let imm := bitsOf w 11 0
  match slotOp w with
  | 0x01 => a.setV x0 d va
  | 0x02 => a.setV x0 d (BitVec.ofInt 40 (signedOf 12 imm))
  | 0x03 => a.setV x0 d (BitVec.ofNat 40 ((x0.vr d).toNat * 2 ^ 12 + imm))
  | 0x08 => a.alu x0 m d false fun j => sa j + sb j
  | 0x09 => a.alu x0 m d false fun j => sa j - sb j
  | 0x0A => a.alu x0 m d true fun j => sa j + sb j
  | 0x0B => a.alu x0 m d true fun j => sa j - sb j
  | 0x0C => a.alu x0 m d false fun j => min (sa j) (sb j)
  | 0x0D => a.alu x0 m d false fun j => max (sa j) (sb j)
  | 0x0E => a.alu x0 m d true fun j => |sa j|
  | 0x0F => a.alu x0 m d true fun j => -(sa j)
  | 0x10 => a.setV x0 d (va &&& vb)
  | 0x11 => a.setV x0 d (va ||| vb)
  | 0x12 => a.setV x0 d (va ^^^ vb)
  | 0x14 => a.alu x0 m d false fun j => if k < laneW m then (ua j : Int) * 2 ^ k else 0
  | 0x15 => a.alu x0 m d false fun j => ua j / 2 ^ k
  | 0x16 => a.alu x0 m d false fun j => sa j / 2 ^ k
  | 0x18 => a.alu x0 1 d true fun j => if j = 1 then laneS 1 1 va else -(laneS 1 0 va)
  | 0x19 => a.setV x0 d (pack 1 fun j => lane 1 (1 - j) va)
  | 0x1C => a.setP pd (decide (va = vb))
  | 0x1D => a.setP pd (decide (laneS 0 0 va < laneS 0 0 vb))
  | 0x1E => a.setP pd (decide (va.toNat < vb.toNat))
  | 0x1F => a.setP pd (w.testBit 0)
  | 0x20 => a.setV x0 d (x0.control (bitsOf w 11 6))
  | 0x21 => a.setControl d va
  | 0x22 => a.setX pd (stepX (x0.xr pd) (signedOf 12 imm))
  | 0x23 => a.setX pd (x0.xr (bitsOf w 8 6))
  | 0x28 => a.feed va
  | _ => a

/-! ### LS slot (Table 6.9) -/

/-- The binding of a stream port: consumer (`prod` false) or producer. -/
def State.engBinding (s : State) (g i : Nat) (prod : Bool) : Bool × Nat × Nat :=
  let v := s.live (engMember (engDie g) (engIx g)) (R.ENG_SPB (engDie g) (engIx g) i)
  if prod then bindOf v F.ENG_SPB.PEN F.ENG_SPB.PMEM F.ENG_SPB.PQ else bindOf v F.ENG_SPB.CEN F.ENG_SPB.CMEM F.ENG_SPB.CQ

/-- Is a stream port's binding served (R135, R154)? -/
def State.engServed (s : State) (g i : Nat) (prod : Bool) : Bool :=
  s.served (engPane g) (s.engBinding g i prod) prod (.port (g % 2) i)

/-- Would a push by a bound client be accepted at this moment? -/
def State.canPush (s : State) (pane m q : Nat) (w : Word) (tag : Bool) : Bool := (s.pushBound pane m q w tag).1

/-- The engine's transom port, and its requests pending (R137). -/
def engPort (g : Nat) : Nat := portId (engPane g) (10 + g % 2)

/-- Requests pending: non-posted ones awaiting completion, and posted writes whose words are still read or that have not entered the router
(Table 6.1, R137). -/
def State.engTpend (s : State) (g : Nat) : Nat :=
  (s.outst.filter fun o => decide (o.port = engPort g)).length +
  ((s.eng g).twr.filter fun t => posted t.pk.cmd).length +
  ((List.range 4).map fun v => ((s.srcq (engPort g) v).pks.filter fun p => posted p.cmd).length).sum

/-- The stall condition an executing slot meets (R125): 1 SPOP, 2 SPUSH, 3 transom issue, 4 TWAIT, 0 none. DESIGN CHOICES: where an LS stall
and a TWAIT stall hold in one bundle the LS slot's code shows (log entry 107); a TRD or TWR for which quarantine leaves none of tags 0 to
15 free stalls as one that finds 16 requests pending (R186; log entry 108). `pend`: the requests pending at the edge that began the cycle. -/
def State.engStall (s : State) (g : Nat) (x : EngSt) (b pend : Nat) : Nat :=
  let ls := slotOf b 0; let br := slotOf b 3; let i := bitsOf ls 13 13; let pane := engPane g
  let cb := s.engBinding g i false; let pb := s.engBinding g i true
  if slotRuns x ls ∧ slotOp ls = 0x08 ∧ ls.testBit 6 ∧ s.engServed g i false ∧ ¬ (s.popEngine pane cb.2.1 cb.2.2).1.2.2 then 1
  else if slotRuns x ls ∧ slotOp ls = 0x09 ∧ ls.testBit 6 ∧ s.engServed g i true ∧
      ¬ s.canPush pane pb.2.1 pb.2.2 (x.vr (bitsOf ls 19 14)) (ls.testBit 12) then 2
  else if slotRuns x ls ∧ (slotOp ls = 0x10 ∨ slotOp ls = 0x11) ∧
      (16 ≤ pend ∨ (s.freeTag (engPort g) 16 = none ∧ ¬ (slotOp ls = 0x11 ∧ ls.testBit 5))) then 3
  else if slotRuns x br ∧ slotOp br = 0x10 ∧ bitsOf br 4 0 < pend then 4
  else 0

/-- ENG_STATUS as it reads (Table 6.14). -/
def State.engStatusView (s : State) (g : Nat) : HWord :=
  let x := s.eng g; let d := engDie g; let e := engIx g
  let st := match x.state with | .off => 0 | .idle => 1 | .run => 2 | .stopped => 3 | .fault => 4 | .halt => 5
  BitVec.ofNat 32 (st * 2 ^ 29 + x.stall % 8 * 2 ^ 26 + (if SMap.get false s.bank (engMember d e) then 2 ^ 25 else 0) +
    s.fld (R.ENG_STATUS d e) F.ENG_STATUS.SREJ * 2 ^ 24 + s.engTpend g * 2 ^ 19 + x.pc % 4096)

/-- The end of a LAUNCH that waited, of an engine that reads `info`: OK, or GONE with ECODE 5 where the die was parked meanwhile (R295,
R298). -/
def HCmd.launchEnd (c : HCmd) (info : Nat) : Nat × Nat × Nat := if c.gone ≠ [] then (7, info, 5) else (0, info, 0)

/-- A LAUNCH with WAIT ends when its engine leaves RUN (R295): what it then has, before the engine enters RUN again. -/
def State.latchLaunch (s : State) (g : Nat) : State :=
  if (s.eng g).state = .run then s
  else { s with host := s.host.map fun c =>
    if c.eng = some g ∧ c.result = none then { c with result := some (c.launchEnd (s.engStatusView g).toNat) } else c }

/-- Port B reads the next word of the oldest TWR (R137). With its last word the request goes out; one that met an uncorrectable word
sets DUE, leaves FPC alone and, if non-posted, completes with CPLE DATA (R134); a posted one is dropped unsent (DESIGN CHOICES, log entries
142 and 143). -/
def State.portB (s : State) (g : Nat) : State :=
  match (s.eng g).twr with
  | [] => s
  | t :: ts =>
    let a := addrX t.x; let e := s.dmWord g a
    let s1 := s.checkDm g a
    let pk := { t.pk with data := t.pk.data ++ [e.word] }
    let due := t.due || decide (e.bad = 2)
    if 1 < t.left then s1.setEng g { s1.eng g with twr := { pk := pk, x := stepX t.x 1, left := t.left - 1, due := due } :: ts }
    else
      let s2 := s1.setEng g { s1.eng g with twr := ts }
      if ¬ due then s2.routeReq pk
      else
        let s3 := s2.engRaise g F.ENG_ERR.DUE
        if posted pk.cmd then s3 else s3.launch { completion pk cCPLE with src := pk.src, ecode := eDATA }

/-- Port B goes on for `n` cycles. -/
def State.portBTimes (s : State) (g : Nat) : Nat → State
  | 0 => s
  | n + 1 => (s.portB g).portBTimes g n

/-- An engine that is not in RUN takes no command that would count its cycles: the words its TWRs still have to read are read as it leaves
RUN (DESIGN CHOICE, log entry 21). -/
def State.settlePortB (s : State) (g : Nat) : State :=
  if (s.eng g).state = .run then s else s.portBTimes g (((s.eng g).twr.map TwrSt.left).sum)

/-- The LS slot of a bundle. DESIGN CHOICES: of an SPOP with PT = PV other than 0 the value written to P[PV] remains (log entry 109); a TRD
enters the router at its issue, ahead of an earlier TWR whose words port B still reads (log entry 144). -/
def State.lsSlot (s : State) (g : Nat) (x0 : EngSt) (w : Nat) (a : EngW) : State × EngW :=
  let v := bitsOf w 19 14; let k := bitsOf w 13 11; let dd := signedOf 11 (bitsOf w 10 0); let xk := x0.xr k
  let i := bitsOf w 13 13; let pane := engPane g
  let load := fun (ad : Nat) (a : EngW) => (s.checkDm g ad, a.setV x0 v (s.dmWord g ad).word)
  match slotOp w with
  | 0x01 => load (addrX xk) (a.setX k (stepX xk dd))
  | 0x02 => load (addrX (stepX xk dd)) a
  | 0x03 => (s.setDm g (addrX xk) { word := x0.vr v }, a.setX k (stepX xk dd))
  | 0x04 => (s.setDm g (addrX (stepX xk dd)) { word := x0.vr v }, a)
  | 0x08 =>
    let b := s.engBinding g i false
    let r := if s.engServed g i false then s.popEngine pane b.2.1 b.2.2
             else ((0, false, false), s.setFld (engErr g) F.ENG_ERR.UNB 1)
    let a1 := (a.setV x0 v r.1.1).setP (bitsOf w 12 10) r.1.2.1
    (r.2, a1.setP (bitsOf w 9 7) r.1.2.2)
  | 0x09 =>
    let b := s.engBinding g i true
    let r := if s.engServed g i true then
        (if s.canPush pane b.2.1 b.2.2 (x0.vr v) (w.testBit 12) then s.pushBound pane b.2.1 b.2.2 (x0.vr v) (w.testBit 12)
         else (false, if s.queueMode pane b.2.1 then (s.pushQueue pane b.2.1 b.2.2 (x0.vr v) (w.testBit 12)).2 else s))
      else (false, (if s.bound pane b.1 b.2.1 b.2.2 ∧ s.queueMode pane b.2.1 then s.refuse pane b.2.1 b.2.2 1 else s).setFld
        (engErr g) F.ENG_ERR.UNB 1)
    let a1 := a.setP (bitsOf w 9 7) r.1
    (r.2, if s.engServed g i true ∧ s.queueMode pane b.2.1 ∧ ¬ r.1 then
        { a1 with x := { a1.x with refCyc := s.cyc pane + 1, refP := bitsOf w 9 7 } } else a1)
  | 0x0A =>
    let b := s.engBinding g i false
    (if s.engServed g i false ∧ s.queueMode pane b.2.1 then s.slamBound pane b.2.1 b.2.2 else s, a)
  | 0x10 =>
    let n := bitsOf w 10 6 + 1
    (s.sendReq { src := engPort g, cmd := cRD, prio := s.portPrio pane (10 + g % 2),
                 tag := Fin.ofNat 1024 ((s.freeTag (engPort g) 16).getD 0), len := Fin.ofNat 65 n, addr := x0.vr v }
       (.engRead g xk n), a.setX k (stepX xk n))
  | 0x11 =>
    let n := bitsOf w 10 6 + 1
    let pk : Packet := { src := engPort g, cmd := if w.testBit 5 then cWRP else cWR, prio := s.portPrio pane (10 + g % 2),
                         tag := Fin.ofNat 1024 ((s.freeTag (engPort g) 16).getD 0), len := Fin.ofNat 65 n, addr := x0.vr v }
    let a1 := a.setX k (stepX xk n)
    (s.holdTag pk (.engWrite g), { a1 with x := { a1.x with twr := a1.x.twr ++ [{ pk := pk, x := xk, left := n }] } })
  | _ => (s, a)

/-- Does the LS slot read a data memory word through port A with an uncorrectable error (R134)? -/
def State.portADue (s : State) (g : Nat) (x0 : EngSt) (w : Nat) : Bool :=
  let xk := x0.xr (bitsOf w 13 11)
  match slotOp w with
  | 0x01 => decide ((s.dmWord g (addrX xk)).bad = 2)
  | 0x02 => decide ((s.dmWord g (addrX (stepX xk (signedOf 11 (bitsOf w 10 0))))).bad = 2)
  | _ => false

/-! ### Branch slot (Table 6.10) -/

/-- Is an address in a loop's body? -/
def LoopRec.has (l : LoopRec) (a : Nat) : Bool := decide ((a + 4096 - l.first) % 4096 < l.len)

/-- The last bundle of a loop's body. -/
def LoopRec.last (l : LoopRec) : Nat := (l.first + l.len - 1) % 4096

/-- The loop a loop instruction asks for: its record, and its count (R140, R141). -/
def loopAsked (x0 : EngSt) (w : Nat) : LoopRec × Nat :=
  let k := bitsOf w 19 18; let len := bitsOf w 17 12 + 1; let first := (x0.pc + 1) % 4096
  let val := fun r => (x0.vr r).toNat % 65536
  match slotOp w with
  | 0x08 => (⟨k, first, len, w.testBit 11, 0, 0, 1⟩, bitsOf w 10 0)
  | 0x09 => (⟨k, first, len, w.testBit 11, 0, 0, 1⟩, val (bitsOf w 10 5))
  | _ =>
    let n := val (bitsOf w 8 3); let st := bitsOf w 11 9
    (⟨k, first, len, true, st, n, 1⟩, if n = 0 then 0 else n + st - 1)

/-- Does a bundle cause LOOPF (R139, R142)? -/
def loopFault (x0 : EngSt) (w : Nat) : Bool :=
  match slotOp w with
  | 0x02 => decide (4 ≤ x0.ret.length)
  | 0x03 => decide (x0.ret = [])
  | 0x08 | 0x09 | 0x0A =>
    let r := loopAsked x0 w
    x0.loops.any (fun l => decide (l.k = r.1.k) || decide (l.last = r.1.last)
      || (decide (slotOp w = 0x0A) && decide (l.stages ≠ 0))
      || (l.has x0.pc && !(l.has r.1.first && l.has r.1.last &&
            decide ((r.1.first + 4096 - l.first) % 4096 ≤ (r.1.last + 4096 - l.first) % 4096))))
      || (decide (slotOp w = 0x0A) && decide (65535 < r.2))
  | _ => false

/-- Cancel the loops that `drop` names; their counters return to 0. -/
def EngSt.cancelLoops (x : EngSt) (drop : LoopRec → Bool) : EngSt :=
  { x with loops := x.loops.filter (fun l => !drop l), lc := (x.loops.filter drop).foldl (fun m l => SMap.set 0 m l.k 0) x.lc }

/-- A rotation (R127). -/
def EngSt.rotate (x : EngSt) : EngSt :=
  let f := x.rrb.toNat
  if f.testBit 6 then
    let z := rrbZ f
    { x with rrb := BitVec.ofNat 40 (f % 2 ^ 7 + (bitsOf f 12 7 + z - 1) % z * 2 ^ 7) }
  else x

/-- The stage predicates at the end of iteration `i` of a LOOPP (R141). -/
def shiftStages (p : BitVec 8) (st i n : Nat) : BitVec 8 :=
  let bit := fun j => if j = 1 then decide (i < n) else if 2 ≤ j ∧ j ≤ st then p.getLsbD (j - 1) else p.getLsbD j
  BitVec.ofNat 8 (((List.range 8).map fun j => if bit j then 2 ^ j else 0).sum)

/-- Loop end processing and the next PC where no branch is taken (R140, R141). -/
def EngSt.loopEnd (x : EngSt) (pc : Nat) : EngSt :=
  match x.loops.find? fun l => decide (l.last = pc) with
  | none => { x with pc := (pc + 1) % 4096 }
  | some l =>
    let c := SMap.get 0 x.lc l.k - 1
    let x1 := if l.stages ≠ 0 then { x with p := shiftStages x.p l.stages l.iter l.n } else x
    let x2 := if l.rot then x1.rotate else x1
    let x3 := { x2 with lc := SMap.set 0 x2.lc l.k c }
    if c = 0 then { x3 with loops := x3.loops.filter (fun r => !decide (r.k = l.k)), pc := (pc + 1) % 4096 }
    else { x3 with pc := l.first, loops := x3.loops.map fun r => if r.k = l.k then { r with iter := r.iter + 1 } else r }

/-- The predicates that the BR slot writes: those of a LOOPP that is entered, P1 to PS (R126, R141). -/
def brWrites (x0 : EngSt) (w : Nat) : List Nat :=
  if slotRuns x0 w ∧ slotOp w = 0x0A ∧ (loopAsked x0 w).2 ≠ 0 then (List.range (bitsOf w 11 9)).map (65 + ·) else []

/-- BLK (R130). -/
def EngSt.block (x : EngSt) : EngSt :=
  let b := x.bexp.toNat; let trk := bitsOf b 4 0; let apl := bitsOf b 11 8; let grow := bitsOf x.scl.toNat 6 5
  { x with bexp := BitVec.ofNat 40 (min 255 (bitsOf b 23 16 + apl) * 2 ^ 16 + min 15 (trk + grow - 19) * 2 ^ 8) }

/-- Reload the watchdog (R144). -/
def State.reloadWdog (s : State) (g : Nat) (x : EngSt) : EngSt :=
  let p := s.fld (R.ENG_WDT (engDie g) (engIx g)) F.ENG_WDT.PERIOD
  { x with wdog := p * 1024, wdLoad := p }

/-- The BR slot and the settling of the next PC (Table 6.3, steps 7 to 9); `run` is false where the slot does not execute. A WDOG in the cycle in
which the count would reach 0 reloads it, and nothing expires (DESIGN CHOICE, log entry 162). -/
def State.brSlot (s : State) (g : Nat) (x0 : EngSt) (w : Nat) (run : Bool) (x : EngSt) : State × EngSt :=
  let t := bitsOf w 11 0; let pc := x0.pc
  if ¬ run then (s, x.loopEnd pc)
  else match slotOp w with
  | 0x01 => (s, { x.cancelLoops (fun l => !l.has t) with pc := t })
  | 0x02 => (s, { x with pc := t, ret := ((pc + 1) % 4096) :: x.ret })
  | 0x03 => (s, { x with pc := x.ret.headD 0, ret := x.ret.tail })
  | 0x08 | 0x09 | 0x0A =>
    let r := loopAsked x0 w
    if r.2 = 0 then (s, { x with pc := (pc + r.1.len + 1) % 4096 })
    else
      let x1 := { x with loops := r.1 :: x.loops, lc := SMap.set 0 x.lc r.1.k r.2, pc := r.1.first }
      (s, if r.1.stages = 0 then x1
          else { x1 with p := BitVec.ofNat 8 (((List.range 8).map fun j =>
            if (if j = 1 then true else if 2 ≤ j ∧ j ≤ r.1.stages then false else x.p.getLsbD j) then 2 ^ j else 0).sum) })
  | 0x11 => (s, (s.reloadWdog g x).loopEnd pc)
  | 0x12 => (s, x.block.loopEnd pc)
  | 0x13 => ((s.setFld (R.ENG_SIG (engDie g) (engIx g)) F.ENG_SIG.CODE (bitsOf w 7 0)).engPend g, x.loopEnd pc)
  | 0x14 => (s.engPend g, { x.loopEnd pc with state := .stopped })
  | _ => (s, x.loopEnd pc)

/-- Does a BR slot's word take a branch, or skip a loop of count 0, so that two gap cycles follow (R139, R140)? -/
def brGap (x0 : EngSt) (w : Nat) : Bool :=
  slotRuns x0 w && (decide (slotOp w = 0x01 ∨ slotOp w = 0x02 ∨ slotOp w = 0x03) ||
    decide ((slotOp w = 0x08 ∨ slotOp w = 0x09 ∨ slotOp w = 0x0A) ∧ (loopAsked x0 w).2 = 0))

/-! ### One engine cycle (Table 6.3) -/

/-- The watchdog of an engine has reached 0 (R144): WDX and EXPD, and the reload or FAULT that ACT asks for. -/
def State.wdogExpires (s : State) (g : Nat) : State :=
  let d := engDie g; let e := engIx g; let x := s.eng g
  let s1 := (s.engRaise g F.ENG_ERR.WDX).setFld (R.ENG_WDT d e) F.ENG_WDT.EXPD 1
  if s.fld (R.ENG_WDT d e) F.ENG_WDT.ACT = 0 then s1.setEng g (s1.reloadWdog g x)
  else s1.setEng g { x with state := .fault, stall := 0, wdog := 0 }

/-- Has the watchdog of an engine reached 0? -/
def EngSt.wdogDue (x : EngSt) : Bool := decide (x.wdLoad ≠ 0 ∧ x.wdog = 0)

/-- A watchdog that the last cycle in RUN brought to 0 expires. -/
def State.wdogSettle (s : State) (g : Nat) : State := if (s.eng g).state = .run ∧ (s.eng g).wdogDue then s.wdogExpires g else s

/-- One of the two gap cycles behind a taken branch: it counts for the watchdog, and port B reads its word (R137, R144). -/
def State.gapCycle (s : State) (g : Nat) : State :=
  let s1 := s.wdogSettle g
  if (s1.eng g).state ≠ .run then s1
  else (s1.portB g).setEng g { (s1.portB g).eng g with wdog := (s1.eng g).wdog - 1 }

/-- Enter FAULT for a cause that leaves the bundle without effect (R143). -/
def State.engFault (s : State) (g : Nat) (f : Fld) (slot : Option Nat) : State :=
  let x := s.eng g
  let s1 := (s.engRaise g f).setFld (engErr g) F.ENG_ERR.FPC x.pc
  let s2 := match slot with | some i => s1.setFld (engErr g) F.ENG_ERR.SLOT i | none => s1
  s2.setEng g { x with state := .fault, stall := 0, wdog := x.wdog - 1 }

/-- The effects of a legal bundle that does not stall, in the order of R126. -/
def State.engEffects (s : State) (g b : Nat) : State :=
  let x0 := s.eng g
  let ls := slotOf b 0; let mac := slotOf b 1; let alu := slotOf b 2; let br := slotOf b 3
  let due := slotRuns x0 ls && s.portADue g x0 ls
  let r := if slotRuns x0 ls then s.lsSlot g x0 ls ⟨x0, []⟩ else (s, ⟨x0, []⟩)
  let a1 := if slotRuns x0 mac then macSlot x0 mac ⟨r.2.x, []⟩ else ⟨r.2.x, []⟩
  let a2 := if slotRuns x0 alu then aluSlot x0 alu ⟨a1.x, []⟩ else ⟨a1.x, []⟩
  let col := a1.w.any (fun n => r.2.w.contains n) || a2.w.any (fun n => r.2.w.contains n || a1.w.contains n) ||
    (brWrites x0 br).any (fun n => r.2.w.contains n || a2.w.contains n)
  let s1 := if col then r.1.setFld (engErr g) F.ENG_ERR.WCOL 1 else r.1
  let x1 := { a2.x with wdog := x0.wdog - 1, stall := 0 }
  let r2 := s1.brSlot g x0 br (slotRuns x0 br) x1
  if due then
    ((r2.1.setEng g { r2.2 with state := .fault }).engRaise g F.ENG_ERR.DUE).setFld (engErr g) F.ENG_ERR.FPC x0.pc
  else if brGap x0 br then ((r2.1.setEng g r2.2).gapCycle g).gapCycle g
  else r2.1.setEng g r2.2

/-- The bundle at PC in one engine cycle: legality, stall, effects; `pend` as in engStall. DESIGN CHOICES: of several illegal slots SLOT
records the lowest (log entry 110); a bundle read with a single-bit error issues corrected, without CE and without a write back
(log entry 145). -/
def State.issueBundle (s : State) (g pend : Nat) : State :=
  let x := s.eng g; let c := s.liveCopy (engMember (engDie g) (engIx g))
  let b := s.bundleAt c g x.pc
  if SMap.get 0 s.pmBad (pmKey c g x.pc) = 2 then s.engFault g F.ENG_ERR.PUE none
  else match illegalSlots b with
  | i :: _ => s.engFault g F.ENG_ERR.ILL (some i)
  | [] =>
    let alu := slotOf b 2; let br := slotOf b 3
    if slotRuns x alu ∧ slotOp alu = 0x21 ∧ bitsOf alu 17 12 = 2 ∧ rrbIllegal (x.vr (bitsOf alu 11 6)).toNat then
      s.engFault g F.ENG_ERR.ILL (some 2)
    else
      let st := s.engStall g x b pend
      if st ≠ 0 then
        (s.addSat (R.ENG_STALLS (engDie g) (engIx g)) F.ENG_STALLS.COUNT 1).setEng g { x with stall := st, wdog := x.wdog - 1 }
      else if slotRuns x br ∧ loopFault x br then s.engFault g F.ENG_ERR.LOOPF none
      else s.engEffects g b

/-- The watchdog that the last cycle of an engine in RUN brought to 0 expires also where that cycle ended the execution (log entry 146). -/
def State.wdogLast (s : State) (g : Nat) (was : EngSt) : State :=
  if (s.eng g).state ≠ .run ∧ was.wdog ≠ 0 ∧ (s.eng g).wdogDue then s.wdogExpires g else s

/-- One engine cycle of an engine in RUN. A watchdog that the last cycle brought to 0 expires first (R144), and port B reads its word (R137)
as it stood before the bundle's effects; what is pending is as at the edge that began the cycle (R125). -/
def State.engCycle (s : State) (g : Nat) : State :=
  let s1 := s.wdogSettle g
  let s2 := s1.portB g
  if (s2.eng g).state = .run then ((s2.issueBundle g (s1.engTpend g)).wdogLast g (s2.eng g)).settlePortB g else s2.settlePortB g

/-- Do the engine's clocks run, its die past GSR and WRITES? -/
def State.engClocked (s : State) (g : Nat) : Bool :=
  s.dieRuns (engDie g) && s.flag (paneClkOf (engPane g)) F.PANE_CLK.LOCK
where paneClkOf (pane : Nat) : Nat := R.PANE_CLK (pane / 64) (pane % 64)

/-- One engine cycle commanded by an operation of its bundle: `dt` cell cycles of the pane pass, then the bundle at PC issues whole, if
it holds operation `op` in slot `i` (a bundle with an uncorrectable error or an illegal slot is met by any command of the engine). -/
def State.engCommand (s : State) (i op : Nat) (d : Fin 4) (e : Fin 128) (dt : Nat) : State :=
  let g := engId d e
  let s1 := s.advance (engPane g) dt
  let x := s1.eng g; let c := s1.liveCopy (engMember d e)
  let b := s1.bundleAt c g x.pc
  if x.state ≠ .run ∨ ¬ s1.engClocked g then s1
  else if slotOp (slotOf b i) = op ∨ illegalSlots b ≠ [] ∨ SMap.get 0 s1.pmBad (pmKey c g x.pc) = 2 then s1.engCycle g
  else s1

/-! ### The operations -/

/-- A bundle of four slot NOPs (R123). -/
def execSlotNop (d : Fin 4) (e : Fin 128) (dt : Nat) (s : State) : Res :=
  let g := engId d e; let s1 := s.advance (engPane g) dt
  let b := s1.bundleAt (s1.liveCopy (engMember d e)) g (s1.eng g).pc
  .next (
    if (s1.eng g).state = .run ∧ s1.engClocked g ∧ (List.range 4).all (fun i => decide (slotOp (slotOf b i) = 0)) then s1.engCycle g
    else s1)

/-! Operations of the MAC slot (Table 6.5). -/

def execCmul (d : Fin 4) (e : Fin 128) (dt : Nat) (s : State) : Res := .next (s.engCommand 1 0x01 d e dt)

def execCmac (d : Fin 4) (e : Fin 128) (dt : Nat) (s : State) : Res := .next (s.engCommand 1 0x02 d e dt)

def execCmsu (d : Fin 4) (e : Fin 128) (dt : Nat) (s : State) : Res := .next (s.engCommand 1 0x03 d e dt)

def execCmacj (d : Fin 4) (e : Fin 128) (dt : Nat) (s : State) : Res := .next (s.engCommand 1 0x04 d e dt)

def execDmul (d : Fin 4) (e : Fin 128) (dt : Nat) (s : State) : Res := .next (s.engCommand 1 0x08 d e dt)

def execDmac (d : Fin 4) (e : Fin 128) (dt : Nat) (s : State) : Res := .next (s.engCommand 1 0x09 d e dt)

def execPwr (d : Fin 4) (e : Fin 128) (dt : Nat) (s : State) : Res := .next (s.engCommand 1 0x0A d e dt)

def execAld (d : Fin 4) (e : Fin 128) (dt : Nat) (s : State) : Res := .next (s.engCommand 1 0x10 d e dt)

def execAclr (d : Fin 4) (e : Fin 128) (dt : Nat) (s : State) : Res := .next (s.engCommand 1 0x11 d e dt)

def execMova (d : Fin 4) (e : Fin 128) (dt : Nat) (s : State) : Res := .next (s.engCommand 1 0x18 d e dt)

def execMovaw (d : Fin 4) (e : Fin 128) (dt : Nat) (s : State) : Res := .next (s.engCommand 1 0x19 d e dt)

/-! Operations of the ALU slot (Table 6.7). -/

def execEngMov (d : Fin 4) (e : Fin 128) (dt : Nat) (s : State) : Res := .next (s.engCommand 2 0x01 d e dt)

def execMovi (d : Fin 4) (e : Fin 128) (dt : Nat) (s : State) : Res := .next (s.engCommand 2 0x02 d e dt)

def execEngMovk (d : Fin 4) (e : Fin 128) (dt : Nat) (s : State) : Res := .next (s.engCommand 2 0x03 d e dt)

def execEngAdd (d : Fin 4) (e : Fin 128) (dt : Nat) (s : State) : Res := .next (s.engCommand 2 0x08 d e dt)

def execEngSub (d : Fin 4) (e : Fin 128) (dt : Nat) (s : State) : Res := .next (s.engCommand 2 0x09 d e dt)

def execEngAdds (d : Fin 4) (e : Fin 128) (dt : Nat) (s : State) : Res := .next (s.engCommand 2 0x0A d e dt)

def execEngSubs (d : Fin 4) (e : Fin 128) (dt : Nat) (s : State) : Res := .next (s.engCommand 2 0x0B d e dt)

def execMin (d : Fin 4) (e : Fin 128) (dt : Nat) (s : State) : Res := .next (s.engCommand 2 0x0C d e dt)

def execMax (d : Fin 4) (e : Fin 128) (dt : Nat) (s : State) : Res := .next (s.engCommand 2 0x0D d e dt)

def execAbs (d : Fin 4) (e : Fin 128) (dt : Nat) (s : State) : Res := .next (s.engCommand 2 0x0E d e dt)

def execNeg (d : Fin 4) (e : Fin 128) (dt : Nat) (s : State) : Res := .next (s.engCommand 2 0x0F d e dt)

def execEngAnd (d : Fin 4) (e : Fin 128) (dt : Nat) (s : State) : Res := .next (s.engCommand 2 0x10 d e dt)

def execEngOr (d : Fin 4) (e : Fin 128) (dt : Nat) (s : State) : Res := .next (s.engCommand 2 0x11 d e dt)

def execEngXor (d : Fin 4) (e : Fin 128) (dt : Nat) (s : State) : Res := .next (s.engCommand 2 0x12 d e dt)

def execEngShl (d : Fin 4) (e : Fin 128) (dt : Nat) (s : State) : Res := .next (s.engCommand 2 0x14 d e dt)

def execEngShr (d : Fin 4) (e : Fin 128) (dt : Nat) (s : State) : Res := .next (s.engCommand 2 0x15 d e dt)

def execEngSar (d : Fin 4) (e : Fin 128) (dt : Nat) (s : State) : Res := .next (s.engCommand 2 0x16 d e dt)

def execConj (d : Fin 4) (e : Fin 128) (dt : Nat) (s : State) : Res := .next (s.engCommand 2 0x18 d e dt)

def execSwaph (d : Fin 4) (e : Fin 128) (dt : Nat) (s : State) : Res := .next (s.engCommand 2 0x19 d e dt)

def execCmpeq (d : Fin 4) (e : Fin 128) (dt : Nat) (s : State) : Res := .next (s.engCommand 2 0x1C d e dt)

def execCmplt (d : Fin 4) (e : Fin 128) (dt : Nat) (s : State) : Res := .next (s.engCommand 2 0x1D d e dt)

def execCmpltu (d : Fin 4) (e : Fin 128) (dt : Nat) (s : State) : Res := .next (s.engCommand 2 0x1E d e dt)

def execPset (d : Fin 4) (e : Fin 128) (dt : Nat) (s : State) : Res := .next (s.engCommand 2 0x1F d e dt)

def execMfc (d : Fin 4) (e : Fin 128) (dt : Nat) (s : State) : Res := .next (s.engCommand 2 0x20 d e dt)

def execMtc (d : Fin 4) (e : Fin 128) (dt : Nat) (s : State) : Res := .next (s.engCommand 2 0x21 d e dt)

def execXadd (d : Fin 4) (e : Fin 128) (dt : Nat) (s : State) : Res := .next (s.engCommand 2 0x22 d e dt)

def execXcp (d : Fin 4) (e : Fin 128) (dt : Nat) (s : State) : Res := .next (s.engCommand 2 0x23 d e dt)

def execBxt (d : Fin 4) (e : Fin 128) (dt : Nat) (s : State) : Res := .next (s.engCommand 2 0x28 d e dt)

/-! Operations of the LS slot (Table 6.9). -/

def execLd (d : Fin 4) (e : Fin 128) (dt : Nat) (s : State) : Res := .next (s.engCommand 0 0x01 d e dt)

def execLdo (d : Fin 4) (e : Fin 128) (dt : Nat) (s : State) : Res := .next (s.engCommand 0 0x02 d e dt)

def execSt (d : Fin 4) (e : Fin 128) (dt : Nat) (s : State) : Res := .next (s.engCommand 0 0x03 d e dt)

def execSto (d : Fin 4) (e : Fin 128) (dt : Nat) (s : State) : Res := .next (s.engCommand 0 0x04 d e dt)

def execSpop (d : Fin 4) (e : Fin 128) (dt : Nat) (s : State) : Res := .next (s.engCommand 0 0x08 d e dt)

def execSpush (d : Fin 4) (e : Fin 128) (dt : Nat) (s : State) : Res := .next (s.engCommand 0 0x09 d e dt)

def execSslam (d : Fin 4) (e : Fin 128) (dt : Nat) (s : State) : Res := .next (s.engCommand 0 0x0A d e dt)

def execEngTrd (d : Fin 4) (e : Fin 128) (dt : Nat) (s : State) : Res := .next (s.engCommand 0 0x10 d e dt)

def execEngTwr (d : Fin 4) (e : Fin 128) (dt : Nat) (s : State) : Res := .next (s.engCommand 0 0x11 d e dt)

/-! Operations of the BR slot (Table 6.10). -/

def execBr (d : Fin 4) (e : Fin 128) (dt : Nat) (s : State) : Res := .next (s.engCommand 3 0x01 d e dt)

def execCall (d : Fin 4) (e : Fin 128) (dt : Nat) (s : State) : Res := .next (s.engCommand 3 0x02 d e dt)

def execRet (d : Fin 4) (e : Fin 128) (dt : Nat) (s : State) : Res := .next (s.engCommand 3 0x03 d e dt)

def execLoop (d : Fin 4) (e : Fin 128) (dt : Nat) (s : State) : Res := .next (s.engCommand 3 0x08 d e dt)

def execLoopv (d : Fin 4) (e : Fin 128) (dt : Nat) (s : State) : Res := .next (s.engCommand 3 0x09 d e dt)

def execLoopp (d : Fin 4) (e : Fin 128) (dt : Nat) (s : State) : Res := .next (s.engCommand 3 0x0A d e dt)

def execTwait (d : Fin 4) (e : Fin 128) (dt : Nat) (s : State) : Res := .next (s.engCommand 3 0x10 d e dt)

def execWdog (d : Fin 4) (e : Fin 128) (dt : Nat) (s : State) : Res := .next (s.engCommand 3 0x11 d e dt)

def execBlk (d : Fin 4) (e : Fin 128) (dt : Nat) (s : State) : Res := .next (s.engCommand 3 0x12 d e dt)

def execSig (d : Fin 4) (e : Fin 128) (dt : Nat) (s : State) : Res := .next (s.engCommand 3 0x13 d e dt)

def execStop (d : Fin 4) (e : Fin 128) (dt : Nat) (s : State) : Res := .next (s.engCommand 3 0x14 d e dt)

/-! ### Running and stopping (R143, R144) -/

/-- Start an engine at ENTRY (R143); SREJ where it may not start. An engine of a die that is being parked stays STOPPED (R298): its START is ignored
(DEDUCED, log entry 156). -/
def State.engStart (s : State) (g : Nat) : State :=
  let d := engDie g; let e := engIx g; let x := s.eng g
  if (x.state = .idle ∨ x.state = .stopped ∨ x.state = .fault) ∧ ¬ (s.pane (engPane g)).shut ∧ ¬ s.quiesces d then
    let x1 := { x.cancelLoops (fun _ => true) with
      pc := s.liveF (engMember d e) (R.ENG_CFG d e) F.ENG_CFG.ENTRY, ret := [], state := .run, stall := 0 }
    (s.latchLaunch g).setEng g (s.reloadWdog g x1)
  else s.setFld (R.ENG_STATUS d e) F.ENG_STATUS.SREJ 1

/-- Stop an engine in RUN after its present bundle, abandoning a stalled one (R143), or one in HALT, which is then no longer counted
as halted (R410). -/
def State.engStop (s : State) (g : Nat) : State :=
  let s := s.wdogSettle g
  let x := s.eng g
  let stop := ((s.setEng g { x with state := .stopped, stall := 0 }).engPend g).settlePortB g
  if x.state = .run then stop
  else if x.state = .halt then
    let left := s.kpr.halted.filter fun t => !decide (t = 0x100 + g)
    ({ stop with kpr := { stop.kpr with halted := left } } : State).setFld R.KPR_STAT F.KPR_STAT.NHALT (min 255 left.length)
  else s

/-- An engine leaves OFF on its first cycle past GSR and WRITES (R143): not while its pane's clocks stand still. -/
def State.engLeaveOff (s : State) (g : Nat) : State :=
  let d := engDie g; let e := engIx g; let x := s.eng g; let m := engMember d e
  if x.state = .off ∧ s.engClocked g then
    if s.liveF m (R.ENG_CFG d e) F.ENG_CFG.AUTOSTART = 1 then
      (s.latchLaunch g).setEng g (s.reloadWdog g { x with state := .run, pc := s.liveF m (R.ENG_CFG d e) F.ENG_CFG.ENTRY })
    else s.setEng g { x with state := .idle }
  else s

/-- A write of 1 to ENG_CTL.START. -/
def execEngCtlStart (d : Fin 4) (e : Fin 128) (s : State) : Res := .next (s.reach d (R.ENG_CTL d e) 1 (·.engStart (engId d e)))

/-- A write of 1 to ENG_CTL.STOP. -/
def execEngCtlStop (d : Fin 4) (e : Fin 128) (s : State) : Res := .next (s.reach d (R.ENG_CTL d e) 2 (·.engStop (engId d e)))

/-- R144. The watchdog of a running engine expires, once its cycles have brought it to 0; before that the command changes nothing. -/
def execEngineWatchdogExpiry (d : Fin 4) (e : Fin 128) (s : State) : Res :=
  let g := engId d e; let x := s.eng g
  .next (
    if x.state = .run ∧ x.wdogDue ∧ s.engClocked g then (s.wdogExpires g).settlePortB g else s)

/-- The switching edge of an engine at a commit (R145); in HALT it stays there under RESTART (R410). -/
def State.exchangeEngine (s : State) (g : Nat) : State :=
  let d := engDie g; let e := engIx g; let m := engMember d e
  let s1 := s.flip m
  let x := s1.eng g
  if s1.liveF m (R.ENG_CFG d e) F.ENG_CFG.CMTACT = 1 ∧ (x.state = .run ∨ x.state = .halt) then
    s1.setEng g { x.cancelLoops (fun _ => true) with
      pc := s1.liveF m (R.ENG_CFG d e) F.ENG_CFG.ENTRY, ret := [], stall := 0 }
  else s1

/-! ### Data memory as a transom target (R134, R138) -/

/-- Write words to data memory from `a` on. -/
def State.writeDm (s : State) (g a : Nat) : List Word → State
  | [] => s
  | w :: ws => (s.setDm g a { word := w }).writeDm g (a + 1) ws

/-- Read `n` words of data memory from `a` on. -/
def State.readDm (s : State) (g : Nat) : Nat → Nat → List Word × Bool × State
  | _, 0 => ([], false, s)
  | a, n + 1 =>
    let e := s.dmWord g a
    let r := (s.checkDm g a).readDm g (a + 1) n
    (e.word :: r.1, decide (e.bad = 2) || r.2.1, r.2.2)

/-- A transom request taken whole by an engine's data memory at window offset `a`. DESIGN CHOICE (log entry 143): an uncorrectable word met
here leaves ENG_ERR.FPC alone. -/
def State.engTarget (s : State) (g a : Nat) (pk : Packet) : State :=
  if pk.cmd = cRD then
    if 32768 < a + pk.len.val then s.answerErr pk eRANGE
    else
      let r := s.readDm g a pk.len.val
      if r.2.1 then (r.2.2.engRaise g F.ENG_ERR.DUE).answerErr pk eDATA else r.2.2.answerData pk r.1
  else if pk.cmd = cWR ∨ pk.cmd = cWRP then
    if 32768 < a + pk.len.val then s.answerErr pk eRANGE else (s.writeDm g a pk.data).answerData pk []
  else if pk.cmd = cADD ∨ pk.cmd = cSWAP then
    let e := s.dmWord g a; let s1 := s.checkDm g a
    if e.bad = 2 then (s1.engRaise g F.ENG_ERR.DUE).answerErr pk eDATA
    else (s1.setDm g a { word := if pk.cmd = cADD then e.word + pk.opnd else pk.opnd }).answer pk
      { completion pk cCPL with opnd := e.word }
  else s.answerErr pk eUNSUP

/-- Write the words of a TRD's completion at successive step addresses (R137). -/
def State.landDm (s : State) (g : Nat) : BitVec 20 → List Word → State
  | _, [] => s
  | x, w :: ws => (s.setDm g (addrX x) { word := w }).landDm g (stepX x 1) ws

end Sys2Proof.Machine
end

