-- ==== Sys2Proof/Machine/Shutter.lean ====
section
/-!
DEFINITION. The shutter (Chapter 5): device time, the timebase domains, arming and committing, and the switching of panes and
engines.
-/
namespace Sys2Proof.Machine

/-! ### Device time (R104, R105) -/

/-- The units of device time in a nanosecond: a TBU edge on FOSC advances the time by 1.25 × INCR / 2^28 ns (R321). -/
def nsUnit : Nat := 2 ^ 30

/-- What INCR acts as (R104). -/
def State.incr (s : State) : Nat := max 0x1C000000 (min (s.reg R.TBU_INCR).toNat 0x24000000)

/-- Does the TBU run on FOSC: do HL0's consumers (R321, Table 13.7)? -/
def State.tbuFosc (s : State) : Bool := decide (SMap.get 0 s.clk.mux 4 = 0)

/-- What a TBU edge adds to the time (R104, R321). -/
def State.edgeStep (s : State) : Nat := if s.tbuFosc then 5 * s.incr else 4 * s.incr

/-- A TBU clock edge: the time advances, or takes a setting that waits for it. There is none while the multiplexer of HL0's consumers holds
its output low (R317), while the hub is without power, or while a reset order that waits for the sensors to cool holds it in reset (R376). -/
def State.tbuEdge (s : State) : State :=
  if s.power ≠ .on ∨ ¬ s.hubRuns ∨ s.db.cool then s
  else
  let t := match s.tbu.setPend with
    | some v => v * nsUnit
    | none => (s.tbu.time + s.edgeStep) % (2 ^ 64 * nsUnit)
  { s with tbu := { s.tbu with time := t, run := s.tbu.run + s.edgeStep, setPend := none } }

/-- `n` TBU clock edges pass. -/
def State.tbuEdges (s : State) : Nat → State
  | 0 => s
  | n + 1 => s.tbuEdge.tbuEdges n

/-- Device time in nanoseconds, 64 bits. -/
def State.nowNs (s : State) : Nat := s.tbu.time / nsUnit

/-! ### Domains (R106–R109) -/

def State.dom (s : State) (t : Nat) : DomainSt := SMap.get {} s.doms t

def State.setDom (s : State) (t : Nat) (x : DomainSt) : State := { s with doms := SMap.set {} s.doms t x }

/-- τ(n) (R106). -/
def DomainSt.tau (x : DomainSt) (n : Int) : Int := (n * (x.den * 1000000000)) / x.num + x.offset

/-- The largest n with τ(n) at or before `now` (R106): floor((now − OFFSET + 1) × NUM − 1 over DEN × 10^9). -/
def DomainSt.frameAt (x : DomainSt) (now : Nat) : Int :=
  (((now : Int) - x.offset + 1) * x.num - 1) / (x.den * 1000000000)

/-- The frame number a domain reports: 0 with EN at 0 (R108). -/
def State.frameNow (s : State) (t : Nat) : Int :=
  let x := s.dom t
  if ¬ x.en then 0 else if x.pinMode then x.frame else x.frameAt s.nowNs

/-- P, the nominal frame period, in units of device time (R107). -/
def DomainSt.period (x : DomainSt) : Nat := x.den * 1000000000 * nsUnit / x.num

/-- LINES; 0 acts as 1. -/
def DomainSt.lineCount (x : DomainSt) : Nat := if x.lines = 0 then 1 else x.lines

/-- The present line of a domain (R106, R107): the largest k below LINES whose start has come. -/
def State.lineNow (s : State) (t : Nat) : Nat :=
  let x := s.dom t
  if ¬ x.en then 0
  else if x.pinMode then
    min (x.lineCount - 1) ((s.tbu.run - x.began) * x.lineCount / (if x.prevLen = 0 then x.period else x.prevLen))
  else
    let n := x.frameAt s.nowNs
    let len := (x.tau (n + 1) - x.tau n).toNat
    min (x.lineCount - 1) ((((s.nowNs : Int) - x.tau n + 1).toNat * x.lineCount - 1) / len)

/-- Is the pin the domain follows a timebase reference input (R107, Table 16.3)? -/
def State.refPin (s : State) (x : DomainSt) : Bool :=
  decide (s.liveF (pinMember (x.pin / 16)) (R.PIN_CFG x.pin) F.PIN_CFG.FUNC = 0xB)

/-- A PIN domain begins a new frame. -/
def State.newFrame (s : State) (t : Nat) : State :=
  let x := s.dom t
  s.setDom t { x with frame := x.frame + 1, prevLen := s.tbu.run - x.began, began := s.tbu.run }

/-! ### Members -/

/-- The number of members (Table 5.4). -/
def memberCount : Nat := 0x390

/-- Is member `m` in the set map of domain `t`? -/
def State.inSet (s : State) (t m : Nat) : Bool := (s.reg (R.SHT_SET t (m / 32))).getLsbD (m % 32)

/-- The members of the set of domain `t`, lowest first. -/
def State.setOf (s : State) (t : Nat) : List Nat := (List.range memberCount).filter (s.inSet t)

/-- Is a DDR5 controller training (Table 9.6)? -/
def State.ddrTraining (s : State) (c : Nat) : Bool := decide (s.fld (R.DDR_STATUS c) F.DDR_STATUS.STATE = 1)

/-! ### The tick network (R111, R112, R272) -/

/-- The hinge ends by which records go on from the hub, or from a fabric die they have reached: the tree of `pathUp`. -/
def State.tickEnds (s : State) : Option Nat → List Nat
  | none => [12, 13]
  | some 0 => [2]
  | some 1 => [5]
  | some 2 => if (SMap.get {} s.dies 1).off then [7] else []
  | some _ => if (SMap.get {} s.dies 0).off then [10] else []

/-- The die that such an end leads to. -/
def tickDie (e : Nat) : Nat := if e = 12 then 0 else if e = 13 then 1 else if e = 5 ∨ e = 7 then 3 else 2

/-- The records that wait at an end for its hinge. -/
def State.tickWait (s : State) (e : Nat) : List TickRec := SMap.get [] s.tickQ e
def State.setTickWait (s : State) (e : Nat) (rs : List TickRec) : State := { s with tickQ := SMap.set [] s.tickQ e rs }

/-- The end by which a fabric die's records go to the hub: the way of `pathUp` back. -/
def State.hubEnd (s : State) (d : Nat) : Nat :=
  match d with
  | 0 => 0
  | 1 => 3
  | 2 => if (SMap.get {} s.dies 0).off then 7 else 6
  | _ => if (SMap.get {} s.dies 1).off then 10 else 9

/-- The die that an end faces on the tree of `pathUp`, either way; 4 is the hub. -/
def beyondEnd (e : Nat) : Nat := if e = 12 then 0 else if e = 13 then 1 else if e = 0 ∨ e = 3 then 4 else if e = 6 then 0 else if e = 9 then 1
  else tickDie e

/-- A record is to leave by an end, in a TICK flit (R262): it waits there behind the others. To a die that is powered down none goes. -/
def State.relay (s : State) (e : Nat) (r : TickRec) : State :=
  if (SMap.get {} s.dies (beyondEnd e)).off then s else s.setTickWait e (s.tickWait e ++ [r])

/-- The frame number that a record of a frame carries (Table 11.4). -/
def recFrame (n : Int) : Fin 16777216 := Fin.ofNat 16777216 (wrapTo 24 n)

/-- Is a record of kind 2 to 4 this arm's: by its frame number that of its target, or for a commit that of the tick with which the arm's
commit was sent? One of an earlier arm can come behind this arm's, on another leaf after a replay. -/
def ArmSt.owns (a : ArmSt) (kind : Nat) (frame : Fin 16777216) : Bool :=
  match kind with
  | 2 => decide (frame = recFrame a.target)
  | 3 => a.sent && decide (frame = recFrame a.frame)
  | _ => a.ended && decide (frame = recFrame a.target)

/-- What a record does to an arm as it reaches die d: that of the arm itself makes the die's members armed, and behind it a commit or a disarm
of the arm is noted. -/
def ArmSt.note (a : ArmSt) (d kind : Nat) (frame : Fin 16777216) : ArmSt :=
  if a.owns kind frame ∧ (kind = 2 ∨ a.reach.contains (2, d)) ∧ ¬ a.reach.contains (kind, d) then { a with reach := a.reach ++ [(kind, d)] } else a

/-- A record reaches a fabric die: arms, commits and disarms are noted for its members. -/
def State.recAt (s : State) (d : Nat) (r : TickRec) : State :=
  let s1 := s.emit (.tickArrive d r)
  if 2 ≤ r.kind.val ∧ r.kind.val ≤ 4 then
    { s1 with arms := SMap.upd {} s1.arms r.dom fun a => a.note d r.kind.val r.frame }
  else s1

/-- The TBU sends a record of domain t towards every fabric die: its kind (Table 11.4) and frame number. -/
def State.sendRec (s : State) (t kind : Nat) (frame : Int) : State :=
  let r : TickRec := ⟨Fin.ofNat 8 t, Fin.ofNat 8 kind, 0, recFrame frame⟩
  (s.relay 12 r).relay 13 r

/-- Has a record of a kind, of domain t's present arm, arrived where member m lies? On the hub it has. -/
def State.reached0 (s : State) (t kind m : Nat) : Bool :=
  match memberDie m with
  | none => true
  | some d => (SMap.get {} s.arms t).reach.contains (kind, d)

/-- Is a member ready (Table 5.5)? -/
def State.memberReady (s : State) (m : Nat) : Bool :=
  if m < 0x100 then s.drained m && !(s.pane m).reload
  else if 0x380 ≤ m ∧ m < 0x388 then !s.ddrTraining (m - 0x380)
  else true

/-! ### Arms -/

def State.arm (s : State) (t : Nat) : ArmSt := SMap.get {} s.arms t

def State.setArm (s : State) (t : Nat) (a : ArmSt) : State := { s with arms := SMap.set {} s.arms t a }

/-- What a member that has received the present arm of domain `t` holds. -/
def State.armTag (s : State) (t : Nat) : Nat := 1 + 8 * (s.arm t).seq + t

/-- The members of the set of domain `t` that have not acknowledged. -/
def State.unacked (s : State) (t : Nat) : List Nat := (s.setOf t).filter fun m => !(s.arm t).acked.contains m

/-- Record a miss (R116, steps 1 to 4), `ms` being the members not acknowledged. -/
def State.recordMiss (s : State) (t : Nat) (ms : List Nat) : State :=
  (((s.addSat (R.SHT_STATUS t) F.SHT_STATUS.MISSES 1).setFld (R.SHT_STATUS t) F.SHT_STATUS.MISSED 1).setFld
    (R.SHT_MISS t) F.SHT_MISS.COUNT ms.length).setFld (R.SHT_MISS t) F.SHT_MISS.MEMBER (ms.headD 0)

/-- The result of a host ARM command whose arm stands in STATE `st` (R293, Table 12.7). -/
def armStatus (st : Nat) : Nat := if st = 2 then 0 else if st = 5 then 2 else 8

/-- An arm of domain `t` has ended: a host command that waits for it has its result (R293). -/
def State.armOver (s : State) (t : Nat) : State :=
  let v := s.reg (R.SHT_STATUS t)
  { s with host := s.host.map fun c =>
      if c.arm = some t ∧ c.result = none then { c with result := some (armStatus (getF v F.SHT_STATUS.STATE), v.toNat, 0) } else c }

/-- End an arm without a commit (R118): every member is disarmed. -/
def State.endArm (s : State) (t state cause : Nat) : State :=
  (((((s.setFld (R.SHT_STATUS t) F.SHT_STATUS.STATE state).setFld (R.SHT_STATUS t) F.SHT_STATUS.CAUSE cause).setFld
    (R.SHT_STATUS t) F.SHT_STATUS.XEND 1).armOver t).setArm t { s.arm t with ended := true }).sendRec t 4 (s.arm t).target

/-- Is domain `t` armed with its commit not yet sent, so that its arm can still end without one (R118)? -/
def State.canEnd (s : State) (t : Nat) : Bool := decide (s.armState t = 1) && !(s.arm t).sent

/-- The lowest code of Table 5.11 that refuses a GO of domain `t`; 0 where none does. A die counts as parked from the moment its park is
accepted (R298). -/
def State.goCheck (s : State) (t : Nat) : Nat :=
  let ms := s.setOf t
  if (List.range 8).any (fun u => decide (u ≠ t ∧ s.armState u = 1) && ms.any (s.inSet u)) then 1
  else if ms.any (fun m => match memberDie m with | some d => (SMap.get {} s.dies d).off || s.park.any (·.die == d) | none => false) then 2
  else if ¬ (s.dom t).en then 3
  else if ms = [] then 4
  else 0

/-- A GO written while the domain is not ARMED (R113). -/
def State.armGo (s : State) (t : Nat) (v : HWord) : State :=
  let st := R.SHT_STATUS t
  let code := s.goCheck t
  if code ≠ 0 then (s.setFld st F.SHT_STATUS.STATE 5).setFld st F.SHT_STATUS.CAUSE code
  else
    let c := s.frameNow t
    let n := c - 32767 + (((getF v F.SHT_ARM.FRAME : Nat) : Int) - (c - 32767)) % 65536
    let next := decide (getF v F.SHT_ARM.NEXT = 1)
    let late := !next && decide (n ≤ c)
    let retry := getF v F.SHT_ARM.RETRY
    let s1 := (s.setFld st F.SHT_STATUS.MISSES 0).setFld st F.SHT_STATUS.CAUSE 0
    let s2 := if late then s1.recordMiss t (s1.setOf t) else s1
    if late ∧ retry = 0 then s2.endArm t 3 7
    else ((s2.setFld st F.SHT_STATUS.STATE 1).setArm t
      { target := if next ∨ late then c + 1 else n, retry := retry, seq := (s.arm t).seq + 1 }).sendRec t 2 (if next ∨ late then c + 1 else n)

/-- A write of SHT_ARM[t] (Table 5.8, R113, R118). -/
def State.shtArmWrite (s : State) (t : Nat) (v : HWord) : State :=
  let s1 := s.writeReg (R.SHT_ARM t) v
  let go := v.getLsbD 31; let ab := v.getLsbD 30
  if s.armState t = 1 then
    if ab then (if (s.arm t).sent then s1 else s1.endArm t 4 6)
    else if go then s1.setFld (R.SHT_STATUS t) F.SHT_STATUS.GOREJ 1
    else s1
  else if go then s1.armGo t v
  else s1

/-- A gated pane, or an engine of one: its exchange waits for its clocks (R52, R117, R145). -/
def State.clockStopped (s : State) (m : Nat) : Bool :=
  let gone := fun pane => !s.flag (R.PANE_CLK (pane / 64) (pane % 64)) F.PANE_CLK.LOCK
  if m < 0x100 then gone m else if m < 0x300 then gone (engPane (m - 0x100)) else false

/-- Note that member `m` switches when its clocks resume, once for each commit (R117). -/
def State.deferSwitch (s : State) (m : Nat) : State :=
  if m < 0x100 then s.setPane m { s.pane m with switchPend := (s.pane m).switchPend + 1 }
  else s.setEng (m - 0x100) { s.eng (m - 0x100) with switchPend := (s.eng (m - 0x100)).switchPend + 1 }

/-- The decision at a frame tick of an armed domain, at its frame `n` (R116). Gated panes, and engines of gated panes, count as
switched at the tick (R117). -/
def State.decideTick (s : State) (t : Nat) (n : Int) : State :=
  let a := s.arm t
  if ¬ s.canEnd t ∨ n < a.target then s
  else
    let ms := s.unacked t
    if ms = [] then
      let gated := (s.setOf t).filter s.clockStopped
      let s1 := gated.foldl (fun b m => b.deferSwitch m) s
      (s1.setArm t { a with sent := true, frame := n, switched := gated }).sendRec t 3 n
    else
      let s1 := s.recordMiss t ms
      if a.retry ≠ 15 ∧ a.retry < s1.fld (R.SHT_STATUS t) F.SHT_STATUS.MISSES then s1.endArm t 3 7 else s1

/-- The domain whose commit member `m` has received, with the tick that brings it to its die (R112, R272), and not yet taken. -/
def State.commitFor (s : State) (m : Nat) : Option Nat :=
  (List.range 8).find? fun t =>
    decide (s.armState t = 1 ∧ SMap.get 0 s.armedBy m = s.armTag t) && (s.arm t).sent && s.reached0 t 3 m &&
      !(s.arm t).switched.contains m

/-- Member `m` switches for domain `t`: what it exchanges is `f`'s. -/
def State.switchMember (s : State) (m : Nat) (f : State → State) : State :=
  match s.commitFor m with
  | none => s
  | some t => (f s).setArm t { s.arm t with switched := (s.arm t).switched ++ [m] }

/-! ### The commands -/

/-- R105. A write of TBU_SET_H: the new time, at the next TBU edge; and the end of every arm of a domain in TIME mode (R118). -/
def State.tbuSetWrite (s : State) (v : HWord) : State :=
  let s1 := s.writeReg R.TBU_SET_H v
  let s2 := { s1 with tbu := { s1.tbu with setPend := some (v.toNat * 2 ^ 32 + (s.reg R.TBU_SET_L).toNat) } }
  (List.range 8).foldl (fun a t => if a.canEnd t ∧ (a.dom t).en ∧ ¬ (a.dom t).pinMode then a.endArm t 4 5 else a) s2

/-- R105. -/
def execTbuSetHWrite (v : BitVec 32) (s : State) : Res := .next (s.tbuSetWrite v)

/-- R105. A read of TBU_NOW_L captures the time. -/
def State.readNowL (s : State) : HWord × State :=
  (BitVec.ofNat 32 s.nowNs, { s with tbu := { s.tbu with capture := s.nowNs } })

def execTbuNowLRead (dt : Nat) (s : State) : Res :=
  let r := (s.tbuEdges dt).readNowL
  .next (r.2.emit (.busRead R.TBU_NOW_L r.1))

/-- R106, Table 5.3. A read of TB_FRAMEL captures the frame number. -/
def State.readFrameL (s : State) (t : Nat) : HWord × State :=
  let n := wrapTo 48 (s.frameNow t)
  (BitVec.ofNat 32 n, s.setDom t { s.dom t with capture := n })

def execTbFramelRead (t : Fin 8) (dt : Nat) (s : State) : Res :=
  let r := (s.tbuEdges dt).readFrameL t
  .next (r.2.emit (.busRead (R.TB_FRAMEL t) r.1))

/-- R109. `dt` edges pass, and the domain checks a complete generation group. A domain with EN at 0 has reported frame number 0 (R108). In
PIN mode the measures of R107 run from the adoption until the first frame begins (DESIGN CHOICE, log entry 35). -/
def execGenerationAdopt (t : Fin 8) (dt : Nat) (s : State) : Res :=
  let s1 := s.tbuEdges dt
  let c := s1.reg (R.TB_CFG t); let r := s1.reg (R.TB_RATE t); let l := s1.reg (R.TB_LINES t); let o := s1.reg (R.TB_OFFSET t)
  let g := getF c F.TB_CFG.GEN
  let num := getF r F.TB_RATE.NUM; let den := getF r F.TB_RATE.DEN; let src := getF c F.TB_CFG.SRC
  .next (
    if getF r F.TB_RATE.GEN ≠ g ∨ getF l F.TB_LINES.GEN ≠ g ∨ getF o F.TB_OFFSET.GEN ≠ g ∨ getF c F.TB_CFG.AGEN = g then s1
    else
      let s2 := s1.setFld (R.TB_CFG t) F.TB_CFG.AGEN g
      if num = 0 ∨ den = 0 ∨ num < den ∨ 240 * den < num ∨ 2 ≤ src then s2.setFld (R.TB_CFG t) F.TB_CFG.BAD 1
      else
        let x := s2.dom t
        let s3 := (s2.setFld (R.TB_CFG t) F.TB_CFG.BAD 0).setDom t
          { en := decide (getF c F.TB_CFG.EN = 1), pinMode := decide (src = 1), pin := getF c F.TB_CFG.PIN,
            fall := decide (getF c F.TB_CFG.EDGE = 1), num := num, den := den, lines := getF l F.TB_LINES.LINES,
            offset := getF o F.TB_OFFSET.OFFSET, ticked := if x.en ∧ getF c F.TB_CFG.EN = 1 then x.ticked else 0, line := x.line,
            capture := x.capture, began := s2.tbu.run }
        if s3.canEnd t then s3.endArm t 4 5 else s3)

/-- An active edge of domain t's reference pin (R107): a new frame, 0.5 P or more after the last, else ignored. -/
def State.refEdge (s : State) (t : Nat) : State :=
  let x := s.dom t
  if x.en ∧ x.pinMode ∧ s.refPin x ∧ x.period ≤ 2 * (s.tbu.run - x.began) then
    (s.newFrame t).setDom t { (s.newFrame t).dom t with lost := false }
  else s

/-- R107. No edge for 1.25 P: the domain begins a frame itself and notes the loss; and a further one every P. -/
def execTbRefLost (t : Fin 8) (dt : Nat) (s : State) : Res :=
  let s1 := s.tbuEdges dt; let x := s1.dom t; let gone := s1.tbu.run - x.began
  .next (
    if ¬ x.en ∨ ¬ x.pinMode then s1
    else if x.lost then (if x.period ≤ gone then s1.newFrame t else s1)
    else if 5 * x.period ≤ 4 * gone then
      ((s1.newFrame t).setDom t { (s1.newFrame t).dom t with lost := true }).setFld (R.TB_CFG t) F.TB_CFG.REFLOST 1
    else s1)

/-- The steering offset, in units of 2^-29 ppm, that keeps a quad's bits per frame of domain TDOM, both loops taken at the nominal rate of
one reference: device time runs at INCR/2^29 of it (R231, R104). -/
def State.steerOffset (s : State) : Int := ((s.incr : Int) - 2 ^ 29) * 1000000

/-- At a frame tick of domain `t` the quads that track it have reached their offset (R231). -/
def State.steerQuads (s : State) (t : Nat) : State :=
  (List.range 32).foldl (fun a i =>
    let r := R.LANE_QCLK (i / 8) (i % 8); let o := a.steerOffset
    if t = 0 ∨ (a.dom t).pinMode ∨ ¬ a.flag r F.LANE_QCLK.TRACK ∨ a.fld r F.LANE_QCLK.TDOM ≠ t ∨ ¬ a.flag r F.LANE_QCLK.QLOCK then a
    else
      let b := a.setFld r F.LANE_QCLK.TOFS (wrapTo 10 (max (-200) (min 200 (o / 2 ^ 29))))
      if o < -200 * 2 ^ 29 ∨ 200 * 2 ^ 29 < o then b.setFld r F.LANE_QCLK.TCLIP 1 else b) s

/-- R108, R116, R203. At the first TBU edge at which the frame number has changed the domain issues a frame tick (with the line tick of
line 0); the hub decides an armed commit; a global capture asked for this domain goes out with the tick. -/
def execFrameTick (t : Fin 8) (dt : Nat) (s : State) : Res :=
  let s1 := s.tbuEdges dt; let x := s1.dom t; let n := s1.frameNow t; let k := s1.lineNow t
  .next (
    if ¬ x.en ∨ n = x.ticked then s1
    else
      let s2 := ((s1.setDom t { x with ticked := n, line := k }).emit (.tick t false n)).sendRec t 0 n
      let s3 := if k = 0 then (s2.emit (.tick t true 0)).sendRec t 1 n else s2
      let s4 := if s3.gsnap ∧ s3.fld R.TR_GSNAP F.TR_GSNAP.DOM = t then { s3 with gsnap := false, gsnapDue := s3.gsnapDue + 1 } else s3
      (s4.steerQuads t).decideTick t n)

/-- R108. A line tick at the start of each line. -/
def execLineTick (t : Fin 8) (dt : Nat) (s : State) : Res :=
  let s1 := s.tbuEdges dt; let x := s1.dom t; let k := s1.lineNow t
  .next (
    if ¬ x.en ∨ s1.frameNow t ≠ x.ticked ∨ k = x.line then s1
    else ((s1.setDom t { x with line := k }).emit (.tick t true k)).sendRec t 1 (s1.frameNow t))

/-- R113. A write of SHT_ARM with GO. -/
def execShtArmGo (t : Fin 8) (v : BitVec 32) (s : State) : Res := .next (s.shtArmWrite t (v ||| 0x80000000))

/-- R118. A write of SHT_ARM with ABORT. -/
def execAbort (t : Fin 8) (v : BitVec 32) (s : State) : Res := .next (s.shtArmWrite t (v ||| 0x40000000))

/-- A member receives the arm of the armed domain whose set it is in, and refuses shadow writes from then on (R114). -/
def State.receiveArm (s : State) (m : Nat) : State :=
  match (List.range 8).find? fun t => s.canEnd t && s.inSet t m && s.reached0 t 2 m with
  | none => s
  | some t => if SMap.get 0 s.armedBy m = 0 then { s with armedBy := SMap.set 0 s.armedBy m (s.armTag t) } else s

/-- The hub hears that a member has acknowledged the present arm of domain t (R115). -/
def State.heard (s : State) (t m : Nat) : State :=
  if s.canEnd t ∧ ¬ (s.arm t).acked.contains m then s.setArm t { s.arm t with acked := (s.arm t).acked ++ [m] } else s

/-- An armed member that is ready acknowledges, unless a hinge on its way is not UP (R115, R272): one of the hub at once, one of a fabric
die by a record of kind 5 with the frame number of its arm, sent once (Table 11.4). -/
def State.acknowledge (s : State) (m : Nat) : State :=
  match (List.range 8).find? fun t => s.canEnd t && decide (SMap.get 0 s.armedBy m = s.armTag t) with
  | none => s
  | some t =>
    let a := s.arm t
    if ¬ s.memberReady m then s
    else match memberDie m with
    | none => s.heard t m
    | some d =>
      if s.pathUp d ∧ ¬ a.said.contains m then
        (s.setArm t { a with said := a.said ++ [m] }).relay (s.hubEnd d) ⟨Fin.ofNat 8 t, 5, Fin.ofNat 1024 m, recFrame a.target⟩
      else s

/-- A member's acknowledgement reaches the hub: it counts for the arm whose frame number it carries, once the member has acknowledged that arm;
until then it is one of an earlier arm with that target. -/
def State.takeAck (s : State) (r : TickRec) : State :=
  if r.frame = recFrame (s.arm r.dom).target ∧ (s.arm r.dom).said.contains r.mem.val then s.heard r.dom r.mem else s

/-- A member receives the disarm of an arm that has ended, or behind it the arm that followed, and accepts shadow writes again (R118). -/
def State.receiveDisarm (s : State) (m : Nat) : State :=
  let a := SMap.get 0 s.armedBy m; let t := (a - 1) % 8
  if a = 0 ∨ (s.armState t = 1 ∧ a = s.armTag t) ∨ ¬ s.reached0 t (if a = s.armTag t then 4 else 2) m then s
  else { s with armedBy := SMap.set 0 s.armedBy m 0 }

/-- R114. -/
def execArmReceive (m : Fin 912) (s : State) : Res := .next (s.receiveArm m)

/-- R115. -/
def execMemberAcknowledge (m : Fin 912) (s : State) : Res := .next (s.acknowledge m)

/-- R118. -/
def execDisarm (m : Fin 912) (s : State) : Res := .next (s.receiveDisarm m)

/-- R51, R52, R117. A pane switches: at the edge of its cell clock that ends the present cycle; a gated pane when its clock resumes. -/
def execPaneSwitch (d : Fin 4) (p : Fin 64) (dt : Nat) (s : State) : Res :=
  let pane := paneId d p
  .next ((s.advance pane dt).switchMember pane fun a => if a.clockStopped pane then a.deferSwitch pane else a.exchangePane pane)

/-- R145. An engine switches. -/
def execEngineSwitch (d : Fin 4) (e : Fin 128) (s : State) : Res :=
  let m := engMember d e
  .next (s.switchMember m fun a => if a.clockStopped m then a.deferSwitch m else a.exchangeEngine (engId d e))

/-- R117. Every member of the set has switched. -/
def execCommitComplete (t : Fin 8) (s : State) : Res :=
  let a := s.arm t; let st := R.SHT_STATUS t
  .next (
    if s.armState t = 1 ∧ a.sent ∧ (s.setOf t).all (a.switched.contains ·) then
      let s1 := (s.setOf t).foldl (fun b m => { b with armedBy := SMap.set 0 b.armedBy m 0 }) s
      let s2 := (List.range 32).foldl (fun b i => b.setReg (R.SHT_SET t i) 0) s1
      (((s2.setFld st F.SHT_STATUS.STATE 2).setFld st F.SHT_STATUS.CFRAME (wrapTo 16 a.frame)).setFld st F.SHT_STATUS.CDONE 1).armOver t
    else s)

/-- An exchange for each of `n` commits that waited. -/
def State.exchangeTimes (s : State) (f : State → State) : Nat → State
  | 0 => s
  | n + 1 => (f s).exchangeTimes f n

/-- The clocks of a pane resume: what a commit or a ledger capture left waiting is done at the first edge (R52, R145, R172). -/
def State.clocksResume (s : State) (pane : Nat) : State :=
  let x := s.pane pane
  let s1 := if x.switchPend = 0 then s else (s.setPane pane { x with switchPend := 0 }).exchangeTimes (fun a => a.exchangePane pane) x.switchPend
  let s2 := [2 * pane, 2 * pane + 1].foldl (fun a g =>
    let y := a.eng g
    (if y.switchPend = 0 then a else (a.setEng g { y with switchPend := 0 }).exchangeTimes (fun b => b.exchangeEngine g) y.switchPend)
      |>.engLeaveOff g) s1
  (List.range 6).foldl (fun a m => a.snapTimes (pane / 64) (pane % 64) m (a.mover (pane * 6 + m)).snaps) s2

end Sys2Proof.Machine
end

