-- ==== Sys2Proof/Machine/FrameMem.lean ====
section
/-!
DEFINITION. DDR5 frame memory (Chapter 9): addressing, the splitter and its pieces, errors and patrol, the controllers' states and training, and
the frame-store helpers.
-/
namespace Sys2Proof.Machine

/-! ### Free values -/

/-- The next value the spec leaves open, and the state with the counter advanced. -/
def State.free (s : State) : Nat × State := (Config.freeValue s.fresh, { s with fresh := s.fresh + 1 })

/-! ### Addressing (R215) -/

def State.ddr (s : State) (c : Nat) : DdrSt := SMap.get {} s.ddrs c

def State.setDdr (s : State) (c : Nat) (x : DdrSt) : State := { s with ddrs := SMap.set {} s.ddrs c x }

/-- NSC; the reserved codes of NSCL act as 4 (log entry 11). -/
def State.nsc (s : State) : Nat := 2 ^ min 4 (s.fld R.DDR_MAP F.DDR_MAP.NSCL)

/-- Burst blocks per sub-channel of a controller's configuration (Table 9.1). -/
def State.ddrBlocks (s : State) (c : Nat) : Nat :=
  if s.fld (R.DDR_CFG c) F.DDR_CFG.COMP = 0 ∧ s.fld (R.DDR_CFG c) F.DDR_CFG.RANKS = 0 then 2 ^ 26 else 2 ^ 27

/-- Where a word of frame memory lies: sub-channel of the device, local block, word of the block; `x` is the offset X. -/
def State.fmPlace (s : State) (x : Nat) : Nat × Nat × Nat := (x / 15 % s.nsc, x / 15 / s.nsc, x % 15)

/-- Is offset X inside frame memory? -/
def State.fmInside (s : State) (x : Nat) : Bool :=
  let p := s.fmPlace x
  decide (p.2.1 < s.ddrBlocks (p.1 / 2))

def blkKey (sc bl : Nat) : Nat := sc * 2 ^ 27 + bl

def State.fmWord (s : State) (sc bl k : Nat) : Word := SMap.get 0 s.fm (blkKey sc bl * 16 + k)

def State.setFmWord (s : State) (sc bl k : Nat) (w : Word) : State := { s with fm := SMap.set 0 s.fm (blkKey sc bl * 16 + k) w }

def State.blkErr (s : State) (sc bl : Nat) : BlkErr := SMap.get {} s.fmErr (blkKey sc bl)

def State.setBlkErr (s : State) (sc bl : Nat) (x : BlkErr) : State := { s with fmErr := SMap.set {} s.fmErr (blkKey sc bl) x }

/-- DDR_ERR of a sub-channel of the device. -/
def ddrErr (sc : Nat) : Nat := R.DDR_ERR (sc / 2) (sc % 2)

/-! ### Burst blocks (R213, R214, R216) -/

/-- Where a component holds local block `bl`, by COMP and RANKS (Table 9.2). -/
def blkLoc (comp ranks bl : Nat) : BlkLoc :=
  match comp with
  | 0 => ⟨bl % 8, bl / 8 % 64, bl / 512 % 2, bl / 1024 % 65536, if ranks = 0 then 0 else bl / 2 ^ 26 % 2⟩
  | 1 => ⟨bl % 8, bl / 8 % 64, bl / 512 % 4, bl / 2048 % 65536, 0⟩
  | _ => ⟨bl % 8, bl / 8 % 128, bl / 1024 % 2, bl / 2048 % 65536, 0⟩

def State.ddrComp (s : State) (sc : Nat) : Nat := s.fld (R.DDR_CFG (sc / 2)) F.DDR_CFG.COMP

/-- A burst on a sub-channel. -/
def State.burst (s : State) (sc bl : Nat) (write : Bool) : State :=
  s.emit (.ddrBurst sc write (blkLoc (s.ddrComp sc) (s.fld (R.DDR_CFG (sc / 2)) F.DDR_CFG.RANKS) bl))

/-- The words of a block as they were written. -/
def State.blkWords (s : State) (sc bl : Nat) : List Word := (List.range 15).map (s.fmWord sc bl)

/-- Beat `n` of a block as the components hold it: bit i on DQ line i (R213). -/
def State.beat (s : State) (sc bl n : Nat) : Word :=
  (if n < 15 then s.fmWord sc bl n else Config.rsCheck (s.blkWords sc bl) bl) ^^^ SMap.get 0 (s.blkErr sc bl).flips n

/-- Symbol i of a beat: octet i, DQ[8i+7:8i]. -/
def symbolOf (w : Word) (i : Nat) : Nat := w.toNat / 256 ^ i % 256

/-- The symbols of a block that are in error: beat and octet. -/
def BlkErr.symbols (e : BlkErr) : List (Nat × Nat) :=
  (e.flips.filter fun x => decide (x.1 < 16)).flatMap fun x => ((List.range 5).filter fun i => symbolOf x.2 i ≠ 0).map fun i => (x.1, i)

/-- The component that drives the wrong bits of symbol i, `x` being what is inverted in it: a ×8 component i; of ×4 components 2i drives
bits [3:0], 2i + 1 bits [7:4]. Where both do, `f` chooses (a free value). -/
def faultyDev (comp i x f : Nat) : Nat :=
  if comp = 2 then (if x / 16 = 0 then 2 * i else if x % 16 = 0 then 2 * i + 1 else 2 * i + f % 2) else i

/-! ### Writing a block (Table 18.3) -/

/-- What an injection inverts: one data bit of a block, or bits of two symbols of it, at places that are free values (Table 18.3). -/
def injectFlips (kind f g : Nat) : SMap Word :=
  if kind = 1 then SMap.set 0 [] (f % 15) (BitVec.ofNat 40 (2 ^ (f / 15 % 40)))
  else
    let p := f % 80; let q := (p + 1 + g % 79) % 80
    let at_ := fun (m : SMap Word) (p v : Nat) =>
      SMap.set 0 m (p / 5) (SMap.get 0 m (p / 5) ^^^ BitVec.ofNat 40 ((1 + v % 255) * 256 ^ (p % 5)))
    at_ (at_ [] p (f / 80)) q (g / 79)

/-- What a block that has been written holds: its check word is formed anew, and an injection that waits takes effect. -/
def State.injectBlk (s : State) (sc bl : Nat) : State :=
  let d := s.ddr (sc / 2)
  let n := if sc % 2 = 0 then d.inj0 else d.inj1
  if n = 0 then s.setBlkErr sc bl {}
  else
    let f := (s.setDdr (sc / 2) (if sc % 2 = 0 then { d with inj0 := 0 } else { d with inj1 := 0 })).free
    let g := f.2.free
    g.2.setBlkErr sc bl { flips := injectFlips n f.1 g.1 }

/-- A block has been written whole. -/
def State.wroteBlk (s : State) (sc bl : Nat) : State := (s.burst sc bl true).injectBlk sc bl

/-! ### Reading a block (R214, R219, R224, R225) -/

/-- Record an uncorrectable block (R225). -/
def State.noteUe (s : State) (sc bl : Nat) : State :=
  if s.flag (ddrErr sc) F.DDR_ERR.UE then s
  else (s.setFld (ddrErr sc) F.DDR_ERR.UE 1).setFld (R.DDR_UEADR (sc / 2) (sc % 2)) F.DDR_UEADR.BLK bl

/-- Write words into a block from word `k` on. -/
def State.putWords (s : State) (sc bl k : Nat) : List Word → State
  | [] => s
  | w :: ws => (s.setFmWord sc bl k w).putWords sc bl (k + 1) ws

/-- A correction: the block is written back, and the correction is recorded with the component. -/
def State.noteCe (s : State) (sc bl dev : Nat) : State :=
  (((s.wroteBlk sc bl).setFld (ddrErr sc) F.DDR_ERR.CE 1).setFld (ddrErr sc) F.DDR_ERR.CEDEV dev).addSat
    (ddrErr sc) F.DDR_ERR.CECNT 1

/-- `n` free words. -/
def State.freeBlk (s : State) : Nat → List Word × State
  | 0 => ([], s)
  | n + 1 => let f := s.free; let r := f.2.freeBlk n; (BitVec.ofNat 40 f.1 :: r.1, r.2)

/-- Three symbols or more: detected with high likelihood but without guarantee, so that what the code makes of them is free: an uncorrectable
block, which stays so until it is written whole (R227), or other words with or without a correction. -/
def State.readWild (s : State) (sc bl : Nat) : Bool × State :=
  let f := s.free
  if f.1 % 3 = 0 then (false, (f.2.setBlkErr sc bl { s.blkErr sc bl with ue := true }).noteUe sc bl)
  else
    let w := f.2.freeBlk 15; let a := (w.2.putWords sc bl 0 w.1).setBlkErr sc bl {}
    if f.1 % 3 = 1 then (true, a)
    else let g := a.free; (true, g.2.noteCe sc bl (g.1 % (if s.ddrComp sc = 2 then 10 else 5)))

/-- Local block `asked` of a sub-channel is read and checked, the components answering with the block written as `got`: false where it is
uncorrectable. A block read from a wrong address never agrees with the local number that is part of its code. -/
def State.readBlk (s : State) (sc asked got : Nat) : Bool × State :=
  let s1 := s.burst sc asked false; let e := s.blkErr sc got
  if asked ≠ got ∨ e.ue then (false, s1.noteUe sc asked)
  else match e.symbols with
    | [] => (true, s1)
    | [(n, i)] =>
      let f := s1.free
      (true, f.2.noteCe sc asked (faultyDev (s.ddrComp sc) i (symbolOf (SMap.get 0 e.flips n) i) f.1))
    | [_, _] => (false, s1.noteUe sc asked)
    | _ => s1.readWild sc asked

/-- A block read is checked: the components answer from the place the controller names. -/
def State.checkBlk (s : State) (sc bl : Nat) : Bool × State := s.readBlk sc bl bl

/-! ### Pieces (R217–R219, R224, R225) -/

/-- The pieces of a request of `n` words from offset `x` on; `fuel` bounds their number. -/
def State.pieces (s : State) : Nat → Nat → Nat → Nat → List Piece
  | 0, _, _, _ => []
  | fuel + 1, x, n, i =>
    if n = 0 then []
    else
      let p := s.fmPlace x; let m := min n (15 - p.2.2)
      { sc := p.1, bl := p.2.1, k := p.2.2, n := m, at_ := i } :: s.pieces fuel (x + m) (n - m) (i + m)

/-- Is a controller ONLINE? -/
def State.ddrOnline (s : State) (c : Nat) : Bool := decide (s.fld (R.DDR_STATUS c) F.DDR_STATUS.STATE = 2)

/-- A read piece: its words, or a cause. A refusal of a controller that is not ONLINE counts a posted piece alone, in DROP (R221). -/
def State.readPiece (s : State) (p : Piece) : (List Word × Fin 8) × State :=
  if ¬ s.ddrOnline (p.sc / 2) then ((List.replicate p.n 0, eREFUSED), s)
  else
    let r := s.checkBlk p.sc p.bl
    (((List.range p.n).map fun i => r.2.fmWord p.sc p.bl (p.k + i), if r.1 then 0 else eDATA), r.2)

/-- A write piece, its packet holding its words: cause 0 where it is performed. -/
def State.writePiece (s : State) (p : Piece) (pk : Packet) : Fin 8 × State :=
  let post := posted pk.cmd
  if ¬ s.ddrOnline (p.sc / 2) then
    (eREFUSED, if post then s.addSat (R.DDR_STATUS (p.sc / 2)) F.DDR_STATUS.DROP 1 else s)
  else
    let s0 := if anyFails pk then s.setFld (ddrErr p.sc) F.DDR_ERR.XPAR 1 else s
    let ws := pk.data.take p.n
    if p.n = 15 then (0, (s0.putWords p.sc p.bl 0 ws).wroteBlk p.sc p.bl)
    else
      let r := (s0.addSat (ddrErr p.sc) F.DDR_ERR.RMW 1).checkBlk p.sc p.bl
      if r.1 then (0, (r.2.putWords p.sc p.bl p.k ws).wroteBlk p.sc p.bl)
      else (eDATA, if post then r.2.setFld (ddrErr p.sc) F.DDR_ERR.PWDROP 1 else r.2)

/-- ADD or SWAP of one word (R217): the old word. It is no read-modify-write that DDR_ERR.RMW counts (DESIGN CHOICE, log entry 165). -/
def State.atomicPiece (s : State) (p : Piece) (pk : Packet) : FmPart × State :=
  if ¬ s.ddrOnline (p.sc / 2) then (⟨p.at_, [], eREFUSED⟩, s)
  else
    let r := s.checkBlk p.sc p.bl
    let old := r.2.fmWord p.sc p.bl p.k
    if r.1 then
      (⟨p.at_, [old], 0⟩, (r.2.setFmWord p.sc p.bl p.k (if pk.cmd = cADD then old + pk.opnd else pk.opnd)).wroteBlk p.sc p.bl)
    else (⟨p.at_, [], eDATA⟩, r.2)

/-- How many words a request of frame memory asks for. -/
def fmCount (pk : Packet) : Nat := if pk.cmd = cRD ∨ pk.cmd = cWR ∨ pk.cmd = cWRP then pk.len.val else 1

/-- Does frame memory serve a command (R217)? -/
def fmServes (pk : Packet) : Bool := decide (pk.cmd = cRD ∨ pk.cmd = cWR ∨ pk.cmd = cWRP ∨ pk.cmd = cADD ∨ pk.cmd = cSWAP)

/-- The pieces of a request (R217). -/
def State.fmPieces (s : State) (pk : Packet) : List Piece :=
  if fmServes pk then s.pieces 64 (pk.addr.toNat - 0x100000000) (fmCount pk) 0 else []

/-- A piece is performed. -/
def State.doPiece (s : State) (p : Piece) (pk : Packet) : FmPart × State :=
  if pk.cmd = cRD then (let r := s.readPiece p; (⟨p.at_, r.1.1, r.1.2⟩, r.2))
  else if pk.cmd = cADD ∨ pk.cmd = cSWAP then s.atomicPiece p pk
  else (let r := s.writePiece p pk; (⟨p.at_, [], r.1⟩, r.2))

/-- The packet by which the splitter sends a piece of a request. -/
def piecePacket (pk : Packet) (p : Piece) : Packet :=
  { pk with
    dst := fmPortOf (p.sc / 2), addr := pk.addr + BitVec.ofNat 40 p.at_
    len := if pk.cmd = cRD ∨ pk.cmd = cWR ∨ pk.cmd = cWRP then Fin.ofNat 65 p.n else pk.len
    data := (pk.data.drop p.at_).take p.n, par := (pk.par.drop p.at_).take p.n }

/-- The request that a piece at a controller's port is of, and the piece: the first that has it. `here`: the controller has accepted it. -/
def State.fmOwner (s : State) (pk : Packet) (here : Bool) : Option (FmReq × Piece) :=
  s.fmSeq.findSome? fun e =>
    if e.pk.src = pk.src ∧ e.pk.cmd = pk.cmd ∧ e.pk.prio = pk.prio ∧ e.pk.tag = pk.tag then
      (e.left.find? fun p => decide (p.since.isSome = here ∧ fmPortOf (p.sc / 2) = pk.dst ∧ e.pk.addr + BitVec.ofNat 40 p.at_ = pk.addr)).map fun p =>
        (e, p)
    else none

/-- A controller takes the piece at its port, which tracks it no longer. -/
def State.fmTake (s : State) (pk : Packet) : State :=
  let s1 := s.popTin pk.dst (vcOf pk)
  { s1 with tracked := s1.tracked.eraseP fun t => decide (t.link = pk.dst ∧ t.src = pk.src ∧ t.tag = pk.tag.val) && !t.posted && !t.cpl }

/-- A controller performs the piece at its port. The end of one that the splitter has taken as BOARDED is discarded at the port, in ABSR (R199). -/
def State.fmPerform (s : State) (pk : Packet) : State :=
  match s.fmOwner pk true with
  | some (e, p) => let r := (s.fmTake pk).doPiece p pk; r.2.fmEnd e p r.1
  | none =>
    let x := s.fmPlace (pk.addr.toNat - 0x100000000)
    let r := (s.fmTake pk).doPiece { sc := x.1, bl := x.2.1, k := x.2.2, n := fmCount pk, at_ := 0 } pk
    if posted pk.cmd then r.2 else r.2.addLed pk.dst 9 1

/-- A controller that is not ONLINE holds no piece waiting: it refuses those of channel v at its port, up to `n` (R221). -/
def State.fmRefuseAt (s : State) (l v : Nat) : Nat → State
  | 0 => s
  | n + 1 => match s.headAt l v with
    | some pk => (s.fmPerform pk).fmRefuseAt l v n
    | none => s

/-- A controller that is not ONLINE refuses every piece at its port. -/
def State.fmRefuse (s : State) (c : Nat) : State :=
  if s.ddrOnline c then s
  else (List.range 4).foldl (fun (a : State) v => a.fmRefuseAt (fmPortOf c) v (a.tin (fmPortOf c) v).length) s

/-! ### The splitter's pieces on their way (R190, R198, R217) -/

/-- Is a link a local target port: ports 4–11 of a pane router, 16–32 of the hub switch (R197)? -/
def localPort (l : Nat) : Bool := if routerOf l = 256 then decide (16 ≤ portOf l) else decide (4 ≤ portOf l)

/-- Does a flit of channel v that is due on output l lack a credit? A header unit waits too while the port tracks 32 packets (R198). -/
def State.noCredit (s : State) (l v : Nat) (f : TFlit) : Bool :=
  decide (s.avail l v = 0) || (f.head && localPort l && decide (32 ≤ (s.tracked.filter fun t => decide (t.link = l)).length))

/-- A parity bit of the next data word that leaves a hub port is inverted where DIAG_INJ asked for it (Table 18.3). -/
def State.spoil (s : State) (l : Nat) (f : TFlit) : TFlit × State :=
  if routerOf l = 256 ∧ SMap.get false s.hubPar (portOf l) ∧ ¬ f.head then
    ({ f with par := f.par ^^^ 0x80000 }, { s with hubPar := SMap.set false s.hubPar (portOf l) false })
  else (f, s)

/-- A local target port tracks the packet of a flit it sends (R198). -/
def State.track (s : State) (l v : Nat) (f : TFlit) : State :=
  let out := s.depthOf l v - s.avail l v
  if f.head then
    let p := headerOf f.w
    { s with tracked := s.tracked ++ [⟨l, p.src, p.tag, posted p.cmd, isCompletion p.cmd, p.prio, flitsOf p - 1, out⟩] }
  else
    { s with tracked := s.tracked.map fun t => if t.link = l ∧ t.vc = v ∧ t.left ≠ 0 then { t with left := t.left - 1, ahead := out } else t }

/-- A flit goes to the target of a local port, spending a credit. -/
def State.sendLocal (s : State) (l v : Nat) (f : TFlit) : State :=
  let s1 := (s.sendFlits l v 1).track l v f
  (s1.setTin l v (s1.tin l v ++ [f])).settleTin l v

/-- A controller accepts the piece that stands whole at its port: its wait begins (R223); one that is not ONLINE refuses it at once (R221). -/
def State.fmArrive (s : State) (pk : Packet) : State :=
  let s1 : State := match s.fmOwner pk false with
    | some (e, p) => { s with
        fmSeq := replaceFirst e { e with left := replaceFirst p { p with since := some s.tbu.run } e.left } s.fmSeq }
    | none => s
  s1.fmRefuse (portOf pk.dst - 16)

/-- The splitter sends the next flit of channel v to the controller at port l, if it has a credit. -/
def State.fmPumpOne (s : State) (l v : Nat) : State :=
  let q := s.fmQueue l v
  match q.pks with
  | [] => s
  | pk :: rest =>
    let f := flitAt pk q.done
    if s.noCredit l v f then s
    else
      let x := s.spoil l f
      let s1 := x.2.sendLocal l v x.1
      if flitsOf pk ≤ q.done + 1 then (s1.setFmQueue l v ⟨rest, 0⟩).fmArrive pk else s1.setFmQueue l v { q with done := q.done + 1 }

/-- The splitter sends what it has of channel v for the controller at port l, as far as its credits go. -/
def State.fmPump (s : State) (l v : Nat) : State :=
  (List.range ((s.fmQueue l v).pks.map flitsOf).sum).foldl (fun a _ => a.fmPumpOne l v) s

/-- The splitter sends what it has for controller c. -/
def State.fmPumpAll (s : State) (c : Nat) : State := (List.range 4).foldl (fun a v => a.fmPump (fmPortOf c) v) s

/-- The splitter sends a piece to its controller; a boarded port absorbs it, and it ends as BOARDED (R199). -/
def State.fmSend (s : State) (pk : Packet) (p : Piece) : State :=
  let q := piecePacket pk p; let v := vcOf q
  if s.boarded q.dst then
    let s1 := s.absorbPiece q.dst q 0
    match s1.fmOwner q false with
    | some (e, x) => s1.fmEnd e x ⟨p.at_, [], eBOARDED⟩
    | none => s1
  else (s.setFmQueue q.dst v { s.fmQueue q.dst v with pks := (s.fmQueue q.dst v).pks ++ [q] }).fmPump q.dst v

/-- The splitter divides the request that has come whole to it on channel v (R217); a command that frame memory does not serve completes with
CPLE UNSUP, or is absorbed. -/
def State.fmSplit (s : State) (v : Nat) : State :=
  match frontPacket (s.tin memLink v) with
  | none => s
  | some pk0 =>
    let s1 := s.setTin memLink v ((s.tin memLink v).drop (flitsOf pk0))
    let pk := { pk0 with dst := fmPortOf ((s.fmPlace (pk0.addr.toNat - 0x100000000)).1 / 2) }
    let ps := s.fmPieces pk
    if ¬ fmServes pk then s1.answerErr pk eUNSUP
    else ps.foldl (fun a p => a.fmSend pk p) { s1 with fmSeq := s1.fmSeq ++ [{ pk := { pk with data := [], par := [] }, left := ps }] }

/-! ### Service by priority (R218, R223) -/

/-- May a piece be performed: does no request that the splitter got before still have a piece of its block (R218)? -/
def State.pieceDue (s : State) (e : FmReq) (p : Piece) : Bool :=
  !(s.fmSeq.takeWhile fun x => !decide (x = e)).any fun x => x.left.any fun q => decide (q.sc = p.sc ∧ q.bl = p.bl)

/-- The pieces that a controller may perform next, by priority: the first of each channel at its port, if it is due; those alone that were accepted
before the last exchange of DDR_QOS where there are such, for the exchange does not reorder them. -/
def State.fmAt (s : State) (c : Nat) : List (Nat × Piece) :=
  let ps := (List.range 4).filterMap fun v =>
    match s.headAt (fmPortOf c) v with
    | some pk => (s.fmOwner pk true).bind fun x => if s.pieceDue x.1 x.2 then some (v, x.2) else none
    | none => none
  if ps.any fun x => x.2.old then ps.filter fun x => x.2.old else ps

/-- Has a piece waited 2 µs? -/
def State.fmAged (s : State) (p : Piece) : Bool :=
  match p.since with | some t => decide (2000 * nsUnit ≤ s.tbu.run - t) | none => false

/-- The weight of a priority: the live W field, or that of before the exchange for pieces accepted before it, 0 acting as 1. -/
def State.qosW (s : State) (c q : Nat) : Nat :=
  let f : Fld := ⟨4 * q + 3, 4 * q⟩
  max 1 (match (s.ddr c).qosOld with | some v => getF v f | none => s.liveF (ddrMember c) (R.DDR_QOS c) f)

def State.qosUsed (s : State) (c q : Nat) : Nat := SMap.get 0 (s.ddr c).used q

/-- The priorities that contend for a controller's service; those alone whose piece has waited 2 µs where there are such. -/
def State.fmContenders (s : State) (c : Nat) : List Nat :=
  let ps := s.fmAt c
  (if ps.any fun x => s.fmAged x.2 then ps.filter fun x => s.fmAged x.2 else ps).map Prod.fst

/-- May the piece of a priority be served next at a controller: has it waited 2 µs, or where none has, has no priority that waits had less service
for its weight? -/
def State.qosNext (s : State) (c q : Nat) : Bool :=
  (s.fmContenders c).contains q &&
    ((s.fmAt c).any (fun x => s.fmAged x.2) ||
      (s.fmContenders c).all fun p => decide (s.qosUsed c q * s.qosW c p ≤ s.qosUsed c p * s.qosW c q))

/-- A piece of a priority is served; a priority with none waiting gains no claim by that. -/
def State.qosCharge (s : State) (c q : Nat) : State :=
  let u := s.qosUsed c q + 1
  let used := (List.range 4).foldl (fun m p =>
    if p = q then SMap.set 0 m p u
    else if (s.fmContenders c).contains p then m
    else SMap.set 0 m p (max (SMap.get 0 m p) (u * s.qosW c p / s.qosW c q))) (s.ddr c).used
  s.setDdr c { s.ddr c with used := used }

/-- Has a controller accepted a piece that it has not performed? -/
def State.fmTouches (s : State) (c : Nat) : Bool := (List.range 4).any fun v => (s.headAt (fmPortOf c) v).isSome

/-- The weights of before an exchange have gone once no piece accepted before it waits. -/
def State.qosFresh (s : State) (c : Nat) : State :=
  if (s.ddr c).qosOld.isSome ∧ ¬ s.fmSeq.any (fun e => e.left.any fun p => p.old && decide (p.sc / 2 = c)) then
    s.setDdr c { s.ddr c with qosOld := none, used := [] }
  else s

/-! ### States and training (R221, Tables 9.5, 9.6) -/

/-- Give a controller a state, and set the lock bits that follow it (Tables 9.3, 9.4); in OFF and FAILED no RETRAIN waits (Table 9.5). -/
def State.setDdrState (s : State) (c st : Nat) : State :=
  let s0 := (s.setFld (R.DDR_STATUS c) F.DDR_STATUS.STATE st).setFld (R.DDR_STATUS c) F.DDR_STATUS.LOCK (if st = 0 ∨ st = 4 then 0 else 1)
  let s1 := if st = 0 ∨ st = 4 then s0.setFld (R.DDR_STATUS c) F.DDR_STATUS.DEFER 0 else s0
  s1.setFld R.DDR_MAP F.DDR_MAP.LOCK (if (List.range 8).any (fun k => s1.flag (R.DDR_STATUS k) F.DDR_STATUS.LOCK) then 1 else 0)

/-- A training fails at a step, on a sub-channel. -/
def State.ddrFail (s : State) (c step sc : Nat) : State :=
  ((s.setDdrState c 4).setFld (R.DDR_STATUS c) F.DDR_STATUS.TSTEP step).setFld (R.DDR_STATUS c) F.DDR_STATUS.FSC sc

/-- Is the controller's configuration supported (R211, R212)? With a reserved code of NSCL none is (DESIGN CHOICE, log entry 11). -/
def State.ddrCfgOk (s : State) (c : Nat) : Bool :=
  let f := s.fld (R.DDR_CFG c)
  decide (f F.DDR_CFG.RATE ≤ 8 ∧ f F.DDR_CFG.COMP ≤ 2 ∧ (f F.DDR_CFG.RANKS = 0 ∨ f F.DDR_CFG.COMP = 0) ∧
    s.fld R.DDR_MAP F.DDR_MAP.NSCL ≤ 4)

/-- Have the controllers that own the sub-channels in use, or fitted ones, the same COMP and RANKS as controller c (R211)? -/
def State.ddrAlike (s : State) (c : Nat) : Bool :=
  (List.range 8).all fun k =>
    decide ((s.nsc ≤ 2 * k ∧ s.fld (R.DDR_CFG k) F.DDR_CFG.SCEN = 0) ∨
      (s.fld (R.DDR_CFG k) F.DDR_CFG.COMP = s.fld (R.DDR_CFG c) F.DDR_CFG.COMP ∧
        s.fld (R.DDR_CFG k) F.DDR_CFG.RANKS = s.fld (R.DDR_CFG c) F.DDR_CFG.RANKS))

/-- Is a sub-channel of the device fitted? -/
def State.ddrFitted (s : State) (sc : Nat) : Bool := (s.fld (R.DDR_CFG (sc / 2)) F.DDR_CFG.SCEN).testBit (sc % 2)

/-- HL2 takes the rate of an INIT, starting at its first use (R311). -/
def State.startHl2 (s : State) (rate : Nat) : State :=
  let s1 := { s with clk := { s.clk with rate2 := rate } }
  if s.loopOn 2 then s1 else (s1.startLoop 2).lockLoop 2

/-- Does an INIT ask for another rate than HL2's while another controller is neither OFF nor FAILED (R313)? -/
def State.rateClash (s : State) (c : Nat) : Bool :=
  s.loopOn 2 && decide (s.fld (R.DDR_CFG c) F.DDR_CFG.RATE ≠ s.clk.rate2) &&
    (List.range 8).any fun k => decide (k ≠ c ∧ s.fld (R.DDR_STATUS k) F.DDR_STATUS.STATE ≠ 0 ∧ s.fld (R.DDR_STATUS k) F.DDR_STATUS.STATE ≠ 4)

/-- The full sequence begins with the check of step 0 and the rate of step 1; RESET_N is low until step 2 releases it. Where the failing step
fails on no one sub-channel of the controller, FSC is a free value. -/
def State.ddrInitNow (s0 : State) (c : Nat) : State :=
  let s := s0.setDdr c { s0.ddr c with initWait := false }
  if s.ddrCfgOk c ∧ s.ddrAlike c ∧ (List.range s.nsc).all s.ddrFitted then
    if s.rateClash c then s.free.2.ddrFail c 1 (s.free.1 % 2)
    else
      let s1 := (s.startHl2 (s.fld (R.DDR_CFG c) F.DDR_CFG.RATE)).setDdrState c 1
      s1.setDdr c { s1.ddr c with full := true, rstN := false }
  else match [2 * c, 2 * c + 1].find? fun sc => decide (sc < s.nsc) && !s.ddrFitted sc && s.ddrCfgOk c && s.ddrAlike c with
    | some sc => s.ddrFail c 0 (sc % 2)
    | none => s.free.2.ddrFail c 0 (s.free.1 % 2)

/-- INIT, from OFF or FAILED: an armed controller defers it until the arm ends (R114). -/
def State.ddrInit (s : State) (c : Nat) : State :=
  let st := s.fld (R.DDR_STATUS c) F.DDR_STATUS.STATE
  if st ≠ 0 ∧ st ≠ 4 then s
  else if SMap.get 0 s.armedBy (ddrMember c) ≠ 0 then s.setDdr c { s.ddr c with initWait := true }
  else s.ddrInitNow c

/-- A controller leaves ONLINE for another state at once: an OFFLINE waits no longer, the pieces at its port complete with REFUSED, and the splitter
sends on. -/
def State.ddrLeaves (s : State) (c st : Nat) : State :=
  let s1 := s.setDdrState c st
  ((if (s.ddr c).offWait then s1.setDdr c { s1.ddr c with offWait := false } else s1).fmRefuse c).fmPumpAll c

/-- Begin steps 3 to 7. -/
def State.ddrRetrainNow (s : State) (c : Nat) : State :=
  ((s.setFld (R.DDR_STATUS c) F.DDR_STATUS.DEFER 0).setDdr c { s.ddr c with full := false }).ddrLeaves c 1

/-- RETRAIN: deferred while the controller is armed. -/
def State.ddrRetrain (s : State) (c : Nat) : State :=
  let st := s.fld (R.DDR_STATUS c) F.DDR_STATUS.STATE
  if st ≠ 2 ∧ st ≠ 3 then s
  else if SMap.get 0 s.armedBy (ddrMember c) ≠ 0 then s.setFld (R.DDR_STATUS c) F.DDR_STATUS.DEFER 1
  else s.ddrRetrainNow c

/-- OFFLINE, once every accepted piece has been performed; those that arrive while it waits are accepted, and it waits for them too (DESIGN CHOICE,
log entry 167). -/
def State.ddrOffline (s : State) (c : Nat) : State :=
  if s.fld (R.DDR_STATUS c) F.DDR_STATUS.STATE ≠ 2 then s
  else if s.fmTouches c then s.setDdr c { s.ddr c with offWait := true }
  else s.setDdrState c 3

/-- An OFFLINE that waited takes place, its last accepted piece performed. -/
def State.ddrSettle (s : State) (c : Nat) : State :=
  if (s.ddr c).offWait ∧ ¬ s.fmTouches c then
    let s1 := s.setDdr c { s.ddr c with offWait := false }
    if s1.ddrOnline c then s1.setDdrState c 3 else s1
  else s

def State.ddrToOnline (s : State) (c : Nat) : State :=
  if s.fld (R.DDR_STATUS c) F.DDR_STATUS.STATE = 3 then s.setDdrState c 2 else s

/-- A write of DDR_CTL. -/
def State.ddrCtlWrite (s : State) (c : Nat) (v : HWord) : State :=
  match v.toNat % 8 with
  | 1 => s.ddrInit c
  | 2 => s.ddrRetrain c
  | 3 => s.ddrOffline c
  | 4 => s.ddrToOnline c
  | _ => s

def execDdrInit (c : Fin 8) (s : State) : Res := .next (s.ddrCtlWrite c 1)

def execDdrRetrain (c : Fin 8) (s : State) : Res := .next (s.ddrCtlWrite c 2)

def execDdrOffline (c : Fin 8) (s : State) : Res := .next (s.ddrCtlWrite c 3)

def execDdrOnline (c : Fin 8) (s : State) : Res := .next (s.ddrCtlWrite c 4)

/-- R221, R114. A training that an armed controller deferred starts when the arm has ended: a RETRAIN from ONLINE or OFFLINE, an INIT from OFF or
FAILED. -/
def execDeferredRetrain (c : Fin 8) (s : State) : Res :=
  let st := s.fld (R.DDR_STATUS c) F.DDR_STATUS.STATE
  .next (
    if SMap.get 0 s.armedBy (ddrMember c) ≠ 0 then s
    else if s.flag (R.DDR_STATUS c) F.DDR_STATUS.DEFER ∧ (st = 2 ∨ st = 3) then s.ddrRetrainNow c
    else if (s.ddr c).initWait ∧ (st = 0 ∨ st = 4) then s.ddrInitNow c
    else s)

/-- Every block of a controller's sub-channels holds zero words (Table 9.6 step 8). An injection takes effect in the first block written to its
sub-channel, local block 0 (Table 18.3; DESIGN CHOICE, log entry 150). -/
def State.ddrZero (s : State) (c : Nat) : State :=
  let s1 : State := { s with
    fm := s.fm.filter fun e => !decide (e.1 / 2 ^ 31 / 2 = c)
    fmErr := s.fmErr.filter fun e => !decide (e.1 / 2 ^ 27 / 2 = c) }
  [2 * c, 2 * c + 1].foldl (fun a sc => if a.ddrFitted sc then a.injectBlk sc 0 else a) s1

/-- R221. The training in progress ends: at its last step (`fail` 0), or at step `fail` on sub-channel `sc`. TSTEP has three bits, and step 8 reads
as 0 in it (DESIGN CHOICE, log entry 166). -/
def execDdrTrainingDone (c : Fin 8) (fail : Fin 9) (sc : Fin 2) (s : State) : Res :=
  .next (
    if ¬ s.ddrTraining c then s
    else if fail = 0 then
      let s1 := if (s.ddr c).full then s.ddrZero c else s
      (s1.setDdrState c 2).setDdr c { s1.ddr c with rstN := true }
    else if (s.ddr c).full ∨ (3 ≤ fail.val ∧ fail.val ≤ 7) then
      (s.ddrFail c fail sc).setDdr c { s.ddr c with rstN := (s.ddr c).rstN || decide (3 ≤ fail.val) }
    else s)

/-- R222. While ONLINE the controller issues a same-bank refresh to its components. -/
def execDdrRefresh (c : Fin 8) (s : State) : Res :=
  .next (if s.ddrOnline c then s.emit (.ddrRefresh c) else s)

/-- R222. While ONLINE the controller tracks DQS drift from the components' interval oscillators. -/
def execDqsDriftTrack (c : Fin 8) (s : State) : Res :=
  .next (if s.ddrOnline c then s.emit (.ddrTrack c) else s)

/-- R226. In a cycle in which no piece waits, patrol scrub reads its next block of the controller's enabled sub-channels, in ascending Bl. -/
def execDdrPatrolScrub (c : Fin 8) (s : State) : Res :=
  .next (
    if s.ddrOnline c ∧ s.flag (R.DDR_SCRUB c) F.DDR_SCRUB.PEN ∧ ¬ s.fmTouches c then
      let d := s.ddr c; let sc := 2 * c.val + d.patrol % 2; let bl := d.patrol / 2
      let s1 := if s.ddrFitted sc then (s.checkBlk sc bl).2 else s
      s1.setDdr c { s1.ddr c with patrol := (d.patrol + 1) % (2 * s.ddrBlocks c) }
    else s)

/-- R223. The controller's exchange of DDR_QOS; shares are counted anew under the new weights, once the pieces that it has already accepted are
served under the old. -/
def State.qosExchange (s : State) (c : Nat) : State :=
  let v := match (s.ddr c).qosOld with | some v => v | none => s.live (ddrMember c) (R.DDR_QOS c)
  let s1 := s.flip (ddrMember c)
  if s.fmTouches c then
    let seq := s1.fmSeq.map fun e => { e with left := e.left.map fun p => if p.sc / 2 = c ∧ p.since.isSome then { p with old := true } else p }
    ({ s1 with fmSeq := seq } : State).setDdr c { s1.ddr c with qosOld := some v }
  else s1.setDdr c { s1.ddr c with used := [], qosOld := none }

def execDdrQosSwitch (c : Fin 8) (s : State) : Res := .next (s.switchMember (ddrMember c) fun a => a.qosExchange c)

/-! ### Frame-store helpers (R220) -/

/-- A write of DDR_FSHIN. DESIGN CHOICE (log entry 151): the helpers hold what this write computed, whatever NSCL becomes later. -/
def State.fshWrite (s : State) (v : HWord) : State :=
  let s1 := s.writeReg R.DDR_FSHIN v
  let lw := getF v F.DDR_FSHIN.LWORDS; let ln := getF v F.DDR_FSHIN.LINES
  let lblk := (lw + 14) / 15
  let fblk := s.nsc * ((lblk * ln + s.nsc - 1) / s.nsc)
  if lw = 0 ∨ ln = 0 then (s1.setReg R.DDR_FSHL 0).setReg R.DDR_FSHF 0
  else ((s1.setFld R.DDR_FSHL F.DDR_FSHL.LBLK lblk).setFld R.DDR_FSHL F.DDR_FSHL.LSTRIDE (15 * lblk)).setReg R.DDR_FSHF
    (BitVec.ofNat 32 (15 * fblk))

def execFrameStoreHelper (v : BitVec 32) (s : State) : Res := .next (s.fshWrite v)

end Sys2Proof.Machine
end

