-- ==== Sys2Proof/Machine/Ends.lean ====
section
/-!
DEFINITION. The hinge ends (Tables 1.2, 11.1), what stands at them, and the fabric references that their forwarded clocks bring (R314,
R315). Ends are named 3d + h for port h of fabric die d, 12 and 13 for the hub's.
-/
namespace Sys2Proof.Machine

/-! ### Ends (Tables 1.2, 11.1) -/

/-- The two ends of hinge k, the authoritative one first. -/
def hingeEnds (k : Nat) : Nat × Nat :=
  match k with | 0 => (12, 0) | 1 => (13, 3) | 2 => (1, 4) | 3 => (2, 6) | 4 => (5, 9) | _ => (7, 10)

/-- The first or the second end of hinge k. -/
def hingeEnd (k : Nat) (second : Bool) : Nat := if second then (hingeEnds k).2 else (hingeEnds k).1

/-- The hinge an end belongs to; none for the absent ports (R14). -/
def hingeOf (e : Nat) : Option Nat := (List.range 6).find? fun k => decide ((hingeEnds k).1 = e ∨ (hingeEnds k).2 = e)

/-- The other end of an end's hinge. -/
def peerEnd (e : Nat) : Nat :=
  match hingeOf e with
  | some k => if (hingeEnds k).1 = e then (hingeEnds k).2 else (hingeEnds k).1
  | none => e

/-- The fabric die of an end; none at the hub. -/
def endDie (e : Nat) : Option Nat := if e < 12 then some (e / 3) else none

/-- The side of its die that an end stands on (Table 11.1). -/
def endSide (e : Nat) : Nat := ([0, 1, 2, 0, 3, 2, 0, 1, 0, 0, 3, 0] : List Nat).getD e 0

/-- The end on side `side` of die d. -/
def sideEnd (d side : Nat) : Option Nat :=
  (List.range 3).findSome? fun h => if (hingeOf (3 * d + h)).isSome ∧ endSide (3 * d + h) = side then some (3 * d + h) else none

/-- The pane at position x of the edge an end stands on. -/
def endPane (e x : Nat) : Nat :=
  e / 3 * 64 + (match endSide e with | 0 => x | 1 => 8 * x + 7 | 2 => 56 + x | _ => 8 * x)

/-- The router port that pane link x of an end's transom stage serves. -/
def endRouter (e x : Nat) : Nat :=
  if e = 12 then portId 256 x else if e = 13 then portId 256 (8 + x) else portId (endPane e x) (endSide e)

/-- The end and pane link that a router's output link enters, if it leads to a hinge. -/
def stageOf (l : Nat) : Option (Nat × Nat) :=
  let r := routerOf l; let x := portOf l
  if r = 256 then (if x < 8 then some (12, x) else if x < 16 then some (13, x - 8) else none)
  else if 4 ≤ x ∨ (nbrInDie (r % 64) x).isSome then none
  else (sideEnd (r / 64) x).map fun e => (e, if x % 2 = 0 then r % 8 else r % 64 / 8)

/-! ### State -/

def State.hinge (s : State) (k : Nat) : HingeSt := SMap.get {} s.hinges k
def State.setHinge (s : State) (k : Nat) (x : HingeSt) : State := { s with hinges := SMap.set {} s.hinges k x }

def State.leaf (s : State) (e j : Nat) : LeafSt := SMap.get {} s.leaves (32 * e + j)
def State.setLeaf (s : State) (e j : Nat) (x : LeafSt) : State := { s with leaves := SMap.set {} s.leaves (32 * e + j) x }

def State.stage (s : State) (e x v : Nat) : StageSt := SMap.get {} s.stages ((8 * e + x) * 8 + v)
def State.setStage (s : State) (e x v : Nat) (y : StageSt) : State :=
  { s with stages := SMap.set {} s.stages ((8 * e + x) * 8 + v) y }

/-- What the recall store holds for pane link x of hinge end e (R265): flits with their channel, the oldest first. -/
def State.recalled (s : State) (e x : Nat) : List (Nat × TFlit) := SMap.get [] s.recalls (8 * e + x)
def State.setRecalled (s : State) (e x : Nat) (fs : List (Nat × TFlit)) : State := { s with recalls := SMap.set [] s.recalls (8 * e + x) fs }

/-! ### Router ports -/

/-- The input at the far end of a mesh link. -/
def peerPort (l : Nat) : Option Nat :=
  let r := routerOf l; let x := portOf l
  if r = 256 ∨ 4 ≤ x then none else (nbrInDie (r % 64) x).map fun n => portId (r / 64 * 64 + n) ((x + 2) % 4)

/-- Is a router port present (Tables 8.1, 8.2)? -/
def State.portExists (s : State) (l : Nat) : Bool :=
  let x := portOf l
  if routerOf l = 256 then decide (x < 32) || (decide (x = 32) && s.hasCompanion)
  else decide (4 ≤ x ∧ x < 12) || (decide (x < 4) && ((peerPort l).isSome || (stageOf l).isSome))

/-- Does a router run: its pane's clocks run, on a die that is not powered down; of the hub switch, HL0's consumers? -/
def State.routerRuns (s : State) (r : Nat) : Bool :=
  if r = 256 then s.hubRuns else !s.dieDark (r / 64) && s.flag (R.PANE_CLK (r / 64) (r % 64)) F.PANE_CLK.LOCK

/-! ### Fabric references (R314, R315) -/

/-- The leaves whose forwarded clock has stopped at an end. -/
def State.stopped (s : State) (e : Nat) : BitVec 32 :=
  let k := (hingeOf e).getD 0
  if (hingeEnds k).1 = e then (s.hinge k).stop0 else (s.hinge k).stop1

/-- The lowest leaf that brings FCK to an end; `runs`: the hinges in TRAIN or UP. -/
def State.fckLeaf (s : State) (runs : Nat → Bool) (e : Nat) : Option Nat :=
  match hingeOf e with
  | some k => if runs k then (List.range 32).find? fun j => !(s.stopped e).getLsbD j else none
  | none => none

/-- Does a hinge train, or is it UP? -/
def State.hingeRuns (s : State) (k : Nat) : Bool :=
  decide (s.hingeState (hingeEnds k).1 = 1 ∨ s.hingeState (hingeEnds k).1 = 2)

/-- Where die d takes its reference from (R314): hinge port 0 or else 1, and the leaf. `from_` holds the dies (4: the hub) that send FCK. -/
def State.prefFrom (s : State) (runs : Nat → Bool) (from_ : List Nat) (d : Nat) : Option (Nat × Nat) :=
  ([0, 1] : List Nat).findSome? fun h =>
    let e := 3 * d + h
    if from_.contains ((endDie (peerEnd e)).getD 4) then (s.fckLeaf runs e).map fun j => (h, j) else none

/-- The dies that hold a reference once those of `from_` send FCK; a die whose PREF multiplexer holds its output low has none (R317). -/
def State.prefGrow (s : State) (runs : Nat → Bool) (from_ : List Nat) : List Nat :=
  (List.range 4).foldl (fun a d =>
    if a.contains d ∨ (SMap.get {} s.dies d).off ∨ SMap.get 0 s.clk.mux (8 + d) = 3 ∨ (s.prefFrom runs a d).isNone then a else a ++ [d]) from_

/-- The dies that send FCK: the hub while HL1's consumers have a clock, and each fabric die that a chain of running hinges gives PREF. -/
def State.prefDies (s : State) (runs : Nat → Bool) : List Nat :=
  (List.range 4).foldl (fun a _ => s.prefGrow runs a) (if SMap.get 0 s.clk.mux 5 = 3 then [] else [4])

/-- Does die d hold its reference? -/
def State.hasPref (s : State) (d : Nat) : Bool := (s.prefDies s.hingeRuns).contains d

/-- Can hinge k pass step 1 of Table 11.7: the hub loops are locked, and each end sends FCK, over this hinge too where it brings PREF? -/
def State.canTrain (s : State) (k : Nat) : Bool :=
  let ds := s.prefDies fun i => decide (i = k) || s.hingeRuns i
  s.flag R.CLK_HLSTAT F.CLK_HLSTAT.LOCK0 && s.flag R.CLK_HLSTAT F.CLK_HLSTAT.LOCK1 &&
    ds.contains ((endDie (hingeEnds k).1).getD 4) && ds.contains ((endDie (hingeEnds k).2).getD 4)

end Sys2Proof.Machine
end

