-- ==== Sys2Proof/Machine/Lanes.lean ====
section
/-!
DEFINITION. Serial lanes (Chapter 10): quads and their loops, transparent words, native frames on the line, native bring-up, and the
eye monitor.
-/
namespace Sys2Proof.Machine

def laneKey (d l : Nat) : Nat := 32 * d + l

def State.lane (s : State) (d l : Nat) : LaneSt := SMap.get {} s.lanes (laneKey d l)
def State.setLane (s : State) (d l : Nat) (x : LaneSt) : State := { s with lanes := SMap.set {} s.lanes (laneKey d l) x }

def State.laneErr (s : State) (d l : Nat) (f : Fld) : State := s.setFld (R.LANE_ERR d l) f 1

/-- Has a lane started: RUN, which is enabled with its quad loop running, without CFGERR (R229, Table 10.14)? -/
def State.laneRun (s : State) (d l : Nat) : Bool := s.flag (R.LANE_STAT d l) F.LANE_STAT.RUN && !s.flag (R.LANE_STAT d l) F.LANE_STAT.CFGERR
def State.laneEn (s : State) (d l : Nat) : Bool := s.flag (R.LANE_CTL d l) F.LANE_CTL.EN
def State.laneNative (s : State) (d l : Nat) : Bool := decide (s.fld (R.LANE_CFG d l) F.LANE_CFG.MODE = 1)

/-- The attached pane of a lane (R228). -/
def lanePane (d l : Nat) : Nat := paneId d (2 * l)

/-! ### Starting and stopping (R229, R230) -/

/-- Do mode, family and divisor agree (R229, Table 10.1)? -/
def State.laneCfgOk (s : State) (d l : Nat) : Bool :=
  let fam := s.fld (R.LANE_QCLK d (l / 4)) F.LANE_QCLK.FAM
  let mode := s.fld (R.LANE_CFG d l) F.LANE_CFG.MODE
  let div := s.fld (R.LANE_CFG d l) F.LANE_CFG.DIV
  decide ((mode = 0 ∧ (fam = 1 ∨ fam = 2 ∨ (fam = 3 ∧ (div = 0 ∨ div = 3)) ∨ (fam = 4 ∧ div = 0))) ∨ (mode = 1 ∧ fam = 5))

/-- The state of native bring-up, and what a change of it to or from UP sets (R247). -/
def State.nstate (s : State) (d l : Nat) : Nat := s.fld (R.LANE_STAT d l) F.LANE_STAT.NSTATE

def State.setNstate (s : State) (d l n : Nat) : State :=
  let s1 := s.setFld (R.LANE_STAT d l) F.LANE_STAT.NSTATE n
  if (s.nstate d l = 3) ≠ (n = 3) then s1.laneErr d l F.LANE_ERR.LCHG else s1

def State.laneCdr (s : State) (d l : Nat) : Bool := s.flag (R.LANE_STAT d l) F.LANE_STAT.CDR

/-- Give CDR a value: a change sets LCHG, and a loss ends an eye measurement (R249). -/
def State.setCdr (s : State) (d l : Nat) (b : Bool) : State :=
  if s.laneCdr d l = b then s
  else
    let s1 := (s.setFld (R.LANE_STAT d l) F.LANE_STAT.CDR (if b then 1 else 0)).laneErr d l F.LANE_ERR.LCHG
    if ¬ b ∧ s1.flag (R.LANE_EYE d l) F.LANE_EYE.BUSY then
      ((s1.setFld (R.LANE_EYE d l) F.LANE_EYE.BUSY 0).setFld (R.LANE_EYE d l) F.LANE_EYE.DONE 1).setReg (R.LANE_EYER d l) 0xFFFFFFFF
    else s1

/-- Begin a step: its CTLE training gives a peaking the spec leaves open (R233), and the receiver looks for marker lock at the new rate. -/
def State.enterStep (s : State) (d l step : Nat) (x : LaneSt) : State :=
  let f := s.free
  (((f.2.setFld (R.LANE_STAT d l) F.LANE_STAT.STEP step).setFld (R.LANE_CTLE d l) F.LANE_CTLE.TPEAK (f.1 % 16)).setCdr d l false).setLane
    d l { since := (s.lane d l).since, window := x.window, fell := x.fell }

/-- Enter SEEK (R244, R247). -/
def State.enterSeek (s : State) (d l : Nat) : State :=
  let s1 := (s.setNstate d l 1).setFld (R.LANE_STAT d l) F.LANE_STAT.CEIL 3
  ((s1.addSat (R.LANE_CNT_RST d l) F.LANE_CNT_RST.COUNT 1).enterStep d l 0 {}).setLane d l {}

/-- Is a lane's peaking the adaptive one of transparent mode (R233)? -/
def State.laneAuto (s : State) (d l : Nat) : Bool := decide (s.liveF (laneMember d l) (R.LANE_CTLE d l) F.LANE_CTLE.AUTO = 1)

/-- In transparent mode, with AUTO at 0, the peaking in use is PEAK (R233). -/
def State.setPeak (s : State) (d l : Nat) : State :=
  if s.laneNative d l ∨ s.laneAuto d l then s
  else s.setFld (R.LANE_CTLE d l) F.LANE_CTLE.TPEAK (s.liveF (laneMember d l) (R.LANE_CTLE d l) F.LANE_CTLE.PEAK)

/-- With AUTO at 1 a transparent receiver adapts its peaking, a step at a time: down, not at all or up is a free value (R233). -/
def State.adaptPeak (s : State) (d l : Nat) : State :=
  if s.laneAuto d l then
    let f := s.free; let r := R.LANE_CTLE d l
    f.2.setFld r F.LANE_CTLE.TPEAK (min 15 (s.fld r F.LANE_CTLE.TPEAK + f.1 % 3 - 1))
  else s

/-- An enabled lane of a locked quad starts. -/
def State.laneStart (s : State) (d l : Nat) : State :=
  let s1 := s.setFld (R.LANE_STAT d l) F.LANE_STAT.RUN 1
  if s1.laneNative d l then s1.enterSeek d l else s1.setPeak d l

/-- A lane stops. -/
def State.laneStop (s : State) (d l : Nat) : State :=
  (((s.setCdr d l false).setNstate d l 0).setFld (R.LANE_STAT d l) F.LANE_STAT.RUN 0).setLane d l {}

/-- The lanes of a quad. -/
def quadLanes (q : Nat) : List Nat := [4 * q, 4 * q + 1, 4 * q + 2, 4 * q + 3]

/-- An enabled lane that has not started is checked: it sets CFGERR, or starts in a locked quad, or waits for the loop (R229, R230). RUN shows
the quad's lock for either (Table 10.14). -/
def State.laneCheck (s : State) (d l : Nat) : State :=
  let st := R.LANE_STAT d l
  if ¬ s.laneEn d l ∨ s.laneRun d l then s
  else if ¬ s.laneCfgOk d l then
    let s1 := if s.flag st F.LANE_STAT.CFGERR then s else (s.setFld st F.LANE_STAT.CFGERR 1).laneErr d l F.LANE_ERR.CFG
    if s1.flag (R.LANE_QCLK d (l / 4)) F.LANE_QCLK.QLOCK then s1.setFld st F.LANE_STAT.RUN 1 else s1
  else
    let s1 := s.setFld st F.LANE_STAT.CFGERR 0
    if s1.flag (R.LANE_QCLK d (l / 4)) F.LANE_QCLK.QLOCK then s1.laneStart d l else s1

/-- A lane becomes enabled. -/
def State.laneOn (s : State) (d l : Nat) : State := (s.setFld (R.LANE_QCLK d (l / 4)) F.LANE_QCLK.QRUN 1).laneCheck d l

/-- A lane becomes disabled; the loop of a quad without an enabled lane stops, and with it its steering. DESIGN CHOICE (log entry 169): CFGERR
falls. -/
def State.laneOff (s : State) (d l : Nat) : State :=
  let r := R.LANE_QCLK d (l / 4)
  let s1 := (s.laneStop d l).setFld (R.LANE_STAT d l) F.LANE_STAT.CFGERR 0
  if (quadLanes (l / 4)).any (s1.laneEn d ·) then s1
  else ((s1.setFld r F.LANE_QCLK.QRUN 0).setFld r F.LANE_QCLK.QLOCK 0).setFld r F.LANE_QCLK.TOFS 0

/-- A write of LANE_CFG or, of the registers of its quad, LANE_QCLK: lanes that wait are checked against it. -/
def State.laneCfgWrite (s : State) (off : Nat) (d : Nat) (ls : List Nat) (v : HWord) : State :=
  if s.dieDark d then s else ls.foldl (fun a l => a.laneCheck d l) (s.writeReg off v)

/-- EYEGO (R249). -/
def State.eyeGo (s : State) (d l : Nat) : State :=
  let r := R.LANE_EYE d l
  if s.flag r F.LANE_EYE.BUSY then s
  else if s.laneCdr d l then
    (s.setFld r F.LANE_EYE.BUSY 1).setLane d l { s.lane d l with gate := max 16 (s.fld r F.LANE_EYE.GATE) }
  else (s.setFld r F.LANE_EYE.DONE 1).setReg (R.LANE_EYER d l) 0xFFFFFFFF

/-- A write of LANE_CTL (Table 10.8). -/
def State.laneCtlWrite (s : State) (d l : Nat) (v : HWord) : State :=
  if s.dieDark d then s
  else
    let was := s.laneEn d l
    let s1 := s.writeReg (R.LANE_CTL d l) v
    let s2 := if s1.laneEn d l ∧ ¬ was then s1.laneOn d l else if was ∧ ¬ s1.laneEn d l then s1.laneOff d l else s1
    let s3 := if v.getLsbD 1 ∧ s2.laneRun d l ∧ s2.laneNative d l then s2.enterSeek d l else s2
    if v.getLsbD 2 then s3.eyeGo d l else s3

/-- R230. A write of LANE_CTL.EN. -/
def execLaneEnable (d : Fin 4) (l : Fin 32) (en : Bool) (s : State) : Res :=
  .next (s.reach d (R.LANE_CTL d l) (if en then 1 else 0) (·.laneCtlWrite d l (if en then 1 else 0)))

/-- R230. The loop of a quad with an enabled lane locks, unsteered as yet, and its lanes start. -/
def execQuadLock (d : Fin 4) (q : Fin 8) (s : State) : Res :=
  let r := R.LANE_QCLK d q; let fam := s.fld r F.LANE_QCLK.FAM
  .next (
    if s.dieDark d ∨ ¬ s.hasPref d ∨ ¬ s.flag r F.LANE_QCLK.QRUN ∨ s.flag r F.LANE_QCLK.QLOCK ∨ fam = 0 ∨ 6 ≤ fam then s
    else (quadLanes q).foldl (fun a l => a.laneCheck d l) ((s.setFld r F.LANE_QCLK.QLOCK 1).setFld r F.LANE_QCLK.TOFS 0))

/-- The loop of a quad loses lock: every lane of the quad stops and sets LOL (R230). -/
def State.quadLoses (s : State) (d q : Nat) : State :=
  let r := R.LANE_QCLK d q
  if s.flag r F.LANE_QCLK.QLOCK then
    (quadLanes q).foldl (fun a l => (a.laneStop d l).laneErr d l F.LANE_ERR.LOL) (s.setFld r F.LANE_QCLK.QLOCK 0)
  else s

/-- R230. -/
def execQuadLossOfLock (d : Fin 4) (q : Fin 8) (s : State) : Res := .next (s.quadLoses d q)

/-- R238. Clock recovery of a transparent lane gains or loses lock. On a gain with LANE_CTLE.AUTO at 1 the peaking in use is a free
value. -/
def execCdrLockChange (d : Fin 4) (l : Fin 32) (lock : Bool) (s : State) : Res :=
  .next (
    if ¬ s.laneRun d l ∨ s.laneNative d l ∨ s.laneCdr d l = lock then s
    else if lock then
      let s1 := s.setCdr d l true
      if s1.laneAuto d l then
        s1.free.2.setFld (R.LANE_CTLE d l) F.LANE_CTLE.TPEAK (s1.free.1 % 16)
      else s1
    else (s.setCdr d l false).laneErr d l F.LANE_ERR.LOL)

/-! ### Queues (R234–R236) -/

/-- The receive and transmit bindings of a lane, live. -/
def State.laneRq (s : State) (d l : Nat) : Bool × Nat × Nat :=
  bindOf (s.live (laneMember d l) (R.LANE_QB d l)) F.LANE_QB.RQEN F.LANE_QB.RQMEM F.LANE_QB.RQ

def State.laneTq (s : State) (d l : Nat) : Bool × Nat × Nat :=
  bindOf (s.live (laneMember d l) (R.LANE_QB d l)) F.LANE_QB.TQEN F.LANE_QB.TQMEM F.LANE_QB.TQ

/-- Do the clocks of the attached pane run, so that its queues serve the lane? -/
def State.laneServed (s : State) (d l : Nat) : Bool := s.flag (R.PANE_CLK d (2 * l)) F.PANE_CLK.LOCK

/-- The receive side pushes a word or item. Before GSR and WRITES, and before OUTPUTS, it pushes nothing (Table 10.17). A push that finds no
service is refused, which a queue it names counts (R171). -/
def State.lanePush (s : State) (d l : Nat) (w : Word) (tag : Bool) : State :=
  let pane := lanePane d l; let b := s.laneRq d l
  if ¬ s.dieRuns d ∨ ¬ (SMap.get {} s.dies d).outputs then s
  else if ¬ s.served pane b true .lane then
    (if s.bound pane b.1 b.2.1 b.2.2 ∧ s.queueMode pane b.2.1 then s.refuse pane b.2.1 b.2.2 1 else s).laneDrop d l |>.laneErr d l F.LANE_ERR.UNB
  else if ¬ s.laneServed d l then s.laneDrop d l
  else if s.pushWaits pane b.2.1 b.2.2 then s.waitPush pane (.lane b.2.1 b.2.2 l w tag)
  else
    let r := s.pushBound pane b.2.1 b.2.2 w tag
    if r.1 then r.2 else r.2.laneDrop d l

/-- The transmit side's next entry, if one is present. A shut pane takes no push, but its queues yield what they hold (R352). -/
def State.lanePop (s : State) (d l : Nat) : Option (Word × Bool) × State :=
  let pane := lanePane d l; let b := s.laneTq d l
  if s.served pane b false .lane ∧ s.laneServed d l then
    let r := s.popBound pane b.2.1 b.2.2
    if r.1.2.2 then (some (r.1.1, r.1.2.1), r.2) else (none, r.2)
  else (none, s)

/-- Is the transmitter driven: OUTPUTS reached and TXON? -/
def State.laneDrives (s : State) (d l : Nat) : Bool :=
  (SMap.get {} s.dies d).outputs && decide (s.liveF (laneMember d l) (R.LANE_TX d l) F.LANE_TX.TXON = 1)

def State.laneTxInv (s : State) (d l : Nat) : Bool := decide (s.liveF (laneMember d l) (R.LANE_TX d l) F.LANE_TX.TXINV = 1)
def State.laneRxInv (s : State) (d l : Nat) : Bool := decide (s.liveF (laneMember d l) (R.LANE_CTLE d l) F.LANE_CTLE.RXINV = 1)

/-! ### Transparent mode (R237) -/

/-- Forty bits have come in, the first in bit 39; `dt` cycles of the pane pass before. -/
def execLaneReceiveWord (d : Fin 4) (l : Fin 32) (w : BitVec 40) (dt : Nat) (s : State) : Res :=
  let s1 := s.advance (lanePane d l) dt
  .next (
    if s1.laneRun d l ∧ ¬ s1.laneNative d l ∧ s1.laneCdr d l then
      (s1.adaptPeak d l).lanePush d l (if s1.laneRxInv d l then ~~~ w else w) false
    else s1)

/-- A word time begins at the transmitter. One that is electrically idle takes nothing from its queue (R236). -/
def execLaneTransmitWord (d : Fin 4) (l : Fin 32) (dt : Nat) (s : State) : Res :=
  let s1 := s.advance (lanePane d l) dt; let b := s1.laneTq d l; let pane := lanePane d l
  let send := fun (a : State) (w : Word) => a.emit (.laneWord d l (if s1.laneTxInv d l then ~~~ w else w))
  let under := fun (a : State) =>
    (a.addSat (R.LANE_CNT_UNDR d l) F.LANE_CNT_UNDR.COUNT 1).laneErr d l F.LANE_ERR.UNDR
  .next (
    if ¬ s1.laneRun d l ∨ s1.laneNative d l ∨ ¬ s1.laneDrives d l then s1
    else if ¬ s1.served pane b false .lane then send ((under s1).laneErr d l F.LANE_ERR.UNB) 0xAAAAAAAAAA
    else
      let r := s1.lanePop d l
      match r.1 with
      | some e => send r.2 e.1
      | none => send (under r.2) (s1.idleWord pane b.2.1 b.2.2))

/-! ### Native frames (R239–R242) -/

/-- The marker (Table 10.2). -/
def nativeMarker : List Bool := [false] ++ List.replicate 24 true ++ List.replicate 24 false ++ [true]

/-- The scrambler (R240): each bit XOR the next of the PRBS31 sequence, `r` holding the last 31 of it, newest in bit 0. -/
def scramble (r : Nat) : List Bool → List Bool
  | [] => []
  | b :: bs =>
    let k := r.testBit 30 ^^ r.testBit 27
    (b ^^ k) :: scramble (2 * r % 2 ^ 31 + (if k then 1 else 0)) bs

/-- Stuffing (R241): `n` identical bits `last` have gone before. -/
def stuff (last : Bool) (n : Nat) : List Bool → List Bool
  | [] => []
  | b :: bs =>
    let m := if b = last then n + 1 else 1
    if m = 20 then b :: (!b) :: stuff (!b) 1 bs else b :: stuff b m bs

/-- Stuff removal: the remaining bits, and whether a stuff error was met. -/
def unstuff (last : Bool) (n : Nat) : List Bool → List Bool × Bool
  | [] => ([], false)
  | b :: bs =>
    if n = 20 then
      let r := unstuff b 1 bs
      (r.1, decide (b = last) || r.2)
    else
      let r := unstuff b (if b = last then n + 1 else 1) bs
      (b :: r.1, r.2)

/-- The line bits of a frame of 32 items: the body, which is the items, is scrambled; body and check field are stuffed, the count of
identical bits starting after the marker (R239–R241; log entry 24). -/
def nativeEncode (items : List (BitVec 42)) : List Bool :=
  let body := items.flatMap fun i => bitsMsb 42 i.toNat
  nativeMarker ++ stuff false 0 (scramble (2 ^ 31 - 1) body ++ bitsMsb 16 (crc16 body))

/-- What a receiver makes of the line bits that stand where a frame is expected. -/
structure NativeRx where
  marker : Bool
  stuffOk : Bool
  crcOk : Bool
  items : List (BitVec 42)
  deriving DecidableEq, Repr

/-- The items a list of bits holds. -/
def itemsOf : Nat → List Bool → List (BitVec 42)
  | 0, _ => []
  | n + 1, bs => BitVec.ofNat 42 (natOfBits (bs.take 42)) :: itemsOf n (bs.drop 42)

def nativeDecode (bits : List Bool) : NativeRx :=
  let u := unstuff false 0 (bits.drop 50)
  let body := scramble (2 ^ 31 - 1) (u.1.take 1344)
  { marker := decide (bits.take 50 = nativeMarker)
    stuffOk := !u.2
    crcOk := decide (u.1.length = 1360 ∧ natOfBits (u.1.drop 1344) = crc16 body)
    items := itemsOf 32 body }

/-! ### Native bring-up (R244–R247) -/

/-- The last capability word received. -/
def State.lanePcap (s : State) (d l : Nat) : Nat := (s.reg (R.LANE_PCAP_H d l)).toNat * 2 ^ 32 + (s.reg (R.LANE_PCAP_L d l)).toNat

/-- The target step T. -/
def State.laneTarget (s : State) (d l : Nat) : Nat :=
  let p := s.lanePcap d l
  min (min (s.fld (R.LANE_NCFG d l) F.LANE_NCFG.MAXSTEP) (bitsOf p 35 34)) (min (s.fld (R.LANE_STAT d l) F.LANE_STAT.CEIL) (bitsOf p 28 27))

def State.laneStep (s : State) (d l : Nat) : Nat := s.fld (R.LANE_STAT d l) F.LANE_STAT.STEP

/-- Does the partner's last capability word say RDY at the present step? -/
def State.partnerRdy (s : State) (d l : Nat) : Bool :=
  let p := s.lanePcap d l
  decide (bitsOf p 33 32 = s.laneStep d l) && p.testBit 31

/-- Steps 2, 3, 5 and 6 of Table 10.7, taken as far as the present state allows. -/
def State.laneEval (s : State) (d l : Nat) : State :=
  let x := s.lane d l; let k := s.laneStep d l; let p := s.lanePcap d l; let t := s.laneTarget d l
  if s.nstate d l ≠ 1 ∧ s.nstate d l ≠ 2 then s
  else
    let rdy := x.rdy || decide (16 ≤ x.good)
    let atK := decide (bitsOf p 33 32 = k)
    let move := (rdy && s.partnerRdy d l && decide (k < t)) || (atK && p.testBit 30)
    let go := if x.go.isSome then x.go else if move ∧ k < s.fld (R.LANE_STAT d l) F.LANE_STAT.CEIL ∧ k < 3 then some 0 else none
    let done := x.done || (rdy && s.partnerRdy d l && decide (t = k))
    let s1 := s.setLane d l { x with
      rdy := rdy, go := go, done := done
      window := x.window && !(rdy && s.partnerRdy d l), fell := x.fell && !rdy }
    if x.doneSent ∧ atK ∧ p.testBit 29 then s1.setNstate d l 3 else s1

/-- The capability word a side sends (Table 10.5). -/
def State.capability (s : State) (d l : Nat) : Word :=
  let x := s.lane d l; let st := R.LANE_STAT d l
  BitVec.ofNat 40 (2 ^ 36 + s.fld (R.LANE_NCFG d l) F.LANE_NCFG.MAXSTEP * 2 ^ 34 + s.laneStep d l * 2 ^ 32 +
    (if x.rdy then 2 ^ 31 else 0) + (if x.go.isSome then 2 ^ 30 else 0) + (if x.done then 2 ^ 29 else 0) +
    s.fld st F.LANE_STAT.CEIL * 2 ^ 27 + s.fld (R.LANE_NCFG d l) F.LANE_NCFG.NODE)

/-- One item of a frame to send: a data item in UP, a control item when one is due, a fill item else. -/
def State.nextItem (s : State) (d l : Nat) : BitVec 42 × State :=
  let x := s.lane d l
  let r := if s.nstate d l = 3 then s.lanePop d l else (none, s)
  match r.1 with
  | some e => (BitVec.ofNat 42 (2 ^ 41 + (if e.2 then 2 ^ 40 else 0) + e.1.toNat), r.2)
  | none =>
    if 16 ≤ x.since ∧ s.nstate d l ≠ 4 then
      (BitVec.ofNat 42 (2 ^ 40 + (s.capability d l).toNat), r.2.setLane d l { x with since := 0, doneSent := x.doneSent || x.done })
    else (0, r.2)

/-- `n` items. -/
def State.frameItems (s : State) (d l : Nat) : Nat → List (BitVec 42) × State
  | 0 => ([], s)
  | n + 1 =>
    let r := s.nextItem d l; let q := r.2.frameItems d l n
    (r.1 :: q.1, q.2)

/-- R239, R243, R245. A native lane that is driven sends a frame. -/
def execNativeFrameSend (d : Fin 4) (l : Fin 32) (dt : Nat) (s : State) : Res :=
  let s1 := s.advance (lanePane d l) dt; let b := s1.laneTq d l
  .next (
    if ¬ s1.laneRun d l ∨ ¬ s1.laneNative d l ∨ ¬ s1.laneDrives d l then s1
    else
      let s2 := if s1.served (lanePane d l) b false .lane then s1 else s1.laneErr d l F.LANE_ERR.UNB
      let r := s2.frameItems d l 32
      let x := r.2.lane d l
      let ctl := r.1.any fun i => !i.getLsbD 41 && i.getLsbD 40
      let s3 := (r.2.setLane d l { x with since := if ctl then 0 else x.since + 1, go := x.go.map (· + 1) }).laneEval d l
      s3.emit (.laneFrame d l ((nativeEncode r.1).map fun b => b ^^ s1.laneTxInv d l)))

/-- An item of a good frame. -/
def State.takeItem (s : State) (d l : Nat) (i : BitVec 42) : State :=
  let w := BitVec.ofNat 40 i.toNat
  if i.getLsbD 41 then s.lanePush d l w (i.getLsbD 40)
  else if i.getLsbD 40 then
    (s.setReg (R.LANE_PCAP_L d l) (BitVec.ofNat 32 w.toNat)).setReg (R.LANE_PCAP_H d l) (BitVec.ofNat 32 (w.toNat / 2 ^ 32))
  else s

/-- Marker lock is lost: four consecutive frames without a marker (R242); UP becomes DOWN (R247). -/
def State.markerLost (s : State) (d l : Nat) : State :=
  let s1 := s.setCdr d l false
  if s1.nstate d l = 3 then (s1.setNstate d l 4).laneErr d l F.LANE_ERR.MLOST else s1

/-- R242, R243. The bits that stand where a frame is expected, with or without a marker. DESIGN CHOICE (log entry 148): a frame with both a stuff
error and a bad check field sets STUFF alone. -/
def execNativeFrameReceive (d : Fin 4) (l : Fin 32) (bits : List Bool) (dt : Nat) (s : State) : Res :=
  let s1 := s.advance (lanePane d l) dt
  .next (
    if ¬ s1.laneRun d l ∨ ¬ s1.laneNative d l then s1
    else
      let r := nativeDecode (bits.map fun b => b ^^ s1.laneRxInv d l)
      let x := s1.lane d l
      if r.marker ∧ r.stuffOk ∧ r.crcOk then
        let s2 := (s1.addSat (R.LANE_CNT_GOOD d l) F.LANE_CNT_GOOD.COUNT 1).setLane d l { x with good := x.good + 1, miss := 0 }
        let s3 := if 1 ≤ x.good then s2.setCdr d l true else s2
        (r.items.foldl (fun a i => a.takeItem d l i) s3).laneEval d l
      else
        let miss := if r.marker then 0 else x.miss + 1
        let s2 := s1.setLane d l { x with good := 0, miss := miss }
        if ¬ s1.laneCdr d l then s2
        else
          let s3 := s2.addSat (R.LANE_CNT_BAD d l) F.LANE_CNT_BAD.COUNT 1
          let s4 := if ¬ r.stuffOk then s3.laneErr d l F.LANE_ERR.STUFF else if ¬ r.crcOk then s3.laneErr d l F.LANE_ERR.CRC else s3
          if 4 ≤ miss then s4.markerLost d l else s4)

/-- R245. GO has gone out in 64 frames: the side switches to the next step. -/
def execStepSwitch (d : Fin 4) (l : Fin 32) (s : State) : Res :=
  let x := s.lane d l
  .next (
    if (s.nstate d l = 1 ∨ s.nstate d l = 2) ∧ 64 ≤ x.go.getD 0 then
      (s.setNstate d l 2).enterStep d l (s.laneStep d l + 1) { window := true }
    else s)

/-- R246. RDY of either side is missing 5 ms after a switch. -/
def execStepFallback (d : Fin 4) (l : Fin 32) (s : State) : Res :=
  .next (
    if (s.lane d l).window ∧ s.nstate d l = 2 then
      let k := s.laneStep d l - 1
      (((s.setFld (R.LANE_STAT d l) F.LANE_STAT.CEIL k).laneErr d l F.LANE_ERR.FALLBK).enterStep d l k { fell := true })
    else s)

/-- R246. RDY does not return within 5 ms of a fallback. -/
def execSeekRestart (d : Fin 4) (l : Fin 32) (s : State) : Res :=
  .next (if (s.lane d l).fell ∧ ¬ (s.lane d l).rdy ∧ s.nstate d l = 2 then s.enterSeek d l else s)

/-- R247. 1 µs in DOWN with AUTO. -/
def execDownToSeek (d : Fin 4) (l : Fin 32) (s : State) : Res :=
  .next (if s.nstate d l = 4 ∧ s.flag (R.LANE_CFG d l) F.LANE_CFG.AUTO then s.enterSeek d l else s)

/-- R247. A write of LANE_CTL with RETRAIN, EN kept. -/
def execLaneRetrain (d : Fin 4) (l : Fin 32) (s : State) : Res :=
  .next (s.reach d (R.LANE_CTL d l) (if s.laneEn d l then 3 else 2) (·.laneCtlWrite d l (if s.laneEn d l then 3 else 2)))

/-! ### Eye monitor, commit -/

/-- R249. A write of LANE_CTL with EYEGO, EN kept. -/
def execEyego (d : Fin 4) (l : Fin 32) (s : State) : Res :=
  .next (s.reach d (R.LANE_CTL d l) (if s.laneEn d l then 5 else 4) (·.laneCtlWrite d l (if s.laneEn d l then 5 else 4)))

/-- R249. A measurement of 2^GATE bits ends with `errs` disagreements. -/
def execEyeDone (d : Fin 4) (l : Fin 32) (errs : BitVec 32) (s : State) : Res :=
  let r := R.LANE_EYE d l
  .next (
    if s.flag r F.LANE_EYE.BUSY then
      ((s.setFld r F.LANE_EYE.BUSY 0).setFld r F.LANE_EYE.DONE 1).setReg (R.LANE_EYER d l)
        (BitVec.ofNat 32 (min errs.toNat (2 ^ (s.lane d l).gate)))
    else s)

/-- R251. -/
def execLaneSwitch (d : Fin 4) (l : Fin 32) (s : State) : Res :=
  .next (s.switchMember (laneMember d l) fun a => (a.flip (laneMember d l)).setPeak d l)

end Sys2Proof.Machine
end

