-- ==== Sys2Proof/Machine/Wire.lean ====
section
/-!
DEFINITION. Flits on the wires of a hinge leaf (R254–R258, R261): the eight beats of a flit with their parity, CRC and sideband bits, and
what a receiver reads from them. A beat is the 48 wires D[39:0], BP[4:0], CRC[1:0] and FS, D[39] its highest bit.
-/
namespace Sys2Proof.Machine

/-! ### Beats (R255) -/

/-- Word, parity bits and FS of a beat. -/
def beatWord (b : BitVec 48) : Word := BitVec.ofNat 40 (b.toNat / 256)
def beatPar (b : BitVec 48) : BitVec 5 := BitVec.ofNat 5 (b.toNat / 8)
def beatFs (b : BitVec 48) : Bool := b.getLsbD 0

/-- FS of beat `b` of a flit with sideband bits `sb` (R254, R255). -/
def fsOf (sb b : Nat) : Bool := b = 0 || sb.testBit (7 - b)

/-- The bits that a flit's CRC covers, in order. -/
def crcBits (ws : List (Word × BitVec 5)) (fs : Nat → Bool) : List Bool :=
  (List.range 8).flatMap fun b =>
    let w := ws.getD b (0, 0)
    bitsMsb 40 w.1.toNat ++ bitsMsb 5 w.2.toNat ++ [fs b]

/-- The beats of a flit that carries words with their parity bits and sideband bits: in each 40 data bits, 5 of byte parity, 2 of CRC and FS (R254,
R255). `bad`: its CRC bits are inverted (Table 18.3). -/
def beatsOf (ws : List (Word × BitVec 5)) (sb : Nat) (bad : Bool) : List (BitVec 48) :=
  let crc := crc16 (crcBits ws (fsOf sb))
  let bit := fun i => if (crc.testBit i ^^ bad) then 1 else 0
  (List.range 8).map fun b =>
    let w := ws.getD b (0, 0)
    BitVec.ofNat 48 (w.1.toNat * 256 + w.2.toNat * 8 + bit (15 - b) * 4 + bit (7 - b) * 2 + (if fsOf sb b then 1 else 0))

/-- Words and parity bits of received beats. -/
def wordsOf (bs : List (BitVec 48)) : List (Word × BitVec 5) :=
  (List.range 8).map fun b => let x := bs.getD b 0; (beatWord x, beatPar x)

/-- Is a received flit good: its CRC matches and FS is 1 in beat 0? -/
def flitGood (bs : List (BitVec 48)) : Bool :=
  let crc := crc16 (crcBits (wordsOf bs) fun b => beatFs (bs.getD b 0))
  beatFs (bs.getD 0 0) && (List.range 8).all fun b =>
    let x := bs.getD b 0
    decide (x.getLsbD 2 = crc.testBit (15 - b) ∧ x.getLsbD 1 = crc.testBit (7 - b))

/-- The sideband bits of a received flit. -/
def sbOf (bs : List (BitVec 48)) : Nat := natOfBits ((List.range 7).map fun i => beatFs (bs.getD (i + 1) 0))

/-- Does a beat of a flit fail byte parity (R274)? -/
def beatFails (bs : List (BitVec 48)) : Bool := (wordsOf bs).any fun w => decide (w.2 ≠ byteParity w.1)

/-- What arrives where `noise` has changed bits on the wires. -/
def disturbed (bs noise : List (BitVec 48)) : List (BitVec 48) := (List.range 8).map fun b => bs.getD b 0 ^^^ noise.getD b 0

/-- A word sent with the parity it asks for. -/
def clean (w : Word) : Word × BitVec 5 := (w, byteParity w)

/-! ### Edge flits (R257, R258) -/

/-- The bits of `f` at 0 to n − 1, bit 0 lowest. -/
def packBits (n : Nat) (f : Nat → Bool) : Nat := ((List.range n).map fun i => if f i then 2 ^ i else 0).sum

/-- The descriptor word of a marked flit (Table 11.3). -/
def descriptor (ch : Nat) (items : List ChanItem) : Word :=
  let tags := fun c => packBits 7 fun i => ((items.getD i ⟨0, 0, 0, 0⟩).tags).getLsbD c
  BitVec.ofNat 40 (items.length % 8 * 2 ^ 37 + ch % 64 * 2 ^ 31 + (items.headD ⟨0, 0, 0, 0⟩).ctxs.toNat * 2 ^ 28 +
    tags 2 * 2 ^ 21 + tags 1 * 2 ^ 14 + tags 0 * 2 ^ 7)

/-- Copies of the tag of item `n` in a descriptor, TAGA highest. -/
def descTag (d : Word) (n : Nat) : BitVec 3 :=
  BitVec.ofNat 3 (4 * (d.toNat / 2 ^ (21 + n) % 2) + 2 * (d.toNat / 2 ^ (14 + n) % 2) + d.toNat / 2 ^ (7 + n) % 2)

/-- N, CH and the copies of CTX. -/
def descN (d : Word) : Nat := bitsOf d.toNat 39 37
def descCh (d : Word) : Nat := bitsOf d.toNat 36 31
def descCtx (d : Word) : BitVec 3 := BitVec.ofNat 3 (bitsOf d.toNat 30 28)

/-- Do three copies agree? -/
def agree (x : BitVec 3) : Bool := decide (x = 0 ∨ x = 7)

/-- Do copies of a descriptor disagree (R258)? -/
def descSplit (d : Word) : Bool := !agree (descCtx d) || (List.range (descN d)).any fun n => !agree (descTag d n)

/-! ### Control flits (R261, Table 11.4) -/

/-- The header word of a control flit: its type, and the leaf and number of a NAK. -/
def ctlHeader (ctype : Nat) (nak : Option (Nat × Nat)) : Word :=
  BitVec.ofNat 40 (ctype * 2 ^ 36 + (match nak with | some (j, q) => 2 ^ 35 + j % 32 * 2 ^ 30 + q % 32 * 2 ^ 25 | none => 0))

/-- The NAK of a header word: its leaf, and the low five bits of its sequence number. -/
def headerNak (h : Word) : Option (Nat × Nat) := if h.getLsbD 35 then some (bitsOf h.toNat 34 30, bitsOf h.toNat 29 25) else none

/-- Beats 1 to 7 as a body of 280 bits, beat 1 highest. -/
def bodyNat (ws : List Word) : Nat := ws.foldl (fun a w => a * 2 ^ 40 + w.toNat) 0

/-- The seven words of a body of 280 bits. -/
def bodyWords (x : Nat) : List Word := (List.range 7).map fun b => BitVec.ofNat 40 (x / 2 ^ (240 - 40 * b))

/-- 64 fields of four bits, field 0 lowest, and the fields of a number. -/
def packCounts (ns : List Nat) : Nat := ((List.range 64).map fun c => ns.getD c 0 % 16 * 2 ^ (4 * c)).sum
def unpackCounts (x : Nat) : List Nat := (List.range 64).map fun c => x / 2 ^ (4 * c) % 16

/-- The word of a tick record, and the record of a word; a zero word is none. -/
def tickWord (r : TickRec) : Word := BitVec.ofNat 40 (r.dom.val * 2 ^ 37 + r.kind.val * 2 ^ 34 + r.mem.val * 2 ^ 24 + r.frame.val)
def tickOf (w : Word) : Option TickRec :=
  let x := w.toNat
  if x = 0 then none
  else some ⟨Fin.ofNat 8 (bitsOf x 39 37), Fin.ofNat 8 (bitsOf x 36 34), Fin.ofNat 1024 (bitsOf x 33 24), Fin.ofNat 16777216 (bitsOf x 23 0)⟩

/-- The eight words of the leaves' low five bits of the last number accepted; `seqs` holds one more than it. -/
def ackWords (seqs : List Nat) : List Word :=
  (List.range 4).map fun b => BitVec.ofNat 40 (((List.range 8).map fun i => (seqs.getD (8 * b + i) 0 + 31) % 32 * 2 ^ (5 * i)).sum)

/-! ### A flit's contents as beats -/

/-- The words, with their parity, and the sideband bits of a flit (R256, R257, R261). Beats that a flit of one transom flit leaves free
carry zero words. -/
def spell (body : FlitBody) (nak : Option (Nat × Nat)) : List (Word × BitVec 5) × Nat :=
  let ctl := fun (ctype : Nat) (ws : List Word) => ((ctlHeader ctype nak :: ws).map clean, 0x60)
  match body with
  | .edge _ ch items true => (items.map fun it => (it.word, it.par), ch % 64)
  | .edge _ ch items false => (clean (descriptor ch items) :: items.map fun it => (it.word, it.par), 0x40)
  | .transom _ v fl =>
    (fl.flatMap fun f => (List.range 4).map fun b => (f.word b, f.parAt b), (if fl.length = 2 then 0x40 else 0x20) + v % 8 * 4)
  | .ack seqs => ctl 0 (ackWords seqs)
  | .ecred half n => ctl 1 (bodyWords (half % 2 * 2 ^ 279 + packCounts n))
  | .tcred n => ctl 2 (bodyWords (packCounts n))
  | .tick rs => ctl 3 (rs.map tickWord)
  | .width step wcode mask => ctl 4 [BitVec.ofNat 40 (step % 16 * 2 ^ 36 + wcode % 8 * 2 ^ 33 + mask.toNat)]

/-- The beats of a flit. -/
def HFlit.beats (f : HFlit) : List (BitVec 48) := let x := spell f.body f.nak; beatsOf x.1 x.2 f.bad

/-- What a receiver reads: contents, a flit with nothing in it, or a control flit of a reserved type. -/
inductive Read where
  | body (b : FlitBody)
  | idle
  | reserved
  deriving DecidableEq, Repr

/-- What an edge leaf's receiver reads in a slot of `half`. `ctxOf`: the current context of a channel. Each copy is the majority's. -/
def readEdge (half : Nat) (ctxOf : Nat → Bool) (bs : List (BitVec 48)) : Read :=
  let ws := wordsOf bs; let sb := sbOf bs
  if sb < 64 then .body (.edge half sb (ws.map fun w => ⟨w.1, 0, thrice (ctxOf sb), w.2⟩) true)
  else
    let d := beatWord (bs.getD 0 0); let n := descN d
    if n = 0 then .idle
    else .body (.edge half (descCh d) ((List.range n).map fun i =>
      let w := ws.getD (i + 1) (0, 0)
      ⟨w.1, thrice (majority (descTag d i)), thrice (majority (descCtx d)), w.2⟩) false)

/-- Four words of a flit from beat `b` on, as a transom flit. -/
def flitFrom (bs : List (BitVec 48)) (b : Nat) (head : Bool) : TFlit :=
  let ws := (List.range 4).map fun i => (wordsOf bs).getD (b + i) (0, 0)
  { w := flitBits (ws.map (·.1)), par := flitPars (ws.map (·.2)), head := head }

/-- The number nearest to `t` whose low five bits are `five`. -/
def nearFive (t five : Nat) : Nat := t + 16 + (five + 32 - (t + 16) % 32) % 32 - 32

/-- A control flit's contents. `last`: for each leaf of the receiving end, the number to which a five-bit one is nearest (log entry 173). -/
def readControl (last : Nat → Nat) (bs : List (BitVec 48)) : Read :=
  let ws := (wordsOf bs).map (·.1); let w := fun b => ws.getD b 0
  match bitsOf (w 0).toNat 39 36 with
  | 0 => .body (.ack ((List.range 32).map fun j =>
      nearFive (last j) ((bitsOf (w (1 + j / 8)).toNat (5 * (j % 8) + 4) (5 * (j % 8)) + 1) % 32)))
  | 1 => let x := bodyNat (ws.drop 1); .body (.ecred (x / 2 ^ 279 % 2) (unpackCounts x))
  | 2 => .body (.tcred (unpackCounts (bodyNat (ws.drop 1))))
  | 3 => .body (.tick ((ws.drop 1).filterMap tickOf))
  | 4 => let x := (w 1).toNat; .body (.width (bitsOf x 39 36) (bitsOf x 35 33) (BitVec.ofNat 32 x))
  | _ => .reserved

/-- What a transom leaf's receiver reads in a slot of pane link `x`. `heads`: which of the flits sent are header units, the model's own. -/
def readTransom (x : Nat) (heads : List Bool) (last : Nat → Nat) (bs : List (BitVec 48)) : Read :=
  let sb := sbOf bs; let v := sb / 4 % 8
  match sb / 32 with
  | 0 => .idle
  | 1 => .body (.transom x v [flitFrom bs 0 (heads.getD 0 false)])
  | 2 => .body (.transom x v [flitFrom bs 0 (heads.getD 0 false), flitFrom bs 4 (heads.getD 1 false)])
  | _ => readControl last bs

end Sys2Proof.Machine
end

