-- ==== Sys2Proof/Machine/Hinges.lean ====
section
/-!
DEFINITION. Hinges (Chapter 11): leaves and the logical map, sending and receiving flits with replay, credits, training, the ledgers
and their captures, and the discovery of the fabric dies.
-/
namespace Sys2Proof.Machine

/-- Set a bit of HNG_ERR. -/
def State.hngErr (s : State) (e : Nat) (f : Fld) : State := s.setFld (R.HNG_ERR e) f 1

/-- Give a hinge end a state; LCHG where it enters or leaves UP. -/
def State.setHingeState (s : State) (e st : Nat) : State :=
  let s1 := s.setFld (R.HNG_STAT e) F.HNG_STAT.STATE st
  if (s.hingeState e = 2) ≠ (st = 2) then s1.hngErr e F.HNG_ERR.LCHG else s1

/-! ### The logical map (R268–R270, Table 11.6) -/

/-- The trained width. -/
def State.hngW (s : State) (e : Nat) : Nat := 32 / 2 ^ s.fld (R.HNG_STAT e) F.HNG_STAT.WCODE

/-- The logical leaves of an end, by physical number. -/
def State.logical (s : State) (e : Nat) : List Nat :=
  ((List.range 32).filter fun j => !(s.reg (R.HNG_LFAIL e)).getLsbD j).take (s.hngW e)

/-- What a logical leaf serves: halves of the edge channels, or positions of the pane links. -/
inductive LeafRole where
  | edge (halves : List Nat)
  | transom (pos : List Nat)
  deriving DecidableEq, Repr

/-- The role of logical leaf t at width w; `hub`: of a hub hinge. -/
def leafRole (hub : Bool) (w t : Nat) : LeafRole :=
  let every := fun (t step : Nat) => LeafRole.transom ((List.range (8 / step)).map fun n => t + step * n)
  if hub then every t w
  else
    let edges := if w = 32 then 24 else if w = 16 then 12 else if w = 8 then 6 else if w = 4 then 3 else 1
    if t < edges then
      .edge (if 8 ≤ w then [t % 2] else if w = 4 ∧ t < 2 then [t] else [0, 1])
    else every (t - edges) (if w = 32 then 8 else if w = 16 then 4 else if w = 8 then 2 else 1)

/-- The role of physical leaf j of an end. -/
def State.role (s : State) (e j : Nat) : Option LeafRole :=
  let ls := s.logical e
  match hingeOf e with
  | some k => if ls.contains j then some (leafRole (decide (k < 2)) (s.hngW e) (ls.idxOf j)) else none
  | none => none

/-- Whose turn a flit slot is (R269). -/
def turn (xs : List Nat) (seq : Nat) : Nat := xs.getD (seq % xs.length) 0

/-! ### Sending (R255, R259–R263) -/

/-- The sending pane and outbound index of channel `ch` of a half, as sent by an end (R257). -/
def edgeChan (e half ch : Nat) : Nat × Nat := (endPane e (ch / 8), 16 * endSide e + 8 * half + ch % 8)

/-- Is the CRC of the next flit that an end sends to be inverted (Table 18.3)? Only a hub end's is. -/
def State.injDue (s : State) (e : Nat) : Bool := decide (12 ≤ e) && (s.hinge ((hingeOf e).getD 0)).injCrc

/-- That flit has been sent. -/
def State.injDone (s : State) (e : Nat) : State :=
  let k := (hingeOf e).getD 0
  if s.injDue e then s.setHinge k { s.hinge k with injCrc := false } else s

/-- Put a new flit on a leaf: into the replay buffer and onto the wires. -/
def State.putFlit (s : State) (e j : Nat) (body : FlitBody) (nak : Option (Nat × Nat)) : State :=
  let l := s.leaf e j
  let f : HFlit := { seq := l.next, body := body, nak := nak }
  (s.setLeaf e j { l with
    next := l.next + 1, held := l.held ++ [f], wire := l.wire ++ [{ f with bad := s.injDue e }], cNew := l.cNew + 1 }).injDone e

/-- The first number from `q` on that is not an idle flit's: that of a flit the leaf holds, or the next that it sends. -/
def LeafSt.skipIdle (l : LeafSt) (q : Nat) : Nat := ((l.held.find? fun f => decide (q ≤ f.seq)).map (·.seq)).getD (max q l.next)

/-- An idle flit passes: it takes a number, which the receiver has with it accepted unless it waits for a flit sent before (R255). -/
def LeafSt.idled (l : LeafSt) : LeafSt :=
  let l1 := { l with next := l.next + 1 }
  { l1 with rxNext := l1.skipIdle l1.rxNext }

/-- An idle flit on a leaf. One whose CRC is inverted counts as a bad flit at the far end; nothing is held to be sent again (DESIGN CHOICE,
log entry 154). -/
def State.idleFlit (s : State) (e j : Nat) : State :=
  let s1 := s.setLeaf e j (s.leaf e j).idled
  if s.injDue e then (s1.injDone e).addSat (R.HNG_CNT (peerEnd e)) F.HNG_CNT.CRCCNT 1 else s1

/-- The items an edge flit takes from a channel (R259), whether plain: eight, or the longest leading run of one context, up to 7.
`cred` is the number of items that may go. -/
def edgeRun (items : List ChanItem) (ctx : Bool) (cred : Nat) : List ChanItem × Bool :=
  let eight := items.take 8
  if eight.length = 8 ∧ eight.all (fun i => !i.tag && i.bank == ctx) ∧ 8 ≤ cred then (eight, true)
  else ((items.takeWhile fun i => i.bank == (items.headD ⟨0, 0, 0, 0⟩).bank).take (min 7 cred), false)

/-- Is a channel pinned to another leaf by a flit not yet acknowledged (R260)? -/
def State.pinned (s : State) (e j half ch : Nat) : Bool :=
  (List.range 32).any fun i => decide (i ≠ j) && (s.leaf e i).held.any fun f =>
    match f.body with | .edge h c _ _ => decide (h = half ∧ c = ch) | _ => false

/-- What the next edge flit of a channel would carry; recalled items go first and spend no credit (R265). -/
def ChanSt.nextRun (c : ChanSt) : List ChanItem × Bool :=
  if c.again ≠ [] then edgeRun c.again c.ctx 8 else edgeRun c.near c.ctx c.credit

/-- Send an edge flit of a channel. -/
def State.sendEdge (s : State) (e j half ch : Nat) : State :=
  let pk := edgeChan e half ch; let c := s.chan pk.1 pk.2
  let r := c.nextRun; let n := r.1.length
  let c1 := if c.again ≠ [] then { c with again := c.again.drop n } else { c with near := c.near.drop n, credit := c.credit - n }
  (s.setChan pk.1 pk.2 { c1 with fly := c.fly ++ r.1, ctx := if r.2 then c.ctx else (r.1.headD ⟨0, 0, 0, 0⟩).bank }).putFlit
    e j (.edge half ch r.1 r.2) none

/-- May a channel be sent on a leaf: it has items that may go, and no other leaf holds a flit of it (R260)? -/
def State.edgeReady (s : State) (e j half ch : Nat) : Bool :=
  decide ((s.chan (edgeChan e half ch).1 (edgeChan e half ch).2).nextRun.1 ≠ []) && !s.pinned e j half ch

/-- An edge leaf's slot of a half: the next channel that may be sent, round-robin (R260). -/
def State.edgeSlot (s : State) (e j half : Nat) : State :=
  let from_ := SMap.get 0 s.edgeTurn (2 * e + half)
  match ((List.range 64).map fun i => (from_ + i) % 64).find? (s.edgeReady e j half) with
  | none => s.idleFlit e j
  | some ch => ({ s with edgeTurn := SMap.set 0 s.edgeTurn (2 * e + half) ((ch + 1) % 64) } : State).sendEdge e j half ch

/-- Transom flits of a pane link and channel that may go, one or two: while the recall store holds any of the pane link, its oldest (R265); else
as many as there are credits for. -/
def State.transomReady (s : State) (e x v : Nat) : Nat :=
  match s.recalled e x with
  | [] => min (min 2 (s.stage e x v).out.length) (s.avail (stageLink e x) v)
  | fs => min 2 (fs.takeWhile fun f => decide (f.1 = v)).length

/-- Send one or two transom flits of a pane link and channel; recalled ones spend no credit (R265). -/
def State.sendTransom (s : State) (e j x v : Nat) : State :=
  let y := s.stage e x v; let l := stageLink e x; let n := s.transomReady e x v
  match s.recalled e x with
  | [] =>
    (((s.setStage e x v { y with out := y.out.drop n }).sendFlits l v n).creditBack (endRouter e x) v n).putFlit e j
      (.transom x v (y.out.take n)) none
  | fs => (s.setRecalled e x (fs.drop n)).putFlit e j (.transom x v ((fs.take n).map (·.2))) none

/-- A transom leaf's slot of a pane link: flits of channel `v`, or of the lowest that has any to go (DESIGN CHOICE, log entry 121). -/
def State.transomSlot (s : State) (e j x v : Nat) : State :=
  match (v :: List.range 8).find? fun w => decide (s.transomReady e x w ≠ 0) with
  | some w => s.sendTransom e j x w
  | none => s.idleFlit e j

/-- The NAK an end's control flits carry: a leaf of the reverse direction that waits for a bad flit (R263), the lowest such leaf (DESIGN
CHOICE, log entry 170). -/
def State.nakOf (s : State) (e : Nat) : Option (Nat × Nat) :=
  (List.range 32).findSome? fun j => (s.leaf (peerEnd e) j).rxBad.map fun q => (j, q)

/-- Credits of one half that an end returns, and the state with them taken (Table 11.4). -/
def State.takeEcred (s : State) (e half : Nat) : List Nat × State :=
  (List.range 64).foldl (fun a ch =>
    let pk := edgeChan (peerEnd e) half ch; let c := a.2.chan pk.1 pk.2; let n := min 15 c.ret
    (a.1 ++ [n], if n = 0 then a.2 else a.2.setChan pk.1 pk.2 { c with ret := c.ret - n })) ([], s)

/-- Stage credits that an end returns. -/
def State.takeTcred (s : State) (e : Nat) : List Nat × State :=
  (List.range 64).foldl (fun a i =>
    let y := a.2.stage e (i / 8) (i % 8); let n := min 15 y.freed
    (a.1 ++ [n], if n = 0 then a.2 else a.2.setStage e (i / 8) (i % 8) { y with freed := y.freed - n })) ([], s)

/-- Send the tick records that wait, up to seven of them. -/
def State.sendTicks (s : State) (e j : Nat) : State :=
  (s.setTickWait e ((s.tickWait e).drop 7)).putFlit e j (.tick ((s.tickWait e).take 7)) (s.nakOf e)

/-- A transom leaf's slot in which no other control flit goes: waiting tick records before any transom flit (R262). -/
def State.dataSlot (s : State) (e j x v : Nat) : State := if s.tickWait e ≠ [] then s.sendTicks e j else s.transomSlot e j x v

/-- A new flit in a slot of a leaf: an edge leaf's is R259's and R260's to choose, a transom leaf's as asked. -/
def State.newFlit (s : State) (e j : Nat) (sel : FlitSel) : State :=
  let q := (s.leaf e j).next
  match s.role e j, sel with
  | some (.edge hs), _ => s.edgeSlot e j (turn hs q)
  | some (.transom _), .ack =>
    let p := peerEnd e
    let s1 := (List.range 32).foldl (fun a i =>
      if (a.leaf p i).ackDue then a.setLeaf p i { a.leaf p i with ackDue := false } else a) s
    s1.putFlit e j (.ack ((List.range 32).map fun i => (s.leaf p i).rxNext)) (s.nakOf e)
  | some (.transom ps), .ecred half =>
    let r := s.takeEcred e half
    if 12 ≤ e ∨ 12 ≤ peerEnd e then s.dataSlot e j (turn ps q) 0 else r.2.putFlit e j (.ecred half r.1) (s.nakOf e)
  | some (.transom _), .tcred => let r := s.takeTcred e; r.2.putFlit e j (.tcred r.1) (s.nakOf e)
  | some (.transom ps), .data v => s.dataSlot e j (turn ps q) v
  | some (.transom ps), _ => s.dataSlot e j (turn ps q) 0
  | none, _ => s

/-- A replay goes on: the next held flit from `r` on is sent again. -/
def State.replayFlit (s : State) (e j r : Nat) : State :=
  let l := s.leaf e j
  match l.held.find? fun f => decide (r ≤ f.seq) with
  | none => s.setLeaf e j { l with resend := none }
  | some f =>
    let f1 := { f with sends := f.sends + 1 }
    ((s.setLeaf e j { l with
      held := l.held.map fun g => if g.seq = f.seq then f1 else g
      wire := l.wire ++ [{ f1 with bad := s.injDue e }]
      resend := if l.held.any (fun g => decide (f.seq < g.seq)) then some (f.seq + 1) else none }).addSat
        (R.HNG_CNT e) F.HNG_CNT.RPLCNT 1).injDone e

/-- R255. A flit slot of physical leaf j of an end that is UP: a replay goes on, or a new flit is sent, or an idle flit where the
replay buffer is full (R263). Of an end in training step 5 only a WIDTH flit goes again. -/
def execLeafFlitSend (e : Fin 14) (j : Fin 32) (sel : FlitSel) (s : State) : Res :=
  .next (
    match (s.leaf e j).resend with
    | some r => if s.hingeState e = 1 ∨ s.hingeState e = 2 then s.replayFlit e j r else s
    | none =>
      if s.hingeState e ≠ 2 ∨ (s.role e j).isNone then s
      else if 16 ≤ (s.leaf e j).held.length then s.idleFlit e j else s.newFlit e j sel)

/-! ### Training (R265, R267, R268, R271) -/

/-- R265 for one direction of one leaf: slots the receiver accepted are released as acknowledged; later ones as recalled, their
contents going to the recall store. -/
def State.recallLeaf (s : State) (e j : Nat) : State :=
  let l := s.leaf e j
  let back := l.held.filter fun f => decide (l.rxNext ≤ f.seq)
  let s1 := s.setLeaf e j { cNew := l.cNew, cAcked := l.cAcked + BitVec.ofNat 32 (l.held.length - back.length),
                            cRecalled := l.cRecalled + BitVec.ofNat 32 back.length }
  back.reverse.foldl (fun a f =>
    match f.body with
    | .edge _ _ _ _ => a
    | .transom x v fl => a.setRecalled e x (fl.map (fun f => (v, f)) ++ a.recalled e x)
    | .ecred half n => (List.range 64).foldl (fun b ch =>
        let pk := edgeChan (peerEnd e) half ch; let c := b.chan pk.1 pk.2
        if n.getD ch 0 = 0 then b else b.setChan pk.1 pk.2 { c with ret := c.ret + n.getD ch 0 }) a
    | .tcred n => (List.range 64).foldl (fun b i =>
        let y := b.stage e (i / 8) (i % 8)
        if n.getD i 0 = 0 then b else b.setStage e (i / 8) (i % 8) { y with freed := y.freed + n.getD i 0 }) a
    | .tick rs => a.setTickWait e (rs ++ a.tickWait e)
    | .ack _ => a
    | .width _ _ _ => a) s1

/-- R265 for the edge channels that an end sends: items on the leaves go to the recall store; every context is A again (R258). -/
def State.recallChans (s : State) (e : Nat) : State :=
  if 12 ≤ e ∨ 12 ≤ peerEnd e then s
  else (List.range 128).foldl (fun a i =>
    let pk := edgeChan e (i / 64) (i % 64); let c := a.chan pk.1 pk.2
    a.setChan pk.1 pk.2 { c with again := c.fly ++ c.again, fly := [], ctx := false, rxCtx := false }) s

/-- Number of leaves in a mask. -/
def leafCount (m : BitVec 32) : Nat := ((List.range 32).filter (m.getLsbD ·)).length

/-- The largest power of two, up to 2^5, that is no more than n; 0 for 0. -/
def pow2Below (n : Nat) : Nat :=
  if 32 ≤ n then 32 else if 16 ≤ n then 16 else if 8 ≤ n then 8 else if 4 ≤ n then 4 else if 2 ≤ n then 2 else n

/-- Without its reference a die's loops stop (R314): its panes and quads lose lock. -/
def State.prefLost (s : State) : State :=
  (List.range 4).foldl (fun (a : State) d =>
    if (SMap.get {} a.dies d).off ∨ a.hasPref d then a
    else (List.range 8).foldl (fun b q => b.quadLoses d q) ((List.range 64).foldl (fun b p => b.paneLoses (paneId d p)) a)) s

/-- A training fails. -/
def State.hingeFail (s : State) (k : Nat) : State :=
  let es := hingeEnds k
  (([es.1, es.2].foldl (fun a e => (a.setHingeState e 3).hngErr e F.HNG_ERR.DOWN) s).setHinge k { s.hinge k with wait := 0 }).prefLost

/-- The stepping of the die of an end; the hub's is B. -/
def State.stepOf (s : State) (e : Nat) : Nat := match endDie e with | some d => (SMap.get {} s.dies d).step | none => 0xB

/-- Step 1 of Table 11.7 begins at both ends: the hinge is in TRAIN, and waits for the clocks. -/
def State.trainBegin (s : State) (k : Nat) : State :=
  let es := hingeEnds k; let h := s.hinge k
  let one := fun (a : State) (e : Nat) (again : Bool) =>
    let a1 := if again then a.setFld (R.HNG_STAT e) F.HNG_STAT.RTR (a.fld (R.HNG_STAT e) F.HNG_STAT.RTR + 1) else a
    (a1.setHingeState e 1).setFld (R.HNG_STAT e) F.HNG_STAT.AUTH (if e = es.1 then 1 else 0)
  (one (one s es.1 h.trained0) es.2 h.trained1).setHinge k { h with trained0 := true, trained1 := true, ok0 := false, ok1 := false, wait := 2 }

/-- The first transom leaf of an end, by physical number. -/
def State.firstTransom (s : State) (e : Nat) : Option Nat :=
  (List.range 32).find? fun j => match s.role e j with | some (.transom _) => true | _ => false

/-- Each end sends WIDTH as its first control flit (step 5): the die's stepping, its WCODE and the mask of the good leaves. -/
def State.sendWidth (s : State) (e : Nat) : State :=
  match s.firstTransom e with
  | some j => s.putFlit e j (.width (s.stepOf e) (s.fld (R.HNG_STAT e) F.HNG_STAT.WCODE) (~~~ (s.reg (R.HNG_LFAIL e)))) none
  | none => s

/-- Steps 2 to 4 of Table 11.7 at both ends, and what step 5 sends. -/
def State.trainRun (s : State) (k : Nat) : State :=
  let es := hingeEnds k; let h := s.hinge k
  let good := h.good &&& ~~~ (s.reg (R.HNG_XMASK es.1)) &&& ~~~ (s.reg (R.HNG_XMASK es.2))
  let full := if k < 2 then 8 else 32
  let w := min (min (pow2Below (leafCount good)) full) h.cap
  let both := fun (a : State) (g : State → Nat → State) => g (g a es.1) es.2
  let s2 := (both s fun a e => a.setReg (R.HNG_LFAIL e) (~~~ good)).setHinge k
    { h with wait := 0, stop0 := h.stop0 &&& ~~~ h.good, stop1 := h.stop1 &&& ~~~ h.good }
  if leafCount good < 2 ∨ w < 2 then s2.hingeFail k
  else
    let s3 := both s2 fun a e =>
      let a1 := ((a.setFld (R.HNG_STAT e) F.HNG_STAT.WCODE (5 - Nat.log2 w)).setFld (R.HNG_STAT e) F.HNG_STAT.OSTEP
        (a.stepOf e)).setFld (R.HNG_STAT e) F.HNG_STAT.PSTEP (a.stepOf (peerEnd e))
      if w < full then a1.hngErr e F.HNG_ERR.NARROW else a1
    both (both s3 fun a e => ((List.range 32).foldl (fun b j => b.recallLeaf e j) a).recallChans e) State.sendWidth

/-- Has a hinge trained or failed? -/
def State.settled (s : State) (k : Nat) : Bool := decide (s.hingeState (hingeEnds k).1 = 2 ∨ s.hingeState (hingeEnds k).1 = 3)

/-- Is it a hinge's turn to train in the reset order's discovery (R273)? Afterwards it always is. -/
def State.trainTurn (s : State) (k : Nat) : Bool :=
  !s.cfg.due || (List.range 6).all fun i =>
    !(decide (i < 2 ∧ 2 ≤ k) || decide (i < 5 ∧ 5 ≤ k)) || s.settled i

/-- Trainings that wait go on as far as they can, in the order of R273. -/
def State.trainOn (s : State) : State :=
  (List.range 6).foldl (fun a k =>
    let a1 := if (a.hinge k).wait = 1 ∧ a.trainTurn k then a.trainBegin k else a
    if (a1.hinge k).wait = 2 ∧ a1.canTrain k then a1.trainRun k else a1) s

/-- A hinge is to train (R267), both its dies being powered. -/
def State.trainHinge (s : State) (k : Nat) : State :=
  let off := fun e => match endDie e with | some d => (SMap.get {} s.dies d).off | none => false
  if off (hingeEnds k).1 || off (hingeEnds k).2 then s else (s.setHinge k { s.hinge k with wait := 1 }).trainOn

/-- A leaf index fails at a hinge: LFAIL, and the hinge trains (R264). -/
def State.leafFail (s : State) (e j : Nat) : State :=
  match hingeOf e with
  | none => s
  | some k =>
    let s1 := (s.hngErr e F.HNG_ERR.LFAIL).hngErr (peerEnd e) F.HNG_ERR.LFAIL
    (s1.setHinge k { s1.hinge k with good := (s1.hinge k).good &&& ~~~ (1#32 <<< j) }).trainHinge k

/-! ### Discovery (R273) -/

/-- The fabric dies that a path of hinges UP joins to the hub. -/
def State.reached (s : State) : List Nat :=
  let up := fun k => decide (s.hingeState (hingeEnds k).1 = 2)
  let grow := fun (ds : List Nat) =>
    ([(0, 4, 0), (1, 4, 1), (2, 0, 1), (3, 0, 2), (4, 1, 3), (5, 2, 3)] : List (Nat × Nat × Nat)).foldl (fun a h =>
      if up h.1 then
        (if a.contains h.2.1 ∧ ¬ a.contains h.2.2 then a ++ [h.2.2]
         else if a.contains h.2.2 ∧ ¬ a.contains h.2.1 then a ++ [h.2.1] else a)
      else a) ds
  ((grow (grow (grow [4]))).filter fun d => decide (d < 4))

/-- The place of a die's stepping in HUB_STEP (Table 11.8). -/
def stepFld (d : Nat) : Fld := ⟨4 * d + 3, 4 * d⟩

/-- Note the stepping of every die that has been reached. -/
def State.discover (s : State) : State :=
  s.reached.foldl (fun a d => a.setFld R.HUB_STEP (stepFld d) (SMap.get {} a.dies d).step) s

/-- Has every hinge trained or failed (R273)? -/
def State.hingesSettled (s : State) : Bool := (List.range 6).all s.settled

/-- Every hinge has trained or failed: LEVEL takes the lowest stepping among the discovered dies, and stays (R273). -/
def State.fixLevel (s : State) : State :=
  let v := s.reg R.HUB_STEP
  let steps := ((List.range 4).map fun d => getF v (stepFld d)).filter fun x => decide (x ≠ 0)
  if getF v F.HUB_STEP.LEVEL = 0 ∧ steps ≠ [] ∧ s.hingesSettled then s.setFld R.HUB_STEP F.HUB_STEP.LEVEL (steps.foldl min 15) else s

/-! ### Captures (R203, R277) -/

/-- A ledger counter as a snapshot has it; absent ports read 0. -/
def State.ledShown (s : State) (l i : Nat) : HWord := if s.portExists l then s.led l i else 0

/-- A router captures every counter of its ports. -/
def State.captureRouter (s : State) (r : Nat) : State :=
  if r = 256 then
    (List.range 528).foldl (fun a i => a.setReg (R.HTR_LEDGER (i / 16) (i % 16)) (s.ledShown (portId 256 (i / 16)) (i % 16))) s
  else
    (List.range 192).foldl (fun a i =>
      a.setReg (R.TR_LEDGER (r / 64) (r % 64) (i / 16) (i % 16)) (s.ledShown (portId r (i / 16)) (i % 16))) s

/-- Capture the ledgers of an end: HNG_LEDGER and its transom stage's TR_LEDGER. -/
def State.snapEnd (s : State) (e : Nat) : State :=
  if (hingeOf e).isNone then s
  else
    let s1 := (List.range 32).foldl (fun a j =>
      let l := s.leaf e j
      (((a.setReg (R.HNG_LEDGER e j 0) l.cNew).setReg (R.HNG_LEDGER e j 1) l.cAcked).setReg (R.HNG_LEDGER e j 2)
        l.cRecalled).setReg (R.HNG_LEDGER e j 3) (BitVec.ofNat 32 l.held.length)) s
    (List.range 128).foldl (fun a i =>
      a.setReg (R.HNGTR_LEDGER e (i / 16) (i % 16)) (s.led (stageLink e (i / 16)) (i % 16))) s1

/-- A global capture at fabric die d: its hinge ends, and each of its routers, a router whose clock stands at its first edge. -/
def State.captureDie (s : State) (d : Nat) : State :=
  let s1 := (List.range 3).foldl (fun a h => a.snapEnd (3 * d + h)) s
  let s2 := (List.range 64).foldl (fun a p =>
    let r := paneId d p
    if s.routerRuns r then a.captureRouter r else a.setPane r { a.pane r with gcap := true }) s1
  { s2 with dies := SMap.upd {} s2.dies d fun x => { x with gcap := false } }

/-- A global capture that the tick has yet to bring to die d. -/
def State.captureLater (s : State) (d : Nat) : State := { s with dies := SMap.upd {} s.dies d fun x => { x with gcap := true } }

/-- The clock of a pane's router starts again: captures that waited for it are made (R203). -/
def State.routerResume (s : State) (pane : Nat) : State :=
  let x := s.pane pane; let st := R.TR_STAT (pane / 64) (pane % 64)
  if x.snaps = 0 ∧ ¬ x.gcap then s
  else
    let s1 := (s.captureRouter pane).setPane pane { x with snaps := 0, gcap := false }
    if x.snaps = 0 then s1 else s1.setFld st F.TR_STAT.SEQ (s.fld st F.TR_STAT.SEQ + x.snaps)

/-! ### Receiving (R256–R263) -/

/-- The router behind a transom stage takes a flit from it, if its input queue has room; the stage's credit is to be returned. -/
def State.fillStageOne (s : State) (e x v : Nat) : State :=
  let y := s.stage e x v; let i := endRouter e x
  match y.inq with
  | [] => s
  | f :: rest =>
    if linkDepth i ≤ s.iocc i v then s
    else ((s.setStage e x v { y with inq := rest, freed := y.freed + 1 }).freeFlits (stageLink e x) v 1).enter i v { f with pos := x }

/-- The router behind a transom stage fills its input queue. -/
def State.fillStage (s : State) (e x v : Nat) : State := (List.range 4).foldl (fun a _ => a.fillStageOne e x v) s

/-- Slots of a leaf up to those of numbers below `q` are released as acknowledged. -/
def State.releaseLeaf (s : State) (e j q : Nat) : State :=
  let l := s.leaf e j; let keep := l.held.filter fun f => decide (q ≤ f.seq)
  if keep.length = l.held.length then s
  else s.setLeaf e j { l with held := keep, cAcked := l.cAcked + BitVec.ofNat 32 (l.held.length - keep.length) }

/-- Tick records arrive at an end: a member's acknowledgement at the hub (R115), or at a fabric die on its way there; else, at a fabric die, a
record takes effect, goes on towards the dies beyond (R272), and with a frame tick a global capture that waits for it is made (R203). -/
def State.takeTick (s : State) (e : Nat) (r : TickRec) : State :=
  match endDie e with
  | none => if r.kind.val = 5 then s.takeAck r else s
  | some d =>
    if r.kind.val = 5 then s.relay (s.hubEnd d) r
    else
      let s1 := (s.recAt d r).tickEnds (some d) |>.foldl (fun a e1 => a.relay e1 r) (s.recAt d r)
      if r.kind.val = 0 ∧ (SMap.get {} s1.dies d).gcap then s1.captureDie d else s1

/-- WIDTH reaches end e in step 5: it agrees with the end's own width and mask, or both ends set WMIS and train again (R271). -/
def State.takeWidth (s : State) (e step wcode : Nat) (mask : BitVec 32) : State :=
  match hingeOf e with
  | none => s
  | some k =>
    let es := hingeEnds k; let h := s.hinge k
    if s.hingeState e ≠ 1 then s
    else if s.fld (R.HNG_STAT e) F.HNG_STAT.WCODE = wcode ∧ s.reg (R.HNG_LFAIL e) = ~~~ mask then
      let h1 := if e = es.1 then { h with ok0 := true } else { h with ok1 := true }
      let s1 := (s.setHinge k h1).setFld (R.HNG_STAT e) F.HNG_STAT.PSTEP step
      if h1.ok0 ∧ h1.ok1 then
        (((s1.setHinge k { h1 with mis := false, cap := 32 }).setHingeState es.1 2).setHingeState es.2 2).discover.trainOn
      else s1
    else
      let s1 := (s.hngErr es.1 F.HNG_ERR.WMIS).hngErr es.2 F.HNG_ERR.WMIS
      if h.mis then (s1.hingeFail k).trainOn
      else (s1.setHinge k { h with mis := true, cap := min (s.hngW e) (32 / 2 ^ wcode) }).trainHinge k

/-- The contents of an accepted flit take effect at end e. -/
def State.takeBody (s : State) (e : Nat) : FlitBody → State
  | .edge half ch items plain =>
    let pk := edgeChan (peerEnd e) half ch; let c := s.chan pk.1 pk.2
    s.setChan pk.1 pk.2 { c with far := c.far ++ items, rxCtx := if plain then c.rxCtx else (items.headD ⟨0, 0, 0, 0⟩).bank }
  | .transom x v fl =>
    let y := s.stage e x v
    ((s.setStage e x v { y with inq := y.inq ++ fl }).takeFlits (stageLink e x) v fl.length).fillStage e x v
  | .ack seqs => (List.range 32).foldl (fun a j => a.releaseLeaf e j (seqs.getD j 0)) s
  | .ecred half n => (List.range 64).foldl (fun a ch =>
      let pk := edgeChan e half ch; let c := a.chan pk.1 pk.2
      if n.getD ch 0 = 0 then a else a.setChan pk.1 pk.2 { c with credit := c.credit + n.getD ch 0 }) s
  | .tcred n => (List.range 64).foldl (fun a i => a.creditBack (stageLink e (i / 8)) (i % 8) (n.getD i 0)) s
  | .tick rs => rs.foldl (fun a r => a.takeTick e r) s
  | .width step wcode mask => s.takeWidth e step wcode mask

/-- A replay from sequence number q begins on a leaf. -/
def State.startReplay (s : State) (e j q : Nat) : State :=
  let l := s.leaf e j
  if l.held.any (fun f => decide (q ≤ f.seq)) then (s.setLeaf e j { l with resend := some q }).hngErr e F.HNG_ERR.REPLAY else s

/-- A NAK arrives at end e: the leaf replays from the flit named, if it holds it. -/
def State.takeNak (s : State) (e j q : Nat) : State :=
  if (s.leaf e j).held.any (fun f => decide (f.seq = q)) then s.startReplay e j q else s

/-- The items of a flit are no longer on the leaves. -/
def State.landed (s : State) (e : Nat) : FlitBody → State
  | .edge half ch items _ =>
    let pk := edgeChan (peerEnd e) half ch; let c := s.chan pk.1 pk.2
    s.setChan pk.1 pk.2 { c with fly := c.fly.drop items.length }
  | _ => s

/-- What end e reads on leaf j from beats `bs` of flit `f`. -/
def State.readFlit (s : State) (e j : Nat) (f : HFlit) (bs : List (BitVec 48)) : Read :=
  let last := fun i => match f.body with | .ack seqs => seqs.getD i 0 | _ => (s.leaf e i).skipIdle 0
  match s.role (peerEnd e) j with
  | some (.edge hs) =>
    let half := turn hs f.seq
    readEdge half (fun ch => (s.chan (edgeChan (peerEnd e) half ch).1 (edgeChan (peerEnd e) half ch).2).rxCtx) bs
  | some (.transom ps) =>
    readTransom (turn ps f.seq) (match f.body with | .transom _ _ fl => fl.map (·.head) | _ => []) last bs
  | none => .idle

/-- The NAK in beats `bs` of flit `f`, a control flit: its leaf, and the flit it names. -/
def State.nakRead (s : State) (e j : Nat) (f : HFlit) (bs : List (BitVec 48)) : Option (Nat × Nat) :=
  match s.role (peerEnd e) j with
  | some (.transom _) =>
    if sbOf bs / 32 = 3 then
      (headerNak (beatWord (bs.getD 0 0))).map fun n =>
        (n.1, nearFive ((f.nak.map (·.2)).getD ((s.leaf e n.1).skipIdle 0)) n.2)
    else none
  | _ => none

/-- A flit that end e accepts; one of a reserved type it only counts (Table 11.4). -/
def State.acceptFlit (s : State) (e j : Nat) (f : HFlit) (bs : List (BitVec 48)) : State :=
  let s1 := if beatFails bs then s.hngErr e F.HNG_ERR.XPAR else s
  let split := match s1.role (peerEnd e) j with
    | some (.edge _) => decide (64 ≤ sbOf bs) && descSplit (beatWord (bs.getD 0 0))
    | _ => false
  let s2 := (if split then s1.hngErr e F.HNG_ERR.DESC else s1).landed e f.body
  let nak := fun (a : State) => match s2.nakRead e j f bs with
    | some n => a.takeNak e n.1 n.2
    | none => a
  match s2.readFlit e j f bs with
  | .body b => nak (s2.takeBody e b)
  | .idle => nak s2
  | .reserved => (s.landed e f.body).addSat (R.HNG_CNT e) F.HNG_CNT.CRCCNT 1

/-- The next flit on the wires of leaf j reaches end e, `noise` having changed bits of it, if it was sent as one of a kind. A bad flit is
counted and waited for, but where its number has been accepted before; until a flit waited for arrives good, others are discarded, and a
number accepted before is acknowledged again (R263; log entry 117). A flit that fails on its fifth sending ends the leaf (R264). -/
def State.receive (s : State) (e j : Nat) (noise : List (BitVec 48)) (kind : FlitBody → Bool) : State :=
  let p := peerEnd e; let l := s.leaf p j
  match l.wire with
  | [] => s
  | f :: rest =>
    let training : Bool := match f.body with | .width _ _ _ => decide (s.hingeState e = 1) | _ => false
    if ¬ kind f.body ∨ (s.hingeState e ≠ 2 ∧ ¬ training) then s
    else
      let bs := disturbed f.beats noise; let l1 := { l with wire := rest }; let old := decide (f.seq < l.rxNext)
      if ¬ flitGood bs then
        let s1 := (s.setLeaf p j { l1 with rxBad := if old then l.rxBad else some (l.rxBad.getD f.seq), ackDue := l.ackDue || old }).addSat
          (R.HNG_CNT e) F.HNG_CNT.CRCCNT 1
        if 5 ≤ f.sends then s1.leafFail e j else s1
      else if old ∨ l.rxBad.any (fun q => decide (q ≠ f.seq)) then s.setLeaf p j { l1 with ackDue := l.ackDue || old }
      else (s.setLeaf p j { l1 with rxNext := l.skipIdle (f.seq + 1), rxBad := none, ackDue := true }).acceptFlit e j f bs

/-- R257. -/
def execPlainFlit (e : Fin 14) (j : Fin 32) (noise : List (BitVec 48)) (s : State) : Res :=
  .next (s.receive e j noise fun b => match b with | .edge _ _ _ p => p | _ => false)

def execMarkedFlit (e : Fin 14) (j : Fin 32) (noise : List (BitVec 48)) (s : State) : Res :=
  .next (s.receive e j noise fun b => match b with | .edge _ _ _ p => !p | _ => false)

/-- R256. -/
def execFlitOne (e : Fin 14) (j : Fin 32) (noise : List (BitVec 48)) (s : State) : Res :=
  .next (s.receive e j noise fun b => match b with | .transom _ _ fl => decide (fl.length = 1) | _ => false)

def execFlitTwo (e : Fin 14) (j : Fin 32) (noise : List (BitVec 48)) (s : State) : Res :=
  .next (s.receive e j noise fun b => match b with | .transom _ _ fl => decide (fl.length = 2) | _ => false)

/-- R261. -/
def execAck (e : Fin 14) (j : Fin 32) (noise : List (BitVec 48)) (s : State) : Res :=
  .next (s.receive e j noise fun b => match b with | .ack _ => true | _ => false)

def execEcred (e : Fin 14) (j : Fin 32) (noise : List (BitVec 48)) (s : State) : Res :=
  .next (s.receive e j noise fun b => match b with | .ecred _ _ => true | _ => false)

def execTcred (e : Fin 14) (j : Fin 32) (noise : List (BitVec 48)) (s : State) : Res :=
  .next (s.receive e j noise fun b => match b with | .tcred _ => true | _ => false)

def execTick (e : Fin 14) (j : Fin 32) (noise : List (BitVec 48)) (s : State) : Res :=
  .next (s.receive e j noise fun b => match b with | .tick _ => true | _ => false)

/-- R263. The oldest held flit of a leaf has had neither ACK nor NAK for 64 ns. -/
def execReplayTimeout (e : Fin 14) (j : Fin 32) (s : State) : Res :=
  .next (
    match (s.leaf e j).held with
    | f :: _ => if s.hingeState e = 1 ∨ s.hingeState e = 2 then s.startReplay e j f.seq else s
    | [] => s)

/-- The forwarded clock of leaf j has stopped at end e. -/
def State.clockStops (s : State) (e j : Nat) : State :=
  match hingeOf e with
  | none => s
  | some k =>
    let h := s.hinge k
    s.setHinge k (if (hingeEnds k).1 = e then { h with stop0 := h.stop0 ||| (1#32 <<< j) } else { h with stop1 := h.stop1 ||| (1#32 <<< j) })

/-- R264, R314. A leaf's receiver at end e loses its forwarded clock. -/
def execLeafClockLoss (e : Fin 14) (j : Fin 32) (s : State) : Res :=
  .next (if s.hingeState e = 2 then ((s.clockStops e j).leafFail e j).prefLost else s)

/-- R267. A write of HNG_CTL.RETRAIN; `good` names the leaves that pass this training's pattern test. -/
def State.hngRetrain (s : State) (e : Nat) (good : BitVec 32) : State :=
  match hingeOf e with
  | none => s
  | some k =>
    if s.hingeState e = 4 then s
    else (s.setHinge k { s.hinge k with good := good, mis := false, cap := 32 }).trainHinge k

/-- A write of HNG_CTL at end `e` on its way: an end of a fabric die is reached over the die's path, one of the hub at once (R422). -/
def State.reachEnd (s : State) (e : Nat) (v : HWord) (f : State → State) : State :=
  match endDie e with
  | some d => s.reach d (R.HNG_CTL e) v f
  | none => f s

/-- R267. -/
def execHngRetrain (e : Fin 14) (good : BitVec 32) (s : State) : Res := .next (s.reachEnd e 0x40000000 (·.hngRetrain e good))

/-- R271. A step of a hinge's training exceeds its bound. -/
def execTrainingStepTimeout (k : Fin 6) (s : State) : Res :=
  .next (if s.hingeState (hingeEnds k).1 = 1 then (s.hingeFail k).trainOn else s)

/-- A write of HNG_CTL.SNAP. -/
def State.hngSnap (s : State) (e : Nat) : State :=
  if (hingeOf e).isNone then s
  else (s.snapEnd e).setFld (R.HNG_STAT e) F.HNG_STAT.SEQ (s.fld (R.HNG_STAT e) F.HNG_STAT.SEQ + 1)

/-- R277. -/
def execHngSnap (e : Fin 14) (s : State) : Res := .next (s.reachEnd e 0x80000000 (·.hngSnap e))

/-- A write of HNG_CTL: the leaves that pass a training's pattern test are those that passed the last. -/
def State.hngCtlWrite (s : State) (e : Nat) (v : HWord) : State :=
  let s1 := if v.getLsbD 31 then s.hngSnap e else s
  if v.getLsbD 30 then s1.hngRetrain e (match hingeOf e with | some k => (s.hinge k).good | none => 0) else s1

/-! ### Park (R275, R100) -/

/-- The channel's items are discarded, counted in DISC at its sending pane. -/
def State.discardChan (s : State) (pane k : Nat) (count : Bool) : State :=
  let c := s.chan pane k
  let n := c.near.length + c.again.length + c.fly.length + c.far.length
  let s1 := s.setChan pane k {}
  if count ∧ n ≠ 0 then s1.addSat (R.PANE_CHSTAT (pane / 64) (pane % 64) k) F.PANE_CHSTAT.DISC n else s1

/-- The hinges of die d enter PARKED at their running ends; what their replay buffers held is released as recalled. -/
def State.parkHinges (s : State) (d : Nat) : State :=
  (List.range 6).foldl (fun a k =>
    let es := hingeEnds k
    if endDie es.1 = some d ∨ endDie es.2 = some d then
      let e := if endDie es.1 = some d then es.2 else es.1
      let a1 := (List.range 32).foldl (fun b j =>
        let l := b.leaf e j
        b.setLeaf e j { cNew := l.cNew, cAcked := l.cAcked, cRecalled := l.cRecalled + BitVec.ofNat 32 l.held.length }) a
      let a2 := (List.range 64).foldl (fun b i =>
        let held : Nat := ((List.range 32).map fun j => ((a.leaf e j).held.map fun f =>
          match f.body with | .transom x v fl => if x = i / 8 ∧ v = i % 8 then fl.length else 0 | _ => 0).sum).sum
        let y := b.stage e (i / 8) (i % 8)
        let n := held + ((a.recalled e (i / 8)).filter fun f => decide (f.1 = i % 8)).length + y.out.length
        let b1 := (b.setStage e (i / 8) (i % 8) { inq := y.inq }).setRecalled e (i / 8) []
        if n = 0 then b1 else b1.addLed (stageLink e (i / 8)) 10 n) a1
      let a3 := if 12 ≤ e then a2 else (List.range 128).foldl (fun b i =>
        let pk := edgeChan e (i / 64) (i % 64)
        (b.discardChan pk.1 pk.2 true).discardChan (edgeChan (peerEnd e) (i / 64) (i % 64)).1 (edgeChan (peerEnd e) (i / 64) (i % 64)).2
          false) a2
      let h := a3.hinge k
      ((a3.setHingeState e 4).setHinge k { h with
        wait := 0, trained0 := h.trained0 && decide (e = es.1), trained1 := h.trained1 && decide (e = es.2) }).setTickWait e []
    else a) s

/-! ### Boarding commands of the ports (R197, R200, R421) -/

/-- A BOARD bit of a port is written with 1. -/
def State.boardNow (s : State) (l : Nat) : State := if s.portExists l then s.board l 0 else s

/-- An UNBOARD bit of a port is written with 1: the link is reset, what stands in the receiving queues is lost, and the port is
unboarded, unless it was boarded for a park. DESIGN CHOICES: it has no effect on a port that is not boarded (log entry 152), and acts on one
that was boarded for another cause before a park (log entry 153). -/
def State.unboardNow (s : State) (l : Nat) : State :=
  if ¬ s.portExists l ∨ ¬ s.boarded l ∨ s.parkBrd.contains l then s
  else
    let s1 := match peerPort l with
      | some j => (List.range 8).foldl (fun (a : State) v => ((a.freeFlits j v 4).setInq j v []).setWorm j v {}) s
      | none => match stageOf l with
        | some (e, x) => (List.range 8).foldl (fun a v => a.setStage e x v { a.stage e x v with out := [] }) s
        | none => s
    (List.range 8).foldl State.ddrSettle (s1.unboard l)

/-- A BOARD or UNBOARD bit is written with 1: while its router's clock stands still, the write waits for it (R421). -/
def State.brdCmd (s : State) (l : Nat) (board : Bool) : State :=
  let r := routerOf l
  if s.routerRuns r then (if board then s.boardNow l else s.unboardNow l)
  else if r = 256 ∨ s.dieDark (r / 64) then s
  else s.setPane r { s.pane r with brds := (s.pane r).brds ++ [(l, board)] }

def State.boardCmd (s : State) (l : Nat) : State := s.brdCmd l true
def State.unboardCmd (s : State) (l : Nat) : State := s.brdCmd l false

/-- The clock of a pane's router is back: what was written meanwhile is done. -/
def State.brdResume (s : State) (r : Nat) : State :=
  (s.pane r).brds.foldl (fun a b => a.brdCmd b.1 b.2) (s.setPane r { s.pane r with brds := [] })

end Sys2Proof.Machine
end

