-- ==== Sys2Proof/Machine/Links.lean ====
section
/-!
DEFINITION. The companion link (R278–R280): the Jenwyn units taken in, and the link's states.
-/
namespace Sys2Proof.Machine

/-- The output link and input port of hub port 32. -/
def uclPort : Nat := portId 256 32

def State.uclState (s : State) : Nat := s.fld R.UCL_STAT F.UCL_STAT.STATE

/-- Give the companion link a state; LCHG notes that ACTIVE is entered or left (Table 11.11). -/
def State.setUclState (s : State) (n : Nat) : State :=
  let was := s.uclState
  let s1 := s.setFld R.UCL_STAT F.UCL_STAT.STATE n
  if was ≠ n ∧ (was = 2 ∨ n = 2) then s1.setFld R.UCL_STAT F.UCL_STAT.LCHG 1 else s1

/-- The credits freed on channel v since the last unit are sent, while the link carries units: in ACTIVE, in the 68-byte format (R278, R279). A
unit's field holds 15 of them. -/
def State.uclCredits (s : State) (v : Nat) : State :=
  let n := SMap.get 0 s.uclOwed v
  if n = 0 ∨ s.uclState ≠ 2 ∨ s.flag R.UCL_CTL F.UCL_CTL.RAW then s
  else
    let s1 := ({ s with uclOwed := SMap.set 0 s.uclOwed v 0 } : State).emit (.uclUnit (jenwynUnit 0 [] v (min 15 n)))
    if 15 < n then s1.emit (.uclUnit (jenwynUnit 0 [] v (n - 15))) else s1

/-- The link leaves ACTIVE for a retrain, or fails: port 32 is boarded up with cause CMD (R280). -/
def State.uclLeave (s : State) (n : Nat) : State :=
  let s1 := s.setUclState n
  if s.uclState = 2 then s1.board uclPort 0 else s1

/-- UCIe Link Error, or a training that failed. -/
def State.uclError (s : State) : State :=
  if s.hasCompanion ∧ s.uclState ≠ 0 ∧ s.uclState ≠ 3 then
    ((s.setUclState 3).setFld R.UCL_STAT F.UCL_STAT.FAIL 1).board uclPort 0
  else s

/-- A write of UCL_CTL: RETRAIN; EN at 1 starts the link, and HL3 at its first time (R311); EN at 0 returns the link to RESET. -/
def State.uclCtlWrite (s : State) (v : HWord) : State :=
  if ¬ s.hasCompanion then s
  else
    let s1 := s.writeReg R.UCL_CTL v
    let en := s1.flag R.UCL_CTL F.UCL_CTL.EN
    let s2 :=
      if en ∧ s1.uclState = 0 then (s1.setUclState 1).startLoop 3
      else if ¬ en then s1.setUclState 0
      else s1
    if v.getLsbD 31 ∧ en ∧ (s2.uclState = 2 ∨ s2.uclState = 3) then s2.uclLeave 1 else s2

/-- A transom flit arrives at hub port 32; whether it is a header unit is told by the LEN of the packet before it. With the last flit of a
completion the port tracks its request no longer (R198). -/
def State.uclFlit (s : State) (v : Nat) (f : TFlit) : State :=
  let left := SMap.get 0 s.uclLeft v
  let hdr := if left = 0 then headerOf f.w else SMap.get {} s.uclHdr v
  let next := if left = 0 then flitsOf hdr - 1 else left - 1
  let s1 := ({ s with uclLeft := SMap.set 0 s.uclLeft v next, uclHdr := SMap.set {} s.uclHdr v hdr } : State).enter uclPort v
    { f with head := decide (left = 0), pos := 0 }
  if next = 0 then s1.hasLeft uclPort hdr else s1

/-- R278, R279. A Jenwyn unit arrives; `retry`: the adapter has sent it again (Table 11.11). A unit of KIND 3 is discarded, and in raw format
there is no transom traffic. -/
def execUclUnit (u3 u2 u1 u0 : BitVec 128) (retry : Bool) (s : State) : Res :=
  .next (
    let u := unitOf u3 u2 u1 u0
    if ¬ s.hasCompanion ∨ s.uclState ≠ 2 ∨ s.flag R.UCL_CTL F.UCL_CTL.RAW then s
    else
      let s1 := if retry then s.addSat R.UCL_STAT F.UCL_STAT.RTRY 1 else s
      if unitKind u = 3 then s1
      else
        let s2 := (unitFlits u).foldl (fun a f => a.uclFlit (unitV u) f) s1
        (List.range 8).foldl (fun a v => if unitCredit u v = 0 then a else a.creditBack uclPort v (unitCredit u v)) s2)

/-- R280. A write of UCL_CTL with RETRAIN. -/
def execUclRetrain (v : BitVec 32) (s : State) : Res := .next (s.uclCtlWrite (v ||| 0x80000000))

/-- R280. The link errors. -/
def execUcieLinkError (s : State) : Res := .next s.uclError

/-- R278, R280, R311. A training ends in ACTIVE at a rate no higher than the highest offered, and a width: at the first one HL3 locks to the rate,
and port 32 is unboarded. A loop that has lost lock since relocks by itself (R321), and none trains on it before. -/
def execUcieLinkActive (rate : Fin 4) (x8 : Bool) (s : State) : Res :=
  let first := !s.clk.ran3
  .next (
    if s.hasCompanion ∧ s.uclState = 1 ∧ rate.val ≤ s.fld R.UCL_CTL F.UCL_CTL.RATE ∧ (first ∨ s.flag R.CLK_HLSTAT F.CLK_HLSTAT.LOCK3) then
      let s1 := (((s.setUclState 2).setFld R.UCL_STAT F.UCL_STAT.TRATE rate).setFld R.UCL_STAT F.UCL_STAT.X8 (if x8 then 1 else 0)).unboard
        uclPort
      let s1 := (List.range 8).foldl State.uclCredits s1
      if first then let s2 := s1.lockLoop 3; { s2 with clk := { s2.clk with ran3 := true } } else s1
    else s)

end Sys2Proof.Machine
end

