-- ==== Sys2Proof/Machine/Clocks.lean ====
section
/-!
DEFINITION. Clocks (Chapter 13): the hub loops and their references, the multiplexers, the frequency meter and the clock monitor.
-/
namespace Sys2Proof.Machine

/-! ### Multiplexers (R317) -/

/-- What a multiplexer has been asked to select. The PREF multiplexer of die d (8 + d) follows hinge port 0 while a leaf of it brings
FCK, else port 1 (R314). -/
def State.muxWants (s : State) (id : Nat) : Option Nat :=
  if 8 ≤ id then
    match s.prefFrom s.hingeRuns (s.prefDies s.hingeRuns) (id - 8) with
    | some (w, _) => if s.mux id = w then none else some w
    | none => none
  else if SMap.get 0 s.clk.ask id = 0 then none else some (SMap.get 0 s.clk.ask id - 1)

/-- The switch that a multiplexer has been asked for completes; hinges that wait for the clock that comes back go on (R315). -/
def State.muxDone (s : State) (id v : Nat) : State :=
  let s1 := s.setMux id v
  let s2 := { s1 with clk := { s1.clk with ask := SMap.set 0 s1.clk.ask id 0 } }
  let s3 := if id < 8 then s2.fbCheck (id % 4) else s2
  if s.mux id = 3 then s3.trainOn else s3

/-- R317. -/
def execMuxSwitch (id : Fin 12) (s : State) : Res :=
  .next (match s.muxWants id with | some v => s.muxDone id v | none => s)

/-- R317. The old clock is dead: the switch completes without it. -/
def execMuxForcedSwitch (id : Fin 12) (s : State) : Res :=
  .next (
    match s.muxWants id with
    | some v => (((s.muxDone id v).setFld R.CLK_MUX F.CLK_MUX.FSW 1).addSat R.CLK_MUX F.CLK_MUX.FORCED 1).setFld R.CLK_MUX F.CLK_MUX.MUXID id
    | none => s)

/-- R317. The new clock gives no edge: the multiplexer stays, or, where the old clock is `dead`, holds its output low (input 3): a die
whose reference comes through it is without one. What else stands still is in log entry 127. -/
def execMuxSwitchAbandon (id : Fin 12) (dead : Bool) (s : State) : Res :=
  .next (
    match s.muxWants id with
    | some _ =>
      let s1 := if dead then (s.setMux id 3).prefLost else s
      let s2 := { s1 with clk := { s1.clk with ask := SMap.set 0 s1.clk.ask id 0 } }
      (s2.setFld R.CLK_MUX F.CLK_MUX.SWFAIL 1).setFld R.CLK_MUX F.CLK_MUX.MUXID id
    | none => s)

/-! ### Fallback (R320–R322) -/

/-- FAIL of XA (0) or XB (1) becomes 1: the loops that it feeds move to FOSC, and the controllers on HL2 enter OFFLINE. -/
def State.refFailed (s : State) (i : Nat) : State :=
  (List.range 4).foldl (fun a n =>
    if ¬ a.loopOn n ∨ a.loopSrc n ≠ i then a
    else
      let b := (a.askMux n 2).setFld R.CLK_HLSTAT (fbF n) 1
      if n = 2 then (List.range 8).foldl (fun x c =>
        let st := x.fld (R.DDR_STATUS c) F.DDR_STATUS.STATE
        if st = 1 ∨ st = 2 then x.ddrLeaves c 3 else x) b
      else b) s

/-- A hub loop loses lock (R321, Table 13.2). -/
def State.loopLost (s : State) (n : Nat) : State :=
  let s1 := ((s.setFld R.CLK_HLSTAT (lockF n) 0).setFld R.CLK_HLSTAT (lolF n) 1).setFld R.CLK_HLSTAT (fbF n) 1
  let s2 := s1.setFld R.CM_STATUS F.CM_STATUS.FAIL (s1.fld R.CM_STATUS F.CM_STATUS.FAIL ||| 2 ^ (2 + n))
  match n with
  | 0 => s2.askMux 4 0
  | 1 => s2.askMux 5 0
  | 2 => (List.range 8).foldl (fun x c => x.ddrLeaves c 4) s2
  | _ => s2.uclError

/-- A write of SRC of loop n that names a good source: the loop's reference moves, and a loop in fallback leaves it where it is locked; HL3 may
be in fallback before its first lock. -/
def State.srcWritten (s : State) (n : Nat) : State :=
  if ¬ s.refGood (s.loopSrc n) ∨ ¬ (s.flag R.CLK_HLSTAT (lockF n) ∨ s.unlocked3 n) then s
  else
    let s1 := s.askMux n (s.loopSrc n)
    (if n < 2 then s1.askMux (4 + n) 1 else s1).fbCheck n

/-- R311, R322. A write of CLK_HLCFG writes every SRC. -/
def State.hlcfgWrite (s : State) (v : HWord) : State := (List.range 4).foldl State.srcWritten (s.writeReg R.CLK_HLCFG v)

def execClkHlcfgWrite (v : BitVec 32) (s : State) : Res := .next (s.hlcfgWrite v)

/-- R321. A hub loop that is locked loses lock. Until HUB_LOOP_RELOCK the loop cannot lock, through resets too (R327). -/
def execHubLoopLossOfLock (n : Fin 4) (s : State) : Res :=
  let s1 : State := { s with clk := { s.clk with cant := s.clk.cant ||| BitVec.ofNat 4 (2 ^ n.val) } }
  .next (if s.loopOn n ∧ s.flag R.CLK_HLSTAT (lockF n) then s1.loopLost n else s1)

/-! ### The frequency meter (R318, Table 13.4) -/

/-- Does a code of Table 13.4 select a clock, and does that clock run in the state? Whether PCIE_REFCLK runs is the board's: the count tells. -/
def State.measRuns (s : State) (x : Nat) : Bool :=
  let loop := fun n => s.loopOn n
  if x < 2 then s.refPresent x
  else if x < 5 then true
  else if 8 ≤ x ∧ x < 12 then loop (x - 8)
  else if 0x10 ≤ x ∧ x < 0x14 then !s.dieDark (x - 0x10) && s.hasPref (x - 0x10)
  else if 0x2000 ≤ x ∧ x < 0x2040 ∧ x % 16 < 8 then s.flag (R.LANE_QCLK ((x - 0x2000) / 16) (x % 16)) F.LANE_QCLK.QLOCK
  else if 0x4000 ≤ x ∧ x < 0x5000 ∧ x % 16 < 3 then s.flag (R.PANE_CLK ((x - 0x4000) / 0x400) (x % 0x400 / 16)) F.PANE_CLK.LOCK
  else false

/-- A write of FM_CTL. -/
def State.fmCtlWrite (s : State) (v : HWord) : State :=
  let s1 := s.writeReg R.FM_CTL v
  if v.getLsbD 31 ∧ ¬ s.flag R.FM_CTL F.FM_CTL.BUSY then
    { (s1.setFld R.FM_CTL F.FM_CTL.BUSY 1) with
      clk := { s1.clk with
        meas := s1.fld R.FM_CTL F.FM_CTL.MEAS, ref := s1.fld R.FM_CTL F.FM_CTL.REF
        gate := max 10 (min 24 (s1.fld R.FM_CTL F.FM_CTL.GATE)) } }
  else s1

def execFmGo (v : BitVec 32) (s : State) : Res := .next (s.fmCtlWrite (v ||| 0x80000000))

/-- What FM_CNT takes at the end of a measurement whose gate saw `n` edges: 0 where either code selects no running clock, and 2^GATE where
both select one clock. -/
def State.fmCount (s : State) (n : Nat) : Nat :=
  if ¬ (s.measRuns s.clk.meas ∧ s.clk.ref < 16 ∧ s.measRuns s.clk.ref) then 0
  else if s.clk.meas = s.clk.ref ∧ n ≠ 0 then 2 ^ s.clk.gate
  else n

/-- R318. A measurement ends; `n`: the edges of the measured clock outside during the gate. -/
def execFmDone (n : BitVec 40) (s : State) : Res :=
  .next (
    if s.flag R.FM_CTL F.FM_CTL.BUSY then
      let c := s.fmCount n.toNat
      (((s.setReg R.FM_CNT_L (BitVec.ofNat 32 c)).setReg R.FM_CNT_H (BitVec.ofNat 32 (c / 2 ^ 32))).setFld R.FM_CTL F.FM_CTL.BUSY 0).setFld
        R.FM_CTL F.FM_CTL.DONE 1
    else s)

/-! ### The clock monitor (R319) -/

/-- The nominal frequency of monitored clock i, in kHz. -/
def State.nominal (s : State) (i : Nat) : Nat :=
  match i with
  | 0 => 10 * s.fld R.CLK_XCFG F.CLK_XCFG.XAF
  | 1 => 10 * s.fld R.CLK_XCFG F.CLK_XCFG.XBF
  | 2 => 3000000
  | 3 => 2000000
  | 4 => (3200 + 400 * s.clk.rate2) * 500
  | _ => (4 + 4 * s.fld R.UCL_STAT F.UCL_STAT.TRATE) * 500000

/-- Is clock i watched: enabled, present, its loop running? -/
def State.watched (s : State) (i : Nat) : Bool :=
  (s.fld R.CM_CFG F.CM_CFG.EN).testBit i && (if i < 2 then s.refPresent i else s.loopOn (i - 2))

/-- Set a bit of one of CM_STATUS's six-bit fields. -/
def State.setCm (s : State) (f : Fld) (i : Nat) (b : Bool) : State :=
  let x := s.fld R.CM_STATUS f
  s.setFld R.CM_STATUS f (if b then x ||| 2 ^ i else x - x / 2 ^ i % 2 * 2 ^ i)

/-- SC clears FAIL[i] once OUT[i] has read 0 for 1 ms, which is 98 windows (R379). -/
def State.scClearsFail (s : State) (i : Nat) (out : Bool) : State :=
  let n := if out then 0 else SMap.get 0 s.db.okC i + 1
  let s1 := { s with db := { s.db with okC := SMap.set 0 s.db.okC i (min n 98) } }
  if 98 ≤ n ∧ ¬ s.db.scDead ∧ (s.fld R.CM_STATUS F.CM_STATUS.FAIL).testBit i then s1.setCm F.CM_STATUS.FAIL i false else s1

/-- R319, R321. A window of clock i ends with a count of `n`; of a clock that is not watched OUT stays as it is. By a second window out of
limits a loop that is locked loses lock, whatever FAIL reads. -/
def execMonitorWindow (i : Fin 6) (n : Nat) (s : State) : Res :=
  .next (
    if s.power = .off then s
    else if ¬ s.watched i then s.scClearsFail i ((s.fld R.CM_STATUS F.CM_STATUS.OUT).testBit i)
    else
      let e := s.nominal i * 4096
      let high := decide (115 * e < n * 40000000); let out := high || decide (n * 40000000 < 85 * e)
      let s1 := (s.scClearsFail i out).setCm F.CM_STATUS.OUT i out
      let s2 := if high then (s1.setCm F.CM_STATUS.OVR i true).setFld R.HUB_INTEGRITY F.HUB_INTEGRITY.ROC 1 else s1
      let bit := BitVec.ofNat 6 (2 ^ i.val)
      let s3 := { s2 with clk := { s2.clk with bad := if out then s2.clk.bad ||| bit else s2.clk.bad &&& ~~~ bit } }
      if ¬ (out ∧ s.clk.bad.getLsbD i) then s3
      else
        let s4 := s3.setCm F.CM_STATUS.FAIL i true
        if i.val < 2 then (if (s.fld R.CM_STATUS F.CM_STATUS.FAIL).testBit i then s3 else s4.refFailed i)
        else if s.flag R.CLK_HLSTAT (lockF (i - 2)) then s4.loopLost (i - 2) else s4)

end Sys2Proof.Machine
end

