-- ==== Sys2Proof/Machine/Directory.lean ====
section
/-!
DEFINITION. The stream directory (R206–R210): the key's hash, lookups, and the commands of SD_CMD.
-/
namespace Sys2Proof.Machine

/-! ### The hash (R206) -/

/-- One octet into a reflected CRC-32 register, generator polynomial of IEEE 802.3. -/
def crc32Octet (c : Nat) (o : Nat) : Nat :=
  (List.range 8).foldl (fun r _ => if r % 2 = 1 then r / 2 ^^^ 0xEDB88320 else r / 2) (c ^^^ o)

/-- CRC-32 of a sequence of octets: initial value and final XOR all ones. -/
def crc32 (os : List Nat) : Nat := os.foldl crc32Octet 0xFFFFFFFF ^^^ 0xFFFFFFFF

/-- The five octets of a word, octet 4 first. -/
def wordOctets (w : Word) : List Nat := [4, 3, 2, 1, 0].map fun i => w.toNat / 2 ^ (8 * i) % 256

/-- The hash of a key. -/
def sdHash (klen : Bool) (k1 k0 : Word) : Nat :=
  crc32 ((if klen then 1 :: wordOctets k1 else [0]) ++ wordOctets k0)

/-- The candidate buckets. -/
def sdBuckets (h : Nat) : Nat × Nat :=
  let b1 := h % 2 ^ 13; let b2 := h / 2 ^ 13 % 2 ^ 13
  (b1, if b2 = b1 then b2 ^^^ 1 else b2)

/-! ### Entries -/

def State.sdEnt (s : State) (i : Nat) : SdEnt := SMap.get {} s.sd i

def State.setSdEnt (s : State) (i : Nat) (x : SdEnt) : State := { s with sd := SMap.set {} s.sd i x }

/-- The indices of the candidate entries of a key: the ways of b1, then those of b2. -/
def sdCandidates (klen : Bool) (k1 k0 : Word) : List Nat :=
  let b := sdBuckets (sdHash klen k1 k0)
  (List.range 16).map (16 * b.1 + ·) ++ (List.range 16).map (16 * b.2 + ·)

/-- Does an entry hold the key? -/
def SdEnt.holds (x : SdEnt) (klen : Bool) (k1 k0 : Word) : Bool :=
  x.valid && decide (x.klen = klen ∧ x.k0 = k0) && (!klen || decide (x.k1 = k1))

/-- The index of the entry that holds a key. -/
def State.sdFind (s : State) (klen : Bool) (k1 k0 : Word) : Option Nat :=
  (sdCandidates klen k1 k0).find? fun i => (s.sdEnt i).holds klen k1 k0

/-- The number of valid entries (SD_COUNT). -/
def State.sdCount (s : State) : Nat := (s.sd.filter fun e => e.2.valid).length

/-- A lookup: the action word or the miss action word, and whether the key was found; hits and misses are counted (R207). -/
def State.sdLookup (s : State) (klen : Bool) (k1 k0 : Word) : (Word × Bool) × State :=
  match s.sdFind klen k1 k0 with
  | some i => (((s.sdEnt i).act, true), s.addSat R.SD_HITS F.SD_HITS.COUNT 1)
  | none => ((s.sdMiss, false), s.addSat R.SD_MISSES F.SD_MISSES.COUNT 1)

/-! ### Software commands (R209, Table 8.20) -/

/-- A 40-bit value of a pair of registers. -/
def State.pair40 (s : State) (lo hi : Nat) : Word := BitVec.ofNat 40 ((s.reg hi).toNat % 256 * 2 ^ 32 + (s.reg lo).toNat)

/-- Report a command's result and index. -/
def State.sdResult (s : State) (r : Nat) (i : Option Nat) : State :=
  let s1 := s.setFld R.SD_RES F.SD_RES.RESULT r
  match i with
  | some k => s1.setFld R.SD_RES F.SD_RES.INDEX k
  | none => s1

/-- Execute OP of SD_CMD with the key length `klen`. -/
def State.sdExec (s : State) (op : Nat) (klen : Bool) : State :=
  let k0 := s.pair40 R.SD_K0L R.SD_K0H; let k1 := if klen then s.pair40 R.SD_K1L R.SD_K1H else 0
  let act := s.pair40 R.SD_AL R.SD_AH
  match op with
  | 0 => { s with sdMiss := act }.sdResult 0 none
  | 1 =>
    match s.sdFind klen k1 k0 with
    | some i => (s.setSdEnt i { s.sdEnt i with act := act }).sdResult 1 (some i)
    | none =>
      match (sdCandidates klen k1 k0).find? fun i => !(s.sdEnt i).valid with
      | some i => (s.setSdEnt i { valid := true, klen := klen, k1 := k1, k0 := k0, act := act }).sdResult 0 (some i)
      | none => s.sdResult 3 none
  | 2 =>
    match s.sdFind klen k1 k0 with
    | some i => (s.setSdEnt i { s.sdEnt i with valid := false }).sdResult 0 (some i)
    | none => s.sdResult 2 none
  | _ =>
    match s.sdFind klen k1 k0 with
    | some i => s.sdResult 0 (some i)
    | none => s.sdResult 2 none

/-- A write of SD_CMD: its RW fields, and with GO a command, which runs until one of the rows below performs it. A command written while one
runs is ignored. -/
def State.sdCmdWrite (s : State) (v : HWord) : State :=
  if v.getLsbD 31 then
    if s.sdOp.isSome then s
    else
      { s.writeReg R.SD_CMD v with sdOp := some (getF v F.SD_CMD.OP, decide (getF v F.SD_CMD.KLEN = 1)) }.setFld R.SD_RES F.SD_RES.BUSY 1
  else s.writeReg R.SD_CMD v

/-- The running command is performed, with the key and the action that SD_K and SD_A hold now (DESIGN CHOICE, log entry 158). -/
def State.sdRun (s : State) (op : Nat) (klen : Bool) : State :=
  ({ s with sdOp := none }.setFld R.SD_RES F.SD_RES.BUSY 0).sdExec op klen

/-- The word of an SD_CMD write with GO. -/
def sdCmdWord (op : Nat) (klen : Bool) : HWord := BitVec.ofNat 32 (2 ^ 31 + (if klen then 2 ^ 30 else 0) + op)

/-- A command of Table 8.20: written, if none runs; the one that runs, where it is this one, is performed. -/
def State.sdCommand (s : State) (op : Nat) (klen : Bool) : State :=
  let s1 := s.sdCmdWrite (sdCmdWord op klen)
  if s1.sdOp = some (op, klen) then s1.sdRun op klen else s1

/-- R209. -/
def execSetmiss (klen : Bool) (s : State) : Res := .next (s.sdCommand 0 klen)

/-- R209. -/
def execUpsert (klen : Bool) (s : State) : Res := .next (s.sdCommand 1 klen)

/-- R209. -/
def execDelete (klen : Bool) (s : State) : Res := .next (s.sdCommand 2 klen)

/-- R209. -/
def execFind (klen : Bool) (s : State) : Res := .next (s.sdCommand 3 klen)

/-- The read-only view of the directory at BAR0 0x080_0000 + 8n (R210): host word `h` of entry `n`. -/
def State.sdView (s : State) (n h : Nat) : HWord :=
  let x := s.sdEnt n
  if h = 0 then BitVec.ofNat 32 x.act.toNat
  else BitVec.ofNat 32 ((if x.valid then 2 ^ 31 else 0) + (if x.klen then 2 ^ 30 else 0) + x.act.toNat / 2 ^ 32)

/-! ### Lookup ports (R207) -/

/-- The records that a posted lookup's words hold, and how many words are left over. -/
def lkParse (src : Nat) (prio : Fin 4) (two : Bool) : List Word → List LkRec × Nat
  | a :: b :: rest =>
    if two then
      match rest with
      | c :: rest' => let r := lkParse src prio two rest'; (⟨src, prio, a, true, b, c⟩ :: r.1, r.2)
      | [] => ([], 2)
    else let r := lkParse src prio two rest; (⟨src, prio, a, false, 0, b⟩ :: r.1, r.2)
  | [_] => ([], 1)
  | [] => ([], 0)

/-- The name of lookup port `lp`. -/
def lkPort (lp : Nat) : Nat := portId 256 (24 + lp)

/-- A packet taken whole by a lookup port. -/
def State.lkTarget (s : State) (lp : Nat) (pk : Packet) : State :=
  if pk.cmd = cLKUP then
    let r := s.sdLookup pk.klen pk.addr pk.opnd
    r.2.answer pk { completion pk cCPL with opnd := r.1.1, hit := r.1.2 }
  else if pk.cmd = cWRP ∧ pk.addr.toNat < 0x10000 then
    let r := lkParse pk.src pk.prio (decide (0x8000 ≤ pk.addr.toNat)) pk.data
    ({ s with lkRecs := SMap.set [] s.lkRecs lp (SMap.get [] s.lkRecs lp ++ r.1) }).addSat R.SD_RUNT F.SD_RUNT.COUNT r.2
  else s.answerErr pk eUNSUP

/-- R207. A lookup port looks up its oldest posted record and sends the result to the reply address; a reply to an unmapped address is
discarded under R185. -/
def execLookupRecord (lp : Fin 4) (s : State) : Res :=
  .next (
    match SMap.get [] s.lkRecs lp.val with
    | [] => s
    | r :: rs =>
      let x := ({ s with lkRecs := SMap.set [] s.lkRecs lp rs } : State).sdLookup r.klen r.k1 r.k0
      x.2.sendReq { src := lkPort lp, cmd := cWRP, prio := r.prio, len := 1, addr := r.reply, data := [x.1.1] } .extern)

end Sys2Proof.Machine
end

