-- ==== Sys2Proof/Machine/Pins.lean ====
section
/-!
DEFINITION. The hub pins, their filters, interrupts and timestamps, the pad latches, and the fabric user pins (R381–R390, R393–R395).
-/
namespace Sys2Proof.Machine

def State.pin (s : State) (k : Nat) : PinSt := SMap.get {} s.pins k
def State.setPin (s : State) (k : Nat) (x : PinSt) : State := { s with pins := SMap.set {} s.pins k x }
def State.fpin (s : State) (d n : Nat) : FpinSt := SMap.get {} s.fpins (64 * d + n)
def State.setFpin (s : State) (d n : Nat) (x : FpinSt) : State := { s with fpins := SMap.set {} s.fpins (64 * d + n) x }

/-- The live PIN_CFG of pin k. -/
def State.pinLive (s : State) (k : Nat) : HWord := s.live (pinMember (k / 16)) (R.PIN_CFG k)

/-- The settings of a pin at rest: no function, and a weak pull-down (R329); the bell pins filter on SOSC with FTICKS 16 and INV 0
(R390). -/
def State.pinAtRest (s : State) (k : Nat) : HWord :=
  let c := putF (putF (s.pinLive k) F.PIN_CFG.FUNC 0) F.PIN_CFG.PULL 1
  if k < 4 then putF (putF (putF c F.PIN_CFG.FTICKS 16) F.PIN_CFG.FCLK 0) F.PIN_CFG.INV 0 else c

/-- The settings in force at pin k (R388, R390). -/
def State.pinCfg (s : State) (k : Nat) : HWord :=
  if (s.pin k).hold then (s.pin k).old else if s.outputs then s.pinLive k else s.pinAtRest k

/-- A pad's weak pull: 0 none, 1 down, 2 up. -/
def pullOf (n : Nat) : Nat := if n = 3 then 0 else n

def State.pull (s : State) (k : Nat) : Nat := pullOf (getF (s.pinCfg k) F.PIN_CFG.PULL)

/-- The weak pull of fabric pin n of die d, the pad latch's while that holds (R388, R395). -/
def State.fpull (s : State) (d n : Nat) : Nat :=
  if (s.fpin d n).hold then (s.fpin d n).heldPull
  else if (SMap.get {} s.dies d).outputs then pullOf (s.liveF (pinMember (4 + d)) (R.FPIN_CFG d n) F.FPIN_CFG.PULL) else 1

/-! ### Functions (R383, R384) -/

/-- The instance a function belongs to at pin k (Table 16.3): UART and timestamp channel b, I2C, SPI and fan b mod 2. -/
def pinInst (f k : Nat) : Nat := if f = 1 ∨ f = 2 ∨ f = 0xA then k / 16 else k / 16 % 2

/-- The pins that name input function `f` of instance `i`, lowest first; one that is handing over names it in its old or its new
settings. -/
def State.suppliers (s : State) (f i : Nat) : List Nat :=
  (List.range 64).filter fun k =>
    s.outputs && decide (pinInst f k = i) &&
      (decide (getF (s.pinLive k) F.PIN_CFG.FUNC = f) || ((s.pin k).hold && decide (getF (s.pin k).old F.PIN_CFG.FUNC = f)))

/-- The pin that supplies input function `f` of instance `i`: the lowest that names it (R384). One that is handing over supplies the idle
value (R388). -/
def State.supplier (s : State) (f i : Nat) : Option Nat := (s.suppliers f i).head?.filter fun k => !(s.pin k).hold

/-- Does pin k supply input function `f` of its instance? -/
def State.suppliesInput (s : State) (f k : Nat) : Bool := decide (s.supplier f (pinInst f k) = some k)

/-- Note a conflict where several pins supply one input (R384). -/
def State.pinConflict (s : State) : State :=
  let ks := ([2, 3, 4, 7, 0xA, 0xE] : List Nat).flatMap fun f => (List.range 4).flatMap fun i =>
    let l := s.suppliers f i
    if 2 ≤ l.length then l.take 1 else []
  match ks with
  | [] => s
  | k :: rest => (s.setFld R.PIN_STAT F.PIN_STAT.CONF 1).setFld R.PIN_STAT F.PIN_STAT.CPIN (rest.foldl min k)

/-- The level a function drives, and whether it drives at all. The level between octets of a serial line is the idle one; the phase of a fan's
PWM and the resting level of SPI data out are free values. -/
def State.pinFunc (s : State) (k f : Nat) : Bool × Bool :=
  let b := k / 16; let i := k % 16
  let open1 : Bool := decide (Config.freeValue s.fresh % 2 = 1)
  match f with
  | 0x0 => ((s.fld (R.PIN_GPOE b) F.PIN_GPOE.OE).testBit i, (s.fld (R.PIN_GPOUT b) F.PIN_GPOUT.OUT).testBit i)
  | 0x1 => (true, true)
  | 0x3 | 0x4 => (false, true)
  | 0x5 => (true, (s.fld (R.SPI_CFG (b % 2)) F.SPI_CFG.MODE).testBit 1)
  | 0x6 => (true, open1)
  | 0x8 => (true, !SMap.get false s.spis (b % 2))
  | 0x9 => (true, decide (s.nowNs % 1000000000 < 1000000))
  | 0xC => (true, (s.liveF (pinMember b) (R.PIN_TALLY b) F.PIN_TALLY.TALLY).testBit i)
  | 0xD =>
    let duty := s.fld (R.FAN_CFG (b % 2)) F.FAN_CFG.DUTY
    (true, !s.flag (R.FAN_CFG (b % 2)) F.FAN_CFG.EN || decide (duty = 255) || (decide (duty ≠ 0) && open1))
  | 0xF => (true, (s.dom (k % 8)).en && decide (s.lineNow (k % 8) = 0))
  | _ => (false, false)

/-- What pin k puts on its pad: driver on, and the level (R383, R388, R390). -/
def State.pad (s : State) (k : Nat) : Bool × Bool :=
  let x := s.pin k
  if x.hold then (x.heldEn, x.heldLevel)
  else if ¬ s.outputs then (false, false)
  else
    let c := s.pinLive k; let f := getF c F.PIN_CFG.FUNC
    let o := s.pinFunc k f
    (o.1 && !(decide (getF c F.PIN_CFG.OD = 1) && o.2), o.2)

/-! ### Filters, interrupts and timestamps (R385–R387) -/

/-- Show pin k's filtered level in PIN_GPIN. -/
def State.showPin (s : State) (k : Nat) : State := s.setFld (R.PIN_GPIN (k / 16)) ⟨k % 16, k % 16⟩ (if (s.pin k).filt then 1 else 0)

/-- Set pin k's PIN_ISTAT bit. -/
def State.pinInt (s : State) (k : Nat) : State := s.setFld (R.PIN_ISTAT (k / 16)) ⟨k % 16, k % 16⟩ 1

/-- The level modes: the bit is set while the named level holds (R386). -/
def State.levelInt (s : State) (k : Nat) : State :=
  let m := getF (s.pinCfg k) F.PIN_CFG.IMODE; let l := (s.pin k).filt
  if (m = 4 ∧ l) ∨ (m = 5 ∧ ¬ l) then s.pinInt k else s

/-- A rising edge at the pin that supplies timestamp channel `c` (R387). -/
def State.stamp (s : State) (c : Nat) : State :=
  if s.flag (R.PIN_TSSTAT c) F.PIN_TSSTAT.VALID then s.setFld (R.PIN_TSSTAT c) F.PIN_TSSTAT.OVR 1
  else ((s.setReg (R.PIN_TS_L c) (BitVec.ofNat 32 s.nowNs)).setReg (R.PIN_TS_H c) (BitVec.ofNat 32 (s.nowNs / 2 ^ 32))).setFld
    (R.PIN_TSSTAT c) F.PIN_TSSTAT.VALID 1

/-- The filtered level of pin k becomes `l`: its interrupt, and the timestamp, the fan or the timebase domains that it supplies (R107). -/
def State.pinLevel (s : State) (k : Nat) (l : Bool) : State :=
  if (s.pin k).filt = l then s
  else
    let s1 := (s.setPin k { s.pin k with filt := l }).showPin k
    let m := getF (s1.pinCfg k) F.PIN_CFG.IMODE
    let s2 := if (m = 1 ∧ l) ∨ (m = 2 ∧ ¬ l) ∨ m = 3 then s1.pinInt k else s1
    let s3 := if l ∧ s2.suppliesInput 0xA k then s2.stamp (pinInst 0xA k) else s2
    let s4 := if l ∧ s3.suppliesInput 0xE k then { s3 with fans := SMap.upd 0 s3.fans (pinInst 0xE k) (· + 1) } else s3
    ((List.range 8).filter fun t => decide ((s4.dom t).pin = k ∧ (s4.dom t).fall = !l)).foldl State.refEdge s4

/-- The filtered level of pin k becomes `l`, with what R386 makes of it. -/
def State.filtered (s : State) (k : Nat) (l : Bool) : State := (s.pinLevel k l).levelInt k

/-- R107. An active edge of domain t's reference pin, after the pin's input filter: the filtered level becomes the active one, having left
it since the last edge. -/
def execTbRefEdge (t : Fin 8) (dt : Nat) (s : State) : Res :=
  let s1 := s.tbuEdges dt; let x := s1.dom t; let k := x.pin
  .next (
    if x.en ∧ x.pinMode ∧ s1.refPin x then
      let inv := decide (getF (s1.pinCfg k) F.PIN_CFG.INV = 1)
      (s1.setPin k { s1.pin k with raw := !x.fall != inv }).filtered k x.fall |>.filtered k (!x.fall)
    else s1)

/-- R389. A write of PIN_GPOE (`oe`) or PIN_GPOUT of bank b. -/
def execPinGpoutWrite (b : Fin 4) (oe : Bool) (v : BitVec 32) (s : State) : Res :=
  .next (s.writeReg (if oe then R.PIN_GPOE b else R.PIN_GPOUT b) v)

/-! ### The pad latch (R388, R395) -/

/-- The pad latch of pin k captures what the pad does, under settings `old` that stay in force until the handover. -/
def State.latchPin (s : State) (k : Nat) (en level : Bool) (old : HWord) : State :=
  if (s.pin k).hold then s else s.setPin k { s.pin k with hold := true, heldEn := en, heldLevel := level, old := old }

/-- Is pin n the M pin of a pair that its even pin drives as LVDS_OUT (R394)? -/
def State.lvdsM (s : State) (d n : Nat) : Bool := decide (n % 2 = 1) && decide (s.fpinMode d (n - 1) = 4)

/-- What fabric pin n of die d puts on its ball (R394, R395). The M pin of an LVDS_OUT pair carries what its P pin sends, inverted. -/
def State.fpad (s : State) (d n : Nat) : Bool × Bool :=
  let x := s.fpin d n; let m := s.fpinMode d n
  if x.hold then (x.heldEn, x.heldLevel)
  else if ¬ (SMap.get {} s.dies d).outputs then (false, false)
  else if s.lvdsM d n then (true, !(s.fpin d (n - 1)).last)
  else (decide (m = 1 ∨ m = 4) || (decide (m = 2) && !x.last), x.last)

/-- The pad latch of fabric pin n captures `o`, what the pad does, and its pull. -/
def State.latchFpin (s : State) (d n : Nat) (o : Bool × Bool) (pull : Nat) : State :=
  if (s.fpin d n).hold then s
  else s.setFpin d n { s.fpin d n with hold := true, heldEn := o.1, heldLevel := o.2, heldPull := pull }

/-- Do the settings of fabric pin n change from `s` to `s1`: its own, or those of the even pin that governs its pair in either (R394)? -/
def State.fpinMoves (s s1 : State) (d n : Nat) : Bool :=
  let m := pinMember (4 + d)
  let moves := fun (k : Nat) => decide (s.live m (R.FPIN_CFG d k) ≠ s1.live m (R.FPIN_CFG d k))
  moves n || (decide (n % 2 = 1) && moves (n - 1) && (s.lvdsM d n || s1.lvdsM d n))

/-- The switching edge of pin bank b: pins whose settings change are latched (R388). -/
def State.switchBank (s : State) (b : Nat) : State :=
  if b < 4 then
    let s1 := s.flip (pinMember b)
    (List.range 16).foldl (fun a i =>
      let k := 16 * b + i; let o := s.pad k
      if s.outputs ∧ s.pinLive k ≠ s1.pinLive k then a.latchPin k o.1 o.2 (s.pinCfg k) else a) s1
  else
    let d := b - 4; let s1 := s.flip (pinMember b)
    (List.range 48).foldl (fun a n =>
      if (SMap.get {} s.dies d).outputs ∧ s.fpinMoves s1 d n then a.latchFpin d n (s.fpad d n) (s.fpull d n) else a) s1

/-- R388, R112. -/
def execPinBankSwitch (b : Fin 8) (s : State) : Res := .next (s.switchMember (pinMember b) fun a => a.switchBank b)

/-- The second SOSC edge after a switching edge, or after OUTPUTS: the new settings take the pads of bank b, and the filters restart. Before
OUTPUTS, and without power, the latches hold (R331, R332). -/
def State.handover (s : State) (b : Nat) : State :=
  if s.power ≠ .on then s
  else if b < 4 then
    if ¬ s.outputs then s
    else
      let s1 := (List.range 16).foldl (fun a i =>
        let k := 16 * b + i; let x := a.pin k
        if x.hold then
          let inv := decide (getF (a.pinLive k) F.PIN_CFG.INV = 1)
          ((a.setPin k { raw := x.raw, filt := x.raw != inv }).showPin k).levelInt k
        else a) s
      s1.pinConflict
  else if ¬ (SMap.get {} s.dies (b - 4)).outputs then s
  else (List.range 48).foldl (fun a n =>
    if (a.fpin (b - 4) n).hold then a.setFpin (b - 4) n { last := (a.fpin (b - 4) n).last } else a) s

/-- OUTPUTS (R348, R389): the hub pins hand over from their at-rest state, or from what a wake from HOLD left latched. -/
def State.outputsOn (s : State) : State :=
  if s.outputs then s
  else
    let s1 := (List.range 64).foldl (fun a k => a.latchPin k false false (s.pinAtRest k)) s
    { s1 with outputs := true }

/-- OUTPUTS on fabric die d: its user pins hand over from their at-rest state in the same way (R348). -/
def State.fpinsOn (s : State) (d : Nat) : State :=
  let s1 := (List.range 48).foldl (fun a n => a.latchFpin d n (false, false) 1) s
  { s1 with dies := SMap.upd {} s1.dies d fun x => { x with outputs := true } }

/-- Does a pin of the hub, or of one of the dies, still hand over? -/
def State.handing (s : State) (ds : List Nat) : Bool :=
  s.pins.any (fun e => e.2.hold) || s.fpins.any fun e => e.2.hold && ds.contains (e.1 / 64)

/-- The user pins of fabric die d are at rest, and their latches hold nothing (R395). -/
def State.fpinsOff (s : State) (d : Nat) : State :=
  { s with fpins := SMap.drop s.fpins (fun k => decide (k / 64 = d)), dies := SMap.upd {} s.dies d fun x => { x with outputs := false } }

/-- OUTPUTS is withdrawn: the hub pins and those of every die return to rest (R345, R395). -/
def State.outputsOff (s : State) : State :=
  (List.range 4).foldl State.fpinsOff
    ((List.range 64).foldl (fun a k => a.setPin k { a.pin k with hold := false, heldEn := false, heldLevel := false, old := 0 })
      { s with outputs := false })

/-! ### Fabric user pins (R394) -/

/-- The queue binding of a fabric pin. -/
def State.fpinBinding (s : State) (d n : Nat) : Bool × Nat × Nat :=
  bindOf (s.live (pinMember (4 + d)) (R.FPIN_CFG d n)) F.FPIN_CFG.QEN F.FPIN_CFG.QMEM F.FPIN_CFG.Q

/-- Is fabric pin n working: past OUTPUTS, not handing over, the attached pane's clocks running? -/
def State.fpinRuns (s : State) (d n : Nat) : Bool :=
  (SMap.get {} s.dies d).outputs && !(SMap.get {} s.dies d).off && !(s.fpin d n).hold &&
    s.flag (R.PANE_CLK (fpinPane d n / 64) (fpinPane d n % 64)) F.PANE_CLK.LOCK

/-- Does the pin invert its data? -/
def State.fpinInv (s : State) (d n : Nat) : Bool := decide (s.liveF (pinMember (4 + d)) (R.FPIN_CFG d n) F.FPIN_CFG.INV = 1)

/-- A word as the ball carries it. -/
def State.fpinWire (s : State) (d n : Nat) (w : Word) : Word := if s.fpinInv d n then ~~~w else w

/-- R394. The start of a word time of an output pin, `dt` cell cycles after the last command of its pane: it pops a word and sends it; with
nothing to pop it holds the last bit it sent. -/
def execFpinWordOut (d : Fin 4) (n : Fin 48) (dt : Nat) (s : State) : Res :=
  let pane := fpinPane d n
  let s1 := s.advance pane dt
  let m := s1.fpinMode d n; let b := s1.fpinBinding d n
  .next (
    if ¬ s1.fpinRuns d n ∨ ¬ (m = 1 ∨ m = 2 ∨ m = 4) ∨ ¬ s1.served pane b false (.fpin n) then s1
    else
      let r := s1.popBound pane b.2.1 b.2.2
      if r.1.2.2 then
        let w := s1.fpinWire d n r.1.1
        (r.2.setFpin d n { r.2.fpin d n with last := w.getLsbD 0 }).emit (.fpinWord d n w)
      else r.2)

/-- R394. The end of a word time of an input pin: the word sampled at the ball is pushed with tag 0, or discarded with the pin's
FPIN_ERR bit. -/
def execFpinWordIn (d : Fin 4) (n : Fin 48) (w : BitVec 40) (dt : Nat) (s : State) : Res :=
  let pane := fpinPane d n
  let s1 := s.advance pane dt
  let m := s1.fpinMode d n; let b := s1.fpinBinding d n
  .next (
    if ¬ s1.fpinRuns d n ∨ ¬ (m = 3 ∨ m = 5) then s1
    else if ¬ s1.served pane b true (.fpin n) then
      (if s1.bound pane b.1 b.2.1 b.2.2 ∧ s1.queueMode pane b.2.1 then s1.refuse pane b.2.1 b.2.2 1 else s1).fpinErr d n
    else if s1.pushWaits pane b.2.1 b.2.2 then s1.waitPush pane (.pin b.2.1 b.2.2 n (s1.fpinWire d n w))
    else
      let r := s1.pushBound pane b.2.1 b.2.2 (s1.fpinWire d n w) false
      if r.1 then r.2 else r.2.fpinErr d n)

end Sys2Proof.Machine
end

