-- ==== Sys2Proof/Machine/Message.lean ====
section
/-!
DEFINITION. What the device sends: packets of the knock chain (R302), and the Keeper's replies on its channels (R403, R404).
-/
namespace Sys2Proof.Machine

/-! ### The chain (R302) -/

/-- The CRC-16 of a chain packet, over its header and payload. -/
def chainCrc (typ dst src seq : Octet) (payload : List Octet) : Nat :=
  let len := payload.length
  crc16 (([typ, dst, src, BitVec.ofNat 8 (len / 256), BitVec.ofNat 8 len, seq] ++ payload).flatMap fun o => bitsMsb 8 o.toNat)

/-- A chain packet with its CRC. -/
def chainPk (typ dst src : Nat) (seq : Octet) (payload : List Octet) : ChainPkt :=
  let o := BitVec.ofNat 8
  ⟨o typ, o dst, o src, seq, payload, BitVec.ofNat 16 (chainCrc (o typ) (o dst) (o src) seq payload)⟩

/-- Send a packet downstream or upstream. -/
def State.sendChain (s : State) (down : Bool) (pk : ChainPkt) : State := s.emit (.chainTx down pk)

/-- The device's chain address; 0 where it has none. -/
def State.chnAddr (s : State) : Nat := s.fld R.CHN_STAT F.CHN_STAT.ADDR

/-! ### The Keeper's state -/

def State.withKpr (s : State) (f : KprSt → KprSt) : State := { s with kpr := f s.kpr }

/-- KPR_STAT.STATE (Table 17.6). -/
def State.kprState (s : State) : Nat := s.fld R.KPR_STAT F.KPR_STAT.STATE

/-- The channel that a session, or its opening, is on. -/
def State.kprChan (s : State) : Nat := s.fld R.KPR_STAT F.KPR_STAT.CHAN

/-- Is a session open on channel `c`? -/
def State.inSession (s : State) (c : Nat) : Bool := decide (s.kprState = 2 ∧ s.kprChan = c)

/-! ### The Keeper's messages (R403, R404) -/

/-- The octets of a host word, least significant first. -/
def hwOctets (w : HWord) : List Octet := [0, 1, 2, 3].map fun i => BitVec.ofNat 8 (w.toNat / 2 ^ (8 * i))

/-- The octets of host words, each least significant octet first. -/
def octetsOf (ws : List HWord) : List Octet := ws.flatMap hwOctets

/-- Host words of a message's trailer on a channel: an HMAC in a session, else a CRC. -/
def State.trailLen (s : State) (c : Nat) : Nat := if s.inSession c then 4 else 1

/-- The words that wait on a channel. -/
def State.kprIn (s : State) (c : Nat) : List HWord := SMap.get [] s.kpr.inq c

/-- The 8 octets of a message counter, most significant first. -/
def ctrOctets (n : Nat) : List Octet := (List.range 8).map fun i => BitVec.ofNat 8 (n / 256 ^ (7 - i))

/-- The trailer of a header and payload, sent (`out`) or received on a channel. -/
def State.trailer (s : State) (c : Nat) (out : Bool) (ws : List HWord) : List HWord :=
  if s.inSession c then Config.hmacTag s.kpr.key (ctrOctets (if out then s.kpr.ctrOut else s.kpr.ctrIn) ++ octetsOf ws)
  else [BitVec.ofNat 32 (crc32 ((octetsOf ws).map (·.toNat)))]

/-- The mailbox registers follow its queues (Table 17.7). -/
def State.kprShow (s : State) : State :=
  let all := s.kpr.outq ++ s.kpr.late
  let s1 := s.withKpr fun k => { k with outq := all.take 64, late := all.drop 64 }
  ((s1.setFld R.KPR_VTSTAT F.KPR_VTSTAT.TXFREE (64 - (s.kprIn 0).length)).setFld R.KPR_VTSTAT F.KPR_VTSTAT.RXCNT
    (min 64 all.length)).setReg R.KPR_RXD (all.headD 0)

/-- Send a message on a channel, on the chain to an address. -/
def State.kprSend (s : State) (r : KReq) (ws : List HWord) : State :=
  match r.chan with
  | 0 => (s.withKpr fun k => { k with late := k.late ++ ws }).kprShow
  | 1 => s.emit (.keeperUart ([0x4B, 0x50] ++ octetsOf ws))
  | _ => s.sendChain (!r.down) (chainPk 6 r.dst s.chnAddr 0 (octetsOf ws))

/-- The reply to a request: its STATUS and the words after it. -/
def State.kprReply (s : State) (r : KReq) (st : Nat) (ws : List HWord) : State :=
  let p := BitVec.ofNat 32 st :: ws
  let m := BitVec.ofNat 32 ((r.typ + 0x80) * 2 ^ 24 + r.seq * 2 ^ 16 + p.length) :: p
  let s1 := s.kprSend r (m ++ s.trailer r.chan true m)
  if s.inSession r.chan then s1.withKpr fun k => { k with ctrOut := k.ctrOut + 1 } else s1

end Sys2Proof.Machine
end

