-- ==== Sys2Proof/Machine/Serial.lean ====
section
/-!
DEFINITION. The UART, I2C and SPI controllers and the fans (R391, R392).
-/
namespace Sys2Proof.Machine

/-! ### UARTs -/

def State.uart (s : State) (u : Nat) : UartSt := SMap.get {} s.uarts u

/-- Give a UART its FIFOs and show them in UART_RX and UART_STAT (Table 16.4). -/
def State.setUart (s : State) (u : Nat) (x : UartSt) : State :=
  let s1 := { s with uarts := SMap.set {} s.uarts u x }
  let s2 := (s1.setFld (R.UART_STAT u) F.UART_STAT.TXFREE (16 - x.tx.length)).setFld (R.UART_STAT u) F.UART_STAT.RXCNT x.rx.length
  let bit := fun (b : Bool) => if b then 1 else 0
  s2.setReg (R.UART_RX u) (match x.rx with
    | [] => 0
    | h :: _ => BitVec.ofNat 32 (2 ^ 31 + bit h.perr * 2 ^ 30 + bit h.ferr * 2 ^ 29 + h.octet.toNat))

/-- UART 3 while the Keeper owns it: nothing else writes its registers (R402). -/
def State.uartOwned (s : State) (u : Nat) : Bool := decide (u = 3) && s.flag R.KPR_CFG F.KPR_CFG.UEN

def State.uartOn (s : State) (u : Nat) : Bool := s.flag (R.UART_CFG u) F.UART_CFG.EN || s.uartOwned u

/-- A write of UART_TX. -/
def State.uartTxWrite (s : State) (u : Nat) (v : HWord) : State :=
  let x := s.uart u
  if s.uartOwned u ∨ 16 ≤ x.tx.length then s else s.setUart u { x with tx := x.tx ++ [BitVec.ofNat 8 v.toNat] }

def execUartTxWrite (u : Fin 4) (v : BitVec 32) (s : State) : Res := .next (s.uartTxWrite u v)

/-- R391. The oldest octet of the transmit FIFO has been sent. -/
def execUartTxOctetSent (u : Fin 4) (s : State) : Res :=
  .next (
    match (s.uart u).tx with
    | o :: rest => if s.uartOn u then (s.setUart u { s.uart u with tx := rest }).emit (.uartTx u o) else s
    | [] => s)

/-- A UART receives an octet into its FIFO, or loses it. -/
def State.uartTake (s : State) (u : Nat) (x : UartRx) : State :=
  let st := s.uart u
  if 16 ≤ st.rx.length then s.setFld (R.UART_STAT u) F.UART_STAT.OVR 1 else s.setUart u { st with rx := st.rx ++ [x] }

/-- A write of UART_CTL: POP removes the head octet. -/
def State.uartCtlWrite (s : State) (u : Nat) (v : HWord) : State :=
  if s.uartOwned u ∨ ¬ v.getLsbD 0 then s else s.setUart u { s.uart u with rx := (s.uart u).rx.drop 1 }

def execUartPop (u : Fin 4) (s : State) : Res := .next (s.uartCtlWrite u 1)

/-! ### I2C -/

/-- A write of I2C_CMD: GO runs an OP of Table 16.4 while the controller is enabled and not busy. -/
def State.i2cCmdWrite (s : State) (i : Nat) (v : HWord) : State :=
  let busy := s.flag (R.I2C_STAT i) F.I2C_STAT.BUSY
  let s1 := s.writeReg (R.I2C_CMD i) v
  let op := getF v F.I2C_CMD.OP
  if v.getLsbD 31 ∧ ¬ busy ∧ s.flag (R.I2C_CFG i) F.I2C_CFG.EN ∧ 1 ≤ op ∧ op ≤ 5 then
    ({ s1 with i2cs := SMap.set 0 s1.i2cs i op }.setFld (R.I2C_STAT i) F.I2C_STAT.BUSY 1).emit (.i2c i op (BitVec.ofNat 8 v.toNat))
  else s1

/-- The word that runs an OP. -/
def i2cWord (op : Nat) (data : BitVec 8) : HWord := BitVec.ofNat 32 (2 ^ 31 + op * 256 + data.toNat)

def execI2cStart (i : Fin 2) (s : State) : Res := .next (s.i2cCmdWrite i (i2cWord 1 0))

def execI2cWriteData (i : Fin 2) (data : BitVec 8) (s : State) : Res := .next (s.i2cCmdWrite i (i2cWord 2 data))

def execI2cReadWithAck (i : Fin 2) (s : State) : Res := .next (s.i2cCmdWrite i (i2cWord 3 0))

def execI2cReadWithNack (i : Fin 2) (s : State) : Res := .next (s.i2cCmdWrite i (i2cWord 4 0))

def execI2cStop (i : Fin 2) (s : State) : Res := .next (s.i2cCmdWrite i (i2cWord 5 0))

/-- R391. An OP ends: with the octet read, without the target's acknowledge, or with the bus lost or stretched too long. An SDA that no
pin supplies reads 1 (R384). -/
def execI2cOpDone (i : Fin 2) (rdata : BitVec 8) (nack arbl : Bool) (s : State) : Res :=
  let op := SMap.get 0 s.i2cs i; let st := R.I2C_STAT i
  let wired := s.supplier 4 i ≠ none
  .next (
    if ¬ s.flag st F.I2C_STAT.BUSY then s
    else
      let s1 := ({ s with i2cs := SMap.set 0 s.i2cs i 0 }.setFld st F.I2C_STAT.BUSY 0).setFld st F.I2C_STAT.DONE 1
      let s2 := if op = 2 ∧ (nack ∨ ¬ wired) then s1.setFld st F.I2C_STAT.NACK 1 else s1
      let s3 := if arbl then s2.setFld st F.I2C_STAT.ARBL 1 else s2
      if (op = 3 ∨ op = 4) ∧ ¬ arbl then s3.setFld st F.I2C_STAT.RDATA (if wired then rdata.toNat else 255) else s3)

/-! ### SPI -/

/-- A write of SPI_XFER: GO starts an exchange and CS_N falls. -/
def State.spiXferWrite (s : State) (i : Nat) (v : HWord) : State :=
  let s1 := s.writeReg (R.SPI_XFER i) v
  if v.getLsbD 31 ∧ ¬ s.flag (R.SPI_STAT i) F.SPI_STAT.BUSY ∧ s.flag (R.SPI_CFG i) F.SPI_CFG.EN then
    ({ s1 with spis := SMap.set false s1.spis i true }.setFld (R.SPI_STAT i) F.SPI_STAT.BUSY 1).emit (.spi i (BitVec.ofNat 8 v.toNat))
  else s1

def execSpiXferGo (i : Fin 2) (v : BitVec 32) (s : State) : Res := .next (s.spiXferWrite i (v ||| 0x80000000))

/-- R391. An exchange ends: the octet received, 0 where no pin supplies MISO; CS_N rises unless HOLDCS is 1. -/
def execSpiXferDone (i : Fin 2) (rdata : BitVec 8) (s : State) : Res :=
  let st := R.SPI_STAT i
  .next (
    if ¬ s.flag st F.SPI_STAT.BUSY then s
    else
      let s1 := ((s.setFld st F.SPI_STAT.BUSY 0).setFld st F.SPI_STAT.DONE 1).setFld st F.SPI_STAT.RDATA
        (if s.supplier 7 i = none then 0 else rdata.toNat)
      if s.flag (R.SPI_XFER i) F.SPI_XFER.HOLDCS then s1 else { s1 with spis := SMap.set false s1.spis i false })

/-! ### Fans -/

/-- R392. A whole second of device time ends: COUNT takes the tachometer's edges; beyond its 16 bits it is a free value. -/
def execFanCountUpdate (f : Fin 2) (s : State) : Res :=
  let n := SMap.get 0 s.fans f
  let s1 := { s with fans := SMap.set 0 s.fans f 0 }
  .next (
    if n < 65536 then s1.setFld (R.FAN_STAT f) F.FAN_STAT.COUNT n
    else { s1 with fresh := s1.fresh + 1 }.setFld (R.FAN_STAT f) F.FAN_STAT.COUNT (Config.freeValue s1.fresh))

end Sys2Proof.Machine
end

