-- ==== Sys2Proof/Machine/Session.lean ====
section
/-!
DEFINITION. What ends a debug session or its opening (R405, R406): the halted targets resume, a suspension made in it ends. MC0's halts
and its watchdog, and MC1's (R411, R413); the deadbolt's settings and the reload of its watchdog (R377, R378).
-/
namespace Sys2Proof.Machine

/-! ### The deadbolt's watchdog (R377, R378, R414) -/

def State.withDb (s : State) (f : DbSt → DbSt) : State := { s with db := f s.db }

/-- DBPOL's settings, of the value taken at the last device reset (Table 15.5, R367, R377). -/
def State.wdper (s : State) : Nat := match s.db.pol with | some v => max 1 (bitsOf v 63 48) | none => 1000
def State.wdgrace (s : State) : Nat := match s.db.pol with | some v => max 1 (bitsOf v 47 36) | none => 100
def State.wdstart (s : State) : Nat := match s.db.pol with | some v => bitsOf v 35 20 | none => 5000
def State.ttrip (s : State) : Nat :=
  match s.db.pol with | some v => (let t := bitsOf v 19 12; if 100 ≤ t ∧ t ≤ 120 then t else 110) | none => 110
def State.twarn (s : State) : Nat :=
  match s.db.pol with | some v => (let t := bitsOf v 11 4; if s.ttrip < t then s.ttrip - 5 else t) | none => 95

/-- SC reloads the watchdog to WDPER; after the first expiry it clears EXP. -/
def State.wdReload (s : State) : State :=
  (s.withDb fun d => { d with count := s.wdper, grace := false }).setFld R.DB_WDT F.DB_WDT.EXP 0

/-- A suspension ends: DB_LOG takes its length in seconds, and the watchdog reloads; once SC has stopped, its count only goes on (R374; log
entry 140). -/
def State.suspEnd (s : State) : State :=
  if ¬ s.flag R.DB_WDT F.DB_WDT.SUSP then s
  else
    let secs := (s.tbu.run / nsUnit - s.kpr.suspAt) / 1000000000
    let s1 := s.setFld R.DB_WDT F.DB_WDT.SUSP 0
    let s2 : State := { s1 with kpr := { s1.kpr with susp := false } }
    if s.db.scDead then s2 else (s2.setFld R.DB_LOG F.DB_LOG.LASTMS (min 65535 secs)).wdReload

/-- NHALT follows the targets halted in the session (it saturates). -/
def State.setHalted (s : State) (l : List Nat) : State :=
  (s.withKpr fun k => { k with halted := l }).setFld R.KPR_STAT F.KPR_STAT.NHALT (min 255 l.length)

/-- The code of MC0 as a target (R407). -/
def mc0Code : Nat := 0x3F0

/-! ### Core watchdogs (R413) -/

/-- A core's watchdog reloads to PERIOD. -/
def State.mcReload (s : State) (c : Nat) : State :=
  { s with mcCount := SMap.set 0 s.mcCount c (s.fld (R.MC_WDT c) F.MC_WDT.PERIOD) }

/-- A write of MC_WDT[c]: KICK reloads it, but for that of a halted MC0. -/
def State.mcWdtWrite (s : State) (c : Nat) (v : HWord) : State :=
  let s1 := s.writeReg (R.MC_WDT c) v
  if v.getLsbD 14 ∧ ¬ (c = 0 ∧ s.core0.halted) then s1.mcReload c else s1

/-- R413. A write of MC_WDT[c] with KICK 1. -/
def execMcWdtKick (c : Fin 2) (v : BitVec 32) (s : State) : Res := .next (s.mcWdtWrite c (v ||| 0x4000))

/-- R413. The watchdog of a core that executes has reached 0. -/
def execMcWatchdogExpiry (c : Fin 2) (s : State) : Res :=
  .next (
    if s.fld (R.MC_WDT c) F.MC_WDT.PERIOD = 0 ∨ (c.val = 0 ∧ s.core0.halted) then s
    else (s.setFld (R.MC_WDT c) F.MC_WDT.EXPD 1).mcReload c)

/-! ### Resuming -/

/-- MC0 is halted, or no longer: KPR_HSTAT follows. `held`: it was halted holding a lock. -/
def State.setMc0 (s : State) (halted pend held : Bool) : State :=
  let s1 : State := { s with core0 := { s.core0 with halted := halted, pend := pend } }
  let n := (if halted then 2 ^ 31 else 0) + (if pend then 2 ^ 30 else 0) + (if held then 2 ^ 29 else 0)
  s1.setReg R.KPR_HSTAT (BitVec.ofNat 32 n)

/-- An engine in HALT returns to RUN, its watchdog reloaded (R144, R410); MC0 goes on, and its watchdog reloads (R411, R413). -/
def State.resumeTarget (s : State) (t : Nat) : State :=
  let s1 := s.setHalted (s.kpr.halted.filter fun x => !decide (x = t))
  if t = mc0Code then (if s.core0.halted ∨ s.core0.pend then (s1.setMc0 false false false).mcReload 0 else s1)
  else
    let g := t - 0x100; let x := s.eng g
    if x.state = .halt then (s1.latchLaunch g).setEng g (s.reloadWdog g { x with state := .run, stall := 0 }) else s1

/-! ### The end of a session -/

/-- The opening, or what is left of a session, is forgotten; requests that wait for the transom still receive their reply (R404). -/
def State.kprClosed (s : State) : State :=
  ((s.withKpr fun k => { inq := k.inq, srcs := k.srcs, src := k.src, uart := k.uart, sync := k.sync, outq := k.outq, late := k.late, skip := k.skip,
                         suspAt := k.suspAt, trans := k.trans }).setFld R.KPR_STAT F.KPR_STAT.STATE 0).setFld R.KPR_STAT F.KPR_STAT.LEVEL 0

/-- A deferred halt of MC0 that a session's end withdraws receives its reply, still in the session, with STATUS STATE (DESIGN CHOICE, log entry
174). -/
def State.haltWithdrawn (s : State) : State :=
  match s.kpr.due with
  | some r => (s.kprReply r 4 []).resumeTarget mc0Code
  | none => s

/-- The session ends (R406), or its opening is abandoned (R405). -/
def State.kprEnd (s : State) : State :=
  if s.kprState = 2 then
    let s2 := (s.kpr.halted.foldl State.resumeTarget s).haltWithdrawn
    let s3 := if s.kpr.susp then s2.suspEnd else s2
    (s3.kprClosed.setHalted []).setFld R.KPR_STAT F.KPR_STAT.SCHG 1
  else s.kprClosed

/-- A channel is lost: a session on it, or its opening, ends. -/
def State.kprLose (s : State) (c : Nat) : State := if s.kprState ≠ 0 ∧ s.kprChan = c then s.kprEnd else s

/-- KPR_CFG has been written: with UEN the Keeper gives UART 3 the settings of Table 17.1 (R401, R402), without it a session there ends (R406). -/
def State.uenSet (s : State) : State :=
  let r := R.UART_CFG 3
  if s.flag R.KPR_CFG F.KPR_CFG.UEN then
    (((s.setFld r F.UART_CFG.EN 1).setFld r F.UART_CFG.PAR 0).setFld r F.UART_CFG.STOP2 0).setFld r F.UART_CFG.DIV 271
  else s.kprLose 1

/-- A write of KPR_CFG. -/
def State.kprCfgWrite (s : State) (v : HWord) : State := (s.writeReg R.KPR_CFG v).uenSet

end Sys2Proof.Machine
end

