-- ==== Sys2Proof/Machine/Config.lean ====
section
/-!
DEFINITION. Configuration memory: the store die (R335, R336), frames and their check words (R341), register entries (R338, R342), what
a frame writes at boot and at run time (R343, R351), and readback (R353).
-/
namespace Sys2Proof.Machine

/-! ### Octets and packed words (R284, R337) -/

/-- The host words of a string of octets, a last incomplete one dropped. -/
def hwOfOctets : List Octet → List HWord
  | a :: b :: c :: d :: rest => BitVec.ofNat 32 (a.toNat + b.toNat * 2 ^ 8 + c.toNat * 2 ^ 16 + d.toNat * 2 ^ 24) :: hwOfOctets rest
  | _ => []

/-- The words of a string of octets in packed format. -/
def packedWords : List Octet → List Word
  | a :: b :: c :: d :: e :: rest =>
    BitVec.ofNat 40 ((((a.toNat * 256 + b.toNat) * 256 + c.toNat) * 256 + d.toNat) * 256 + e.toNat) :: packedWords rest
  | _ => []

/-- The octets of words in packed format. -/
def packedOctets (ws : List Word) : List Octet := ws.flatMap fun w => (wordOctets w).map (BitVec.ofNat 8 ·)

/-! ### The store die (R335) -/

/-- Host word `i` of the store die; erased octets read 0xFF. -/
def State.storeWord (s : State) (i : Nat) : HWord := SMap.get 0xFFFFFFFF s.store i

def State.setStoreWord (s : State) (i : Nat) (v : HWord) : State := { s with store := SMap.set 0xFFFFFFFF s.store i v }

/-- Host word `i` of the image in a slot. -/
def State.slotWord (s : State) (n i : Nat) : HWord := s.storeWord (n * 2 ^ 25 + i)

/-- Does one of `n` host words of the store, from `i` on, stand in a page that the store die cannot correct (R344)? -/
def State.storeUnread (s : State) (i n : Nat) : Bool :=
  s.unread.any fun e => decide (i < 64 * (e.1 + 1) ∧ 64 * e.1 < i + n)

/-! ### Frame addresses (Tables 14.4, 14.5) -/

def fDie (f : Nat) : Nat := f / 2 ^ 23 % 4
def fType (f : Nat) : Nat := f / 2 ^ 20 % 8
def fColumn (f : Nat) : Nat := f / 2 ^ 8 % 64
def fMinor (f : Nat) : Nat := f % 256

/-- The pane of a frame. -/
def fPane (f : Nat) : Nat := fDie f * 64 + f / 2 ^ 17 % 8 * 8 + f / 2 ^ 14 % 8

/-- Is a frame address one of Table 14.5? -/
def frameOk (f : Nat) : Bool :=
  decide (f < 2 ^ 25) &&
  match fType f with
  | 0 => decide (fColumn f % 8 ≠ 4 ∧ fMinor f < 6)
  | 1 => decide (fColumn f < 8 ∧ fMinor f < 2)
  | 2 => decide (fColumn f < 6 ∨ (16 ≤ fColumn f ∧ fColumn f < 20))
  | 3 => decide (fColumn f < 2 ∧ fMinor f < 128)
  | 4 => decide (fColumn f = 0 ∧ fMinor f < 16)
  | _ => false

/-- The engine of an engine-program frame, or of a data memory frame. -/
def fEng (f : Nat) : Nat := 2 * fPane f + (if fType f = 3 then fColumn f else (fColumn f - 16) / 2)

/-- The shutter member whose commits exchange the copies of a cell, route or engine frame. -/
def fMember (f : Nat) : Nat := if fType f = 3 then 0x100 + fEng f else fPane f

/-! ### Check words (R341) -/

/-- The CRC-32 of a frame's data words. -/
def frameCrc (ws : List Word) : Nat := crc32 (ws.flatMap wordOctets)

/-- The data bits of a frame. -/
def frameData (ws : List Word) : List Bool := ws.flatMap fun w => (List.range 40).map fun j => w.getLsbD (39 - j)

/-- n(i): the integers from 3 upward that are not powers of two. -/
def hamPositions : List Nat := (List.range 3934).filter fun n => decide (3 ≤ n ∧ n &&& (n - 1) ≠ 0)

/-- The check bits of the extended Hamming code: bits 0 to 11, and bit 12. -/
def hamming (ws : List Word) : Nat :=
  let bs := (frameData ws).zip hamPositions
  let low := bs.foldl (fun a b => if b.1 then a ^^^ b.2 else a) 0
  let all := bs.foldl (fun a b => a != b.1) false
  let par := (List.range 12).foldl (fun a k => a != low.testBit k) all
  low + (if par then 4096 else 0)

/-- Do the check words of a frame of 100 words match? -/
def frameChecks (ws : List Word) : Bool :=
  decide ((ws.getD 98 0).toNat = frameCrc (ws.take 98) ∧ (ws.getD 99 0).toNat = hamming (ws.take 98))

/-! ### Storing a frame -/

/-- The bits of data word `j` of a frame that Table 14.5 assigns (cell, route and engine frames). -/
def assignedBits (f j : Nat) : Nat :=
  let upto := fun n => if 40 * (j + 1) ≤ n then 2 ^ 40 - 1 else if n ≤ 40 * j then 0 else 2 ^ 40 - 2 ^ (40 * (j + 1) - n)
  match fType f with
  | 0 => if fMinor f = 0 then upto 3456 else if fMinor f < 4 then upto 3072 else upto 3200
  | 1 =>
    if fMinor f = 1 then
      (if j = 1 then 2 ^ 40 - 1 else if j = 2 then 2 ^ 40 - 2 ^ 24 else if j < 13 then 0 else if j = 13 then 2 ^ 16 - 1 else upto 2176)
    else upto 2176
  | _ => upto 3840

/-- A frame's data words as they are stored. -/
def storedWords (f : Nat) (ws : List Word) : List Word :=
  (List.range 98).map fun j => ws.getD j 0 &&& BitVec.ofNat 40 (assignedBits f j)

/-- A check word of a stored frame: 0 the CRC, 1 the Hamming bits. Of a frame never written, those of a frame of zeros. -/
def blankChk (i : Nat) : Word := if i = 0 then BitVec.ofNat 40 (frameCrc (List.replicate 98 0)) else 0

def State.chkWord (s : State) (c f i : Nat) : Word := SMap.get (blankChk i) s.chk ((c * 2 ^ 25 + f) * 2 + i)

def State.setChkWord (s : State) (c f i : Nat) (w : Word) : State :=
  { s with chk := SMap.set (blankChk i) s.chk ((c * 2 ^ 25 + f) * 2 + i) w }

def State.imageBit (s : State) (c f : Nat) : Bool := SMap.get false s.imgBit (c * 2 ^ 25 + f)

def State.setImageBit (s : State) (c f : Nat) (b : Bool) : State := { s with imgBit := SMap.set false s.imgBit (c * 2 ^ 25 + f) b }

/-- The data words of a stored frame. -/
def State.storedFrame (s : State) (c f : Nat) : List Word := (List.range 98).map fun j => s.frameWord c f j

/-- Store the data words of a cell, route or engine frame in copy `c`, with the check words and parity that go with them. -/
def State.putFrame (s : State) (c f : Nat) (ws : List Word) : State :=
  let ws := storedWords f ws
  let s1 := { s with frames := (List.range 98).foldl (fun m j => SMap.set 0 m (frameKey c f j) (ws.getD j 0)) s.frames }
  let s2 := (s1.setChkWord c f 0 (BitVec.ofNat 40 (frameCrc ws))).setChkWord c f 1 (BitVec.ofNat 40 (hamming ws))
  if fType f = 0 ∧ fMinor f < 4 then
    { s2 with lvPar := (List.range 64).foldl (fun m i =>
        let k := 2 * fMinor f + i / 32
        SMap.set 0 m (lvParKey c (fPane f) (fColumn f) (i % 32) k) (louvreParity (s2.louvreAt c (fPane f) (fColumn f) (i % 32) k))) s2.lvPar }
  else if fType f = 3 then
    { s2 with pmBad := (List.range 32).foldl (fun m b => SMap.set 0 m (pmKey c (fEng f) (32 * fMinor f + b)) 0) s2.pmBad }
  else s2

/-- A memory frame's 64 entries or words. -/
def State.putMemory (s : State) (f : Nat) (ws : List Word) : State :=
  (List.range 64).foldl (fun a i =>
    if fColumn f < 6 then
      a.setEntry (fPane f * 6 + fColumn f) (64 * fMinor f + i)
        { word := ws.getD i 0, tag := (ws.getD (64 + i / 40) 0).getLsbD (39 - i % 40) }
    else a.setDm (fEng f) (16384 * (fColumn f % 2) + 64 * fMinor f + i) { word := ws.getD i 0 }) s

/-! ### Register entries (R338, R342) -/

/-- Write the bits `mask` of a register's live fields, and of both copies of its ST fields. -/
def State.putImage (s : State) (row : RegRow) (off : Nat) (mask v : HWord) : State :=
  let m := mask &&& ~~~row.st; let r := s.reg off
  let s1 := if m = 0 then s else s.setReg off ((r &&& ~~~m) ||| (v &&& m))
  let t := mask &&& row.st
  if t = 0 then s1
  else (s1.setStAt 0 off ((s1.stAt 0 off &&& ~~~t) ||| (v &&& t))).setStAt 1 off ((s1.stAt 1 off &&& ~~~t) ||| (v &&& t))

/-- What the image fields of a register start when an entry writes them (R328): a lane, an INIT under AUTO, the companion link, the Keeper's
UART. -/
def State.entryEffect (s old : State) (row : RegRow) (ix : List Nat) : State :=
  match row.kind, ix with
  | .LANE_CTL, [d, l] => if s.laneEn d l ∧ ¬ old.laneEn d l then s.laneOn d l else if old.laneEn d l ∧ ¬ s.laneEn d l then s.laneOff d l else s
  | .LANE_CFG, [d, l] => s.laneCheck d l
  | .LANE_QCLK, [d, q] => (quadLanes q).foldl (fun a l => a.laneCheck d l) s
  | .DDR_CFG, [c] => if s.flag (R.DDR_CFG c) F.DDR_CFG.AUTO then s.ddrInit c else s
  | .UCL_CTL, _ => s.uclCtlWrite (s.reg R.UCL_CTL)
  | .KPR_CFG, _ => s.uenSet
  | _, _ => s

/-- A register entry of an image: its image fields, live and staged (R338, R342, R343, R389). -/
def State.bootEntry (s : State) (off : Nat) (v : HWord) : State :=
  match regAt off with
  | none => s
  | some (row, ix) =>
    if row.img = 0 then s
    else
      let s1 := (s.putImage row off row.img v).entryEffect s row ix
      { s1 with cfg := { s1.cfg with offs := if s1.cfg.offs.contains off then s1.cfg.offs else off :: s1.cfg.offs } }

/-- The blocks of Table 18.1 below 0x100_0000 that a hub entry may name, from their first offset to the one after their last: all but the
security and the deadbolt block (R338). -/
def hubBlocks : List (Nat × Nat) :=
  [(0, 0x40000), (0x60000, 0x70000), (0x80000, 0xD0000), (0x100000, 0x101000), (0x200000, 0x210000), (0x400000, 0x412000),
   (0x418000, 0x419000), (0x800000, 0x900000)]

/-- Is a hub entry's offset one an entry may name (R338)? -/
def hubEntryOk (off : Nat) : Bool := decide (off % 4 = 0) && hubBlocks.any fun b => decide (b.1 ≤ off ∧ off < b.2)

/-- The BAR0 offset a pane-options entry names by its die byte offset, if that lies in a block its pane owns (R342). -/
def paneEntry (pane o : Nat) : Option Nat :=
  let p := pane % 64
  let inside := decide (0x4000 * p ≤ o ∧ o < 0x4000 * (p + 1)) || decide (0x1C0000 + 0x800 * p ≤ o ∧ o < 0x1C0000 + 0x800 * (p + 1)) ||
    decide (0x140000 + 0x1000 * p ≤ o ∧ o < 0x140000 + 0x1000 * (p + 1)) ||
    decide (p % 2 = 0 ∧ 0x100000 + 0x800 * p ≤ o ∧ o < 0x100000 + 0x800 * p + 0x1000)
  if inside ∧ o % 4 = 0 then some (0x1000000 + pane / 64 * 0x400000 + o) else none

/-- The entries of a pane-options frame, in order: `w` writes one; false where an entry is an OPTION failure. -/
def State.paneEntries (s : State) (f : Nat) (ws : List Word) (w : State → Nat → HWord → State) : State × Bool :=
  (List.range 49).foldl (fun (a : State × Bool) e =>
    let x := ws.getD (2 * e) 0
    if ¬ a.2 ∨ ¬ x.getLsbD 39 then a
    else match paneEntry (fPane f) (x.toNat % 2 ^ 22) with
      | none => (a.1, false)
      | some off => (w a.1 off (BitVec.ofNat 32 (ws.getD (2 * e + 1) 0).toNat), true)) (s, true)

/-! ### Frames at boot (R343) -/

/-- What a good frame writes in a boot load, an unpark load or a region reload; none where an option entry fails. -/
def State.bootFrame (s : State) (f : Nat) (ws : List Word) : Option State :=
  match fType f with
  | 2 => some (s.putMemory f ws)
  | 4 =>
    let r := s.paneEntries f ws State.bootEntry
    if r.2 then some r.1 else none
  | _ => some ((((s.putFrame 0 f ws).putFrame 1 f ws).setImageBit 0 f true).setImageBit 1 f true)

/-! ### Frames at run time (Table 14.9) -/

/-- The end of a run-time frame: written, refused with the busy status, or a failure with a cause (Table 14.11). -/
inductive RtEnd where
  | done (s : State)
  | busy (s : State)
  | fail (s : State) (cause : Nat)
  | gone (s : State)

/-- A register entry of a run-time pane-options frame: its ST image fields, in the shadow. -/
def State.rtEntry (s : State) (off : Nat) (v : HWord) : State :=
  match regAt off with
  | none => s
  | some (row, ix) =>
    match stMember row.kind ix with
    | some m => s.writeStaged m off (row.st &&& row.img) v
    | none => s

/-- The armed or undrained members whose ST fields the entries of a pane-options frame name (R114). -/
def State.rtRefusers (s : State) (f : Nat) (ws : List Word) : List Nat :=
  ((List.range 49).filterMap fun e =>
    let x := ws.getD (2 * e) 0
    if ¬ x.getLsbD 39 then none
    else ((paneEntry (fPane f) (x.toNat % 2 ^ 22)).bind regAt).bind fun r => if r.1.st &&& r.1.img = 0 then none else stMember r.1.kind r.2).filter
      s.shadowBusy

/-- What a good frame writes in a run-time stream. A pane-options frame that a member refuses writes nothing; a LOAD's frame of a die that is
being parked is not issued (R298). -/
def State.rtFrame (s : State) (f : Nat) (ws : List Word) : RtEnd :=
  let pane := fPane f; let c := 1 - s.liveCopy (fMember f)
  let busy := s.shadowBusy (fMember f) || (s.pane pane).reload
  if s.dieDark (fDie f) then .fail s 17
  else if s.cfg.feed = .load ∧ s.quiesces (fDie f) then .gone s
  else match fType f with
  | 2 => if (s.pane pane).shut then .done (s.putMemory f ws) else .fail s 15
  | 4 =>
    let no := s.rtRefusers f ws
    if busy then .busy (s.noteRefused pane)
    else if no ≠ [] then .busy (no.foldl State.noteRefused s)
    else
      let r := s.paneEntries f ws State.rtEntry
      if r.2 then .done r.1 else .fail r.1 13
  | 0 =>
    if 4 ≤ fMinor f then .fail s 15
    else if busy then .busy (s.noteRefused pane)
    else .done ((s.putFrame c f ws).setImageBit c f false)
  | _ => if busy then .busy (s.noteRefused (fMember f)) else .done ((s.putFrame c f ws).setImageBit c f false)

/-! ### Readback (R353) -/

/-- A write of CFG_RBSEL. -/
def State.rbselWrite (s : State) (v : HWord) : State :=
  let s1 := s.writeReg R.CFG_RBSEL v
  if ¬ v.getLsbD 31 then s1
  else
    let f := getF v F.CFG_RBSEL.FSEL
    let put := fun (a : State) (os : List Octet) =>
      let hs := hwOfOctets os
      (List.range 125).foldl (fun b n => b.setReg (R.CFG_RBDAT n) (hs.getD n 0)) a
    if ¬ frameOk f ∨ fType f = 2 ∨ fType f = 4 ∨ ¬ s.dieRuns (fDie f) ∨ s.flag R.SEC_STAT F.SEC_STAT.ENC then
      (put s1 []).setFld R.CFG_RBSEL F.CFG_RBSEL.REJ 1
    else
      let c := if getF v F.CFG_RBSEL.PLANE = 0 then s.liveCopy (fMember f) else 1 - s.liveCopy (fMember f)
      let ws := s.storedFrame c f
      put s1 (packedOctets (ws ++ [BitVec.ofNat 40 (frameCrc ws), BitVec.ofNat 40 (hamming ws)]))

def execReadback (v : BitVec 32) (s : State) : Res := .next (s.rbselWrite (v ||| 0x80000000))

/-! ### Store commands (R336) -/

/-- Is a load or a reload reading the store (R336)? -/
def State.storeRead (s : State) : Bool :=
  (match s.cfg.feed with | .slot _ => !s.cfg.loaded | _ => false) || s.cfg.reload.any fun e => (s.pane (fPane e.2)).reload

/-- A write of CFG_SCMD: GO runs a command, or refuses it for every reason that holds. One that comes while a load or a reload reads the
store waits for the end of that read. -/
def State.scmdWrite (s : State) (v : HWord) : State :=
  let busy := s.flag R.CFG_SCMD F.CFG_SCMD.BUSY
  let s1 := s.writeReg R.CFG_SCMD v
  let op := getF v F.CFG_SCMD.OP; let a := s.fld R.CFG_SADR F.CFG_SADR.ADDR
  let slot := a / 2 ^ 27
  let err := decide (a % (if op = 1 then 4 else if op = 2 then 256 else 65536) ≠ 0) || (decide (op = 2) && SMap.get false s.progd (a / 256))
  let lock := decide (op ≠ 1) && (decide (s.cfg.runSlot = some slot) || (decide (slot = 0) && !s.flag R.CFG_BOOT F.CFG_BOOT.GOLDWE))
  if ¬ v.getLsbD 31 ∨ busy ∨ op = 0 ∨ 4 ≤ op then s1
  else if err || lock then
    let s2 := if err then s1.setFld R.CFG_SCMD F.CFG_SCMD.ERR 1 else s1
    if lock then s2.setFld R.CFG_SCMD F.CFG_SCMD.LOCKERR 1 else s2
  else { (s1.setFld R.CFG_SCMD F.CFG_SCMD.BUSY 1) with cfg := { s1.cfg with cmd := (op, a), cmdWaits := s.storeRead } }

def execStoreRead (s : State) : Res := .next (s.scmdWrite 0x80000001)

def execStoreProgram (s : State) : Res := .next (s.scmdWrite 0x80000002)

def execStoreErase (s : State) : Res := .next (s.scmdWrite 0x80000003)

/-- R336. The command that runs ends, failing where `fail`; a READ that fails has found a page that the store die cannot correct, which stays
so until its sector is erased (DESIGN CHOICE, log entry 137). A READ beyond the end of the store reads free values. -/
def execStoreCommandEnd (fail : Bool) (s : State) : Res :=
  let op := s.cfg.cmd.1; let a := s.cfg.cmd.2
  let s1 := (s.setFld R.CFG_SCMD F.CFG_SCMD.BUSY 0).setFld R.CFG_SCMD F.CFG_SCMD.DONE 1
  .next (
    if ¬ s.flag R.CFG_SCMD F.CFG_SCMD.BUSY ∨ (s.cfg.cmdWaits ∧ s.storeRead) then s
    else if fail then
      let s2 := s1.setFld R.CFG_SCMD F.CFG_SCMD.ERR 1
      if op = 1 then { s2 with unread := SMap.set false s2.unread (a / 256) true } else s2
    else match op with
    | 1 => (List.range 64).foldl (fun b n =>
        if a / 4 + n < 2 ^ 27 then b.setReg (R.CFG_SBUF n) (b.storeWord (a / 4 + n))
        else (b.free.2).setReg (R.CFG_SBUF n) (BitVec.ofNat 32 b.free.1)) s1
    | 2 =>
      let s2 := (List.range 64).foldl (fun b n => b.setStoreWord (a / 4 + n) (b.reg (R.CFG_SBUF n))) s1
      { s2 with progd := SMap.set false s2.progd (a / 256) true }
    | _ => { s1 with
        store := s1.store.filter (fun e => !decide (e.1 / 16384 = a / 65536))
        progd := s1.progd.filter (fun e => !decide (e.1 / 256 = a / 65536))
        unread := s1.unread.filter (fun e => !decide (e.1 / 256 = a / 65536)) })

end Sys2Proof.Machine
end

