-- ==== Sys2Proof/Machine/Otp.lean ====
section
/-!
DEFINITION. OTP (R367–R369), the signature of an image (R361–R363), and its encryption (R365).
-/
namespace Sys2Proof.Machine

/-! ### Fields and generations -/

/-- The width of an OTP field (Table 15.2); 0 for the reserved ones. -/
def otpWidth (f : Nat) : Nat := ([64, 384, 384, 384, 256, 384, 16, 32, 32, 64, 32, 64] : List Nat).getD f 0

/-- The check of a value: the CRC-16 of R242 over its bits, most significant first. -/
def otpCrc (f v : Nat) : Nat := crc16 (bitsMsb (otpWidth f) v)

/-- A generation of OTP as the part is delivered: PART and DEVKEY have one, every other field none. PART is that of an HVX4-460 of grade
-G2 (log entry 12). -/
def otpDelivered (k : Nat) : OtpGen :=
  if k = 0 then { val := 0x020B1000, p := true, chk := otpCrc 0 0x020B1000 }
  else if k = 4 then { val := 1, p := true, chk := otpCrc 1 1 }
  else {}

def State.otpGen (s : State) (f g : Nat) : OtpGen := SMap.get (otpDelivered (4 * f + g)) s.otp (4 * f + g)

def State.setOtpGen (s : State) (f g : Nat) (x : OtpGen) : State :=
  { s with otp := SMap.set (otpDelivered (4 * f + g)) s.otp (4 * f + g) x }

/-- Is a generation's check good? -/
def OtpGen.good (x : OtpGen) (f : Nat) : Bool := decide (x.chk = otpCrc f x.val)

/-- The generation that holds a field's active value (R367). -/
def State.otpActive (s : State) (f : Nat) : Option Nat :=
  [3, 2, 1, 0].find? fun g => let x := s.otpGen f g; x.p && !x.v && x.good f

/-- A field's active value. -/
def State.otpVal (s : State) (f : Nat) : Option Nat := (s.otpActive f).map fun g => (s.otpGen f g).val

/-- Show a field in OTP_GEN and OTP_VAL (Table 15.7). -/
def State.showOtp (s : State) (f : Nat) : State :=
  let bit := fun (b : Bool) => if b then 1 else 0
  let pv := ((List.range 4).map fun g => bit (s.otpGen f g).p * 4 ^ g + bit (s.otpGen f g).v * 2 * 4 ^ g).sum
  let bad := ((List.range 4).map fun g => bit ((s.otpGen f g).p && !(s.otpGen f g).good f) * 2 ^ g).sum
  let act := match s.otpActive f with | some g => 2 ^ 19 + g * 2 ^ 16 | none => 0
  let v := if f = 1 ∨ f = 4 then 0 else (s.otpVal f).getD 0
  let s1 := s.setReg (R.OTP_GEN f) (BitVec.ofNat 32 (act + bad * 256 + pv))
  (List.range ((otpWidth f + 31) / 32)).foldl (fun a i => a.setReg (R.OTP_VAL f i) (BitVec.ofNat 32 (v / 2 ^ (32 * i)))) s1

/-- SECCFG and MINSVN (Table 15.2). -/
def State.secCfg (s : State) : Nat := (s.otpVal 7).getD 0
def State.minSvn (s : State) : Nat := (s.otpVal 6).getD 0

/-! ### Commands (R368, R369) -/

/-- Why a command is refused; 0 where it is not. -/
def State.otpRefusal (s : State) (op f : Nat) : Nat :=
  let target := (List.range 4).find? fun g => !(s.otpGen f g).p
  let below := fun (t : Nat) => (List.range t).any fun g => let x := s.otpGen f g; x.p && !x.v && x.good f
  if f ≤ 1 ∨ 12 ≤ f then 1
  else if (s.otpActive f).isSome ∧ ¬ s.flag R.SEC_STAT F.SEC_STAT.PROV then 2
  else if op = 1 ∧ target.any below then 3
  else if op = 1 ∧ target = none then 4
  else if op = 2 ∧ s.otpActive f = none then 5
  else if s.db.out.getLsbD 5 then 6
  else 0

/-- A write of OTP_CMD. -/
def State.otpCmdWrite (s : State) (v : HWord) : State :=
  let op := getF v F.OTP_CMD.OP; let f := getF v F.OTP_CMD.FIELD
  if getF v F.OTP_CMD.KEY ≠ 0x0E7A ∨ s.otpRun ≠ none ∨ op = 0 ∨ op = 3 then s
  else
    let c := s.otpRefusal op f
    if c ≠ 0 then (s.setFld R.OTP_STAT F.OTP_STAT.REJ 1).setFld R.OTP_STAT F.OTP_STAT.CAUSE c
    else
      let g := if op = 1 then ((List.range 4).find? fun g => !(s.otpGen f g).p).getD 0 else (s.otpActive f).getD 0
      let val := ((List.range 12).map fun i => (s.reg (R.OTP_DATA i)).toNat * 2 ^ (32 * i)).sum % 2 ^ otpWidth f
      { (s.setFld R.OTP_STAT F.OTP_STAT.BUSY 1) with otpRun := some ⟨op, f, g, val⟩ }

def execOtpProgram (f : Fin 16) (s : State) : Res :=
  .next (if s.power = .on then s.otpCmdWrite (BitVec.ofNat 32 (0x0E7A0001 + f.val * 256)) else s)

def execOtpVoid (f : Fin 16) (s : State) : Res :=
  .next (if s.power = .on then s.otpCmdWrite (BitVec.ofNat 32 (0x0E7A0002 + f.val * 256)) else s)

/-- What a command writes into OTP. -/
def State.otpApply (s : State) (r : OtpRun) : State :=
  if r.op = 1 then s.setOtpGen r.field r.gen { val := r.val, p := true, chk := otpCrc r.field r.val }
  else s.setOtpGen r.field r.gen { s.otpGen r.field r.gen with v := true }

/-- The test access port's instruction set (R372): every code is there until a source becomes the running image, and from then on only while
SECCFG.JTAGRUN is 1; where it is not, what was in force ends, IDCODE excepted. -/
def State.jtagShow (s : State) : State :=
  let full := !s.tap.booted || s.secCfg.testBit 1
  let s1 := s.setFld R.SEC_STAT F.SEC_STAT.JTAG (if full then 1 else 0)
  if full ∨ s.tap.instr = 1 then s1 else { s1 with tap := { instr := 15, booted := s.tap.booted } }

/-- R369. The command that runs completes; a security field acts at its next use, the others at the next device reset. -/
def execOtpCommandEnd (s : State) : Res :=
  .next (
    match s.otpRun with
    | none => s
    | some r =>
      let s1 := (({ (s.otpApply r) with otpRun := none }.showOtp r.field).setFld R.OTP_STAT F.OTP_STAT.BUSY 0).setFld R.OTP_STAT F.OTP_STAT.DONE 1
      if r.field = 7 then s1.jtagShow else s1)

/-- Power is lost while a command runs: a PROGRAM leaves its generation with P at 0 or with a failing check (R369). -/
def State.otpCut (s : State) : State :=
  match s.otpRun with
  | some r =>
    let p := decide (Config.freeValue s.fresh % 2 = 1)
    let b : State := { s with fresh := s.fresh + 1, otpRun := none }
    if r.op = 1 ∧ p then b.setOtpGen r.field r.gen { val := r.val, p := true, chk := otpCrc r.field r.val + 1 } else b
  | none => s

/-! ### Authentication (R361–R363) -/

/-- An image whose header and signature block have been read: header words, packets as stored, signature block. -/
structure Image where
  head : List HWord
  body : List HWord
  sig : List HWord
  deriving DecidableEq, Repr

/-- Header fields (Table 14.2). -/
def hH (h : List HWord) (i : Nat) : Nat := (h.getD i 0).toNat
def hLen (h : List HWord) : Nat := hH h 1 / 65536
def hDmask (h : List HWord) : Nat := hH h 3 / 65536 % 16
def hImgLen (h : List HWord) : Nat := hH h 4
def hFrames (h : List HWord) : Nat := hH h 5
def hSvn (h : List HWord) : Nat := hH h 6 / 65536
def hEnc (h : List HWord) : Bool := decide (hH h 6 % 2 = 1)
def hSigOfs (h : List HWord) : Nat := hH h 7
def hSigLen (h : List HWord) : Nat := hH h 8
def hNhub (h : List HWord) : Nat := hH h 9

/-- Is a header valid (R338)? -/
def headerOk (h : List HWord) : Bool :=
  decide (hH h 0 = 0x48565834 ∧ hH h 1 % 65536 = 1 ∧ 10 + 2 * hNhub h ≤ hLen h ∧ hLen h ≤ hImgLen h ∧ hImgLen h ≤ hSigOfs h ∧
    hSigOfs h + hSigLen h ≤ 2 ^ 25)

/-- Octets `a` to `a + n − 1` of a signature block. -/
def sigOctets (sig : List HWord) (a n : Nat) : List Octet := ((sig.flatMap hwOctets).drop a).take n

/-- A number of octets, most significant first. -/
def natOfOctets (os : List Octet) : Nat := os.foldl (fun a o => a * 256 + o.toNat) 0

/-- The image digest D (R362). -/
def Image.digest (i : Image) : Nat :=
  Config.sha384 ((i.head ++ i.body).flatMap hwOctets ++ sigOctets i.sig 0 4 ++ sigOctets i.sig 196 28) % 2 ^ 384

/-- Is an image authentic (R363)? -/
def State.authentic (s : State) (i : Image) : Bool :=
  let o := fun a n => sigOctets i.sig a n
  let lmslen := natOfOctets (o 280 4)
  decide (o 0 2 = [1, 0] ∧ ((o 2 1).getD 0 0).toNat ≤ 1 ∧ o 3 1 = [0] ∧ 288 + lmslen ≤ 4 * i.sig.length) &&
    decide (s.otpVal 2 = some (Config.sha384 ([4] ++ o 4 96) % 2 ^ 384)) && Config.ecdsaOk (o 4 96) i.digest (o 100 96) &&
    decide (s.otpVal 3 = some (Config.sha384 (o 224 56) % 2 ^ 384)) && Config.lmsOk (o 224 56) i.digest (o 288 lmslen) &&
    decide (s.minSvn ≤ hSvn i.head) && (hEnc i.head || !s.secCfg.testBit 0)

/-- PROV of an image (Table 15.1). -/
def Image.prov (i : Image) : Bool := ((sigOctets i.sig 2 1).getD 0 0).getLsbD 0

/-! ### Encryption (R365) -/

/-- The nonce of an image. -/
def Image.iv (i : Image) : Nat := natOfOctets (sigOctets i.sig 196 12)

/-- Host word `k` of the packets, decrypted where ENC is 1; `key` is the image key. -/
def Image.plain (i : Image) (key k : Nat) : HWord :=
  let c := i.body.getD k 0
  if hEnc i.head then c ^^^ Config.gcmStream key i.iv k else c

/-- Does the tag verify? -/
def Image.tagOk (i : Image) (key : Nat) : Bool :=
  !hEnc i.head || decide (Config.gcmTag key i.iv i.head i.body % 2 ^ 128 = natOfOctets (sigOctets i.sig 208 16))

/-- Can an image be decrypted with `key`, the active value of IMGKEY if there is one: is it plain, or does its tag verify (R365)? -/
def Image.opens (i : Image) (key : Option Nat) : Bool := !hEnc i.head || key.any i.tagOk

/-- The image in a slot of the store: what its header says is header, packets and signature block. -/
def State.slotImage (s : State) (n : Nat) : Image :=
  let h10 := (List.range 10).map (s.slotWord n)
  { head := (List.range (hLen h10)).map (s.slotWord n)
    body := (List.range (hImgLen h10 - hLen h10)).map fun k => s.slotWord n (hLen h10 + k)
    sig := (List.range (hSigLen h10)).map fun k => s.slotWord n (hSigOfs h10 + k) }

end Sys2Proof.Machine
end

