-- ==== Sys2Proof/Machine/Load.lean ====
section
/-!
DEFINITION. The packet machine of the configuration controller (R339, R340, R351, R352): packets of a boot image and of a run-time
stream, and walks over the frames of a stored image (R299, R356).
-/
namespace Sys2Proof.Machine

/-! ### Where packets come from -/

/-- Change the controller's state. -/
def State.withCfg (s : State) (f : CfgSt → CfgSt) : State := { s with cfg := f s.cfg }

/-- The image key, if IMGKEY has an active value. -/
def State.imgKey (s : State) : Option Nat := s.otpVal 4

/-- Host word `i` of an encrypted or plain image of which `w` gives the stored host words. -/
def State.plainWord (s : State) (h : List HWord) (w : Nat → HWord) (i : Nat) : HWord :=
  if hEnc h then
    let iv := natOfOctets (([49, 50, 51].map fun k => w (hSigOfs h + k)).flatMap hwOctets)
    w i ^^^ Config.gcmStream (s.imgKey.getD 0) iv (i - hLen h)
  else w i

/-- Host word `i` of the image being loaded, if it has been read. A chain image's nonce comes last (Table 15.1): an encrypted one can be
taken only when it is there. -/
def State.imgWord (s : State) (i : Nat) : Option HWord :=
  match s.cfg.feed with
  | .slot n => some (s.plainWord s.cfg.head (s.slotWord n) i)
  | .chain =>
    let ws := hwOfOctets s.cfg.octs
    if ws.length ≤ i ∨ (hEnc s.cfg.head ∧ ws.length < hSigOfs s.cfg.head + 52) then none
    else some (s.plainWord s.cfg.head (fun k => ws.getD k 0) i)
  | _ => none

/-- `n` host words from `i` on as the store holds them, where an image in it is being loaded. -/
def State.rawWords (s : State) (i n : Nat) : List HWord :=
  match s.cfg.feed with | .slot k => (List.range n).map fun j => s.slotWord k (i + j) | _ => []

/-- The image in the slot being loaded as step 5 of Table 14.6 has read it, under the header and the signature block of step 2 (R364). -/
def State.readImage (s : State) : Image :=
  { head := s.cfg.head, body := s.cfg.again ++ s.rawWords s.cfg.pos (hImgLen s.cfg.head - s.cfg.pos), sig := s.cfg.sig }

/-- REG and COUNT of a packet header. -/
def pkReg (h : HWord) : Nat := h.toNat / 2 ^ 24
def pkCount (h : HWord) : Nat := h.toNat % 2 ^ 24

/-- Is REG one of Table 14.3, or a skip packet, with a COUNT that the table lists? -/
def packetOk (h : HWord) : Bool :=
  match pkReg h with
  | 0 => true
  | 3 => decide (pkCount h % 125 = 0)
  | r => decide (r ≤ 8 ∧ pkCount h = 1)

/-- Is a boot image being loaded? -/
def State.booting (s : State) : Bool := match s.cfg.feed with | .slot _ => !s.cfg.loaded | .chain => !s.cfg.loaded | _ => false

/-- The next whole packet of the open stream: its REG, its payload, and the state with the packet taken. -/
def State.nextPacket (s : State) : Option (Nat × List HWord × State) :=
  if s.booting then
    (s.imgWord s.cfg.pos).bind fun h =>
      let n := pkCount h
      let ws := (List.range n).filterMap fun i => s.imgWord (s.cfg.pos + 1 + i)
      if ws.length = n then some (pkReg h, ws, s.withCfg fun c => { c with pos := c.pos + 1 + n, again := c.again ++ s.rawWords c.pos (1 + n) })
      else none
  else match s.cfg.words with
    | [] => none
    | h :: ws =>
      if pkCount h ≤ ws.length then some (pkReg h, ws.take (pkCount h), s.withCfg fun c => { c with words := ws.drop (pkCount h) }) else none

/-! ### Packets of a boot image -/

/-- What a packet of a boot image comes to: the load goes on, or fails with a cause and what R427 puts into CFG_BFSEL. -/
inductive BootEnd where
  | ok (s : State)
  | fail (cause : Nat) (sel : Option Nat)

/-- A run of the octets of a frame's data through the running CRC (R339). -/
def crcRun (c : Nat) (ws : List Word) : Nat := (ws.flatMap wordOctets).foldl crc32Octet c

/-- A frame has been written: the frame select, the count and the running CRC move on. -/
def State.frameDone (s : State) (ws : List Word) : State :=
  s.withCfg fun c => { c with fsel := (c.fsel + 1) % 2 ^ 25, frames := c.frames + 1, crc := crcRun c.crc (ws.take 98) }

/-- Can one of `n` host words of the image being loaded, from `i` on, not be read from the store (R344)? -/
def State.imgUnread (s : State) (i n : Nat) : Bool :=
  match s.cfg.feed with | .slot k => s.storeUnread (k * 2 ^ 25 + i) n | _ => false

/-- Take `n` frames of a boot image, the last of which ends before the stream's next packet; `bad`: the store die cannot correct the read of
the first. -/
def State.bootFrames (s : State) (bad : Bool) : Nat → List HWord → BootEnd
  | 0, _ => .ok s
  | n + 1, hs =>
    let f := s.cfg.fsel; let ws := packedWords ((hs.take 125).flatMap hwOctets)
    if bad || s.imgUnread (s.cfg.pos - 125 * (n + 1)) 125 then .fail 7 (some f)
    else if ¬ frameOk f ∨ ¬ (hDmask s.cfg.head).testBit (fDie f) then .fail 11 (some f)
    else if ¬ frameChecks ws then .fail 9 (some f)
    else match s.bootFrame f ws with
      | none => .fail 13 (some f)
      | some s1 => (s1.frameDone ws).bootFrames false n (hs.drop 125)

/-- Does a start-up order hold each of the five codes once (R348)? -/
def orderOk (v : Nat) : Bool :=
  decide (v < 2 ^ 15) && ([1, 2, 3, 4, 5] : List Nat).all fun k => (List.range 5).any fun i => decide (v / 2 ^ (3 * i) % 8 = k)

/-- One packet of a boot image, which has been taken off the stream (Table 14.3, R340, R344, R364, R365). -/
def State.bootPacket (s : State) (reg : Nat) (ws : List HWord) (bad : Bool) : BootEnd :=
  let v := (ws.getD 0 0).toNat
  let first := s.cfg.pos - ws.length - 1
  if s.imgUnread first (if reg = 0 ∨ reg = 3 then 1 else ws.length + 1) then .fail 7 none
  else if s.cfg.first ∧ ¬ (reg = 4 ∧ v.testBit 8) then .fail 12 none
  else
    let s := s.withCfg fun c => { c with first := false }
    match reg with
    | 0 => .ok s
    | 1 => if ws.getD 0 0 = s.reg R.CFG_IDCODE then .ok s else .fail 2 none
    | 2 => .ok (s.withCfg fun c => { c with fsel := v % 2 ^ 25 })
    | 3 => s.bootFrames bad (ws.length / 125) ws
    | 4 => .ok (if v.testBit 0 then s.withCfg fun c => { c with crc := 0xFFFFFFFF } else s)
    | 5 => if v = s.cfg.crc ^^^ 0xFFFFFFFF then .ok (s.withCfg fun c => { c with crc := 0xFFFFFFFF }) else .fail 10 none
    | 6 => if orderOk v then .ok ((s.withCfg fun c => { c with order := v }).setReg R.CFG_SORDER (ws.getD 0 0)) else .fail 12 none
    | 7 => .ok s
    | _ =>
      let tag : Bool := match s.cfg.feed with
        | .slot _ => s.readImage.opens s.imgKey
        | _ => !hEnc s.cfg.head || s.imgKey.isSome
      let same : Bool := match s.cfg.feed with | .slot _ => decide (s.readImage.digest = s.cfg.digest) | _ => true
      if v ≠ s.cfg.frames ∨ v ≠ hFrames s.cfg.head then .fail 8 none
      else if ¬ tag then .fail 6 none
      else if s.cfg.railOut ∨ ¬ same then .fail 5 none
      else .ok (s.withCfg fun c => { c with loaded := true })

/-- What the next header host word alone already decides: a PACKET failure, or SHORT at the image's end (R339, R340). -/
def State.bootAhead (s : State) : Option Nat :=
  if ¬ s.booting then none
  else if hImgLen s.cfg.head ≤ s.cfg.pos then some 8
  else match s.imgWord s.cfg.pos with
    | none => none
    | some h => if ¬ packetOk h then some 12 else if hImgLen s.cfg.head < s.cfg.pos + 1 + pkCount h then some 8 else none

/-! ### Packets of a run-time stream (R351, R352) -/

/-- Shut a pane, or open it (R352). -/
def State.shutPane (s : State) (pane : Nat) : State :=
  let s1 := (s.engStop (2 * pane)).engStop (2 * pane + 1)
  (s1.setPane pane { s1.pane pane with shut := true }).withCfg fun c => { c with shut := pane :: c.shut.filter (· ≠ pane) }

def State.openPane (s : State) (pane : Nat) : State :=
  let x := s.pane pane
  if ¬ x.shut then s
  else (s.setPane pane { x with shut := false, slot := 0, lapse := x.cycle + 1 }).withCfg fun c => { c with shut := c.shut.filter (· ≠ pane) }

/-- Take `n` frames of a run-time stream. -/
def State.rtFrames (s : State) : Nat → List HWord → RtEnd
  | 0, _ => .done s
  | n + 1, hs =>
    let f := s.cfg.fsel; let ws := packedWords ((hs.take 125).flatMap hwOctets)
    if ¬ frameOk f then .fail s 11
    else if ¬ frameChecks ws then .fail s 9
    else match s.rtFrame f ws with
      | .done s1 => (s1.frameDone ws).rtFrames n (hs.drop 125)
      | e => e

/-- One packet of a run-time stream. -/
def State.rtPacket (s : State) (reg : Nat) (ws : List HWord) : RtEnd :=
  let v := (ws.getD 0 0).toNat
  match reg with
  | 0 => .done s
  | 1 => if ws.getD 0 0 = s.reg R.CFG_IDCODE then .done s else .fail s 2
  | 2 => .done (s.withCfg fun c => { c with fsel := v % 2 ^ 25 })
  | 3 => s.rtFrames (ws.length / 125) ws
  | 4 => if v.testBit 8 then .fail s 15 else .done (if v.testBit 0 then s.withCfg fun c => { c with crc := 0xFFFFFFFF } else s)
  | 5 => if v = s.cfg.crc ^^^ 0xFFFFFFFF then .done (s.withCfg fun c => { c with crc := 0xFFFFFFFF }) else .fail s 10
  | 6 => .done s
  | 7 =>
    let pane := fPane v
    if SMap.get 0 s.armedBy pane ≠ 0 then .busy s
    else .done (if v.testBit 31 then s.shutPane pane else s.openPane pane)
  | _ => if v = s.cfg.frames then .done (s.withCfg fun c => { c with loaded := true }) else .fail s 8

/-- Open a run-time stream (R351). -/
def State.rtOpen (s : State) (load : Bool) : State :=
  (((s.withCfg fun c => { c with
      feed := if load then .load else .rtpkt, words := [], frames := 0, crc := 0xFFFFFFFF, loaded := false }).setFld
    R.CFG_RTSTAT F.CFG_RTSTAT.OPEN 1).setFld R.CFG_RTSTAT F.CFG_RTSTAT.OWNER (if load then 1 else 0))

/-- Host word i of a command. -/
def HCmd.w (c : HCmd) (i : Nat) : Nat := (c.cw.getD i 0).toNat
def HCmd.opc (c : HCmd) : Nat := c.w 0 % 256

/-- A LOAD that passed the open stream has its result (R294, Table 12.7): `n` host words consumed. -/
def State.loadOver (s : State) (rej : Option Nat) (n : Nat) : State :=
  let st := match rej with | none => 0 | some 0 => 1 | some 17 => 2 | some _ => 6
  { s with host := s.host.map fun c =>
      if c.started ∧ c.opc = 5 ∧ c.result = none then
        { c with result := some (st, n, if st = 6 then rej.getD 0 else 0) }
      else c }

/-- A LOAD came to a frame of a die that is being parked, having consumed `n` host words: GONE, with ECODE 5 (R298). -/
def State.loadGone (s : State) (n : Nat) : State :=
  { s with host := s.host.map fun c =>
      if c.started ∧ c.opc = 5 ∧ c.result = none then { c with result := some (7, n, 5) } else c }

/-- Close the run-time stream: at its end, or on a failure or refusal with its cause (0 for a busy refusal). The panes it shut open. `left`: the
host words not consumed. -/
def State.rtClose (s : State) (rej : Option Nat) (left : Nat) : State :=
  let s1 := s.cfg.shut.foldl State.openPane s
  let s2 := (s1.setFld R.CFG_RTSTAT F.CFG_RTSTAT.OPEN 0).setFld R.CFG_RTSTAT F.CFG_RTSTAT.FRAMES s1.cfg.frames
  let s3 := match rej with
    | some c => (s2.setFld R.CFG_RTSTAT F.CFG_RTSTAT.REJ 1).setFld R.CFG_RTSTAT F.CFG_RTSTAT.CAUSE c
    | none => s2
  let s4 := if s.cfg.feed = .load then s3.loadOver rej (s.cfg.pos - left) else s3
  s4.withCfg fun c => { c with
    feed := .none, words := [], loaded := false, pos := 0, quiet := c.quiet || (decide (c.feed = .rtpkt) && rej.isSome) }

/-- The controller takes one packet of the open run-time stream; `left`: the host words of the stream from that packet's header on. -/
def State.rtTake (s : State) (reg : Nat) (ws : List HWord) (left : Nat) : State :=
  match s.rtPacket reg ws with
  | .done s1 => if s1.cfg.loaded then s1.rtClose none s1.cfg.words.length else s1
  | .busy s1 => s1.rtClose (some 0) left
  | .fail s1 c => s1.rtClose (some c) left
  | .gone s1 => (s1.loadGone (s1.cfg.pos - left)).rtClose none left

/-- What the stream's next words already decide: a header not of Table 14.3; and, of a LOAD, its end, or an end inside a packet. -/
def State.rtAhead (s : State) : State :=
  match s.cfg.feed, s.cfg.words with
  | .rtpkt, h :: _ => if packetOk h then s else s.rtClose (some 12) s.cfg.words.length
  | .load, [] => s.rtClose none 0
  | .load, h :: ws =>
    if ¬ packetOk h then s.rtClose (some 12) s.cfg.words.length
    else if ws.length < pkCount h then s.rtClose (some 8) s.cfg.words.length else s
  | _, _ => s

/-- A host word written to CFG_RTPKT (R351, R366). -/
def State.rtpktWrite (s : State) (v : HWord) : State :=
  let refuse := s.setFld R.CFG_RTSTAT F.CFG_RTSTAT.RTREJ 1
  if s.fld R.CFG_BSTAT F.CFG_BSTAT.STATE ≠ 5 ∨ s.cfg.feed = .load ∨ s.cfg.quiet then refuse
  else
    let s1 := if s.cfg.feed = .rtpkt then s else s.rtOpen false
    if s.secCfg.testBit 2 then s1.rtClose (some 15) 0
    else (s1.withCfg fun c => { c with words := c.words ++ [v] }).rtAhead

def execCfgRtpktWrite (v : BitVec 32) (s : State) : Res := .next (s.rtpktWrite v)

/-- R351. 10 ms pass without a write of CFG_RTPKT: the stream closes, or a refused one may be followed by another. -/
def execRtpktStreamTimeout (s : State) : Res :=
  .next (
    if s.cfg.quiet then s.withCfg fun c => { c with quiet := false }
    else if s.cfg.feed = .rtpkt then s.rtClose none 0
    else s)

/-! ### Walks over a stored image -/

/-- Take every packet of the image in slot `n` from host word `pos` on and give each frame with good check words to `g`, which makes `a` of what has
been gathered before; the walk ends with a cause at a bad packet, a bad frame, a page that cannot be read, or where `g` does. `fuel` bounds the
number of packets. -/
def State.walkImage {α : Type} (s : State) (n : Nat) (h : List HWord) (g : α → Nat → List Word → Except Nat α) :
    Nat → Nat → Nat → α → α × Nat
  | 0, _, _, a => (a, 8)
  | fuel + 1, pos, fsel, a =>
    if hImgLen h ≤ pos then (a, 8)
    else if s.storeUnread (n * 2 ^ 25 + pos) (1 + pkCount (s.plainWord h (s.slotWord n) pos)) then (a, 7)
    else
      let hd := s.plainWord h (s.slotWord n) pos
      if ¬ packetOk hd ∨ hImgLen h < pos + 1 + pkCount hd then (a, 12)
      else
        let ws := (List.range (pkCount hd)).map fun i => s.plainWord h (s.slotWord n) (pos + 1 + i)
        let next := pos + 1 + pkCount hd
        match pkReg hd with
        | 2 => s.walkImage n h g fuel next ((ws.getD 0 0).toNat % 2 ^ 25) a
        | 3 =>
          let r := (List.range (ws.length / 125)).foldl (fun (b : α × Nat) k =>
            if b.2 ≠ 0 then b
            else
              let f := (fsel + k) % 2 ^ 25; let w := packedWords (((ws.drop (125 * k)).take 125).flatMap hwOctets)
              if ¬ frameOk f then (b.1, 11)
              else if ¬ frameChecks w then (b.1, 9)
              else match g b.1 f w with | .ok x => (x, 0) | .error c => (b.1, c)) (a, 0)
          if r.2 ≠ 0 then r else s.walkImage n h g fuel next ((fsel + ws.length / 125) % 2 ^ 25) r.1
        | 8 => (a, 0)
        | _ => s.walkImage n h g fuel next fsel a

/-- A walk over the image in the running slot; cause CHAIN where the running image came down the chain (R347). -/
def State.walkRunning {α : Type} (s : State) (g : α → Nat → List Word → Except Nat α) (a : α) : α × Nat :=
  match s.cfg.runSlot with
  | none => (a, 16)
  | some n =>
    let h10 := (List.range 10).map (s.slotWord n)
    let h := (List.range (hLen h10)).map (s.slotWord n)
    s.walkImage n h g (hImgLen h) (hLen h) 0 a

end Sys2Proof.Machine
end

