-- ==== Sys2Proof/Machine/Boot.lean ====
section
/-!
DEFINITION. The packets of configuration streams, boot attempts and their failures (R344–R347), the start-up order and DONE_N (R348–R350),
and reset, power and HOLD (R326–R332).
-/
namespace Sys2Proof.Machine

/-! ### Clearing a fabric die -/

/-- Does a BAR0 offset lie in fabric die d at a die byte offset below `top`? -/
def inDie (d top off : Nat) : Bool := decide (0x1000000 + d * 0x400000 ≤ off ∧ off < 0x1000000 + d * 0x400000 + top)

/-- What the targets and initiators of die d hold is lost, and its credits return. -/
def State.clearTins (s : State) (d : Nat) : State :=
  s.tins.foldl (fun a e => if e.1 / 32768 = d then (a.setTin (e.1 / 8) (e.1 % 8) []).settleTin (e.1 / 8) (e.1 % 8) else a)
    { s with selfCpl := s.selfCpl.filter (fun p => !decide (p.dst / 4096 = d)) }

/-- Die d in its device-reset state (Tables 2.9, 6.12, 7.10): frames, cells, channels, memories, engines, and the registers whose die byte
offset lies below `top`. Its stepping, and whether it is powered down, stay. -/
def State.clearDie (s0 : State) (d top : Nat) : State :=
  let pane := fun k => decide (k / 64 = d)
  let s := s0.clearTins d
  { s with
    regs := SMap.drop s.regs (inDie d top)
    stv := SMap.drop s.stv (fun k => inDie d top (k / 2))
    bank := SMap.drop s.bank (fun m => decide (memberDie m = some d))
    armedBy := SMap.drop s.armedBy (fun m => decide (memberDie m = some d))
    frames := SMap.drop s.frames (fun k => decide (fDie (k / 128) = d))
    chk := SMap.drop s.chk (fun k => decide (fDie (k / 2) = d))
    imgBit := SMap.drop s.imgBit (fun k => decide (fDie k = d))
    lvPar := SMap.drop s.lvPar (fun k => decide (k / 8 % 2 ^ 19 / 131072 = d))
    cells := SMap.drop s.cells (fun k => decide (k / 131072 = d))
    panes := SMap.drop s.panes pane
    chans := SMap.drop s.chans (fun k => pane (k / 64))
    arrays := SMap.drop s.arrays (fun k => pane (k / 16384 / 6))
    queues := SMap.drop s.queues (fun k => pane (k / 4 / 6))
    ports := SMap.drop s.ports (fun k => pane (k / 2 / 6))
    movers := SMap.drop s.movers (fun k => pane (k / 6))
    engs := SMap.drop s.engs (fun k => decide (k / 128 = d))
    dm := SMap.drop s.dm (fun k => decide (k / 32768 / 128 = d))
    pmBad := SMap.drop s.pmBad (fun k => decide (k / 4096 % 512 / 128 = d))
    outst := s.outst.filter fun o => !decide (o.port / 4096 = d)
    quar := s.quar.filter fun q => !decide (q.1 / 4096 = d)
    lanes := SMap.drop s.lanes (fun k => decide (k / 32 = d))
    fpins := SMap.drop s.fpins (fun k => decide (k / 64 = d))
    dies := SMap.upd {} s.dies d fun x => { step := x.step, off := x.off } }

/-! ### DONE_N (R349, R350) -/

/-- The device drives DONE_N low. -/
def State.doneLow (s : State) : State :=
  if s.chn.low then s else { s with chn := { s.chn with low := true, asserted := s.chn.asserted + 1 } }

/-- The device releases DONE_N. -/
def State.doneRelease (s : State) : State :=
  if s.chn.low then { s with chn := { s.chn with low := false, released := s.chn.released + 1 } } else s

/-! ### The image sent down the chain (R302, R347) -/

/-- Do the chain's pairs run: has hub reset been released (R301, Table 13.9)? -/
def State.chainRuns (s : State) : Bool := decide (s.power = .on) && !s.db.cool

/-- What each TX pair sends between packets: K28.5 D16.2 over and over from the release of hub reset, and nothing before (R301). -/
def State.chainIdle (s : State) : List CodeGroup := if s.chainRuns then [.k 0xBC, .d 0x50] else []

/-- A packet as its code groups: K27.7, header, payload, CRC-16 and K29.7 (R302), the CRC's most significant octet first (DESIGN CHOICE, log entry
171). -/
def chainGroups (pk : ChainPkt) : List CodeGroup :=
  let n := pk.payload.length
  .k 0xFB :: ([pk.typ, pk.dst, pk.src, BitVec.ofNat 8 (n / 256), BitVec.ofNat 8 n, pk.seq] ++ pk.payload ++
    [BitVec.ofNat 8 (pk.crc.toNat / 256), BitVec.ofNat 8 pk.crc.toNat]).map .d ++ [.k 0xFD]

/-- A head with FWD sends its running slot down the chain. -/
def State.sendImage (s : State) : State :=
  match s.cfg.runSlot with
  | some n =>
    if s.flag R.CFG_BOOT F.CFG_BOOT.FWD ∧ s.flag R.CHN_STAT F.CHN_STAT.HEAD then
      let h := (List.range 10).map (s.slotWord n)
      let words := hSigOfs h + hSigLen h
      (List.range ((words + 63) / 64)).foldl (fun a i =>
        let os := (List.range (min 64 (words - 64 * i))).flatMap fun j => hwOctets (s.slotWord n (64 * i + j))
        a.sendChain true (chainPk 3 0x80 0 (BitVec.ofNat 8 i) os)) s
    else s
  | none => s

/-! ### Failures (R345, R427) -/

/-- What an attempt that may fail comes to: its cause and what CFG_BFSEL takes. -/
abbrev BootFail := Option (Nat × Option Nat)

/-- Every field set by an entry returns to its reset value. -/
def State.undoEntries (s : State) : State :=
  s.cfg.offs.foldl (fun a off =>
    match regAt off with
    | none => a
    | some (row, ix) => (a.putImage row off row.img (resetVal off)).entryEffect a row ix) s

/-- Give CFG_BSTAT.STATE a value. -/
def State.bootState (s : State) (n : Nat) : State := s.setFld R.CFG_BSTAT F.CFG_BSTAT.STATE n

/-- R345, R427: a failed attempt is cleared. -/
def State.bootClear (s : State) (cause : Nat) (sel : Option Nat) : State :=
  let s1 := ((s.bootState 7).setFld R.CFG_BSTAT F.CFG_BSTAT.CAUSE cause).setReg R.CFG_BFSEL
    (match sel with | some f => BitVec.ofNat 32 (2 ^ 31 + f) | none => 0)
  let ds := (List.range 4).filter fun d => (hDmask s.cfg.head).testBit d
  let s2 := ds.foldl (fun a d => a.clearDie d 0x180000) s1.undoEntries
  let s3 := ((s2.outputsOff.doneLow).setFld R.CFG_BSTAT F.CFG_BSTAT.LOADED 0).setFld R.CFG_BSTAT F.CFG_BSTAT.SRC 0
  let s4 := ((s3.setFld R.SEC_STAT F.SEC_STAT.PROV 0).setFld R.SEC_STAT F.SEC_STAT.ENC 0).setFld R.SEC_STAT F.SEC_STAT.SVN 0
  let s5 := (List.range 12).foldl (fun a i => a.setReg (R.SEC_DIGEST i) 0) s4
  (s5.setReg R.CFG_SORDER (resetVal R.CFG_SORDER)).withCfg fun c =>
    { second := c.second, cmd := c.cmd, cmdWaits := c.cmdWaits, stopped := c.stopped, scrub0 := c.scrub0, scrub1 := c.scrub1 }

/-! ### Attempts (R344, Table 14.6) -/

/-- The source becomes the running image: the test access port keeps IDCODE alone, but under SECCFG.JTAGRUN (R372). -/
def State.jtagEnds (s : State) : State := State.jtagShow { s with tap := { s.tap with booted := true } }

/-- Steps 1 to 4 of an attempt on a header of which everything has been read; `auth`: the signatures, where they can be checked. -/
def State.headChecks (s : State) (h : List HWord) : BootFail :=
  let nib := fun (v d : Nat) => v / 16 ^ d % 16
  let need := (List.range 4).filter fun d => (hDmask h).testBit d
  let steps := (s.reg R.HUB_STEP).toNat
  if ¬ headerOk h then some (1, none)
  else if h.getD 2 0 ≠ s.reg R.CFG_IDCODE then some (2, none)
  else match need.find? (fun d => decide (nib steps d = 0)) with
    | some d => some (3, some (d * 2 ^ 23))
    | none => (need.find? (fun d => decide (nib steps d < nib (hH h 3) d))).map fun d => (4, some (d * 2 ^ 23))

/-- Hub entries applied in order (R338); false at an OPTION failure. -/
def State.hubEntries (s : State) (h : List HWord) : State × Bool :=
  (List.range (hNhub h)).foldl (fun (a : State × Bool) i =>
    let off := hH h (10 + 2 * i)
    if ¬ a.2 then a else if ¬ hubEntryOk off then (a.1, false) else (a.1.bootEntry off (h.getD (11 + 2 * i) 0), true)) (s, true)

/-- An attempt begins. -/
def State.attemptOpen (s : State) (feed : Feed) (second : Bool) : State :=
  let s1 := (s.bootState 1).setFld R.CFG_BSTAT F.CFG_BSTAT.CAUSE 0
  let s2 := s1.setFld R.CFG_BSTAT F.CFG_BSTAT.SLOT (match feed with | .slot n => n | _ => 0)
  s2.withCfg fun c => {
    feed := feed, second := second, cmd := c.cmd, cmdWaits := c.cmdWaits, stopped := c.stopped, scrub0 := c.scrub0, scrub1 := c.scrub1 }

/-- The image becomes the running one: SEC_STAT, SEC_DIGEST, hub entries, and the packets from HLEN on. -/
def State.beginLoad (s : State) (h : List HWord) : State × BootFail :=
  let r := ((s.jtagEnds.withCfg fun c => { c with head := h, pos := hLen h }).bootState 2).hubEntries h
  if ¬ r.2 then (r.1, some (13, none))
  else if hEnc h ∧ r.1.imgKey = none then (r.1, some (6, none))
  else (r.1, r.1.bootAhead.map fun c => (c, none))

/-- What SEC_STAT and SEC_DIGEST say of the running image. -/
def State.showSec (s : State) (i : Image) : State :=
  let bit := fun (b : Bool) => if b then 1 else 0
  let s1 := ((s.setFld R.SEC_STAT F.SEC_STAT.PROV (bit i.prov)).setFld R.SEC_STAT F.SEC_STAT.ENC (bit (hEnc i.head))).setFld
    R.SEC_STAT F.SEC_STAT.SVN (hSvn i.head)
  let d := i.digest
  (List.range 12).foldl (fun a k =>
    a.setReg (R.SEC_DIGEST k) ((hwOfOctets ((List.range 4).map fun j => BitVec.ofNat 8 (d / 256 ^ (47 - (4 * k + j))))).getD 0 0)) s1

/-- Steps 1 to 4 of an attempt on a slot of the store; a read of the header, or of the image or its signatures, that the store die cannot
correct fails with STORE (R344). -/
def State.startSlot (s : State) (n : Nat) (second : Bool) : State × BootFail :=
  let s1 := s.attemptOpen (.slot n) second
  let h10 := (List.range 10).map (s.slotWord n)
  if s.storeUnread (n * 2 ^ 25) 10 then (s1, some (7, none))
  else match s1.headChecks h10 with
  | some f => (s1, some f)
  | none =>
    let i := s.slotImage n
    if s.storeUnread (n * 2 ^ 25) (hImgLen h10) ∨ s.storeUnread (n * 2 ^ 25 + hSigOfs h10) (hSigLen h10) then (s1, some (7, none))
    else if ¬ s1.authentic i then (s1, some (5, none))
    else ((s1.withCfg fun c => { c with runSlot := some n, digest := i.digest, sig := i.sig }).showSec i).beginLoad i.head

/-- R345: after a failure the controller tries slot 0, once; a failure on slot 0 is the end. -/
def State.bootFailed (s : State) (cause : Nat) (sel : Option Nat) : State :=
  let slot0 := decide (s.cfg.feed = .slot 0)
  let s1 := s.bootClear cause sel
  if slot0 then s1.bootState 6
  else
    let s2 := (s1.setFld R.CFG_BSTAT F.CFG_BSTAT.UCAUSE cause).setFld R.CFG_BSTAT F.CFG_BSTAT.FALLBK 1
    match s2.startSlot 0 true with
    | (s3, none) => s3
    | (s3, some (c, f)) => (s3.bootClear c f).bootState 6

/-- The end of a piece of an attempt. -/
def State.bootNext (r : State × BootFail) : State :=
  match r.2 with
  | none => r.1
  | some f => r.1.bootFailed f.1 f.2

/-! ### The start-up order (R348, R349) -/

/-- The dies that the image configures. -/
def State.loadedDies (s : State) : List Nat := (List.range 4).filter fun d => (SMap.get {} s.dies d).loaded

def State.updDie (s : State) (d : Nat) (f : DieSt → DieSt) : State := { s with dies := SMap.upd {} s.dies d f }

/-- Engines leave OFF on a die past both GSR and WRITES (R143). -/
def State.dieStarts (s : State) (d : Nat) : State :=
  if s.dieRuns d then (List.range 128).foldl (fun a e => a.engLeaveOff (d * 128 + e)) s else s

/-- Do the pane loops that LOCK waits for run? -/
def State.panesLocked (s : State) (d : Nat) : Bool :=
  (List.range 64).all fun p => s.flag (R.PANE_CLK d p) F.PANE_CLK.GATE || s.flag (R.PANE_CLK d p) F.PANE_CLK.LOCK

/-- The pane loops of a die that are not gated relock; a gated one stands gated. -/
def State.relockDie (s : State) (d : Nat) : State :=
  (List.range 64).foldl (fun a p =>
    if a.flag (R.PANE_CLK d p) F.PANE_CLK.GATE then a.setFld (R.PANE_CLK d p) F.PANE_CLK.GATED 1
    else if a.flag (R.PANE_CLK d p) F.PANE_CLK.LOCK then a
    else a.setPane (paneId d p) { a.pane (paneId d p) with relocking := true }) s

/-- One event of the order on die d: 2 OUTPUTS, 3 GSR, 4 WRITES. While GSR is held the queues are empty and their counters 0 (R172,
R179). -/
def State.dieEvent (s : State) (d code : Nat) : State :=
  match code with
  | 2 => s.fpinsOn d
  | 3 => ({ s.updDie d fun x => { x with gsr := true } with
      queues := SMap.drop s.queues fun k => decide (k / 4 / 6 / 64 = d) } : State).dieStarts d
  | _ => (s.updDie d fun x => { x with writes := true }).dieStarts d

/-- The settings of a die's blocks have become live: OVL is set where regions overlap (R152). -/
def State.dieOverlaps (s : State) (d : Nat) : State :=
  (List.range 384).foldl (fun a i => a.noteOverlaps (d * 64 + i / 6) (i % 6) []) s

/-- The order goes on from where it stands, as far as it can; OUTPUTS ends when every pin has handed over (R348). -/
def State.advanceOrder (s : State) : Nat → State
  | 0 => s
  | fuel + 1 =>
    let step := fun (a : State) => (a.withCfg fun c => { c with place := c.place + 1 }).advanceOrder fuel
    if 5 ≤ s.cfg.place then
      let s1 := (s.bootState 5).withCfg fun c => { c with up := false, feed := .none, words := [], octs := [] }
      { s1 with db := { s1.db with sinceDone := 0 } }
    else match s.cfg.order / 8 ^ s.cfg.place % 8 with
      | 1 =>
        if s.flag R.CLK_HLSTAT (lockF 0) ∧ s.flag R.CLK_HLSTAT (lockF 1) ∧ s.loadedDies.all s.panesLocked then step s else s
      | 5 => if s.chn.low then (s.doneRelease.bootState 4).sendImage else s
      | 2 =>
        let on := s.outputs && s.loadedDies.all fun d => (SMap.get {} s.dies d).outputs
        let s1 := if on then s else s.loadedDies.foldl (fun a d => a.dieEvent d 2) s.outputsOn
        if s1.handing s.loadedDies then s1 else step s1
      | c => step (s.loadedDies.foldl (fun a d => a.dieEvent d c) s)

/-- The order goes on if it runs. -/
def State.orderOn (s : State) : State := if s.cfg.up then s.advanceOrder 6 else s

/-- Step 7 of an attempt begins: the order runs. -/
def State.startUp (s : State) : State :=
  let m := hDmask s.cfg.head
  let ds := (List.range 4).filter m.testBit
  let s1 := ((s.bootState 3).setFld R.CFG_BSTAT F.CFG_BSTAT.LOADED m).setReg R.CFG_SORDER (BitVec.ofNat 32 s.cfg.order)
  let s2 := ds.foldl (fun a d => ((a.updDie d fun x => { x with loaded := true }).dieOverlaps d).relockDie d) s1
  (s2.withCfg fun c => { c with up := true, place := 0 }).orderOn

/-- The pane loop has relocked to its die's reference: its clocks restart (R85, R314). -/
def State.paneRelocked (s : State) (pane : Nat) : State :=
  let r := paneClk pane
  if (s.pane pane).relocking ∧ ¬ s.flag r F.PANE_CLK.GATE ∧ s.hasPref (pane / 64) then
    let s1 := ((s.setFld r F.PANE_CLK.LOCK 1).setFld r F.PANE_CLK.GATED 0).setPane pane { s.pane pane with relocking := false }
    ((s1.clocksResume pane).routerResume pane).brdResume pane
  else s

/-- R85, R348. -/
def execPaneRelock (d : Fin 4) (p : Fin 64) (s : State) : Res := .next (s.paneRelocked (paneId d p)).orderOn

/-- R321. A hub loop that has been locked relocks; it stays on fallback until its SRC is written (R322). Hinges that wait for the hub loops go on with
their training. -/
def execHubLoopRelock (n : Fin 4) (s : State) : Res :=
  let s1 : State := { s with clk := { s.clk with cant := s.clk.cant &&& ~~~ BitVec.ofNat 4 (2 ^ n.val) } }
  .next (if s.loopOn n ∧ ¬ s.unlocked3 n then (s1.setFld R.CLK_HLSTAT (lockF n) 1).trainOn.orderOn else s1)

/-- R348. LOCK has not ended after 2 ms. -/
def execLockTimeout (s : State) : Res :=
  .next (if s.cfg.up ∧ s.cfg.place < 5 ∧ s.cfg.order / 8 ^ s.cfg.place % 8 = 1 then s.bootFailed 14 none else s)

/-- Is the device waiting for DONE_N at its DONE position? -/
def State.waitsDone (s : State) : Bool :=
  s.cfg.up && decide (s.cfg.place < 5 ∧ s.cfg.order / 8 ^ s.cfg.place % 8 = 5) && !s.chn.low

/-- R349. DONE_N has been high for 1 µs. -/
def execDoneNHigh (s : State) : Res :=
  .next (
    if s.waitsDone then
      ({ s with chn := { s.chn with seen := s.chn.seen + 1 } }.withCfg fun c => { c with place := c.place + 1 }).orderOn
    else s)

/-- R349. The wait has lasted DTO × 100 ms. -/
def execDoneTimeout (s : State) : Res :=
  .next (
    if s.waitsDone ∧ s.fld R.CFG_BOOT F.CFG_BOOT.DTO ≠ 0 then
      ((s.setFld R.CFG_BSTAT F.CFG_BSTAT.DONETO 1).withCfg fun c => { c with place := c.place + 1 }).orderOn
    else s)

/-! ### Packets (Table 14.3) -/

/-- An image that came down the chain (R347): header, packets, signature block. -/
def State.chainImage (s : State) : Image :=
  let ws := hwOfOctets s.cfg.octs; let h := s.cfg.head
  { head := h, body := (ws.take (hImgLen h)).drop (hLen h), sig := (ws.drop (hSigOfs h)).take (hSigLen h) }

/-- Has all of a chain image arrived? -/
def State.chainWhole (s : State) : Bool :=
  decide (s.cfg.head ≠ [] ∧ 4 * (hSigOfs s.cfg.head + hSigLen s.cfg.head) ≤ s.cfg.octs.length)

/-- The load has ended with CFG_END: an image from the store starts up; one from the chain does when it has been authenticated as well. -/
def State.loadEnded (s : State) : State × BootFail :=
  match s.cfg.feed with
  | .chain =>
    if ¬ s.chainWhole then (s, none)
    else
      let i := s.chainImage
      if ¬ s.authentic i ∨ s.cfg.railOut then (s, some (5, none))
      else if ¬ i.opens s.imgKey then (s, some (6, none))
      else ((s.showSec i).startUp, none)
  | _ => (s.startUp, none)

/-- The next packet of the open stream is taken, if it is whole and for register `reg`. -/
def State.takeReg (s : State) (reg : Nat) (bad : Bool) : State :=
  match s.nextPacket with
  | none => s
  | some (r, ws, s1) =>
    if r ≠ reg then s
    else if s.booting then
      match s1.bootPacket reg ws bad with
      | .fail c sel => s1.bootFailed c sel
      | .ok s2 => State.bootNext (if s2.cfg.loaded then s2.loadEnded else (s2, s2.bootAhead.map fun c => (c, none)))
    else (s1.rtTake reg ws s.cfg.words.length).rtAhead

/-- R339. -/
def execSkipPacket (s : State) : Res := .next (s.takeReg 0 false)

def execCfgIdcode (s : State) : Res := .next (s.takeReg 1 false)

def execCfgFsel (s : State) : Res := .next (s.takeReg 2 false)

/-- R341. `bad`: the store die cannot correct the read (STORE). -/
def execCfgFload (bad : Bool) (s : State) : Res := .next (s.takeReg 3 bad)

def execCfgCtl (s : State) : Res := .next (s.takeReg 4 false)

def execCfgCrc (s : State) : Res := .next (s.takeReg 5 false)

/-- R348. -/
def execCfgStartOrder (s : State) : Res := .next (s.takeReg 6 false)

/-- R352. -/
def execCfgShut (s : State) : Res := .next (s.takeReg 7 false)

/-- R340. -/
def execCfgEnd (s : State) : Res := .next (s.takeReg 8 false)

/-! ### The reset order (R326, R327, Tables 13.7, 13.8) -/

/-- Everything but OTP, the store die, CLK_RSTCAUSE, and what is outside the device's blocks: levels at its balls, the dies' steppings, the
hinges' leaves, the hub loops that cannot lock, the pages of the store that cannot be read. -/
def State.resetBlocks (s : State) : State :=
  let cause := s.reg R.CLK_RSTCAUSE
  let s1 : State := {
    otp := s.otp, otpRun := s.otpRun, store := s.store, progd := s.progd, unread := s.unread
    pins := s.pins.filterMap fun e => if e.2.raw then some (e.1, { raw := true }) else none
    dies := s.dies.filterMap fun e => let x : DieSt := { step := e.2.step }; if x = {} then none else some (e.1, x)
    hinges := s.hinges.filterMap fun e => let x : HingeSt := { good := e.2.good }; if x = {} then none else some (e.1, x)
    clk := { cant := s.clk.cant }
    fresh := s.fresh, out := s.out, pending := s.pending }
  let s2 := s1.setReg R.CLK_RSTCAUSE cause
  if s.otpRun = none then s2 else s2.setFld R.OTP_STAT F.OTP_STAT.BUSY 1

/-- The registers that OTP gives, and CFG_IDCODE by VARIANT (Table 14.10). Field PART supplies VARIANT, SPEED, TEMP and PKG; HUBSTEP is the
hub die's own, 0xB (R3). DESIGN CHOICE (log entry 12): Table 15.2 gives no layout; the model takes the four fields at their places of
HUB_PARTID in PART[31:0], and VREQ in PART[36:32]. -/
def State.loadOtp (s : State) : State :=
  let part := (s.otpVal 0).getD 0; let clk := (s.otpVal 9).getD 0
  let boot := (s.otpVal 8).getD 0; let chn := (s.otpVal 10).getD 0
  let hw := BitVec.ofNat 32
  let s1 := (List.range 12).foldl State.showOtp s
  let s2 := (s1.setReg R.HUB_PARTID ((hw part &&& 0xFFF0F000) ||| 0x000B0000)).setFld R.CLK_VFAB F.CLK_VFAB.VREQ (bitsOf part 36 32)
  let s3 := s2.setReg R.CFG_IDCODE (if s2.hasCompanion then 0x14600A35 else 0x04600A35)
  let s4 := ((s3.setReg R.CLK_XCFG (hw clk &&& 0x9FFF9FFF)).setReg R.CLK_HLCFG (hw (bitsOf clk 39 32))).setReg R.CM_CFG
    (hw (bitsOf clk 45 40))
  (s4.setReg R.CFG_BOOT (hw boot &&& 0xF8FF0000)).setReg R.CHN_CFG (hw chn &&& 0xE000000F)

/-- Step 4: HL0 and HL1 lock, and their consumers move from FOSC, where the loop cannot lock excepted (R327). -/
def State.lockLoops (s : State) : State :=
  [0, 1].foldl (fun a n =>
    let b := (a.startLoop n).lockLoop n
    if a.clk.cant.getLsbD n then b else b.setMux (4 + n) 1) s

/-- Steps 3 to 6: OTP is read, the loops lock, and the hinges begin to train. A part whose Jenwyn fields have no active value stays at
step 3. -/
def State.resetGoes (s : State) : State :=
  if (s.otpVal 0).isNone ∨ (s.otpVal 1).isNone then s
  else
    let s1 := s.loadOtp.lockLoops
    let s2 := (List.range 6).foldl State.trainHinge { s1 with cfg := { s1.cfg with due := true } }
    { s2 with db := { s2.db with count := s2.wdper } }

/-- A device reset with a cause; `wake`: the bell pins that ended HOLD, whose pads stay latched with every other pin's, under the settings of
pins at rest (R332, R390). DBPOL is taken (R367; log entry 138). -/
def State.deviceReset (s : State) (cause : Nat) (wake : Option Nat) : State :=
  let b := s.resetBlocks
  let s1 := ((b.setFld R.CLK_RSTCAUSE F.CLK_RSTCAUSE.CAUSE cause).addSat R.CLK_RSTCAUSE F.CLK_RSTCAUSE.COUNT 1).doneLow
  let s2 := match wake with
    | some w =>
      let a : State := { (s1.setFld R.CLK_RSTCAUSE F.CLK_RSTCAUSE.WAKE w) with pins := s.pins, fpins := s.fpins }
      (List.range 64).foldl (fun (b : State) k => b.setPin k { b.pin k with old := b.pinAtRest k }) a
    | none => s1
  let s3 := (List.range 64).foldl (fun a k => (a.setPin k { a.pin k with filt := (a.pin k).raw }).showPin k) s2
  let s4 : State := { s3 with db := { s3.db with pol := s.otpVal 11 } }
  let s4 : State := { s4 with db := { s4.db with count := s4.wdper } }
  if cause = 6 then { s4 with db := { s4.db with cool := true } } else s4.resetGoes

/-- Step 7 of the reset order begins (R344), and PIN_STAT.BELL takes the bell pins' levels (R390). -/
def State.bootBegin (s : State) : State :=
  let missing := ((List.range 4).map fun d => if s.fld R.HUB_STEP (stepFld d) = 0 then 2 ^ d else 0).sum
  let recov := s.flag R.CFG_BOOT F.CFG_BOOT.RECOV && !(s.pin 3).filt
  let chain := s.flag R.CFG_BOOT F.CFG_BOOT.SRC
  let bell := ((List.range 4).map fun k => if (s.pin k).filt then 2 ^ k else 0).sum
  let s1 := ((s.setFld R.CFG_BSTAT F.CFG_BSTAT.MISSING missing).setFld R.CFG_BSTAT F.CFG_BSTAT.RECOV (if recov && !chain then 1 else 0)).setFld
    R.PIN_STAT F.PIN_STAT.BELL bell
  if chain then s1.attemptOpen .chain false
  else State.bootNext (s1.startSlot (if s.flag R.CFG_BOOT F.CFG_BOOT.UPDEN && !recov then 1 else 0) false)

/-- R273. Every hinge has trained or failed: the feature level is fixed, and the reset order goes on to step 7. -/
def execFeatureLevelFixed (s : State) : Res :=
  let s1 := s.fixLevel
  .next (if s.hingesSettled ∧ s.cfg.due then (s1.withCfg fun c => { c with due := false }).bootBegin else s1)

/-! ### Resets and power -/

/-- R326, R333. Every supply is good and PWRGOOD and HRESET_N are high: the power-on reset, after a loss of power. -/
def execPowerOn (s : State) : Res :=
  .next (if s.power = .off then (s.setReg R.CLK_RSTCAUSE 0).deviceReset 0 none else s)

/-- R326. HRESET_N rises after it has been low. -/
def execHreset (s : State) : Res := .next (if s.power = .off then s else s.deviceReset 1 none)

/-- A write of CLK_RST. -/
def State.clkRstWrite (s : State) (v : HWord) : State :=
  if getF v F.CLK_RST.KEY = 0xC1A5 ∧ v.getLsbD 0 then s.deviceReset 2 none else s

def execClkRstDev (v : BitVec 32) (s : State) : Res := .next (if s.power = .on then s.clkRstWrite v else s)

/-- R333. The board drives PWRGOOD low and power goes: all is lost but OTP and the store die. -/
def execPwrgoodFall (s : State) : Res := .next { s.otpCut.resetBlocks with regs := [], power := .off }

/-- The registers that stay in HOLD: the deadbolt block's, CLK_HOLD and CLK_RSTCAUSE, and those whose values the partition's monitors go by
(R319, R334, R373, R376; log entry 139). -/
def deadboltOwn (off : Nat) : Bool :=
  decide (0x50000 ≤ off ∧ off < 0x60000) || [R.CLK_HOLD, R.CLK_RSTCAUSE, R.CLK_XCFG, R.CLK_VFAB, R.HUB_PARTID].contains off

/-- A write of CLK_HOLD (R331). -/
def State.holdWrite (s : State) (v : HWord) : State :=
  let s1 := s.writeReg R.CLK_HOLD v
  if getF v F.CLK_HOLD.KEY ≠ 0xC1A5 ∨ ¬ v.getLsbD 0 then s1
  else if s.flag R.HUB_PCTL F.HUB_PCTL.BUSY ∨ (List.range 8).any (fun t => decide (s.armState t = 1)) then
    s1.setFld R.CLK_HOLD F.CLK_HOLD.HREJ 1
  else
    let s2 := (List.range 64).foldl (fun a k => let o := s.pad k; a.latchPin k o.1 o.2 (s.pinCfg k)) s1
    let s3 := (List.range 192).foldl (fun a i => a.latchFpin (i / 48) (i % 48) (s.fpad (i / 48) (i % 48)) (s.fpull (i / 48) (i % 48))) s2
    let keep := s3.otpCut.resetBlocks
    { keep with
      regs := s3.regs.filter fun e => deadboltOwn e.1, pins := s3.pins, fpins := s3.fpins, db := s3.db, power := .hold
      clk := { keep.clk with bad := s3.clk.bad, foscBad := s3.clk.foscBad } }

def execClkHoldGo (v : BitVec 32) (s : State) : Res := .next (if s.power = .on then s.holdWrite v else s)

/-- In HOLD the filtered levels of the bell pins that `ks` names become those of `levels`: an edge of BELLPOL's polarity on an enabled one, whose
driver was off when HOLD was entered, ends HOLD (R332, R390). -/
def State.bellLevels (s : State) (ks levels : BitVec 4) : State :=
  let h := s.reg R.CLK_HOLD
  let wakes := fun (k : Nat) => ks.getLsbD k && !(s.pin k).heldEn && decide ((s.pin k).filt ≠ levels.getLsbD k) &&
    (getF h F.CLK_HOLD.BELLEN).testBit k && decide (levels.getLsbD k ≠ (getF h F.CLK_HOLD.BELLPOL).testBit k)
  let s1 := (List.range 4).foldl (fun a k =>
    if ks.getLsbD k ∧ ¬ (a.pin k).heldEn then
      a.setPin k { a.pin k with filt := levels.getLsbD k, raw := levels.getLsbD k != decide (getF (a.pinCfg k) F.PIN_CFG.INV = 1) }
    else a) s
  let w := ((List.range 4).map fun k => if wakes k then 2 ^ k else 0).sum
  if w = 0 then s1 else s1.deviceReset 5 (some w)

/-- R332. In HOLD the filtered levels of bell pins change, those that `ks` names at one moment. -/
def execBellWake (ks levels : BitVec 4) (s : State) : Res := .next (if s.power ≠ .hold then s else s.bellLevels ks levels)

/-- R385, R386. The ball of pin k has been sampled at `raw` for the last `ticks` ticks of its filter, `dt` TBU edges after the last
command. In HOLD the filters of the bell pins run on (R332, R390). -/
def execPinInputEdge (k : Fin 64) (raw : Bool) (ticks dt : Nat) (s : State) : Res :=
  let s1 := s.tbuEdges dt
  let s2 := s1.setPin k { s1.pin k with raw := raw }
  let c := s2.pinCfg k; let l := raw != decide (getF c F.PIN_CFG.INV = 1)
  .next (
    if s.power = .off then s2
    else if s.power = .hold then
      (if k.val < 4 ∧ getF c F.PIN_CFG.FTICKS ≤ ticks then s2.bellLevels (BitVec.ofNat 4 (2 ^ k.val)) (if l then 15 else 0) else s2)
    else if getF c F.PIN_CFG.FTICKS ≤ ticks then s2.filtered k l
    else s2.levelInt k)

/-- R388. The pins of a bank whose settings change have handed over; the start-up order, if it waits for that, goes on (R348). -/
def execPinHandover (b : Fin 8) (s : State) : Res := .next (s.handover b).orderOn

end Sys2Proof.Machine
end

