-- ==== Sys2Proof/Machine/Deadbolt.lean ====
section
/-!
DEFINITION. The deadbolt partition (R373–R379): its monitors, its watchdog, SC, and the check of FOSC (R323).
-/
namespace Sys2Proof.Machine

/-! ### Monitors (R375, R376) -/

/-- The range of rail i in mV (Table 13.11, R334). -/
def State.railRange (s : State) (i : Nat) : Nat × Nat :=
  if i < 4 then
    let v := 720 + 5 * min 16 (s.fld R.CLK_VFAB F.CLK_VFAB.VREQ)
    (max 720 (v - 10), min 800 (v + 10))
  else ([(776, 824), (1746, 1854), (873, 927), (1164, 1236), (1067, 1133)] : List (Nat × Nat)).getD (i - 4) (0, 0)

/-- Count a sample without the condition, up to `top`. -/
def okCount (m : SMap Nat) (i top : Nat) (good : Bool) : SMap Nat := SMap.set 0 m i (if good then min top (SMap.get 0 m i + 1) else 0)

/-- Do steps 2 to 6 of a boot attempt run (R364)? Step 1 lasts until the header has been checked. -/
def State.attemptRuns (s : State) : Bool :=
  let st := s.fld R.CFG_BSTAT F.CFG_BSTAT.STATE
  decide (s.cfg.feed ≠ .none ∧ s.cfg.head ≠ []) && (decide (st = 1) || decide (st = 2))

/-- R375. Monitor i samples its rail at `mv` mV: the second sample in succession outside the range is a report; that of a parked die's VCC_FAB
reports nothing. SC clears VOUT once no sample of 10 ms, which is 10,000, has been a report (R379). -/
def execVoltageSample (i : Fin 9) (mv : BitVec 12) (s : State) : Res :=
  let r := s.railRange i
  let bad := decide (mv.toNat < r.1 ∨ r.2 < mv.toNat)
  let parked := decide (i.val < 4) && (SMap.get {} s.dies i).off
  let bit := BitVec.ofNat 9 (2 ^ i.val)
  let note := fun (x : BitVec 9) (b : Bool) => if b then x ||| bit else x &&& ~~~ bit
  let twice := bad && !parked && s.db.rails.getLsbD i
  .next (
    if s.power = .off then s
    else
      let s2 := (s.setReg (R.DB_VOLT i) (mv.setWidth 32)).withDb fun d => { d with
        rails := note d.rails (bad && !parked), out := note d.out twice, okV := okCount d.okV i 10000 (!twice) }
      if twice then
        let s3 := (s2.setFld R.DB_VSTAT ⟨i, i⟩ 1).setFld R.HUB_INTEGRITY F.HUB_INTEGRITY.ROC 1
        if s.attemptRuns then s3.withCfg fun c => { c with railOut := true } else s3
      else if SMap.get 0 s2.db.okV i = 10000 ∧ ¬ s.db.scDead then s2.setFld R.DB_VSTAT ⟨i, i⟩ 0
      else s2)

/-- The lower temperature limit of the grade, in steps of 0.125 °C (Table 0.1). -/
def State.gradeLow (s : State) : Int := if s.fld R.HUB_PARTID F.HUB_PARTID.TEMP = 1 then -320 else 0

/-- A sensor's last reading, in steps of 0.125 °C. -/
def State.temp (s : State) (i : Nat) : Int := signedOf 12 (s.fld (R.DB_TEMP i) F.DB_TEMP.T)

/-- A reset order that waits at step 2 goes on when every sensor has been sampled since and reads below TTRIP − 15 °C. -/
def State.coolCheck (s : State) : State :=
  if s.db.cool ∧ s.db.seen = BitVec.allOnes 19 ∧ (List.range 19).all (fun i => decide (s.temp i < 8 * ((s.ttrip : Int) - 15))) then
    (s.withDb fun d => { d with cool := false }).resetGoes
  else s

/-- R376. Sensor i reads `t`, in steps of 0.125 °C. SC clears WARN when every sensor has read below TWARN for 10 ms, which is 100 samples
(R379). -/
def execTemperatureSample (i : Fin 19) (t : BitVec 12) (s : State) : Res :=
  let v : Int := t.toInt
  .next (
    if s.power = .off then s
    else
      let warn := decide (8 * (s.twarn : Int) ≤ v)
      let s1 := (s.setReg (R.DB_TEMP i) (t.setWidth 32)).withDb fun d =>
        { d with seen := d.seen ||| BitVec.ofNat 19 (2 ^ i.val), okT := okCount d.okT i 100 (!warn) }
      let s2 :=
        if s.db.scDead then s1
        else
          let a := if 800 < v ∨ v < s.gradeLow then s1.setFld R.HUB_INTEGRITY F.HUB_INTEGRITY.ROC 1 else s1
          let b :=
            if warn then a.setFld R.DB_TSTAT F.DB_TSTAT.WARN 1
            else if (List.range 19).all (fun k => decide (SMap.get 0 s1.db.okT k = 100)) then a.setFld R.DB_TSTAT F.DB_TSTAT.WARN 0
            else a
          if 8 * (s.ttrip : Int) ≤ v then (b.withDb fun d => { d with tripped := true }).setFld R.DB_TSTAT F.DB_TSTAT.TRIP 1 else b
      s2.coolCheck)

/-- R376. 1 ms after a trip, by SC, whether or not TRIP has been cleared since; or at 125 °C, by the comparator. -/
def execThermalTripReset (s : State) : Res :=
  let trip := s.db.tripped && !s.db.scDead
  .next (if s.power ≠ .off ∧ (trip ∨ (List.range 19).any (fun i => decide (1000 ≤ s.temp i))) then s.deviceReset 6 none else s)

/-! ### The watchdog (R377, R378) -/

/-- R377. The count reaches 0; while a suspension is in force it stands still. -/
def execDeadboltWatchdogExpiry (s : State) : Res :=
  .next (
    if s.power = .off ∨ s.flag R.DB_WDT F.DB_WDT.SUSP then s
    else if s.db.grace then s.deviceReset 3 none
    else (s.withDb fun d => { d with count := s.wdgrace, grace := true }).setFld R.DB_WDT F.DB_WDT.EXP 1)

/-- A write of HUB_DBBEAT. -/
def State.heartbeat (s : State) (v : HWord) : State :=
  let s1 := s.setReg R.HUB_DBBEAT v
  let good : Bool := match s.db.beat with | none => true | some b => decide (v.toNat = (b + 1) % 2 ^ 32)
  if s.db.scDead then s1
  else if good then (s1.withDb fun d => { d with beat := some v.toNat }).wdReload
  else s1.addSat R.DB_WDT F.DB_WDT.BADBEAT 1

/-- R378. -/
def execHeartbeat (v : BitVec 32) (s : State) : Res := .next (if s.power = .on then s.heartbeat v else s)

/-- R378. A further 1 ms has passed: SC reloads the watchdog itself until WDSTART ms after DONE, in HOLD and in FAILED. -/
def execScWatchdogReload (s : State) : Res :=
  let done := decide (s.fld R.CFG_BSTAT F.CFG_BSTAT.STATE = 5 ∧ s.power = .on)
  .next (
    if s.power = .off then s
    else
      let s1 := if done then s.withDb fun d => { d with sinceDone := d.sinceDone + 1 } else s
      if ¬ s.db.scDead ∧ (¬ done ∨ s.db.sinceDone < s.wdstart) then s1.wdReload else s1)

/-- R374. -/
def execLockstepDisagreement (s : State) : Res :=
  .next (if s.power = .off then s else (s.withDb fun d => { d with scDead := true }).setFld R.DB_STAT F.DB_STAT.LSERR 1)

/-- R323. A window of 256 SOSC ticks ends with `n` cycles of FOSC. -/
def execFoscCheckWindow (n : Nat) (s : State) : Res :=
  let bad := decide (10 * n < 7 * 51200 ∨ 13 * 51200 < 10 * n)
  .next (
    if s.power = .off then s
    else if bad ∧ s.clk.foscBad then s.deviceReset 4 none
    else { s with clk := { s.clk with foscBad := bad } })

/-! ### Suspension (R378, R414) -/

/-- R414. Its duration runs out. -/
def execWatchdogSuspensionEnd (s : State) : Res := .next s.suspEnd

/-- A write to the deadbolt block from outside SC: ignored, and noted with its writer (R373, Table 15.8). -/
def State.denyWrite (s : State) (src : Nat) : State :=
  (s.setFld R.DB_STAT F.DB_STAT.DENY 1).setFld R.DB_STAT F.DB_STAT.DSRC src

end Sys2Proof.Machine
end

