-- ==== Sys2Proof/Machine/Host.lean ====
section
/-!
DEFINITION. The host interface (Chapter 12): the endpoint's resets, word slots and BAR2, the host command queues and their commands,
parking and unparking, and the message rings.
-/
namespace Sys2Proof.Machine

/-! ### The endpoint -/

/-- Hub port 28, the PCIe endpoint's (Table 8.2). -/
def pciePort : Nat := portId 256 28

/-- Is the link up? HOST_LINK shows it until an FLR resets the register (R283). -/
def State.linkUp (s : State) : Bool := s.pcieUp

/-- What a configuration request meets. -/
inductive CfgReply where
  | noLink    -- hub reset has not been released (Table 13.9)
  | retry     -- Configuration Request Retry Status: the OTP read of the reset order has not ended (R283)
  | normal
  deriving DecidableEq, Repr

def State.cfgReply (s : State) : CfgReply :=
  if s.power ≠ .on ∨ s.db.cool then .noLink else if ¬ s.clk.started.getLsbD 0 then .retry else .normal

/-- The widths of Table 12.1. -/
def widthOk (n : Nat) : Bool := decide (n = 16 ∨ n = 8 ∨ n = 4 ∨ n = 2 ∨ n = 1)

/-- The completions of requests that the endpoint has issued are to be discarded. -/
def Purpose.orphan : Purpose → Purpose
  | .dma _ _ => .extern
  | .bar2Read _ _ => .extern
  | .bar2Write => .extern
  | p => p

/-! ### MSI-X (R282, R398)

The spec leaves the tables and the masking to the PCI Express standard. PRESUMED (log entry 155): the standard's table entries and vector control,
the enable and function mask of the capability's first host word, every vector masked and MSI-X disabled after a reset of the function. -/

/-- The MSI-X of a function, and the vectors it has (Table 12.2). -/
def State.msixOf (s : State) (fn : Nat) : MsixFn := SMap.get {} s.msixs fn
def msixVectors (fn : Nat) : Nat := if fn = 0 then 2048 else 8

def State.setMsix (s : State) (fn : Nat) (x : MsixFn) : State := { s with msixs := SMap.set {} s.msixs fn x }

/-- A host word of the table. -/
def MsixFn.word (x : MsixFn) (i : Nat) : HWord := SMap.get (if i % 4 = 3 then 1 else 0) x.tab i

/-- Is vector v masked? -/
def MsixFn.masked (x : MsixFn) (v : Nat) : Bool := x.fmask || (x.word (4 * v + 3)).getLsbD 0

/-- The message of a vector. -/
def msixEv (fn v : Nat) : OutEv := if fn = 0 then .msix v else .msix1 v

/-- The message that a signalled vector sends at once, if it sends one. -/
def State.vectorOut (s : State) (fn v : Nat) : List OutEv :=
  if (s.msixOf fn).on && !(s.msixOf fn).masked v then [msixEv fn v] else []

/-- A vector is signalled: its message leaves, or, while it is masked, it is pending. -/
def State.vector (s : State) (fn v : Nat) : State :=
  let x := s.msixOf fn
  if ¬ x.on then s
  else if x.masked v then s.setMsix fn { x with pend := SMap.set false x.pend v true }
  else s.emit (msixEv fn v)

/-- The messages of pending vectors that are no longer masked leave. -/
def State.msixRelease (s : State) (fn : Nat) : State :=
  let x := s.msixOf fn
  let due := if x.on then x.pend.filter fun e => !x.masked e.1 else []
  due.foldl (fun a e => a.emit (msixEv fn e.1)) (s.setMsix fn { x with pend := x.pend.filter fun e => !due.contains e })

/-- A write of a host word through BAR4 of a function: its table. At offset 0x10000, outside the BAR, stands for the configuration space write of
the capability's first host word: bit 31 the enable, bit 30 the function mask (DESIGN CHOICE, log entry 155). -/
def State.msixWrite (s : State) (fn off : Nat) (v : HWord) : State :=
  let x := s.msixOf fn
  if off < 16 * msixVectors fn then
    (s.setMsix fn { x with tab := SMap.set (if off / 4 % 4 = 3 then 1 else 0) x.tab (off / 4) v }).msixRelease fn
  else if off = 0x10000 then (s.setMsix fn { x with on := v.getLsbD 31, fmask := v.getLsbD 30 }).msixRelease fn
  else s

/-- A host word read through BAR4: the table, and after it the pending bits. -/
def State.msixValue (s : State) (fn off : Nat) : HWord :=
  let x := s.msixOf fn; let n := msixVectors fn
  if off < 16 * n then x.word (off / 4)
  else if off = 0x10000 then BitVec.ofNat 32 ((if x.on then 2 ^ 31 else 0) + (if x.fmask then 2 ^ 30 else 0) + (n - 1) * 2 ^ 16)
  else if off < 16 * n + max 8 (n / 8) then
    BitVec.ofNat 32 (((List.range 32).map fun j => if SMap.get false x.pend (8 * (off - 16 * n) + j) then 2 ^ j else 0).sum)
  else 0

/-- R283. `kind`: 0 PERST_N, 1 a hot reset, 2 a link-down, 3 an FLR of PF0, 4 an FLR of PF1, of which the model holds its MSI-X. An FLR
leaves the link up, though HOST_LINK is reset with every register of the chapter. -/
def execPcieReset (kind : Fin 5) (s : State) : Res :=
  let named := fun off => decide ((0x1000 ≤ off ∧ off < 0x1014) ∨ (0x1100 ≤ off ∧ off < 0x1120) ∨
    (0x100000 ≤ off ∧ off < 0x101000))
  .next (
    if kind.val = 4 then s.setMsix 1 {}
    else
      let s1 := if s.cfg.feed = .load then s.rtClose none s.cfg.words.length else s
      { s1 with
        regs := SMap.drop s1.regs named, host := [], hcqs := [], b2 := []
        outst := s1.outst.map fun o => { o with why := o.why.orphan }
        pcieUp := s1.pcieUp && decide (kind.val = 3)
        msixs := if kind.val = 3 then SMap.set {} s1.msixs 0 {} else []
        park := s1.park.map fun p => { p with cmd := none } })

/-- R283. The link trains to a rate, 1 for 2.5 GT/s to 5 for 32 GT/s, and to a width of Table 12.1, once the OTP read has ended
(Table 13.9). -/
def execPcieLinkUp (speed : Fin 6) (width : Fin 17) (s : State) : Res :=
  .next (
    if s.cfgReply ≠ .normal ∨ speed.val = 0 ∨ ¬ widthOk width then s
    else (({ s with pcieUp := true } : State).setFld R.HOST_LINK F.HOST_LINK.SPEED speed).setFld R.HOST_LINK F.HOST_LINK.WIDTH width)

/-! ### Word slots (R284, R285) -/

/-- A word in slot format. -/
def slotOctets (w : Word) : List Octet := (List.range 8).map fun k => if k < 5 then BitVec.ofNat 8 (w.toNat / 2 ^ (8 * k)) else 0

/-- The words of a run of slots. -/
def slotWords : List Octet → List Word
  | a :: b :: c :: d :: e :: _ :: _ :: _ :: r =>
    BitVec.ofNat 40 (a.toNat + b.toNat * 2 ^ 8 + c.toNat * 2 ^ 16 + d.toNat * 2 ^ 24 + e.toNat * 2 ^ 32) :: slotWords r
  | _ => []

/-- The word that slot n of BAR2 addresses. -/
def State.b2Addr (s : State) (n : Nat) : Nat :=
  if n < 2 ^ 32 then n else s.fld R.HOST_CTL F.HOST_CTL.B2WIN * 2 ^ 32 + (n - 2 ^ 32)

/-- The fabric die in whose window a word address lies. -/
def addrDie (a : Nat) : Option Nat := if 0x1000000 ≤ a ∧ a < 0x5000000 then some ((a - 0x1000000) / 0x1000000) else none

/-- Is a word address on a die that a park in progress quiesces, so that the hub issues nothing to it (R298)? -/
def State.quiesced (s : State) (a : Nat) : Bool :=
  match addrDie a with
  | some d => s.quiesces d
  | none => false

/-- Cut a list of (slot, address, item) into runs of up to 64 consecutive slots at consecutive addresses. -/
def runsOf {α : Type} (l : List (Nat × Nat × α)) : List (Nat × Nat × List α) :=
  (l.foldl (fun acc e =>
    match acc with
    | (m, b, xs) :: t =>
      if m + xs.length = e.1 ∧ b + xs.length = e.2.1 ∧ xs.length < 64 then (m, b, xs ++ [e.2.2]) :: t else (e.1, e.2.1, [e.2.2]) :: acc
    | [] => [(e.1, e.2.1, [e.2.2])]) []).reverse

/-- The lowest free tag of port 28 from `lo` to `hi` − 1. -/
def State.pcieTag (s : State) (lo hi : Nat) : Option Nat :=
  ((List.range (hi - lo)).map (lo + ·)).find? fun t =>
    !(s.outst.any fun o => decide (o.port = pciePort ∧ o.tag = t)) && !(s.quar.any fun q => decide (q = (pciePort, t)))

/-! ### BAR2 (R286) -/

/-- R286. A BAR2 write TLP of `bytes` from byte offset b on, of which a byte that the TLP does not enable is none. -/
def execBar2Write (b : BitVec 36) (bytes : List (Option (BitVec 8))) (s : State) : Res :=
  let b0 := b.toNat
  let at8 := fun (n k : Nat) => if 8 * n + k < b0 then none else (bytes.getD (8 * n + k - b0) none)
  let slots := (List.range ((b0 + bytes.length + 7) / 8 - b0 / 8)).map (b0 / 8 + ·)
  let whole := slots.filterMap fun n =>
    match at8 n 0, at8 n 1, at8 n 2, at8 n 3, at8 n 4 with
    | some o0, some o1, some o2, some o3, some o4 => some (n, s.b2Addr n, (slotWords [o0, o1, o2, o3, o4, 0, 0, 0]).headD 0)
    | _, _, _, _, _ => none
  let cut := slots.any fun n =>
    let c := ((List.range 5).filter fun k => (at8 n k).isSome).length
    decide (c ≠ 0 ∧ c ≠ 5)
  let prio := Fin.ofNat 4 (s.fld R.HOST_CTL F.HOST_CTL.B2PRI)
  let s1 := if cut then s.setFld R.HOST_ERR F.HOST_ERR.PARTIAL 1 else s
  .next ((runsOf whole).foldl (fun a r =>
    if a.quiesced r.2.1 then a
    else a.sendReq { src := pciePort, cmd := cWRP, prio := prio, addr := BitVec.ofNat 40 r.2.1,
                     len := Fin.ofNat 65 r.2.2.length, data := r.2.2 } .bar2Write) s1)

/-- A BAR2 read whose requests have all ended returns its bytes. -/
def State.b2Check (s : State) (id : Nat) : State :=
  match s.b2.find? fun r => decide (r.id = id ∧ r.opened = 0) with
  | none => s
  | some r =>
    let byte := fun i => match SMap.get (some 0) r.slots ((r.off % 8 + i) / 8) with
      | none => (0xFF : Octet)
      | some w => (slotOctets w).getD ((r.off % 8 + i) % 8) 0
    ({ s with b2 := s.b2.filter fun x => !decide (x.id = id) }).emit (.bar2Data id ((List.range r.len).map byte))

/-- A request of a BAR2 read has ended: its words, or none. -/
def State.b2Cpl (s : State) (id part len : Nat) (ws : Option (List Word)) : State :=
  let upd := fun (r : B2Read) => if r.id = id then
      { r with
        opened := r.opened - 1
        slots := (List.range len).foldl (fun m i => SMap.set (some 0) m (part + i) (ws.map fun l => l.getD i 0)) r.slots }
    else r
  let s1 := if ws.isNone ∧ s.b2.any (fun r => decide (r.id = id)) then s.setFld R.HOST_ERR F.HOST_ERR.B2CPLE 1 else s
  ({ s1 with b2 := s1.b2.map upd }).b2Check id

/-- R286. A BAR2 read TLP of `len` bytes from byte offset b on, named `id` while it lasts. It waits where port 28 lacks tags for it. -/
def execBar2Read (b : BitVec 36) (len : Nat) (id : Nat) (s : State) : Res :=
  let n0 := b.toNat / 8
  let slots := (List.range ((b.toNat + len + 7) / 8 - n0)).map fun i => (n0 + i, s.b2Addr (n0 + i), ())
  let runs := runsOf slots
  let prio := Fin.ofNat 4 (s.fld R.HOST_CTL F.HOST_CTL.B2PRI)
  .next (
    if s.b2.any (fun r => decide (r.id = id)) ∨
      512 < (s.outst.filter fun o => decide (o.port = pciePort ∧ o.tag < 512)).length +
        (s.quar.filter fun q => decide (q.1 = pciePort ∧ q.2 < 512)).length + runs.length then s
    else
      let s1 := { s with b2 := s.b2 ++ [({ id := id, off := b.toNat, len := len, opened := runs.length } : B2Read)] }
      (runs.foldl (fun a r =>
        if a.quiesced r.2.1 then a.b2Cpl id (r.1 - n0) r.2.2.length none
        else match a.pcieTag 0 512 with
          | none => a
          | some t => a.sendReq { src := pciePort, cmd := cRD, prio := prio, tag := Fin.ofNat 1024 t, addr := BitVec.ofNat 40 r.2.1,
                                  len := Fin.ofNat 65 r.2.2.length } (.bar2Read id (r.1 - n0))) s1).b2Check id)

/-! ### Command queues (R289–R291) -/

/-- LOG2SIZE of a queue, and whether it is one that a queue may have (Table 12.3). -/
def State.hcqLog (s : State) (q : Nat) : Nat := s.fld (R.HCQ_CFG q) F.HCQ_CFG.LOG2SIZE
def State.hcqSized (s : State) (q : Nat) : Bool := decide (4 ≤ s.hcqLog q ∧ s.hcqLog q ≤ 12)

def State.hcq (s : State) (q : Nat) : HcqSt := SMap.get {} s.hcqs q

/-- The commands of a queue in progress, oldest first. -/
def State.cmdsOf (s : State) (q : Nat) : List HCmd := s.host.filter fun c => decide (c.q = q)

/-- INFL and RUN as they stand: a queue runs while it may fetch or has commands in progress. -/
def State.hcqRun (s : State) (q : Nat) : State :=
  let n := (s.cmdsOf q).length
  let run := (s.flag (R.HCQ_CFG q) F.HCQ_CFG.EN && s.hcqSized q && !(s.hcq q).stop) || decide (n ≠ 0)
  (s.setFld (R.HCQ_STAT q) F.HCQ_STAT.INFL n).setFld (R.HCQ_STAT q) F.HCQ_STAT.RUN (if run then 1 else 0)

/-- A write of HCQ_CFG. -/
def State.hcqCfgWrite (s : State) (q : Nat) (v : HWord) : State :=
  let was := s.flag (R.HCQ_CFG q) F.HCQ_CFG.EN
  let s1 := s.writeReg (R.HCQ_CFG q) v
  if ¬ was ∧ v.getLsbD 31 then
    let s2 := ((s1.setFld (R.HCQ_STAT q) F.HCQ_STAT.HEAD 0).setFld (R.HCQ_STAT q) F.HCQ_STAT.CQT 0).setReg (R.HCQ_DB q) 0
    ({ (s2.setReg (R.HCQ_CQH q) 0) with hcqs := SMap.set {} s2.hcqs q {} }).hcqRun q
  else s1.hcqRun q

/-- R290. -/
def execHcqEnable (q : Fin 64) (v : BitVec 32) (s : State) : Res := .next (s.hcqCfgWrite q v)

/-- R289. -/
def execHcqDoorbell (q : Fin 64) (v : BitVec 32) (s : State) : Res := .next (s.writeReg (R.HCQ_DB q) v)

/-- R289. -/
def execHcqCqhWrite (q : Fin 64) (v : BitVec 32) (s : State) : Res := .next (s.writeReg (R.HCQ_CQH q) v)

/-- Flags of a command (Table 12.4). -/
def HCmd.fence (c : HCmd) : Bool := (c.w 0).testBit 9
def HCmd.fixed (c : HCmd) : Bool := (c.w 0).testBit 11
def HCmd.packed (c : HCmd) : Bool := (c.w 0).testBit 10
def HCmd.prio (c : HCmd) : Fin 4 := Fin.ofNat 4 (c.w 0 / 2 ^ 12)
def HCmd.haddr (c : HCmd) : Nat := c.w 3 * 2 ^ 32 + c.w 2
/-- The word address and the word count of a DMA. -/
def HCmd.addr (c : HCmd) : Nat := c.w 5 % 256 * 2 ^ 32 + c.w 4
def HCmd.count (c : HCmd) : Nat := c.w 6 % 2 ^ 24

/-- The fields of SHT_ARM other than GO and ABORT. -/
def armMask : Nat := match regAt (R.SHT_ARM 0) with | some (r, _) => r.rw.toNat | none => 0

/-- Is the command a BADCMD (Table 12.7)? -/
def HCmd.bad (c : HCmd) : Bool :=
  decide (c.opc = 0 ∨ 8 < c.opc ∨ (c.w 0 / 2 ^ 14 % 4) ≠ 0 ∨ c.w 1 ≠ 0) || (List.range 9).any (fun i => decide (c.w (7 + i) ≠ 0)) ||
  (match c.opc with
   | 4 => decide (c.w 4 / 512 ≠ 0 ∨ c.w 4 / 8 % 32 ≠ 0 ∨ c.w 5 &&& armMask ≠ c.w 5)
   | 6 => decide (c.w 4 &&& 0x17F03 ≠ c.w 4)
   | 7 => decide (4 ≤ c.w 4)
   | 8 => decide (4 ≤ c.w 4)
   | o => decide ((o = 2 ∨ o = 3) ∧ (256 ≤ c.w 5 ∨ 2 ^ 24 ≤ c.w 6 ∨ c.count = 0 ∨ (¬ c.packed ∧ c.haddr % 8 ≠ 0) ∨
       (¬ c.fixed ∧ 2 ^ 40 < c.addr + c.count))))

/-- May queue q fetch (R289–R291)? Room is kept for the completions of the commands in progress. -/
def State.canFetch (s : State) (q : Nat) : Bool :=
  let size := 2 ^ s.hcqLog q
  let used := (s.fld (R.HCQ_STAT q) F.HCQ_STAT.CQT + size - s.fld (R.HCQ_CQH q) F.HCQ_CQH.HEAD % size) % size
  s.flag (R.HCQ_CFG q) F.HCQ_CFG.EN && s.hcqSized q && !(s.hcq q).stop && s.linkUp &&
  decide (s.fld (R.HCQ_STAT q) F.HCQ_STAT.HEAD ≠ s.fld (R.HCQ_DB q) F.HCQ_DB.TAIL % size ∧
    used + (s.cmdsOf q).length + 1 < size ∧ (s.cmdsOf q).length < 16 ∧ s.host.length < 256)

/-- R289. Queue q fetches its next command, of host words `cw`; `ok`: its PCIe read succeeds. -/
def execCommandFetch (q : Fin 64) (cw : List (BitVec 32)) (ok : Bool) (s : State) : Res :=
  .next (
    if ¬ s.canFetch q then s
    else if ¬ ok then
      (({ s with hcqs := SMap.upd {} s.hcqs q fun x => { x with stop := true } } : State).setFld (R.HCQ_STAT q) F.HCQ_STAT.FERR 1).hcqRun q
    else
      let i := s.fld (R.HCQ_STAT q) F.HCQ_STAT.HEAD
      let c : HCmd := { id := s.hostSeq, q := q, idx := i, cw := (List.range 16).map fun k => cw.getD k 0 }
      let c1 := if c.bad then { c with result := some (5, 0, 0) } else c
      (({ s with host := s.host ++ [c1], hostSeq := s.hostSeq + 1 } : State).setFld (R.HCQ_STAT q) F.HCQ_STAT.HEAD ((i + 1) % 2 ^ s.hcqLog q)).hcqRun q)

/-- Change the command of number `id`. -/
def State.updCmd (s : State) (id : Nat) (f : HCmd → HCmd) : State :=
  { s with host := s.host.map fun c => if c.id = id then f c else c }

/-- The next command of queue q to start, if it is of operation `opc` and no fence holds it (R291). -/
def State.nextCmd (s : State) (q opc : Nat) : Option HCmd :=
  match (s.cmdsOf q).find? (fun c => decide (¬ c.started ∧ c.result = none)) with
  | none => none
  | some c => if c.opc = opc ∧ (¬ c.fence ∨ (s.cmdsOf q).head? = some c) then some c else none

/-- A command starts and ends at once, with STATUS, INFO and CE3. -/
def State.endCmd (s : State) (c : HCmd) (st info ce3 : Nat) : State :=
  s.updCmd c.id fun x => { x with started := true, result := some (st, info, ce3) }

def execHcqNop (q : Fin 64) (s : State) : Res :=
  .next (match s.nextCmd q 1 with | some c => s.endCmd c 0 0 0 | none => s)

/-! ### DMA (R292) -/

/-- The lower of a failure noted and another. -/
def lowest (a : Option (Nat × Nat)) (w e : Nat) : Option (Nat × Nat) :=
  match a with | some x => if x.1 ≤ w then some x else some (w, e) | none => some (w, e)

/-- A DMA whose pieces have all ended has its result. -/
def HCmd.dmaEnd (c : HCmd) : HCmd :=
  if c.result.isSome ∨ c.pos < c.count ∨ c.opened ≠ 0 then c
  else
    let st := if c.gone ≠ [] then 7 else if c.fail.isSome then 3 else if c.hostFail.isSome then 4 else 0
    let ofs := min ((c.fail.map (·.1)).getD (2 ^ 24)) (c.hostFail.getD (2 ^ 24))
    { c with result := some (st, c.moved, if st = 0 then 0 else ofs * 256 + (c.fail.map (·.2)).getD 0) }

/-- A request of a DMA has ended: of `len` words from word `part` on, with ECODE `e` (0: it succeeded) and, of a read, its words. -/
def State.dmaCpl (s : State) (id part len e : Nat) (ws : List Word) : State :=
  match s.host.find? fun c => decide (c.id = id) with
  | none => s
  | some c =>
    let step := if c.packed then 5 else 8
    let s1 := if e = 0 ∧ c.opc = 3 then
        s.emit (.hostWrite (c.haddr + step * part) (if c.packed then packedOctets ws else ws.flatMap slotOctets))
      else s
    s1.updCmd id fun x =>
      ({ x with opened := x.opened - 1, moved := if e = 0 then x.moved + len else x.moved,
                fail := if e = 0 then x.fail else lowest x.fail part e } : HCmd).dmaEnd

/-- Is an address one that FIXED serves with many words in a request: a queue port or a lookup window (R292)? -/
def fixedRun (a : Nat) : Bool := queuePortAddr a || decide (a < 0x10000)

/-- The address and the word count of the next piece of a DMA. With FIXED every word goes to A: where A is neither a queue port nor a
lookup window, one at a time. -/
def HCmd.piece (c : HCmd) : Nat × Nat :=
  let a := if c.fixed then c.addr else c.addr + c.pos
  (a, min (c.count - c.pos) (if c.fixed then (if fixedRun a then 64 else 1) else 64 - a % 64))

/-- The next piece of a DMA in progress, with the octets that host memory holds for it; `ok`: they could be read. A piece for a die
that is being parked, or has been parked under the command, fails with ECODE 5 and makes it GONE (R298). -/
def State.dmaPiece (s : State) (c : HCmd) (bytes : List Octet) (ok : Bool) : State :=
  let a := c.piece.1; let n := c.piece.2
  let past := fun (x : HCmd) => { x with started := true, pos := x.pos + n }
  if c.pos = c.count then s
  else if s.quiesced a || (match addrDie a with | some d => c.gone.contains d | none => false) then
    s.updCmd c.id fun x => ({ past x with
      fail := lowest x.fail x.pos 5, gone := if s.quiesced a then (addrDie a).toList ++ x.gone else x.gone } : HCmd).dmaEnd
  else if c.opc = 2 ∧ ¬ ok then
    s.updCmd c.id fun x => ({ past x with hostFail := some (x.hostFail.getD x.pos) } : HCmd).dmaEnd
  else
    let ws := if c.opc = 3 then [] else if c.packed then packedWords bytes else slotWords bytes
    if c.opc = 2 ∧ bytes.length ≠ n * (if c.packed then 5 else 8) then s
    else match s.pcieTag 512 1024 with
      | none => s
      | some t =>
        (s.updCmd c.id fun x => { past x with opened := x.opened + 1 }).sendReq
          { src := pciePort, cmd := if c.opc = 2 then cWR else cRD, prio := c.prio, tag := Fin.ofNat 1024 t,
            addr := BitVec.ofNat 40 a, len := Fin.ofNat 65 n, data := ws } (.dma c.id c.pos)

/-- The DMA at ring index i of queue q starts, if it is the next to start, or goes on: the oldest there with words left. -/
def State.dmaStep (s : State) (q i opc : Nat) (bytes : List Octet) (ok : Bool) : State :=
  match s.host.find? fun c => decide (c.q = q ∧ c.idx = i ∧ c.opc = opc ∧ c.result = none ∧ c.pos < c.count) with
  | none => s
  | some c => if c.started ∨ s.nextCmd q opc = some c then s.dmaPiece c bytes ok else s

/-- R292. -/
def execDmaTo (q : Fin 64) (i : Fin 4096) (bytes : List (BitVec 8)) (ok : Bool) (s : State) : Res := .next (s.dmaStep q i 2 bytes ok)

def execDmaFrom (q : Fin 64) (i : Fin 4096) (s : State) : Res := .next (s.dmaStep q i 3 [] true)

/-! ### ARM, LOAD and LAUNCH (R293–R295) -/

/-- R293. `map`: the 32 host words at HADDR; `ok`: they could be read. -/
def execArm (q : Fin 64) (map : List (BitVec 32)) (ok : Bool) (s : State) : Res :=
  .next (
    match s.nextCmd q 4 with
    | none => s
    | some c =>
      let t := c.w 4 % 8; let mapv := (c.w 4).testBit 8
      if mapv ∧ ¬ ok then s.endCmd c 4 0 0
      else if s.armState t = 1 then s.endCmd c 1 (s.reg (R.SHT_STATUS t)).toNat 0
      else
        let s1 := if mapv then (List.range 32).foldl (fun a k => a.writeReg (R.SHT_SET t k) (map.getD k 0)) s else s
        let s2 := s1.shtArmWrite t (BitVec.ofNat 32 (c.w 5) ||| 0x80000000)
        if s2.armState t = 1 then s2.updCmd c.id fun x => { x with started := true, arm := some t }
        else s2.endCmd c (armStatus (s2.armState t)) (s2.reg (R.SHT_STATUS t)).toNat 0)

/-- R294. `ws`: the host words at HADDR; `ok`: they could be read. -/
def execLoad (q : Fin 64) (ws : List (BitVec 32)) (ok : Bool) (s : State) : Res :=
  .next (
    match s.nextCmd q 5 with
    | none => s
    | some c =>
      if ¬ ok then s.endCmd c 4 0 0
      else if ws.length ≠ c.w 4 then s
      else if s.fld R.CFG_BSTAT F.CFG_BSTAT.STATE ≠ 5 ∨ s.cfg.feed ≠ .none then s.endCmd c 1 0 0
      else
        let s1 := ((s.updCmd c.id fun x => { x with started := true }).rtOpen true).withCfg fun x => { x with pos := ws.length, words := ws }
        if s.secCfg.testBit 2 ∧ ws ≠ [] then s1.rtClose (some 15) ws.length else s1.rtAhead)

/-- R295. -/
def execLaunch (q : Fin 64) (s : State) : Res :=
  .next (
    match s.nextCmd q 6 with
    | none => s
    | some c =>
      let d := c.w 4 % 4; let g := engId d (c.w 4 / 256 % 128); let st := (s.eng g).state
      if s.dieDark d then s.endCmd c 2 0 0
      else if s.quiesces d then s.endCmd c 7 0 5
      else
        let s1 := s.engStart g
        if ¬ (st = .idle ∨ st = .stopped ∨ st = .fault) ∨ (s.pane (engPane g)).shut then s1.endCmd c 2 (s1.engStatusView g).toNat 0
        else if (c.w 4).testBit 16 then s1.updCmd c.id fun x => { x with started := true, eng := some g }
        else s1.endCmd c 0 (s1.engStatusView g).toNat 0)

/-! ### Completions (R289, R296) -/

/-- What a command in progress has come to; a LAUNCH that waits ends once its engine has left RUN. -/
def State.cmdResult (s : State) (c : HCmd) : Option (Nat × Nat × Nat) :=
  match c.result, c.eng with
  | some r, _ => some r
  | none, some g =>
    if (s.eng g).state = .run then none
    else some (c.launchEnd (s.engStatusView g).toNat)
  | none, none => none

/-- The four host words of a completion entry (Table 12.6). -/
def HCmd.entry (c : HCmd) (phase : Nat) (r : Nat × Nat × Nat) : List HWord :=
  [BitVec.ofNat 32 (r.1 * 2 ^ 24 + c.opc * 2 ^ 16 + c.w 0 / 2 ^ 16), BitVec.ofNat 32 r.2.1,
   BitVec.ofNat 32 (phase * 2 ^ 31 + c.idx * 2 ^ 16 + c.q), BitVec.ofNat 32 r.2.2]

/-- R296. The completion entry of the command at ring index i of queue q is written, and then its interrupt sent. Where a queue that was
enabled anew has fetched that index again, the oldest that has ended completes (R290). -/
def execCommandComplete (q : Fin 64) (i : Fin 4096) (s : State) : Res :=
  .next (
    match s.host.find? fun c => decide (c.q = q.val ∧ c.idx = i.val) && (s.cmdResult c).isSome with
    | none => s
    | some c =>
      match s.cmdResult c with
      | none => s
      | some r =>
        let t := s.fld (R.HCQ_STAT q) F.HCQ_STAT.CQT; let pass := (s.hcq q).pass
        let base := (s.reg (R.HCQ_CQB_H q)).toNat * 2 ^ 32 + (s.reg (R.HCQ_CQB_L q)).toNat
        let s1 := s.emit (.hostWrite (base + 16 * t) ((c.entry ((pass + 1) % 2) r).flatMap hwOctets))
        let next := (t + 1) % 2 ^ s.hcqLog q
        let s2 := s1.setFld (R.HCQ_STAT q) F.HCQ_STAT.CQT next
        let s3 : State := { s2 with
          host := s2.host.filter fun x => !decide (x.id = c.id)
          hcqs := if next = 0 then SMap.upd {} s2.hcqs q fun x => { x with pass := x.pass + 1 } else s2.hcqs }
        (if (c.w 0).testBit 8 then s3.vector 0 (s.fld (R.HCQ_CFG q) F.HCQ_CFG.VEC) else s3).hcqRun q)

/-! ### Die paths (R193–R196) -/

/-- The next die from a die towards another, with 4 for the hub: Table 8.8, with the detours of Table 8.9 where F0 or F1 is parked. -/
def nextDie (off : Nat → Bool) (src dst : Nat) : Nat :=
  if src = dst then 7
  else match src, dst with
    | 4, 0 => 0 | 4, 1 => 1
    | 4, 2 => if off 0 then 1 else 0
    | 4, _ => if off 1 then 0 else 1
    | 0, 1 => 1 | 0, 2 => 2 | 0, 4 => 4
    | 0, _ => if off 1 then 2 else 1
    | 1, 0 => 0 | 1, 3 => 3 | 1, 4 => 4
    | 1, _ => if off 0 then 3 else 0
    | 2, 0 => 0 | 2, 3 => 3
    | 2, _ => if off 0 then 3 else 0
    | _, 1 => 1 | _, 2 => 2
    | _, _ => if off 1 then 2 else 1

/-- A TR_DPATH register's value (R195). -/
def dpathWord (off : Nat → Bool) (src : Nat) : HWord :=
  BitVec.ofNat 32 ((List.range 5).map fun i => nextDie off src i * 8 ^ i).sum

/-- The hub writes the paths of every running die and of the hub switch, for the dies `off` names as parked. -/
def State.writePaths (s : State) (off : Nat → Bool) : State :=
  ((List.range 4).filter fun d => !s.dieDark d).foldl (fun a d => a.setReg (R.TR_DPATH d) (dpathWord off d))
    (s.setReg R.HTR_DPATH (dpathWord off 4))

/-- Is a die parked? -/
def State.parked (s : State) (d : Nat) : Bool := (SMap.get {} s.dies d).off

/-! ### Parking (R15, R297, R298, Table 8.10) -/

/-- The dies that reach the hub over hinges that are UP through dies `ok` allows. -/
def State.hubReach (s : State) (ok : Nat → Bool) : List Nat :=
  let up := fun k => decide (s.hingeState (hingeEnds k).1 = 2)
  (List.range 4).foldl (fun r _ =>
    (List.range 4).filter fun d => ok d && (List.range 6).any fun k =>
      let a := endDie (hingeEnds k).1; let b := endDie (hingeEnds k).2
      up k && ((decide (b = some d) && (match a with | none => true | some x => r.contains x)) ||
               (decide (a = some d) && (match b with | none => true | some x => r.contains x)))) []

/-- Does R15 forbid parking die d? -/
def State.parkForbidden (s : State) (d : Nat) : Bool :=
  let left := s.hubReach fun x => decide (x ≠ d) && !s.dieDark x
  (List.range 4).any (fun x => decide (x ≠ d) && !s.dieDark x && !left.contains x) ||
  (decide (d = 0) && s.parked 1) || (decide (d = 1) && s.parked 0)

/-- The dies for which host words of configuration packets name frames, after frame select f. -/
def loadNames (d : Nat) : Nat → Nat → List HWord → Bool
  | _, _, [] => false
  | 0, _, _ => false
  | fuel + 1, f, h :: ws =>
    let rest := ws.drop (pkCount h)
    if pkReg h = 2 then loadNames d fuel ((ws.headD 0).toNat) rest
    else (decide (pkReg h = 3 ∧ fDie f = d)) || loadNames d fuel f rest

/-- Is a LOAD in progress that has frames of die d still to write? -/
def State.loadTo (s : State) (d : Nat) : Bool :=
  decide (s.cfg.feed = .load) && loadNames d s.cfg.words.length s.cfg.fsel s.cfg.words

/-- Does a member on die d belong to a set that is ARMED (R119)? -/
def State.dieArmed (s : State) (d : Nat) : Bool :=
  (List.range 8).any fun t => decide (s.armState t = 1) && (s.setOf t).any fun m => decide (memberDie m = some d)

/-- The checks of R297 in their order: the status of the first that fails. -/
def State.parkCheck (s : State) (d : Nat) : Option Nat :=
  if s.dieDark d then some 2
  else if s.park.isSome ∨ s.unparkReq.isSome ∨ s.loadTo d then some 1
  else if s.dieArmed d then some 1
  else if s.parkForbidden d then some 2
  else none

/-- The links facing die d, at the running end of each of its hinges: router ports and transom stages. -/
def State.facing (s : State) (d : Nat) : List Nat :=
  (List.range 6).flatMap fun k =>
    let es := hingeEnds k
    let e := if endDie es.1 = some d then some es.2 else if endDie es.2 = some d then some es.1 else none
    match e with
    | none => []
    | some e =>
      if (match endDie e with | some x => s.dieDark x | none => false) then []
      else (List.range 8).flatMap fun x => [endRouter e x, stageLink e x]

/-- A command in progress that has words of die d still to move, or that was given to an engine of it. -/
def HCmd.aims (c : HCmd) (d : Nat) : Bool :=
  let lo := 0x1000000 * (d + 1); let hi := lo + 0x1000000
  let a := if c.fixed then c.addr else c.addr + c.pos
  let b := if c.fixed then c.addr + 1 else c.addr + c.count
  decide (c.result = none) &&
  ((decide (c.opc = 2 ∨ c.opc = 3) && decide (c.pos < c.count ∧ a < hi ∧ lo < b)) ||
   (match c.eng with | some g => decide (engDie g = d) | none => false))

/-- R298. A park of die d is accepted: the die is quiesced, its fabric user pins at rest, and step 1 of Table 8.10. The commands that this ends are
marked; a LAUNCH whose engine has left RUN before is none of them (R295). -/
def State.parkBegin (s : State) (d : Nat) (cmd : Option Nat) : State :=
  let s0 : State := { s with host := s.host.map fun c => if c.aims d ∧ s.cmdResult c = none then { c with gone := d :: c.gone } else c }
  let s1 := (List.range 128).foldl (fun a e => a.engStop (engId d e)) s0
  let s2 := ((s1.fpinsOff d).updDie d fun x => { x with writes := false }).setFld R.HUB_PCTL F.HUB_PCTL.BUSY 1
  let s3 := s2.writePaths fun x => s.parked x || decide (x = d)
  { s3 with park := some ⟨d, cmd⟩ }

/-- A park request: refused with a status, or accepted. -/
def State.parkRequest (s : State) (d : Nat) (cmd : Option Nat) : Option Nat × State :=
  match s.parkCheck d with
  | some st => (some st, s.setFld R.HUB_PCTL F.HUB_PCTL.RESULT st)
  | none => (none, s.parkBegin d cmd)

/-- R297. -/
def execPark (q : Fin 64) (s : State) : Res :=
  .next (
    match s.nextCmd q 7 with
    | none => s
    | some c =>
      match s.parkRequest (c.w 4) (some c.id) with
      | (some st, s1) => s1.endCmd c st 0 0
      | (none, s1) => s1.updCmd c.id fun x => { x with started := true })

/-- Steps 4 and 5 of Table 8.10: the ports facing the die are boarded up and it is powered down. `late`: its drain timed out, and a packet
of which flits were still to come from the die lets its channel go (DESIGN CHOICE, log entry 114). -/
def State.parkEnd (s : State) (p : ParkSt) (late : Bool) : State :=
  let d := p.die
  let s1 := (s.facing d).foldl (fun a l => a.board l 3) s
  let s2 := (s1.parkHinges d).clearDie d 0x400000
  let mine := fun e => decide (endDie e = some d)
  let inRouter := fun (k : Nat) => decide (k / 8 / 4096 = d) || decide (65536 ≤ k / 8 ∧ (k / 8 - 65536) / 64 = d)
  let faces := s.facing d
  let s3 : State := { s2 with
    ledger := SMap.drop s2.ledger (inDie d 0x400000)
    tracked := s2.tracked.filter fun t => !(decide (t.link < 32768 ∧ t.link / 4096 = d) ||
      (decide (32768 ≤ t.link) && mine ((t.link - 32768) / 8)))
    leaves := SMap.drop s2.leaves fun k => mine (k / 32)
    stages := SMap.drop s2.stages fun k => mine (k / 64)
    recalls := SMap.drop s2.recalls fun k => mine (k / 8)
    srcs := SMap.drop s2.srcs inRouter
    inqs := SMap.drop s2.inqs inRouter
    worms := s2.worms.filter fun w => !(inRouter w.1 || (faces.contains (w.1 / 8) && decide (w.2.left ≠ 0)))
    lost := SMap.drop s2.lost inRouter
    turns := SMap.drop s2.turns fun l => decide (l / 4096 = d)
    owns := s2.owns.filter fun p => !decide (p.src / 4096 = d)
    answered := s2.answered.filter fun x => !decide (x.1 / 4096 = d)
    edgeTurn := SMap.drop s2.edgeTurn fun k => mine (k / 2)
    tickQ := SMap.drop s2.tickQ mine
    stageBrd := SMap.drop s2.stageBrd fun l => mine ((l - 32768) / 8)
    parkBrd := s2.parkBrd.filter fun l => !(decide (l < 32768 ∧ l / 4096 = d) || (decide (32768 ≤ l) && mine ((l - 32768) / 8)))
    park := none }
  let left := s3.kpr.halted.filter fun t => !decide (0x100 + 128 * d ≤ t ∧ t < 0x180 + 128 * d)
  let s4 := ({ s3 with kpr := { s3.kpr with halted := left } } : State).updDie d fun x => { step := x.step, off := true }
  let s5 := ((((s4.setFld R.KPR_STAT F.KPR_STAT.NHALT (min 255 left.length)).setFld R.CFG_BSTAT ⟨16 + d, 16 + d⟩ 0).setFld
    R.HUB_PCTL ⟨20 + d, 20 + d⟩ 1).setFld R.HUB_PCTL F.HUB_PCTL.BUSY 0).setFld
    R.HUB_PCTL F.HUB_PCTL.RESULT 0
  match p.cmd with
  | some id => s5.updCmd id fun x => { x with result := some (0, if late then 1 else 0, 0) }
  | none => s5

/-- Step 3 of Table 8.10: the die's routers are empty and track nothing, and every port facing it holds all its credits. -/
def State.drained0 (s : State) (d : Nat) : Bool :=
  (List.range 768).all (fun i => let l := portId (64 * d + i / 12) (i % 12)
    (List.range 8).all (fun v => decide (s.iocc l v = 0)) && !(s.tracked.any fun t => decide (t.link = l))) &&
  (s.facing d).all fun l => (List.range 8).all fun v => decide (s.avail l v = s.depthOf l v)

/-- R298. -/
def execDrainEnd (s : State) : Res :=
  .next (match s.park with | some p => if s.drained0 p.die then s.parkEnd p false else s | none => s)

/-- R298. TR_PDTO has passed. -/
def execDrainTimeout (s : State) : Res :=
  .next (match s.park with | some p => (s.setFld R.TR_GSNAP F.TR_GSNAP.PDEXP 1).parkEnd p true | none => s)

/-! ### Unparking (R299, Table 12.9) -/

/-- The WIDTH flit sent towards end e arrives undisturbed. -/
def State.widthArrives (s : State) (e : Nat) : State :=
  match s.firstTransom (peerEnd e) with
  | some j => s.receive e j [] fun b => match b with | .width _ _ _ => true | _ => false
  | none => s

/-- Step 2 at hinge k: it trains, and where `up` its ends agree on their width. -/
def State.bringUp (s : State) (k : Nat) (up : Bool) : State :=
  let es := hingeEnds k; let s1 := s.trainHinge k
  if s1.hingeState es.1 ≠ 1 then s1
  else if up then (s1.widthArrives es.2).widthArrives es.1
  else s1.hingeFail k

/-- Step 4: the die's start-up events in one; OUTPUTS ends when its pins have handed over (R348, R395). -/
def State.dieUp (s : State) (d : Nat) : State :=
  let s1 := ((s.updDie d fun x => { x with loaded := true }).dieOverlaps d).relockDie d
  let s2 := (List.range 64).foldl (fun a p => a.paneRelocked (paneId d p)) s1
  (((s2.dieEvent d 3).dieEvent d 2).handover (4 + d)).dieEvent d 4

/-- Step 5: the ports facing the die are unboarded, those of the die that face a parked one boarded up, and the paths written. -/
def State.openPaths (s : State) (d : Nat) : State :=
  let s1 := (s.facing d).foldl State.unboard s
  let s2 := ((List.range 4).filter s1.parked).foldl (fun a x =>
    (a.facing x).foldl (fun b l =>
      let mine := if 32768 ≤ l then endDie ((l - 32768) / 8) = some d else l / 4096 = d
      if mine then b.board l 3 else b) a) s1
  s2.writePaths s2.parked

/-- The steps of Table 12.9 on die d, all in one; `ups`: which hinges would train, `lock`: whether its loops lock. The state at the end,
and STATUS and CAUSE. -/
def State.unparkSteps (s : State) (d : Nat) (ups : BitVec 6) (lock : Bool) : State × Nat × Nat :=
  let s0 := s.updDie d fun x => { x with off := false }
  let ks := (List.range 6).filter fun k => decide (endDie (hingeEnds k).1 = some d ∨ endDie (hingeEnds k).2 = some d)
  let s1 := ks.foldl (fun a k => a.bringUp k (ups.getLsbD k)) s0
  if ¬ s1.pathUp d then (s, 9, 0)
  else if (match s1.cfg.runSlot with | some n => !(s1.slotImage n).tagOk (s1.imgKey.getD 0) | none => false) then (s, 6, 6)
  else
    let r := s1.walkRunning (fun (a : State) f ws =>
      if fDie f = d then (match a.bootFrame f ws with | some b => .ok b | none => .error 13) else .ok a) s1
    if r.2 ≠ 0 then (s, 6, r.2)
    else if ¬ lock then (s, 6, 14)
    else
      let s3 := (r.1.dieUp d).openPaths d
      ((s3.setFld R.CFG_BSTAT ⟨16 + d, 16 + d⟩ 1).setFld R.HUB_PCTL ⟨20 + d, 20 + d⟩ 0, 0, 0)

/-- Why an unpark request is not taken (R299): the die is not parked, or another request is in progress. -/
def State.unparkCheck (s : State) (d : Nat) : Option Nat :=
  if ¬ s.parked d then some 2 else if s.park.isSome ∨ s.unparkReq.isSome then some 1 else none

/-- An unpark request: the state after it, and its status and cause. -/
def State.unparkRequest (s : State) (d : Nat) (ups : BitVec 6) (lock : Bool) : State × Nat × Nat :=
  let r := match s.unparkCheck d with | some st => (s, st, 0) | none => s.unparkSteps d ups lock
  (r.1.setFld R.HUB_PCTL F.HUB_PCTL.RESULT r.2.1, r.2)

/-- R299. -/
def execUnpark (q : Fin 64) (ups : BitVec 6) (lock : Bool) (s : State) : Res :=
  .next (
    match s.nextCmd q 8 with
    | none => s
    | some c =>
      let r := s.unparkRequest (c.w 4) ups lock
      r.1.endCmd c r.2.1 0 r.2.2)

/-- A write of HUB_PCTL. An unpark that it asks for is in progress until PCTL_UNPARK runs its steps. -/
def State.pctlWrite (s : State) (v : HWord) : State :=
  let s1 := s.writeReg R.HUB_PCTL v
  let d := getF v F.HUB_PCTL.DIE
  if ¬ v.getLsbD 31 then s1
  else if ¬ v.getLsbD 4 then (s1.parkRequest d none).2
  else match s1.unparkCheck d with
    | some st => s1.setFld R.HUB_PCTL F.HUB_PCTL.RESULT st
    | none => ({ s1 with unparkReq := some d } : State).setFld R.HUB_PCTL F.HUB_PCTL.BUSY 1

/-- The unpark that HUB_PCTL asked for runs its steps, if it is of die d. -/
def State.unparkRun (s : State) (d : Nat) (ups : BitVec 6) (lock : Bool) : State :=
  if s.unparkReq ≠ some d then s
  else (({ s with unparkReq := none } : State).setFld R.HUB_PCTL F.HUB_PCTL.BUSY 0 |>.unparkRequest d ups lock).1

/-- R297. A write of HUB_PCTL with GO 1 and UNPARK 0. -/
def execPctlPark (d : Fin 4) (s : State) : Res := .next (s.pctlWrite (BitVec.ofNat 32 (2 ^ 31 + d)))

/-- R299. A write of HUB_PCTL with GO and UNPARK 1, unless one of that die waits already; and the steps of the unpark. -/
def execPctlUnpark (d : Fin 4) (ups : BitVec 6) (lock : Bool) (s : State) : Res :=
  let s1 := if s.unparkReq = some d.val then s else s.pctlWrite (BitVec.ofNat 32 (2 ^ 31 + 16 + d))
  .next (s1.unparkRun d ups lock)

/-! ### Message rings (R300) and the host window (R288) -/

/-- SDIE, SROW, SCOL and SPORT of a port name (Table 8.3). -/
def srcFields (p : Nat) : Nat :=
  if p < 16384 then p / 4096 * 4096 + p / 64 % 64 * 64 + p % 64 else if p < 20480 then 4 * 4096 + p % 64 else 5 * 4096 + p % 64

/-- The byte address of entry t of message ring i (MSG_RB). -/
def State.msgAddr (s : State) (i t : Nat) : Nat :=
  (s.reg (R.MSG_RB_H i)).toNat * 2 ^ 32 + (s.reg (R.MSG_RB_L i)).toNat / 8 * 8 + 520 * t

/-- Slots written at a byte address: in host memory for ring 0, in the local memory of MC0 or MC1 for ring 1 or 2. -/
def State.msgStore (s : State) (i a : Nat) (ws : List Word) : State :=
  if i = 0 then s.emit (.hostWrite a (ws.flatMap slotOctets))
  else { s with mcMem := (List.range ws.length).foldl (fun m k =>
    SMap.set 0 m ((i - 1) * 2 ^ 61 + (a / 8 + k) % 2 ^ 61) (ws.getD k 0)) s.mcMem }

/-- A MSG taken whole by hub port 28 + i. -/
def State.msgTake (s : State) (i : Nat) (pk : Packet) : State :=
  let n := 2 ^ max 1 (min 10 (s.fld (R.MSG_CFG i) F.MSG_CFG.LOG2N))
  let t := s.fld (R.MSG_TAIL i) F.MSG_TAIL.MTAIL % n
  if ¬ s.flag (R.MSG_CFG i) F.MSG_CFG.EN ∨ (t + 1) % n = s.fld (R.MSG_HEAD i) F.MSG_HEAD.MHEAD % n then
    s.addSat (R.MSG_DROP i) F.MSG_DROP.MDROP 1
  else
    let head := BitVec.ofNat 40 (srcFields pk.src * 128 + pk.data.length)
    let s1 := (s.msgStore i (s.msgAddr i t) (head :: pk.data ++ List.replicate (64 - pk.data.length) 0)).setFld
      (R.MSG_TAIL i) F.MSG_TAIL.MTAIL ((t + 1) % n)
    if i = 0 then s1.vector 0 (s.fld (R.MSG_CFG 0) F.MSG_CFG.VEC) else s1.emit (.coreIrq (i - 1))

/-- A write of MSG_CFG[i]; enabling a ring sets its indexes to 0. -/
def State.msgCfgWrite (s : State) (i : Nat) (v : HWord) : State :=
  let s1 := s.writeReg (R.MSG_CFG i) v
  if v.getLsbD 31 ∧ ¬ s.flag (R.MSG_CFG i) F.MSG_CFG.EN then (s1.setReg (R.MSG_TAIL i) 0).setReg (R.MSG_HEAD i) 0 else s1

/-- A request taken whole by the host window (R288). `ok`: bus mastering is on and the PCIe access succeeds; `data`: the slots read. -/
def State.hostWindow (s : State) (pk : Packet) (ok : Bool) (data : List Word) : State :=
  if ¬ (pk.cmd = cRD ∨ pk.cmd = cWR ∨ pk.cmd = cWRP) then s.answerErr pk eUNSUP
  else if ¬ ok ∨ ¬ s.linkUp then
    (if posted pk.cmd then s.addSat R.HOST_ERR F.HOST_ERR.HWDROP 1 else s.answerErr pk eREFUSED)
  else
    let base := (s.reg R.HOST_HWB_H).toNat * 2 ^ 32 + (s.reg R.HOST_HWB_L).toNat
    let s1 := s.emit (.bridge ((base + (pk.addr.toNat - 0x1000000000) * 8) % 2 ^ 64) pk)
    if pk.cmd = cRD then s1.answerData pk ((List.range pk.len.val).map fun i => data.getD i 0) else s1.answerData pk []

end Sys2Proof.Machine
end

