-- ==== Sys2Proof/Machine/Net.lean ====
section
/-!
DEFINITION. The routers and the hub switch: routing (R193–R196), arbitration and forwarding (R181, R190–R192, R198, R199, R201), the
targets that take requests (R183, R185), timers, boarding commands and ledger captures (R197, R200, R203).
-/
namespace Sys2Proof.Machine

/-! ### Routing -/

/-- The die of a port name: 0–3, and 4 for the hub and the companion behind it. -/
def portDie (p : Nat) : Nat := if p < 16384 then p / 4096 else 4

/-- The end of die (or hub, 4) `a` at its hinge to `b`. -/
def exitEnd (a b : Nat) : Option Nat :=
  (List.range 14).find? fun e =>
    (hingeOf e).isSome && decide ((endDie e).getD 4 = a ∧ (endDie (peerEnd e)).getD 4 = b)

/-- A pane's position along an edge (R193). -/
def posAlong (side pane : Nat) : Nat := if side % 2 = 0 then pane % 8 else pane / 8

/-- The next die from die `a` towards die `b`, as TR_DPATH has it. -/
def State.dpath (s : State) (a b : Nat) : Nat :=
  (s.reg (if a = 4 then R.HTR_DPATH else R.TR_DPATH a)).toNat / 8 ^ b % 8

/-- The last die before die `b` on the way from die `a`. -/
def State.lastDie (s : State) (b : Nat) : Nat → Nat → Nat
  | 0, a => a
  | fuel + 1, a => if s.dpath a b = b then a else s.lastDie b fuel (s.dpath a b)

/-- The position along the edges it crosses of a packet that stands in die `here`, entered at position `pos` (R193). -/
def State.edgePos (s : State) (here pos : Nat) (pk : Packet) : Nat :=
  let b := portDie pk.dst
  if portDie pk.src ≠ here then pos
  else if here = 4 then
    match exitEnd b (s.lastDie b 4 4) with | some e => posAlong (endSide e) (pk.dst / 64 % 64) | none => 0
  else
    match exitEnd here (s.dpath here b) with | some e => posAlong (endSide e) (pk.src / 64 % 64) | none => 0

/-- The side by which a packet moves from a pane towards another of its die, row first; none at the pane itself. -/
def moveTo (pane goal : Nat) : Option Nat :=
  if pane % 8 < goal % 8 then some 1 else if goal % 8 < pane % 8 then some 3
  else if pane / 8 < goal / 8 then some 2 else if goal / 8 < pane / 8 then some 0 else none

/-- The output link by which router r sends a packet on; `pos`: where it entered the die. -/
def State.routeOut (s : State) (r pos : Nat) (pk : Packet) : Nat :=
  if r = 256 then
    if 20480 ≤ pk.dst then uclPort
    else if 16384 ≤ pk.dst then pk.dst
    else portId 256 (8 * s.dpath 4 (portDie pk.dst) + s.edgePos 4 pos pk)
  else
    let d := r / 64; let b := portDie pk.dst
    if d = b then (match moveTo (r % 64) (pk.dst / 64 % 64) with | some side => portId r side | none => pk.dst)
    else match exitEnd d (s.dpath d b) with
      | none => portId r 0
      | some e => match moveTo (r % 64) (endPane e (s.edgePos d pos pk) % 64) with
        | some side => portId r side
        | none => portId r (endSide e)

/-! ### Forwarding

An input of a router is one of its ports, or `ownInput r`, where the completions that router `r` makes itself wait (R199). -/

def ownInput (r : Nat) : Nat := 65536 + r

/-- The inputs of a router, in the order of their ports. -/
def inputsOf (r : Nat) : List Nat := (List.range (if r = 256 then 33 else 12)).map (portId r) ++ [ownInput r]

/-- The completion at the head of channel v of those that router r makes. -/
def State.ownHead (s : State) (r v : Nat) : Option Packet := s.owns.find? fun p => decide (routerOf p.src = r ∧ vcOf p = v)

/-- The flit at the head of channel v of an input. -/
def State.front (s : State) (i v : Nat) : Option TFlit :=
  if 65536 ≤ i then (s.ownHead (i - 65536) v).map fun p => flitAt p 0 else (s.inq i v).head?

/-- What becomes of a flit at the head of an input: it goes out on a link, or the router discards it with its packet: for header parity
(R201), as an answer that is no longer due (R199), as a request outside frame memory (R215), or as one that names no port. -/
inductive Fate where
  | send (l : Nat)
  | parity
  | late
  | range
  | nowhere
  deriving DecidableEq, Repr

/-- The words a request touches. -/
def spanOf (pk : Packet) : Nat := if pk.cmd = cRD ∨ pk.cmd = cWR ∨ pk.cmd = cWRP then pk.len.val else 1

/-- Does a request of frame memory touch an address outside it (R215)? -/
def State.fmOutside (s : State) (pk : Packet) : Bool :=
  !(List.range (spanOf pk)).all fun i => s.fmInside (pk.addr.toNat - 0x100000000 + i)

/-- The fate of the flit at the head of channel v of input i of router r. A data unit goes where its header unit went. -/
def State.fate (s : State) (r i v : Nat) (f : TFlit) : Fate :=
  if f.head then
    let pk := headerOf f.w
    if f.fails then .parity
    else if isCompletion pk.cmd ∧ s.boarded i ∧ s.answered.contains (i, pk.dst, pk.tag.val) then .late
    else if r = 256 ∧ pk.dst = memLink ∧ s.fmOutside pk then .range
    else
      let l := s.routeOut r f.pos pk
      if s.portExists l ∨ l = memLink then .send l else .nowhere
  else match (s.worm i v).out with
    | some l => .send l
    | none => .nowhere

/-- Does a packet that has not left whole hold channel v of output l against input i (R191)? -/
def State.vcTaken (s : State) (r i l v : Nat) : Bool :=
  (inputsOf r).any fun j => decide (j ≠ i) && decide ((s.worm j v).left ≠ 0 ∧ (s.worm j v).out = some l)

/-- Has the splitter sent every piece of channel v? It takes in the next request only then (DESIGN CHOICE, log entry 160). -/
def State.fmIdle (s : State) (v : Nat) : Bool := (List.range 8).all fun c => decide ((s.fmQueue (fmPortOf c) v).pks = [])

/-- Is the flit at the head of an input's channel ready for output l (R192)? A boarded port takes every flit; the companion link carries
transom flits while it is ACTIVE and not in raw format (R278). The way to the splitter has no credits of its own (log entry 160). -/
def State.ready (s : State) (r i l v : Nat) (f : TFlit) : Bool :=
  if l = memLink then s.fmIdle v && !(f.head && s.vcTaken r i l v) else
  s.boarded l ||
    (!s.noCredit l v f && !(f.head && s.vcTaken r i l v) &&
      (decide (l ≠ uclPort) || (decide (s.uclState = 2) && !s.flag R.UCL_CTL F.UCL_CTL.RAW)))

/-- The inputs and channels whose flits are ready for output l. -/
def State.contenders (s : State) (r l : Nat) : List (Nat × Nat) :=
  (inputsOf r).flatMap fun i => (List.range 8).filterMap fun v =>
    match s.front i v with
    | none => none
    | some f => if s.fate r i v f = .send l ∧ s.ready r i l v f then some (i, v) else none

/-- Rank of a channel in arbitration: PRI, then completions before requests (R192). -/
def vcRank (v : Nat) : Nat := 2 * (v % 4) + v / 4

/-- Arbitrations lost in succession by the flit at the head of an input's channel. -/
def State.losses (s : State) (c : Nat × Nat) : Nat := SMap.get 0 s.lost (vcKey c.1 c.2)

/-- The winner of an arbitration at output l among `cs` (R192): flits that have lost 512 go first, then the highest rank, then
round-robin from the input after the last winner. -/
def State.winner (s : State) (l : Nat) (cs : List (Nat × Nat)) : Option (Nat × Nat) :=
  let old := cs.filter fun c => decide (512 ≤ s.losses c)
  let pool := if old = [] then cs else old
  let best := (pool.map fun c => vcRank c.2).foldl max 0
  let ties := pool.filter fun c => decide (vcRank c.2 = best)
  match ties.find? fun c => decide (SMap.get 0 s.turns l ≤ c.1) with
  | some c => some c
  | none => ties.head?

/-- The flit at the head of an input's channel leaves it: its credit returns, and what stands behind the input moves up. -/
def State.leave (s : State) (i v : Nat) : State :=
  if 65536 ≤ i then
    match s.ownHead (i - 65536) v with
    | some p => { s with owns := s.owns.erase p }
    | none => s
  else
    let s1 := (s.setInq i v (s.inq i v).tail).freeFlits i v 1
    if i = uclPort then ({ s1 with uclOwed := SMap.upd 0 s1.uclOwed v (· + 1) } : State).uclCredits v
    else match peerPort i with
      | some l => s1.creditBack l v 1
      | none => match stageOf i with
        | some (e, x) => s1.fillStage e x v
        | none => s1.fill i v

/-- A flit goes out on a port's output link, spending a credit, and reaches what stands at the link's end. -/
def State.sendOut (s : State) (l v : Nat) (f : TFlit) : State :=
  let s1 := s.sendFlits l v 1
  if l = uclPort then (s1.track l v f).emit (.uclUnit (jenwynUnit v [f] 0 0))
  else if localPort l then s.sendLocal l v f
  else match peerPort l with
    | some j => s1.enter j v f
    | none => match stageOf l with
      | some (e, x) => s1.setStage e x v { s1.stage e x v with out := (s1.stage e x v).out ++ [f] }
      | none => s1

/-- A flit goes out on link l. -/
def State.sendFlit (s : State) (l v : Nat) (f : TFlit) : State :=
  if l = memLink then (s.setTin l v (s.tin l v ++ [f])).fmSplit v else s.sendOut l v f

/-- Why a router discards a packet whose header unit it takes. -/
def State.noteDrop (s : State) (r i : Nat) (pk : Packet) : Fate → State
  | .parity => s.setTrErr r F.TR_ERR.HPAR F.HTR_ERR.HPAR 1
  | .late => { (s.addLed i 9 1) with answered := s.answered.erase (i, pk.dst, pk.tag.val) }
  | .range => if posted pk.cmd then s.setFld R.HTR_ERR F.HTR_ERR.UNMAP 1 else s.ownCple pk.dst pk.src pk.prio pk.tag eRANGE
  | _ => s

/-- The flit at the head of channel v of an input meets its fate. -/
def State.moveFlit (s : State) (r i v : Nat) (f : TFlit) : State :=
  let fate := s.fate r i v f; let pk := headerOf f.w; let w := s.worm i v
  let w1 : Worm :=
    if f.head then ⟨pk, (match fate with | .send l => some l | _ => none), flitsOf pk - 1⟩ else { w with left := w.left - 1 }
  let s1 := (s.setWorm i v w1).leave i v
  match fate with
  | .send l =>
    let s2 := if f.fails then s1.setTrErr r F.TR_ERR.XPAR F.HTR_ERR.XPAR 1 else s1
    if s2.boarded l then s2.absorb l f
    else
      let q := s2.spoil l f
      q.2.sendFlit l v q.1
  | d => if f.head then s1.noteDrop r i pk d else s1

/-- A cycle of output l: the flit of `c` leaves, and each other contender has lost once more. -/
def State.outCycle (s : State) (r l : Nat) (cs : List (Nat × Nat)) (c : Nat × Nat) : State :=
  match s.front c.1 c.2 with
  | none => s
  | some f =>
    let lost := (cs.filter fun x => decide (x ≠ c)).foldl (fun m x => SMap.upd 0 m (vcKey x.1 x.2) (· + 1)) s.lost
    ({ s with lost := SMap.set 0 lost (vcKey c.1 c.2) 0, turns := SMap.set 0 s.turns l (c.1 + 1) } : State).moveFlit r c.1 c.2 f

/-- Router r works until the packet at channel v of input i has left or must wait; in each cycle the output that packet is due on sends
the flit that wins there. -/
def State.forwardRun (s : State) (r i v : Nat) : Nat → State
  | 0 => s
  | n + 1 =>
    match s.front i v with
    | none => s
    | some f =>
      let next := fun (a : State) (mine : Bool) => if mine ∧ (a.worm i v).left = 0 then a else a.forwardRun r i v n
      match s.fate r i v f with
      | .send l =>
        if ¬ s.ready r i l v f then s
        else match s.winner l (s.contenders r l) with
          | none => s
          | some c => next (s.outCycle r l (s.contenders r l) c) (decide (c = (i, v)))
      | _ => next (s.moveFlit r i v f) true

/-- The fields of a packet's header. -/
def hdrFields (pk : Packet) : Packet := { pk with data := [], par := [] }

/-- The input of router r at which packet `pk` is the one to go next on its channel, port `i` being named. -/
def State.wayOf (s : State) (i : Nat) (pk : Packet) : Option Nat :=
  let v := vcOf pk; let r := routerOf i
  if s.ownHead r v = some pk ∧ pk.src = i then some (ownInput r)
  else match s.front i v with
    | some f => if (if f.head then headerOf f.w else (s.worm i v).hdr) = hdrFields pk then some i else none
    | none => none

/-- Has a request the shape of Table 8.4? ECODE and HIT are a completion's (R182). -/
def shapeOk (pk : Packet) : Bool :=
  let n := pk.len.val; let k := pk.data.length
  if pk.ecode ≠ 0 ∨ pk.hit then false
  else if pk.cmd = cRD then decide (1 ≤ n ∧ k = 0)
  else if pk.cmd = cWR ∨ pk.cmd = cWRP ∨ pk.cmd = cMSG then decide (1 ≤ n ∧ k = n)
  else if pk.cmd = cWRUL then decide (n ≤ 1 ∧ k = n)
  else if pk.cmd = cLKUP then decide (n = 0 ∧ k = 0)
  else decide (n = 1 ∧ k = 0)

/-- MC0, MC1 and the configuration controller send requests (R183): one that the hub port of such an initiator does not hold yet is issued. MC1
uses tags 0 to 895 (R408). With its WRUL, MC0's locked sequence at that word ends (R411). -/
def State.coreIssue (s : State) (i : Nat) (pk : Packet) : State :=
  if portId 256 29 ≤ i ∧ i ≤ portId 256 31 ∧ pk.src = i ∧ pk.cmd.val < 9 ∧ pk.par = [] ∧ shapeOk pk ∧
    (i ≠ portId 256 30 ∨ pk.tag.val < 896) ∧
    (posted pk.cmd ∨ (¬ s.outst.any (fun o => decide (o.port = i ∧ o.tag = pk.tag.val)) ∧ ¬ s.quar.contains (i, pk.tag.val))) then
    let s1 := s.sendReq pk (if i = portId 256 31 then .extern else .core (portOf i - 29))
    if i = portId 256 29 ∧ pk.cmd = cWRUL then
      { s1 with core0 := { s1.core0 with locks := s1.core0.locks.filter fun a => !decide (a = pk.addr.toNat) } }
    else s1
  else s

/-- Router `i / 64` forwards the packet that waits at its input i, as far as its credits go. -/
def State.forward (s : State) (i : Nat) (pk : Packet) : State :=
  let r := routerOf i; let v := vcOf pk
  if ¬ s.routerRuns r then s
  else match s.wayOf i pk with
    | some j => s.forwardRun r j v 17408
    | none => s.coreIssue i pk

/-! ### Targets (R183, R185) -/

/-- Does the target at a port run? A pane's memories take packets with their pane's clocks. -/
def State.targetRuns (s : State) (l : Nat) : Bool := s.routerRuns (routerOf l)

/-- Does an earlier request of the source and priority of `pk` still wait at block `m`: for the end of its cycle, or at the lock of a queue? One
that will itself wait at that lock keeps its place there (R165). -/
def State.wmBehind (s : State) (pane m : Nat) (pk : Packet) : Bool :=
  let o := (pk.addr.toNat - 0x1000000) % 0x8000
  let joins := fun q => decide (o = 0x4000 + q ∧ (pk.cmd = cRD ∨ pk.cmd = cRDLK ∨ pk.cmd = cWRUL))
  s.lateOf pane m pk || (List.range 4).any fun q => !joins q &&
    (s.queue (pane * 6 + m) q).waiters.any fun w => decide (w.src = pk.src ∧ w.prio = pk.prio)

/-- Is the request the next that its target performs of its initiator and priority (R187)? A lookup port performs the records of an earlier WRP
before a request that answers at once, and a word memory what waits there. The order of frame memory's pieces is its controllers' (R218). -/
def State.inTurn (s : State) (pk : Packet) : Bool :=
  if routerOf pk.dst = 256 ∧ 24 ≤ portOf pk.dst ∧ portOf pk.dst < 28 ∧ pk.cmd ≠ cWRP then
    !(SMap.get [] s.lkRecs (portOf pk.dst - 24)).any fun r => decide (r.src = pk.src ∧ r.prio = pk.prio)
  else if pk.dst < 16384 ∧ 4 ≤ portOf pk.dst ∧ portOf pk.dst < 10 then !s.wmBehind (pk.dst / 64) (portOf pk.dst - 4) pk
  else true

/-- A target takes the packet that is next on its channel from its input queue (R187, R198). -/
def State.takeWhole (s : State) (pk : Packet) : State := s.popTin pk.dst (vcOf pk)

/-- A DDR5 controller performs the piece at the head of a channel of its port, once its turn has come (R218, R223); the splitter then sends on what
the credits allow, and an OFFLINE that waited for the last piece takes place (R221). -/
def State.fmServe (s : State) (pk : Packet) : State :=
  let c := portOf pk.dst - 16; let v := vcOf pk
  let after := fun (a : State) => ((a.qosFresh c).ddrSettle c).fmPump pk.dst v
  match s.fmOwner pk true with
  | none => after (s.fmPerform pk)
  | some (e, p) =>
    if ¬ s.ddrOnline c then after (s.fmPerform pk)
    else if s.pieceDue e p ∧ s.qosNext c v then after ((s.qosCharge c v).fmPerform pk)
    else s

/-- The effect of a request at the target whose port it has reached. `ok` and `data`: what a PCIe access for the host window gives. -/
def State.atTarget (s : State) (pk : Packet) (ok : Bool) (data : List Word) : State :=
  let x := pk.dst % 64; let a := pk.addr.toNat; let msgWin := decide (0x10000 ≤ a ∧ a < 0x10003)
  if pk.dst < 16384 then
    let o := (a - 0x1000000) % 0x8000
    if 4 ≤ x ∧ x < 10 then s.wmTarget (pk.dst / 64) (x - 4) o pk
    else if x = 10 ∨ x = 11 then s.engTarget (2 * (pk.dst / 64) + (x - 10)) o pk
    else s
  else if 24 ≤ x ∧ x < 28 then s.lkTarget (x - 24) pk
  else if msgWin then (if pk.cmd = cMSG then s.msgTake (x - 28) pk else s.answerErr pk eUNSUP)
  else if x = 28 then s.hostWindow pk ok data
  else s.answerErr pk eUNSUP

/-- A request of command `c` that is the next on its channel at its target is taken and served. -/
def State.serve (s : State) (c : Fin 16) (pk : Packet) (ok : Bool) (data : List Word) : State :=
  if pk.cmd = c ∧ s.headAt pk.dst (vcOf pk) = some pk ∧ s.inTurn pk ∧ s.targetRuns pk.dst then
    (if fmPort pk.dst then s.fmServe pk else (s.takeWhole pk).atTarget pk ok data)
  else s

/-- R183. `host`: the slots a host window read returns; none: it fails. -/
def execRd (pk : Packet) (host : Option (List (BitVec 40))) (s : State) : Res := .next (s.serve cRD pk host.isSome (host.getD []))

/-- R183. `ok`: a host window write succeeds. -/
def execWr (pk : Packet) (ok : Bool) (s : State) : Res := .next (s.serve cWR pk ok [])

def execWrp (pk : Packet) (ok : Bool) (s : State) : Res := .next (s.serve cWRP pk ok [])

/-- R165. -/
def execRdlk (pk : Packet) (s : State) : Res := .next (s.serve cRDLK pk false [])

/-- R165. -/
def execWrul (pk : Packet) (s : State) : Res := .next (s.serve cWRUL pk false [])

/-- R183. -/
def execTransomAdd (pk : Packet) (s : State) : Res := .next (s.serve cADD pk false [])

/-- R183. -/
def execSwap (pk : Packet) (s : State) : Res := .next (s.serve cSWAP pk false [])

/-- R300. -/
def execMsg (pk : Packet) (s : State) : Res := .next (s.serve cMSG pk false [])

/-- R207. -/
def execLkup (pk : Packet) (s : State) : Res := .next (s.serve cLKUP pk false [])

/-! ### Timers and commands of the ports (R197, R200) -/

/-- TR_CTL of a router. -/
def trCtl (r : Nat) : Nat := if r = 256 then R.HTR_CTL else R.TR_CTL (r / 64) (r % 64)

/-- Does the next flit that the splitter has for a controller's port lack a credit? -/
def State.fmLacks (s : State) (l v : Nat) : Bool :=
  match (s.fmQueue l v).pks with
  | pk :: _ => s.noCredit l v (flitAt pk (s.fmQueue l v).done)
  | [] => false

/-- R197. A flit of channel v has been ready at output l but for a credit for TOCR × 1,024 cycles. -/
def execCreditTimeout (l : Fin 16448) (v : Fin 8) (s : State) : Res :=
  let r := routerOf l
  .next (
    if s.fld (trCtl r) F.TR_CTL.TOCR ≠ 0 ∧ s.portExists l ∧ s.routerRuns r ∧
      ¬ s.boarded l ∧ ((inputsOf r).any (fun i => match s.front i v with
        | some f => decide (s.fate r i v f = .send l.val) && s.noCredit l v f
        | none => false) ∨ s.fmLacks l v) then
      s.board l 1
    else s)

/-- R197. The oldest tracked request of a local target port has waited TOCP × 1,024 cycles. -/
def execCompletionTimeout (l : Fin 16448) (s : State) : Res :=
  let r := routerOf l
  .next (
    if s.fld (trCtl r) F.TR_CTL.TOCP ≠ 0 ∧ localPort l ∧ s.portExists l ∧ s.routerRuns r ∧
      s.tracked.any (fun t => decide (t.link = l.val) && !t.posted && !t.cpl) then s.board l 2
    else s)

/-- A write of TR_CMD, of bit `b` + the port's number, on its way to the router of port `l`; the hub switch is reached at once (R422). -/
def State.reachPort (s : State) (l b : Nat) (f : State → State) : State :=
  let r := routerOf l
  if r = 256 then f s else s.reach (r / 64) (R.TR_CMD (r / 64) (r % 64)) (1 <<< (b + portOf l)) f

/-- R197. -/
def execTrCmdBoard (l : Fin 16448) (s : State) : Res := .next (s.reachPort l 16 (·.boardCmd l))

/-- R200. -/
def execTrCmdUnboard (l : Fin 16448) (s : State) : Res := .next (s.reachPort l 0 (·.unboardCmd l))

/-! ### Captures (R203) -/

/-- A SNAP bit of a pane router is written with 1; without its clock, the capture comes at the first edge. -/
def State.snapCmd (s : State) (r : Nat) : State :=
  if s.routerRuns r then
    let st := R.TR_STAT (r / 64) (r % 64)
    (s.captureRouter r).setFld st F.TR_STAT.SEQ (s.fld st F.TR_STAT.SEQ + 1)
  else if s.dieDark (r / 64) then s
  else s.setPane r { s.pane r with snaps := (s.pane r).snaps + 1 }

/-- R203. -/
def execTrCmdSnap (d : Fin 4) (p : Fin 64) (s : State) : Res := .next (s.reach d (R.TR_CMD d p) 0x80000000 (·.snapCmd (paneId d p)))

/-- A write of TR_CMD of pane router r: its boards, then its unboards, then its capture. -/
def State.trCmdWrite (s : State) (r : Nat) (v : HWord) : State :=
  let s1 := (List.range 12).foldl (fun a x => if v.getLsbD (16 + x) then a.boardCmd (portId r x) else a) s
  let s2 := (List.range 12).foldl (fun a x => if v.getLsbD x then a.unboardCmd (portId r x) else a) s1
  if v.getLsbD 31 then s2.snapCmd r else s2

/-- A write of TR_HBOARD_L, TR_HBOARD_H, TR_HUNBOARD_L or TR_HUNBOARD_H: ports `base` to `base` + 31 of the hub switch. -/
def State.hubBoardWrite (s : State) (base : Nat) (board : Bool) (v : HWord) : State :=
  (List.range 32).foldl (fun a x =>
    if v.getLsbD x ∧ base + x ≤ 32 then (if board then a.boardCmd (portId 256 (base + x)) else a.unboardCmd (portId 256 (base + x))) else a) s

/-- A write of TR_GSNAP. -/
def State.gsnapWrite (s : State) (v : HWord) : State :=
  let s1 := s.writeReg R.TR_GSNAP v
  if v.getLsbD 31 then { s1 with gsnap := true } else s1

/-- R203. -/
def execTrGsnapGo (v : BitVec 32) (s : State) : Res := .next (s.gsnapWrite (v ||| 0x80000000))

/-- R203, R277. The frame tick of TR_GSNAP.DOM arrives: the hub switch, every router and every hinge end capture; a router whose clock stands,
and a die that the tick has yet to reach, at their first edge after it. -/
def execGlobalCapture (s : State) : Res :=
  .next (
    if s.gsnapDue ≠ 0 ∧ s.hubRuns then
      let s1 := [12, 13].foldl State.snapEnd (s.captureRouter 256)
      let s2 := ((List.range 4).filter fun d => !s.dieDark d).foldl (fun (a : State) d => if s.pathUp d then a.captureDie d else a.captureLater d) s1
      { (s2.setFld R.TR_GSNAP F.TR_GSNAP.GSEQ (s.fld R.TR_GSNAP F.TR_GSNAP.GSEQ + 1)) with gsnapDue := s.gsnapDue - 1 }
    else s)

end Sys2Proof.Machine
end

