-- ==== Sys2Proof/Machine/Chain.lean ====
section
/-!
DEFINITION. The knock chain (R301–R308): locks, the head, knock rounds and addresses, its counters, configuration packets (R347), and the
management requests this device issues. What a management request does at its target stands in BusRows.
-/
namespace Sys2Proof.Machine

def State.withChn (s : State) (f : ChnSt → ChnSt) : State := { s with chn := f s.chn }

def State.isHead (s : State) : Bool := s.flag R.CHN_STAT F.CHN_STAT.HEAD

/-- Does a packet's CRC hold? -/
def chainOk (pk : ChainPkt) : Bool := decide (pk.crc.toNat = chainCrc pk.typ pk.dst pk.src pk.seq pk.payload)

/-- A packet with a bad CRC is discarded and counted; a good one of type `t` has the effect `f` (R302). Nothing is taken before
hub reset is released (Table 13.9). -/
def State.chainTake (s : State) (t : Nat) (pk : ChainPkt) (f : State → State) : State :=
  if ¬ s.chainRuns then s
  else if ¬ chainOk pk then s.addSat R.CHN_CNT F.CHN_CNT.CRCERR 1 else if pk.typ.toNat = t then f s else s

/-- Is a packet addressed to the device, by its address or by BCAST? A device without an address only forwards (R305). -/
def State.chainMine (s : State) (pk : ChainPkt) : Bool :=
  !s.flag R.CHN_STAT F.CHN_STAT.NOADDR &&
  (pk.dst.getLsbD 7 || (s.flag R.CHN_STAT F.CHN_STAT.AVALID && decide (pk.dst.toNat % 16 = s.chnAddr)))

/-- A packet that came downstream (`down`) or upstream goes on in its direction, unless it is addressed to the device alone. -/
def State.chainPass (s : State) (down : Bool) (pk : ChainPkt) : State :=
  if s.chainMine pk ∧ ¬ pk.dst.getLsbD 7 then s else s.sendChain down pk

/-! ### Rounds (R303–R306, R308) -/

/-- Payload octets of KNOCK: ROUND, NEXT, and the maps MAP, SMAP and RESV, each its most significant octet first (DESIGN CHOICE, log entry 171). -/
def knockOctets (round next map smap resv : Nat) : List Octet :=
  [round, next, map / 256, map, smap / 256, smap, resv / 256, resv].map (BitVec.ofNat 8 ·)

def oct (pk : ChainPkt) (i : Nat) : Nat := (pk.payload.getD i 0).toNat
def oct2 (pk : ChainPkt) (i : Nat) : Nat := oct pk i * 256 + oct pk (i + 1)

/-- The head starts a round, if none is in progress. -/
def State.startRound (s : State) : State :=
  if ¬ s.isHead ∨ s.chn.round ∨ ¬ s.chainRuns then s
  else
    let n := (s.chn.num + 1) % 256
    let s1 := s.withChn fun c => { c with round := true, num := n, gen := c.gen + 1, sent := c.sent + 1 }
    (s1.setFld R.CHN_STAT F.CHN_STAT.ROUND n).sendChain true (chainPk 1 0x80 0 0 (knockOctets n 1 1 0 s.chn.smap))

/-- A KNOCK_REQ, at the head. -/
def State.knockAsked (s : State) : State := if s.flag R.CHN_CFG F.CHN_CFG.AUTOK then s.startRound else s

/-- One character at a receiver that is locked or not, and whether it then is (R301): lock comes with 8 commas without a code error, and
goes with 4 errors in 16 characters or with 10 µs, 400 characters at 400 Mb/s, without a comma. -/
def ChainRx.take (r : ChainRx) (locked : Bool) (c : ChainChar) : ChainRx × Bool :=
  let bad := decide (c = .bad)
  let x : ChainRx :=
    { commas := if bad then 0 else if c = .comma then min 8 (r.commas + 1) else r.commas
      errs := (r.errs <<< 1) ||| (if bad then 1 else 0)
      quiet := if c = .comma then 0 else min 400 (r.quiet + 1) }
  let gone := decide (4 ≤ ((List.range 16).filter fun i => x.errs.getLsbD i).length ∨ 400 ≤ x.quiet)
  if locked then (if gone then ({}, false) else (x, true)) else if x.commas = 8 then ({}, true) else (x, false)

/-- R306. The lock of CHAIN_OUT_RX (`out`) or of CHAIN_IN_RX changes: the device asks for a knock. -/
def State.chainLock (s : State) (out lock : Bool) : State :=
  let s1 := s.setFld R.CHN_STAT (if out then F.CHN_STAT.OUTLK else F.CHN_STAT.INLK) (if lock then 1 else 0)
  let s2 := if out then s1.setFld R.CHN_STAT F.CHN_STAT.END (if lock then 0 else 1) else s1
  let s3 := s2.sendChain false (chainPk 7 0 s.chnAddr 0 [])
  if s.isHead then s3.knockAsked else s3

/-- A character comes in at CHAIN_OUT_RX (`out`) or CHAIN_IN_RX. -/
def State.chainChar (s : State) (out : Bool) (c : ChainChar) : State :=
  let was := s.flag R.CHN_STAT (if out then F.CHN_STAT.OUTLK else F.CHN_STAT.INLK)
  let r := (if out then s.chn.rxOut else s.chn.rxIn).take was c
  let s1 := s.withChn fun x => if out then { x with rxOut := r.1 } else { x with rxIn := r.1 }
  if r.2 = was then s1 else s1.chainLock out r.2

/-- R301, R306. Characters come in at CHAIN_OUT_RX (`out`) or at CHAIN_IN_RX, and its lock changes where they make it. -/
def execChainLockChange (out : Bool) (cs : List ChainChar) (s : State) : Res :=
  .next (if s.chainRuns then cs.foldl (fun a c => a.chainChar out c) s else s)

/-- R303. 2 ms have passed since the release of hub reset. -/
def execHeadElection (s : State) : Res :=
  .next (
    if s.chn.elected then s
    else
      let s1 := (s.withChn fun c => { c with elected := true }).setFld R.CHN_STAT F.CHN_STAT.END
        (if s.flag R.CHN_STAT F.CHN_STAT.OUTLK then 0 else 1)
      if s.flag R.CHN_STAT F.CHN_STAT.INLK then s1
      else ((s1.setFld R.CHN_STAT F.CHN_STAT.HEAD 1).setFld R.CHN_STAT F.CHN_STAT.ADDR 0).setFld R.CHN_STAT F.CHN_STAT.AVALID 1)

/-- R304. 2 ms have passed since the head's election. -/
def execKnockRoundStart (s : State) : Res := .next s.startRound

/-- The address a device takes (R305), and whether it is its sticky one. -/
def chooseAddr (sticky : Bool) (saddr : Nat) (present : Option Nat) (next map resv : Nat) : Option Nat × Bool :=
  let free := fun a => !map.testBit a; let clear := fun a => free a && !resv.testBit a
  let up := fun lo => (List.range 16).filter fun a => decide (lo ≤ a)
  if sticky ∧ saddr ≠ 0 ∧ free saddr then (some saddr, true)
  else match present.filter clear with
    | some a => (some a, false)
    | none => (((up next).find? clear <|> (up 1).find? clear) <|> (up 1).find? free, false)

/-- R304, R305. A KNOCK arrives from upstream. The head consumes one (R308; DESIGN CHOICE, log entry 126). -/
def execKnock (pk : ChainPkt) (s : State) : Res :=
  .next (s.chainTake 1 pk fun s =>
    if s.isHead then s.withChn fun c => { c with rcvd := c.rcvd + 1, cons := c.cons + 1 }
    else
      let sticky := s.flag R.CHN_CFG F.CHN_CFG.STICKY
      let present := if s.flag R.CHN_STAT F.CHN_STAT.AVALID then some s.chnAddr else none
      let r := chooseAddr sticky (s.fld R.CHN_CFG F.CHN_CFG.SADDR) present (oct pk 1) (oct2 pk 2) (oct2 pk 6)
      let s1 := (s.withChn fun c => { c with rcvd := c.rcvd + 1, sent := c.sent + 1 }).setFld R.CHN_STAT F.CHN_STAT.ROUND (oct pk 0)
      let s2 := if sticky ∧ ¬ r.2 then s1.setFld R.CHN_STAT F.CHN_STAT.ADDRCHG 1 else s1
      let map := match r.1 with | some a => oct2 pk 2 ||| 2 ^ a | none => oct2 pk 2
      let smap := match r.1 with | some a => if r.2 then oct2 pk 4 ||| 2 ^ a else oct2 pk 4 | none => oct2 pk 4
      let next := match r.1 with | some a => if 15 < a + 1 then 1 else a + 1 | none => oct pk 1
      let s3 := match r.1 with
        | some a => ((s2.setFld R.CHN_STAT F.CHN_STAT.ADDR a).setFld R.CHN_STAT F.CHN_STAT.AVALID 1).setFld R.CHN_STAT F.CHN_STAT.NOADDR 0
        | none => ((s2.setFld R.CHN_STAT F.CHN_STAT.AVALID 0).setFld R.CHN_STAT F.CHN_STAT.NOADDR 1).kprLose 2
      let s4 := s3.setReg R.CHN_MAP (BitVec.ofNat 32 (smap * 65536 + map))
      let os := knockOctets (oct pk 0) next map smap (oct2 pk 6)
      if s.flag R.CHN_STAT F.CHN_STAT.OUTLK then s4.sendChain true (chainPk 1 pk.dst.toNat pk.src.toNat pk.seq os)
      else s4.sendChain false (chainPk 2 pk.dst.toNat pk.src.toNat pk.seq os))

/-- R304. A KNOCK_END arrives from downstream: the head consumes it, and ends the round it is of. -/
def execKnockEnd (pk : ChainPkt) (s : State) : Res :=
  .next (s.chainTake 2 pk fun s =>
    let s1 := s.withChn fun c => { c with rcvd := c.rcvd + 1 }
    let show2 := fun (a : State) => a.setReg R.CHN_MAP (BitVec.ofNat 32 (oct2 pk 4 * 65536 + oct2 pk 2))
    if s.isHead then
      let s2 := s1.withChn fun c => { c with cons := c.cons + 1 }
      if s.chn.round ∧ oct pk 0 = s.chn.num then
        ((show2 s2).withChn fun c => { c with round := false, smap := oct2 pk 4 }).setFld R.CHN_STAT F.CHN_STAT.KDONE 1
      else s2
    else ((show2 s1).withChn fun c => { c with sent := c.sent + 1 }).sendChain false pk)

/-- R304. A KNOCK_REQ arrives from downstream. -/
def execKnockReq (pk : ChainPkt) (s : State) : Res :=
  .next (s.chainTake 7 pk fun s => if s.isHead then s.knockAsked else s.sendChain false pk)

/-- R304. 10 ms pass without KNOCK_END. -/
def execKnockTimeout (s : State) : Res :=
  .next (
    if s.isHead ∧ s.chn.round then (s.withChn fun c => { c with round := false }).setFld R.CHN_STAT F.CHN_STAT.KTO 1 else s)

/-! ### CHN_CTL -/

/-- SNAP captures every CHN_LEDGER index (R308, R350). -/
def State.chnSnap (s : State) : State :=
  let c := s.chn
  ([(0, c.gen), (1, c.rcvd), (2, c.sent), (3, c.cons), (4, c.held), (8, c.asserted), (9, c.released),
    (10, if c.low then 1 else 0), (11, c.seen)] : List (Nat × HWord)).foldl (fun a e => a.setReg (R.CHN_LEDGER e.1) e.2) s

/-- MGO: the MREQ in CHN_MBUF is sent to MDST (R307). -/
def State.mreqSend (s : State) : State :=
  let dst := s.fld R.CHN_CTL F.CHN_CTL.MDST; let m0 := s.reg (R.CHN_MBUF 0)
  if s.flag R.CHN_STAT F.CHN_STAT.MBUSY ∨ s.flag R.CHN_STAT F.CHN_STAT.NOADDR ∨ (dst ≠ 0 ∧ ¬ s.isHead) ∨ ¬ s.chainRuns then s
  else
    let n := if m0.getLsbD 31 then m0.toNat % 16 + 1 else 0
    let ws := (List.range (2 + n)).map fun i => s.reg (R.CHN_MBUF i)
    (s.setFld R.CHN_STAT F.CHN_STAT.MBUSY 1).sendChain (decide (dst ≠ 0)) (chainPk 4 dst s.chnAddr 0 (ws.flatMap hwOctets))

/-- A write of CHN_CTL. -/
def State.chnCtlWrite (s : State) (v : HWord) : State :=
  let s1 := s.writeReg R.CHN_CTL v
  let s2 := if v.getLsbD 31 then s1.chnSnap else s1
  let s3 := if v.getLsbD 30 then s2.startRound else s2
  if v.getLsbD 29 then s3.mreqSend else s3

/-- R304. -/
def execChnCtlKnock (v : BitVec 32) (s : State) : Res := .next (s.chnCtlWrite (v ||| 0x40000000))

/-- R307. -/
def execChnCtlMgo (v : BitVec 32) (s : State) : Res := .next (s.chnCtlWrite (v ||| 0x20000000))

/-- R308. -/
def execChnCtlSnap (v : BitVec 32) (s : State) : Res := .next (s.chnCtlWrite (v ||| 0x80000000))

/-- The request in progress ends with a status. -/
def State.mreqEnd (s : State) (st : Nat) : State :=
  ((s.setFld R.CHN_STAT F.CHN_STAT.MBUSY 0).setFld R.CHN_STAT F.CHN_STAT.MDONE 1).setFld R.CHN_STAT F.CHN_STAT.MSTATUS st

/-- R307. An MRSP arrives from upstream (`down`) or downstream. -/
def execMrsp (pk : ChainPkt) (down : Bool) (s : State) : Res :=
  .next (s.chainTake 5 pk fun s =>
    let s1 := s.chainPass down pk
    if ¬ s.chainMine pk ∨ ¬ s.flag R.CHN_STAT F.CHN_STAT.MBUSY then s1
    else
      let ws := hwOfOctets (pk.payload.drop 1)
      ((List.range (min 16 ws.length)).foldl (fun a i => a.setReg (R.CHN_RBUF i) (ws.getD i 0)) s1).mreqEnd (oct pk 0))

/-- R307. No reply has come within 1 ms. -/
def execMreqTimeout (s : State) : Res := .next (if s.flag R.CHN_STAT F.CHN_STAT.MBUSY then s.mreqEnd 1 else s)

/-! ### Configuration packets (R347) -/

/-- Octets of the image have arrived: its header is checked once it is there, its packets as far as they are. -/
def State.chainOctets (s : State) : State × BootFail :=
  let ws := hwOfOctets s.cfg.octs
  if s.cfg.head = [] then
    let h := ws.take (hLen ws)
    if ws.length < 10 then (s, none)
    else match s.headChecks ws with
      | some f => (s, some f)
      | none =>
        if ws.length < hLen ws then (s, none)
        else ((s.withCfg fun c => { c with runChain := true }).setFld R.CFG_BSTAT F.CFG_BSTAT.SRC 1).beginLoad h
  else if s.cfg.loaded then s.loadEnded
  else (s, s.bootAhead.map fun c => (c, none))

/-- Has a limit of R347's Failure item passed: 3 s from the release of hub reset without a packet, or 10 ms after one, before the whole image
has come? -/
def State.chainLate (s : State) : Bool :=
  decide (s.cfg.feed = .chain) && !s.cfg.up && !s.chainWhole &&
  (if s.cfg.octs = [] then decide (3000000000 * nsUnit ≤ s.tbu.run) else decide (10000000 * nsUnit < s.tbu.run - s.cfg.chainAt))

/-- R347. A CFG packet arrives from upstream. `late`: a limit of R347's Failure item had passed before it. The first is the start of the
stream (R372). -/
def execCfg (pk : ChainPkt) (late : Bool) (s : State) : Res :=
  .next (s.chainTake 3 pk fun s =>
    let s1 := s.chainPass true pk
    if ¬ s.chainMine pk ∨ s.cfg.feed ≠ .chain ∨ s.cfg.up then s1
    else if late ∨ s.chainLate ∨ pk.seq.toNat ≠ s.cfg.seq % 256 then s1.bootFailed 16 none
    else
      let s2 := if s.cfg.octs = [] then s1.jtagEnds else s1
      State.bootNext (s2.withCfg fun c => { c with octs := c.octs ++ pk.payload, seq := c.seq + 1, chainAt := s.tbu.run }).chainOctets)

end Sys2Proof.Machine
end

