-- ==== Sys2Proof/Machine/Keeper.lean ====
section
/-!
DEFINITION. The Keeper (Chapter 17): its channels and messages, the opening of a session, and the requests that need no bus access. The
bus accesses of its debug bus master stand in BusRows.
-/
namespace Sys2Proof.Machine

/-! ### Messages (R403, R404) -/

/-- LEN of a header host word. -/
def msgLen (h : HWord) : Nat := h.toNat % 64

/-- The payload lengths that a request of TYPE `t` calls for (Tables 17.2, 17.3); `w1` is its second payload word. -/
def lenOk (t n w1 : Nat) : Bool :=
  match t with
  | 0x01 => decide (n = 0) | 0x02 => decide (n = 36) | 0x03 => decide (n = 24) | 0x04 => decide (n = 61) | 0x05 => decide (n = 24)
  | 0x10 => decide (n = 2) | 0x11 => decide (2 ≤ n ∧ n ≤ 58) | 0x12 => decide (n = 2)
  | 0x13 => decide (n = 2 + 2 * (w1 / 256 % 32 + 1))
  | 0x20 => decide (n = 1) | 0x21 => decide (n = 1) | 0x22 => decide (n = 1) | 0x23 => decide (n = 1)
  | 0x24 => decide (n = 2) | 0x25 => decide (n = 4)
  | 0x30 => decide (n = 1) | 0x31 => decide (n = 0) | 0x32 => decide (n = 2) | 0x3F => decide (n = 0)
  | _ => true

/-- Is TYPE one of Tables 17.2 and 17.3? -/
def knownType (t : Nat) : Bool :=
  [0x01, 0x02, 0x03, 0x04, 0x05, 0x10, 0x11, 0x12, 0x13, 0x20, 0x21, 0x22, 0x23, 0x24, 0x25, 0x30, 0x31, 0x32, 0x3F].contains t

/-- Does the Keeper run: from the end of step 4 of Table 13.7 on, and not in HOLD (R400)? -/
def State.kprRuns (s : State) : Bool := decide (s.power = .on) && s.clk.started.getLsbD 0

/-- The first whole message on a channel: its words with its trailer. -/
def State.kprFront (s : State) (c : Nat) : Option (List HWord) :=
  match s.kprIn c with
  | [] => none
  | h :: ws => let n := 1 + msgLen h + s.trailLen c; if (h :: ws).length < n then none else some ((h :: ws).take n)

/-- The front message of a channel leaves its queue: counted in a session. -/
def State.kprDrop (s : State) (c : Nat) (m : List HWord) : State :=
  let s1 := s.withKpr fun k => { k with
    inq := SMap.set [] k.inq c ((SMap.get [] k.inq c).drop m.length)
    srcs := if c = 2 then k.srcs.drop 1 else k.srcs
    src := if c = 2 then k.srcs.headD (0, false) else k.src
    ctrIn := if s.inSession c then k.ctrIn + 1 else k.ctrIn }
  s1.kprShow

/-- The request that a message is, for its reply. -/
def State.kreq (s : State) (c : Nat) (m : List HWord) : KReq :=
  let h := (m.headD 0).toNat
  { chan := c, typ := h / 2 ^ 24, seq := h / 2 ^ 16 % 256, dst := s.kpr.src.1, down := s.kpr.src.2 }

def State.badMsg (s : State) : State := s.addSat R.KPR_STAT F.KPR_STAT.BADMSG 1

/-- A mailbox message too long for the 64 words of the mailbox is discarded by its header (R404); the rest of it is passed over as it comes. -/
def State.kprTooLong (s : State) : State :=
  match s.kprIn 0 with
  | [] => s
  | h :: ws =>
    let n := 1 + msgLen h + s.trailLen 0
    if n ≤ 64 then s
    else
      let m := (h :: ws).take n
      (((s.kprDrop 0 m).withKpr fun k => { k with skip := n - m.length })).badMsg

/-- The messages at the front of a channel's queue that the Keeper discards or answers by their TYPE alone are dealt with. -/
def State.kprSift (s : State) (c : Nat) : Nat → State
  | 0 => s
  | fuel + 1 =>
    match s.kprFront c with
    | none => if c = 0 then s.kprTooLong else s
    | some m =>
      let h := m.headD 0; let n := msgLen h; let body := m.take (1 + n); let t := h.toNat / 2 ^ 24
      let open' := s.inSession c
      let tagOk := decide (m.drop (1 + n) = s.trailer c false body)
      if (if open' then 58 else 61) < n ∨ (¬ open' ∧ ¬ tagOk) then ((s.kprDrop c m).badMsg).kprSift c fuel
      else if ¬ tagOk then (((s.kprDrop c m).setFld R.KPR_STAT F.KPR_STAT.BADTAG 1).kprEnd).kprSift c fuel
      else if ¬ lenOk t n (m.getD 2 0).toNat then ((s.kprDrop c m).badMsg).kprSift c fuel
      else if ¬ knownType t then
        let s1 := s.kprDrop c m
        (s1.kprReply (s1.kreq c m) (if open' then 3 else 8) []).kprSift c fuel
      else s

/-- Is a channel available (Table 17.1)? -/
def State.chanOpen (s : State) (c : Nat) : Bool :=
  s.kprRuns && match c with
  | 0 => true
  | 1 => s.flag R.KPR_CFG F.KPR_CFG.UEN
  | _ => s.flag R.KPR_CFG F.KPR_CFG.CEN && s.flag R.CHN_STAT F.CHN_STAT.AVALID

/-- The Keeper, where it runs, looks at what has come on a channel. -/
def State.kprLook (s : State) (c : Nat) : State := if s.kprRuns then s.kprSift c 256 else s

/-- Words arrive on a channel. -/
def State.kprArrive (s : State) (c : Nat) (ws : List HWord) : State :=
  ((s.withKpr fun k => { k with inq := SMap.set [] k.inq c (SMap.get [] k.inq c ++ ws) }).kprShow).kprLook c

/-- A write of KPR_TXD. -/
def State.txdWrite (s : State) (v : HWord) : State :=
  if s.kpr.skip ≠ 0 then s.withKpr fun k => { k with skip := k.skip - 1 }
  else if 64 ≤ (s.kprIn 0).length then s.setFld R.KPR_VTSTAT F.KPR_VTSTAT.TXOVR 1
  else s.kprArrive 0 [v]

/-- R404. -/
def execKprTxdWrite (v : BitVec 32) (s : State) : Res := .next (if s.power = .on then s.txdWrite v else s)

/-- A write of KPR_RXPOP. -/
def State.rxpopWrite (s : State) (v : HWord) : State :=
  if v.getLsbD 0 then (s.withKpr fun k => { k with outq := k.outq.drop 1 }).kprShow else s

/-- R404. -/
def execKprRxpopWrite (v : BitVec 32) (s : State) : Res := .next (if s.power = .on then s.rxpopWrite v else s)

/-- R404. 10 ms pass between two words of a mailbox message. -/
def execMailboxGapTimeout (s : State) : Res :=
  .next (
    if ¬ s.kprRuns then s
    else if s.kpr.skip ≠ 0 then s.withKpr fun k => { k with skip := 0 }
    else if s.kprIn 0 = [] ∨ (s.kprFront 0).isSome then s
    else ((s.withKpr fun k => { k with inq := SMap.set [] k.inq 0 [] }).kprShow).badMsg)

/-- An octet arrives on UART 3 for the Keeper: the pair 0x4B, 0x50 begins a message, whose words go on once it is whole. -/
def State.kprOctet (s : State) (o : Octet) : State :=
  match s.kpr.sync with
  | 0 => if o = 0x4B then s.withKpr fun k => { k with sync := 1 } else s
  | 1 => s.withKpr fun k => { k with sync := if o = 0x50 then 2 else if o = 0x4B then 1 else 0 }
  | _ =>
    let os := s.kpr.uart ++ [o]; let ws := hwOfOctets os
    if os.length % 4 = 0 ∧ ws.length = 1 + msgLen (ws.headD 0) + s.trailLen 1 then
      (s.withKpr fun k => { k with sync := 0, uart := [] }).kprArrive 1 ws
    else s.withKpr fun k => { k with uart := os }

/-- R391, R402. An octet arrives at UART u through a pin that supplies its input, with a parity or framing error or without. -/
def execUartRxOctet (u : Fin 4) (o : BitVec 8) (perr ferr : Bool) (s : State) : Res :=
  let par := s.fld (R.UART_CFG u) F.UART_CFG.PAR
  .next (
    if ¬ s.uartOn u ∨ s.supplier 2 u = none then s
    else if s.uartOwned u then (if s.kprRuns then s.kprOctet o else s)
    else s.uartTake u { octet := o, perr := perr && decide (par = 1 ∨ par = 2), ferr := ferr })

/-- R402. A KPR packet arrives from upstream (`down`) or downstream; the Keeper takes one addressed to the device. -/
def execKpr (pk : ChainPkt) (down : Bool) (s : State) : Res :=
  .next (s.chainTake 6 pk fun s =>
    let s1 := s.chainPass down pk
    if ¬ s.chainMine pk ∨ ¬ s.chanOpen 2 then s1
    else
      let ws := hwOfOctets pk.payload
      if pk.payload.length % 4 ≠ 0 ∨ ws = [] ∨ ws.length ≠ 1 + msgLen (ws.headD 0) + s.trailLen 2 then s1.badMsg
      else (s1.withKpr fun k => { k with srcs := k.srcs ++ [(pk.src.toNat % 16, down)] }).kprArrive 2 ws)

/-! ### Requests -/

/-- The front message of channel c, if it is a request of TYPE `t`, is taken: its request and payload go to `f`, which answers it. What came while
a session was open is looked at anew once it has ended. -/
def State.kprRow (s0 : State) (c t : Nat) (f : State → KReq → List HWord → State) : State :=
  let s := s0.kprLook c
  match s.kprFront c with
  | none => s
  | some m =>
    if (m.headD 0).toNat / 2 ^ 24 ≠ t ∨ ¬ s.chanOpen c then s
    else
      let s1 := s.kprDrop c m
      (f s1 (s1.kreq c m) ((m.drop 1).take (msgLen (m.headD 0)))).kprSift c 256

/-- A request of Table 17.3 that needs `level` (R407). -/
def State.kprAsk (s : State) (c t level : Nat) (f : State → KReq → List HWord → State) : State :=
  s.kprRow c t fun s r ws =>
    if ¬ s.inSession c then s.kprReply r 8 []
    else if s.fld R.KPR_STAT F.KPR_STAT.LEVEL < level then s.kprReply r 2 []
    else f s r ws

/-- A request that Table 17.2 gives no reply for where the opening stands: STATUS is a free value. -/
def State.kprOdd (s : State) (r : KReq) : State :=
  let v := s.free
  v.2.kprReply r (v.1 % 9) []

/-- `n` free host words. -/
def State.freeWords (s : State) : Nat → List HWord × State
  | 0 => ([], s)
  | n + 1 => let v := s.free; let r := v.2.freeWords n; (BitVec.ofNat 32 v.1 :: r.1, r.2)

/-- The device identity key (R405). -/
def State.devKey (s : State) : Nat := (s.otpVal 1).getD 0

/-- A public key of 24 host words in the form that is hashed: octet 0x04, then x and y. -/
def pointOctets (ws : List HWord) : List Octet := (4 : Octet) :: octetsOf ws

/-- Table 17.2, step 1. -/
def execIdent (c : Fin 3) (s : State) : Res :=
  .next (s.kprRow c 0x01 fun s r _ =>
    if s.inSession c then s.kprOdd r else s.kprReply r 0 (s.reg R.CFG_IDCODE :: Config.ecPublic s.devKey))

/-- Step 2. -/
def execHello (c : Fin 3) (s : State) : Res :=
  .next (s.kprRow c 0x02 fun s r ws =>
    if s.kprState ≠ 0 ∧ s.kprChan ≠ c.val then s.kprReply r 1 []
    else
      let s0 := if s.kprState = 0 then s else s.kprEnd
      let v := s0.free; let nk := v.2.freeWords 12
      let qk := Config.ecPublic v.1
      let sigd := Config.ecdsaSign s.devKey (Config.sha384 (octetsOf (ws ++ qk ++ nk.1)))
      let chal := qk ++ nk.1 ++ sigd
      let s1 := nk.2.withKpr fun k => { k with steps := 1, hello := ws, chal := chal, priv := v.1 }
      ((s1.setFld R.KPR_STAT F.KPR_STAT.STATE 1).setFld R.KPR_STAT F.KPR_STAT.CHAN c).kprReply r 0 chal)

/-- A step of the opening: where `ok` holds it goes on as `f` says, else the reply is AUTH and the opening is abandoned. -/
def State.openStep (s : State) (c t n : Nat) (ok : State → List HWord → Bool) (f : State → List HWord → State) : State :=
  s.kprRow c t fun s r ws =>
    if s.kprState ≠ 1 ∨ s.kprChan ≠ c ∨ s.kpr.steps ≠ n then s.kprOdd r
    else if ok s ws then (s.kprReply r 0 []) |> fun a => f a ws
    else s.kprClosed.kprReply r 7 []

/-- Is a key the owner's debug key (R405)? -/
def State.dkhOk (s : State) (qo : List HWord) : Bool :=
  match s.otpVal 5 with | some v => decide (Config.sha384 (pointOctets qo) = v) | none => false

/-- Step 3. -/
def execOwnk (c : Fin 3) (s : State) : Res :=
  .next (s.openStep c 0x03 1 State.dkhOk fun a ws => a.withKpr fun k => { k with steps := 2, ownk := ws })

/-- DBGMAX of SECCFG. -/
def State.dbgMax (s : State) : Nat := s.secCfg / 16 % 4

/-- The credential's level. -/
def credLevel (ws : List HWord) : Nat := (ws.headD 0).toNat % 4

/-- Does a credential hold under an owner key? -/
def State.credOk (s : State) (qo ws : List HWord) : Bool :=
  let bind := natOfOctets (octetsOf ((ws.drop 1).take 12))
  Config.ecdsaOk (octetsOf ((ws.drop 37).take 24)) (Config.sha384 (octetsOf (ws.take 37))) (octetsOf qo) &&
  decide ((bind = 0 ∨ bind = Config.sha384 (pointOctets (Config.ecPublic s.devKey))) ∧ 1 ≤ credLevel ws ∧ credLevel ws ≤ s.dbgMax)

/-- Step 4. -/
def execCred (c : Fin 3) (s : State) : Res :=
  .next (s.openStep c 0x04 2 (fun s ws => s.credOk s.kpr.ownk ws) fun a ws => a.withKpr fun k => { k with steps := 3, cred := ws })

/-- T (R405). -/
def KprSt.tHash (k : KprSt) : Nat := Config.sha384 (octetsOf (k.hello ++ k.chal ++ k.ownk ++ k.cred))

/-- Does a PROVE signature verify? -/
def KprSt.proveOk (k : KprSt) (ws : List HWord) : Bool := Config.ecdsaOk (octetsOf ws) k.tHash (octetsOf ((k.cred.drop 13).take 24))

/-- Steps 5 and 6. -/
def execProve (c : Fin 3) (s : State) : Res :=
  .next (s.openStep c 0x05 3 (fun s ws => s.kpr.proveOk ws) fun a ws =>
    let k := a.kpr
    let z := Config.ecdhX k.priv (k.hello.take 24)
    let key := Config.sha384 (z ++ octetsOf (k.hello.drop 24) ++ octetsOf ((k.chal.drop 24).take 12)) / 2 ^ 128
    let a1 := (a.withKpr fun k => { k with key := key, ctrIn := 0, ctrOut := 0, sig := ws }).setHalted []
    ((a1.setFld R.KPR_STAT F.KPR_STAT.STATE 2).setFld R.KPR_STAT F.KPR_STAT.LEVEL (credLevel k.cred)).setFld R.KPR_STAT
      F.KPR_STAT.SCHG 1)

/-- R405. 1 s has passed since the last reply of an opening. -/
def execOpeningTimeout (s : State) : Res := .next (if s.kprState = 1 then s.kprEnd else s)

/-- R406. 60 s have passed without a request that passes its tag. -/
def execSessionIdleTimeout (s : State) : Res := .next (if s.kprState = 2 then s.kprEnd.kprLook s.kprChan else s)

/-- R406. -/
def execBye (c : Fin 3) (s : State) : Res := .next (s.kprAsk c 0x3F 1 fun s r _ => (s.kprReply r 0 []).kprEnd)

/-! ### Halting, stepping and resuming (R410, R411) -/

/-- The target that a code names: an engine's number, or MC0 (none); not a target at all. -/
inductive Target where
  | engine (g : Nat)
  | mc0
  | bad

def targetOf (v : HWord) : Target :=
  let n := v.toNat
  if 0x100 ≤ n ∧ n < 0x300 then .engine (n - 0x100) else if n = mc0Code then .mc0 else .bad

/-- The words of a reply that gives a target's status. -/
def State.targetStatus (s : State) (t : Target) : List HWord :=
  match t with | .engine g => [s.engStatusView g] | .mc0 => [s.reg R.KPR_HSTAT] | .bad => []

/-- The payload's first word. -/
def pay (ws : List HWord) (i : Nat) : HWord := ws.getD i 0

/-- Note a target as halted in the session. -/
def State.noteHalted (s : State) (t : Nat) : State := s.setHalted (t :: s.kpr.halted.filter fun x => !decide (x = t))

/-- HALT of an engine or of MC0. -/
def execHalt (c : Fin 3) (s : State) : Res :=
  .next (s.kprAsk c 0x20 2 fun s r ws =>
    match targetOf (pay ws 0) with
    | .bad => s.kprReply r 3 []
    | .engine g =>
      let s := s.wdogSettle g
      let x := s.eng g
      if x.state = .run then
        let s1 := ((s.setEng g { x with state := .halt }).settlePortB g).noteHalted (0x100 + g)
        s1.kprReply r 0 [s1.engStatusView g]
      else s.kprReply r 4 []
    | .mc0 =>
      if s.core0.pend then s.kprReply r 1 []
      else if s.core0.halted then s.kprReply r 4 []
      else if s.core0.locks ≠ [] then (s.setMc0 false true false).withKpr fun k => { k with due := some r }
      else
        let s1 := (s.setMc0 true false false).noteHalted mc0Code
        s1.kprReply r 0 [s1.reg R.KPR_HSTAT])

/-- The deferred halt of MC0 comes, `held`: with its lock still held. -/
def State.haltComes (s : State) (held : Bool) : State :=
  if ¬ s.core0.pend then s
  else
    let s1 := ((s.setMc0 true false held).noteHalted mc0Code).withKpr fun k => { k with due := none }
    match s.kpr.due with
    | some r => s1.kprReply r 0 [s1.reg R.KPR_HSTAT]
    | none => s1

/-- R411. 1,024 MC0 cycles have passed since the halt's arrival. -/
def execMc0HaltDeferExpiry (s : State) : Res := .next (s.haltComes true)

/-- RESUME. -/
def execResume (c : Fin 3) (s : State) : Res :=
  .next (s.kprAsk c 0x21 2 fun s r ws =>
    match targetOf (pay ws 0) with
    | .bad => s.kprReply r 3 []
    | .engine g =>
      if (s.eng g).state = .halt then (let s1 := s.resumeTarget (0x100 + g); s1.kprReply r 0 [s1.engStatusView g])
      else s.kprReply r 4 []
    | .mc0 =>
      if s.core0.pend then s.kprReply r 1 []
      else if s.core0.halted then (let s1 := s.resumeTarget mc0Code; s1.kprReply r 0 [s1.reg R.KPR_HSTAT])
      else s.kprReply r 4 [])

/-- An engine in HALT issues the bundle at PC once: it halts again unless the bundle ends its execution, and its watchdog stands still. -/
def State.engStep (s : State) (g : Nat) : State :=
  let x := s.eng g
  if ¬ s.engClocked g then s
  else
    let s1 := ((s.latchLaunch g).setEng g { x with state := .run, stall := 0, wdLoad := 0 }).engCycle g
    let y := s1.eng g
    if y.state = .run then (s1.setEng g { y with state := .halt, wdog := x.wdog, wdLoad := x.wdLoad }).settlePortB g
    else (s1.setEng g { y with wdog := x.wdog, wdLoad := x.wdLoad }).setHalted (s1.kpr.halted.filter fun t => !decide (t = 0x100 + g))

/-- MC0 runs one instruction, which the spec does not give: pc, one register and one CSR take free values. -/
def State.mc0Step (s : State) : State :=
  let r := s.freeWords 5
  let w := fun i => r.1.getD i 0
  let k := 1 + (w 1).toNat % 31
  { r.2 with core0 := { r.2.core0 with
      pc := w 0, x := SMap.set 0 r.2.core0.x k (w 2), csr := SMap.set 0 r.2.core0.csr ((w 3).toNat % 4096) (w 4) } }

/-- STEP. -/
def execStep (c : Fin 3) (s : State) : Res :=
  .next (s.kprAsk c 0x22 2 fun s r ws =>
    match targetOf (pay ws 0) with
    | .bad => s.kprReply r 3 []
    | .engine g =>
      if (s.eng g).state = .halt then (let s1 := s.engStep g; s1.kprReply r 0 [s1.engStatusView g]) else s.kprReply r 4 []
    | .mc0 =>
      if s.core0.pend then s.kprReply r 1 []
      else if s.core0.halted then (let s1 := s.mc0Step; s1.kprReply r 0 [s1.reg R.KPR_HSTAT])
      else s.kprReply r 4 [])

/-- TSTAT. -/
def execTstat (c : Fin 3) (s : State) : Res :=
  .next (s.kprAsk c 0x23 1 fun s r ws =>
    match targetOf (pay ws 0) with
    | .bad => s.kprReply r 3 []
    | t => s.kprReply r 0 (s.targetStatus t))

/-! ### Registers of targets (R412, Table 17.5) -/

/-- May an engine's registers be read and written? -/
def EngSt.rests (x : EngSt) : Bool := decide (x.state = .halt ∨ x.state = .idle ∨ x.state = .stopped ∨ x.state = .fault)

/-- The value of an engine register code, as 64 bits. -/
def EngSt.regAtCode (x : EngSt) (k : Nat) : Option Nat :=
  if k < 0x40 then some (SMap.get 0 x.v k).toNat
  else if k < 0x48 then
    some (wrapTo 64 (if k % 2 = 0 then SMap.get 0 x.aRe ((k - 0x40) / 2) else SMap.get 0 x.aIm ((k - 0x40) / 2)))
  else if k = 0x48 then some x.p.toNat
  else if 0x50 ≤ k ∧ k < 0x58 then some (x.xr (k - 0x50)).toNat
  else if 0x58 ≤ k ∧ k < 0x5B ∨ 0x60 ≤ k ∧ k < 0x63 ∨ k = 0x66 then some (x.control (if k < 0x60 then k - 0x55 else k - 0x60)).toNat
  else if k = 0x70 then some x.pc
  else none

/-- An engine with the register of a code written; none where the write is a BADREQ. -/
def EngSt.putCode (x : EngSt) (k v : Nat) : Option EngSt :=
  if k < 0x40 then some { x with v := SMap.set 0 x.v k (BitVec.ofNat 40 v) }
  else if k < 0x48 then
    let h := signedOf 56 v
    some (if k % 2 = 0 then { x with aRe := SMap.set 0 x.aRe ((k - 0x40) / 2) h } else { x with aIm := SMap.set 0 x.aIm ((k - 0x40) / 2) h })
  else if k = 0x48 then (if v % 2 = 1 then some { x with p := BitVec.ofNat 8 v } else none)
  else if 0x50 ≤ k ∧ k < 0x58 then some (EngW.setControl { x := x } (8 + (k - 0x50)) (BitVec.ofNat 40 v)).x
  else if k = 0x62 ∧ rrbIllegal v then none
  else if 0x60 ≤ k ∧ k < 0x63 ∨ k = 0x66 then some (EngW.setControl { x := x } (k - 0x60) (BitVec.ofNat 40 v)).x
  else if k = 0x70 then some { x with pc := v % 4096 }
  else none

/-- The value of an MC0 register code. -/
def CoreSt.regAtCode (x : CoreSt) (k : Nat) : Option Nat :=
  if 1 ≤ k ∧ k < 0x20 then some (SMap.get 0 x.x k).toNat else if k = 0x20 then some x.pc.toNat
  else if 0x1000 ≤ k ∧ k < 0x2000 then some (SMap.get 0 x.csr (k - 0x1000)).toNat else none

def CoreSt.putCode (x : CoreSt) (k v : Nat) : CoreSt :=
  let w := BitVec.ofNat 32 v
  if k < 0x20 then { x with x := SMap.set 0 x.x k w } else if k = 0x20 then { x with pc := w }
  else { x with csr := SMap.set 0 x.csr (k - 0x1000) w }

/-- The two words of a register's value. -/
def valueWords (n : Nat) : List HWord := [BitVec.ofNat 32 n, BitVec.ofNat 32 (n / 2 ^ 32)]

/-- RREG. -/
def execRreg (c : Fin 3) (s : State) : Res :=
  .next (s.kprAsk c 0x24 1 fun s r ws =>
    let k := (pay ws 1).toNat
    match targetOf (pay ws 0) with
    | .bad => s.kprReply r 3 []
    | .engine g =>
      match (s.eng g).regAtCode k with
      | none => s.kprReply r 3 []
      | some n => if (s.eng g).rests then s.kprReply r 0 (valueWords n) else s.kprReply r 4 []
    | .mc0 =>
      match s.core0.regAtCode k with
      | none => s.kprReply r 3 []
      | some n => if s.core0.halted then s.kprReply r 0 (valueWords n) else s.kprReply r 4 [])

/-- WREG. -/
def execWreg (c : Fin 3) (s : State) : Res :=
  .next (s.kprAsk c 0x25 2 fun s r ws =>
    let k := (pay ws 1).toNat; let v := (pay ws 3).toNat * 2 ^ 32 + (pay ws 2).toNat
    match targetOf (pay ws 0) with
    | .bad => s.kprReply r 3 []
    | .engine g =>
      match (s.eng g).putCode k v with
      | none => s.kprReply r 3 []
      | some x => if (s.eng g).rests then (s.setEng g x).kprReply r 0 [] else s.kprReply r 4 []
    | .mc0 =>
      if (s.core0.regAtCode k).isNone then s.kprReply r 3 []
      else if s.core0.halted then ({ s with core0 := s.core0.putCode k v } : State).kprReply r 0 []
      else s.kprReply r 4 [])

/-! ### The deadbolt (R414, R415) -/

/-- WDSUSP: SC verifies the owner key, the credential and the PROVE signature itself; once it has stopped (R374) it verifies nothing. -/
def execWdsusp (c : Fin 3) (s : State) : Res :=
  .next (s.kprAsk c 0x30 3 fun s r ws =>
    let n := (pay ws 0).toNat
    if n = 0 ∨ 3600 < n then s.kprReply r 3 []
    else if s.db.scDead ∨ ¬ (s.dkhOk s.kpr.ownk && s.credOk s.kpr.ownk s.kpr.cred && s.kpr.proveOk s.kpr.sig && decide (credLevel s.kpr.cred = 3)) then
      s.kprReply r 7 []
    else if s.flag R.DB_WDT F.DB_WDT.SUSP then s.kprReply r 0 []
    else
      let s1 := (s.setFld R.DB_WDT F.DB_WDT.SUSP 1).addSat R.DB_LOG F.DB_LOG.NSUSP 1
      (s1.withKpr fun k => { k with susp := true, suspAt := s.tbu.run / nsUnit }).kprReply r 0 [])

/-- WDRES. -/
def execWdres (c : Fin 3) (s : State) : Res := .next (s.kprAsk c 0x31 3 fun s r _ => s.suspEnd.kprReply r 0 [])

/-- The bits of a deadbolt block register, by its offset in the block, that DBCLR may name. -/
def dbclrBits (off : Nat) : HWord :=
  if off = 0x000 then 0x80000000 else if off = 0x004 then 0x8000FFFF else if off = 0x010 then 0x1FF else if off = 0x014 then 3
  else if 0x50000 + off = R.CM_STATUS then 0x3F00 else 0

/-- Those of them whose condition is absent now (R415). -/
def State.dbclrFree (s : State) (off : Nat) : HWord :=
  let db := s.db; let all := dbclrBits off
  if off = 0x010 then all &&& ~~~ (db.out.setWidth 32)
  else if off = 0x014 then
    let lim := fun (l : Int) => (List.range 19).all fun i => decide (s.temp i < 8 * l)
    (if lim (s.ttrip : Nat) then 2 else 0) ||| (if lim (s.twarn : Nat) then 1 else 0)
  else if 0x50000 + off = R.CM_STATUS then all &&& ~~~ (BitVec.ofNat 32 (s.fld R.CM_STATUS F.CM_STATUS.OUT * 256))
  else all

/-- DBCLR: SC clears the named bits whose condition is absent; a bit of BADBEAT clears the count. The reply names those that it changed from 1;
once SC has stopped (R374) none. -/
def execDbclr (c : Fin 3) (s : State) : Res :=
  .next (s.kprAsk c 0x32 2 fun s r ws =>
    let off := (pay ws 0).toNat; let m := pay ws 1
    if dbclrBits off = 0 ∨ m &&& ~~~ dbclrBits off ≠ 0 then s.kprReply r 3 []
    else
      let clr := m &&& s.dbclrFree off; let v := s.reg (0x50000 + off)
      let wipe : HWord := if s.db.scDead then 0 else if off = 0x004 ∧ clr &&& 0xFFFF ≠ 0 then clr ||| 0xFFFF else clr
      (s.setReg (0x50000 + off) (v &&& ~~~ wipe)).kprReply r 0 [v &&& wipe])

end Sys2Proof.Machine
end

