-- ==== Sys2Proof/Machine/Complete.lean ====
section
/-!
DEFINITION. Completions at their initiators (R184, R186, R188), the completion timers and the quarantine of tags (R189).
-/
namespace Sys2Proof.Machine

/-- The end of a request: its words, or none with the cause of its failure (Table 8.5). `xpar`: a word of them fails byte parity. -/
def State.settle (s : State) (o : Outst) (ws : Option (List Word)) (e : Nat) (xpar : Bool) : State :=
  match o.why with
  | .engRead g x n => match ws with
    | some l => s.landDm g x (l.take n)
    | none => s.engRaise g F.ENG_ERR.TERR
  | .engWrite g => if ws.isNone then s.engRaise g F.ENG_ERR.TERR else s
  | .mover blk => s.moverDone blk o.tag ws xpar
  | .bar2Read id part => s.b2Cpl id part o.len ws
  | .bar2Write => s
  | .dma id part => s.dmaCpl id part o.len (if ws.isNone then e else 0) (ws.getD [])
  | .keeper id => match s.kpr.trans.find? fun t => decide (t.1 = id) with
    | none => s
    | some t =>
      let s1 := s.withKpr fun k => { k with trans := k.trans.filter fun x => !decide (x.1 = id) }
      match ws with
      | some l => (s1.kprReply t.2 0 (if o.cmd = cRD then hwOfOctets (l.flatMap slotOctets) else [])).kprSift t.2.chan 256
      | none => (s1.kprReply t.2 (5 + 256 * e) []).kprSift t.2.chan 256
  | .core c =>
    if c = 0 ∧ o.cmd = cRDLK ∧ ws.isSome then { s with core0 := { s.core0 with locks := o.addr.toNat :: s.core0.locks } } else s
  | .extern => s

/-- A completion reaches the initiator port `pk.dst` (R186, R189). -/
def State.complete (s : State) (pk : Packet) : State :=
  let port := pk.dst; let tag := pk.tag.val; let r := routerOf port
  let late := fun (a : State) => a.addSat (trErr r) (if r = 256 then F.HTR_ERR.LATE else F.TR_ERR.LATE) 1
  match s.outst.find? fun o => decide (o.port = port ∧ o.tag = tag) with
  | some o =>
    let s1 := { s with outst := s.outst.erase o }
    s1.settle o (if pk.cmd = cCPL then some pk.data else none) pk.ecode (anyFails pk)
  | none => late { s with quar := s.quar.filter fun x => !decide (x = (port, tag)) }

/-- Has the completion come: the next of its priority at its initiator (R187), or made by the interface itself (R185)? -/
def State.takeCpl (s : State) (pk : Packet) : Option State :=
  if s.headAt pk.dst (vcOf pk) = some pk then some (s.popTin pk.dst (vcOf pk))
  else if pk ∈ s.selfCpl then some { s with selfCpl := s.selfCpl.erase pk }
  else none

/-- A completion of command `c` is delivered. -/
def State.deliver (s : State) (c : Fin 16) (pk : Packet) : State :=
  if pk.cmd ≠ c then s else match s.takeCpl pk with | some s1 => s1.complete pk | none => s

/-- R186. -/
def execCpl (pk : Packet) (s : State) : Res := .next (s.deliver cCPL pk)

/-- R184. -/
def execCple (pk : Packet) (s : State) : Res := .next (s.deliver cCPLE pk)

/-- R181, R192. MC0 halts after the instruction that issues the WRUL by which its last locked sequence ends (R411). -/
def execPacketForward (i : Fin 16448) (pk : Packet) (s : State) : Res :=
  let t := s.forward i pk
  .next (if s.core0.locks ≠ [] ∧ t.core0.locks = [] then t.haltComes false else t)

/-- R189. A request has been outstanding for RQTO × 1,024 cycles. -/
def execRequestTimeout (port : Fin 16448) (tag : Fin 1024) (s : State) : Res :=
  let r := routerOf port
  .next (
    if s.fld (trCtl r) F.TR_CTL.RQTO = 0 ∨ ¬ s.routerRuns r then s
    else match s.outst.find? fun o => decide (o.port = port.val ∧ o.tag = tag.val) with
      | none => s
      | some o =>
        let s1 := { s with outst := s.outst.erase o, quar := s.quar ++ [(port.val, tag.val)] }
        (s1.settle o none 6 false).addSat (trErr r) (if r = 256 then F.HTR_ERR.TOUT else F.TR_ERR.TOUT) 1)

/-- R189. -/
def execQuarantineEnd (port : Fin 16448) (tag : Fin 1024) (s : State) : Res :=
  .next { s with quar := s.quar.filter fun x => !decide (x = (port.val, tag.val)) }

end Sys2Proof.Machine
end

