-- ==== Sys2Proof/Machine/Cells.lean ====
section
/-!
DEFINITION. Tirpel-40 cell code (Chapter 3): one cell cycle (Table 2.5) as one operation, and the meaning of every opcode over it.
-/
namespace Sys2Proof.Machine

/-- What a legal instruction finds at the start of its cycle. -/
structure CellEnv where
  l : BitVec 48
  mode : Nat
  imm : Nat
  a : Word
  b : Word
  c : Word
  x : CellSt
  deriving DecidableEq, Repr

/-- The queue effect of an opcode. -/
inductive QAct where
  | none | pop | push (tag : Bool) | slam
  deriving DecidableEq, Repr

/-- The location fields of PANE_LVERR and PANE_LVILL for a cell and the louvre and slot issued (Tables 2.8, 3.11). -/
def cellLoc (tile c lv slot : Nat) : Nat :=
  tile / 8 * 2 ^ 14 + tile % 8 * 2 ^ 11 + c / 8 * 2 ^ 9 + c % 8 * 2 ^ 6 + lv * 8 + slot

/-- A capture by a cell (R47, R74): as `State.capture`, but among the cells that fail in one cycle the one with the lowest
coordinate stands. `stamp` is the cycle (plus 1) of the capture held. -/
def State.captureCell (s : State) (pane off : Nat) (mask loc : Nat) (stamp : Nat) : State :=
  let u := s.cyc pane
  if stamp = u + 1 ∧ (s.reg off).getLsbD 31 then
    let s1 := s.addSat off F.PANE_LVERR.COUNT 1
    let old := (s.reg off).toNat % 2 ^ 17 / 2 ^ 6
    if loc % 2 ^ 17 / 2 ^ 6 < old then
      s1.setReg off ((s1.reg off &&& ~~~(BitVec.ofNat 32 mask)) ||| (BitVec.ofNat 32 loc &&& BitVec.ofNat 32 mask))
    else s1
  else s.capture off (BitVec.ofNat 32 mask) (BitVec.ofNat 32 loc) 1

/-- A cell that executes as NOP in the present cycle, its SEQ taken as NEXT (R58). -/
def State.cellNop (s : State) (pane tile c lv : Nat) : State :=
  let key := cellKey pane tile c; let x := s.cell key
  s.setCell key { x with ran := s.cyc pane + 1, outPrev := x.out, redir := .next, lastLv := lv, wroteOut := false, casc := [] }

/-- A louvre that fails parity (R31, R47). -/
def State.cellParity (s : State) (pane tile c lv : Nat) : State :=
  let off := R.PANE_LVERR (pane / 64) (pane % 64); let x := s.pane pane
  let fresh := !(s.reg off).getLsbD 31
  let s1 := s.captureCell pane off 0x1FFFF (cellLoc tile c lv x.slot) x.errCyc
  (if fresh then s1.setPane pane { s1.pane pane with errCyc := x.cycle + 1 } else s1).cellNop pane tile c lv

/-- A louvre that is illegal (R73, R74). -/
def State.cellIllegal (s : State) (pane tile c lv cause : Nat) : State :=
  let off := R.PANE_LVILL (pane / 64) (pane % 64); let x := s.pane pane
  let fresh := !(s.reg off).getLsbD 31
  let s1 := s.captureCell pane off 0xFFFFF (cause * 2 ^ 17 + cellLoc tile c lv x.slot) x.illCyc
  (if fresh then s1.setPane pane { s1.pane pane with illCyc := x.cycle + 1 } else s1).cellNop pane tile c lv

/-- The queue effect of an executed instruction: the value popped with its tag and whether it was real, whether a push was
refused, and the state after it (R42, R44, R71, R72). A POP of an unbound consumer has tag 0 (DESIGN CHOICE, log entry 161). -/
def State.cellQueue (s : State) (pane tc : Nat) (act : QAct) (a : Word) : (Word × Bool × Bool) × Bool × State :=
  match act with
  | .none => ((0, false, false), false, s)
  | .pop =>
    let b := s.cellBinding pane tc false
    if s.served pane b false (.cell tc) then
      let r := s.popBound pane b.2.1 b.2.2
      (r.1, false, r.2)
    else ((0, false, false), false, s)
  | .push tag =>
    let b := s.cellBinding pane tc true
    if s.served pane b true (.cell tc) then
      let r := s.pushBound pane b.2.1 b.2.2 a tag
      ((0, false, false), !r.1, r.2)
    else ((0, false, false), true,
      if s.bound pane b.1 b.2.1 b.2.2 ∧ s.queueMode pane b.2.1 then s.refuse pane b.2.1 b.2.2 1 else s)
  | .slam =>
    let b := s.cellBinding pane tc false
    ((0, false, false), false,
      if s.served pane b false (.cell tc) ∧ s.queueMode pane b.2.1 then s.slamBound pane b.2.1 b.2.2 else s)

/-- Write the destination (Table 3.3). -/
def CellSt.writeDst (x : CellSt) (dst : Nat) (r : Word) : CellSt :=
  match dst with
  | 0 => { x with q0 := r }
  | 1 => { x with q1 := r }
  | 2 => { x with q2 := r }
  | 3 => { x with q3 := r }
  | 4 => { x with out := r }
  | 5 => { x with out := r, q0 := r }
  | 6 => { x with out := r, q1 := r }
  | _ => x

/-- Execute a legal louvre of the opcode (Table 2.5, steps 3 to 7). -/
def State.cellExec (s : State) (pane tile c : Nat) (is : Issue) (row : OpRow) (f : State → CellEnv → AluRes) (act : QAct) :
    State :=
  let l := is.word; let key := cellKey pane tile c; let x := s.cell key; let tc := 32 * tile + c
  let mode := lvLane l; let imm := lvImm l
  let src := fun use code => if use then s.source pane tile c mode imm code else (0 : Word)
  let env : CellEnv := ⟨l, mode, imm, src row.a (lvA l), src row.b (lvB l), src row.c (lvC l), x⟩
  let holds := condHolds x mode (lvCond l)
  let res := f s env
  let q := s.cellQueue pane tc (if holds then act else .none) env.a
  let r := if act = .pop then q.1.1 else res.r
  let x1 := if holds ∧ row.dst then x.writeDst (lvDst l) r else x
  let x2 : CellSt := if holds then
    { x1 with
      c := match res.fl with | some fl => fl.c | none => x.c
      z := match res.fl with | some fl => fl.z | none => x.z
      n := match res.fl with | some fl => fl.n | none => x.n
      v := match res.fl with | some fl => fl.v | none => x.v
      sat := (if res.satClr then 0 else x.sat) ||| res.sat
      qi := if act = .pop then !q.1.2.2
            else if (usedCodes l row).contains 23 then !(s.queueHead pane tc).2.2 else x.qi
      qr := match act with | .push _ => q.2.1 | _ => x.qr
      qt := if act = .pop then q.1.2.1 else x.qt }
    else x1
  let casc := if lvOp l = 0x3C then [env.a, env.b, env.c, s.source pane tile c 0 imm (bitsOf imm 11 7)] else []
  q.2.2.setCell key { x2 with
    ran := s.cyc pane + 1, outPrev := x.out, redir := seqRedir x2 (lvSeq l) is.lv, lastLv := is.lv.getD 8
    wroteOut := holds && row.dst && decide (4 ≤ lvDst l ∧ lvDst l ≤ 6), casc := casc }

/-- One cell cycle of the commanded opcode (Table 2.5): `dt` edges of the pane's cell clock pass, then the cell executes what it
issues, if that is the opcode named. A louvre that fails parity or is illegal executes as NOP; it is met by the command of its own
opcode field or by NOP. A command whose opcode is not what the cell issues, or that comes a second time in a cycle, changes nothing
more. -/
def State.cellOp (s : State) (op : Nat) (c : CellId) (dt : Nat) (f : State → CellEnv → AluRes) (act : QAct) : State :=
  let pane := paneId c.d c.p; let tile := 8 * c.tr.val + c.tc.val; let n := 8 * c.k.val + c.n.val
  let s1 := s.advance pane dt
  if c.tc.val = 4 ∨ (s1.cell (cellKey pane tile n)).ran = s1.cyc pane + 1 then s1
  else match s1.issued pane tile n with
  | none => s1
  | some is =>
    let lv := is.lv.getD 0
    if lvOp is.word ≠ op ∧ op ≠ 0 then s1
    else if is.lv.isSome ∧ s1.lvParAt (s1.liveCopy pane) pane tile n lv ≠ louvreParity is.word then s1.cellParity pane tile n lv
    else match illegalCause is.word with
    | some cause => s1.cellIllegal pane tile n lv cause
    | none =>
      if lvOp is.word ≠ op then s1
      else match opRow is.word with
      | some row => s1.cellExec pane tile n is row f act
      | none => s1

/-- An opcode that computes a result from its operands alone. -/
def State.cellAlu (s : State) (op : Nat) (c : CellId) (dt : Nat) (f : CellEnv → AluRes) : State :=
  s.cellOp op c dt (fun _ e => f e) .none

/-! ### Results of the opcodes -/

/-- A carry flag of the cell as a number. -/
def CellSt.carry (x : CellSt) (j : Nat) : Nat := if x.c.getLsbD j then 1 else 0

/-- Unsigned and signed lane values as integers. -/
def laneU (m j : Nat) (x : Word) : Int := lane m j x

/-- The shift amount of lane `j` (R63). -/
def shiftAmt (e : CellEnv) (j : Nat) : Nat := if e.imm.testBit 11 then lane e.mode j e.b % 64 else e.imm % 64

/-- The amount of a funnel shift (R64). -/
def funnelAmt (e : CellEnv) : Nat := if e.imm.testBit 11 then min (e.c.toNat % 64) 40 else e.imm % 64

/-- Bits [79−k:40−k] of a:b (R64). -/
def funnel (a b : Word) (k : Nat) : Word := BitVec.ofNat 40 ((a.toNat * 2 ^ 40 + b.toNat) / 2 ^ (40 - k))

/-- The flag image (Table 3.10). -/
def flagImage (x : CellSt) : Word :=
  let b := fun (v : Bool) (n : Nat) => if v then 2 ^ n else 0
  BitVec.ofNat 40 (b x.qt 27 + b x.qr 26 + b x.qi 25 + x.c.toNat * 2 ^ 20 + x.z.toNat * 2 ^ 15 + x.n.toNat * 2 ^ 10 +
    x.v.toNat * 2 ^ 5 + x.sat.toNat)

/-- The flag SEL tests at position `j` (R68). -/
def selFlag (x : CellSt) (k j : Nat) : Bool :=
  match k with | 0 => x.c.getLsbD j | 1 => x.z.getLsbD j | 2 => x.n.getLsbD j | 3 => x.v.getLsbD j | _ => x.sat.getLsbD j

/-- A truth-table function of three words (R68). -/
def log3 (t : Nat) (a b c : Word) : Word :=
  let bit := fun (x : Word) i => if x.getLsbD i then 1 else 0
  BitVec.ofNat 40 (((List.range 40).map fun i => if t.testBit (4 * bit a i + 2 * bit b i + bit c i) then 2 ^ i else 0).sum)

/-- An operand of a multiplication of width `w`, in the signedness of IMM[11] (R67). -/
def mulVal (e : CellEnv) (w x : Nat) : Int := if e.imm.testBit 11 then signedOf w x else ((x % 2 ^ w : Nat) : Int)

/-- The exact 20 × 20 product (R67). -/
def mulW (e : CellEnv) : Word := BitVec.ofInt 40 (mulVal e 20 e.a.toNat * mulVal e 20 e.b.toNat)

/-- Signed values of half `h` of a word. -/
def halfS (x : Word) (h : Nat) : Int := laneS 1 h x

/-! ### The opcodes (Table 3.7) -/

/-- R31: writes nothing; its SEQ acts. -/
def execNop (c : CellId) (dt : Nat) (s : State) : Res := .next (s.cellAlu 0x00 c dt fun _ => { r := 0 })

/-- R70. -/
def aluFclr (e : CellEnv) : AluRes :=
  { r := 0, fl := if e.imm.testBit 1 then some ⟨0, 0, 0, 0⟩ else none, satClr := e.imm.testBit 0 }

def execFclr (c : CellId) (dt : Nat) (s : State) : Res := .next (s.cellAlu 0x01 c dt aluFclr)

def aluFget (e : CellEnv) : AluRes := { r := flagImage e.x }

def execFget (c : CellId) (dt : Nat) (s : State) : Res := .next (s.cellAlu 0x02 c dt aluFget)

def aluMov (e : CellEnv) : AluRes := { r := e.a }

def execMov (c : CellId) (dt : Nat) (s : State) : Res := .next (s.cellAlu 0x03 c dt aluMov)

def aluMovk (e : CellEnv) : AluRes := { r := (e.a <<< 12) ||| BitVec.ofNat 40 e.imm }

def execMovk (c : CellId) (dt : Nat) (s : State) : Res := .next (s.cellAlu 0x04 c dt aluMovk)

def aluAdd (e : CellEnv) : AluRes := addRes e.mode (fun _ => 0) e.a e.b

def execAdd (c : CellId) (dt : Nat) (s : State) : Res := .next (s.cellAlu 0x08 c dt aluAdd)

/-- ADC takes C[j] as it stood at the start of the cycle (R60). -/
def aluAdc (e : CellEnv) : AluRes := addRes e.mode e.x.carry e.a e.b

def execAdc (c : CellId) (dt : Nat) (s : State) : Res := .next (s.cellAlu 0x09 c dt aluAdc)

def aluAddu (e : CellEnv) : AluRes :=
  satRes e.mode satU (fun j => laneU e.mode j e.a + laneU e.mode j e.b)
    fun j => decide (2 ^ laneW e.mode ≤ lane e.mode j e.a + lane e.mode j e.b)

def execAddu (c : CellId) (dt : Nat) (s : State) : Res := .next (s.cellAlu 0x0A c dt aluAddu)

def aluAdds (e : CellEnv) : AluRes :=
  satRes e.mode satS (fun j => laneS e.mode j e.a + laneS e.mode j e.b)
    fun j => decide (2 ^ laneW e.mode ≤ lane e.mode j e.a + lane e.mode j e.b)

def execAdds (c : CellId) (dt : Nat) (s : State) : Res := .next (s.cellAlu 0x0B c dt aluAdds)

def aluSub (e : CellEnv) : AluRes := subRes e.mode (fun _ => 0) e.a e.b

def execSub (c : CellId) (dt : Nat) (s : State) : Res := .next (s.cellAlu 0x0C c dt aluSub)

/-- SBC: a − b − 1 + C[j] (R60). -/
def aluSbc (e : CellEnv) : AluRes := subRes e.mode (fun j => 1 - e.x.carry j) e.a e.b

def execSbc (c : CellId) (dt : Nat) (s : State) : Res := .next (s.cellAlu 0x0D c dt aluSbc)

def aluSubu (e : CellEnv) : AluRes :=
  satRes e.mode satU (fun j => laneU e.mode j e.a - laneU e.mode j e.b) fun j => decide (lane e.mode j e.b ≤ lane e.mode j e.a)

def execSubu (c : CellId) (dt : Nat) (s : State) : Res := .next (s.cellAlu 0x0E c dt aluSubu)

def aluSubs (e : CellEnv) : AluRes :=
  satRes e.mode satS (fun j => laneS e.mode j e.a - laneS e.mode j e.b) fun j => decide (lane e.mode j e.b ≤ lane e.mode j e.a)

def execSubs (c : CellId) (dt : Nat) (s : State) : Res := .next (s.cellAlu 0x0F c dt aluSubs)

def aluMinu (e : CellEnv) : AluRes :=
  orderRes e.mode (fun j => decide (lane e.mode j e.b ≤ lane e.mode j e.a))
  fun j => min (lane e.mode j e.a) (lane e.mode j e.b)

def execMinu (c : CellId) (dt : Nat) (s : State) : Res := .next (s.cellAlu 0x10 c dt aluMinu)

def aluMaxu (e : CellEnv) : AluRes :=
  orderRes e.mode (fun j => decide (lane e.mode j e.b ≤ lane e.mode j e.a))
  fun j => max (lane e.mode j e.a) (lane e.mode j e.b)

def execMaxu (c : CellId) (dt : Nat) (s : State) : Res := .next (s.cellAlu 0x11 c dt aluMaxu)

def aluMins (e : CellEnv) : AluRes :=
  orderRes e.mode (fun j => decide (laneS e.mode j e.b ≤ laneS e.mode j e.a))
  fun j => wrapTo (laneW e.mode) (min (laneS e.mode j e.a) (laneS e.mode j e.b))

def execMins (c : CellId) (dt : Nat) (s : State) : Res := .next (s.cellAlu 0x12 c dt aluMins)

def aluMaxs (e : CellEnv) : AluRes :=
  orderRes e.mode (fun j => decide (laneS e.mode j e.b ≤ laneS e.mode j e.a))
  fun j => wrapTo (laneW e.mode) (max (laneS e.mode j e.a) (laneS e.mode j e.b))

def execMaxs (c : CellId) (dt : Nat) (s : State) : Res := .next (s.cellAlu 0x13 c dt aluMaxs)

def aluAbsd (e : CellEnv) : AluRes :=
  orderRes e.mode (fun j => decide (lane e.mode j e.b ≤ lane e.mode j e.a))
  fun j => (laneU e.mode j e.a - laneU e.mode j e.b).natAbs

def execAbsd (c : CellId) (dt : Nat) (s : State) : Res := .next (s.cellAlu 0x14 c dt aluAbsd)

def aluClampu (e : CellEnv) : AluRes := clampRes e.mode (laneU e.mode) e.a e.b e.c

def execClampu (c : CellId) (dt : Nat) (s : State) : Res := .next (s.cellAlu 0x15 c dt aluClampu)

def aluClamps (e : CellEnv) : AluRes := clampRes e.mode (laneS e.mode) e.a e.b e.c

def execClamps (c : CellId) (dt : Nat) (s : State) : Res := .next (s.cellAlu 0x16 c dt aluClamps)

def aluCmpu (e : CellEnv) : AluRes := compareRes e.mode (laneU e.mode) e.a e.b

def execCmpu (c : CellId) (dt : Nat) (s : State) : Res := .next (s.cellAlu 0x18 c dt aluCmpu)

def aluCmps (e : CellEnv) : AluRes := compareRes e.mode (laneS e.mode) e.a e.b

def execCmps (c : CellId) (dt : Nat) (s : State) : Res := .next (s.cellAlu 0x19 c dt aluCmps)

/-- R68. -/
def aluSel (e : CellEnv) : AluRes :=
  { r := pack e.mode fun j => if selFlag e.x (e.imm % 8) j ^^ e.imm.testBit 3 then lane e.mode j e.a else lane e.mode j e.b }

def execSel (c : CellId) (dt : Nat) (s : State) : Res := .next (s.cellAlu 0x1A c dt aluSel)

def aluAnd (e : CellEnv) : AluRes := logicRes e.mode (e.a &&& e.b)

def execAnd (c : CellId) (dt : Nat) (s : State) : Res := .next (s.cellAlu 0x20 c dt aluAnd)

def aluOr (e : CellEnv) : AluRes := logicRes e.mode (e.a ||| e.b)

def execOr (c : CellId) (dt : Nat) (s : State) : Res := .next (s.cellAlu 0x21 c dt aluOr)

def aluXor (e : CellEnv) : AluRes := logicRes e.mode (e.a ^^^ e.b)

def execXor (c : CellId) (dt : Nat) (s : State) : Res := .next (s.cellAlu 0x22 c dt aluXor)

def aluAndn (e : CellEnv) : AluRes := logicRes e.mode (e.a &&& ~~~e.b)

def execAndn (c : CellId) (dt : Nat) (s : State) : Res := .next (s.cellAlu 0x23 c dt aluAndn)

def aluLog3 (e : CellEnv) : AluRes := logicRes e.mode (log3 (e.imm % 256) e.a e.b e.c)

def execLog3 (c : CellId) (dt : Nat) (s : State) : Res := .next (s.cellAlu 0x24 c dt aluLog3)

/-- R63: C[j] is the last bit moved out, 0 for no shift and beyond the width. -/
def aluShl (e : CellEnv) : AluRes :=
  let w := laneW e.mode
  shiftRes e.mode (fun j => if shiftAmt e j < w then lane e.mode j e.a * 2 ^ shiftAmt e j else 0)
    fun j => let k := shiftAmt e j; decide (0 < k ∧ k ≤ w) && (lane e.mode j e.a).testBit (w - k)

def execShl (c : CellId) (dt : Nat) (s : State) : Res := .next (s.cellAlu 0x28 c dt aluShl)

def aluShr (e : CellEnv) : AluRes :=
  let w := laneW e.mode
  shiftRes e.mode (fun j => lane e.mode j e.a / 2 ^ shiftAmt e j)
    fun j => let k := shiftAmt e j; decide (0 < k ∧ k ≤ w) && (lane e.mode j e.a).testBit (k - 1)

def execShr (c : CellId) (dt : Nat) (s : State) : Res := .next (s.cellAlu 0x29 c dt aluShr)

def aluSar (e : CellEnv) : AluRes :=
  let w := laneW e.mode
  shiftRes e.mode (fun j => wrapTo w (laneS e.mode j e.a / 2 ^ shiftAmt e j))
    fun j => let k := shiftAmt e j
      if k = 0 then false else if k ≤ w then (lane e.mode j e.a).testBit (k - 1) else msb w (lane e.mode j e.a)

def execSar (c : CellId) (dt : Nat) (s : State) : Res := .next (s.cellAlu 0x2A c dt aluSar)

def aluRol (e : CellEnv) : AluRes :=
  let w := laneW e.mode
  shiftRes e.mode (fun j => let k := shiftAmt e j % w; lane e.mode j e.a * 2 ^ k + lane e.mode j e.a / 2 ^ (w - k)) fun _ => false

def execRol (c : CellId) (dt : Nat) (s : State) : Res := .next (s.cellAlu 0x2B c dt aluRol)

def aluFsh (e : CellEnv) : AluRes := logicRes 0 (funnel e.a e.b (funnelAmt e))

def execFsh (c : CellId) (dt : Nat) (s : State) : Res := .next (s.cellAlu 0x2C c dt aluFsh)

/-- R65: width u = IMM[11:6], position q = IMM[5:0]. -/
def aluExt (e : CellEnv) : AluRes := logicRes 0 (BitVec.ofNat 40 (e.a.toNat / 2 ^ (e.imm % 64) % 2 ^ (e.imm / 64)))

def execExt (c : CellId) (dt : Nat) (s : State) : Res := .next (s.cellAlu 0x30 c dt aluExt)

def aluExts (e : CellEnv) : AluRes := logicRes 0 (BitVec.ofInt 40 (signedOf (e.imm / 64) (e.a.toNat / 2 ^ (e.imm % 64))))

def execExts (c : CellId) (dt : Nat) (s : State) : Res := .next (s.cellAlu 0x31 c dt aluExts)

def aluIns (e : CellEnv) : AluRes :=
  let u := e.imm / 64; let q := e.imm % 64
  let mask : Word := BitVec.ofNat 40 ((2 ^ u - 1) * 2 ^ q)
  logicRes 0 ((e.a &&& ~~~mask) ||| (BitVec.ofNat 40 (e.b.toNat % 2 ^ u * 2 ^ q)))

def execIns (c : CellId) (dt : Nat) (s : State) : Res := .next (s.cellAlu 0x32 c dt aluIns)

/-- R66. -/
def aluUnpk (e : CellEnv) : AluRes :=
  let smp := fun h => lane 2 (h + if e.imm.testBit 0 then 2 else 0) e.a
  logicRes 1 (pack 1 fun h => if e.imm.testBit 1 then wrapTo 20 (signedOf 10 (smp h)) else smp h)

def execUnpk (c : CellId) (dt : Nat) (s : State) : Res := .next (s.cellAlu 0x34 c dt aluUnpk)

/-- R66. -/
def aluPks (e : CellEnv) : AluRes :=
  narrowRes 2 (match e.imm % 4 with | 0 => none | 1 => some satU | _ => some satS)
    fun j => roundBy (e.imm / 4 % 16) (if 2 ≤ j then halfS e.a (j - 2) else halfS e.b j)

def execPks (c : CellId) (dt : Nat) (s : State) : Res := .next (s.cellAlu 0x35 c dt aluPks)

/-- R67. -/
def aluMul (e : CellEnv) : AluRes :=
  if e.mode = 0 then logicRes 0 (mulW e)
  else narrowRes 2 (some (if e.imm.testBit 11 then satS else satU))
    fun j => roundBy (e.imm % 32) (mulVal e 10 (lane 2 j e.a) * mulVal e 10 (lane 2 j e.b))

def execMul (c : CellId) (dt : Nat) (s : State) : Res := .next (s.cellAlu 0x38 c dt aluMul)

def aluMula (e : CellEnv) : AluRes := maccRes (mulW e) e.c

def execMula (c : CellId) (dt : Nat) (s : State) : Res := .next (s.cellAlu 0x39 c dt aluMula)

/-- R69. -/
def execCas (c : CellId) (dt : Nat) (s : State) : Res :=
  .next (s.cellOp 0x3C c dt (fun s1 e =>
    { r := s1.cascadeResult (paneId c.d c.p) (8 * c.tr.val + c.tc.val) (8 * c.k.val + c.n.val) e.imm }) .none)

/-- R71. -/
def execPop (c : CellId) (dt : Nat) (s : State) : Res := .next (s.cellOp 0x40 c dt (fun _ _ => { r := 0 }) .pop)

def execPush (c : CellId) (dt : Nat) (s : State) : Res := .next (s.cellOp 0x41 c dt (fun _ _ => { r := 0 }) (.push false))

def execPushe (c : CellId) (dt : Nat) (s : State) : Res := .next (s.cellOp 0x42 c dt (fun _ _ => { r := 0 }) (.push true))

/-- R72, R157. -/
def execSlam (c : CellId) (dt : Nat) (s : State) : Res := .next (s.cellOp 0x43 c dt (fun _ _ => { r := 0 }) .slam)

end Sys2Proof.Machine
end

