-- ==== Sys2Proof/Machine/Scrub.lean ====
section
/-!
DEFINITION. The frame scrubber (R354–R357), region reloads, and the in-service test (R358).
-/
namespace Sys2Proof.Machine

/-! ### Checking a stored frame (R341, R354) -/

/-- Do an odd number of the low `n` bits of `x` hold 1? -/
def oddOnes (n x : Nat) : Bool := (List.range n).foldl (fun a i => a != x.testBit i) false

/-- Data bit i of a frame, inverted. -/
def flipData (ws : List Word) (i : Nat) : List Word :=
  ws.mapIdx fun j w => if j = i / 40 then w ^^^ BitVec.ofNat 40 (2 ^ (39 - i % 40)) else w

/-- The Hamming syndrome of a frame's data words under stored check bits `h`, and whether the parity over all its bits is wrong. -/
def hamSyndrome (ws : List Word) (h : Nat) : Nat × Bool :=
  let c := hamming ws
  (c % 4096 ^^^ h % 4096, (c.testBit 12 != oddOnes 12 c) != (h.testBit 12 != oddOnes 12 h))

/-- Does the syndrome name one bit of the frame: a data bit, one of check bits 0 to 11, or check bit 12? -/
def hamNames (ws : List Word) (h : Nat) : Bool :=
  let x := hamSyndrome ws h
  x.2 && (decide (x.1 = 0) || hamPositions.contains x.1 || (List.range 12).any fun k => decide (x.1 = 2 ^ k))

/-- A frame's data words with the one bit that the syndrome names corrected: the words themselves where that is a check bit. -/
def hammingFix (ws : List Word) (h : Nat) : List Word :=
  let x := hamSyndrome ws h
  if x.2 ∧ hamPositions.contains x.1 then flipData ws (hamPositions.idxOf x.1) else ws

/-- Is the scrubber running (R354, R357)? -/
def State.scrubRuns (s : State) : Bool :=
  s.flag R.CFG_SCRUB F.CFG_SCRUB.EN && !s.cfg.stopped && (List.range 4).any s.dieRuns

/-- A frame has been corrected. -/
def State.scrubCe (s : State) : State := (s.setFld R.CFG_SCRST F.CFG_SCRST.CE 1).addSat R.CFG_SCCNT F.CFG_SCCNT.CECNT 1

/-- Is a queued frame's pane, or its engine, armed? -/
def State.reloadArmed (s : State) (f : Nat) : Bool :=
  decide (SMap.get 0 s.armedBy (fPane f) ≠ 0 ∨ SMap.get 0 s.armedBy (fMember f) ≠ 0)

/-- The reload of a frame is in progress in its pane from the start of the read on, unless the pane is armed (R114, R356): the model begins
the read when the frame is queued (DESIGN CHOICE, log entry 125). -/
def State.beginReload (s : State) (f : Nat) : State :=
  if s.reloadArmed f then s else s.setPane (fPane f) { s.pane (fPane f) with reload := true }

/-- A frame cannot be corrected: UE, the first one's place, and a region reload where the copy holds what the image gave it (R355, R356). -/
def State.scrubUe (s : State) (c f : Nat) : State :=
  let s1 := if s.flag R.CFG_SCRST F.CFG_SCRST.UE then s else s.setReg R.CFG_SCUEA (BitVec.ofNat 32 (c * 2 ^ 31 + f))
  let s2 := (s1.setFld R.CFG_SCRST F.CFG_SCRST.UE 1).addSat R.CFG_SCCNT F.CFG_SCCNT.UECNT 1
  if s.imageBit c f ∧ s.flag R.CFG_SCRUB F.CFG_SCRUB.RELOAD ∧ s.cfg.runSlot.isSome ∧ s.cfg.reload.length < 64 ∧
      ¬ s.cfg.reload.contains (c, f) then
    (s2.withCfg fun x => { x with reload := x.reload ++ [(c, f)] }).beginReload f
  else s2

/-- The scrubber checks one frame of a copy. -/
def State.scrubFrame (s : State) (c f : Nat) : State :=
  if fType f = 3 then
    let bad := fun (b : Nat) => SMap.get (0 : Fin 3) s.pmBad (pmKey c (fEng f) (32 * fMinor f + b))
    let s1 := { s with pmBad := (List.range 32).foldl (fun m b =>
      if bad b = 1 then SMap.set 0 m (pmKey c (fEng f) (32 * fMinor f + b)) 0 else m) s.pmBad }
    let s2 := if (List.range 32).any (fun b => decide (bad b = 1)) then s1.scrubCe else s1
    if (List.range 32).any (fun b => decide (bad b = 2)) then s2.scrubUe c f else s2
  else
    let ws := s.storedFrame c f; let h := (s.chkWord c f 1).toNat; let crc := (s.chkWord c f 0).toNat
    if frameCrc ws = crc ∧ hamming ws = h then s
    else
      let fixed := hammingFix ws h
      if hamNames ws h ∧ frameCrc fixed = crc then (s.putFrame c f fixed).scrubCe else s.scrubUe c f

/-- Does the scrubber read frame f: a cell, route or engine-program frame of a running die? -/
def State.scrubs (s : State) (f : Nat) : Bool :=
  frameOk f && (decide (fType f = 0) || decide (fType f = 1) || decide (fType f = 3)) && s.dieRuns (fDie f)

/-- The frame that a pass reads next, `at_` being 1 + the last one read (0: none). Where a frame of a column, a pane column, a pane row, a
type or a die is read, its first is. -/
def State.scrubNext (s : State) (at_ : Nat) : Option Nat :=
  let later := fun (unit n : Nat) => ((List.range n).map fun k => at_ / (unit * n) * (unit * n) + k * unit).filter fun g => decide (at_ ≤ g)
  (at_ :: (later 256 64 ++ later (2 ^ 14) 8 ++ later (2 ^ 17) 8 ++ later (2 ^ 20) 8 ++ later (2 ^ 23) 4)).find? s.scrubs

/-- The place of a copy's pass. -/
def State.scrubAt (s : State) (c : Nat) : Nat := if c = 0 then s.cfg.scrub0 else s.cfg.scrub1

/-- A pass that has read the last frame of both copies ends (R354): PASSES counts it, and the next begins. -/
def State.passEnds (s : State) : State :=
  if s.scrubAt 0 + s.scrubAt 1 = 0 ∨ (s.scrubNext (s.scrubAt 0)).isSome ∨ (s.scrubNext (s.scrubAt 1)).isSome then s
  else (s.withCfg fun c => { c with scrub0 := 0, scrub1 := 0 }).setFld R.CFG_SCRST F.CFG_SCRST.PASSES (s.fld R.CFG_SCRST F.CFG_SCRST.PASSES + 1)

/-- R354. The scrubber reads frame f of a physical copy, if that is the next of its pass. How the reads of the two copies follow each other
is left to the commands (DESIGN CHOICE, log entry 141). -/
def execScrubFrame (copy : Fin 2) (f : BitVec 25) (s : State) : Res :=
  let n := f.toNat; let s0 := s.passEnds
  .next (
    if ¬ s.scrubRuns then s
    else if s0.scrubNext (s0.scrubAt copy) ≠ some n then s0
    else ((s0.scrubFrame copy n).withCfg fun c =>
      if copy.val = 0 then { c with scrub0 := n + 1 } else { c with scrub1 := n + 1 }).passEnds)

/-! ### Region reloads (R356, R366) -/

/-- Does a queued frame wait: is its pane armed, its reload not having begun before? -/
def State.reloadWaits (s : State) (f : Nat) : Bool := s.reloadArmed f && !(s.pane (fPane f)).reload

/-- A queued frame is written from the slot, and UE cleared where it was that frame's. -/
def State.reloadFrame (s : State) (c f : Nat) (ws : List Word) : State :=
  let s1 := (s.putFrame c f ws).setImageBit c f true
  if s.reg R.CFG_SCUEA = BitVec.ofNat 32 (c * 2 ^ 31 + f) then s1.setFld R.CFG_SCRST F.CFG_SCRST.UE 0 else s1

/-- No reload is in progress in the panes of the queued frames. -/
def State.endReloads (s : State) : State :=
  s.cfg.reload.foldl (fun a e => a.setPane (fPane e.2) { a.pane (fPane e.2) with reload := false }) s

/-- R356. A region reload: frames that have lost their image bit leave the queue, frames of armed panes wait, and the others are written from
the running slot. Of an encrypted image nothing is written where the tag fails, or IMGKEY has no active value (R365, R366). -/
def execRegionReload (s : State) : Res :=
  .next (
    let q := s.cfg.reload.filter fun e => s.imageBit e.1 e.2
    let go := q.filter fun e => !s.reloadWaits e.2
    let wait := q.filter fun e => s.reloadWaits e.2
    match s.cfg.runSlot with
    | none => s
    | some n =>
      if s.cfg.stopped ∨ s.cfg.reload = [] then s
      else if ¬ (s.slotImage n).opens s.imgKey then
        ((s.endReloads.withCfg fun c => { c with reload := [] }).setFld R.CFG_RTSTAT F.CFG_RTSTAT.REJ 1).setFld R.CFG_RTSTAT F.CFG_RTSTAT.CAUSE 6
      else
        let r := s.walkRunning (fun (a : State) f ws =>
          .ok (([0, 1] : List Nat).foldl (fun b c => if go.contains (c, f) then b.reloadFrame c f ws else b) a)) s
        (r.1.endReloads).withCfg fun c => { c with reload := wait })

/-- R357. The scrubber's control or settings disagree: the scrubber stops, and any reload it runs. -/
def execScrubSelfFault (s : State) : Res :=
  .next ((s.endReloads.setFld R.CFG_SCRST F.CFG_SCRST.SELF 1).withCfg fun c => { c with stopped := true })

/-- A write of CFG_SCRUB, which starts a scrubber that stopped itself once SELF has been cleared. -/
def State.scrubWrite (s : State) (v : HWord) : State :=
  let s1 := s.writeReg R.CFG_SCRUB v
  if s.flag R.CFG_SCRST F.CFG_SCRST.SELF ∨ ¬ s.cfg.stopped then s1
  else s.cfg.reload.foldl (fun a e => a.beginReload e.2) (s1.withCfg fun c => { c with stopped := false })

def execCfgScrubWrite (v : BitVec 32) (s : State) : Res := .next (s.scrubWrite v)

/-! ### The in-service test (R358) -/

/-- CFG_IST.EN: bit 2 cells, 1 engines, 0 spare leaves. -/
def State.istOn (s : State) (i : Nat) : Bool := (s.fld R.CFG_IST F.CFG_IST.EN).testBit i

/-- Set a bit of a register. -/
def State.setBit (s : State) (off i : Nat) : State := s.setFld off ⟨i, i⟩ 1

/-- The lowest louvre of a cell that stands in no slot of the live schedule and fails parity (R46). -/
def State.badSpareLouvre (s : State) (pane tc : Nat) : Option Nat :=
  let tile := tc / 32; let c := tc % 32; let x := s.liveCopy pane
  (List.range 8).find? fun k =>
    !(s.schedule pane).contains k && decide (s.lvParAt x pane tile c k ≠ louvreParity (s.louvreAt x pane tile c k))

/-- The check of the louvres that stand in no slot (R46, R358): the cells that fail are captured as R47 has it, in one cycle. SLOT, in which
such a louvre was never issued, takes the pane's present slot (DESIGN CHOICE, log entry 105). -/
def State.checkSpareLouvres (s : State) (pane : Nat) : State :=
  let off := R.PANE_LVERR (pane / 64) (pane % 64); let x := s.pane pane
  match (List.range 2048).filterMap fun tc => if tc / 32 % 8 = 4 then none else (s.badSpareLouvre pane tc).map fun k => (tc, k) with
  | [] => s
  | (tc, k) :: rest =>
    let fresh := !(s.reg off).getLsbD 31
    let s1 := s.capture off 0x1FFFF (BitVec.ofNat 32 (cellLoc (tc / 32) (tc % 32) k x.slot)) (rest.length + 1)
    if fresh then s1.setPane pane { s1.pane pane with errCyc := x.cycle + 1 } else s1

/-- R358. `dt` cell cycles after the last command of its pane the louvres that stand in no slot have been checked, whatever slots the schedule
holds (R46; log entry 105); and where 64 idle slots have passed the pane folds its cells' results into `sig`. -/
def execIstCellSignature (d : Fin 4) (p : Fin 64) (sig : BitVec 32) (dt : Nat) (s : State) : Res :=
  let pane := paneId d p
  let s1 := s.advance pane dt
  .next (
    if ¬ s1.istOn 2 then s1
    else
      let s2 := if s1.paneRuns pane then s1.checkSpareLouvres pane else s1
      let x := s2.pane pane
      if x.istSlots < 64 then s2
      else
        let s3 := s2.setPane pane { x with istSlots := x.istSlots - 64 }
        if sig = s3.reg R.CFG_ISTREF then s3 else s3.setBit (R.CFG_ISTFAIL d (p.val / 32)) (p.val % 32))

/-- R358. An engine that is not issuing has run its 256 cycles of test, with signature `sig`. -/
def execIstEngineTest (d : Fin 4) (e : Fin 128) (sig : BitVec 32) (s : State) : Res :=
  let x := s.eng (engId d e)
  let free := decide (x.state = .idle ∨ x.state = .stopped ∨ x.state = .fault ∨ (x.state = .run ∧ x.stall ≠ 0))
  .next (
    if ¬ s.istOn 1 ∨ ¬ free ∨ ¬ s.engClocked (engId d e) ∨ sig = s.reg R.CFG_ISTREF then s
    else s.setBit (R.CFG_ISTEFAIL d (e.val / 32)) (e.val % 32))

/-- R358. A good leaf outside the trained width has sent a block of the pattern, clean or with an error. -/
def execIstSpareLeafBlock (k : Fin 6) (j : Fin 32) (bad : Bool) (s : State) : Res :=
  let e := (hingeEnds k).1
  let spare := !(s.reg (R.HNG_LFAIL e)).getLsbD j && !(s.logical e).contains j.val
  .next (
    if ¬ s.istOn 0 ∨ s.hingeState e ≠ 2 ∨ ¬ spare then s
    else s.setFld (R.CFG_ISTHNG k) ⟨j, j⟩ (if bad then 1 else 0))

end Sys2Proof.Machine
end

