-- ==== Sys2Proof/Machine/Events.lean ====
section
/-!
DEFINITION. Event sources, their groups and the non-maskable class (R396–R399, Table 16.7).
-/
namespace Sys2Proof.Machine

/-! ### The defining conditions of Table 16.7 -/

/-- Is one of the named fields of a register not 0? -/
def State.anyOf (s : State) (off : Nat) (fs : List Fld) : Bool := fs.any fun f => s.flag off f

/-- Does a condition hold at one of the first n instances? -/
def anyBelow (n : Nat) (f : Nat → Bool) : Bool := (List.range n).any f

/-- The four sources of a lane (R252). -/
def State.laneSource (s : State) (d l k : Nat) : Bool :=
  let e := R.LANE_ERR d l
  match k with
  | 0 => s.flag e F.LANE_ERR.LCHG
  | 1 => s.anyOf e [F.LANE_ERR.LOL, F.LANE_ERR.CRC, F.LANE_ERR.STUFF, F.LANE_ERR.MLOST, F.LANE_ERR.FALLBK, F.LANE_ERR.CFG] ||
      (decide (l % 4 = 0) && s.flag (R.LANE_QCLK d (l / 4)) F.LANE_QCLK.TCLIP)
  | 2 => s.anyOf e [F.LANE_ERR.OVF, F.LANE_ERR.UNDR, F.LANE_ERR.UNB]
  | _ => s.flag (R.LANE_EYE d l) F.LANE_EYE.DONE

/-- Is ENG_EVENT of the uncorrectable-error class (R147)? -/
def State.engUe (s : State) (d e : Nat) : Bool := s.anyOf (R.ENG_ERR d e) [F.ENG_ERR.PUE, F.ENG_ERR.DUE]

/-- The bit of HNG_ERR that source j of a hinge follows, in the order of R277. -/
def hingeBit (j : Nat) : Fld :=
  ([F.HNG_ERR.LCHG, F.HNG_ERR.DOWN, F.HNG_ERR.LFAIL, F.HNG_ERR.NARROW, F.HNG_ERR.WMIS, F.HNG_ERR.REPLAY, F.HNG_ERR.XPAR]).getD j
    F.HNG_ERR.DESC

/-- Source j of hinge k: its bit at either end, but not at an end on a dark die (R397). -/
def State.hingeSource (s : State) (k j : Nat) : Bool :=
  [(hingeEnds k).1, (hingeEnds k).2].any fun e =>
    (match endDie e with | some d => !s.dieDark d | none => true) && s.flag (R.HNG_ERR e) (hingeBit j)

/-- WM_UE of a die (R178). -/
def State.wmUe (s : State) (d : Nat) : Bool :=
  !s.dieDark d && anyBelow 384 fun i => s.flag (R.WM_ERR d (i / 6) (i % 6)) F.WM_ERR.UE

/-- WM_NOTE of a pane. -/
def State.wmNote (s : State) (d p : Nat) : Bool :=
  (anyBelow 6 fun m => s.anyOf (R.WM_ERR d p m) [F.WM_ERR.CE, F.WM_ERR.XPAR, F.WM_ERR.OVL, F.WM_ERR.LKBRK, F.WM_ERR.WDROP] ||
    s.flag (R.WM_MVSTAT d p m) F.WM_MVSTAT.TERR) ||
  anyBelow 64 fun i => s.flag (R.PANE_CHSTAT d p i) F.PANE_CHSTAT.PERR

/-- TR_NOTE of a router (R205). -/
def State.trNote (s : State) (r : Nat) : Bool :=
  if r = 256 then s.anyOf (trErr r) [F.HTR_ERR.XPAR, F.HTR_ERR.HPAR, F.HTR_ERR.UNMAP, F.HTR_ERR.TOUT]
  else s.anyOf (trErr r) [F.TR_ERR.XPAR, F.TR_ERR.HPAR, F.TR_ERR.UNMAP, F.TR_ERR.TOUT]

/-- DDR_UE of a controller (R227). -/
def State.ddrUe (s : State) (c : Nat) : Bool := anyBelow 2 fun i => s.flag (R.DDR_ERR c i) F.DDR_ERR.UE

/-- CLK_NOTE (R325). -/
def State.clkNote (s : State) : Bool :=
  s.anyOf R.CLK_MUX [F.CLK_MUX.FSW, F.CLK_MUX.SWFAIL] ||
  s.anyOf R.CLK_HLSTAT [F.CLK_HLSTAT.LOL0, F.CLK_HLSTAT.LOL1, F.CLK_HLSTAT.LOL2, F.CLK_HLSTAT.LOL3] ||
  anyBelow 256 fun p => !s.dieDark (p / 64) && s.flag (R.PANE_CLK (p / 64) (p % 64)) F.PANE_CLK.LOL

/-- CFG_NOTE (R360): of the two fields named REJ, either. -/
def State.cfgNote (s : State) : Bool :=
  decide (s.fld R.CFG_BSTAT F.CFG_BSTAT.STATE = 6) || s.flag R.CFG_BSTAT F.CFG_BSTAT.DONETO ||
  s.anyOf R.CFG_RTSTAT [F.CFG_RTSTAT.REJ, F.CFG_RTSTAT.RTREJ] || s.flag R.CFG_RBSEL F.CFG_RBSEL.REJ ||
  s.flag R.CFG_SCRST F.CFG_SCRST.CE

/-- IST_FAIL (R360). -/
def State.istFail (s : State) : Bool :=
  (anyBelow 8 fun i => decide (s.reg (R.CFG_ISTFAIL (i / 2) (i % 2)) ≠ 0)) ||
  (anyBelow 16 fun i => decide (s.reg (R.CFG_ISTEFAIL (i / 4) (i % 4)) ≠ 0)) ||
  anyBelow 6 fun k => decide (s.reg (R.CFG_ISTHNG k) ≠ 0)

/-- The sources of the deadbolt partition and of security (Table 15.6). -/
def State.dbSource (s : State) (k : Nat) : Bool :=
  match k with
  | 0 => s.flag R.DB_WDT F.DB_WDT.EXP
  | 1 => s.flag R.DB_TSTAT F.DB_TSTAT.TRIP
  | 2 => s.flag R.DB_TSTAT F.DB_TSTAT.WARN
  | 3 => s.flag R.DB_VSTAT F.DB_VSTAT.VOUT
  | 4 => s.flag R.DB_STAT F.DB_STAT.DENY || s.flag R.DB_WDT F.DB_WDT.BADBEAT
  | _ => s.flag R.OTP_STAT F.OTP_STAT.REJ || anyBelow 16 fun f => s.flag (R.OTP_GEN f) F.OTP_GEN.BADGEN

/-- UART_u (Table 16.4). -/
def State.uartSource (s : State) (u : Nat) : Bool :=
  decide (max 1 (s.fld (R.UART_CFG u) F.UART_CFG.RXTH) ≤ s.fld (R.UART_STAT u) F.UART_STAT.RXCNT) ||
  s.flag (R.UART_STAT u) F.UART_STAT.OVR ||
  (s.flag (R.UART_CFG u) F.UART_CFG.TXIE && decide (s.fld (R.UART_STAT u) F.UART_STAT.TXFREE = 16))

/-- PIN_NOTE. -/
def State.pinNote (s : State) : Bool :=
  s.flag R.PIN_STAT F.PIN_STAT.CONF ||
  anyBelow 4 fun d => !s.dieDark d && (decide (s.reg (R.FPIN_ERR_L d) ≠ 0) || decide (s.reg (R.FPIN_ERR_H d) ≠ 0))

/-- The Keeper's sources (R417). -/
def State.keeperSource (s : State) (k : Nat) : Bool :=
  match k with
  | 0 => s.flag R.KPR_VTSTAT F.KPR_VTSTAT.RXCNT
  | 1 => s.anyOf R.KPR_STAT [F.KPR_STAT.SCHG, F.KPR_STAT.BADTAG]
  | 2 => s.flag R.KPR_STAT F.KPR_STAT.NHALT
  | _ => anyBelow 2 fun c => s.flag (R.MC_WDT c) F.MC_WDT.EXPD

/-- The sources of the hub from index 1,584 on. -/
def State.hubSource (s : State) (n : Nat) : Bool :=
  if n < 1616 then
    let t := (n - 1584) / 4
    match n % 4 with
    | 0 => s.flag (R.SHT_STATUS t) F.SHT_STATUS.CDONE
    | 1 => s.flag (R.SHT_STATUS t) F.SHT_STATUS.MISSED
    | 2 => s.flag (R.SHT_STATUS t) F.SHT_STATUS.XEND
    | _ => s.flag (R.TB_CFG t) F.TB_CFG.REFLOST
  else if n < 1620 then s.wmUe (n - 1616)
  else if n < 1624 then !s.dieDark (n - 1620) && anyBelow 64 fun p => s.wmNote (n - 1620) p
  else if n < 1628 then !s.dieDark (n - 1624) && anyBelow 64 fun p => s.flag (R.TR_ERR (n - 1624) p) F.TR_ERR.BRDEV
  else if n = 1628 then s.flag R.HTR_ERR F.HTR_ERR.BRDEV
  else if n < 1633 then !s.dieDark (n - 1629) && anyBelow 64 fun p => s.trNote (64 * (n - 1629) + p)
  else if n = 1633 then s.trNote 256
  else if n < 1650 then
    let c := (n - 1634) / 2
    if n % 2 = 0 then s.ddrUe c
    else (anyBelow 2 fun i => s.anyOf (R.DDR_ERR c i) [F.DDR_ERR.CE, F.DDR_ERR.XPAR, F.DDR_ERR.PWDROP]) ||
      decide (s.fld (R.DDR_STATUS c) F.DDR_STATUS.STATE = 4)
  else if n = 1650 then s.hasCompanion && s.flag R.UCL_STAT F.UCL_STAT.LCHG
  else if n = 1651 then s.hasCompanion && s.flag R.UCL_STAT F.UCL_STAT.FAIL
  else if n = 1652 then s.anyOf R.HOST_ERR [F.HOST_ERR.PARTIAL, F.HOST_ERR.B2CPLE]
  else if n = 1653 then anyBelow 64 fun q => s.flag (R.HCQ_STAT q) F.HCQ_STAT.FERR
  else if n = 1654 then s.flag R.CHN_STAT F.CHN_STAT.KDONE
  else if n = 1655 then s.anyOf R.CHN_STAT [F.CHN_STAT.KTO, F.CHN_STAT.ADDRCHG]
  else if n = 1656 then s.flag R.CHN_STAT F.CHN_STAT.MDONE
  else if n = 1657 then s.flag R.CM_STATUS F.CM_STATUS.FAIL
  else if n = 1658 then s.clkNote
  else if n = 1659 then s.cfgNote
  else if n = 1660 then s.flag R.CFG_SCRST F.CFG_SCRST.UE
  else if n = 1661 then s.flag R.CFG_SCRST F.CFG_SCRST.SELF
  else if n = 1662 then s.istFail
  else if n < 1669 then s.dbSource (n - 1663)
  else if n < 1677 then decide (bitsOf (s.reg (R.PIN_ISTAT ((n - 1669) / 2))).toNat (8 * ((n - 1669) % 2) + 7) (8 * ((n - 1669) % 2)) ≠ 0)
  else if n < 1681 then s.uartSource (n - 1677)
  else if n < 1683 then s.flag (R.I2C_STAT (n - 1681)) F.I2C_STAT.DONE
  else if n < 1685 then s.flag (R.SPI_STAT (n - 1683)) F.SPI_STAT.DONE
  else if n < 1689 then s.flag (R.PIN_TSSTAT (n - 1685)) F.PIN_TSSTAT.VALID
  else if n < 1691 then
    s.flag (R.FAN_CFG (n - 1689)) F.FAN_CFG.EN &&
      decide (s.fld (R.FAN_STAT (n - 1689)) F.FAN_STAT.COUNT < s.fld (R.FAN_CFG (n - 1689)) F.FAN_CFG.MINCNT)
  else if n = 1691 then s.pinNote
  else if n < 1696 then s.keeperSource (n - 1692)
  else decide (n < 1704) && (s.fld R.EVT_SWSET F.EVT_SWSET.SW).testBit (n - 1696)

/-- Does the defining condition of source n hold (Table 16.7, R397)? -/
def State.sourceUp (s : State) (n : Nat) : Bool :=
  if n < 512 then !s.dieDark (n / 128) && s.laneSource (n / 128) (n / 4 % 32) (n % 4)
  else if n < 1024 then
    let d := (n - 512) / 128; let p := (n - 512) / 2 % 64
    !s.dieDark d && (if n % 2 = 0 then s.flag (R.PANE_LVERR d p) F.PANE_LVERR.VALID else s.flag (R.PANE_BUSCON d p) F.PANE_BUSCON.VALID)
  else if n < 1536 then
    let d := (n - 1024) / 128; let e := n % 128
    !s.dieDark d && (s.flag (R.ENG_SIG d e) F.ENG_SIG.PEND || s.engUe d e)
  else if n < 1584 then s.hingeSource ((n - 1536) / 8) (n % 8)
  else s.hubSource n

/-- Is source n of the uncorrectable-error class at this moment? -/
def State.sourceUe (s : State) (n : Nat) : Bool :=
  if 1024 ≤ n ∧ n < 1536 then !s.dieDark ((n - 1024) / 128) && s.engUe ((n - 1024) / 128) (n % 128)
  else if (1536 ≤ n ∧ n < 1584 ∧ n % 8 = 1) ∨ (1616 ≤ n ∧ n < 1620) ∨ (1634 ≤ n ∧ n < 1650 ∧ n % 2 = 0) ∨ n = 1660 then s.sourceUp n
  else false

/-- UE_OUT (R20). -/
def State.ueOut (s : State) : Bool := anyBelow 1704 s.sourceUe

/-! ### What the event controller sees (R397–R399) -/

/-- Source n as the event controller has it. -/
def State.raised (s : State) (n : Nat) : Bool := (s.reg (R.EVT_RAISED (n / 32))).getLsbD (n % 32)

/-- Does source n count in group g? -/
def State.inGroup (s : State) (g n : Nat) : Bool :=
  s.raised n && s.flag (R.EVT_SRC n) F.EVT_SRC.EN && decide (s.fld (R.EVT_SRC n) F.EVT_SRC.GROUP = g)

def State.groupActive (s : State) (g : Nat) : Bool := anyBelow 1704 (s.inGroup g)

/-- Is source n of the non-maskable class? -/
def State.nonMask (s : State) (n : Nat) : Bool :=
  decide (n = 1657 ∨ n = 1663 ∨ n = 1664) || (s.raised n && s.flag (R.EVT_SRC n) F.EVT_SRC.UE)

def State.nmiActive (s : State) : Bool := anyBelow 1704 fun n => s.raised n && s.nonMask n

/-- The interrupt line of core c: 0 MC0, 1 MC1, 2 SC; and its groups. -/
def coreF (c : Nat) : Fld := match c with | 0 => F.EVT_GCFG.MC0 | 1 => F.EVT_GCFG.MC1 | _ => F.EVT_GCFG.SC

def State.groupPends (s : State) (c g : Nat) : Bool := s.flag (R.EVT_GCFG g) (coreF c) && s.groupActive g

def State.coreLine (s : State) (c : Nat) : Bool := anyBelow 64 (s.groupPends c)

/-- Does the NMI reach core c (R399)? -/
def State.nmiAt (s : State) (c : Nat) : Bool :=
  let m0 := s.flag R.EVT_NMI F.EVT_NMI.MC0; let m1 := s.flag R.EVT_NMI F.EVT_NMI.MC1
  s.nmiActive && (match c with | 0 => m0 || !m1 | 1 => m1 | _ => false)

/-- Send group g's vector, if it has one. -/
def State.sendVec (s : State) (g : Nat) : State :=
  if s.flag (R.EVT_GCFG g) F.EVT_GCFG.MSIX then s.vector 0 (s.fld (R.EVT_GCFG g) F.EVT_GCFG.VEC) else s

/-- The vectors due where the state was `old` before: of group g, and of the NMI. -/
def State.sendTurns (s old : State) (g : Nat) : State :=
  let s1 := if s.groupActive g ∧ ¬ old.groupActive g then s.sendVec g else s
  if s.nmiActive ∧ ¬ old.nmiActive ∧ s.flag R.EVT_NMI F.EVT_NMI.MSIX then s1.vector 0 (s.fld R.EVT_NMI F.EVT_NMI.NMIVEC) else s1

/-- The event controller follows source n; a Keeper source that rises signals its vector of PF1 (R282). -/
def State.follow (s : State) (n : Nat) : State :=
  let up := s.sourceUp n; let ue := s.sourceUe n
  if up = s.raised n ∧ ue = s.flag (R.EVT_SRC n) F.EVT_SRC.UE then s
  else
    let s1 := (s.setFld (R.EVT_RAISED (n / 32)) ⟨n % 32, n % 32⟩ (if up then 1 else 0)).setFld (R.EVT_SRC n) F.EVT_SRC.UE (if ue then 1 else 0)
    let s2 := s1.sendTurns s (s.fld (R.EVT_SRC n) F.EVT_SRC.GROUP)
    if 1692 ≤ n ∧ n < 1696 ∧ up ∧ ¬ s.raised n then s2.vector 1 (n - 1692) else s2

/-- R397. -/
def execEventSourceChange (n : Fin 1704) (s : State) : Res := .next (s.follow n)

/-! ### Writes of the event registers -/

/-- A write of EVT_SRC of source n (R398). -/
def State.evtSrcWrite (s : State) (n : Nat) (v : HWord) : State :=
  let s1 := s.writeReg (R.EVT_SRC n) v
  s1.sendTurns s (s1.fld (R.EVT_SRC n) F.EVT_SRC.GROUP)

/-- R398. -/
def execEvtSrcWrite (n : Fin 1704) (v : BitVec 32) (s : State) : Res := .next (s.evtSrcWrite n v)

/-- A write of EVT_GACK_L or EVT_GACK_H. -/
def State.gackWrite (s : State) (hi : Bool) (v : HWord) : State :=
  (List.range 32).foldl (fun a j =>
    let g := (if hi then 32 else 0) + j
    if v.getLsbD j ∧ a.groupActive g then a.sendVec g else a) s

/-- R398. -/
def execEvtGackWrite (hi : Bool) (v : BitVec 32) (s : State) : Res := .next (s.gackWrite hi v)

/-- The software sources follow EVT_SWSET. -/
def State.swFollow (s : State) : State := (List.range 8).foldl (fun a i => a.follow (1696 + i)) s

/-- A write of EVT_SWSET, and of EVT_SWCLR. -/
def State.swsetWrite (s : State) (v : HWord) : State := (s.setReg R.EVT_SWSET (s.reg R.EVT_SWSET ||| (v &&& 0xFF))).swFollow
def State.swclrWrite (s : State) (v : HWord) : State := (s.setReg R.EVT_SWSET (s.reg R.EVT_SWSET &&& ~~~(v &&& 0xFF))).swFollow

/-- R396. -/
def execEvtSwsetWrite (v : BitVec 32) (s : State) : Res := .next (s.swsetWrite v)

/-- R396. -/
def execEvtSwclrWrite (v : BitVec 32) (s : State) : Res := .next (s.swclrWrite v)

end Sys2Proof.Machine
end

