-- ==== Sys2Proof/Machine/Diag.lean ====
section
/-!
DEFINITION. The diagnostic override registers DIAG_INJ and DIAG_CRED (R423, Tables 18.3, 18.4).
-/
namespace Sys2Proof.Machine

/-- Any write of a diagnostic override register sets DIAG_OVR (R20). -/
def State.diagWritten (s : State) : State := s.setFld R.HUB_INTEGRITY F.HUB_INTEGRITY.DIAG_OVR 1

/-- Does a write carry the KEY that enables its effect? -/
def diagKey (v : HWord) : Bool := decide (v.toNat / 65536 = 0xD1A6)

/-- An injection waits for the next block written to a sub-channel: 1 a data bit, 2 two symbols. -/
def State.injectDdr (s : State) (tgt n : Nat) : State :=
  let c := tgt % 8
  { s with ddrs := SMap.upd {} s.ddrs c fun x => if tgt / 8 % 2 = 0 then { x with inj0 := n } else { x with inj1 := n } }

/-- A write of DIAG_INJ (Table 18.3). -/
def State.diagInjWrite (s : State) (v : HWord) : State :=
  let s1 := s.diagWritten; let tgt := getF v F.DIAG_INJ.TGT
  if ¬ diagKey v then s1
  else match getF v F.DIAG_INJ.KIND with
    | 1 => s1.injectDdr tgt 1
    | 2 => s1.injectDdr tgt 2
    | 3 => if tgt ≤ 32 then { s1 with hubPar := SMap.set false s1.hubPar tgt true } else s1
    | 4 => s1.setHinge (tgt % 2) { s1.hinge (tgt % 2) with injCrc := true }
    | _ => s1

/-- A write of DIAG_CRED (Table 18.4): a credit more or less at a hub switch output, without a flit or a count. -/
def State.diagCredWrite (s : State) (v : HWord) : State :=
  let s1 := s.diagWritten; let p := getF v F.DIAG_CRED.PORT; let vc := getF v F.DIAG_CRED.VC
  let l := portId 256 p; let n := s1.avail l vc
  let give := fun (n : Nat) (k : Int) =>
    let t := { s1.setAvail l vc n with credOff := SMap.upd 0 s1.credOff (8 * l + vc) (· + k) }
    if fmPort l then t.fmPump l vc else t
  if ¬ diagKey v ∨ 32 < p then s1
  else if getF v F.DIAG_CRED.SUB = 1 then (if n = 0 then s1 else give (n - 1) (-1))
  else if 15 ≤ n then s1 else give (n + 1) 1

/-- The word of a DIAG_INJ write. -/
def diagInjWord (key : BitVec 16) (tgt kind : Nat) : HWord := BitVec.ofNat 32 (key.toNat * 65536 + tgt * 256 + kind)

/-- The word of a DIAG_CRED write. -/
def diagCredWord (key : BitVec 16) (port vc sub : Nat) : HWord :=
  BitVec.ofNat 32 (key.toNat * 65536 + sub * 32768 + vc * 4096 + port * 64)

/-- R423. -/
def execDiagInjDataBit (key : BitVec 16) (tgt : Fin 64) (s : State) : Res := .next (s.diagInjWrite (diagInjWord key tgt 1))

def execDiagInjTwoSymbols (key : BitVec 16) (tgt : Fin 64) (s : State) : Res := .next (s.diagInjWrite (diagInjWord key tgt 2))

def execDiagInjParity (key : BitVec 16) (tgt : Fin 64) (s : State) : Res := .next (s.diagInjWrite (diagInjWord key tgt 3))

def execDiagInjFlitCrc (key : BitVec 16) (tgt : Fin 64) (s : State) : Res := .next (s.diagInjWrite (diagInjWord key tgt 4))

def execDiagCredAdd (key : BitVec 16) (port : Fin 64) (vc : Fin 8) (s : State) : Res :=
  .next (s.diagCredWrite (diagCredWord key port vc 0))

def execDiagCredRemove (key : BitVec 16) (port : Fin 64) (vc : Fin 8) (s : State) : Res :=
  .next (s.diagCredWrite (diagCredWord key port vc 1))

end Sys2Proof.Machine
end

