-- ==== Sys2Proof/Machine/Tap.lean ====
section
/-!
DEFINITION. The test access port (R371, R372). A command loads an instruction and, where it is given data, scans them through the
register that the instruction selects: what the register captured is shifted out, and the data stand in it after the update.
-/
namespace Sys2Proof.Machine

/-- Is the full instruction set available (R372)? -/
def State.tapFull (s : State) : Bool := s.flag R.SEC_STAT F.SEC_STAT.JTAG

/-- A command of the port: without power, and in HOLD (Table 13.10), nothing answers. -/
def State.tapRuns (s : State) (f : State → State) : State := if s.power = .on then f s else s

/-- What pin k puts on its ball: in EXTEST and CLAMP what the boundary register drives, in HIGHZ nothing, else what its pad does. -/
def State.ball (s : State) (k : Nat) : Bool × Bool :=
  if s.tap.instr = 0 ∨ s.tap.instr = 4 then (s.tap.update.getLsbD (3 * k + 2), s.tap.update.getLsbD (3 * k + 1))
  else if s.tap.instr = 3 then (false, false)
  else s.pad k

/-- Does the device drive DONE_N low, the boundary register's cell 193 counted? -/
def State.doneBall (s : State) : Bool :=
  if s.tap.instr = 0 ∨ s.tap.instr = 4 then s.tap.update.getLsbD 193 else if s.tap.instr = 3 then false else s.chn.low

/-- What the boundary register captures: for GPk the level at the ball, and the level and enable of its driver; for DONE_N `done`, the level of
the shared line, and the device's drive. -/
def State.tapCapture (s : State) (done : Bool) : BitVec 194 :=
  let bit := fun (b : Bool) (i : Nat) => if b then 2 ^ i else 0
  BitVec.ofNat 194 (((List.range 64).map fun k =>
    bit (s.pin k).raw (3 * k) + bit (s.pad k).2 (3 * k + 1) + bit (s.pad k).1 (3 * k + 2)).sum + bit done 192 + bit s.chn.low 193)

/-- An instruction that selects the boundary register, with the data of a scan, if there is one. -/
def State.tapBoundary (s : State) (code : Nat) (done : Bool) (data : Option (BitVec 194)) : State :=
  let s1 := { s with tap := { s.tap with instr := code } }
  match data with
  | none => s1
  | some v =>
    let c := s.tapCapture done
    { s1 with tap := { s.tap with instr := code, capture := c, update := v } }.emit (.tapData c.toNat)

/-- An instruction that selects the bypass register: a scan shifts out the 0 it captures. -/
def State.tapBypass (s : State) (code : Nat) : State := { s with tap := { s.tap with instr := code } }.emit (.tapData 0)

/-- R371. -/
def execExtest (done : Bool) (data : Option (BitVec 194)) (s : State) : Res :=
  .next (s.tapRuns fun s => if s.tapFull then s.tapBoundary 0 done data else s.tapBypass 15)

/-- R371, R372: the identification register, which returns CFG_IDCODE. -/
def execJtagIdcode (s : State) : Res :=
  .next (s.tapRuns fun s => { s with tap := { s.tap with instr := 1 } }.emit (.tapData (s.reg R.CFG_IDCODE).toNat))

def execSamplePreload (done : Bool) (data : Option (BitVec 194)) (s : State) : Res :=
  .next (s.tapRuns fun s => if s.tapFull then s.tapBoundary 2 done data else s.tapBypass 15)

def execHighz (s : State) : Res := .next (s.tapRuns fun s => if s.tapFull then s.tapBypass 3 else s.tapBypass 15)

def execClamp (s : State) : Res := .next (s.tapRuns fun s => if s.tapFull then s.tapBypass 4 else s.tapBypass 15)

/-- R371: every other code acts as BYPASS too. -/
def execBypass (s : State) : Res := .next (s.tapRuns fun s => s.tapBypass 15)

end Sys2Proof.Machine
end

