-- ==== Sys2Proof/Machine/Bus.lean ====
section
/-!
DEFINITION. Accesses of control space (R7, R10, R120, R287, R373, R418–R422): what a write of a host word does at the register it
reaches, what a read of one returns, and what the read itself changes.
-/
namespace Sys2Proof.Machine

/-! ### Writes -/

/-- A write of a host word at a register of kind `k`: where writing starts something, by the register's own operation, else by its
type codes alone. -/
def State.regWrite (s : State) (k : RegKind) (ix : List Nat) (off : Nat) (v : HWord) : State :=
  match k, ix with
  | .HUB_PCTL, _ => s.pctlWrite v
  | .HUB_DBBEAT, _ => s.heartbeat v
  | .MC_WDT, [c] => s.mcWdtWrite c v
  | .CHN_CTL, _ => s.chnCtlWrite v
  | .MSG_CFG, [i] => s.msgCfgWrite i v
  | .DIAG_INJ, _ => s.diagInjWrite v
  | .DIAG_CRED, _ => s.diagCredWrite v
  | .CLK_HLCFG, _ => s.hlcfgWrite v
  | .CLK_RST, _ => s.clkRstWrite v
  | .CLK_HOLD, _ => s.holdWrite v
  | .FM_CTL, _ => s.fmCtlWrite v
  | .PIN_ISTAT, [b] => (List.range 16).foldl (fun a i => a.levelInt (16 * b + i)) (s.writeReg off v)
  | .UART_CFG, [u] => if s.uartOwned u then s else s.writeReg off v
  | .UART_TX, [u] => s.uartTxWrite u v
  | .UART_CTL, [u] => s.uartCtlWrite u v
  | .UART_STAT, [u] => if s.uartOwned u then s else s.writeReg off v
  | .I2C_CMD, [i] => s.i2cCmdWrite i v
  | .SPI_XFER, [i] => s.spiXferWrite i v
  | .EVT_GACK_L, _ => s.gackWrite false v
  | .EVT_GACK_H, _ => s.gackWrite true v
  | .EVT_SWSET, _ => s.swsetWrite v
  | .EVT_SWCLR, _ => s.swclrWrite v
  | .EVT_SRC, [n] => s.evtSrcWrite n v
  | .CFG_SCMD, _ => s.scmdWrite v
  | .CFG_RTPKT, _ => s.rtpktWrite v
  | .CFG_RBSEL, _ => s.rbselWrite v
  | .CFG_SCRUB, _ => s.scrubWrite v
  | .OTP_CMD, _ => s.otpCmdWrite v
  | .KPR_CFG, _ => s.kprCfgWrite v
  | .KPR_TXD, _ => s.txdWrite v
  | .KPR_RXPOP, _ => s.rxpopWrite v
  | .DDR_CTL, [c] => s.ddrCtlWrite c v
  | .DDR_FSHIN, _ => s.fshWrite v
  | .HCQ_CFG, [q] => s.hcqCfgWrite q v
  | .TBU_SET_H, _ => s.tbuSetWrite v
  | .SHT_ARM, [t] => s.shtArmWrite t v
  | .TR_HBOARD_L, _ => s.hubBoardWrite 0 true v
  | .TR_HBOARD_H, _ => s.hubBoardWrite 32 true v
  | .TR_HUNBOARD_L, _ => s.hubBoardWrite 0 false v
  | .TR_HUNBOARD_H, _ => s.hubBoardWrite 32 false v
  | .TR_GSNAP, _ => s.gsnapWrite v
  | .SD_CMD, _ => s.sdCmdWrite v
  | .UCL_CTL, _ => s.uclCtlWrite v
  | .PANE_CLK, [d, p] => s.gateWrite (paneId d p) v false
  | .WM_LCTL, [d, p, m] => if v.getLsbD 0 then s.lctlSnap d p m else s
  | .WM_QSTAT, [d, p, m, q] =>
    if v.getLsbD 31 then s.setQueue (blkId d p m) q { s.queue (blkId d p m) q with dpend := false, dpEnd := 0 } else s
  | .LANE_CTL, [d, l] => s.laneCtlWrite d l v
  | .LANE_CFG, [d, l] => s.laneCfgWrite (R.LANE_CFG d l) d [l] v
  | .LANE_QCLK, [d, q] => s.laneCfgWrite (R.LANE_QCLK d q) d (quadLanes q) v
  | .ENG_CTL, [d, e] =>
    let s1 := if v.getLsbD 0 then s.engStart (engId d e) else s
    if v.getLsbD 1 then s1.engStop (engId d e) else s1
  | .HNG_CTL, [h] => s.hngCtlWrite (12 + h) v
  | .HNG_CTL, [d, h] => s.hngCtlWrite (3 * d + h) v
  | .TR_CMD, [d, p] => s.trCmdWrite (paneId d p) v
  | _, _ => s.writeReg off v

/-- Is the path to the die of an offset not UP? An access that is made now returns all ones or is discarded: it has waited its 50 µs (R422). -/
def State.cutOff (s : State) (off : Nat) : Bool :=
  match dieOf off with | some d => !s.pathUp d | none => false

/-- A BAR0 write of one host word, made at its register. `src`: 0 host, 1 MC0, 2 MC1, 3 engine or transom, 4 chain, 5 debug bus master (Table 15.8).
-/
def State.busWrite (s : State) (src off : Nat) (v : HWord) : State :=
  if s.power ≠ .on then s
  else if 0x50000 ≤ off ∧ off < 0x60000 then s.denyWrite src
  else match regAt off with
    | none => s
    | some (row, ix) => if s.absent off row.kind ix || s.cutOff off then s else s.regWrite row.kind ix off v

/-! ### Reads -/

/-- One bit of a host word built from conditions: bit j of word i from `f` at 32i + j. -/
def bits32 (f : Nat → Bool) (i : Nat) : HWord := BitVec.ofNat 32 (((List.range 32).map fun j => if f (32 * i + j) then 2 ^ j else 0).sum)

/-- The lowest n below `k` at which a condition holds, 0 if none, and how many there are. -/
def lowestOf (k : Nat) (f : Nat → Bool) : Nat := ((List.range k).find? f).getD 0
def countOf (k : Nat) (f : Nat → Bool) : Nat := ((List.range k).filter f).length

/-- Does pane p of die d have a bit in HUB_WMSUM (Table 7.9)? -/
def State.wmSum (s : State) (d p : Nat) : Bool :=
  (anyBelow 6 fun m => decide (s.reg (R.WM_ERR d p m) &&& 0xFC000000 ≠ 0) || s.flag (R.WM_MVSTAT d p m) F.WM_MVSTAT.TERR) ||
  anyBelow 64 fun i => s.flag (R.PANE_CHSTAT d p i) F.PANE_CHSTAT.PERR

/-- The fields of PANE_CHSTAT that show a channel as it stands (R86, Table 4.14). -/
def State.chanView (s : State) (d p k : Nat) (r : HWord) : HWord :=
  let pane := paneId d p
  match inboundOf pane k with
  | none => r
  | some (sp, sk, _) =>
    let ch := s.chan sp sk
    let r1 := putF r F.PANE_CHSTAT.OCC ch.far.length
    match ch.far with
    | [] => r1
    | it :: _ =>
      let held := !s.paneRuns pane || (s.deliverItem pane k it).isNone
      putF (putF r1 F.PANE_CHSTAT.HELD (if held then 1 else 0)) F.PANE_CHSTAT.OLDB (if it.bank != SMap.get false s.bank pane then 1 else 0)

/-- WM_QSTAT (Table 7.4). -/
def State.qstatView (s : State) (d p m q : Nat) : HWord :=
  let x := s.queue (blkId d p m) q
  BitVec.ofNat 32 ((if x.dpending (s.cyc (paneId d p)) then 2 ^ 31 else 0) + (if x.lock.isSome then 2 ^ 30 else 0) +
    (if s.qDisabled (paneId d p) m q then 2 ^ 29 else 0) + x.rsv * 2 ^ 15 + x.occ)

/-- The value of a register that shows state held elsewhere, `r` being what the register file holds. -/
def State.viewOf (s : State) (k : RegKind) (ix : List Nat) (r : HWord) : HWord :=
  match k, ix with
  | .HUB_INTEGRITY, _ =>
    let ue := s.ueOut
    let r1 := r &&& 0xC
    r1 ||| (if ue then 2 else 0) ||| (if r1 = 0 ∧ ¬ ue then 1 else 0)
  | .HUB_WMSUM, [d, i] => bits32 (s.wmSum d) i
  | .HUB_TRSUM, [d, i] => bits32 (fun p => decide (s.reg (R.TR_ERR d p) &&& 0x81C00000 ≠ 0)) i
  | .CM_PLOL, [d, i] => bits32 (fun p => !s.dieDark d && s.flag (R.PANE_CLK d p) F.PANE_CLK.LOL) i
  | .PANE_CTX, [d, p] =>
    putF (putF r F.PANE_CTX.DRAINED (if s.drained (paneId d p) then 1 else 0)) F.PANE_CTX.LIVE (s.liveCopy (paneId d p))
  | .PANE_CHSTAT, [d, p, k] => s.chanView d p k r
  | .WM_QSTAT, [d, p, m, q] => s.qstatView d p m q
  | .WM_MVSTAT, [d, p, m] => putF r F.WM_MVSTAT.PEND (s.mover (blkId d p m)).pend.length
  | .ENG_STATUS, [d, e] => s.engStatusView (engId d e)
  | .TBU_NOW_L, _ => BitVec.ofNat 32 s.nowNs
  | .TBU_NOW_H, _ => BitVec.ofNat 32 (s.tbu.capture / 2 ^ 32)
  | .TB_POS, [t] => BitVec.ofNat 32 (wrapTo 16 (s.frameNow t) * 65536 + s.lineNow t % 65536)
  | .TB_FRAMEL, [t] => BitVec.ofNat 32 (wrapTo 48 (s.frameNow t))
  | .TB_FRAMEH, [t] => BitVec.ofNat 32 ((s.dom t).capture / 2 ^ 32)
  | .SD_COUNT, _ => BitVec.ofNat 32 s.sdCount
  | .CFG_SCRST, _ => putF r F.CFG_SCRST.RUN (if s.scrubRuns then 1 else 0)
  | .EVT_GSTAT, [g] =>
    BitVec.ofNat 32 ((if s.groupActive g then 2 ^ 31 else 0) + countOf 1704 (s.inGroup g) * 65536 + lowestOf 1704 (s.inGroup g))
  | .EVT_NMISTAT, _ =>
    let f := fun n => s.raised n && s.nonMask n
    BitVec.ofNat 32 ((if s.nmiActive then 2 ^ 31 else 0) + lowestOf 1704 f)
  | .EVT_SWCLR, _ => s.reg R.EVT_SWSET
  | .EVT_CPEND, [c, i] => bits32 (s.groupPends c) i
  | .EVT_SRC, [n] => putF (putF r F.EVT_SRC.RAISED (if s.raised n then 1 else 0)) F.EVT_SRC.NMI (if s.nonMask n then 1 else 0)
  | _, _ => r

/-- A BAR0 read's value of one host word, of the live view where `live` (R120), without what the read changes. Every field is as its
type code says: WO fields read 0, ST fields the staged value, or the live one in the live view. -/
def State.busValue (s : State) (off : Nat) (live : Bool) : HWord :=
  if 0x800000 ≤ off ∧ off < 0x900000 then s.sdView ((off - 0x800000) / 8) (off / 4 % 2)
  else match regAt off with
    | none => 0
    | some (row, ix) =>
      if s.absent off row.kind ix then 0
      else if s.cutOff off then 0xFFFFFFFF
      else
        let r := s.viewOf row.kind ix (s.reg off) &&& ~~~(row.wo ||| row.st)
        match stMember row.kind ix with
        | some m => r ||| ((if live then s.live m off else s.staged m off) &&& row.st)
        | none => r

/-- What a BAR0 read of one host word changes: RC fields clear to their reset values, and TBU_NOW_L and TB_FRAMEL capture. -/
def State.readEffect (s : State) (off : Nat) : State :=
  match regAt off with
  | none => s
  | some (row, ix) =>
    if s.absent off row.kind ix || s.cutOff off then s
    else match row.kind, ix with
      | .TBU_NOW_L, _ => s.readNowL.2
      | .TB_FRAMEL, [t] => (s.readFrameL t).2
      | _, _ => if row.rc = 0 then s else s.setReg off ((s.reg off &&& ~~~row.rc) ||| (resetVal off &&& row.rc))

/-- A BAR0 read of one host word, made at its register; `quiet`: a debug read without CONSUME (R409). A live-view read changes nothing either. -/
def State.busRead (s : State) (off : Nat) (quiet : Bool) : HWord × State :=
  if 0x2000000 ≤ off then (s.busValue (off - 0x2000000) true, s)
  else (s.busValue off false, if quiet then s else s.readEffect off)

/-- The offsets of the host words of an access of `len` bytes (R287); none where it is an Unsupported Request. -/
def accessWords (off len : Nat) : List Nat :=
  if len = 4 ∧ off % 4 = 0 then [off] else if len = 8 ∧ off % 8 = 0 then [off, off + 4] else []

/-- The same of an access through BAR0 of PF0, or of PF1 (R282), whose 64 KiB are the Keeper mailbox block. -/
def barWords (pf1 : Bool) (off len : Nat) : List Nat :=
  if pf1 then (if off < 0x10000 then (accessWords off len).map (0x60000 + ·) else []) else accessWords off len

end Sys2Proof.Machine
end

