-- ==== Sys2Proof/Machine/BusRows.lean ====
section
/-!
DEFINITION. What reaches control space and the transom: the accesses that wait at the hub (R421, R422), those of the host and the cores (R7,
R10, R287), management requests of the knock chain (R307), and the Keeper's debug bus master (R408, R409).
-/
namespace Sys2Proof.Machine

/-! ### Accesses -/

/-- Read `n` host words from an offset on. -/
def State.readRun (s : State) (off : Nat) (quiet : Bool) : Nat → List HWord × State
  | 0 => ([], s)
  | n + 1 => let r := s.busRead off quiet; let t := r.2.readRun (off + 4) quiet n; (r.1 :: t.1, t.2)

/-- Does an access of the host word at `off` wait for the path to its die, which runs (R422)? -/
def State.waitsAt (s : State) (off : Nat) : Bool :=
  match dieOf (off % 0x2000000) with | some d => !s.dieDark d && !s.pathUp d | none => false

/-- The number of host words of an access. -/
def HeldAcc.words (h : HeldAcc) : Nat := match h.write with | some ws => ws.length | none => h.n

/-- Must an access wait: for a path, for up to 50 µs, and a read for a write that came before it (R421, R422)? `behind`: one waits. -/
def State.mustWait (s : State) (h : HeldAcc) (behind : Bool) : Bool :=
  ((List.range h.words).any (fun i => s.waitsAt (h.off + 4 * i)) && decide (s.tbu.run < h.since + 50000 * nsUnit)) || (h.write.isNone && behind)

/-- What an access answers once it is made, `ws` being what it has read: the host's and the cores' read returns them, and a request of
the chain or of the Keeper gets its reply. -/
def State.accAnswer (s : State) (h : HeldAcc) (ws : List HWord) : State :=
  match h.asker with
  | .bar0 => ((List.range ws.length).zip ws).foldl (fun a x => a.emit (.busRead (h.off + 4 * x.1) x.2)) s
  | .chain down dst seq => s.sendChain (!down) (chainPk 5 dst s.chnAddr (BitVec.ofNat 8 seq) (0 :: ws.flatMap hwOctets))
  | .keeper r st => s.kprReply r st (if st = 0 then ws else [])

/-- The words of a write from `off` on are written one after another, and it is answered. A word for which the path goes away meanwhile waits, with
those after it (R422); `late`: the access has waited for 50 µs, and waits no more. -/
def State.writeRun (s : State) (h : HeldAcc) (late : Bool) (off : Nat) : List HWord → State
  | [] => s.accAnswer h []
  | v :: vs =>
    if !late && s.waitsAt off then
      { s with heldAcc := s.heldAcc ++ [{ h with off := off, write := some (v :: vs), since := s.tbu.run }] }
    else (s.busWrite h.src off v).writeRun h late (off + 4) vs

/-- An access is made at its registers: where a path has stayed away, a read of all ones and a write discarded (R422). -/
def State.accMake (s : State) (h : HeldAcc) : State :=
  match h.write with
  | some ws => s.writeRun h (decide (h.since + 50000 * nsUnit ≤ s.tbu.run)) h.off ws
  | none => let r := s.readRun h.off h.quiet h.n; r.2.accAnswer h r.1

/-- The accesses that wait, oldest first: those that need not wait any longer are made. -/
def State.settleHeld (s : State) : State :=
  if s.power ≠ .on then { s with heldAcc := [] }
  else s.heldAcc.foldl (fun a h =>
    if a.mustWait h (a.heldAcc.any (·.write.isSome)) then { a with heldAcc := a.heldAcc ++ [h] } else a.accMake h) { s with heldAcc := [] }

/-- An access reaches the hub: it is made, or it waits there. -/
def State.access (s : State) (h : HeldAcc) : State := ({ s with heldAcc := s.heldAcc ++ [{ h with since := s.tbu.run }] } : State).settleHeld

/-- R7, R287. `src` 6: the host through BAR0 of PF1; 7 and 8: through BAR4 of PF0 and of PF1 (R282). -/
def execRegisterWrite (src : Fin 9) (off : BitVec 26) (len : Nat) (v : BitVec 64) (s : State) : Res :=
  .next (
    if s.power ≠ .on then s
    else if 7 ≤ src.val then
      ((accessWords off.toNat len).zip [BitVec.ofNat 32 v.toNat, BitVec.ofNat 32 (v.toNat / 2 ^ 32)]).foldl
        (fun a x => a.msixWrite (src.val - 7) x.1 x.2) s
    else match barWords (decide (src.val = 6)) off.toNat len with
      | [] => s.emit (.unsupported true off.toNat len)
      | o :: os =>
        let ws := BitVec.ofNat 32 v.toNat :: os.map fun _ => BitVec.ofNat 32 (v.toNat / 2 ^ 32)
        s.access { src := src.val % 6, off := o, since := 0, write := some ws })

/-- R10, R287. -/
def execReadClear (off : BitVec 26) (len : Nat) (how : ReadBy) (s : State) : Res :=
  .next (
    if s.power ≠ .on then s
    else match how with
      | .bar4 fn => (accessWords off.toNat len).foldl (fun a o => a.emit (.bar4Read fn o (a.msixValue fn o))) s
      | _ => match barWords (decide (how = .pf1)) off.toNat len with
        | [] => s.emit (.unsupported false off.toNat len)
        | o :: os => s.access { off := o, write := none, n := 1 + os.length, quiet := decide (how = .quiet), since := 0 })

/-- R261, R271. With a hinge that comes UP, the accesses that waited for it are made. -/
def execWidth (k : Fin 6) (second : Bool) (j : Fin 32) (noise : List (BitVec 48)) (s : State) : Res :=
  .next (s.settleHeld.receive (hingeEnd k second) j noise fun b => match b with | .width _ _ _ => true | _ => false).settleHeld

/-- What the device does by itself while no command reaches it: its timebase clock goes on (R104; DESIGN CHOICE, log entry 6), a chain stream
that stays away too long fails the boot attempt (R347), and accesses that have waited long enough are over (R422). -/
def State.idle (s : State) : State :=
  let s1 := s.tbuEdge
  (if s.power = .on ∧ s1.chainLate then s1.bootFailed 16 none else s1).settleHeld

/-! ### Management requests -/

/-- R307. An MREQ arrives from upstream (`down`) or downstream; its target performs its accesses and answers in the other direction. Accesses
at an offset that is not aligned have no effect (R287); STATUS 2 for them is a DESIGN CHOICE (log entry 172). -/
def execMreq (pk : ChainPkt) (down : Bool) (s : State) : Res :=
  .next (s.chainTake 4 pk fun s =>
    let s1 := s.chainPass down pk
    if ¬ s.chainMine pk then s1
    else
      let back := pk.src.toNat % 16
      let ws := hwOfOctets pk.payload; let m0 := ws.getD 0 0; let n := m0.toNat % 16 + 1; let off := (ws.getD 1 0).toNat % 2 ^ 26
      if ¬ s.flag R.CHN_CFG F.CHN_CFG.MGMT ∨ off % 4 ≠ 0 then s1.sendChain (!down) (chainPk 5 back s.chnAddr pk.seq [2])
      else
        s1.access { asker := .chain down back pk.seq.toNat, src := 4, off := off, n := n, since := 0,
                    write := if m0.getLsbD 31 then some ((List.range n).map fun i => ws.getD (2 + i) 0) else none })

/-! ### The debug bus master -/

/-- Hub port 30, through which the debug bus master reaches the transom. -/
def kprPort : Nat := portId 256 30

/-- A free tag of the debug bus master. -/
def State.kprTag (s : State) : Option Nat :=
  ((List.range 128).map (896 + ·)).find? fun t =>
    !(s.outst.any fun o => decide (o.port = kprPort ∧ o.tag = t)) && !(s.quar.any fun q => decide (q = (kprPort, t)))

/-- How many of the `n` host words from an offset on a bus access reaches: none where the offset is not aligned, and none beyond
control space. -/
def kprReach (off n : Nat) : Nat := if off % 4 = 0 then min n ((2 ^ 26 - off) / 4) else 0

/-- The ECODE of the access that fails first. -/
def kprFault (off : Nat) : Nat := if off % 4 = 0 then 2 else 1

/-- RD. -/
def execKeeperRd (c : Fin 3) (s : State) : Res :=
  .next (s.kprAsk c 0x10 1 fun s r ws =>
    let off := (pay ws 0).toNat; let w := pay ws 1; let n := w.toNat % 64 + 1
    if w.getLsbD 31 ∧ s.fld R.KPR_STAT F.KPR_STAT.LEVEL < 2 then s.kprReply r 2 []
    else if 2 ^ 26 ≤ off ∨ 56 < n then s.kprReply r 3 []
    else s.access { asker := .keeper r (if kprReach off n < n then 5 + 256 * kprFault off else 0), off := off, write := none, n := kprReach off n,
                    quiet := !w.getLsbD 31, since := 0 })

/-- WR. A failed write ends the request. -/
def execKeeperWr (c : Fin 3) (s : State) : Res :=
  .next (s.kprAsk c 0x11 2 fun s r ws =>
    let off := (pay ws 0).toNat; let n := ws.length - 1
    if 2 ^ 26 ≤ off then s.kprReply r 3 []
    else s.access { asker := .keeper r (if kprReach off n < n then 5 + 256 * kprFault off else 0), src := 5, off := off, since := 0,
                    write := some ((ws.drop 1).take (kprReach off n)) })

/-- The transom word address and word count of a TRD or TWR. -/
def kprAddr (ws : List HWord) : Nat := (pay ws 1).toNat % 256 * 2 ^ 32 + (pay ws 0).toNat
def kprCount (ws : List HWord) : Nat := (pay ws 1).toNat / 256 % 32 + 1

/-- The debug bus master issues a transom request and keeps the Keeper's request for its reply. -/
def State.kprIssue (s : State) (r : KReq) (t : Nat) (pk : Packet) : State :=
  (s.withKpr fun k => { k with trans := k.trans ++ [(t, r)] }).sendReq { pk with src := kprPort, tag := Fin.ofNat 1024 t } (.keeper t)

/-- TRD. It waits for a free tag. -/
def execKeeperTrd (c : Fin 3) (s : State) : Res :=
  .next (match s.kprTag with
    | none => s
    | some t => s.kprAsk c 0x12 1 fun s r ws =>
      let w := pay ws 1; let n := kprCount ws
      if w.getLsbD 31 ∧ s.fld R.KPR_STAT F.KPR_STAT.LEVEL < 2 then s.kprReply r 2 []
      else if 28 < n then s.kprReply r 3 []
      else if ¬ w.getLsbD 31 ∧ queuePortAddr (kprAddr ws) then s.kprReply r 6 []
      else s.kprIssue r t { cmd := cRD, addr := BitVec.ofNat 40 (kprAddr ws), len := Fin.ofNat 65 n })

/-- TWR. -/
def execKeeperTwr (c : Fin 3) (s : State) : Res :=
  .next (match s.kprTag with
    | none => s
    | some t => s.kprAsk c 0x13 2 fun s r ws =>
      let n := kprCount ws
      if 28 < n then s.kprReply r 3 []
      else s.kprIssue r t { cmd := cWR, addr := BitVec.ofNat 40 (kprAddr ws), len := Fin.ofNat 65 n,
                            data := slotWords (octetsOf (ws.drop 2)) })

end Sys2Proof.Machine
end

