-- ==== Sys2Proof/Machine/Dispatch.lean ====
section
/-!
DEFINITION. Which meaning each command has: one arm per constructor of Instr.
-/
namespace Sys2Proof.Machine

def exec (i : Instr) (s : State) : Host.Outcome State Fault Refusal :=
  match i with
  | .registerWrite src off len v => Sys2Proof.Machine.execRegisterWrite src off len v s
  | .readClear off len how => Sys2Proof.Machine.execReadClear off len how s
  | .nop c dt => Sys2Proof.Machine.execNop c dt s
  | .fclr c dt => Sys2Proof.Machine.execFclr c dt s
  | .fget c dt => Sys2Proof.Machine.execFget c dt s
  | .mov c dt => Sys2Proof.Machine.execMov c dt s
  | .movk c dt => Sys2Proof.Machine.execMovk c dt s
  | .add c dt => Sys2Proof.Machine.execAdd c dt s
  | .adc c dt => Sys2Proof.Machine.execAdc c dt s
  | .addu c dt => Sys2Proof.Machine.execAddu c dt s
  | .adds c dt => Sys2Proof.Machine.execAdds c dt s
  | .sub c dt => Sys2Proof.Machine.execSub c dt s
  | .sbc c dt => Sys2Proof.Machine.execSbc c dt s
  | .subu c dt => Sys2Proof.Machine.execSubu c dt s
  | .subs c dt => Sys2Proof.Machine.execSubs c dt s
  | .minu c dt => Sys2Proof.Machine.execMinu c dt s
  | .maxu c dt => Sys2Proof.Machine.execMaxu c dt s
  | .mins c dt => Sys2Proof.Machine.execMins c dt s
  | .maxs c dt => Sys2Proof.Machine.execMaxs c dt s
  | .absd c dt => Sys2Proof.Machine.execAbsd c dt s
  | .clampu c dt => Sys2Proof.Machine.execClampu c dt s
  | .clamps c dt => Sys2Proof.Machine.execClamps c dt s
  | .cmpu c dt => Sys2Proof.Machine.execCmpu c dt s
  | .cmps c dt => Sys2Proof.Machine.execCmps c dt s
  | .sel c dt => Sys2Proof.Machine.execSel c dt s
  | .and c dt => Sys2Proof.Machine.execAnd c dt s
  | .or c dt => Sys2Proof.Machine.execOr c dt s
  | .xor c dt => Sys2Proof.Machine.execXor c dt s
  | .andn c dt => Sys2Proof.Machine.execAndn c dt s
  | .log3 c dt => Sys2Proof.Machine.execLog3 c dt s
  | .shl c dt => Sys2Proof.Machine.execShl c dt s
  | .shr c dt => Sys2Proof.Machine.execShr c dt s
  | .sar c dt => Sys2Proof.Machine.execSar c dt s
  | .rol c dt => Sys2Proof.Machine.execRol c dt s
  | .fsh c dt => Sys2Proof.Machine.execFsh c dt s
  | .ext c dt => Sys2Proof.Machine.execExt c dt s
  | .exts c dt => Sys2Proof.Machine.execExts c dt s
  | .ins c dt => Sys2Proof.Machine.execIns c dt s
  | .unpk c dt => Sys2Proof.Machine.execUnpk c dt s
  | .pks c dt => Sys2Proof.Machine.execPks c dt s
  | .mul c dt => Sys2Proof.Machine.execMul c dt s
  | .mula c dt => Sys2Proof.Machine.execMula c dt s
  | .cas c dt => Sys2Proof.Machine.execCas c dt s
  | .pop c dt => Sys2Proof.Machine.execPop c dt s
  | .push c dt => Sys2Proof.Machine.execPush c dt s
  | .pushe c dt => Sys2Proof.Machine.execPushe c dt s
  | .slam c dt => Sys2Proof.Machine.execSlam c dt s
  | .paneGate d p v edge => Sys2Proof.Machine.execPaneGate d p v edge s
  | .paneRelock d p => Sys2Proof.Machine.execPaneRelock d p s
  | .paneLossOfLock d p => Sys2Proof.Machine.execPaneLossOfLock d p s
  | .channelEnter d p k dt => Sys2Proof.Machine.execChannelEnter d p k dt s
  | .channelDeliver d p k dt => Sys2Proof.Machine.execChannelDeliver d p k dt s
  | .tbuSetHWrite v => Sys2Proof.Machine.execTbuSetHWrite v s
  | .tbuNowLRead dt => Sys2Proof.Machine.execTbuNowLRead dt s
  | .tbFramelRead t dt => Sys2Proof.Machine.execTbFramelRead t dt s
  | .generationAdopt t dt => Sys2Proof.Machine.execGenerationAdopt t dt s
  | .tbRefEdge t dt => Sys2Proof.Machine.execTbRefEdge t dt s
  | .tbRefLost t dt => Sys2Proof.Machine.execTbRefLost t dt s
  | .frameTick t dt => Sys2Proof.Machine.execFrameTick t dt s
  | .lineTick t dt => Sys2Proof.Machine.execLineTick t dt s
  | .shtArmGo t v => Sys2Proof.Machine.execShtArmGo t v s
  | .abort t v => Sys2Proof.Machine.execAbort t v s
  | .armReceive m => Sys2Proof.Machine.execArmReceive m s
  | .memberAcknowledge m => Sys2Proof.Machine.execMemberAcknowledge m s
  | .disarm m => Sys2Proof.Machine.execDisarm m s
  | .paneSwitch d p dt => Sys2Proof.Machine.execPaneSwitch d p dt s
  | .engineSwitch d e => Sys2Proof.Machine.execEngineSwitch d e s
  | .laneSwitch d l => Sys2Proof.Machine.execLaneSwitch d l s
  | .ddrQosSwitch c => Sys2Proof.Machine.execDdrQosSwitch c s
  | .pinBankSwitch b => Sys2Proof.Machine.execPinBankSwitch b s
  | .pinHandover b => Sys2Proof.Machine.execPinHandover b s
  | .commitComplete t => Sys2Proof.Machine.execCommitComplete t s
  | .cmul d e dt => Sys2Proof.Machine.execCmul d e dt s
  | .cmac d e dt => Sys2Proof.Machine.execCmac d e dt s
  | .cmsu d e dt => Sys2Proof.Machine.execCmsu d e dt s
  | .cmacj d e dt => Sys2Proof.Machine.execCmacj d e dt s
  | .dmul d e dt => Sys2Proof.Machine.execDmul d e dt s
  | .dmac d e dt => Sys2Proof.Machine.execDmac d e dt s
  | .pwr d e dt => Sys2Proof.Machine.execPwr d e dt s
  | .ald d e dt => Sys2Proof.Machine.execAld d e dt s
  | .aclr d e dt => Sys2Proof.Machine.execAclr d e dt s
  | .mova d e dt => Sys2Proof.Machine.execMova d e dt s
  | .movaw d e dt => Sys2Proof.Machine.execMovaw d e dt s
  | .engMov d e dt => Sys2Proof.Machine.execEngMov d e dt s
  | .movi d e dt => Sys2Proof.Machine.execMovi d e dt s
  | .engMovk d e dt => Sys2Proof.Machine.execEngMovk d e dt s
  | .engAdd d e dt => Sys2Proof.Machine.execEngAdd d e dt s
  | .engSub d e dt => Sys2Proof.Machine.execEngSub d e dt s
  | .engAdds d e dt => Sys2Proof.Machine.execEngAdds d e dt s
  | .engSubs d e dt => Sys2Proof.Machine.execEngSubs d e dt s
  | .min d e dt => Sys2Proof.Machine.execMin d e dt s
  | .max d e dt => Sys2Proof.Machine.execMax d e dt s
  | .abs d e dt => Sys2Proof.Machine.execAbs d e dt s
  | .neg d e dt => Sys2Proof.Machine.execNeg d e dt s
  | .engAnd d e dt => Sys2Proof.Machine.execEngAnd d e dt s
  | .engOr d e dt => Sys2Proof.Machine.execEngOr d e dt s
  | .engXor d e dt => Sys2Proof.Machine.execEngXor d e dt s
  | .engShl d e dt => Sys2Proof.Machine.execEngShl d e dt s
  | .engShr d e dt => Sys2Proof.Machine.execEngShr d e dt s
  | .engSar d e dt => Sys2Proof.Machine.execEngSar d e dt s
  | .conj d e dt => Sys2Proof.Machine.execConj d e dt s
  | .swaph d e dt => Sys2Proof.Machine.execSwaph d e dt s
  | .cmpeq d e dt => Sys2Proof.Machine.execCmpeq d e dt s
  | .cmplt d e dt => Sys2Proof.Machine.execCmplt d e dt s
  | .cmpltu d e dt => Sys2Proof.Machine.execCmpltu d e dt s
  | .pset d e dt => Sys2Proof.Machine.execPset d e dt s
  | .mfc d e dt => Sys2Proof.Machine.execMfc d e dt s
  | .mtc d e dt => Sys2Proof.Machine.execMtc d e dt s
  | .xadd d e dt => Sys2Proof.Machine.execXadd d e dt s
  | .xcp d e dt => Sys2Proof.Machine.execXcp d e dt s
  | .bxt d e dt => Sys2Proof.Machine.execBxt d e dt s
  | .ld d e dt => Sys2Proof.Machine.execLd d e dt s
  | .ldo d e dt => Sys2Proof.Machine.execLdo d e dt s
  | .st d e dt => Sys2Proof.Machine.execSt d e dt s
  | .sto d e dt => Sys2Proof.Machine.execSto d e dt s
  | .spop d e dt => Sys2Proof.Machine.execSpop d e dt s
  | .spush d e dt => Sys2Proof.Machine.execSpush d e dt s
  | .sslam d e dt => Sys2Proof.Machine.execSslam d e dt s
  | .engTrd d e dt => Sys2Proof.Machine.execEngTrd d e dt s
  | .engTwr d e dt => Sys2Proof.Machine.execEngTwr d e dt s
  | .br d e dt => Sys2Proof.Machine.execBr d e dt s
  | .call d e dt => Sys2Proof.Machine.execCall d e dt s
  | .ret d e dt => Sys2Proof.Machine.execRet d e dt s
  | .loop d e dt => Sys2Proof.Machine.execLoop d e dt s
  | .loopv d e dt => Sys2Proof.Machine.execLoopv d e dt s
  | .loopp d e dt => Sys2Proof.Machine.execLoopp d e dt s
  | .twait d e dt => Sys2Proof.Machine.execTwait d e dt s
  | .wdog d e dt => Sys2Proof.Machine.execWdog d e dt s
  | .blk d e dt => Sys2Proof.Machine.execBlk d e dt s
  | .sig d e dt => Sys2Proof.Machine.execSig d e dt s
  | .stop d e dt => Sys2Proof.Machine.execStop d e dt s
  | .engCtlStart d e => Sys2Proof.Machine.execEngCtlStart d e s
  | .engCtlStop d e => Sys2Proof.Machine.execEngCtlStop d e s
  | .engineWatchdogExpiry d e => Sys2Proof.Machine.execEngineWatchdogExpiry d e s
  | .ramPortServe d p m x dt => Sys2Proof.Machine.execRamPortServe d p m x dt s
  | .lockBreak d p m q => Sys2Proof.Machine.execLockBreak d p m q s
  | .moverFetchLine d p m dt => Sys2Proof.Machine.execMoverFetchLine d p m dt s
  | .moverFetchIssue d p m dt => Sys2Proof.Machine.execMoverFetchIssue d p m dt s
  | .moverPostEntry d p m dt => Sys2Proof.Machine.execMoverPostEntry d p m dt s
  | .moverPostIssue d p m dt => Sys2Proof.Machine.execMoverPostIssue d p m dt s
  | .moverPostIdleTimeout d p m dt => Sys2Proof.Machine.execMoverPostIdleTimeout d p m dt s
  | .ledgerSnap d p m => Sys2Proof.Machine.execLedgerSnap d p m s
  | .wmPatrolRead d p m => Sys2Proof.Machine.execWmPatrolRead d p m s
  | .rd pk host => Sys2Proof.Machine.execRd pk host s
  | .wr pk ok => Sys2Proof.Machine.execWr pk ok s
  | .wrp pk ok => Sys2Proof.Machine.execWrp pk ok s
  | .rdlk pk => Sys2Proof.Machine.execRdlk pk s
  | .wrul pk => Sys2Proof.Machine.execWrul pk s
  | .transomAdd pk => Sys2Proof.Machine.execTransomAdd pk s
  | .swap pk => Sys2Proof.Machine.execSwap pk s
  | .msg pk => Sys2Proof.Machine.execMsg pk s
  | .lkup pk => Sys2Proof.Machine.execLkup pk s
  | .lookupRecord lp => Sys2Proof.Machine.execLookupRecord lp s
  | .cpl pk => Sys2Proof.Machine.execCpl pk s
  | .cple pk => Sys2Proof.Machine.execCple pk s
  | .packetForward x pk => Sys2Proof.Machine.execPacketForward x pk s
  | .requestTimeout port tag => Sys2Proof.Machine.execRequestTimeout port tag s
  | .quarantineEnd port tag => Sys2Proof.Machine.execQuarantineEnd port tag s
  | .creditTimeout l v => Sys2Proof.Machine.execCreditTimeout l v s
  | .completionTimeout l => Sys2Proof.Machine.execCompletionTimeout l s
  | .trCmdBoard l => Sys2Proof.Machine.execTrCmdBoard l s
  | .trCmdUnboard l => Sys2Proof.Machine.execTrCmdUnboard l s
  | .trCmdSnap d p => Sys2Proof.Machine.execTrCmdSnap d p s
  | .trGsnapGo v => Sys2Proof.Machine.execTrGsnapGo v s
  | .globalCapture => Sys2Proof.Machine.execGlobalCapture s
  | .drainEnd => Sys2Proof.Machine.execDrainEnd s
  | .drainTimeout => Sys2Proof.Machine.execDrainTimeout s
  | .setmiss klen => Sys2Proof.Machine.execSetmiss klen s
  | .upsert klen => Sys2Proof.Machine.execUpsert klen s
  | .delete klen => Sys2Proof.Machine.execDelete klen s
  | .find klen => Sys2Proof.Machine.execFind klen s
  | .ddrInit c => Sys2Proof.Machine.execDdrInit c s
  | .ddrRetrain c => Sys2Proof.Machine.execDdrRetrain c s
  | .ddrOffline c => Sys2Proof.Machine.execDdrOffline c s
  | .ddrOnline c => Sys2Proof.Machine.execDdrOnline c s
  | .deferredRetrain c => Sys2Proof.Machine.execDeferredRetrain c s
  | .ddrRefresh c => Sys2Proof.Machine.execDdrRefresh c s
  | .dqsDriftTrack c => Sys2Proof.Machine.execDqsDriftTrack c s
  | .ddrPatrolScrub c => Sys2Proof.Machine.execDdrPatrolScrub c s
  | .frameStoreHelper v => Sys2Proof.Machine.execFrameStoreHelper v s
  | .laneEnable d l en => Sys2Proof.Machine.execLaneEnable d l en s
  | .quadLock d q => Sys2Proof.Machine.execQuadLock d q s
  | .quadLossOfLock d q => Sys2Proof.Machine.execQuadLossOfLock d q s
  | .cdrLockChange d l lock => Sys2Proof.Machine.execCdrLockChange d l lock s
  | .laneReceiveWord d l w dt => Sys2Proof.Machine.execLaneReceiveWord d l w dt s
  | .laneTransmitWord d l dt => Sys2Proof.Machine.execLaneTransmitWord d l dt s
  | .nativeFrameReceive d l bits dt => Sys2Proof.Machine.execNativeFrameReceive d l bits dt s
  | .nativeFrameSend d l dt => Sys2Proof.Machine.execNativeFrameSend d l dt s
  | .stepSwitch d l => Sys2Proof.Machine.execStepSwitch d l s
  | .stepFallback d l => Sys2Proof.Machine.execStepFallback d l s
  | .seekRestart d l => Sys2Proof.Machine.execSeekRestart d l s
  | .downToSeek d l => Sys2Proof.Machine.execDownToSeek d l s
  | .laneRetrain d l => Sys2Proof.Machine.execLaneRetrain d l s
  | .eyego d l => Sys2Proof.Machine.execEyego d l s
  | .eyeDone d l errs => Sys2Proof.Machine.execEyeDone d l errs s
  | .plainFlit e j noise => Sys2Proof.Machine.execPlainFlit e j noise s
  | .markedFlit e j noise => Sys2Proof.Machine.execMarkedFlit e j noise s
  | .flitOne e j noise => Sys2Proof.Machine.execFlitOne e j noise s
  | .flitTwo e j noise => Sys2Proof.Machine.execFlitTwo e j noise s
  | .ack e j noise => Sys2Proof.Machine.execAck e j noise s
  | .ecred e j noise => Sys2Proof.Machine.execEcred e j noise s
  | .tcred e j noise => Sys2Proof.Machine.execTcred e j noise s
  | .tick e j noise => Sys2Proof.Machine.execTick e j noise s
  | .width k second j noise => Sys2Proof.Machine.execWidth k second j noise s
  | .replayTimeout e j => Sys2Proof.Machine.execReplayTimeout e j s
  | .leafClockLoss e j => Sys2Proof.Machine.execLeafClockLoss e j s
  | .hngRetrain e good => Sys2Proof.Machine.execHngRetrain e good s
  | .trainingStepTimeout k => Sys2Proof.Machine.execTrainingStepTimeout k s
  | .hngSnap e => Sys2Proof.Machine.execHngSnap e s
  | .featureLevelFixed => Sys2Proof.Machine.execFeatureLevelFixed s
  | .uclUnit u3 u2 u1 u0 retry => Sys2Proof.Machine.execUclUnit u3 u2 u1 u0 retry s
  | .uclRetrain v => Sys2Proof.Machine.execUclRetrain v s
  | .ucieLinkError => Sys2Proof.Machine.execUcieLinkError s
  | .ucieLinkActive rate x8 => Sys2Proof.Machine.execUcieLinkActive rate x8 s
  | .pcieReset kind => Sys2Proof.Machine.execPcieReset kind s
  | .bar2Write b bytes => Sys2Proof.Machine.execBar2Write b bytes s
  | .bar2Read b len id => Sys2Proof.Machine.execBar2Read b len id s
  | .hcqDoorbell q v => Sys2Proof.Machine.execHcqDoorbell q v s
  | .hcqCqhWrite q v => Sys2Proof.Machine.execHcqCqhWrite q v s
  | .hcqEnable q v => Sys2Proof.Machine.execHcqEnable q v s
  | .commandFetch q cw ok => Sys2Proof.Machine.execCommandFetch q cw ok s
  | .commandComplete q x => Sys2Proof.Machine.execCommandComplete q x s
  | .hcqNop q => Sys2Proof.Machine.execHcqNop q s
  | .dmaTo q x bytes ok => Sys2Proof.Machine.execDmaTo q x bytes ok s
  | .dmaFrom q x => Sys2Proof.Machine.execDmaFrom q x s
  | .arm q map ok => Sys2Proof.Machine.execArm q map ok s
  | .load q ws ok => Sys2Proof.Machine.execLoad q ws ok s
  | .launch q => Sys2Proof.Machine.execLaunch q s
  | .park q => Sys2Proof.Machine.execPark q s
  | .unpark q ups lock => Sys2Proof.Machine.execUnpark q ups lock s
  | .pctlPark d => Sys2Proof.Machine.execPctlPark d s
  | .pctlUnpark d ups lock => Sys2Proof.Machine.execPctlUnpark d ups lock s
  | .chainLockChange out cs => Sys2Proof.Machine.execChainLockChange out cs s
  | .headElection => Sys2Proof.Machine.execHeadElection s
  | .knockRoundStart => Sys2Proof.Machine.execKnockRoundStart s
  | .knock pk => Sys2Proof.Machine.execKnock pk s
  | .knockEnd pk => Sys2Proof.Machine.execKnockEnd pk s
  | .knockReq pk => Sys2Proof.Machine.execKnockReq pk s
  | .knockTimeout => Sys2Proof.Machine.execKnockTimeout s
  | .cfg pk late => Sys2Proof.Machine.execCfg pk late s
  | .mreq pk down => Sys2Proof.Machine.execMreq pk down s
  | .mrsp pk down => Sys2Proof.Machine.execMrsp pk down s
  | .kpr pk down => Sys2Proof.Machine.execKpr pk down s
  | .chnCtlKnock v => Sys2Proof.Machine.execChnCtlKnock v s
  | .chnCtlMgo v => Sys2Proof.Machine.execChnCtlMgo v s
  | .chnCtlSnap v => Sys2Proof.Machine.execChnCtlSnap v s
  | .mreqTimeout => Sys2Proof.Machine.execMreqTimeout s
  | .clkHlcfgWrite v => Sys2Proof.Machine.execClkHlcfgWrite v s
  | .muxSwitch id => Sys2Proof.Machine.execMuxSwitch id s
  | .muxForcedSwitch id => Sys2Proof.Machine.execMuxForcedSwitch id s
  | .muxSwitchAbandon id dead => Sys2Proof.Machine.execMuxSwitchAbandon id dead s
  | .fmGo v => Sys2Proof.Machine.execFmGo v s
  | .fmDone n => Sys2Proof.Machine.execFmDone n s
  | .monitorWindow x n => Sys2Proof.Machine.execMonitorWindow x n s
  | .hubLoopLossOfLock n => Sys2Proof.Machine.execHubLoopLossOfLock n s
  | .hubLoopRelock n => Sys2Proof.Machine.execHubLoopRelock n s
  | .foscCheckWindow n => Sys2Proof.Machine.execFoscCheckWindow n s
  | .powerOn => Sys2Proof.Machine.execPowerOn s
  | .hreset => Sys2Proof.Machine.execHreset s
  | .clkRstDev v => Sys2Proof.Machine.execClkRstDev v s
  | .lockTimeout => Sys2Proof.Machine.execLockTimeout s
  | .doneNHigh => Sys2Proof.Machine.execDoneNHigh s
  | .doneTimeout => Sys2Proof.Machine.execDoneTimeout s
  | .clkHoldGo v => Sys2Proof.Machine.execClkHoldGo v s
  | .bellWake k level => Sys2Proof.Machine.execBellWake k level s
  | .storeRead => Sys2Proof.Machine.execStoreRead s
  | .storeProgram => Sys2Proof.Machine.execStoreProgram s
  | .storeErase => Sys2Proof.Machine.execStoreErase s
  | .storeCommandEnd fail => Sys2Proof.Machine.execStoreCommandEnd fail s
  | .skipPacket => Sys2Proof.Machine.execSkipPacket s
  | .cfgIdcode => Sys2Proof.Machine.execCfgIdcode s
  | .cfgFsel => Sys2Proof.Machine.execCfgFsel s
  | .cfgFload bad => Sys2Proof.Machine.execCfgFload bad s
  | .cfgCtl => Sys2Proof.Machine.execCfgCtl s
  | .cfgCrc => Sys2Proof.Machine.execCfgCrc s
  | .cfgStartOrder => Sys2Proof.Machine.execCfgStartOrder s
  | .cfgShut => Sys2Proof.Machine.execCfgShut s
  | .cfgEnd => Sys2Proof.Machine.execCfgEnd s
  | .cfgRtpktWrite v => Sys2Proof.Machine.execCfgRtpktWrite v s
  | .rtpktStreamTimeout => Sys2Proof.Machine.execRtpktStreamTimeout s
  | .readback v => Sys2Proof.Machine.execReadback v s
  | .scrubFrame copy f => Sys2Proof.Machine.execScrubFrame copy f s
  | .regionReload => Sys2Proof.Machine.execRegionReload s
  | .scrubSelfFault => Sys2Proof.Machine.execScrubSelfFault s
  | .cfgScrubWrite v => Sys2Proof.Machine.execCfgScrubWrite v s
  | .istCellSignature d p sig dt => Sys2Proof.Machine.execIstCellSignature d p sig dt s
  | .istEngineTest d e sig => Sys2Proof.Machine.execIstEngineTest d e sig s
  | .istSpareLeafBlock k j bad => Sys2Proof.Machine.execIstSpareLeafBlock k j bad s
  | .otpProgram f => Sys2Proof.Machine.execOtpProgram f s
  | .otpVoid f => Sys2Proof.Machine.execOtpVoid f s
  | .otpCommandEnd => Sys2Proof.Machine.execOtpCommandEnd s
  | .extest done data => Sys2Proof.Machine.execExtest done data s
  | .jtagIdcode => Sys2Proof.Machine.execJtagIdcode s
  | .samplePreload done data => Sys2Proof.Machine.execSamplePreload done data s
  | .highz => Sys2Proof.Machine.execHighz s
  | .clamp => Sys2Proof.Machine.execClamp s
  | .bypass => Sys2Proof.Machine.execBypass s
  | .lockstepDisagreement => Sys2Proof.Machine.execLockstepDisagreement s
  | .voltageSample x mv => Sys2Proof.Machine.execVoltageSample x mv s
  | .temperatureSample x t => Sys2Proof.Machine.execTemperatureSample x t s
  | .thermalTripReset => Sys2Proof.Machine.execThermalTripReset s
  | .deadboltWatchdogExpiry => Sys2Proof.Machine.execDeadboltWatchdogExpiry s
  | .heartbeat v => Sys2Proof.Machine.execHeartbeat v s
  | .scWatchdogReload => Sys2Proof.Machine.execScWatchdogReload s
  | .pinInputEdge k raw ticks dt => Sys2Proof.Machine.execPinInputEdge k raw ticks dt s
  | .pinGpoutWrite b oe v => Sys2Proof.Machine.execPinGpoutWrite b oe v s
  | .uartTxWrite u v => Sys2Proof.Machine.execUartTxWrite u v s
  | .uartRxOctet u o perr ferr => Sys2Proof.Machine.execUartRxOctet u o perr ferr s
  | .uartPop u => Sys2Proof.Machine.execUartPop u s
  | .i2cStart x => Sys2Proof.Machine.execI2cStart x s
  | .i2cWriteData x data => Sys2Proof.Machine.execI2cWriteData x data s
  | .i2cReadWithAck x => Sys2Proof.Machine.execI2cReadWithAck x s
  | .i2cReadWithNack x => Sys2Proof.Machine.execI2cReadWithNack x s
  | .i2cStop x => Sys2Proof.Machine.execI2cStop x s
  | .i2cOpDone x rdata nack arbl => Sys2Proof.Machine.execI2cOpDone x rdata nack arbl s
  | .spiXferGo x v => Sys2Proof.Machine.execSpiXferGo x v s
  | .spiXferDone x rdata => Sys2Proof.Machine.execSpiXferDone x rdata s
  | .fanCountUpdate f => Sys2Proof.Machine.execFanCountUpdate f s
  | .fpinWordOut d n dt => Sys2Proof.Machine.execFpinWordOut d n dt s
  | .fpinWordIn d n w dt => Sys2Proof.Machine.execFpinWordIn d n w dt s
  | .eventSourceChange n => Sys2Proof.Machine.execEventSourceChange n s
  | .evtSrcWrite n v => Sys2Proof.Machine.execEvtSrcWrite n v s
  | .evtGackWrite hi v => Sys2Proof.Machine.execEvtGackWrite hi v s
  | .evtSwsetWrite v => Sys2Proof.Machine.execEvtSwsetWrite v s
  | .evtSwclrWrite v => Sys2Proof.Machine.execEvtSwclrWrite v s
  | .kprTxdWrite v => Sys2Proof.Machine.execKprTxdWrite v s
  | .kprRxpopWrite v => Sys2Proof.Machine.execKprRxpopWrite v s
  | .mailboxGapTimeout => Sys2Proof.Machine.execMailboxGapTimeout s
  | .ident c => Sys2Proof.Machine.execIdent c s
  | .hello c => Sys2Proof.Machine.execHello c s
  | .ownk c => Sys2Proof.Machine.execOwnk c s
  | .cred c => Sys2Proof.Machine.execCred c s
  | .prove c => Sys2Proof.Machine.execProve c s
  | .openingTimeout => Sys2Proof.Machine.execOpeningTimeout s
  | .sessionIdleTimeout => Sys2Proof.Machine.execSessionIdleTimeout s
  | .bye c => Sys2Proof.Machine.execBye c s
  | .keeperRd c => Sys2Proof.Machine.execKeeperRd c s
  | .keeperWr c => Sys2Proof.Machine.execKeeperWr c s
  | .keeperTrd c => Sys2Proof.Machine.execKeeperTrd c s
  | .keeperTwr c => Sys2Proof.Machine.execKeeperTwr c s
  | .halt c => Sys2Proof.Machine.execHalt c s
  | .resume c => Sys2Proof.Machine.execResume c s
  | .step c => Sys2Proof.Machine.execStep c s
  | .tstat c => Sys2Proof.Machine.execTstat c s
  | .rreg c => Sys2Proof.Machine.execRreg c s
  | .wreg c => Sys2Proof.Machine.execWreg c s
  | .wdsusp c => Sys2Proof.Machine.execWdsusp c s
  | .wdres c => Sys2Proof.Machine.execWdres c s
  | .watchdogSuspensionEnd => Sys2Proof.Machine.execWatchdogSuspensionEnd s
  | .dbclr c => Sys2Proof.Machine.execDbclr c s
  | .mc0HaltDeferExpiry => Sys2Proof.Machine.execMc0HaltDeferExpiry s
  | .mcWdtKick c v => Sys2Proof.Machine.execMcWdtKick c v s
  | .mcWatchdogExpiry c => Sys2Proof.Machine.execMcWatchdogExpiry c s
  | .diagInjDataBit key tgt => Sys2Proof.Machine.execDiagInjDataBit key tgt s
  | .diagInjTwoSymbols key tgt => Sys2Proof.Machine.execDiagInjTwoSymbols key tgt s
  | .diagInjParity key tgt => Sys2Proof.Machine.execDiagInjParity key tgt s
  | .diagInjFlitCrc key tgt => Sys2Proof.Machine.execDiagInjFlitCrc key tgt s
  | .diagCredAdd key port vc => Sys2Proof.Machine.execDiagCredAdd key port vc s
  | .diagCredRemove key port vc => Sys2Proof.Machine.execDiagCredRemove key port vc s
  | .slotNop d e dt => Sys2Proof.Machine.execSlotNop d e dt s
  | .ddrTrainingDone c fail sc => Sys2Proof.Machine.execDdrTrainingDone c fail sc s
  | .pcieLinkUp speed width => Sys2Proof.Machine.execPcieLinkUp speed width s
  | .uartTxOctetSent u => Sys2Proof.Machine.execUartTxOctetSent u s
  | .leafFlitSend e j sel => Sys2Proof.Machine.execLeafFlitSend e j sel s
  | .pwrgoodFall => Sys2Proof.Machine.execPwrgoodFall s

end Sys2Proof.Machine
end

