-- ==== Sys2Proof/Safety.lean ====
section
/-!
DEFINITION. What holds in every state that a run reaches: the canonical form of the memories and register files, and the identities of
the ledgers of conservation (R19): of word memory queues (R171), hinge leaves (R266), knock tokens (R308) and DONE_N (R350).
-/
namespace Sys2Proof.Machine

/-- Word memory arrays, engine data memory, frame memory, the store die, configuration frames and the register files hold no listed key
out of order or with the value that an unlisted key reads as. -/
def Memory.wf (s : State) : Bool :=
  SMap.wf (fun _ => {}) s.arrays && SMap.wf (fun _ => {}) s.dm && SMap.wf (fun _ => 0) s.fm && SMap.wf (fun _ => 0xFFFFFFFF) s.store &&
  SMap.wf (fun _ => 0) s.frames && SMap.wf resetVal s.regs && SMap.wf (fun k => resetVal (k / 2)) s.stv

/-- R171: IN = OUT + SLAMMED + FLUSHED + OCC, modulo 2^32. -/
def QueueSt.balances (x : QueueSt) : Bool :=
  decide (x.cIn = x.cOut + x.cSlam + x.cFlush + BitVec.ofNat 32 (x.slots.filter fun e => e.filled).length)

/-- R266: NEW − ACKED − RECALLED = HELD, and HELD never exceeds 16. -/
def LeafSt.balances (l : LeafSt) : Bool :=
  decide (l.cNew - l.cAcked - l.cRecalled = BitVec.ofNat 32 l.held.length ∧ l.held.length ≤ 16)

/-- R308: GEN + RCVD = SENT + CONS + HELD, modulo 2^32. -/
def ChnSt.tokensBalance (c : ChnSt) : Bool := decide (c.gen + c.rcvd = c.sent + c.cons + c.held)

/-- R350: ASSERT = RELEASE + HELD, modulo 2^32. -/
def ChnSt.doneBalances (c : ChnSt) : Bool := decide (c.asserted = c.released + if c.low then 1 else 0)

/-- Every queue's ledger balances; that of a queue that is not listed is all zeros. -/
def State.queuesBalance (s : State) : Bool := s.queues.all fun e => e.2.balances

/-- Every leaf's ledger balances; that of a leaf that is not listed is all zeros. -/
def State.leavesBalance (s : State) : Bool := s.leaves.all fun e => e.2.balances

end Sys2Proof.Machine
end

