-- ==== Sys2Proof/Claims.lean ====
section
/-!
DEFINITION. The words that the statements are written in: frames, and what is asked of a state or a command before one of its statements
applies.
-/
namespace Sys2Proof.Claims
open Sys2Proof.Machine

/-! ### Frames -/

/-- Every register but those listed has the value it had. -/
def RegsBut (s t : State) (offs : List Nat) : Prop := ∀ o, o ∉ offs → t.reg o = s.reg o

/-- Every pane but one stands as it stood. -/
def PanesBut (s t : State) (pane : Nat) : Prop := ∀ q, q ≠ pane → t.pane q = s.pane q

/-- Every elastic channel but those listed (by sending pane and outbound index) stands as it stood. -/
def ChansBut (s t : State) (ks : List (Nat × Nat)) : Prop :=
  ∀ k, (∀ e ∈ ks, k ≠ e.1 * 64 + e.2) → SMap.get {} t.chans k = SMap.get {} s.chans k

/-! ### Control space -/

/-- A write to the register does what its type codes say and starts nothing else. -/
def PlainRegister (row : RegRow) (ix : List Nat) (off : Nat) : Prop :=
  ∀ (s : State) (v : HWord), s.regWrite row.kind ix off v = s.writeReg off v

/-- A host-word register of the control space that is present, on a die whose path is UP, outside the deadbolt block; no access waits at the
hub. -/
def Reachable (s : State) (off : BitVec 26) (row : RegRow) (ix : List Nat) : Prop :=
  s.power = .on ∧ off.toNat % 4 = 0 ∧ (off.toNat < 0x50000 ∨ 0x60000 ≤ off.toNat) ∧ regAt off.toNat = some (row, ix) ∧
  s.absent off.toNat row.kind ix = false ∧ s.cutOff off.toNat = false ∧ s.heldAcc = []

/-- The register shows what the register file holds for it. -/
def ShowsItself (row : RegRow) (ix : List Nat) : Prop := ∀ (s : State) (r : HWord), s.viewOf row.kind ix r = r

/-- A fabric die takes a register write at once: it is there, and its path is UP (R422). -/
def DieReached (s : State) (d : Nat) : Prop := s.dieDark d = false ∧ s.pathUp d = true

/-- The bits of a register that a write sets and clears: RW, and LK while the lock bit is clear. -/
def writable (s : State) (row : RegRow) (ix : List Nat) : HWord :=
  row.rw ||| (if s.lkLocked row.kind ix then 0 else row.lk &&& setMapBits row.kind ix)

/-! ### Word cells -/

/-- The pane, tile and cell a command names. -/
def paneOf (c : CellId) : Nat := paneId c.d c.p
def tileOf (c : CellId) : Nat := 8 * c.tr.val + c.tc.val
def unitOf (c : CellId) : Nat := 8 * c.k.val + c.n.val
def keyOf (c : CellId) : Nat := cellKey (paneOf c) (tileOf c) (unitOf c)

/-- In the present cycle the cell, of a logic tile, has not executed yet and issues the word `l`, from its louvre `k` (none: the NOP that a
SEQ field chose). -/
def Issues (s : State) (c : CellId) (k : Option Nat) (l : BitVec 48) : Prop :=
  c.tc.val ≠ 4 ∧ (s.cell (keyOf c)).ran ≠ s.cyc (paneOf c) + 1 ∧ s.issued (paneOf c) (tileOf c) (unitOf c) = some ⟨k, l⟩

/-- The parity bits stored with the louvre issued are those its word asks for (R31). -/
def SoundParity (s : State) (c : CellId) (k : Option Nat) (l : BitVec 48) : Prop :=
  ∀ j, k = some j → s.lvParAt (s.liveCopy (paneOf c)) (paneOf c) (tileOf c) (unitOf c) j = louvreParity l

/-- The value of an operand field of the word `l` (Table 2.6). -/
def operand (s : State) (c : CellId) (l : BitVec 48) (code : Nat) : Word :=
  s.source (paneOf c) (tileOf c) (unitOf c) (lvLane l) (lvImm l) code

/-- Nothing but one cell has changed. -/
def OnlyCell (s t : State) (key : Nat) : Prop := t = { s with cells := t.cells } ∧ ∀ k, k ≠ key → t.cell k = s.cell k

/-- The registers of a cell after a write of `r` by destination code `dst`, 7 for none (Table 3.3). -/
def Wrote (x y : CellSt) (dst : Nat) (r : Word) : Prop :=
  y.q0 = (if dst = 0 ∨ dst = 5 then r else x.q0) ∧ y.q1 = (if dst = 1 ∨ dst = 6 then r else x.q1) ∧
  y.q2 = (if dst = 2 then r else x.q2) ∧ y.q3 = (if dst = 3 then r else x.q3) ∧
  y.out = (if dst = 4 ∨ dst = 5 ∨ dst = 6 then r else x.out)

/-- Two states of a cell with the same flags C, Z, N, V and SAT. -/
def SameFlags (x y : CellSt) : Prop := y.c = x.c ∧ y.z = x.z ∧ y.n = x.n ∧ y.v = x.v ∧ y.sat = x.sat

/-- Two states of a cell with the same queue flags QI, QR and QT. -/
def SameQueueFlags (x y : CellSt) : Prop := y.qi = x.qi ∧ y.qr = x.qr ∧ y.qt = x.qt

/-- The flags after an opcode that writes C, Z, N and V at the lanes of mode `m`, 0 at the other positions (R25), and sets SAT where `sat`
says so. -/
def FlagsAre (m : Nat) (x y : CellSt) (c z n v sat : Nat → Bool) : Prop :=
  ∀ j, j < 5 → y.c.getLsbD j = (decide (j < laneN m) && c j) ∧ y.z.getLsbD j = (decide (j < laneN m) && z j) ∧
    y.n.getLsbD j = (decide (j < laneN m) && n j) ∧ y.v.getLsbD j = (decide (j < laneN m) && v j) ∧
    y.sat.getLsbD j = (x.sat.getLsbD j || (decide (j < laneN m) && sat j))

/-- As `FlagsAre`, with Z[j] and N[j] taken from lane j of the result. -/
def ResultFlags (m : Nat) (x y : CellSt) (r : Word) (c v sat : Nat → Bool) : Prop :=
  FlagsAre m x y c (fun j => decide (lane m j r = 0)) (fun j => (lane m j r).testBit (laneW m - 1)) v sat

/-- A value outside the unsigned or the signed bounds of a width (Table 3.8). -/
def outU (w : Nat) (x : Int) : Bool := decide (x < 0 ∨ 2 ^ w ≤ x)
def outS (w : Nat) (x : Int) : Bool := decide (x < -(2 ^ (w - 1)) ∨ 2 ^ (w - 1) ≤ x)

/-- A value clamped to those bounds, as a number of `w` bits. -/
def clampedU (w : Nat) (x : Int) : Int := if x < 0 then 0 else if 2 ^ w ≤ x then 2 ^ w - 1 else x
def clampedS (w : Nat) (x : Int) : Int :=
  if x < -(2 ^ (w - 1)) then -(2 ^ (w - 1)) else if 2 ^ (w - 1) ≤ x then 2 ^ (w - 1) - 1 else x

/-- The operation of an opcode: whenever the cell issues a legal word of the opcode in the cycle commanded and its condition holds, the
command answers the state in which that cell alone has changed: its destination holds a result, and `post` says which (mode, IMM, operands
a, b, c, the cell before, the cell after, the result). QI is written where an operand reads source 23, and no other queue flag. -/
def CellClaim (cmd : CellId → Nat → Instr) (op : Nat) (dest : Bool)
    (post : Nat → Nat → Word → Word → Word → CellSt → CellSt → Word → Prop) : Prop :=
  ∀ (s : State) (c : CellId) (dt : Nat) (k : Option Nat) (l : BitVec 48) (row : OpRow),
    let s1 := s.advance (paneOf c) dt
    let x := s1.cell (keyOf c)
    Issues s1 c k l → SoundParity s1 c k l → illegalCause l = none → lvOp l = op → opRow l = some row →
    condHolds x (lvLane l) (lvCond l) = true →
    ∃ t r, exec (cmd c dt) s = .next t ∧ OnlyCell s1 t (keyOf c) ∧ Wrote x (t.cell (keyOf c)) (if dest then lvDst l else 7) r ∧
      (t.cell (keyOf c)).qr = x.qr ∧ (t.cell (keyOf c)).qt = x.qt ∧
      (t.cell (keyOf c)).qi = (if (usedCodes l row).contains 23 then !(s1.queueHead (paneOf c) (32 * tileOf c + unitOf c)).2.2 else x.qi) ∧
      post (lvLane l) (lvImm l) (operand s1 c l (lvA l)) (operand s1 c l (lvB l)) (operand s1 c l (lvC l)) x (t.cell (keyOf c)) r

/-- The cell commands with their opcodes (Table 3.7). -/
def cellCommands : List ((CellId → Nat → Instr) × Nat) :=
  [(.nop, 0x00), (.fclr, 0x01), (.fget, 0x02), (.mov, 0x03), (.movk, 0x04), (.add, 0x08), (.adc, 0x09), (.addu, 0x0A), (.adds, 0x0B),
   (.sub, 0x0C), (.sbc, 0x0D), (.subu, 0x0E), (.subs, 0x0F), (.minu, 0x10), (.maxu, 0x11), (.mins, 0x12), (.maxs, 0x13), (.absd, 0x14),
   (.clampu, 0x15), (.clamps, 0x16), (.cmpu, 0x18), (.cmps, 0x19), (.sel, 0x1A), (.and, 0x20), (.or, 0x21), (.xor, 0x22), (.andn, 0x23),
   (.log3, 0x24), (.shl, 0x28), (.shr, 0x29), (.sar, 0x2A), (.rol, 0x2B), (.fsh, 0x2C), (.ext, 0x30), (.exts, 0x31), (.ins, 0x32),
   (.unpk, 0x34), (.pks, 0x35), (.mul, 0x38), (.mula, 0x39), (.cas, 0x3C), (.pop, 0x40), (.push, 0x41), (.pushe, 0x42), (.slam, 0x43)]

/-- Nothing of a cell that Table 2.2 names has changed but what its SEQ chooses. -/
def SameCell (x y : CellSt) : Prop := Wrote x y 7 0 ∧ SameFlags x y ∧ SameQueueFlags x y

/-- What a push of the word `w` by the cell answers (R71): offered to the queue it is bound to, or refused, and counted there, where another
client serves its role; QR shows a refusal. -/
def CellPushes (res : Res) (s1 : State) (c : CellId) (w : Word) (tag : Bool) : Prop :=
  let tc := 32 * tileOf c + unitOf c
  let give := s1.cellBinding (paneOf c) tc true
  let offered := s1.pushBound (paneOf c) give.2.1 give.2.2 w tag
  let turned := if s1.bound (paneOf c) give.1 give.2.1 give.2.2 ∧ s1.queueMode (paneOf c) give.2.1 then s1.refuse (paneOf c) give.2.1 give.2.2 1
    else s1
  let mine := s1.served (paneOf c) give true (.cell tc)
  ∃ t, res = .next t ∧ t = { (if mine then offered.2 else turned) with cells := t.cells } ∧
    (t.cell (keyOf c)).qr = (!mine || !offered.1) ∧ (t.cell (keyOf c)).qt = (s1.cell (keyOf c)).qt ∧
    Wrote (s1.cell (keyOf c)) (t.cell (keyOf c)) 7 0 ∧ SameFlags (s1.cell (keyOf c)) (t.cell (keyOf c)) ∧
    ∀ j, j ≠ keyOf c → t.cell j = s1.cell j

/-- The entries of a queue present in cycle `u`. -/
def presentAt (x : QueueSt) (u : Nat) : List QSlot := x.slots.filter fun e => e.filled && decide (e.acc ≤ u)

/-- A SLAM of queue `q` (R157, R158): in QUEUE mode every entry present goes; in PQUEUE mode those up to the first with tag 1, or, where none
has it, all of them with the pushes of the cycle, DPEND then waiting for the word with tag 1. The counts of Table 7.12 follow. -/
def Slammed (s t : State) (pane m q : Nat) : Prop :=
  let x := s.queue (pane * 6 + m) q
  let y := t.queue (pane * 6 + m) q
  let u := s.cyc pane
  let gone := presentAt x u
  let tagged := fun (e : QSlot) => (s.entry (pane * 6 + m) e.pos).tag
  (s.wmCfg pane m F.WM_CFG.MODE = 3 →
    y.slots = x.slots.filter (fun e => !(e.filled && decide (e.acc ≤ u))) ∧ y.cSlam = x.cSlam + BitVec.ofNat 32 gone.length ∧ y.cIn = x.cIn) ∧
  (s.wmCfg pane m F.WM_CFG.MODE = 4 →
    ((∃ e ∈ gone, tagged e = true) →
      presentAt y u = (gone.dropWhile fun e => !tagged e).tail ∧
      y.cSlam = x.cSlam + BitVec.ofNat 32 ((gone.takeWhile fun e => !tagged e).length + 1) ∧ y.cIn = x.cIn) ∧
    ((∀ e ∈ gone, tagged e = false) → x.dpending u = false →
      y.dpend = true ∧ ∀ e ∈ y.slots, e ∈ x.slots ∧ ¬ (e.filled = true ∧ e.acc ≤ u) ∧ ¬ (e.resv = false ∧ e.filled = true ∧ e.made = u + 1 ∧
        u < e.acc)))

/-- A capture register of R47 after one more failure: VALID is set, COUNT has risen by one short of saturation, and where VALID was 0 the
location fields, the bits of `mask`, hold `loc`. -/
def Captured (old new : HWord) (mask loc : Nat) : Prop :=
  new.getLsbD 31 = true ∧ bitsOf new.toNat 29 22 = min (bitsOf old.toNat 29 22 + 1) 255 ∧
  (old.getLsbD 31 = false → new &&& BitVec.ofNat 32 mask = BitVec.ofNat 32 loc ∧ new.getLsbD 30 = old.getLsbD 30) ∧
  (old.getLsbD 31 = true → new.getLsbD 30 = true)

/-- A capture register of R47 after a cell's failure in the cycle of the capture that it holds: COUNT rises as in `Captured`, and of the two cells the
one with the lower coordinate, bits 16:6 of the location, stands. -/
def CapturedBeside (old new : HWord) (mask loc : Nat) : Prop :=
  new.getLsbD 31 = true ∧ new.getLsbD 30 = old.getLsbD 30 ∧ bitsOf new.toNat 29 22 = min (bitsOf old.toNat 29 22 + 1) 255 ∧
  new &&& BitVec.ofNat 32 mask =
    if bitsOf loc 16 6 < bitsOf old.toNat 16 6 then BitVec.ofNat 32 loc else old &&& BitVec.ofNat 32 mask

/-! ### Signal engines -/

/-- The bundle at the PC of engine `g`. -/
def bundleOf (s : State) (g : Nat) : Nat := s.bundleAt (s.liveCopy (engMember (engDie g) (engIx g))) g (s.eng g).pc

/-- The start of an engine cycle that comes `dt` cell cycles of its pane after the last command: port B has read the next word of a TWR in
progress (R137). -/
def cycleOf (s : State) (g dt : Nat) : State := (s.advance (engPane g) dt).portB g

/-- Engine `g` is in RUN with its clocks running and its watchdog not at 0, and the bundle at its PC is readable and legal (R123, R142,
R144). -/
def BundleReady (s : State) (g : Nat) : Prop :=
  (s.eng g).state = .run ∧ s.engClocked g = true ∧ ((s.eng g).wdLoad = 0 ∨ (s.eng g).wdog ≠ 0) ∧
  SMap.get 0 s.pmBad (pmKey (s.liveCopy (engMember (engDie g) (engIx g))) g (s.eng g).pc) ≠ 2 ∧
  ∀ j, j < 4 → slotLegal j (slotOf (bundleOf s g) j) = true

/-- The bundle's slot `i` holds `w` and executes. -/
def SlotExecutes (s : State) (g i w : Nat) : Prop := slotOf (bundleOf s g) i = w ∧ slotRuns (s.eng g) w = true

/-- No slot but `i` executes: each holds a slot NOP or its predicate does not hold. -/
def OthersIdle (s : State) (g i : Nat) : Prop := ∀ j, j < 4 → j ≠ i → slotRuns (s.eng g) (slotOf (bundleOf s g) j) = false

/-- The end of a bundle's cycle (R139–R141, R144): the watchdog counts it, and loop end processing settles the next PC. -/
def bundleEnd (x y : EngSt) : EngSt := EngSt.loopEnd { y with wdog := x.wdog - 1, stall := 0 } x.pc

/-- An operation of slot `i` that changes only its engine: whenever a ready bundle's slot `i` alone executes it, the command answers the
state after `dt` cycles with that engine as `post` says of the slot's word and the engine before the bundle's end. -/
def EngClaim (cmd : Fin 4 → Fin 128 → Nat → Instr) (i op : Nat) (post : EngSt → Nat → EngSt → Prop) : Prop :=
  ∀ (s : State) (d : Fin 4) (e : Fin 128) (dt w : Nat),
    let g := engId d e
    let s1 := cycleOf s g dt
    let x := s1.eng g
    BundleReady s1 g → SlotExecutes s1 g i w → OthersIdle s1 g i → slotOp w = op →
    (op = 0x21 → bitsOf w 17 12 = 2 → rrbIllegal (x.vr (bitsOf w 11 6)).toNat = false) →
    ∃ y, post x w y ∧ exec (cmd d e dt) s = .next (s1.setEng g (bundleEnd x y))

/-- The complex halves of a V register (Table 6.4): real in lane 1, imaginary in lane 0. -/
def reOf (v : Word) : Int := laneS 1 1 v
def imOf (v : Word) : Int := laneS 1 0 v

/-- A value clamped to a signed width. -/
def clampTo (n : Nat) (v : Int) : Int := if v < -(2 ^ (n - 1)) then -(2 ^ (n - 1)) else if 2 ^ (n - 1) ≤ v then 2 ^ (n - 1) - 1 else v

/-- Only the accumulator `k` and ESTAT.AOV differ: it holds the exact sums clamped to 56 bits (R128). -/
def AccBecomes (x y : EngSt) (k : Nat) (re im : Int) : Prop :=
  y = { x with aRe := SMap.set 0 x.aRe k (clampTo 56 re), aIm := SMap.set 0 x.aIm k (clampTo 56 im),
               estat := if clampTo 56 re ≠ re ∨ clampTo 56 im ≠ im then x.estat ||| 2 else x.estat }

/-- The post of a MAC operation: the accumulator K of the slot's word becomes f of the halves of VX and VY and of the accumulator. -/
def MacPost (f : Int → Int → Int → Int → Int → Int → Int × Int) (x : EngSt) (w : Nat) (y : EngSt) : Prop :=
  let k := bitsOf w 19 18
  let a := x.vr (bitsOf w 17 12)
  let b := x.vr (bitsOf w 11 6)
  let r := f (reOf a) (imOf a) (reOf b) (imOf b) (SMap.get 0 x.aRe k) (SMap.get 0 x.aIm k)
  AccBecomes x y k r.1 r.2

/-- An integer nearest to h / 2^k, the even one of two (R129). -/
def Nearest (k : Nat) (h q : Int) : Prop :=
  2 * (q * 2 ^ k - h) ≤ 2 ^ k ∧ 2 * (h - q * 2 ^ k) ≤ 2 ^ k ∧
  ((2 * (q * 2 ^ k - h) = 2 ^ k ∨ 2 * (h - q * 2 ^ k) = 2 ^ k) → q % 2 = 0)

/-- The scaling shift of a move (R130). -/
def moveShift (x : EngSt) : Nat := if bitsOf x.scl.toNat 4 4 = 1 then bitsOf x.bexp.toNat 11 8 else bitsOf x.scl.toNat 3 0

/-- `n` is the smallest from 0 to 19 with −2^n ≤ v < 2^n (R130). -/
def IsM (v : Int) (n : Nat) : Prop := n ≤ 19 ∧ -(2 ^ n) ≤ v ∧ v < 2 ^ n ∧ ∀ k, k < n → v < -(2 ^ k) ∨ 2 ^ k ≤ v

/-- BEXP with TRK raised to at least `n`. -/
def tracked (b : BitVec 40) (n : Nat) : BitVec 40 := BitVec.ofNat 40 (b.toNat / 32 * 32 + max (bitsOf b.toNat 4 0) n)

/-- The accumulator K after a move: zero where the slot's CLR is set (Table 6.5). -/
def Cleared (w : Nat) (x : EngSt) : EngSt :=
  if w.testBit 6 then { x with aRe := SMap.set 0 x.aRe (bitsOf w 19 18) 0, aIm := SMap.set 0 x.aIm (bitsOf w 19 18) 0 } else x

/-- Only the V register a slot names, and ASAT where `sat` holds, differ. -/
def VBecomes (x y : EngSt) (d : Nat) (r : Word) (sat : Bool) : Prop :=
  y = { x with v := SMap.set 0 x.v (x.phys d) r, estat := if sat then x.estat ||| 4 else x.estat }

/-- The post of an ALU operation that works lane by lane modulo 2^w. -/
def LanePost (f : Nat → Nat → Nat → Word → Word → Int) (x : EngSt) (w : Nat) (y : EngSt) : Prop :=
  let m := bitsOf w 19 18
  ∃ r, VBecomes x y (bitsOf w 17 12) r false ∧
    ∀ j, j < laneN m → (lane m j r : Int) = f m (bitsOf w 5 0) j (x.vr (bitsOf w 11 6)) (x.vr (bitsOf w 5 0)) % 2 ^ laneW m

/-- The post of an ALU operation that saturates each lane, with ASAT where one clamps (R132). -/
def SatPost (f : Nat → Nat → Word → Word → Int) (x : EngSt) (w : Nat) (y : EngSt) : Prop :=
  let m := bitsOf w 19 18
  let g := fun j => f m j (x.vr (bitsOf w 11 6)) (x.vr (bitsOf w 5 0))
  ∃ r, VBecomes x y (bitsOf w 17 12) r (decide (∃ j, j < laneN m ∧ clampTo (laneW m) (g j) ≠ g j)) ∧
    ∀ j, j < laneN m → laneS m j r = clampTo (laneW m) (g j)

/-- The post of an ALU operation whose result is a word. -/
def WordPost (f : EngSt → Nat → Word) (x : EngSt) (w : Nat) (y : EngSt) : Prop := VBecomes x y (bitsOf w 17 12) (f x w) false

/-- The post of an ALU operation that writes predicate PD; P0 ignores it. -/
def PredPost (f : Nat → Word → Word → Bool) (x : EngSt) (w : Nat) (y : EngSt) : Prop :=
  ∃ p, y = { x with p := p } ∧
    ∀ n, n < 8 → p.getLsbD n = if n = bitsOf w 14 12 ∧ n ≠ 0 then f w (x.vr (bitsOf w 11 6)) (x.vr (bitsOf w 5 0)) else x.p.getLsbD n

/-- An index register after a step (R133): MOD low bits of the address wrap, the rest stands; MOD 0 steps all 15 bits. -/
def stepped (v : BitVec 20) (dlt : Int) : BitVec 20 :=
  let mod := bitsOf v.toNat 19 16
  let a := bitsOf v.toNat 14 0
  let n := if mod = 0 then 15 else mod
  let low : Nat := (((a % 2 ^ n : Nat) : Int) + dlt) % 2 ^ n |>.toNat
  BitVec.ofNat 20 (mod * 2 ^ 16 + bitsOf v.toNat 15 15 * 2 ^ 15 + (a / 2 ^ n * 2 ^ n + low))

/-- The post of a bundle that writes only data memory words, index registers and V registers: the engine is as `y` says. -/
def Ends (s1 t : State) (g : Nat) (y : EngSt) : Prop := t.eng g = bundleEnd (s1.eng g) y ∧ ∀ h, h ≠ g → t.eng h = s1.eng h

/-- The queue of a stream port as its engine's live binding names it: served, unit and queue (R135, R154). -/
def streamQ (s : State) (g i : Nat) (prod : Bool) : Bool × Nat × Nat := (s.engServed g i prod, (s.engBinding g i prod).2.1, (s.engBinding g i prod).2.2)

/-- Predicates after a slot writes `b` to predicate `n`; P0 ignores it. -/
def withPred (p : BitVec 8) (n : Nat) (b : Bool) : BitVec 8 :=
  if n = 0 then p else (p &&& ~~~(1#8 <<< n)) ||| (if b then 1#8 <<< n else 0)

/-! ### Events -/

/-- The event controller's books after source `n` has been followed: its bit of EVT_RAISED and its UE show its condition, and nothing else of
the registers has changed. -/
def Followed (s t : State) (n : Nat) : Prop :=
  t = { s with regs := t.regs, out := t.out, msixs := t.msixs } ∧ RegsBut s t [R.EVT_RAISED (n / 32), R.EVT_SRC n] ∧ t.raised n = s.sourceUp n ∧
  (∀ k, k < 1704 → k ≠ n → t.raised k = s.raised k) ∧ t.flag (R.EVT_SRC n) F.EVT_SRC.UE = s.sourceUe n ∧
  t.fld (R.EVT_SRC n) F.EVT_SRC.GROUP = s.fld (R.EVT_SRC n) F.EVT_SRC.GROUP ∧ t.flag (R.EVT_SRC n) F.EVT_SRC.EN = s.flag (R.EVT_SRC n) F.EVT_SRC.EN

/-- From `a` to `t` function `fn` signals the vectors `vs`, in order: with MSI-X enabled the messages of those that are not masked leave, and the
others are pending (log entry 155). -/
def Signalled (a t : State) (fn : Nat) (vs : List Nat) : Prop :=
  t.out = vs.reverse.flatMap (a.vectorOut fn) ++ a.out ∧ (∀ g, g ≠ fn → t.msixOf g = a.msixOf g) ∧
  t.msixOf fn = { a.msixOf fn with pend := (t.msixOf fn).pend } ∧
  ∀ v, SMap.get false (t.msixOf fn).pend v =
    (SMap.get false (a.msixOf fn).pend v || (vs.contains v && (a.msixOf fn).on && (a.msixOf fn).masked v))

/-! ### The Keeper -/

/-- The one message that waits on channel `c` is `m`, whole, of TYPE `t`, with the length and the trailer that its TYPE and the session call for
(R404), and the channel is available. -/
def Asked (s : State) (c : Fin 3) (t : Nat) (m : List HWord) : Prop :=
  s.kprIn c = m ∧ s.kprFront c = some m ∧ (m.headD 0).toNat / 2 ^ 24 = t ∧ s.chanOpen c = true ∧
  msgLen (m.headD 0) ≤ (if s.inSession c = true then 58 else 61) ∧ lenOk t (msgLen (m.headD 0)) (m.getD 2 0).toNat = true ∧
  m.drop (1 + msgLen (m.headD 0)) = s.trailer c false (m.take (1 + msgLen (m.headD 0)))

/-- The payload of a message. -/
def payloadOf (m : List HWord) : List HWord := (m.drop 1).take (msgLen (m.headD 0))

/-- An opening stands after step `n` on channel `c`. -/
def OpeningAt (s : State) (c : Fin 3) (n : Nat) : Prop := s.kprState = 1 ∧ s.kprChan = c ∧ s.kpr.steps = n

/-- A session of LEVEL `level` or above is open on channel `c`. -/
def SessionAt (s : State) (c : Fin 3) (level : Nat) : Prop := s.inSession c = true ∧ level ≤ s.fld R.KPR_STAT F.KPR_STAT.LEVEL

/-- A request of Table 17.3 other than TRD and TWR, with its TYPE and level. -/
def SessionRequest (cmd : Fin 3 → Instr) (t level : Nat) : Prop :=
  (cmd = .keeperRd ∧ t = 0x10 ∧ level = 1) ∨ (cmd = .keeperWr ∧ t = 0x11 ∧ level = 2) ∨ (cmd = .halt ∧ t = 0x20 ∧ level = 2) ∨
  (cmd = .resume ∧ t = 0x21 ∧ level = 2) ∨ (cmd = .step ∧ t = 0x22 ∧ level = 2) ∨ (cmd = .tstat ∧ t = 0x23 ∧ level = 1) ∨
  (cmd = .rreg ∧ t = 0x24 ∧ level = 1) ∨ (cmd = .wreg ∧ t = 0x25 ∧ level = 2) ∨ (cmd = .wdsusp ∧ t = 0x30 ∧ level = 3) ∨
  (cmd = .wdres ∧ t = 0x31 ∧ level = 3) ∨ (cmd = .dbclr ∧ t = 0x32 ∧ level = 2) ∨ (cmd = .bye ∧ t = 0x3F ∧ level = 1)

/-! ### Panes and channels -/

/-- The settings word of the outlet of inbound channel `k` under the bank that an item's tag names (R96). -/
def outletOf (s : State) (pane k : Nat) (it : ChanItem) : HWord := s.chOut (if it.bank then 1 else 0) pane k

/-- An item as an inlet forms it: the word and its byte parity, the tag and the context bit in three copies each (R95, R174). -/
def freshItem (w : Word) (tag bank : Bool) : ChanItem := ⟨w, thrice tag, thrice bank, byteParity w⟩

/-- The channel holds one more item, in the first of its stages, which on a hinge are the sending die's. -/
def Entered (ch : ChanSt) (hinge : Bool) (it : ChanItem) (u : Nat) : ChanSt :=
  { ch with near := if hinge then ch.near ++ [it] else ch.near, far := if hinge then ch.far else ch.far ++ [it], inCyc := u + 1 }

/-- In the present cycle of the receiving pane the outlet of inbound channel `k` may deliver `it`, at the head of the channel that pane
`sp` sends on its outbound index `sk`, across a hinge or not, with `rest` behind it. -/
def HeadReady (s : State) (pane k sp sk : Nat) (hinge : Bool) (it : ChanItem) (rest : List ChanItem) : Prop :=
  s.paneRuns pane = true ∧ inboundOf pane k = some (sp, sk, hinge) ∧ (s.chan sp sk).far = it :: rest ∧ (s.chan sp sk).outCyc ≠ s.cyc pane + 1

/-- The item has left its channel, at this edge; PERR is set exactly where its byte parity failed (R101). -/
def Delivered (s t : State) (d p k sp sk : Nat) (hinge : Bool) (it : ChanItem) (rest : List ChanItem) : Prop :=
  t.chan sp sk = { s.chan sp sk with
    far := rest, outCyc := s.cyc (paneId d p) + 1, outBank := it.bank, ret := (s.chan sp sk).ret + if hinge then 1 else 0 } ∧
  t.flag (R.PANE_CHSTAT d p k) F.PANE_CHSTAT.PERR =
    (s.flag (R.PANE_CHSTAT d p k) F.PANE_CHSTAT.PERR || decide (byteParity it.word ≠ it.par))

/-! ### Pins -/

/-- The registers that an edge at pin `k` may change: its input and interrupt bits, and its bank's timestamp channel. -/
def pinRegs (k : Nat) : List Nat :=
  [R.PIN_GPIN (k / 16), R.PIN_ISTAT (k / 16), R.PIN_TS_L (k / 16), R.PIN_TS_H (k / 16), R.PIN_TSSTAT (k / 16)]

/-- Every hub pin but one stands as it stood. -/
def PinsBut (s t : State) (k : Nat) : Prop := ∀ q, q ≠ k → t.pin q = s.pin q

/-- Interrupt mode `m` names an edge to level `l`, or, in the level modes, the level itself (R386). -/
def namesEdge (m : Nat) (l : Bool) : Prop := (m = 1 ∧ l = true) ∨ (m = 2 ∧ l = false) ∨ m = 3
def namesLevel (m : Nat) (l : Bool) : Prop := (m = 4 ∧ l = true) ∨ (m = 5 ∧ l = false)

/-- A register with one bit as it stands in none of the others: bits other than `i` are kept. -/
def OtherBits (old new : HWord) (i : Nat) : Prop := ∀ j, j < 32 → j ≠ i → new.getLsbD j = old.getLsbD j

/-! ### The shutter -/

/-- τ(n), where frame n of a domain begins, in ns of device time (R106). -/
def tauNs (x : DomainSt) (n : Int) : Int := (n * x.den * 1000000000).fdiv x.num + x.offset

/-- The domain has adopted valid settings, runs, and follows device time. -/
def TimeDomain (x : DomainSt) : Prop := x.en = true ∧ x.pinMode = false ∧ 1 ≤ x.num ∧ 1 ≤ x.den

/-- Every domain but one stands as it stood. -/
def DomsBut (s t : State) (i : Nat) : Prop := ∀ j, j ≠ i → t.dom j = s.dom j

/-- The frame number a GO of SHT_ARM names, before late arms are resolved: the one number congruent to FRAME within the window round
the present frame `c` (R113). -/
def NamesFrame (v : HWord) (c n : Int) : Prop := n % 65536 = getF v F.SHT_ARM.FRAME ∧ c - 32767 ≤ n ∧ n ≤ c + 32768

/-- The record of the tick network that carries frame `n` of domain `i` (Table 11.4). -/
def recordOf (i kind : Fin 8) (n : Int) : TickRec := ⟨i, kind, 0, Fin.ofNat 16777216 (n % 2 ^ 24).toNat⟩

/-- Two arms alike but for the dies that their records have reached. -/
def SameArm (a b : ArmSt) : Prop := { b with reach := [] } = { a with reach := [] }

/-- The ticks among what has been handed out. -/
def ticksOf (evs : List OutEv) : List OutEv := evs.filter fun e => match e with | .tick _ _ _ => true | _ => false

/-- What SHT_STATUS and SHT_MISS record of a miss (R116). -/
def MissNoted (t : State) (d : Nat) (ms : List Nat) : Prop :=
  t.fld (R.SHT_STATUS d) F.SHT_STATUS.MISSED = 1 ∧ t.fld (R.SHT_MISS d) F.SHT_MISS.COUNT = ms.length ∧
  t.fld (R.SHT_MISS d) F.SHT_MISS.MEMBER = ms.headD 0

/-! ### Serial lanes -/

/-- What the receive side of lane `l` does with a word or data item, in state `a` (R154, R158, R171, R236, Table 10.17): nothing before OUTPUTS; a
binding that is unbound or served another client, a queue that is full and a pane that is gated lose it, counted; a push that a SLAM of its cycle
could yet accept waits for the cycle's end. -/
def LaneTakes (d : Fin 4) (l : Fin 32) (w : Word) (tag : Bool) (a t : State) : Prop :=
  let pane := paneId d (2 * l)
  let b := a.laneRq d l
  let opened := a.dieRuns d = true ∧ (SMap.get {} a.dies d).outputs = true
  let serves := a.served pane b true .lane = true
  let r := a.pushBound pane b.2.1 b.2.2 w tag
  let lost := fun (u : State) => (u.addSat (R.LANE_CNT_DROP d l) F.LANE_CNT_DROP.COUNT 1).setFld (R.LANE_ERR d l) F.LANE_ERR.OVF 1
  (¬ opened → t = a) ∧
  (opened → ¬ serves →
    let counted := if a.bound pane b.1 b.2.1 b.2.2 ∧ a.queueMode pane b.2.1 then a.refuse pane b.2.1 b.2.2 1 else a
    t = (lost counted).setFld (R.LANE_ERR d l) F.LANE_ERR.UNB 1) ∧
  (opened → serves → a.laneServed d l = false → t = lost a) ∧
  (opened → serves → a.laneServed d l = true → a.pushWaits pane b.2.1 b.2.2 = true → t = a.waitPush pane (.lane b.2.1 b.2.2 l w tag)) ∧
  (opened → serves → a.laneServed d l = true → a.pushWaits pane b.2.1 b.2.2 = false → t = if r.1 then r.2 else lost r.2)

/-- What lane `l` does with an item of a good frame (R239, R243): a data item goes to its queue with its tag, a control item's capability word to
LANE_PCAP, a fill item leaves no trace. -/
def ItemTaken (d : Fin 4) (l : Fin 32) (i : BitVec 42) (a t : State) : Prop :=
  (i.getLsbD 41 = true → LaneTakes d l (BitVec.ofNat 40 i.toNat) (i.getLsbD 40) a t) ∧
  (i.getLsbD 41 = false → i.getLsbD 40 = true →
    t = (a.setReg (R.LANE_PCAP_L d l) (BitVec.ofNat 32 (bitsOf i.toNat 31 0))).setReg (R.LANE_PCAP_H d l) (BitVec.ofNat 32 (bitsOf i.toNat 39 32))) ∧
  (i.getLsbD 41 = false → i.getLsbD 40 = false → t = a)

/-- The items of a good frame, taken in order. -/
def ItemsTaken (d : Fin 4) (l : Fin 32) : List (BitVec 42) → State → State → Prop
  | [], a, t => t = a
  | i :: is, a, t => ∃ b, ItemTaken d l i a b ∧ ItemsTaken d l is b t

/-- The transmit queue of native lane `l` may give an item: the lane is UP, and the attached pane, ungated, serves its binding (R236, R243, R245). -/
def LaneMayPop (d : Fin 4) (l : Fin 32) (a : State) : Prop :=
  a.fld (R.LANE_STAT d l) F.LANE_STAT.NSTATE = 3 ∧
  a.served (paneId d (2 * l)) (a.laneTq d l) false .lane = true ∧ a.laneServed d l = true

/-- The item that lane `l` puts into the next position of a frame, and what that does (R243, Tables 10.3 and 10.5): the head of its transmit queue
where one is present; else, outside DOWN, a control item when 16 frames have passed without one; else a fill item. -/
def ItemSent (d : Fin 4) (l : Fin 32) (i : BitVec 42) (a t : State) : Prop :=
  let x := a.lane d l
  let p := a.popBound (paneId d (2 * l)) (a.laneTq d l).2.1 (a.laneTq d l).2.2
  let pops := LaneMayPop d l a
  let due := 16 ≤ x.since ∧ a.fld (R.LANE_STAT d l) F.LANE_STAT.NSTATE ≠ 4
  (pops → p.1.2.2 = true → i.getLsbD 41 = true ∧ i.getLsbD 40 = p.1.2.1 ∧ BitVec.ofNat 40 i.toNat = p.1.1 ∧ t = p.2) ∧
  (¬ (pops ∧ p.1.2.2 = true) → ∃ b, (pops → b = p.2) ∧ (¬ pops → b = a) ∧
    (due → i.getLsbD 41 = false ∧ i.getLsbD 40 = true ∧ bitsOf i.toNat 39 36 = 1 ∧
      bitsOf i.toNat 35 34 = a.fld (R.LANE_NCFG d l) F.LANE_NCFG.MAXSTEP ∧ bitsOf i.toNat 33 32 = a.fld (R.LANE_STAT d l) F.LANE_STAT.STEP ∧
      i.getLsbD 31 = x.rdy ∧ i.getLsbD 30 = x.go.isSome ∧ i.getLsbD 29 = x.done ∧
      bitsOf i.toNat 28 27 = a.fld (R.LANE_STAT d l) F.LANE_STAT.CEIL ∧ bitsOf i.toNat 26 16 = 0 ∧
      bitsOf i.toNat 15 0 = a.fld (R.LANE_NCFG d l) F.LANE_NCFG.NODE ∧
      t = b.setLane d l { x with since := 0, doneSent := x.doneSent || x.done }) ∧
    (¬ due → i = 0 ∧ t = b))

/-- The items of a frame, sent in order. -/
def ItemsSent (d : Fin 4) (l : Fin 32) : List (BitVec 42) → State → State → Prop
  | [], a, t => t = a
  | i :: is, a, t => ∃ b, ItemSent d l i a b ∧ ItemsSent d l is b t

/-- Steps 2, 3, 5 and 6 of Table 10.7, as far as lane `l` can take them in state `a`, with the partner's last capability word; outside SEEK and STEP
nothing (R244–R246). -/
def BringsUp (d : Fin 4) (l : Fin 32) (a t : State) : Prop :=
  let st := R.LANE_STAT d l
  let x := a.lane d l
  let p := (a.reg (R.LANE_PCAP_H d l)).toNat * 2 ^ 32 + (a.reg (R.LANE_PCAP_L d l)).toNat
  let k := a.fld st F.LANE_STAT.STEP
  let ceil := a.fld st F.LANE_STAT.CEIL
  let target := min (min (a.fld (R.LANE_NCFG d l) F.LANE_NCFG.MAXSTEP) (bitsOf p 35 34)) (min ceil (bitsOf p 28 27))
  let atStep := bitsOf p 33 32 = k
  let ready := x.rdy = true ∨ 16 ≤ x.good
  let bothReady := ready ∧ atStep ∧ p.testBit 31 = true
  let moves := ((bothReady ∧ k < target) ∨ (atStep ∧ p.testBit 30 = true)) ∧ k < ceil ∧ k < 3
  let settles := x.doneSent = true ∧ atStep ∧ p.testBit 29 = true
  let seeking := a.fld st F.LANE_STAT.NSTATE = 1 ∨ a.fld st F.LANE_STAT.NSTATE = 2
  (¬ seeking → t = a) ∧
  (seeking → t = { a with regs := t.regs, lanes := t.lanes } ∧ RegsBut a t [st, R.LANE_ERR d l] ∧
    t.lane d l = { x with
      rdy := decide ready, go := if x.go = none ∧ moves then some 0 else x.go, done := x.done || decide (bothReady ∧ target = k),
      window := x.window && !decide bothReady, fell := x.fell && !decide ready } ∧
    (settles → t.fld st F.LANE_STAT.NSTATE = 3 ∧ t.flag (R.LANE_ERR d l) F.LANE_ERR.LCHG = true) ∧
    (¬ settles → t.regs = a.regs))

/-! ### Transom -/

/-- A request of command `c` is the one that its target, which runs, is to perform next. -/
def ReadyAt (s : State) (c : Fin 16) (pk : Packet) : Prop :=
  pk.cmd = c ∧ s.headAt pk.dst (vcOf pk) = some pk ∧ s.inTurn pk = true ∧ s.targetRuns pk.dst = true

/-- A completion has come to its initiator: it is the next of its priority there, or the interface has made it itself; `s0` is the state
without it. -/
def Arrived (s : State) (pk : Packet) (s0 : State) : Prop :=
  (s.headAt pk.dst (vcOf pk) = some pk ∧ s0 = s.popTin pk.dst (vcOf pk)) ∨
  (s.headAt pk.dst (vcOf pk) ≠ some pk ∧ pk ∈ s.selfCpl ∧ s0 = { s with selfCpl := s.selfCpl.erase pk })

/-- The successful completion of a request: back to its source with its tag and priority. -/
def cplOf (pk : Packet) : Packet := { dst := pk.src, src := pk.dst, cmd := cCPL, prio := pk.prio, tag := pk.tag }

/-- Its error completion. -/
def cpleOf (pk : Packet) (e : Fin 8) : Packet := { cplOf pk with cmd := cCPLE, ecode := e }

/-- The target has taken `pk` out of its queue and sent `out`; beside that only memory and error registers may have changed. -/
def Took (s t : State) (pk : Packet) (out : List Packet) : Prop :=
  t = { out.foldl State.launch (s.takeWhole pk) with
    arrays := t.arrays, dm := t.dm, queues := t.queues, regs := t.regs, movers := t.movers }

/-- Of the blocks' books, only the writes of the present cycle in block `blk` may differ. -/
def WritesNoted (s t : State) (blk : Nat) : Prop :=
  (∀ b, b ≠ blk → t.mover b = s.mover b) ∧
  t.mover blk = { s.mover blk with wrCyc := (t.mover blk).wrCyc, wrs := (t.mover blk).wrs }

/-- No client above `who` has written the entries from `a` on in the present cycle (R162). -/
def MayWrite (s : State) (blk a n who : Nat) : Prop := ∀ i w, i < n → s.arrWrite blk (a + i) = some w → w.who ≤ who

/-- Entries `a` to `a + n − 1` hold the words of `pk`, tag 0, and every other entry what it held. -/
def EntriesWritten (s t : State) (blk a n : Nat) (pk : Packet) : Prop :=
  ∀ b i, t.entry b i = if b * 16384 + i - (blk * 16384 + a) < n ∧ blk * 16384 + a ≤ b * 16384 + i
    then { word := pk.data.getD (b * 16384 + i - (blk * 16384 + a)) 0 } else s.entry b i

/-- The command that takes a flit of these contents off the wires of leaf `j` at end `e` (R256, R257, R261). -/
def Takes (e : Fin 14) (j : Fin 32) (noise : List (BitVec 48)) (b : FlitBody) (i : Instr) : Prop :=
  (∃ half ch items, b = .edge half ch items true ∧ i = .plainFlit e j noise) ∨
  (∃ half ch items, b = .edge half ch items false ∧ i = .markedFlit e j noise) ∨
  (∃ x v fl, b = .transom x v [fl] ∧ i = .flitOne e j noise) ∨ (∃ x v fl gl, b = .transom x v [fl, gl] ∧ i = .flitTwo e j noise) ∨
  (∃ seqs, b = .ack seqs ∧ i = .ack e j noise) ∨ (∃ half n, b = .ecred half n ∧ i = .ecred e j noise) ∨
  (∃ n, b = .tcred n ∧ i = .tcred e j noise) ∨ (∃ rs, b = .tick rs ∧ i = .tick e j noise)

/-- Flit `f`, at the front of leaf `j`'s wires towards end `e`, arrives as the beats `bs`: good, of sound parity, the next in sequence. -/
def InTurn (s : State) (e : Fin 14) (j : Fin 32) (f : HFlit) (rest : List HFlit) (bs : List (BitVec 48)) : Prop :=
  let l := s.leaf (peerEnd e) j
  l.wire = f :: rest ∧ flitGood bs = true ∧ beatFails bs = false ∧ l.rxNext ≤ f.seq ∧ ∀ q, l.rxBad = some q → q = f.seq

/-- The state in which leaf `j` has accepted flit `f`. -/
def accepted (s : State) (e : Fin 14) (j : Fin 32) (f : HFlit) (rest : List HFlit) : State :=
  let l := s.leaf (peerEnd e) j
  s.setLeaf (peerEnd e) j { l with wire := rest, rxNext := l.skipIdle (f.seq + 1), rxBad := none, ackDue := true }

/-- Block `m` of a pane: the target port of `pk`, and the entry its address names. -/
def AtBlock (pk : Packet) (pane m a : Nat) : Prop :=
  pane < 256 ∧ m < 6 ∧ pk.dst = portId pane (4 + m) ∧ a = (pk.addr.toNat - 0x1000000) % 0x8000

/-- Data memory of engine `g`. -/
def AtEngine (pk : Packet) (g a : Nat) : Prop :=
  g < 512 ∧ pk.dst = portId (g / 2) (10 + g % 2) ∧ a = (pk.addr.toNat - 0x1000000) % 0x8000

/-- The word `i` of a packet's data. -/
def dataWord (pk : Packet) (i : Nat) : Word := pk.data.getD i 0

end Sys2Proof.Claims
end

