-- ==== Sys2Proof/Certificates/Slice0/Obligations.lean ====
section
/-!
DEFINITION. The statements about the model, one per group of rules of the spec: control space first, then the units in the order of the
spec's chapters, then what holds of every step.
-/
open Sys2Proof Sys2Proof.Machine Sys2Proof.Claims

/-- R7, R10. Each bit of a written register takes what its type code says: RW and unlocked LK the bit written, W1C and W1S as their names say, RO,
RC, WO and reserved bits unchanged; BADBEAT is cleared whole by a 1 in any of its bits. Where starting something and showing state held elsewhere do
not come in, a read returns the current value of every field but that of a WO field, which reads 0, and of an ST field, which reads the staged
value; it clears RC fields to their reset values unless it is a debug read without CONSUME, and changes nothing else. -/
def Obligations.RegisterTypeCodes : Prop :=
  (∀ (s : State) (src : Fin 9) (off : BitVec 26) (v : BitVec 64) (row : RegRow) (ix : List Nat),
    src.val < 6 → Reachable s off row ix → PlainRegister row ix off.toNat → (∀ m, stMember row.kind ix = some m → s.shadowBusy m = false) →
    ∃ t, exec (.registerWrite src off 4 v) s = .next t ∧ t = { s with regs := t.regs, stv := t.stv } ∧
      (stMember row.kind ix = none → t.stv = s.stv) ∧ RegsBut s t [off.toNat] ∧
      ∀ j, j < 32 → (t.reg off.toNat).getLsbD j =
        (if row.w1s.getLsbD j = true ∧ v.getLsbD j = true then true
         else if row.w1c.getLsbD j = true ∧ v.getLsbD j = true then false
         else if (writable s row ix).getLsbD j = true then v.getLsbD j
         else (s.reg off.toNat).getLsbD j)) ∧
  (∀ (s : State) (v : BitVec 32), v &&& 0xFFFF ≠ 0 → (s.writeReg R.DB_WDT v).fld R.DB_WDT F.DB_WDT.BADBEAT = 0) ∧
  (∀ (s : State) (off : BitVec 26) (row : RegRow) (ix : List Nat) (how : ReadBy),
    how = .consume ∨ how = .quiet → Reachable s off row ix → off.toNat < 0x800000 ∨ 0x900000 ≤ off.toNat → off.toNat < 0x2000000 →
    ShowsItself row ix →
    ∃ t v, exec (.readClear off 4 how) s = .next t ∧ t = { s with regs := t.regs, out := .busRead off.toNat v :: s.out } ∧
      (∀ j, j < 32 → row.wo.getLsbD j = false → row.st.getLsbD j = false → v.getLsbD j = (s.reg off.toNat).getLsbD j) ∧
      v &&& row.wo &&& ~~~row.st = 0 ∧ RegsBut s t [off.toNat] ∧
      t.reg off.toNat = (if how = .quiet then s.reg off.toNat else (s.reg off.toNat &&& ~~~row.rc) ||| (resetVal off.toNat &&& row.rc))) ∧
  (∀ (s : State) (off : BitVec 26) (row : RegRow) (ix : List Nat) (how : ReadBy),
    how = .consume ∨ how = .quiet → Reachable s off row ix → off.toNat < 0x800000 ∨ 0x900000 ≤ off.toNat → off.toNat < 0x2000000 → row.rc ≠ 0 →
    let v := s.busValue off.toNat false
    ∃ t, exec (.readClear off 4 how) s = .next t ∧ t = { s with regs := t.regs, out := .busRead off.toNat v :: s.out } ∧
      v &&& row.wo = 0 ∧ RegsBut s t [off.toNat] ∧
      t.reg off.toNat = (if how = .quiet then s.reg off.toNat else (s.reg off.toNat &&& ~~~row.rc) ||| (resetVal off.toNat &&& row.rc))) ∧
  (∀ (s : State) (off : BitVec 26) (row : RegRow) (ix : List Nat) (m : Nat),
    Reachable s off row ix → off.toNat < 0x800000 ∨ 0x900000 ≤ off.toNat → off.toNat < 0x2000000 → row.rc = 0 → stMember row.kind ix = some m →
    let v := s.busValue off.toNat false
    exec (.readClear off 4 .consume) s = .next { s with out := .busRead off.toNat v :: s.out } ∧
      v &&& row.st = s.staged m off.toNat &&& row.st ∧ v &&& row.wo &&& ~~~row.st = 0)

/-- R8. A write to an ST field changes no live value; of two writes before a commit the second is what the shadow holds; and the commit of the
field's member makes the shadow live, and nothing else of what is staged. -/
def Obligations.StagedWritesWaitForCommit : Prop :=
  ∀ (s : State) (src : Fin 9) (off : BitVec 26) (v v' : BitVec 64) (row : RegRow) (ix : List Nat) (m : Nat),
    src.val < 6 → Reachable s off row ix → PlainRegister row ix off.toNat → stMember row.kind ix = some m →
    let put := fun (w : BitVec 64) => (s.staged m off.toNat &&& ~~~row.st) ||| (w.setWidth 32 &&& row.st)
    (∃ t, exec (.registerWrite src off 4 v) s = .next t ∧ t.bank = s.bank ∧ t.live m off.toNat = s.live m off.toNat ∧
      (∀ k o, o ≠ off.toNat → t.live k o = s.live k o) ∧
      (s.shadowBusy m = false → t = { s with regs := t.regs, stv := t.stv } ∧ t.staged m off.toNat = put v) ∧
      (s.shadowBusy m = true → t.stv = s.stv)) ∧
    (∀ t, s.shadowBusy m = false → exec (.registerWrite src off 4 v) s = .next t →
      ∃ u, exec (.registerWrite src off 4 v') t = .next u ∧ u.staged m off.toNat = put v') ∧
    (s.flip m).live m off.toNat = s.staged m off.toNat ∧ (∀ k, k ≠ m → (s.flip m).liveCopy k = s.liveCopy k)

/-- R282, R287, R373, R418–R422. An access of 8 bytes is its two host words in order; an access of another length, or misaligned, changes
nothing and is an Unsupported Request; a write where no register lies changes nothing; BAR0 of PF1 is the 64 KiB of the Keeper mailbox block. An
access to a running die whose path is not UP (log entry 32) waits, is made once the path is UP, and after 50 µs a write is discarded and a read
returns all ones. A write to the deadbolt block sets DENY and records its writer (log entry 85), and changes nothing else. BAR4 of a function holds
its MSI-X table (PRESUMED, log entry 155). -/
def Obligations.AccessesAndRefusals : Prop :=
  ∀ (s : State) (src : Fin 9) (off : BitVec 26) (v : BitVec 64), s.power = .on → src.val < 7 →
    let held := fun (w : Option (List HWord)) (n src : Nat) (quiet : Bool) =>
      ({ off := off.toNat, write := w, n := n, src := src, quiet := quiet, since := s.tbu.run } : HeldAcc)
    (∀ len how, how = .consume ∨ how = .quiet → ¬ (len = 4 ∧ off.toNat % 4 = 0) → ¬ (len = 8 ∧ off.toNat % 8 = 0) →
      exec (.registerWrite src off len v) s = .next { s with out := .unsupported true off.toNat len :: s.out } ∧
      exec (.readClear off len how) s = .next { s with out := .unsupported false off.toNat len :: s.out }) ∧
    (∀ len, 0x10000 ≤ off.toNat →
      exec (.registerWrite 6 off len v) s = .next { s with out := .unsupported true off.toNat len :: s.out } ∧
      exec (.readClear off len .pf1) s = .next { s with out := .unsupported false off.toNat len :: s.out }) ∧
    (∀ len, off.toNat < 0x10000 → (len = 4 ∧ off.toNat % 4 = 0) ∨ (len = 8 ∧ off.toNat % 8 = 0) →
      exec (.registerWrite 6 off len v) s = exec (.registerWrite 0 (off + 0x60000) len v) s ∧
      exec (.readClear off len .pf1) s = exec (.readClear (off + 0x60000) len .consume) s) ∧
    (src.val < 6 → s.heldAcc = [] →
      (off.toNat % 8 = 0 → s.waitsAt off.toNat = false → s.waitsAt (off.toNat + 4) = false →
        ∃ t, exec (.registerWrite src off 4 v) s = .next t ∧
          (t.power = .on → t.heldAcc = [] → t.waitsAt (off.toNat + 4) = false →
            exec (.registerWrite src off 8 v) s = exec (.registerWrite src (off + 4) 4 (v >>> 32)) t)) ∧
      (off.toNat % 4 = 0 → regAt off.toNat = none → s.waitsAt off.toNat = false → (off.toNat < 0x50000 ∨ 0x60000 ≤ off.toNat) →
        exec (.registerWrite src off 4 v) s = .next s) ∧
      (off.toNat % 4 = 0 → s.waitsAt off.toNat = true →
        exec (.registerWrite src off 4 v) s = .next { s with heldAcc := [held (some [v.setWidth 32]) 0 src false] } ∧
        exec (.readClear off 4 .consume) s = .next { s with heldAcc := [held none 1 0 false] } ∧
        exec (.readClear off 4 .quiet) s = .next { s with heldAcc := [held none 1 0 true] }) ∧
      (0x50000 ≤ off.toNat → off.toNat < 0x60000 → off.toNat % 4 = 0 →
        ∃ t, exec (.registerWrite src off 4 v) s = .next t ∧ t = { s with regs := t.regs } ∧ RegsBut s t [R.DB_STAT] ∧
          t.flag R.DB_STAT F.DB_STAT.DENY = true ∧ t.fld R.DB_STAT F.DB_STAT.DSRC = src)) ∧
    (∀ (h : HeldAcc) (row : RegRow) (ix : List Nat) (w : HWord), s.heldAcc = [h] → h.asker = .bar0 → h.off < 0x2000000 →
      off.toNat % 4 = 0 → dieOf off.toNat = none → off.toNat < 0x1000000 →
      let free : State := { s with heldAcc := [] }
      let after := fun (t : State) => t.heldAcc = [] → t.power = .on → exec (.readClear off 4 .quiet) s = exec (.readClear off 4 .quiet) t
      (s.waitsAt h.off = false → h.write = some [w] → after (free.busWrite h.src h.off w)) ∧
      (s.waitsAt h.off = true → h.since + 50000 * nsUnit ≤ s.tbu.run → h.write = some [w] → after free) ∧
      (s.waitsAt h.off = true → h.since + 50000 * nsUnit ≤ s.tbu.run → h.write = none → h.n = 1 → regAt h.off = some (row, ix) →
        (h.off < 0x800000 ∨ 0x900000 ≤ h.off) → s.absent h.off row.kind ix = false →
        after { free with out := .busRead h.off 0xFFFFFFFF :: s.out })) ∧
    (∀ fn : Fin 2, off.toNat < 16 * msixVectors fn → off.toNat % 4 = 0 →
      exec (.readClear off 4 (.bar4 fn)) s = .next { s with out := .bar4Read fn off.toNat ((s.msixOf fn).word (off.toNat / 4)) :: s.out } ∧
      ((s.msixOf fn).pend = [] → ∃ t, exec (.registerWrite (if fn = 0 then 7 else 8) off 4 v) s = .next t ∧ t = { s with msixs := t.msixs } ∧
        (t.msixOf fn).word (off.toNat / 4) = v.setWidth 32 ∧ (∀ i, i ≠ off.toNat / 4 → (t.msixOf fn).word i = (s.msixOf fn).word i) ∧
        (t.msixOf fn).on = (s.msixOf fn).on ∧ (t.msixOf fn).fmask = (s.msixOf fn).fmask ∧ t.msixOf (1 - fn) = s.msixOf (1 - fn)))

/-- R423. Any write to DIAG_INJ or DIAG_CRED sets DIAG_OVR; with another KEY it does nothing else; with it, DIAG_INJ arms its injection and
DIAG_CRED takes one credit away or adds one, which changes what the output holds in all; with one that it has got the splitter of frame memory goes
on. At 15 credits or more an add does nothing, at port 32 too,
and DIAG_CRED and kind 3 do nothing at a port above 32 (DEDUCED, log entry 89). -/
def Obligations.DiagnosticOverrides : Prop :=
  ∀ (s : State),
    let onlyOvr := fun (t : State) => t = { s with regs := t.regs } ∧ RegsBut s t [R.HUB_INTEGRITY] ∧
      t.flag R.HUB_INTEGRITY F.HUB_INTEGRITY.DIAG_OVR = true
    (∀ (key : BitVec 16) (tgt : Fin 64) (vc : Fin 8), key ≠ 0xD1A6 →
      ∀ i ∈ [Instr.diagInjDataBit key tgt, .diagInjTwoSymbols key tgt, .diagInjParity key tgt, .diagInjFlitCrc key tgt, .diagCredAdd key tgt vc,
             .diagCredRemove key tgt vc], ∃ t, exec i s = .next t ∧ onlyOvr t) ∧
    (∀ (tgt : Fin 64) (two : Bool),
      let c := tgt.val % 8
      let n := if two then 2 else 1
      ∃ t, exec (if two then .diagInjTwoSymbols 0xD1A6 tgt else .diagInjDataBit 0xD1A6 tgt) s = .next t ∧ onlyOvr { t with ddrs := s.ddrs } ∧
        (∀ k, k ≠ c → SMap.get {} t.ddrs k = SMap.get {} s.ddrs k) ∧
        SMap.get {} t.ddrs c = (if tgt.val / 8 % 2 = 0 then { SMap.get {} s.ddrs c with inj0 := n } else { SMap.get {} s.ddrs c with inj1 := n })) ∧
    (∀ tgt : Fin 64, ∃ t, exec (.diagInjParity 0xD1A6 tgt) s = .next t ∧ onlyOvr { t with hubPar := s.hubPar } ∧
      (tgt.val ≤ 32 → SMap.get false t.hubPar tgt = true) ∧ (32 < tgt.val → onlyOvr t) ∧
      ∀ k, k ≠ tgt.val → SMap.get false t.hubPar k = SMap.get false s.hubPar k) ∧
    (∀ tgt : Fin 64, ∃ t, exec (.diagInjFlitCrc 0xD1A6 tgt) s = .next t ∧ onlyOvr { t with hinges := s.hinges } ∧
      t.hinge (tgt % 2) = { s.hinge (tgt % 2) with injCrc := true } ∧ ∀ k, k ≠ tgt.val % 2 → t.hinge k = s.hinge k) ∧
    (∀ (port : Fin 64) (vc : Fin 8) (add : Bool),
      let l := portId 256 port
      let n := s.avail l vc
      let cmd := if add then Instr.diagCredAdd 0xD1A6 port vc else .diagCredRemove 0xD1A6 port vc
      let sent := fun (t : State) => Host.Outcome.next (if fmPort l = true ∧ (s.fmQueue l vc).pks ≠ [] then t.fmPump l vc else t)
      (32 < port.val ∨ (add = true ∧ 15 ≤ n) ∨ (add = false ∧ n = 0) → ∃ t, exec cmd s = .next t ∧ onlyOvr t) ∧
      (port.val ≤ 32 → add = true → n < 15 → ∃ t, exec cmd s = sent t ∧ onlyOvr { t with ledger := s.ledger, credOff := s.credOff } ∧
        t.avail l vc = n + 1 ∧
        SMap.get 0 t.credOff (8 * l + vc) = SMap.get 0 s.credOff (8 * l + vc) + 1 ∧ (∀ x, x ≠ 8 * l + vc →
          SMap.get 0 t.credOff x = SMap.get 0 s.credOff x) ∧
        ∀ k, k < 8 → k ≠ vc.val → t.avail l k = s.avail l k) ∧
      (port.val ≤ 32 → add = false → 0 < n → ∃ t, exec cmd s = sent t ∧ onlyOvr { t with ledger := s.ledger, credOff := s.credOff } ∧
        t.avail l vc = n - 1 ∧
        SMap.get 0 t.credOff (8 * l + vc) = SMap.get 0 s.credOff (8 * l + vc) - 1 ∧ (∀ x, x ≠ 8 * l + vc →
          SMap.get 0 t.credOff x = SMap.get 0 s.credOff x) ∧
        ∀ k, k < 8 → k ≠ vc.val → t.avail l k = s.avail l k))

/-- Table 3.7, R60: modulo 2^w in each lane, with the flags of class ARITH. ADC adds C[j]; SBC subtracts 1 − C[j] more.
R61, Table 3.8: the saturating opcodes clamp to the bounds of the lane's width; V and SAT where a lane clamped, C as unsaturated. -/
def Obligations.CellArithmetic : Prop :=
  (
  CellClaim .add 0x08 true (fun m _ a b _ x y r =>
    (∀ j, j < laneN m → lane m j r = (lane m j a + lane m j b) % 2 ^ laneW m) ∧
    ResultFlags m x y r (fun j => decide (2 ^ laneW m ≤ lane m j a + lane m j b))
      (fun j => outS (laneW m) (laneS m j a + laneS m j b)) (fun _ => false)) ∧
  CellClaim .adc 0x09 true (fun m _ a b _ x y r =>
    (∀ j, j < laneN m → lane m j r = (lane m j a + lane m j b + (x.c.getLsbD j).toNat) % 2 ^ laneW m) ∧
    ResultFlags m x y r (fun j => decide (2 ^ laneW m ≤ lane m j a + lane m j b + (x.c.getLsbD j).toNat))
      (fun j => outS (laneW m) (laneS m j a + laneS m j b + (x.c.getLsbD j).toNat)) (fun _ => false)) ∧
  CellClaim .sub 0x0C true (fun m _ a b _ x y r =>
    (∀ j, j < laneN m → (lane m j r : Int) = ((lane m j a : Int) - lane m j b) % 2 ^ laneW m) ∧
    ResultFlags m x y r (fun j => decide (lane m j b ≤ lane m j a))
      (fun j => outS (laneW m) (laneS m j a - laneS m j b)) (fun _ => false)) ∧
  CellClaim .sbc 0x0D true (fun m _ a b _ x y r =>
    (∀ j, j < laneN m → (lane m j r : Int) = ((lane m j a : Int) - lane m j b - 1 + (x.c.getLsbD j).toNat) % 2 ^ laneW m) ∧
    ResultFlags m x y r (fun j => decide (lane m j b + 1 ≤ lane m j a + (x.c.getLsbD j).toNat))
      (fun j => outS (laneW m) (laneS m j a - laneS m j b - 1 + (x.c.getLsbD j).toNat)) (fun _ => false))
  ) ∧
  (
  CellClaim .addu 0x0A true (fun m _ a b _ x y r =>
    (∀ j, j < laneN m → (lane m j r : Int) = clampedU (laneW m) ((lane m j a : Int) + lane m j b)) ∧
    ResultFlags m x y r (fun j => decide (2 ^ laneW m ≤ lane m j a + lane m j b))
      (fun j => outU (laneW m) ((lane m j a : Int) + lane m j b)) (fun j => outU (laneW m) ((lane m j a : Int) + lane m j b))) ∧
  CellClaim .adds 0x0B true (fun m _ a b _ x y r =>
    (∀ j, j < laneN m → laneS m j r = clampedS (laneW m) (laneS m j a + laneS m j b)) ∧
    ResultFlags m x y r (fun j => decide (2 ^ laneW m ≤ lane m j a + lane m j b))
      (fun j => outS (laneW m) (laneS m j a + laneS m j b)) (fun j => outS (laneW m) (laneS m j a + laneS m j b))) ∧
  CellClaim .subu 0x0E true (fun m _ a b _ x y r =>
    (∀ j, j < laneN m → (lane m j r : Int) = clampedU (laneW m) ((lane m j a : Int) - lane m j b)) ∧
    ResultFlags m x y r (fun j => decide (lane m j b ≤ lane m j a))
      (fun j => outU (laneW m) ((lane m j a : Int) - lane m j b)) (fun j => outU (laneW m) ((lane m j a : Int) - lane m j b))) ∧
  CellClaim .subs 0x0F true (fun m _ a b _ x y r =>
    (∀ j, j < laneN m → laneS m j r = clampedS (laneW m) (laneS m j a - laneS m j b)) ∧
    ResultFlags m x y r (fun j => decide (lane m j b ≤ lane m j a))
      (fun j => outS (laneW m) (laneS m j a - laneS m j b)) (fun j => outS (laneW m) (laneS m j a - laneS m j b)))
  )

/-- Classes ORDER, CLAMP and COMPARE of Table 3.6: the lower bound of a clamp is applied first (R61).
R68 and the LOGIC rows of Table 3.7, bit by bit; SEL picks a lane by a flag as it stood at the start of the cycle. -/
def Obligations.CellOrderAndLogic : Prop :=
  (
  CellClaim .minu 0x10 true (fun m _ a b _ x y r =>
    (∀ j, j < laneN m → lane m j r = if lane m j a ≤ lane m j b then lane m j a else lane m j b) ∧
    ResultFlags m x y r (fun j => decide (lane m j b ≤ lane m j a)) (fun _ => false) (fun _ => false)) ∧
  CellClaim .maxu 0x11 true (fun m _ a b _ x y r =>
    (∀ j, j < laneN m → lane m j r = if lane m j a ≤ lane m j b then lane m j b else lane m j a) ∧
    ResultFlags m x y r (fun j => decide (lane m j b ≤ lane m j a)) (fun _ => false) (fun _ => false)) ∧
  CellClaim .mins 0x12 true (fun m _ a b _ x y r =>
    (∀ j, j < laneN m → laneS m j r = if laneS m j a ≤ laneS m j b then laneS m j a else laneS m j b) ∧
    ResultFlags m x y r (fun j => decide (laneS m j b ≤ laneS m j a)) (fun _ => false) (fun _ => false)) ∧
  CellClaim .maxs 0x13 true (fun m _ a b _ x y r =>
    (∀ j, j < laneN m → laneS m j r = if laneS m j a ≤ laneS m j b then laneS m j b else laneS m j a) ∧
    ResultFlags m x y r (fun j => decide (laneS m j b ≤ laneS m j a)) (fun _ => false) (fun _ => false)) ∧
  CellClaim .absd 0x14 true (fun m _ a b _ x y r =>
    (∀ j, j < laneN m → lane m j r = if lane m j b ≤ lane m j a then lane m j a - lane m j b else lane m j b - lane m j a) ∧
    ResultFlags m x y r (fun j => decide (lane m j b ≤ lane m j a)) (fun _ => false) (fun _ => false)) ∧
  CellClaim .clampu 0x15 true (fun m _ a b c x y r =>
    (∀ j, j < laneN m → lane m j r = if max (lane m j a) (lane m j b) ≤ lane m j c then max (lane m j a) (lane m j b) else lane m j c) ∧
    ResultFlags m x y r (fun j => decide (lane m j r = lane m j c ∧ lane m j c < lane m j a))
      (fun j => decide (lane m j r ≠ lane m j a)) (fun j => decide (lane m j r ≠ lane m j a))) ∧
  CellClaim .clamps 0x16 true (fun m _ a b c x y r =>
    (∀ j, j < laneN m → laneS m j r = if max (laneS m j a) (laneS m j b) ≤ laneS m j c then max (laneS m j a) (laneS m j b)
      else laneS m j c) ∧
    ResultFlags m x y r (fun j => decide (laneS m j r = laneS m j c ∧ laneS m j c < laneS m j a))
      (fun j => decide (laneS m j r ≠ laneS m j a)) (fun j => decide (laneS m j r ≠ laneS m j a))) ∧
  CellClaim .cmpu 0x18 false (fun m _ a b _ x y _ =>
    FlagsAre m x y (fun j => decide (lane m j b ≤ lane m j a)) (fun j => decide (lane m j a = lane m j b))
      (fun j => decide (lane m j a < lane m j b)) (fun _ => false) (fun _ => false)) ∧
  CellClaim .cmps 0x19 false (fun m _ a b _ x y _ =>
    FlagsAre m x y (fun j => decide (laneS m j b ≤ laneS m j a)) (fun j => decide (laneS m j a = laneS m j b))
      (fun j => decide (laneS m j a < laneS m j b)) (fun _ => false) (fun _ => false))
  ) ∧
  (
  CellClaim .and 0x20 true (fun m _ a b _ x y r =>
    (∀ i, i < 40 → r.getLsbD i = (a.getLsbD i && b.getLsbD i)) ∧
    ResultFlags m x y r (fun _ => false) (fun _ => false) (fun _ => false)) ∧
  CellClaim .or 0x21 true (fun m _ a b _ x y r =>
    (∀ i, i < 40 → r.getLsbD i = (a.getLsbD i || b.getLsbD i)) ∧
    ResultFlags m x y r (fun _ => false) (fun _ => false) (fun _ => false)) ∧
  CellClaim .xor 0x22 true (fun m _ a b _ x y r =>
    (∀ i, i < 40 → r.getLsbD i = (a.getLsbD i ^^ b.getLsbD i)) ∧
    ResultFlags m x y r (fun _ => false) (fun _ => false) (fun _ => false)) ∧
  CellClaim .andn 0x23 true (fun m _ a b _ x y r =>
    (∀ i, i < 40 → r.getLsbD i = (a.getLsbD i && !b.getLsbD i)) ∧
    ResultFlags m x y r (fun _ => false) (fun _ => false) (fun _ => false)) ∧
  CellClaim .log3 0x24 true (fun m imm a b c x y r =>
    (∀ i, i < 40 → r.getLsbD i = imm.testBit (4 * (a.getLsbD i).toNat + 2 * (b.getLsbD i).toNat + (c.getLsbD i).toNat)) ∧
    ResultFlags m x y r (fun _ => false) (fun _ => false) (fun _ => false)) ∧
  CellClaim .sel 0x1A true (fun m imm a b _ x y r =>
    (∀ j, j < laneN m → lane m j r =
      if ((imm % 8 = 0 ∧ x.c.getLsbD j) ∨ (imm % 8 = 1 ∧ x.z.getLsbD j) ∨ (imm % 8 = 2 ∧ x.n.getLsbD j) ∨
          (imm % 8 = 3 ∧ x.v.getLsbD j) ∨ (imm % 8 = 4 ∧ x.sat.getLsbD j)) ↔ imm.testBit 3 = false
      then lane m j a else lane m j b) ∧ SameFlags x y)
  )

/-- R31, R70 and the moves: NOP writes no register and no flag; FCLR clears SAT or C, Z, N and V and never QI, QR or QT; FGET gives the
flag image of Table 3.10; MOV copies; MOVK appends the 12 bits of IMM. -/
def Obligations.CellFlagsAndMoves : Prop :=
  CellClaim .nop 0x00 false (fun _ _ _ _ _ x y _ => SameFlags x y ∧ SameQueueFlags x y) ∧
  CellClaim .fclr 0x01 false (fun _ imm _ _ _ x y _ =>
    y.sat = (if imm.testBit 0 then 0 else x.sat) ∧
    (if imm.testBit 1 then y.c = 0 ∧ y.z = 0 ∧ y.n = 0 ∧ y.v = 0 else y.c = x.c ∧ y.z = x.z ∧ y.n = x.n ∧ y.v = x.v) ∧
    SameQueueFlags x y) ∧
  CellClaim .fget 0x02 true (fun _ _ _ _ _ x y r =>
    (∀ i, i < 40 → r.getLsbD i =
      if i < 5 then x.sat.getLsbD i else if i < 10 then x.v.getLsbD (i - 5) else if i < 15 then x.n.getLsbD (i - 10)
      else if i < 20 then x.z.getLsbD (i - 15) else if i < 25 then x.c.getLsbD (i - 20)
      else if i = 25 then x.qi else if i = 26 then x.qr else if i = 27 then x.qt else false) ∧ SameFlags x y) ∧
  CellClaim .mov 0x03 true (fun _ _ a _ _ x y r => r = a ∧ SameFlags x y) ∧
  CellClaim .movk 0x04 true (fun _ imm a _ _ x y r => r.toNat = a.toNat % 2 ^ 28 * 2 ^ 12 + imm ∧ SameFlags x y)

/-- R63: the amount of a shift per lane, IMM[5:0] or the low six bits of b's lane; the result and the last bit moved out.
R64, R65, R66: the funnel shift, the bit fields, unpacking and packing. -/
def Obligations.CellShiftsAndFields : Prop :=
  (
  CellClaim .shl 0x28 true (fun m imm a b _ x y r =>
    let k := fun j => if imm.testBit 11 then lane m j b % 64 else imm % 64
    (∀ j, j < laneN m → lane m j r = if laneW m ≤ k j then 0 else lane m j a * 2 ^ k j % 2 ^ laneW m) ∧
    ResultFlags m x y r (fun j => decide (k j ≠ 0) && (decide (k j ≤ laneW m) && (lane m j a).testBit (laneW m - k j)))
      (fun _ => false) (fun _ => false)) ∧
  CellClaim .shr 0x29 true (fun m imm a b _ x y r =>
    let k := fun j => if imm.testBit 11 then lane m j b % 64 else imm % 64
    (∀ j, j < laneN m → lane m j r = if laneW m ≤ k j then 0 else lane m j a / 2 ^ k j) ∧
    ResultFlags m x y r (fun j => decide (k j ≠ 0) && (decide (k j ≤ laneW m) && (lane m j a).testBit (k j - 1)))
      (fun _ => false) (fun _ => false)) ∧
  CellClaim .sar 0x2A true (fun m imm a b _ x y r =>
    let k := fun j => if imm.testBit 11 then lane m j b % 64 else imm % 64
    (∀ j, j < laneN m → laneS m j r = if laneW m ≤ k j then (if laneS m j a < 0 then -1 else 0) else laneS m j a / 2 ^ k j) ∧
    ResultFlags m x y r (fun j => decide (k j ≠ 0) &&
        if k j ≤ laneW m then (lane m j a).testBit (k j - 1) else decide (laneS m j a < 0))
      (fun _ => false) (fun _ => false)) ∧
  CellClaim .rol 0x2B true (fun m imm a b _ x y r =>
    let k := fun j => (if imm.testBit 11 then lane m j b % 64 else imm % 64) % laneW m
    (∀ j, j < laneN m → lane m j r = lane m j a * 2 ^ k j % 2 ^ laneW m + lane m j a / 2 ^ (laneW m - k j)) ∧
    ResultFlags m x y r (fun _ => false) (fun _ => false) (fun _ => false))
  ) ∧
  (
  CellClaim .fsh 0x2C true (fun m imm a b c x y r =>
    let k := if imm.testBit 11 then (if 40 < c.toNat % 64 then 40 else c.toNat % 64) else imm % 64
    r.toNat = (a.toNat * 2 ^ 40 + b.toNat) / 2 ^ (40 - k) % 2 ^ 40 ∧
    ResultFlags m x y r (fun _ => false) (fun _ => false) (fun _ => false)) ∧
  CellClaim .ext 0x30 true (fun m imm a _ _ x y r =>
    (∀ i, i < 40 → r.getLsbD i = (decide (i < imm / 64) && a.getLsbD (imm % 64 + i))) ∧
    ResultFlags m x y r (fun _ => false) (fun _ => false) (fun _ => false)) ∧
  CellClaim .exts 0x31 true (fun m imm a _ _ x y r =>
    (∀ i, i < 40 → r.getLsbD i = a.getLsbD (imm % 64 + min i (imm / 64 - 1))) ∧
    ResultFlags m x y r (fun _ => false) (fun _ => false) (fun _ => false)) ∧
  CellClaim .ins 0x32 true (fun m imm a b _ x y r =>
    (∀ i, i < 40 → r.getLsbD i =
      if imm % 64 ≤ i ∧ i < imm % 64 + imm / 64 then b.getLsbD (i - imm % 64) else a.getLsbD i) ∧
    ResultFlags m x y r (fun _ => false) (fun _ => false) (fun _ => false)) ∧
  CellClaim .unpk 0x34 true (fun m imm a _ _ x y r =>
    (∀ h, h < 2 → if imm.testBit 1 then laneS 1 h r = laneS 2 (h + if imm.testBit 0 then 2 else 0) a
      else lane 1 h r = lane 2 (h + if imm.testBit 0 then 2 else 0) a) ∧
    ResultFlags m x y r (fun _ => false) (fun _ => false) (fun _ => false)) ∧
  CellClaim .pks 0x35 true (fun m imm a b _ x y r =>
    let v := fun j => roundBy (imm / 4 % 16) (if j = 3 then laneS 1 1 a else if j = 2 then laneS 1 0 a else if j = 1 then laneS 1 1 b
      else laneS 1 0 b)
    let hit := fun j => if imm % 4 = 0 then false else if imm % 4 = 1 then outU 10 (v j) else outS 10 (v j)
    (∀ j, j < 4 → if imm % 4 = 0 then (lane 2 j r : Int) = v j % 2 ^ 10 else if imm % 4 = 1 then (lane 2 j r : Int) = clampedU 10 (v j)
      else laneS 2 j r = clampedS 10 (v j)) ∧
    ResultFlags m x y r (fun _ => false) hit hit)
  )

/-- R67, R69: the multiplications, signed where IMM[11] = 1. R40, R41: the cascade writes no flag, and its result is the line of the cell of its group
that the low bits of its select cell's OUT, as it stood at the start of the cycle, choose: what that cell drives, or 0 where it does not execute the
cascade operation. -/
def Obligations.CellMultiplyCascade : Prop :=
  CellClaim .mul 0x38 true (fun m imm a b _ x y r =>
    let half := fun (v : Word) => if imm.testBit 11 then laneS 1 0 v else (lane 1 0 v : Int)
    let smp := fun (j : Nat) (v : Word) => if imm.testBit 11 then laneS 2 j v else (lane 2 j v : Int)
    let p := fun j => roundBy (imm % 32) (smp j a * smp j b)
    let hit := fun j => if imm.testBit 11 then outS 10 (p j) else outU 10 (p j)
    (m = 0 → (r.toNat : Int) = half a * half b % 2 ^ 40 ∧ ResultFlags m x y r (fun _ => false) (fun _ => false) (fun _ => false)) ∧
    (m = 2 → (∀ j, j < 4 → if imm.testBit 11 then laneS 2 j r = clampedS 10 (p j) else (lane 2 j r : Int) = clampedU 10 (p j)) ∧
      ResultFlags m x y r (fun _ => false) hit hit)) ∧
  CellClaim .mula 0x39 true (fun m imm a b c x y r =>
    let half := fun (v : Word) => if imm.testBit 11 then laneS 1 0 v else (lane 1 0 v : Int)
    let p := (half a * half b % 2 ^ 40).toNat
    r.toNat = (p + c.toNat) % 2 ^ 40 ∧
    ResultFlags m x y r (fun _ => decide (2 ^ 40 ≤ p + c.toNat)) (fun _ => outS 40 (signedOf 40 p + laneS 0 0 c)) (fun _ => false)) ∧
  (∀ (s : State) (c : CellId) (dt : Nat) (k : Option Nat) (l : BitVec 48),
    let s1 := s.advance (paneOf c) dt
    Issues s1 c k l → SoundParity s1 c k l → illegalCause l = none → lvOp l = 0x3C →
    condHolds (s1.cell (keyOf c)) (lvLane l) (lvCond l) = true →
    let g := 2 ^ bitsOf (lvImm l) 6 5
    let i := (s1.outStart (paneOf c) (tileOf c) (8 * c.k.val + bitsOf (lvImm l) 4 2)).toNat % 32 % (4 * g)
    let other := 8 * c.k.val + g * (c.n.val / g) + i / 4
    let y := s1.cell (cellKey (paneOf c) (tileOf c) other)
    ∃ t r, exec (.cas c dt) s = .next t ∧ OnlyCell s1 t (keyOf c) ∧ SameFlags (s1.cell (keyOf c)) (t.cell (keyOf c)) ∧
      Wrote (s1.cell (keyOf c)) (t.cell (keyOf c)) (lvDst l) r ∧
      (y.ran = s1.cyc (paneOf c) + 1 → r = y.casc.getD (i % 4) 0) ∧
      (y.ran ≠ s1.cyc (paneOf c) + 1 →
        (s1.cascading (paneOf c) (tileOf c) other = none → r = 0) ∧
        ∀ h w, s1.issued (paneOf c) (tileOf c) other = some ⟨some h, w⟩ → lvOp w = 0x3C → illegalCause w = none →
          s1.lvParAt (s1.liveCopy (paneOf c)) (paneOf c) (tileOf c) other h = louvreParity w →
          r = s1.source (paneOf c) (tileOf c) other 0 (lvImm w) (if i % 4 = 0 then lvA w else if i % 4 = 1 then lvB w else if i % 4 = 2 then lvC w
            else bitsOf (lvImm w) 11 7)))

/-- R71, R72, R157: POP delivers what source 23 delivers and removes it; PUSH and PUSHE offer a with tag 0 and 1; SLAM removes entries of the
consumer's queue. A consumer that is not bound delivers 0 with tag 0 (QT then: log entry 161), and its SLAM does nothing; a push that is not served
is refused. R153, R155, R171: in a queue mode the pop of a bound client takes the head off, once it is visible, and counts it in OUT, and delivers
the idle word where none is; a push of the binding puts its word with its tag behind the last, from the next cycle on, and counts it in IN, and one
that finds no room is counted in REFUSED. -/
def Obligations.CellQueueOpcodes : Prop :=
  (∀ (s : State) (pane m q : Nat), m < 6 → q < 4 → s.queueMode pane m = true →
    let blk := pane * 6 + m
    let x := s.queue blk q
    let u := s.cyc pane
    let others := fun (t : State) => ∀ b i, b * 4 + i ≠ blk * 4 + q → t.queue b i = s.queue b i
    (x.visible u = none → s.popBound pane m q = ((s.idleWord pane m q, false, false), s)) ∧
    (∀ e rest, x.slots = e :: rest → e.filled = true → e.acc < u → (s.entry blk e.pos).bad = 0 →
      let r := s.popBound pane m q
      r.1 = ((s.entry blk e.pos).word, (s.entry blk e.pos).tag, true) ∧ r.2 = { s with queues := r.2.queues } ∧ others r.2 ∧
      (r.2.queue blk q).slots = rest ∧ (r.2.queue blk q).cOut = x.cOut + 1 ∧ (r.2.queue blk q).cIn = x.cIn ∧
      (r.2.queue blk q).cSlam = x.cSlam ∧ (r.2.queue blk q).cRef = x.cRef) ∧
    (∀ w tag, s.paneOpen pane = true → s.discards pane m q = false →
      let r := s.pushBound pane m q w tag
      (s.bindRoom pane m q = true → x.netNow u = [] →
        r.1 = true ∧ r.2 = { s with queues := r.2.queues, arrays := r.2.arrays, movers := r.2.movers } ∧ others r.2 ∧
        (r.2.queue blk q).slots = x.slots ++ [{ pos := s.writePos pane m q, filled := true, made := u + 1, acc := u + 1 }] ∧
        r.2.entry blk (s.writePos pane m q) = { word := w, tag := tag } ∧ (r.2.queue blk q).cIn = x.cIn + 1 ∧
        (r.2.queue blk q).cOut = x.cOut ∧ (r.2.queue blk q).cRef = x.cRef) ∧
      (s.bindRoom pane m q = false →
        r.1 = false ∧ r.2 = { s with queues := r.2.queues } ∧ others r.2 ∧ (r.2.queue blk q).slots = x.slots ∧ (r.2.queue blk q).cIn = x.cIn ∧
        ((SMap.get {} s.dies (pane / 64)).gsr = true → (r.2.queue blk q).cRef = x.cRef + 1)))) ∧
  ∀ (s : State) (c : CellId) (dt : Nat) (k : Option Nat) (l : BitVec 48),
    let s1 := s.advance (paneOf c) dt
    let x := s1.cell (keyOf c)
    let tc := 32 * tileOf c + unitOf c
    let take := s1.cellBinding (paneOf c) tc false
    let slams := s1.served (paneOf c) take false (.cell tc) && s1.queueMode (paneOf c) take.2.1
    let s2 := if slams then s1.slamBound (paneOf c) take.2.1 take.2.2 else s1
    Issues s1 c k l → SoundParity s1 c k l → illegalCause l = none → condHolds x (lvLane l) (lvCond l) = true →
    (lvOp l = 0x40 → ∃ t, exec (.pop c dt) s = .next t ∧
      Wrote x (t.cell (keyOf c)) (lvDst l) (s1.queueHead (paneOf c) tc).1 ∧ SameFlags x (t.cell (keyOf c)) ∧
      (t.cell (keyOf c)).qi = !(s1.queueHead (paneOf c) tc).2.2 ∧ (t.cell (keyOf c)).qt = (s1.queueHead (paneOf c) tc).2.1 ∧
      (t.cell (keyOf c)).qr = x.qr ∧ (∀ j, j ≠ keyOf c → t.cell j = s1.cell j) ∧
      t = { (if s1.served (paneOf c) take false (.cell tc) then (s1.popBound (paneOf c) take.2.1 take.2.2).2 else s1) with
            cells := t.cells }) ∧
    (s1.served (paneOf c) take false (.cell tc) = false → s1.queueHead (paneOf c) tc = (0, false, false)) ∧
    (lvOp l = 0x41 → CellPushes (exec (.push c dt) s) s1 c (operand s1 c l (lvA l)) false) ∧
    (lvOp l = 0x42 → CellPushes (exec (.pushe c dt) s) s1 c (operand s1 c l (lvA l)) true) ∧
    (lvOp l = 0x43 → ∃ t, exec (.slam c dt) s = .next t ∧ SameCell x (t.cell (keyOf c)) ∧ (∀ j, j ≠ keyOf c → t.cell j = s2.cell j) ∧
      t = { s2 with cells := t.cells } ∧ (slams = true → Slammed s1 t (paneOf c) take.2.1 take.2.2) ∧
      ∀ j, j ≠ keyOf c → Wrote (s1.cell j) (t.cell j) 7 0 ∧ SameFlags (s1.cell j) (t.cell j))

/-- R38, R57: an instruction whose condition does not hold writes nothing; only its SEQ acts (Table 3.5).
R31, R58, R73, R74: a louvre that fails parity, and one that is illegal, executes as NOP with SEQ taken as NEXT, and is captured in
PANE_LVERR, or with its lowest cause in PANE_LVILL. R47: where one is captured already, MORE is set and its location stays, but that of the cells that
fail in one cycle the one with the lowest coordinate is captured. -/
def Obligations.CellsThatDoNotExecute : Prop :=
  (
  ∀ e ∈ cellCommands, ∀ (s : State) (c : CellId) (dt : Nat) (k : Option Nat) (l : BitVec 48),
    let s1 := s.advance (paneOf c) dt
    Issues s1 c k l → SoundParity s1 c k l → illegalCause l = none → lvOp l = e.2 →
    condHolds (s1.cell (keyOf c)) (lvLane l) (lvCond l) = false →
    ∃ t, exec (e.1 c dt) s = .next t ∧ OnlyCell s1 t (keyOf c) ∧ SameCell (s1.cell (keyOf c)) (t.cell (keyOf c)) ∧
      (t.cell (keyOf c)).redir = seqRedir (s1.cell (keyOf c)) (lvSeq l) k
  ) ∧
  (
  ∀ e ∈ cellCommands, ∀ (s : State) (c : CellId) (dt : Nat) (j : Nat) (l : BitVec 48),
    let s1 := s.advance (paneOf c) dt
    let slot := (s1.pane (paneOf c)).slot
    let beside := fun (off stamp : Nat) (apart together : HWord → HWord → Nat → Nat → Prop) =>
      if (s1.reg off).getLsbD 31 = true ∧ stamp = s1.cyc (paneOf c) + 1 then together else apart
    Issues s1 c (some j) l → (lvOp l = e.2 ∨ e.2 = 0) →
    (¬ SoundParity s1 c (some j) l →
      ∃ t, exec (e.1 c dt) s = .next t ∧ t = { s1 with cells := t.cells, panes := t.panes, regs := t.regs } ∧
        (∀ i, i ≠ keyOf c → t.cell i = s1.cell i) ∧ SameCell (s1.cell (keyOf c)) (t.cell (keyOf c)) ∧
        (t.cell (keyOf c)).redir = .next ∧ (∀ o, o ≠ R.PANE_LVERR c.d c.p → t.reg o = s1.reg o) ∧
        (beside (R.PANE_LVERR c.d c.p) (s1.pane (paneOf c)).errCyc Captured CapturedBeside)
          (s1.reg (R.PANE_LVERR c.d c.p)) (t.reg (R.PANE_LVERR c.d c.p)) 0x1FFFF (cellLoc (tileOf c) (unitOf c) j slot % 2 ^ 17)) ∧
    (∀ cause, SoundParity s1 c (some j) l → illegalCause l = some cause →
      ∃ t, exec (e.1 c dt) s = .next t ∧ t = { s1 with cells := t.cells, panes := t.panes, regs := t.regs } ∧
        (∀ i, i ≠ keyOf c → t.cell i = s1.cell i) ∧ SameCell (s1.cell (keyOf c)) (t.cell (keyOf c)) ∧
        (t.cell (keyOf c)).redir = .next ∧ (∀ o, o ≠ R.PANE_LVILL c.d c.p → t.reg o = s1.reg o) ∧
        (beside (R.PANE_LVILL c.d c.p) (s1.pane (paneOf c)).illCyc Captured CapturedBeside)
          (s1.reg (R.PANE_LVILL c.d c.p)) (t.reg (R.PANE_LVILL c.d c.p)) 0xFFFFF
          ((cause * 2 ^ 17 + cellLoc (tileOf c) (unitOf c) j slot) % 2 ^ 20))
  )

/-- R85, R314. GATE written 1 gates the clocks at the end of the cell cycle; a write of 0 before that edge cancels it; 0 on a gated pane starts
a relock, 1 ends it; a relocked loop, its reference present, restarts the clocks; a loop that loses lock stops them and sets LOL, and relocks,
or, where GATE is 1, leaves the pane gated. What a commit, a WM_LCTL.SNAP, a TR_CMD or a global capture left waiting for the clocks is done as they
return (R52, R117, R172, R203, R421). -/
def Obligations.PaneClockIsland : Prop :=
  ∀ (s : State) (d : Fin 4) (p : Fin 64) (v : BitVec 32),
    let r := R.PANE_CLK d p
    let pane := paneId d p
    let still := ((s.pane pane).relocking = true ∧ s.flag r F.PANE_CLK.GATE = false ∧ s.hasPref d = true ∧ (s.pane pane).gatePend = false ∧
      s.cfg.up = false ∧ ∀ g, (s.eng g).state ≠ .off)
    let noCommit := ((s.pane pane).switchPend = 0 ∧ ∀ g, (s.eng g).switchPend = 0)
    let noCapture := ((s.pane pane).snaps = 0 ∧ (s.pane pane).gcap = false ∧ (s.pane pane).brds = [] ∧ ∀ b, (s.mover b).snaps = 0)
    (v.getLsbD 28 = true → DieReached s d → s.flag r F.PANE_CLK.LOCK = true →
      ((s.pane pane).late = [] → ∃ t, exec (.paneGate d p v true) s = .next t ∧ t.flag r F.PANE_CLK.LOCK = false ∧ t.flag r F.PANE_CLK.GATED = true ∧
        t.flag r F.PANE_CLK.GATE = true ∧ (t.pane pane).gatePend = false ∧ t = { s with regs := t.regs, panes := t.panes } ∧
        PanesBut s t pane ∧ RegsBut s t [r, R.PANE_BUSCON d p]) ∧
      ∃ t, exec (.paneGate d p v false) s = .next t ∧ (t.pane pane) = { s.pane pane with gatePend := true } ∧
        t.flag r F.PANE_CLK.LOCK = true ∧ t.flag r F.PANE_CLK.GATE = true ∧ t = { s with regs := t.regs, panes := t.panes } ∧
        PanesBut s t pane ∧ RegsBut s t [r]) ∧
    (v.getLsbD 28 = false → DieReached s d → (s.pane pane).gatePend = true → ∀ edge,
      ∃ t, exec (.paneGate d p v edge) s = .next t ∧ (t.pane pane) = { s.pane pane with gatePend := false } ∧
        t.flag r F.PANE_CLK.LOCK = s.flag r F.PANE_CLK.LOCK ∧ t = { s with regs := t.regs, panes := t.panes } ∧
        PanesBut s t pane ∧ RegsBut s t [r]) ∧
    (v.getLsbD 28 = false → DieReached s d → (s.pane pane).gatePend = false → s.flag r F.PANE_CLK.GATED = true → ∀ edge,
      ∃ t, exec (.paneGate d p v edge) s = .next t ∧ (t.pane pane) = { s.pane pane with relocking := true } ∧
        t.flag r F.PANE_CLK.LOCK = s.flag r F.PANE_CLK.LOCK ∧ t.flag r F.PANE_CLK.GATED = true ∧
        t = { s with regs := t.regs, panes := t.panes } ∧ PanesBut s t pane ∧ RegsBut s t [r]) ∧
    (v.getLsbD 28 = true → DieReached s d → s.flag r F.PANE_CLK.LOCK = false → ∀ edge,
      ∃ t, exec (.paneGate d p v edge) s = .next t ∧ (t.pane pane) = { s.pane pane with relocking := false } ∧
        t.flag r F.PANE_CLK.LOCK = false ∧ t.flag r F.PANE_CLK.GATED = true ∧
        t = { s with regs := t.regs, panes := t.panes } ∧ PanesBut s t pane ∧ RegsBut s t [r]) ∧
    (still → noCommit → noCapture →
      ∃ t, exec (.paneRelock d p) s = .next t ∧ (t.pane pane) = { s.pane pane with relocking := false } ∧
        t.flag r F.PANE_CLK.LOCK = true ∧ t.flag r F.PANE_CLK.GATED = false ∧
        t = { s with regs := t.regs, panes := t.panes } ∧ PanesBut s t pane ∧ RegsBut s t [r]) ∧
    (still → noCapture → (s.pane pane).switchPend = 1 → (∀ g, (s.eng g).switchPend = 0) →
      ∃ t, exec (.paneRelock d p) s = .next t ∧ t.flag r F.PANE_CLK.LOCK = true ∧ (t.pane pane).switchPend = 0 ∧ (t.pane pane).slot = 0 ∧
        t.liveCopy pane = 1 - s.liveCopy pane ∧ ∀ m, m ≠ pane → t.liveCopy m = s.liveCopy m) ∧
    (∀ g, still → noCapture → (s.pane pane).switchPend = 0 → g / 2 = pane → (s.eng g).switchPend = 1 → (∀ h, h ≠ g → (s.eng h).switchPend = 0) →
      let m := engMember (engDie g) (engIx g)
      ∃ t, exec (.paneRelock d p) s = .next t ∧ t.flag r F.PANE_CLK.LOCK = true ∧ (t.eng g).switchPend = 0 ∧
        t.liveCopy m = 1 - s.liveCopy m ∧ ∀ k, k ≠ m → t.liveCopy k = s.liveCopy k) ∧
    (∀ (m : Fin 6) (n : Nat), still → noCommit → (s.pane pane).snaps = 0 → (s.pane pane).gcap = false → (s.pane pane).brds = [] → 1 ≤ n →
      (s.mover (blkId d p m)).snaps = n → (∀ b, b ≠ blkId d p m → (s.mover b).snaps = 0) →
      ∃ t, exec (.paneRelock d p) s = .next t ∧ t.flag r F.PANE_CLK.LOCK = true ∧ (t.mover (blkId d p m)).snaps = 0 ∧
        t.fld (R.WM_LCTL d p m) F.WM_LCTL.SEQ = (s.fld (R.WM_LCTL d p m) F.WM_LCTL.SEQ + n) % 256 ∧
        ∀ q, q < 4 → t.reg (R.WM_QLEDGER d p m q 0) = (s.queue (blkId d p m) q).cIn ∧
          t.reg (R.WM_QLEDGER d p m q 1) = (s.queue (blkId d p m) q).cOut ∧ t.reg (R.WM_QLEDGER d p m q 2) = (s.queue (blkId d p m) q).cSlam ∧
          t.reg (R.WM_QLEDGER d p m q 3) = (s.queue (blkId d p m) q).cFlush ∧ t.reg (R.WM_QLEDGER d p m q 5) = (s.queue (blkId d p m) q).cRef) ∧
    (still → noCommit → (∀ b, (s.mover b).snaps = 0) → (s.pane pane).brds = [] → (1 ≤ (s.pane pane).snaps ∨ (s.pane pane).gcap = true) →
      ∃ t, exec (.paneRelock d p) s = .next t ∧ t.flag r F.PANE_CLK.LOCK = true ∧ (t.pane pane).snaps = 0 ∧ (t.pane pane).gcap = false ∧
        t.fld (R.TR_STAT d p) F.TR_STAT.SEQ = (s.fld (R.TR_STAT d p) F.TR_STAT.SEQ + (s.pane pane).snaps) % 256 ∧
        ∀ x i, x < 12 → i < 16 → t.reg (R.TR_LEDGER d p x i) = s.ledShown (portId pane x) i) ∧
    (∀ x : Fin 12, still → noCommit → (s.pane pane).snaps = 0 → (s.pane pane).gcap = false → (∀ b, (s.mover b).snaps = 0) → s.dieDark d = false →
      (s.pane pane).brds = [(portId pane x, true)] → s.portExists (portId pane x) = true →
      ∃ t, exec (.paneRelock d p) s = .next t ∧ t.flag r F.PANE_CLK.LOCK = true ∧ (t.pane pane).brds = [] ∧ t.boarded (portId pane x) = true) ∧
    (s.hasPref d = false → s.cfg.up = false → exec (.paneRelock d p) s = .next s) ∧
    (s.flag r F.PANE_CLK.LOCK = true → s.flag r F.PANE_CLK.GATE = false →
      ∃ t, exec (.paneLossOfLock d p) s = .next t ∧ (t.pane pane) = { s.pane pane with relocking := true, gatePend := false } ∧
        t.flag r F.PANE_CLK.LOCK = false ∧ t.flag r F.PANE_CLK.LOL = true ∧
        t = { s with regs := t.regs, panes := t.panes } ∧ PanesBut s t pane ∧ RegsBut s t [r]) ∧
    (s.flag r F.PANE_CLK.LOCK = true → s.flag r F.PANE_CLK.GATE = true →
      ∃ t, exec (.paneLossOfLock d p) s = .next t ∧ (t.pane pane) = { s.pane pane with relocking := false, gatePend := false } ∧
        t.flag r F.PANE_CLK.LOCK = false ∧ t.flag r F.PANE_CLK.GATED = true ∧ t.flag r F.PANE_CLK.LOL = true ∧
        t = { s with regs := t.regs, panes := t.panes } ∧ PanesBut s t pane ∧ RegsBut s t [r])

/-- R87, R88, R90, R95. A QUEUE inlet pops one real entry into its first stage, tagged with the pane's live bank; a STROBE inlet enters the
word its cell wrote to OUT, with tag 0, or, its first stage taken, counts an overrun; an inlet enters one item in a cycle.
R87–R92, R96, R101. Under the settings of the bank its tag names, the head item is pushed to its queue or RAM port with its tag, written to
its channel latch, or passed into an outbound channel with its tag and context bit; it leaves the channel, and PERR notes a parity failure.
An outlet holds it that is OFF, has delivered in the cycle, or finds its queue unbound or without room, or the next channel full. -/
def Obligations.ElasticChannels : Prop :=
  (
  ∀ (s : State) (d : Fin 4) (p : Fin 64) (k : Fin 64) (dt : Nat) (np : Nat) (hinge : Bool),
    let pane := paneId d p
    let s1 := s.advance pane dt
    let v := s1.chIn (s1.liveCopy pane) pane k
    let ch := s1.chan pane k
    let u := s1.cyc pane
    let bank := decide (s1.liveCopy pane = 1)
    let m := getF v F.PANE_CHIN.MEM
    let q := getF v F.PANE_CHIN.Q
    let sc := getF v F.PANE_CHIN.SCELL
    let x := s1.cell (cellKey pane (sc / 32) (sc % 32))
    (s1.paneRuns pane = false ∨ ch.inCyc = u + 1 ∨ getF v F.PANE_CHIN.MODE = 0 → exec (.channelEnter d p k dt) s = .next s1) ∧
    (s1.paneRuns pane = true → ch.inCyc ≠ u + 1 → nbr pane (k.val / 16) = some (np, hinge) →
      (getF v F.PANE_CHIN.MODE = 1 → s1.served pane (true, m, q) false (.chan k) = true → s1.stageFree pane k = true →
        (s1.popBound pane m q).1.2.2 = true →
        ∃ t, exec (.channelEnter d p k dt) s = .next t ∧ t = { (s1.popBound pane m q).2 with chans := t.chans } ∧
          ChansBut s1 t [(pane, k)] ∧
          t.chan pane k = Entered ch hinge (freshItem (s1.popBound pane m q).1.1 (s1.popBound pane m q).1.2.1 bank) u) ∧
      (getF v F.PANE_CHIN.MODE = 1 →
        (s1.served pane (true, m, q) false (.chan k) = false ∨ s1.stageFree pane k = false ∨ (s1.popBound pane m q).1.2.2 = false) →
        exec (.channelEnter d p k dt) s = .next s1) ∧
      (getF v F.PANE_CHIN.MODE = 2 → sc / 32 % 8 ≠ 4 → x.ran = u + 1 → x.wroteOut = true →
        (getF v F.PANE_CHIN.LVMASK).testBit x.lastLv = true →
        (s1.stageFree pane k = true →
          ∃ t, exec (.channelEnter d p k dt) s = .next t ∧ t = { s1 with chans := t.chans } ∧ ChansBut s1 t [(pane, k)] ∧
            t.chan pane k = Entered ch hinge (freshItem x.out false bank) u) ∧
        (s1.stageFree pane k = false →
          ∃ t, exec (.channelEnter d p k dt) s = .next t ∧ t = { s1 with chans := t.chans, regs := t.regs } ∧ ChansBut s1 t [(pane, k)] ∧
            t.chan pane k = { ch with inCyc := u + 1 } ∧ RegsBut s1 t [R.PANE_CHSTAT d p k] ∧
            t.fld (R.PANE_CHSTAT d p k) F.PANE_CHSTAT.OVR = min (s1.fld (R.PANE_CHSTAT d p k) F.PANE_CHSTAT.OVR + 1) 255)))
  ) ∧
  (
  ∀ (s : State) (d : Fin 4) (p : Fin 64) (k : Fin 64) (dt : Nat) (sp sk : Nat) (hinge : Bool) (it : ChanItem) (rest : List ChanItem),
    let pane := paneId d p
    let s1 := s.advance pane dt
    let v := outletOf s1 pane k it
    let m := getF v F.PANE_CHOUT.MEM
    let q := getF v F.PANE_CHOUT.Q
    let l := getF v F.PANE_CHOUT.LATCH
    let j := getF v F.PANE_CHOUT.TDST
    let w := s1.chIn (if it.bank then 1 else 0) pane j
    let pair := getF w F.PANE_CHIN.MODE = 3 ∧ getF w F.PANE_CHIN.TSRC = k
    (inboundOf pane k = some (sp, sk, hinge) → (s1.chan sp sk).outCyc = s1.cyc pane + 1 → exec (.channelDeliver d p k dt) s = .next s1) ∧
    (HeadReady s1 pane k sp sk hinge it rest →
      (getF v F.PANE_CHOUT.MODE = 1 → s1.served pane (true, m, q) true (.chan k) = true → s1.queueMode pane m = true →
        (s1.discards pane m q = true ∨ s1.bindRoom pane m q = true →
          ∃ t, exec (.channelDeliver d p k dt) s = .next t ∧ Delivered s1 t d p k sp sk hinge it rest ∧
            t = { (s1.pushQueue pane m q it.word it.tag).2 with chans := t.chans, regs := t.regs } ∧ ChansBut s1 t [(sp, sk)] ∧
            RegsBut s1 t [R.PANE_CHSTAT d p k]) ∧
        (s1.discards pane m q = false → s1.bindRoom pane m q = false → exec (.channelDeliver d p k dt) s = .next s1)) ∧
      (getF v F.PANE_CHOUT.MODE = 1 → s1.served pane (true, m, q) true (.chan k) = false → exec (.channelDeliver d p k dt) s = .next s1) ∧
      (getF v F.PANE_CHOUT.MODE = 1 → s1.served pane (true, m, q) true (.chan k) = true → s1.queueMode pane m = false →
        (s1.pushPort pane m q it.word it.tag).1 = true →
        ∃ t, exec (.channelDeliver d p k dt) s = .next t ∧ Delivered s1 t d p k sp sk hinge it rest ∧
          t = { (s1.pushPort pane m q it.word it.tag).2 with chans := t.chans, regs := t.regs } ∧ ChansBut s1 t [(sp, sk)] ∧
          RegsBut s1 t [R.PANE_CHSTAT d p k]) ∧
      (getF v F.PANE_CHOUT.MODE = 2 → s1.latchTaken pane k l = false →
        ∃ t, exec (.channelDeliver d p k dt) s = .next t ∧ Delivered s1 t d p k sp sk hinge it rest ∧
          t = { s1 with chans := t.chans, regs := t.regs, panes := t.panes } ∧ ChansBut s1 t [(sp, sk)] ∧ PanesBut s1 t pane ∧
          t.pane pane = { s1.pane pane with latchW := (s1.pane pane).latchW ++ [(l, it.word)] } ∧ RegsBut s1 t [R.PANE_CHSTAT d p k]) ∧
      (getF v F.PANE_CHOUT.MODE = 3 → pair → s1.stageFree pane j = true → (s1.chan pane j).inCyc ≠ s1.cyc pane + 1 →
        ∃ t, exec (.channelDeliver d p k dt) s = .next t ∧ Delivered s1 t d p k sp sk hinge it rest ∧
          t = { s1 with chans := t.chans, regs := t.regs } ∧ ChansBut s1 t [(sp, sk), (pane, j)] ∧ RegsBut s1 t [R.PANE_CHSTAT d p k] ∧
          t.chan pane j = Entered (s1.chan pane j) ((nbr pane (j / 16)).any (·.2)) it (s1.cyc pane)) ∧
      (getF v F.PANE_CHOUT.MODE = 3 → pair → (s1.stageFree pane j = false ∨ (s1.chan pane j).inCyc = s1.cyc pane + 1) →
        exec (.channelDeliver d p k dt) s = .next s1) ∧
      (getF v F.PANE_CHOUT.MODE = 3 → ¬ pair →
        ∃ t, exec (.channelDeliver d p k dt) s = .next t ∧ t = { s1 with regs := t.regs } ∧ RegsBut s1 t [R.PANE_CHSTAT d p k] ∧
          t.flag (R.PANE_CHSTAT d p k) F.PANE_CHSTAT.MISM = true) ∧
      (getF v F.PANE_CHOUT.MODE = 0 → exec (.channelDeliver d p k dt) s = .next s1))
  )

/-- R104 and the model's idle step (log entry 6): with no command waiting the timebase clock makes one edge, at which the time takes a
setting that waits, or advances by 4 units of INCR, within INCR's limits, and by 5 while the timebase clock is FOSC (R321; log entries 36 and 127); it
makes none while the multiplexer of HL0's consumers holds its output low (R317; log entry 127), or while the sensors cool (R376). At that edge ends
what has waited too long: a chain stream of which no packet came for 3 s from the release of hub reset, or none for more than 10 ms, fails the boot
attempt with CHAIN (R347), and an access that has waited 50 µs for the path to a running die is over, a read with all ones, a write discarded (R422).
-/
def Obligations.IdleStepIsTimebaseEdge : Prop :=
  ∀ s : State, s.pending = [] → s.power = .on → ∃ e : State,
    (SMap.get 0 s.clk.mux 4 = 3 ∨ s.db.cool = true → e = s) ∧
    (SMap.get 0 s.clk.mux 4 ≠ 3 → s.db.cool = false → e = { s with tbu := e.tbu } ∧ e.tbu.setPend = none ∧ s.tbu.run < e.tbu.run ∧
      (∀ v, s.tbu.setPend = some v → e.tbu.time = v * 2 ^ 30) ∧
      (s.tbu.setPend = none → e.tbu.time = (s.tbu.time +
        (if SMap.get 0 s.clk.mux 4 = 0 then 5 else 4) * max 0x1C000000 (min (s.reg R.TBU_INCR).toNat 0x24000000)) % 2 ^ 94)) ∧
    let late := s.cfg.feed = .chain ∧ s.cfg.up = false ∧ s.chainWhole = false ∧
      (s.cfg.octs = [] → 3000000000 * 2 ^ 30 ≤ e.tbu.run) ∧ (s.cfg.octs ≠ [] → 10000000 * 2 ^ 30 < e.tbu.run - s.cfg.chainAt)
    (late → s.heldAcc = [] → ∃ t, step s = .next t ∧ t = { e.bootFailed 16 none with heldAcc := [] }) ∧
    (¬ late → s.heldAcc = [] → step s = .next e) ∧
    ∀ h, ¬ late → s.heldAcc = [h] →
      let away := fun (i : Nat) => ∃ d, dieOf (h.off + 4 * i) = some d ∧ s.dieDark d = false ∧ s.pathUp d = false
      (∀ i, i < h.words → away i → e.tbu.run < h.since + 50000 * 2 ^ 30 → step s = .next e) ∧
      (h.since + 50000 * 2 ^ 30 ≤ e.tbu.run → (∀ i, i < h.words → away i) →
        (∀ ws, h.write = some ws → step s = .next (({ e with heldAcc := [] } : State).accAnswer h [])) ∧
        (∀ row ix, h.write = none → h.n = 1 → regAt h.off = some (row, ix) → s.absent h.off row.kind ix = false →
          step s = .next (({ e with heldAcc := [] } : State).accAnswer h [0xFFFFFFFF])))

/-- R105, R106, Table 5.3. A write of TBU_SET_H takes TBU_SET_L as it stands; a read of TBU_NOW_L returns the low half of the nanoseconds and
captures them all; a read of TB_FRAMEL captures the frame number, the n for which τ(n) ≤ now < τ(n + 1), in two's complement. R106–R108. At the
first edge with a new frame number the domain issues a frame tick, with the line tick of line 0; a line tick at the start of each line; in PIN mode
an active edge half a period or more after the last begins a frame, an earlier one is ignored, and where none came for 1.25 periods the domain
begins it and sets REFLOST, and a further one each period. R118: a write of TBU_SET_H ends the arms of TIME domains that have not committed, with
cause 5. R112, R272. A record waits for a TICK flit at each hinge of the hub whose die has power; on a die it arrives at it goes on to the dies
beyond, and an arm, commit or disarm is noted for the die's members by the frame number it carries (log entry 122). -/
def Obligations.DeviceTimeAndTicks : Prop :=
  (
  (∀ (s : State) (v : BitVec 32),
    let ends := fun (i : Nat) => s.canEnd i = true ∧ (s.dom i).en = true ∧ (s.dom i).pinMode = false
    ∃ t, exec (.tbuSetHWrite v) s = .next t ∧
      t = { s with regs := t.regs, host := t.host, tickQ := t.tickQ, tbu := { s.tbu with setPend := t.tbu.setPend } } ∧
      RegsBut s t (R.TBU_SET_H :: (List.range 8).map R.SHT_STATUS) ∧ t.reg R.TBU_SET_H = v ∧
      t.tbu.setPend = some (v.toNat * 2 ^ 32 + (s.reg R.TBU_SET_L).toNat) ∧
      (∀ i, i < 8 → ends i → t.armState i = 4 ∧ t.fld (R.SHT_STATUS i) F.SHT_STATUS.CAUSE = 5 ∧ t.fld (R.SHT_STATUS i) F.SHT_STATUS.XEND = 1) ∧
      (∀ i, i < 8 → ¬ ends i → t.reg (R.SHT_STATUS i) = s.reg (R.SHT_STATUS i)) ∧
      ((∀ i, i < 8 → ¬ ends i) → t.host = s.host ∧ t.tickQ = s.tickQ)) ∧
  (∀ (s : State) (dt : Nat),
    let s1 := s.tbuEdges dt
    ∃ t, exec (.tbuNowLRead dt) s = .next t ∧ t = { s1 with tbu := { s1.tbu with capture := s1.tbu.time / 2 ^ 30 }, out := t.out } ∧
      t.out = .busRead R.TBU_NOW_L (BitVec.ofNat 32 (s1.tbu.time / 2 ^ 30)) :: s1.out) ∧
  (∀ (s : State) (i : Fin 8) (dt : Nat) (n : Int),
    let s1 := s.tbuEdges dt
    let now : Int := s1.tbu.time / 2 ^ 30
    TimeDomain (s1.dom i) → tauNs (s1.dom i) n ≤ now → now < tauNs (s1.dom i) (n + 1) →
    ∃ t, exec (.tbFramelRead i dt) s = .next t ∧ t = { s1 with doms := t.doms, out := t.out } ∧ DomsBut s1 t i ∧
      t.dom i = { s1.dom i with capture := (n % 2 ^ 48).toNat } ∧
      t.out = .busRead (R.TB_FRAMEL i) (BitVec.ofInt 32 n) :: s1.out)
  ) ∧
  (
  ∀ (s : State) (i : Fin 8) (dt : Nat),
    let s1 := s.tbuEdges dt
    let x := s1.dom i
    let gone := s1.tbu.run - x.began
    let p := x.den * 1000000000 * 2 ^ 30 / x.num
    let alike := fun (j : Nat) => (s1.dom j).pin = x.pin
    let sent := fun (t : State) (rs : List TickRec) =>
      ∀ e ∈ [12, 13], t.tickWait e = s1.tickWait e ++ (if (SMap.get {} s1.dies (tickDie e)).off then [] else rs)
    (∀ n : Int, TimeDomain x → tauNs x n ≤ (s1.tbu.time / 2 ^ 30 : Nat) → ((s1.tbu.time / 2 ^ 30 : Nat) : Int) < tauNs x (n + 1) → n ≠ x.ticked →
      s1.canEnd i = false →
      ∃ t evs, exec (.frameTick i dt) s = .next t ∧
        t = { s1 with doms := t.doms, out := t.out, tickQ := t.tickQ, gsnap := t.gsnap, gsnapDue := t.gsnapDue, regs := t.regs } ∧
        DomsBut s1 t i ∧ (t.dom i).ticked = n ∧ RegsBut s1 t ((List.range 32).map fun q => R.LANE_QCLK (q / 8) (q % 8)) ∧
        t.out = evs ++ s1.out ∧ ticksOf evs = (if (t.dom i).line = 0 then [.tick i true 0] else []) ++ [.tick i false n] ∧
        sent t (recordOf i 0 n :: if (t.dom i).line = 0 then [recordOf i 1 n] else []) ∧
        t.gsnapDue = s1.gsnapDue + (if s1.gsnap = true ∧ s1.fld R.TR_GSNAP F.TR_GSNAP.DOM = i then 1 else 0)) ∧
    (x.en = false ∨ s1.frameNow i = x.ticked → exec (.frameTick i dt) s = .next s1) ∧
    (x.en = true → s1.frameNow i = x.ticked → s1.lineNow i ≠ x.line →
      ∃ t evs, exec (.lineTick i dt) s = .next t ∧ t = { s1 with doms := t.doms, out := t.out, tickQ := t.tickQ } ∧ DomsBut s1 t i ∧
        t.dom i = { x with line := s1.lineNow i } ∧ t.out = evs ++ s1.out ∧ ticksOf evs = [.tick i true (s1.lineNow i)] ∧
        sent t [recordOf i 1 (s1.frameNow i)]) ∧
    (x.en = true → x.pinMode = true → s1.refPin x = true → x.pin < 64 →
      ∃ t, exec (.tbRefEdge i dt) s = .next t ∧ t = { s1 with doms := t.doms, pins := t.pins, regs := t.regs, fans := t.fans } ∧
        (∀ j, ¬ (j < 8 ∧ alike j) → t.dom j = s1.dom j) ∧ PinsBut s1 t x.pin ∧ (t.pin x.pin).filt = !x.fall ∧ RegsBut s1 t (pinRegs x.pin) ∧
        t.dom i = (if p ≤ 2 * gone then { x with frame := x.frame + 1, prevLen := gone, began := s1.tbu.run, lost := false } else x)) ∧
    (x.en = true → x.pinMode = true → x.lost = false → 5 * p ≤ 4 * gone →
      ∃ t, exec (.tbRefLost i dt) s = .next t ∧ t = { s1 with doms := t.doms, regs := t.regs } ∧ DomsBut s1 t i ∧
        t.dom i = { x with frame := x.frame + 1, prevLen := gone, began := s1.tbu.run, lost := true } ∧
        RegsBut s1 t [R.TB_CFG i] ∧ t.fld (R.TB_CFG i) F.TB_CFG.REFLOST = 1) ∧
    (x.en = true → x.pinMode = true → x.lost = true → p ≤ gone →
      ∃ t, exec (.tbRefLost i dt) s = .next t ∧ t = { s1 with doms := t.doms } ∧ DomsBut s1 t i ∧
        t.dom i = { x with frame := x.frame + 1, prevLen := gone, began := s1.tbu.run })
  ) ∧
  (
  (∀ (s : State) (i kind : Fin 8) (n : Int),
    let t := s.sendRec i kind n
    t = { s with tickQ := t.tickQ } ∧ (∀ e, e ≠ 12 → e ≠ 13 → t.tickWait e = s.tickWait e) ∧
    ∀ e ∈ [12, 13], t.tickWait e = s.tickWait e ++ (if (SMap.get {} s.dies (tickDie e)).off then [] else [recordOf i kind n])) ∧
  (∀ (s : State) (e d : Nat) (r : TickRec), endDie e = some d → d < 4 → r.kind.val < 5 → (SMap.get {} s.dies d).gcap = false →
    let t := s.takeTick e r
    t = { s with out := .tickArrive d r :: s.out, arms := t.arms, tickQ := t.tickQ } ∧ (∀ j, SameArm (s.arm j) (t.arm j)) ∧
    (∀ j, j ≠ r.dom.val → t.arm j = s.arm j) ∧
    (r.kind.val < 2 → t.arm r.dom = s.arm r.dom) ∧
    (r.kind.val = 2 → ((2, d) ∈ (t.arm r.dom).reach ↔
      (2, d) ∈ (s.arm r.dom).reach ∨ r.frame.val = ((s.arm r.dom).target % 2 ^ 24).toNat)) ∧
    (3 ≤ r.kind.val → ((r.kind.val, d) ∈ (t.arm r.dom).reach ↔
      (r.kind.val, d) ∈ (s.arm r.dom).reach ∨ (2, d) ∈ (s.arm r.dom).reach)) ∧
    (∀ x ∈ s.tickEnds (some d), (SMap.get {} s.dies (tickDie x)).off = false → t.tickWait x = s.tickWait x ++ [r]) ∧
    ∀ x, x ∉ s.tickEnds (some d) → t.tickWait x = s.tickWait x)
  )

/-- R109. A complete generation group that is valid is adopted whole, and AGEN and BAD say so, and an arm of the domain that is not yet
committed ends with cause 5; an invalid one changes AGEN and BAD alone. That `began` and `ticked` stand so at the adoption is log entry 136. -/
def Obligations.GenerationAdoption : Prop :=
  ∀ (s : State) (i : Fin 8) (dt : Nat),
    let s1 := s.tbuEdges dt
    let x := s1.dom i
    let st := R.SHT_STATUS i
    let c := s1.reg (R.TB_CFG i); let r := s1.reg (R.TB_RATE i); let l := s1.reg (R.TB_LINES i); let o := s1.reg (R.TB_OFFSET i)
    let num := getF r F.TB_RATE.NUM; let den := getF r F.TB_RATE.DEN
    let whole := getF r F.TB_RATE.GEN = getF c F.TB_CFG.GEN ∧ getF l F.TB_LINES.GEN = getF c F.TB_CFG.GEN ∧
      getF o F.TB_OFFSET.GEN = getF c F.TB_CFG.GEN ∧ getF c F.TB_CFG.AGEN ≠ getF c F.TB_CFG.GEN
    let valid := 1 ≤ num ∧ 1 ≤ den ∧ den ≤ num ∧ num ≤ 240 * den ∧ getF c F.TB_CFG.SRC < 2
    let adopted : DomainSt :=
      { en := decide (getF c F.TB_CFG.EN = 1), pinMode := decide (getF c F.TB_CFG.SRC = 1), pin := getF c F.TB_CFG.PIN,
        fall := decide (getF c F.TB_CFG.EDGE = 1), num := num, den := den, lines := getF l F.TB_LINES.LINES,
        offset := getF o F.TB_OFFSET.OFFSET, frame := 0, ticked := if x.en = true ∧ getF c F.TB_CFG.EN = 1 then x.ticked else 0,
        began := s1.tbu.run, line := x.line, capture := x.capture }
    (¬ whole → exec (.generationAdopt i dt) s = .next s1) ∧
    (whole → ¬ valid →
      ∃ t, exec (.generationAdopt i dt) s = .next t ∧ t = { s1 with regs := t.regs } ∧ RegsBut s1 t [R.TB_CFG i] ∧
        t.fld (R.TB_CFG i) F.TB_CFG.AGEN = getF c F.TB_CFG.GEN ∧ t.fld (R.TB_CFG i) F.TB_CFG.BAD = 1) ∧
    (whole → valid →
      ∃ t, exec (.generationAdopt i dt) s = .next t ∧
        t = { s1 with regs := t.regs, doms := t.doms, host := t.host, arms := t.arms, out := t.out, tickQ := t.tickQ } ∧ DomsBut s1 t i ∧
        RegsBut s1 t [R.TB_CFG i, st] ∧ t.fld (R.TB_CFG i) F.TB_CFG.AGEN = getF c F.TB_CFG.GEN ∧ t.fld (R.TB_CFG i) F.TB_CFG.BAD = 0 ∧
        t.dom i = adopted ∧ (∀ j, SameArm (s1.arm j) (t.arm j)) ∧
        (s1.canEnd i = false → t = { s1 with regs := t.regs, doms := t.doms } ∧ t.reg st = s1.reg st) ∧
        (s1.canEnd i = true → t.armState i = 4 ∧ t.fld st F.SHT_STATUS.CAUSE = 5 ∧ t.fld st F.SHT_STATUS.XEND = 1))

/-- R113. A GO while ARMED sets GOREJ; one that Table 5.11 refuses gives REFUSED with the code; else the target is resolved within its
window, and the domain is ARMED, a late arm with its first miss counted, or FAILED with cause 7 where it is late with RETRY 0.
R114–R116, R118. A member in the armed set receives the arm; ready, it acknowledges: one of the hub is heard at once, one of a fabric die sends a
record of kind 5 where its way is UP, and is heard when the hub takes the record of its arm (log entry 122); ABORT ends an arm not yet committed and
is ignored after; a member receives the disarm of an ended arm, or the arm that followed; an armed tick with members missing is a miss that fails the
arm past RETRY, and with none missing sends the commit. -/
def Obligations.ArmingACommit : Prop :=
  (
  ∀ (s : State) (i : Fin 8) (v : BitVec 32),
    let st := R.SHT_STATUS i
    let c := s.frameNow i
    (s.armState i = 1 → v.getLsbD 30 = false →
      ∃ t, exec (.shtArmGo i v) s = .next t ∧ t = { s with regs := t.regs } ∧ RegsBut s t [st, R.SHT_ARM i] ∧
        t.fld st F.SHT_STATUS.GOREJ = 1 ∧ t.armState i = 1) ∧
    (s.armState i ≠ 1 → s.goCheck i ≠ 0 →
      ∃ t, exec (.shtArmGo i v) s = .next t ∧ t = { s with regs := t.regs } ∧ RegsBut s t [st, R.SHT_ARM i] ∧
        t.armState i = 5 ∧ t.fld st F.SHT_STATUS.CAUSE = s.goCheck i) ∧
    (∀ m d, m ∈ s.setOf i → memberDie m = some d → ((SMap.get {} s.dies d).off = true ∨ ∃ q, s.park = some ⟨d, q⟩) →
      s.goCheck i = 1 ∨ s.goCheck i = 2) ∧
    (∀ n, s.armState i ≠ 1 → s.goCheck i = 0 → (v.getLsbD 29 = true ∧ n = c + 1 ∨ v.getLsbD 29 = false ∧ NamesFrame v c n ∧ c < n) →
      ∃ t, exec (.shtArmGo i v) s = .next t ∧ t = { s with regs := t.regs, arms := t.arms, out := t.out, tickQ := t.tickQ } ∧
        RegsBut s t [st, R.SHT_ARM i] ∧
        t.armState i = 1 ∧ t.fld st F.SHT_STATUS.MISSES = 0 ∧ t.fld st F.SHT_STATUS.CAUSE = 0 ∧
        SameArm { target := n, retry := getF v F.SHT_ARM.RETRY, seq := (s.arm i).seq + 1 } (t.arm i) ∧ ∀ j, j ≠ i.val → t.arm j = s.arm j) ∧
    (∀ n, s.armState i ≠ 1 → s.goCheck i = 0 → v.getLsbD 29 = false → NamesFrame v c n → n ≤ c →
      ∃ t, exec (.shtArmGo i v) s = .next t ∧
        t = { s with regs := t.regs, arms := t.arms, host := t.host, out := t.out, tickQ := t.tickQ } ∧ (∀ j, j ≠ i.val → t.arm j = s.arm j) ∧
        RegsBut s t [st, R.SHT_ARM i, R.SHT_MISS i] ∧ MissNoted t i (s.setOf i) ∧ t.fld st F.SHT_STATUS.MISSES = 1 ∧
        (getF v F.SHT_ARM.RETRY ≠ 0 → t.armState i = 1 ∧ t.fld st F.SHT_STATUS.CAUSE = 0 ∧
          SameArm { target := c + 1, retry := getF v F.SHT_ARM.RETRY, seq := (s.arm i).seq + 1 } (t.arm i)) ∧
        (getF v F.SHT_ARM.RETRY = 0 → t.armState i = 3 ∧ t.fld st F.SHT_STATUS.CAUSE = 7 ∧ t.fld st F.SHT_STATUS.XEND = 1 ∧
          SameArm (s.arm i) (t.arm i)))
  ) ∧
  (
  ∀ (s : State) (i : Fin 8),
    let st := R.SHT_STATUS i
    (∀ m : Fin 912, s.canEnd i = true → s.inSet i m = true → s.reached0 i 2 m = true →
      (∀ j, j < i.val → ¬ (s.canEnd j = true ∧ s.inSet j m = true ∧ s.reached0 j 2 m = true)) → SMap.get 0 s.armedBy m = 0 →
      ∃ t, exec (.armReceive m) s = .next t ∧ t = { s with armedBy := t.armedBy } ∧ SMap.get 0 t.armedBy m = s.armTag i ∧
        ∀ j, j ≠ m.val → SMap.get 0 t.armedBy j = SMap.get 0 s.armedBy j) ∧
    (∀ m : Fin 912, s.canEnd i = true → SMap.get 0 s.armedBy m = s.armTag i →
      (s.memberReady m = true → memberDie m = none → m.val ∉ (s.arm i).acked →
        ∃ t, exec (.memberAcknowledge m) s = .next t ∧ t = { s with arms := t.arms } ∧
          t.arm i = { s.arm i with acked := (s.arm i).acked ++ [m.val] } ∧ ∀ j, j ≠ i.val → t.arm j = s.arm j) ∧
      (∀ d, s.memberReady m = true → memberDie m = some d → s.pathUp d = true → m.val ∉ (s.arm i).said →
        ∃ t, exec (.memberAcknowledge m) s = .next t ∧ t = { s with arms := t.arms, tickQ := t.tickQ } ∧
          t.arm i = { s.arm i with said := (s.arm i).said ++ [m.val] } ∧ (∀ j, j ≠ i.val → t.arm j = s.arm j) ∧
          (∀ e, e ≠ s.hubEnd d → t.tickWait e = s.tickWait e) ∧
          ((SMap.get {} s.dies (beyondEnd (s.hubEnd d))).off = false →
            t.tickWait (s.hubEnd d) = s.tickWait (s.hubEnd d) ++ [{ recordOf i 5 (s.arm i).target with mem := Fin.ofNat 1024 m }])) ∧
      (s.memberReady m = false ∨ (∃ d, memberDie m = some d ∧ s.pathUp d = false) → exec (.memberAcknowledge m) s = .next s)) ∧
    (∀ (e : Nat) (r : TickRec), endDie e = none → r.kind = 5 → r.dom = i →
      (s.canEnd i = true → r.frame.val = ((s.arm i).target % 2 ^ 24).toNat → r.mem.val ∉ (s.arm i).acked →
        s.takeTick e r = { s with arms := (s.takeTick e r).arms } ∧
        (s.takeTick e r).arm i = { s.arm i with acked := (s.arm i).acked ++ [r.mem.val] } ∧
        ∀ j, j ≠ i.val → (s.takeTick e r).arm j = s.arm j) ∧
      (s.canEnd i = false ∨ r.frame.val ≠ ((s.arm i).target % 2 ^ 24).toNat → s.takeTick e r = s)) ∧
    (∀ m : Fin 912, let a := SMap.get 0 s.armedBy m; let j := (a - 1) % 8
      a ≠ 0 → (s.armState j ≠ 1 ∨ a ≠ s.armTag j) → s.reached0 j (if a = s.armTag j then 4 else 2) m = true →
      ∃ t, exec (.disarm m) s = .next t ∧ t = { s with armedBy := t.armedBy } ∧ SMap.get 0 t.armedBy m = 0 ∧
        ∀ j, j ≠ m.val → SMap.get 0 t.armedBy j = SMap.get 0 s.armedBy j) ∧
    (∀ v : BitVec 32, s.canEnd i = true →
      ∃ t, exec (.abort i v) s = .next t ∧
        t = { s with regs := t.regs, host := t.host, arms := t.arms, out := t.out, tickQ := t.tickQ } ∧ RegsBut s t [st, R.SHT_ARM i] ∧
        (∀ j, SameArm (s.arm j) (t.arm j)) ∧
        t.armState i = 4 ∧ t.fld st F.SHT_STATUS.CAUSE = 6 ∧ t.fld st F.SHT_STATUS.XEND = 1) ∧
    (∀ v : BitVec 32, s.armState i = 1 → (s.arm i).sent = true →
      ∃ t, exec (.abort i v) s = .next t ∧ t = { s with regs := t.regs } ∧ RegsBut s t [R.SHT_ARM i]) ∧
    (∀ (dt : Nat) (n : Int), let s1 := s.tbuEdges dt
      TimeDomain (s1.dom i) → n = s1.frameNow i → n ≠ (s1.dom i).ticked → s1.canEnd i = true → (s1.arm i).target ≤ n →
      (s1.unacked i = [] → ∃ t, exec (.frameTick i dt) s = .next t ∧ (t.arm i).sent = true ∧ (t.arm i).frame = n ∧
        (t.arm i).switched = (s1.setOf i).filter s1.clockStopped ∧ t.reg st = s1.reg st ∧ t.bank = s1.bank) ∧
      (s1.unacked i ≠ [] → s1.fld st F.SHT_STATUS.MISSES < 15 →
        ∃ t, exec (.frameTick i dt) s = .next t ∧ (∀ j, SameArm (s1.arm j) (t.arm j)) ∧ t.bank = s1.bank ∧ MissNoted t i (s1.unacked i) ∧
          t.fld st F.SHT_STATUS.MISSES = s1.fld st F.SHT_STATUS.MISSES + 1 ∧
          ((s1.arm i).retry ≠ 15 ∧ (s1.arm i).retry ≤ s1.fld st F.SHT_STATUS.MISSES →
            t.armState i = 3 ∧ t.fld st F.SHT_STATUS.CAUSE = 7 ∧ t.fld st F.SHT_STATUS.XEND = 1) ∧
          (¬ ((s1.arm i).retry ≠ 15 ∧ (s1.arm i).retry ≤ s1.fld st F.SHT_STATUS.MISSES) → t.armState i = 1)))
  )

/-- R111, R112, R117. At its switching edge a member's copies exchange roles, and no other member's do; a member switches only for the commit of the
arm it has received, and one on a fabric die only once that commit's record has come there; when every member has switched the domain is COMMITTED,
CFRAME takes the frame, the set map clears and CDONE is set. -/
def Obligations.CommitSwitches : Prop :=
  (∀ (s : State) (m : Nat) (c : Instr) (s1 : State),
    ((∃ d p dt, c = .paneSwitch d p dt ∧ m = paneId d p ∧ s1 = s.advance m dt) ∨ (∃ d e, c = .engineSwitch d e ∧ m = engMember d e ∧ s1 = s) ∨
      (∃ d l, c = .laneSwitch d l ∧ m = laneMember d l ∧ s1 = s) ∨ (∃ b, c = .ddrQosSwitch b ∧ m = ddrMember b ∧ s1 = s) ∨
      (∃ b, c = .pinBankSwitch b ∧ m = pinMember b ∧ s1 = s)) →
    ∀ i, s1.commitFor m = some i → s1.clockStopped m = false →
    ∃ t, exec c s = .next t ∧ t.liveCopy m = 1 - s1.liveCopy m ∧ (∀ j, j ≠ m → t.liveCopy j = s1.liveCopy j) ∧
      t.arm i = { s1.arm i with switched := (s1.arm i).switched ++ [m] } ∧ t.stv = s1.stv ∧ t.frames = s1.frames) ∧
  (∀ (s : State) (d : Fin 4) (p : Fin 64) (dt : Nat), let pane := paneId d p; let s1 := s.advance pane dt
    (s1.commitFor pane = none → exec (.paneSwitch d p dt) s = .next s1) ∧
    ∀ i, s1.commitFor pane = some i → s1.clockStopped pane = true →
      ∃ t, exec (.paneSwitch d p dt) s = .next t ∧ t = { s1 with panes := t.panes, arms := t.arms } ∧ PanesBut s1 t pane ∧
        t.pane pane = { s1.pane pane with switchPend := (s1.pane pane).switchPend + 1 } ∧
        t.arm i = { s1.arm i with switched := (s1.arm i).switched ++ [pane] }) ∧
  (∀ (s : State) (m i : Nat), s.commitFor m = some i → s.armState i = 1 ∧ (s.arm i).sent = true ∧ SMap.get 0 s.armedBy m = s.armTag i ∧
    (∀ d, memberDie m = some d → (3, d) ∈ (s.arm i).reach)) ∧
  (∀ (s : State) (i : Fin 8), let st := R.SHT_STATUS i
    s.armState i = 1 → (s.arm i).sent = true → (∀ m ∈ s.setOf i, m ∈ (s.arm i).switched) →
    ∃ t, exec (.commitComplete i) s = .next t ∧ t = { s with regs := t.regs, armedBy := t.armedBy, host := t.host } ∧
      t.armState i = 2 ∧ (t.fld st F.SHT_STATUS.CFRAME : Int) = (s.arm i).frame % 65536 ∧ t.fld st F.SHT_STATUS.CDONE = 1 ∧
      (∀ k, k < 32 → t.reg (R.SHT_SET i k) = 0) ∧ (∀ m ∈ s.setOf i, SMap.get 0 t.armedBy m = 0) ∧
      RegsBut s t (st :: (List.range 32).map (R.SHT_SET i)))

/-- Table 6.5, R128: the products and sums of the MAC slot. Each accumulator half takes the exact value clamped to 56 bits, AOV notes a
clamp, and the operations that name only re leave im as it is. -/
def Obligations.EngineAccumulates : Prop :=
  EngClaim .cmul 1 0x01 (MacPost fun a b c d _ _ => (a * c - b * d, a * d + b * c)) ∧
  EngClaim .cmac 1 0x02 (MacPost fun a b c d r i => (r + (a * c - b * d), i + (a * d + b * c))) ∧
  EngClaim .cmsu 1 0x03 (MacPost fun a b c d r i => (r - (a * c - b * d), i - (a * d + b * c))) ∧
  EngClaim .cmacj 1 0x04 (MacPost fun a b c d r i => (r + (a * c + b * d), i + (b * c - a * d))) ∧
  EngClaim .dmul 1 0x08 (MacPost fun a b c d _ _ => (a * c, b * d)) ∧
  EngClaim .dmac 1 0x09 (MacPost fun a b c d r i => (r + a * c, i + b * d)) ∧
  EngClaim .pwr 1 0x0A (MacPost fun a b _ _ r i => (r + (a * a + b * b), i)) ∧
  EngClaim .ald 1 0x10 (MacPost fun a b _ _ _ _ => (a * 2 ^ 19, b * 2 ^ 19)) ∧
  EngClaim .aclr 1 0x11 (MacPost fun _ _ _ _ _ _ => (0, 0))

/-- R129, R130: a move rounds each half to the nearest integer, halves to even, clamps it and writes VD; MSAT notes a clamp, CLR clears
the accumulator, and MOVA feeds both written halves to the tracker.
Table 6.7, Table 6.8, R130, R132, R133: moves, compares, control registers and index registers. -/
def Obligations.EngineMovesAndControl : Prop :=
  (
  EngClaim .mova 1 0x18 (fun x w y =>
    let k := bitsOf w 19 18
    ∃ (qr qi : Int) (r : Word) (mr mi : Nat),
      Nearest (19 + moveShift x) (SMap.get 0 x.aRe k) qr ∧ Nearest (19 + moveShift x) (SMap.get 0 x.aIm k) qi ∧
      reOf r = clampTo 20 qr ∧ imOf r = clampTo 20 qi ∧ IsM (reOf r) mr ∧ IsM (imOf r) mi ∧
      y = Cleared w { x with v := SMap.set 0 x.v (x.phys (bitsOf w 5 0)) r, bexp := tracked x.bexp (max mr mi),
                             estat := if clampTo 20 qr ≠ qr ∨ clampTo 20 qi ≠ qi then x.estat ||| 1 else x.estat }) ∧
  EngClaim .movaw 1 0x19 (fun x w y =>
    ∃ (q : Int) (r : Word), Nearest (moveShift x) (SMap.get 0 x.aRe (bitsOf w 19 18)) q ∧ r.toInt = clampTo 40 q ∧
      y = Cleared w { x with v := SMap.set 0 x.v (x.phys (bitsOf w 5 0)) r,
                             estat := if clampTo 40 q ≠ q then x.estat ||| 1 else x.estat })
  ) ∧
  (
  EngClaim .engMov 2 0x01 (WordPost fun x w => x.vr (bitsOf w 11 6)) ∧
  EngClaim .movi 2 0x02 (WordPost fun _ w => (BitVec.ofNat 12 (bitsOf w 11 0)).signExtend 40) ∧
  EngClaim .engMovk 2 0x03 (WordPost fun x w => ((x.vr (bitsOf w 17 12)) <<< 12) ||| BitVec.ofNat 40 (bitsOf w 11 0)) ∧
  EngClaim .cmpeq 2 0x1C (PredPost fun _ a b => decide (a = b)) ∧
  EngClaim .cmplt 2 0x1D (PredPost fun _ a b => decide (a.toInt < b.toInt)) ∧
  EngClaim .cmpltu 2 0x1E (PredPost fun _ a b => decide (a.toNat < b.toNat)) ∧
  EngClaim .pset 2 0x1F (PredPost fun w _ _ => w.testBit 0) ∧
  EngClaim .mfc 2 0x20 (WordPost fun x w =>
    let k := bitsOf w 11 6
    if k = 0 then x.scl else if k = 1 then x.bexp else if k = 2 then x.rrb else if k ≤ 5 then BitVec.ofNat 40 (SMap.get 0 x.lc (k - 3))
    else if k = 6 then x.estat.setWidth 40 else if k = 7 then x.p.setWidth 40 else (SMap.get 0 x.x (k - 8)).setWidth 40) ∧
  EngClaim .mtc 2 0x21 (fun x w y =>
    let k := bitsOf w 17 12
    let v := x.vr (bitsOf w 11 6)
    let z := 8 * (bitsOf v.toNat 5 3 + 1)
    y = if k = 0 then { x with scl := v &&& 0x7F }
        else if k = 1 then { x with bexp := v &&& 0xFF0F1F }
        else if k = 2 then { x with rrb := BitVec.ofNat 40 (bitsOf v.toNat 6 0 + 2 ^ 7 * (bitsOf v.toNat 12 7 % z)) }
        else if k = 6 then { x with estat := v.setWidth 3 }
        else if k = 7 then { x with p := v.setWidth 8 ||| 1 }
        else { x with x := SMap.set 0 x.x (k - 8) (v.setWidth 20 &&& 0xF7FFF) }) ∧
  EngClaim .xadd 2 0x22 (fun x w y =>
    let k := bitsOf w 14 12
    y = { x with x := SMap.set 0 x.x k (stepped (SMap.get 0 x.x k) (BitVec.ofNat 12 (bitsOf w 11 0)).toInt) }) ∧
  EngClaim .xcp 2 0x23 (fun x w y => y = { x with x := SMap.set 0 x.x (bitsOf w 14 12) (SMap.get 0 x.x (bitsOf w 8 6)) }) ∧
  EngClaim .bxt 2 0x28 (fun x w y =>
    ∃ mr mi, IsM (reOf (x.vr (bitsOf w 11 6))) mr ∧ IsM (imOf (x.vr (bitsOf w 11 6))) mi ∧ y = { x with bexp := tracked x.bexp (max mr mi) })
  )

/-- Table 6.7: the lane-wise and logical operations of the ALU slot, in the lanes of the slot's mode; ASAT notes a clamp. -/
def Obligations.EngineArithmetic : Prop :=
  EngClaim .engAdd 2 0x08 (LanePost fun m _ j a b => laneS m j a + laneS m j b) ∧
  EngClaim .engSub 2 0x09 (LanePost fun m _ j a b => laneS m j a - laneS m j b) ∧
  EngClaim .engAdds 2 0x0A (SatPost fun m j a b => laneS m j a + laneS m j b) ∧
  EngClaim .engSubs 2 0x0B (SatPost fun m j a b => laneS m j a - laneS m j b) ∧
  EngClaim .min 2 0x0C (LanePost fun m _ j a b => if laneS m j a ≤ laneS m j b then laneS m j a else laneS m j b) ∧
  EngClaim .max 2 0x0D (LanePost fun m _ j a b => if laneS m j a ≤ laneS m j b then laneS m j b else laneS m j a) ∧
  EngClaim .abs 2 0x0E (SatPost fun m j a _ => if laneS m j a < 0 then -(laneS m j a) else laneS m j a) ∧
  EngClaim .neg 2 0x0F (SatPost fun m j a _ => -(laneS m j a)) ∧
  EngClaim .engAnd 2 0x10 (WordPost fun x w => x.vr (bitsOf w 11 6) &&& x.vr (bitsOf w 5 0)) ∧
  EngClaim .engOr 2 0x11 (WordPost fun x w => x.vr (bitsOf w 11 6) ||| x.vr (bitsOf w 5 0)) ∧
  EngClaim .engXor 2 0x12 (WordPost fun x w => x.vr (bitsOf w 11 6) ^^^ x.vr (bitsOf w 5 0)) ∧
  EngClaim .engShl 2 0x14 (LanePost fun m k j a _ => if k < laneW m then (lane m j a : Int) * 2 ^ k else 0) ∧
  EngClaim .engShr 2 0x15 (LanePost fun m k j a _ => if k < laneW m then (lane m j a : Int) / 2 ^ k else 0) ∧
  EngClaim .engSar 2 0x16 (LanePost fun m k j a _ => if k < laneW m then laneS m j a / 2 ^ k else if laneS m j a < 0 then -1 else 0) ∧
  EngClaim .conj 2 0x18 (SatPost fun m j a _ => if j = 1 then laneS m 1 a else -(laneS m 0 a)) ∧
  EngClaim .swaph 2 0x19 (WordPost fun x w => let a := x.vr (bitsOf w 11 6); (a <<< 20) ||| (a >>> 20))

/-- Table 6.9, R133, R134: loads and stores of data memory at the index register's address, or one step on; a single-bit error is corrected and
noted, an uncorrectable one faults the engine after the bundle. R135–R137: the streams and the transom. SPOP pops the consumer queue of its port
into VV with the tag in PT and whether a word was real in PV; SPUSH pushes VV with its tag to the producer queue, PA saying whether it was accepted;
SSLAM slams the consumer queue; TRD sends one request of n words from the engine's own port, TWR begins one whose words port B then reads, one in a
cycle, and each steps Xk past them. An SPOP finds a word from the cell cycle after the one it was pushed in (the model's choice within R135's bound,
log entry 159), and takes the idle word where it finds none. WAIT on a queue that cannot serve stalls, and so does a request past 16 pending at the
edge that begins the cycle, or with no tag free (log entry 108). An SPOP whose PT and PV name one predicate leaves PV's value in it (log entry 109).
Port B sends a TWR with its last word; one that met an uncorrectable word sets DUE and completes with CPLE DATA, or, posted, is dropped (R134; log
entries 142 and 143). -/
def Obligations.EngineMemoryAndStreams : Prop :=
  (
  ∀ (s : State) (d : Fin 4) (e : Fin 128) (dt w : Nat),
    let g := engId d e
    let s1 := cycleOf s g dt
    let x := s1.eng g
    let v := bitsOf w 19 14
    let k := bitsOf w 13 11
    let xk := SMap.get 0 x.x k
    let next := stepped xk (BitVec.ofNat 11 (bitsOf w 10 0)).toInt
    let here := bitsOf xk.toNat 14 0
    let there := bitsOf next.toNat 14 0
    let loaded := fun (a : Nat) (xs : SMap (BitVec 20)) => bundleEnd x { x with v := SMap.set 0 x.v (x.phys v) (s1.dmWord g a).word, x := xs }
    let fixed := fun (a : Nat) => if (s1.dmWord g a).bad = 1 then
      (s1.setDm g a { s1.dmWord g a with bad := 0 }).setFld (engErr g) F.ENG_ERR.CE 1 else s1
    BundleReady s1 g → SlotExecutes s1 g 0 w → OthersIdle s1 g 0 →
    (slotOp w = 0x01 → (s1.dmWord g here).bad ≠ 2 →
      exec (.ld d e dt) s = .next ((fixed here).setEng g (loaded here (SMap.set 0 x.x k next)))) ∧
    (slotOp w = 0x02 → (s1.dmWord g there).bad ≠ 2 → exec (.ldo d e dt) s = .next ((fixed there).setEng g (loaded there x.x))) ∧
    (slotOp w = 0x03 → exec (.st d e dt) s = .next ((s1.setDm g here { word := x.vr v }).setEng g
      (bundleEnd x { x with x := SMap.set 0 x.x k next }))) ∧
    (slotOp w = 0x04 → exec (.sto d e dt) s = .next ((s1.setDm g there { word := x.vr v }).setEng g (bundleEnd x x))) ∧
    (slotOp w = 0x01 → (s1.dmWord g here).bad = 2 → ∃ t : State, exec (.ld d e dt) s = .next (t.settlePortB g) ∧ (t.eng g).state = .fault ∧
      t.flag (engErr g) F.ENG_ERR.DUE = true ∧ t.dm = s1.dm) ∧
    (slotOp w = 0x02 → (s1.dmWord g there).bad = 2 → ∃ t : State, exec (.ldo d e dt) s = .next (t.settlePortB g) ∧ (t.eng g).state = .fault ∧
      t.flag (engErr g) F.ENG_ERR.DUE = true ∧ t.dm = s1.dm)
  ) ∧
  (
  ∀ (s : State) (d : Fin 4) (e : Fin 128) (dt w : Nat),
    let g := engId d e
    let s1 := cycleOf s g dt
    let x := s1.eng g
    let v := bitsOf w 19 14
    let k := bitsOf w 13 11
    let n := bitsOf w 10 6 + 1
    let pane := engPane g
    let cq := streamQ s1 g (bitsOf w 13 13) false
    let pq := streamQ s1 g (bitsOf w 13 13) true
    let p := s1.popEngine pane cq.2.1 cq.2.2
    let u := s1.pushBound pane pq.2.1 pq.2.2 (x.vr v) (w.testBit 12)
    let free := s1.freeTag (engPort g) 16
    let pend := (s.advance pane dt).engTpend g
    let tag : Fin 1024 := Fin.ofNat 1024 (free.getD 0)
    let xk := SMap.get 0 x.x k
    let writes : Packet := { src := engPort g, cmd := if w.testBit 5 then cWRP else cWR, prio := s1.portPrio pane (10 + g % 2), tag := tag,
                             len := Fin.ofNat 65 n, addr := x.vr v }
    let stall := fun c => (s1.addSat (R.ENG_STALLS d e) F.ENG_STALLS.COUNT 1).setEng g { x with stall := c, wdog := x.wdog - 1 }
    BundleReady s1 g → SlotExecutes s1 g 0 w → OthersIdle s1 g 0 →
    (slotOp w = 0x08 → cq.1 = true → (w.testBit 6 = false ∨ p.1.2.2 = true) → exec (.spop d e dt) s = .next (p.2.setEng g
      (bundleEnd x { x with v := SMap.set 0 x.v (x.phys v) p.1.1,
                            p := withPred (withPred x.p (bitsOf w 12 10) p.1.2.1) (bitsOf w 9 7) p.1.2.2 }))) ∧
    (slotOp w = 0x08 → cq.1 = true → w.testBit 6 = true → p.1.2.2 = false → exec (.spop d e dt) s = .next (stall 1)) ∧
    (slotOp w = 0x08 → cq.1 = false → exec (.spop d e dt) s = .next ((s1.setFld (engErr g) F.ENG_ERR.UNB 1).setEng g
      (bundleEnd x { x with v := SMap.set 0 x.v (x.phys v) 0, p := withPred (withPred x.p (bitsOf w 12 10) false) (bitsOf w 9 7) false }))) ∧
    (slotOp w = 0x09 → pq.1 = true → u.1 = true → exec (.spush d e dt) s = .next (u.2.setEng g
      (bundleEnd x { x with p := withPred x.p (bitsOf w 9 7) true }))) ∧
    (slotOp w = 0x09 → pq.1 = true → u.1 = false → w.testBit 6 = true → exec (.spush d e dt) s = .next (stall 2)) ∧
    (slotOp w = 0x09 → pq.1 = true → u.1 = false → w.testBit 6 = false → exec (.spush d e dt) s = .next (u.2.setEng g
      (bundleEnd x { x with
        p := withPred x.p (bitsOf w 9 7) false, refCyc := if s1.queueMode pane pq.2.1 then s1.cyc pane + 1 else x.refCyc,
        refP := if s1.queueMode pane pq.2.1 then bitsOf w 9 7 else x.refP }))) ∧
    (slotOp w = 0x0A → cq.1 = true → s1.queueMode pane cq.2.1 = true →
      exec (.sslam d e dt) s = .next ((s1.slamBound pane cq.2.1 cq.2.2).setEng g (bundleEnd x x))) ∧
    (slotOp w = 0x09 → pq.1 = false →
      let b := s1.engBinding g (bitsOf w 13 13) true
      let turned := if s1.bound pane b.1 b.2.1 b.2.2 ∧ s1.queueMode pane b.2.1 then s1.refuse pane b.2.1 b.2.2 1 else s1
      exec (.spush d e dt) s = .next ((turned.setFld (engErr g) F.ENG_ERR.UNB 1).setEng g
        (bundleEnd x { x with p := withPred x.p (bitsOf w 9 7) false }))) ∧
    (slotOp w = 0x0A → (cq.1 = false ∨ s1.queueMode pane cq.2.1 = false) → exec (.sslam d e dt) s = .next (s1.setEng g (bundleEnd x x))) ∧
    (slotOp w = 0x10 → pend < 16 → free ≠ none → exec (.engTrd d e dt) s = .next ((s1.sendReq
        { src := engPort g, cmd := cRD, prio := s1.portPrio pane (10 + g % 2), tag := tag, len := Fin.ofNat 65 n, addr := x.vr v }
        (.engRead g xk n)).setEng g (bundleEnd x { x with x := SMap.set 0 x.x k (stepped xk n) }))) ∧
    (slotOp w = 0x11 → pend < 16 → (free ≠ none ∨ w.testBit 5 = true) →
      exec (.engTwr d e dt) s = .next ((s1.holdTag writes (.engWrite g)).setEng g (bundleEnd x { x with
        x := SMap.set 0 x.x k (stepped xk n), twr := x.twr ++ [{ pk := writes, x := xk, left := n, due := false }] }))) ∧
    (slotOp w = 0x10 → (16 ≤ pend ∨ free = none) → exec (.engTrd d e dt) s = .next (stall 3)) ∧
    (slotOp w = 0x11 → (16 ≤ pend ∨ (free = none ∧ w.testBit 5 = false)) → exec (.engTwr d e dt) s = .next (stall 3))
  ) ∧
  (
  ∀ (s : State) (pane m q : Nat), m < 6 → q < 4 → s.queueMode pane m = true →
    let blk := pane * 6 + m
    let x := s.queue blk q
    let r := s.popEngine pane m q
    ((∀ e ∈ x.slots.head?, e.filled = false ∨ s.cyc pane < e.acc) → r = ((s.idleWord pane m q, false, false), s)) ∧
    (∀ e rest, x.slots = e :: rest → e.filled = true → e.acc ≤ s.cyc pane → (s.entry blk e.pos).bad = 0 →
      r.1 = ((s.entry blk e.pos).word, (s.entry blk e.pos).tag, true) ∧ r.2 = { s with queues := r.2.queues } ∧
      (∀ b i, b * 4 + i ≠ blk * 4 + q → r.2.queue b i = s.queue b i) ∧ (r.2.queue blk q).slots = rest ∧
      (r.2.queue blk q).cOut = x.cOut + 1 ∧ (r.2.queue blk q).cIn = x.cIn)
  ) ∧
  (
  ∀ (s : State) (g : Nat) (b : TwrSt) (bs : List TwrSt),
    let x := s.eng g
    let read := s.dmWord g (bitsOf b.x.toNat 14 0)
    let pk := { b.pk with data := b.pk.data ++ [read.word] }
    (x.twr = [] → s.portB g = s) ∧
    (x.twr = b :: bs → read.bad = 0 →
      (1 < b.left → s.portB g = s.setEng g { x with twr := { b with pk := pk, x := stepped b.x 1, left := b.left - 1 } :: bs }) ∧
      (b.left ≤ 1 → b.due = false → s.portB g = (s.setEng g { x with twr := bs }).routeReq pk)) ∧
    (x.twr = b :: bs → read.bad = 2 → 1 < b.left →
      s.portB g = s.setEng g { x with twr := { b with pk := pk, x := stepped b.x 1, left := b.left - 1, due := true } :: bs }) ∧
    (x.twr = b :: bs → b.left ≤ 1 → read.bad = 2 ∨ (read.bad = 0 ∧ b.due = true) →
      let told := (s.setEng g { x with twr := bs }).engRaise g F.ENG_ERR.DUE
      told.flag (engErr g) F.ENG_ERR.DUE = true ∧ told.fld (engErr g) F.ENG_ERR.FPC = s.fld (engErr g) F.ENG_ERR.FPC ∧
      s.portB g = if posted b.pk.cmd then told
        else told.launch { dst := b.pk.src, src := b.pk.src, cmd := cCPLE, prio := b.pk.prio, tag := b.pk.tag, ecode := eDATA })
  )

/-- R139–R142, Table 6.10: the branch slot. A taken branch, call or return goes to its target after a gap of two cycles, in which the watchdog
counts, and expires where it reaches 0, and port B reads on; loops set their counter and record; WDOG (also in the cycle that
would bring the count to 0, log entry 162), BLK, SIG, STOP and TWAIT as their rows say.
R123, R126, R140, R142, R143: what any bundle does. Slot NOPs only pass the PC on; at the last bundle of a loop its counter falls by one and
the PC goes back, or past it at zero; an illegal slot, an unreadable bundle or a loop fault leaves the bundle without effect and the
engine in FAULT; so does an MTC of an illegal value to RRB (R127); of two slots that write one V register the later one stands, both reading the
values at the cycle's start, with WCOL. ENG_ERR.SLOT shows the lowest illegal slot (log entry 110), and as an engine leaves RUN the words of its TWRs
are read (log entry 21).
R143, R144, R298: START and STOP, and a watchdog that has reached zero, also in the cycle that ends the execution (log entry 146); an engine of a die
that is being parked does not start (log entry 156). -/
def Obligations.EngineProgramFlow : Prop :=
  (
  ∀ (s : State) (d : Fin 4) (e : Fin 128) (dt w : Nat),
    let g := engId d e
    let s1 := cycleOf s g dt
    let x := s1.eng g
    let y := { x with wdog := x.wdog - 1, stall := 0 }
    let pend := (s.advance (engPane g) dt).engTpend g
    let gap := fun (t : State) => (t.portB g).setEng g { (t.portB g).eng g with wdog := (t.eng g).wdog - 1 }
    let goes := fun (z : EngSt) => gap (gap (s1.setEng g z))
    let lasts := x.wdLoad = 0 ∨ 3 ≤ x.wdog
    let period := s1.fld (R.ENG_WDT d e) F.ENG_WDT.PERIOD
    let nv := (x.vr (bitsOf w 10 5)).toNat % 65536
    let np := (x.vr (bitsOf w 8 3)).toNat % 65536
    let st := bitsOf w 11 9
    let begun := fun (l : LoopRec) (n : Nat) =>
      { x with wdog := x.wdog - 1, stall := 0, loops := l :: x.loops, lc := SMap.set 0 x.lc l.k n, pc := l.first }
    let plain : LoopRec := ⟨bitsOf w 19 18, (x.pc + 1) % 4096, bitsOf w 17 12 + 1, w.testBit 11, 0, 0, 1⟩
    let skipped := goes { y with pc := (x.pc + (bitsOf w 17 12 + 1) + 1) % 4096 }
    BundleReady s1 g → SlotExecutes s1 g 3 w → OthersIdle s1 g 3 → loopFault x w = false →
    (slotOp w = 0x01 → lasts → exec (.br d e dt) s = .next (goes
      { y.cancelLoops (fun l => !l.has (bitsOf w 11 0)) with pc := bitsOf w 11 0 })) ∧
    (slotOp w = 0x01 → x.wdLoad ≠ 0 → x.wdog = 1 → x.twr = [] → s1.fld (R.ENG_WDT d e) F.ENG_WDT.ACT = 0 →
      ∃ t, exec (.br d e dt) s = .next t ∧ (t.eng g).state = .run ∧ (t.eng g).pc = bitsOf w 11 0 ∧ (t.eng g).wdog = period * 1024 - 2 ∧
        t.flag (engErr g) F.ENG_ERR.WDX = true ∧ t.flag (R.ENG_WDT d e) F.ENG_WDT.EXPD = true) ∧
    (slotOp w = 0x02 → lasts → exec (.call d e dt) s = .next (goes { y with pc := bitsOf w 11 0, ret := ((x.pc + 1) % 4096) :: x.ret })) ∧
    (slotOp w = 0x03 → lasts → exec (.ret d e dt) s = .next (goes { y with pc := x.ret.headD 0, ret := x.ret.tail })) ∧
    (slotOp w = 0x08 → bitsOf w 10 0 = 0 → lasts → exec (.loop d e dt) s = .next skipped) ∧
    (slotOp w = 0x08 → bitsOf w 10 0 ≠ 0 → exec (.loop d e dt) s = .next (s1.setEng g (begun plain (bitsOf w 10 0)))) ∧
    (slotOp w = 0x09 → nv = 0 → lasts → exec (.loopv d e dt) s = .next skipped) ∧
    (slotOp w = 0x09 → nv ≠ 0 → exec (.loopv d e dt) s = .next (s1.setEng g (begun plain nv))) ∧
    (slotOp w = 0x0A → np = 0 → lasts → exec (.loopp d e dt) s = .next skipped) ∧
    (slotOp w = 0x0A → np ≠ 0 → ∃ p : BitVec 8,
      (∀ j, j < 8 → p.getLsbD j = if j = 1 then true else if 2 ≤ j ∧ j ≤ st then false else x.p.getLsbD j) ∧
      exec (.loopp d e dt) s = .next (s1.setEng g { begun { plain with rot := true, stages := st, n := np } (np + st - 1) with p := p })) ∧
    (slotOp w = 0x10 → pend ≤ bitsOf w 4 0 → exec (.twait d e dt) s = .next (s1.setEng g (bundleEnd x x))) ∧
    (slotOp w = 0x10 → bitsOf w 4 0 < pend → exec (.twait d e dt) s =
      .next ((s1.addSat (R.ENG_STALLS d e) F.ENG_STALLS.COUNT 1).setEng g { x with stall := 4, wdog := x.wdog - 1 })) ∧
    (slotOp w = 0x11 → exec (.wdog d e dt) s = .next (s1.setEng g (EngSt.loopEnd { x with
      stall := 0, wdog := s1.fld (R.ENG_WDT d e) F.ENG_WDT.PERIOD * 1024, wdLoad := s1.fld (R.ENG_WDT d e) F.ENG_WDT.PERIOD } x.pc))) ∧
    (slotOp w = 0x12 → ∃ b : BitVec 40,
      bitsOf b.toNat 23 16 = min 255 (bitsOf x.bexp.toNat 23 16 + bitsOf x.bexp.toNat 11 8) ∧
      bitsOf b.toNat 11 8 = min 15 (bitsOf x.bexp.toNat 4 0 + bitsOf x.scl.toNat 6 5 - 19) ∧
      bitsOf b.toNat 4 0 = 0 ∧ b &&& 0xFF0F1F = b ∧
      exec (.blk d e dt) s = .next (s1.setEng g (bundleEnd x { x with bexp := b }))) ∧
    (slotOp w = 0x13 → exec (.sig d e dt) s = .next (((s1.setFld (R.ENG_SIG d e) F.ENG_SIG.CODE (bitsOf w 7 0)).setFld
      (R.ENG_SIG d e) F.ENG_SIG.PEND 1).setEng g (bundleEnd x x))) ∧
    (slotOp w = 0x14 → (x.wdLoad = 0 ∨ x.wdog ≠ 1) → exec (.stop d e dt) s = .next (((s1.setFld (R.ENG_SIG d e) F.ENG_SIG.PEND 1).setEng g
      { bundleEnd x x with state := .stopped }).settlePortB g)) ∧
    (slotOp w = 0x14 → x.wdLoad ≠ 0 → x.wdog = 1 → ∃ t : State, exec (.stop d e dt) s = .next (t.settlePortB g) ∧
      t.flag (engErr g) F.ENG_ERR.WDX = true ∧ t.flag (R.ENG_WDT d e) F.ENG_WDT.EXPD = true ∧
      (t.eng g).state = (if s1.fld (R.ENG_WDT d e) F.ENG_WDT.ACT = 0 then .stopped else .fault))
  ) ∧
  (
  ∀ (s : State) (d : Fin 4) (e : Fin 128) (dt : Nat),
    let g := engId d e
    let s1 := cycleOf s g dt
    let x := s1.eng g
    let fault := fun (t : State) => t.eng g = { x with state := .fault, stall := 0, wdog := x.wdog - 1 } ∧ (∀ h, h ≠ g → t.eng h = s1.eng h) ∧
      t.fld (engErr g) F.ENG_ERR.FPC = x.pc % 4096 ∧ RegsBut s1 t [engErr g, R.ENG_SIG d e] ∧ t = { s1 with engs := t.engs, regs := t.regs }
    (BundleReady s1 g → (∀ j, j < 4 → slotOp (slotOf (bundleOf s1 g) j) = 0) →
      exec (.slotNop d e dt) s = .next (s1.setEng g (bundleEnd x x))) ∧
    (∀ y : EngSt, (∀ l ∈ y.loops, l.last ≠ x.pc) → bundleEnd x y = { y with wdog := x.wdog - 1, stall := 0, pc := (x.pc + 1) % 4096 }) ∧
    (∀ (y : EngSt) (l : LoopRec), y.loops = [l] → l.last = x.pc → l.stages = 0 → l.rot = false →
      (SMap.get 0 y.lc l.k = 1 → bundleEnd x y = { y with wdog := x.wdog - 1, stall := 0, loops := [], lc := SMap.set 0 y.lc l.k 0,
                                                          pc := (x.pc + 1) % 4096 }) ∧
      (1 < SMap.get 0 y.lc l.k → bundleEnd x y = { y with wdog := x.wdog - 1, stall := 0, loops := [{ l with iter := l.iter + 1 }],
                                                           lc := SMap.set 0 y.lc l.k (SMap.get 0 y.lc l.k - 1), pc := l.first })) ∧
    (x.state = .run → s1.engClocked g = true → (x.wdLoad = 0 ∨ 2 ≤ x.wdog) →
      SMap.get 0 s1.pmBad (pmKey (s1.liveCopy (engMember d e)) g x.pc) = 2 →
      ∃ t, exec (.cmul d e dt) s = .next (t.settlePortB g) ∧ fault t ∧ t.flag (engErr g) F.ENG_ERR.PUE = true) ∧
    (∀ i, x.state = .run → s1.engClocked g = true → (x.wdLoad = 0 ∨ 2 ≤ x.wdog) →
      SMap.get 0 s1.pmBad (pmKey (s1.liveCopy (engMember d e)) g x.pc) ≠ 2 → i < 4 → slotLegal i (slotOf (bundleOf s1 g) i) = false →
      (∀ j, j < i → slotLegal j (slotOf (bundleOf s1 g) j) = true) →
      ∃ t, exec (.cmul d e dt) s = .next (t.settlePortB g) ∧ fault t ∧ t.flag (engErr g) F.ENG_ERR.ILL = true ∧ t.fld (engErr g) F.ENG_ERR.SLOT = i) ∧
    (x.state = .run → s1.engClocked g = true → x.wdLoad ≠ 0 → x.wdog = 1 →
      SMap.get 0 s1.pmBad (pmKey (s1.liveCopy (engMember d e)) g x.pc) = 2 →
      ∃ t : State, exec (.cmul d e dt) s = .next (t.settlePortB g) ∧ (t.eng g).state = .fault ∧ t.flag (engErr g) F.ENG_ERR.PUE = true ∧
        t.flag (engErr g) F.ENG_ERR.WDX = true ∧ t.flag (R.ENG_WDT d e) F.ENG_WDT.EXPD = true) ∧
    (∀ w, BundleReady s1 g → x.wdog ≠ 1 → SlotExecutes s1 g 2 w → slotOp w = 0x21 → bitsOf w 17 12 = 2 →
      (x.vr (bitsOf w 11 6)).getLsbD 6 = true →
      64 < 8 * bitsOf (x.vr (bitsOf w 11 6)).toNat 2 0 + 8 * (bitsOf (x.vr (bitsOf w 11 6)).toNat 5 3 + 1) →
      ∃ t, exec (.mtc d e dt) s = .next (t.settlePortB g) ∧ fault t ∧ t.flag (engErr g) F.ENG_ERR.ILL = true ∧ t.fld (engErr g) F.ENG_ERR.SLOT = 2) ∧
    (∀ w, BundleReady s1 g → x.wdog ≠ 1 → SlotExecutes s1 g 3 w → OthersIdle s1 g 3 → slotOp w = 0x03 → x.ret = [] →
      ∃ t, exec (.ret d e dt) s = .next (t.settlePortB g) ∧ fault t ∧ t.flag (engErr g) F.ENG_ERR.LOOPF = true) ∧
    (∀ u w, BundleReady s1 g → SlotExecutes s1 g 1 u → SlotExecutes s1 g 2 w → slotOp u = 0x19 → slotOp w = 0x01 →
      bitsOf u 5 0 = bitsOf w 17 12 → (∀ j, j = 0 ∨ j = 3 → slotRuns x (slotOf (bundleOf s1 g) j) = false) →
      ∃ t, exec (.movaw d e dt) s = .next t ∧ SMap.get 0 (t.eng g).v (x.phys (bitsOf w 17 12)) = x.vr (bitsOf w 11 6) ∧
        t.flag (engErr g) F.ENG_ERR.WCOL = true)
  ) ∧
  (
  ∀ (s : State) (d : Fin 4) (e : Fin 128),
    let g := engId d e
    let x := s.eng g
    let entry := s.liveF (engMember d e) (R.ENG_CFG d e) F.ENG_CFG.ENTRY
    let period := s.fld (R.ENG_WDT d e) F.ENG_WDT.PERIOD
    let mayStart := (x.state = .idle ∨ x.state = .stopped ∨ x.state = .fault) ∧ (s.pane (engPane g)).shut = false ∧
      s.quiesces d = false
    (DieReached s d → mayStart → ∃ y, exec (.engCtlStart d e) s = .next ((s.latchLaunch g).setEng g y) ∧ y.state = .run ∧ y.pc = entry ∧
      y.ret = [] ∧ y.loops = [] ∧ (∀ l ∈ x.loops, SMap.get 0 y.lc l.k = 0) ∧ y.wdog = period * 1024 ∧
      y = { x with state := .run, pc := entry, ret := [], loops := [], lc := y.lc, stall := 0, wdog := period * 1024, wdLoad := period }) ∧
    (DieReached s d → ¬ mayStart → exec (.engCtlStart d e) s = .next (s.setFld (R.ENG_STATUS d e) F.ENG_STATUS.SREJ 1)) ∧
    (DieReached s d → x.state = .run → (x.wdLoad = 0 ∨ x.wdog ≠ 0) → exec (.engCtlStop d e) s =
      .next (((s.setEng g { x with state := .stopped, stall := 0 }).setFld (R.ENG_SIG d e) F.ENG_SIG.PEND 1).settlePortB g)) ∧
    (DieReached s d → x.state ≠ .run → x.state ≠ .halt → exec (.engCtlStop d e) s = .next s) ∧
    (x.wdLoad = 0 ∨ x.wdog ≠ 0 → exec (.engineWatchdogExpiry d e) s = .next s) ∧
    (x.state = .run → x.wdLoad ≠ 0 → x.wdog = 0 → s.engClocked g = true → ∃ t, exec (.engineWatchdogExpiry d e) s = .next (t.settlePortB g) ∧
      t.flag (engErr g) F.ENG_ERR.WDX = true ∧ t.flag (R.ENG_WDT d e) F.ENG_WDT.EXPD = true ∧
      RegsBut s t [engErr g, R.ENG_SIG d e, R.ENG_WDT d e] ∧ t = { s with engs := t.engs, regs := t.regs } ∧
      (∀ h, h ≠ g → t.eng h = s.eng h) ∧
      t.eng g = if s.fld (R.ENG_WDT d e) F.ENG_WDT.ACT = 0 then { x with wdog := period * 1024, wdLoad := period }
                else { x with state := .fault, stall := 0, wdog := 0 })
  ) ∧
  (∀ (s : State) (g : Nat), (s.eng g).state = .run ∨ (s.eng g).twr = [] → s.settlePortB g = s)

/-- R160–R162, R177: a RAM port serves the oldest request accepted in an earlier cycle, one in a cycle: a write stores its word and tag, and of
the writes of one entry in one cycle port 1's remains before port 0's, and the transom's before both; a read answers the entry as it stood at
the cycle's start, two cycles later. The patrol reads one entry and moves on. -/
def Obligations.RamPortsAndPatrol : Prop :=
  ∀ (s : State) (d : Fin 4) (p : Fin 64) (m : Fin 6),
    let pane := paneId d p
    let blk := blkId d p m
    (∀ (i : Fin 2) (dt : Nat) (r : PortReq) (rs : List PortReq),
      let s1 := s.advance pane dt
      let x := s1.port blk i
      let u := s1.cyc pane
      (x.reqs = r :: rs → (u ≤ r.cyc ∨ x.goneCyc = u + 1) → exec (.ramPortServe d p m i dt) s = .next s1) ∧
      (x.reqs = r :: rs → r.cyc < u → x.goneCyc ≠ u + 1 → i.val < s1.numPorts pane m → s1.paneRuns pane = true →
        (r.write = true →
          ∃ t, exec (.ramPortServe d p m i dt) s = .next t ∧ t = { s1 with arrays := t.arrays, ports := t.ports, movers := t.movers } ∧
            (∀ j, j ≠ i.val → j < 2 → t.port blk j = s1.port blk j) ∧ (∀ b, b ≠ blk → t.mover b = s1.mover b) ∧
            t.mover blk = { s1.mover blk with wrCyc := (t.mover blk).wrCyc, wrs := (t.mover blk).wrs } ∧
            (t.port blk i).reqs = rs ∧ (t.port blk i).resps = x.resps ∧ (t.port blk i).addr = x.addr ∧
            t.entryStart blk r.addr = s1.entryStart blk r.addr ∧
            ((∀ w, s1.arrWrite blk r.addr = some w → w.who ≤ i.val) →
              ∀ b a, t.entry b a = if b * 16384 + a = blk * 16384 + r.addr then { word := r.word, tag := r.tag } else s1.entry b a) ∧
            (∀ w, s1.arrWrite blk r.addr = some w → i.val < w.who → t.arrays = s1.arrays)) ∧
        (r.write = false → (s1.entryStart blk r.addr).bad = 2 → ∃ t, exec (.ramPortServe d p m i dt) s = .next t ∧
          t.flag (wmErr blk) F.WM_ERR.UE = true ∧ RegsBut s1 t [wmErr blk] ∧ t = { s1 with ports := t.ports, regs := t.regs } ∧
          (t.port blk i).reqs = rs) ∧
        (r.write = false → (s1.entryStart blk r.addr).bad = 0 →
          ∃ t, exec (.ramPortServe d p m i dt) s = .next t ∧ t = { s1 with ports := t.ports } ∧
            (∀ j, j ≠ i.val → j < 2 → t.port blk j = s1.port blk j) ∧ (t.port blk i).reqs = rs ∧ (t.port blk i).addr = x.addr ∧
            (t.port blk i).resps = x.resps ++ [⟨(s1.entryStart blk r.addr).word, (s1.entryStart blk r.addr).tag, u + 2⟩]))) ∧
    (let mv := s.mover blk
     let e := s.entry blk mv.patrol
     let moved := { mv with patrol := (mv.patrol + 1) % 16384 }
     s.flag (R.WM_CFG d p m) F.WM_CFG.PEN = true → s.paneRuns pane = true →
      (e.bad = 0 → exec (.wmPatrolRead d p m) s = .next (s.setMover blk moved)) ∧
      (e.bad = 1 → exec (.wmPatrolRead d p m) s = .next
        ((((s.setEntry blk mv.patrol { e with bad := 0 }).setFld (wmErr blk) F.WM_ERR.CE 1).addSat (wmErr blk) F.WM_ERR.CECNT 1).setMover
          blk moved)) ∧
      (e.bad = 2 → s.liveEntry pane m mv.patrol = false → exec (.wmPatrolRead d p m) s = .next
        (((s.setEntry blk mv.patrol {}).addSat (wmErr blk) F.WM_ERR.CECNT 1).setMover blk moved)) ∧
      (e.bad = 2 → s.liveEntry pane m mv.patrol = true → ∃ t, exec (.wmPatrolRead d p m) s = .next t ∧
        t.flag (wmErr blk) F.WM_ERR.UE = true ∧ t.mover blk = moved ∧ RegsBut s t [wmErr blk] ∧
        t = { s with regs := t.regs, movers := t.movers }))

/-- R167: a FETCH mover pops a command word, then reads each line by RD requests of RWORDS words, each with positions reserved in its data
queue, the last marked as the line's end, and one in a cycle; with the last it holds no line (log entry 164).
R168: a POST mover gathers the words of its data queue, latches slot and line from a word with tag 1 once nothing gathered waits, and
posts what it gathered as one WRP when it is full, or when the queue shows no head; before its first such word it starts at SLOT 0, LINE 0. That LINES
counts a POST line at the pop of its last word is log entry 103, and that LINE goes on past 0xFFFF log entry 104. -/
def Obligations.LineMovers : Prop :=
  (
  ∀ (s : State) (d : Fin 4) (p : Fin 64) (m : Fin 6) (dt : Nat),
    let pane := paneId d p
    let blk := blkId d p m
    let s1 := s.advance pane dt
    let mv := s1.mover blk
    let u := s1.cyc pane
    (let e := s1.mvLive pane m
     let cq := s1.liveF pane (R.WM_MVCFG d p m) F.WM_MVCFG.CQ
     let r := s1.popQueue pane m cq
     mv.hold = false → mv.ctl = false → e.dir = 1 → s1.paneRuns pane = true → s1.served pane (true, m, cq) false .mover = true →
      s1.poppedNow pane m cq = false →
      (r.1.2.2 = true → exec (.moverFetchLine d p m dt) s = .next (r.2.setMover blk
        { mv with hold := true, set := e, slot := bitsOf r.1.1.toNat 39 36, line := bitsOf r.1.1.toNat 15 0, i := 0 })) ∧
      (r.1.2.2 = false → exec (.moverFetchLine d p m dt) s = .next s1)) ∧
    (let e := mv.set
     let n := min e.rwords (e.lwords - mv.i)
     let x := s1.queue blk e.dq
     let reg := s1.qRegion pane m e.dq
     mv.hold = true → e.dir = 1 → mv.pend.length < 16 → s1.paneRuns pane = true → s1.served pane (true, m, e.dq) true .mover = true →
      s1.hasRoom pane m e.dq n = true → mv.issCyc ≠ u + 1 → x.netNow u = [] → ∀ tag, s1.freeTag (portId pane (4 + m)) 16 = some tag →
      ∃ pos t, exec (.moverFetchIssue d p m dt) s = .next t ∧ pos.length = n ∧
        (∀ j, j < n → pos[j]? = some ((reg.1 + (x.wpos + j) % reg.2) % 16384)) ∧
        (let held := s1.setQueue blk e.dq { x with slots := x.slots ++ pos.map (fun a => ⟨a, false, u + 1, 0, true, false⟩), wpos := x.wpos + n }
         let last := decide (mv.i + n = e.lwords)
         t = (held.setMover blk { mv with
               i := if last then 0 else mv.i + n, slot := if last then 0 else mv.slot, line := if last then 0 else mv.line,
                hold := !last, issCyc := u + 1, pend := mv.pend ++ [⟨tag, e.dq, pos, last, false⟩] }).sendReq
             { src := portId pane (4 + m), cmd := cRD, prio := s1.portPrio pane (4 + m), tag := Fin.ofNat 1024 tag,
               len := Fin.ofNat 65 n, addr := BitVec.ofNat 40 ((e.base + mv.slot * e.fstride + mv.line * e.lstride + mv.i) % 2 ^ 40) }
             (.mover blk)))
  ) ∧
  (
  ∀ (s : State) (d : Fin 4) (p : Fin 64) (m : Fin 6) (dt : Nat),
    let pane := paneId d p
    let blk := blkId d p m
    let s1 := s.advance pane dt
    let mv := s1.mover blk
    let e := s1.mvEff pane m
    let u := s1.cyc pane
    let r := s1.popQueue pane m e.dq
    let posted := (s1.setMover blk { mv with buf := [], full := false }).sendReq
      { src := portId pane (4 + m), cmd := cWRP, prio := s1.portPrio pane (4 + m), len := Fin.ofNat 65 mv.buf.length,
        addr := BitVec.ofNat 40 mv.bufAddr, data := mv.buf } (.mover blk)
    let bufAddr := if mv.buf = [] then (e.base + mv.slot * e.fstride + mv.line * e.lstride + mv.i) % 2 ^ 40 else mv.bufAddr
    let buf := mv.buf ++ [r.1.1]
    (∀ pos, e.dir = 2 → mv.full = false → s1.paneRuns pane = true → s1.served pane (true, m, e.dq) false .mover = true →
      s1.poppedNow pane m e.dq = false → (s1.queue blk e.dq).visible u = some pos →
      ((s1.entry blk pos).tag = true → mv.buf ≠ [] → exec (.moverPostEntry d p m dt) s = .next (s1.setMover blk { mv with full := true })) ∧
      ((s1.entry blk pos).tag = true → mv.buf = [] →
        let l := r.2.mvLive pane m
        exec (.moverPostEntry d p m dt) s = .next (r.2.setMover blk { mv with
          set := l, ctl := decide (l.dir = 2), slot := if l.dir = 2 then bitsOf r.1.1.toNat 39 36 else 0,
          line := if l.dir = 2 then bitsOf r.1.1.toNat 15 0 else 0, i := 0 })) ∧
      ((s1.entry blk pos).tag = false → mv.i + 1 ≠ e.lwords →
        exec (.moverPostEntry d p m dt) s = .next (r.2.setMover blk { mv with
          buf := buf, i := mv.i + 1, bufAddr := bufAddr, full := decide (e.rwords ≤ mv.buf.length + 1) })) ∧
      ((s1.entry blk pos).tag = false → mv.i + 1 = e.lwords →
        exec (.moverPostEntry d p m dt) s = .next ((r.2.setMover blk { mv with
          buf := buf, i := 0, line := mv.line + 1, bufAddr := bufAddr, full := true }).addSat (R.WM_MVSTAT d p m) F.WM_MVSTAT.LINES 1))) ∧
    (mv.full = true → mv.buf ≠ [] → s1.paneRuns pane = true → exec (.moverPostIssue d p m dt) s = .next posted) ∧
    (mv.buf ≠ [] → s1.paneRuns pane = true → (s1.queue blk e.dq).visible u = none →
      exec (.moverPostIdleTimeout d p m dt) s = .next posted)
  )

/-- R166, R171, R172: a lock held past LKTO is broken, LKBRK notes it and the first waiter is served; a SNAP captures the six counts of each
queue and advances SEQ, or waits while the pane's clocks are stopped. -/
def Obligations.LocksAndLedger : Prop :=
  ∀ (s : State) (d : Fin 4) (p : Fin 64) (m : Fin 6),
    let pane := paneId d p
    let blk := blkId d p m
    (∀ (q : Fin 4),
      let x := s.queue blk q
      s.fld (R.WM_CFG d p m) F.WM_CFG.LKTO ≠ 0 → x.lock.isSome = true → s.dieDark d = false → s.flag (R.PANE_CLK d p) F.PANE_CLK.LOCK = true →
      (x.waiters = [] → exec (.lockBreak d p m q) s = .next ((s.setFld (wmErr blk) F.WM_ERR.LKBRK 1).setQueue blk q { x with lock := none })) ∧
      (∀ pk rest, x.waiters = pk :: rest → pk.cmd = cRDLK → (∀ w ∈ rest, w.src ≠ pk.src) → s.lateOf pane m pk = false →
        ∃ t, exec (.lockBreak d p m q) s = .next t ∧
        t.flag (wmErr blk) F.WM_ERR.LKBRK = true ∧ (t.queue blk q).lock = some pk.src ∧ (t.queue blk q).waiters = rest ∧
        (t.queue blk q).slots = x.slots)) ∧
    (DieReached s d → s.flag (R.PANE_CLK d p) F.PANE_CLK.LOCK = true →
      ∃ t, exec (.ledgerSnap d p m) s = .next t ∧ t = { s with regs := t.regs, movers := t.movers } ∧
        t.fld (R.WM_LCTL d p m) F.WM_LCTL.SEQ = (s.fld (R.WM_LCTL d p m) F.WM_LCTL.SEQ + 1) % 256 ∧
        (∀ q : Fin 4, let x := s.queue blk q
          t.reg (R.WM_QLEDGER d p m q 0) = x.cIn ∧ t.reg (R.WM_QLEDGER d p m q 1) = x.cOut ∧ t.reg (R.WM_QLEDGER d p m q 2) = x.cSlam ∧
          t.reg (R.WM_QLEDGER d p m q 3) = x.cFlush ∧ t.reg (R.WM_QLEDGER d p m q 4) = BitVec.ofNat 32 x.occ ∧
          t.reg (R.WM_QLEDGER d p m q 5) = x.cRef) ∧
        (∀ o, (∀ q k : Nat, q < 4 → k < 6 → o ≠ R.WM_QLEDGER d p m q k) → o ≠ R.WM_LCTL d p m → t.reg o = s.reg o)) ∧
    (DieReached s d → s.flag (R.PANE_CLK d p) F.PANE_CLK.LOCK = false →
      exec (.ledgerSnap d p m) s = .next (s.setMover blk { s.mover blk with snaps := (s.mover blk).snaps + 1 }))

/-- R134, R138, R162, R163, R173, R183: a read of entries or of data memory answers their words; a write stores its words with tag 0, and only them;
ADD and SWAP answer the old word and store the sum or the operand, an entry keeping its tag. A range that runs past the end is refused. R164, R165:
locked use of a queue. RDLK takes a free lock and answers the head, or the idle word, without removing it; a WRUL of its holder replaces or removes
the head, or pushes its word where no head is present, or is refused where the word finds no room, and releases the lock; another's RDLK waits, up to
four. An RDLK of the holder is served too;
the word that a WRUL stores carries tag 1 in MODE 4, and a WRUL that is refused releases the lock (log entry 17). R153, R158, R163: a WR that the
queue can neither hold nor still come to hold is refused whole and counted; one that the rest of the cycle could still change waits for the cycle's
end. -/
def Obligations.TransomMemoryAccess : Prop :=
  (
  ∀ (s : State) (pk : Packet) (host : Option (List (BitVec 40))) (ok : Bool),
    (∀ pane m a, AtBlock pk pane m a → a < 0x4000 →
      let blk := pane * 6 + m
      let e := s.entryNet blk a
      (ReadyAt s cRD pk → a + pk.len.val ≤ 16384 →
        (∀ i, i < pk.len.val → (s.entry blk (a + i)).bad = 0 ∧ (s.entryNet blk (a + i)).bad = 0) →
        ∃ ws t, exec (.rd pk host) s = .next t ∧ Took s t pk [{ cplOf pk with data := ws, len := Fin.ofNat 65 ws.length }] ∧
          ws.length = pk.len.val ∧ (∀ i, i < pk.len.val → ws.getD i 0 = (s.entryNet blk (a + i)).word) ∧
          t.arrays = s.arrays ∧ t.dm = s.dm ∧ t.queues = s.queues ∧ t.regs = s.regs ∧ t.movers = s.movers) ∧
      (ReadyAt s cRD pk → 16384 < a + pk.len.val → ∃ t, exec (.rd pk host) s = .next t ∧ Took s t pk [cpleOf pk eRANGE] ∧
          t.arrays = s.arrays ∧ t.dm = s.dm ∧ t.queues = s.queues ∧ t.regs = s.regs ∧ t.movers = s.movers) ∧
      (1 ≤ s.numPorts pane m → s.paneOpen pane = true → a + pk.data.length ≤ 16384 → a + pk.len.val ≤ 16384 →
        MayWrite s blk a pk.data.length 2 →
        (ReadyAt s cWR pk → ∃ t, exec (.wr pk ok) s = .next t ∧ Took s t pk [cplOf pk] ∧ t.dm = s.dm ∧ t.queues = s.queues ∧
          RegsBut s t [wmErr blk] ∧ WritesNoted s t blk ∧ EntriesWritten s t blk a pk.data.length pk) ∧
        (ReadyAt s cWRP pk → ∃ t, exec (.wrp pk ok) s = .next t ∧ Took s t pk [] ∧ t.dm = s.dm ∧ t.queues = s.queues ∧
          RegsBut s t [wmErr blk] ∧ WritesNoted s t blk ∧ EntriesWritten s t blk a pk.data.length pk)) ∧
      (1 ≤ s.numPorts pane m → s.paneOpen pane = true → (s.entry blk a).bad = 0 → e.bad = 0 → MayWrite s blk a 1 2 →
        (ReadyAt s cADD pk → ∃ t, exec (.transomAdd pk) s = .next t ∧ Took s t pk [{ cplOf pk with opnd := e.word }] ∧
          t.dm = s.dm ∧ t.queues = s.queues ∧ t.regs = s.regs ∧ WritesNoted s t blk ∧
          t.arrays = SMap.set {} s.arrays (blk * 16384 + a) { word := e.word + pk.opnd, tag := e.tag }) ∧
        (ReadyAt s cSWAP pk → ∃ t, exec (.swap pk) s = .next t ∧ Took s t pk [{ cplOf pk with opnd := e.word }] ∧
          t.dm = s.dm ∧ t.queues = s.queues ∧ t.regs = s.regs ∧ WritesNoted s t blk ∧
          t.arrays = SMap.set {} s.arrays (blk * 16384 + a) { word := pk.opnd, tag := e.tag }))) ∧
    (∀ g a, AtEngine pk g a →
      let e := s.dmWord g a
      (ReadyAt s cRD pk → a + pk.len.val ≤ 32768 → (∀ i, i < pk.len.val → (s.dmWord g (a + i)).bad = 0) →
        ∃ ws t, exec (.rd pk host) s = .next t ∧ Took s t pk [{ cplOf pk with data := ws, len := Fin.ofNat 65 ws.length }] ∧
          ws.length = pk.len.val ∧ (∀ i, i < pk.len.val → ws.getD i 0 = (s.dmWord g (a + i)).word) ∧
          t.arrays = s.arrays ∧ t.dm = s.dm ∧ t.queues = s.queues ∧ t.regs = s.regs ∧ t.movers = s.movers) ∧
      (ReadyAt s cWR pk → a + pk.len.val ≤ 32768 → ∃ t, exec (.wr pk ok) s = .next t ∧ Took s t pk [cplOf pk] ∧
          t.arrays = s.arrays ∧ t.queues = s.queues ∧ t.regs = s.regs ∧ t.movers = s.movers ∧
          ∀ h i, t.dmWord h i = if 32768 * h + i - (32768 * g + a) < pk.data.length ∧ 32768 * g + a ≤ 32768 * h + i
            then { word := dataWord pk (32768 * h + i - (32768 * g + a)) } else s.dmWord h i) ∧
      (ReadyAt s cADD pk → e.bad = 0 → ∃ t, exec (.transomAdd pk) s = .next t ∧ Took s t pk [{ cplOf pk with opnd := e.word }] ∧
          t.arrays = s.arrays ∧ t.queues = s.queues ∧ t.regs = s.regs ∧ t.movers = s.movers ∧
          t.dm = SMap.set {} s.dm (32768 * g + a) { word := e.word + pk.opnd }))
  ) ∧
  (
  ∀ (s : State) (pk : Packet) (pane m q a : Nat), AtBlock pk pane m a → q < 4 → a = 0x4000 + q →
    s.qUsable pane m q = true → s.lockedUse pane m q = true → s.paneOpen pane = true → anyFails pk = false →
    let blk := pane * 6 + m
    let x := s.queue blk q
    (ReadyAt s cRDLK pk → (x.lock = none ∨ x.lock = some pk.src) → s.presentHead pane m q = [] → ∃ t, exec (.rdlk pk) s = .next t ∧
      Took s t pk [{ cplOf pk with data := [s.idleWord pane m q], len := 1 }] ∧ t.arrays = s.arrays ∧ t.regs = s.regs ∧
      t.movers = s.movers ∧ t.queue blk q = { x with lock := some pk.src }) ∧
    (∀ e es, ReadyAt s cRDLK pk → (x.lock = none ∨ x.lock = some pk.src) → s.presentHead pane m q = e :: es → (s.entry blk e.pos).bad = 0 →
      ∃ t, exec (.rdlk pk) s = .next t ∧ Took s t pk [{ cplOf pk with data := [(s.entry blk e.pos).word], len := 1 }] ∧
        t.arrays = s.arrays ∧ t.regs = s.regs ∧ t.movers = s.movers ∧ t.queue blk q = { x with lock := some pk.src }) ∧
    (∀ h, ReadyAt s cRDLK pk → x.lock = some h → h ≠ pk.src →
      (x.waiters.length < 4 → ∃ t, exec (.rdlk pk) s = .next t ∧ Took s t pk [] ∧ t.movers = s.movers ∧
        t.queue blk q = { x with waiters := x.waiters ++ [pk] }) ∧
      (x.waiters.length = 4 → ∃ t, exec (.rdlk pk) s = .next t ∧ Took s t pk [cpleOf pk eREFUSED] ∧ t.queues = s.queues)) ∧
    (∀ w e es, ReadyAt s cWRUL pk → x.lock = some pk.src → x.waiters = [] → pk.data = [w] → s.presentHead pane m q = e :: es →
      MayWrite s blk e.pos 1 3 →
      ∃ t, exec (.wrul pk) s = .next t ∧ Took s t pk [cplOf pk] ∧ t.regs = s.regs ∧ t.queue blk q = { x with lock := none } ∧
        WritesNoted s t blk ∧
        t.arrays = SMap.set {} s.arrays (blk * 16384 + e.pos) { word := w, tag := decide (s.wmCfg pane m F.WM_CFG.MODE = 4) }) ∧
    (∀ w, ReadyAt s cWRUL pk → x.lock = some pk.src → x.waiters = [] → pk.data = [w] → s.presentHead pane m q = [] →
      s.discards pane m q = false → s.hasRoom pane m q 1 = false → s.netWaits pane m q 1 = false →
      ∃ t, exec (.wrul pk) s = .next t ∧ Took s t pk [cpleOf pk eREFUSED] ∧ t.regs = s.regs ∧ t.arrays = s.arrays ∧
        t.movers = s.movers ∧ t.queue blk q = { x with lock := none }) ∧
    (∀ w, ReadyAt s cWRUL pk → x.lock = some pk.src → x.waiters = [] → pk.data = [w] → s.presentHead pane m q = [] →
      s.discards pane m q = false → s.hasRoom pane m q 1 = true → s.netWaits pane m q 1 = false →
      ∃ t, exec (.wrul pk) s = .next t ∧ Took s t pk [cplOf pk] ∧ t.regs = s.regs ∧ WritesNoted s t blk ∧
        t.entry blk (s.writePos pane m q) = { word := w, tag := decide (s.wmCfg pane m F.WM_CFG.MODE = 4) } ∧
        (t.queue blk q).lock = none ∧ (t.queue blk q).cIn = x.cIn + 1 ∧ (t.queue blk q).slots =
          x.slots ++ [{ pos := s.writePos pane m q, filled := true, made := s.cyc pane + 1, acc := s.cyc pane + 1, net := true }]) ∧
    (∀ w, ReadyAt s cWRUL pk → x.lock = some pk.src → x.waiters = [] → pk.data = [w] → s.presentHead pane m q = [] →
      s.netWaits pane m q 1 = true → ∃ t, exec (.wrul pk) s = .next t ∧ t = { s.takeWhole pk with panes := t.panes } ∧ PanesBut s t pane ∧
        t.pane pane = { s.pane pane with late := (s.pane pane).late ++ [.net m q pk] }) ∧
    (∀ e es, ReadyAt s cWRUL pk → x.lock = some pk.src → x.waiters = [] → pk.data = [] → s.presentHead pane m q = e :: es →
      ∃ t, exec (.wrul pk) s = .next t ∧ Took s t pk [cplOf pk] ∧ t.regs = s.regs ∧ t.arrays = s.arrays ∧ t.movers = s.movers ∧
        (t.queue blk q).lock = none ∧ (t.queue blk q).slots = x.slots.tail ∧ (t.queue blk q).cOut = x.cOut + 1) ∧
    (ReadyAt s cWRUL pk → x.lock = none → ∃ t, exec (.wrul pk) s = .next t ∧ Took s t pk [cpleOf pk eREFUSED] ∧ t.queues = s.queues) ∧
    (∀ host, ReadyAt s cRD pk → (x.lock = none ∨ x.lock = some pk.src) → (s.presentHead pane m q).length < pk.len.val →
      ∃ t, exec (.rd pk host) s = .next t ∧ Took s t pk [cpleOf pk eREFUSED] ∧ t.queues = s.queues) ∧
    (∀ host e es, ReadyAt s cRD pk → (x.lock = none ∨ x.lock = some pk.src) → pk.len = 1 → s.presentHead pane m q = e :: es →
      (s.entry blk e.pos).bad = 0 → ∃ t, exec (.rd pk host) s = .next t ∧ t.arrays = s.arrays ∧ t.regs = s.regs ∧ t.movers = s.movers ∧
        Took s t pk [{ cplOf pk with data := [(s.entry blk e.pos).word], len := 1 }] ∧
        (t.queue blk q).slots = x.slots.tail ∧ (t.queue blk q).cOut = x.cOut + 1 ∧ (t.queue blk q).lock = x.lock)
  ) ∧
  (
  ∀ (s : State) (pk : Packet) (ok : Bool) (pane m q a : Nat), AtBlock pk pane m a → q < 4 → a = 0x4000 + q → s.qUsable pane m q = true →
    s.paneOpen pane = true → ReadyAt s cWR pk →
    let blk := pane * 6 + m
    let x := s.queue blk q
    let n := pk.data.length
    (s.netWaits pane m q n = true → ∃ t, exec (.wr pk ok) s = .next t ∧ t = { s.takeWhole pk with panes := t.panes } ∧ PanesBut s t pane ∧
      t.pane pane = { s.pane pane with late := (s.pane pane).late ++ [.net m q pk] }) ∧
    (s.netWaits pane m q n = false → s.discards pane m q = false → s.hasRoom pane m q n = false →
      ∃ t, exec (.wr pk ok) s = .next t ∧ Took s t pk [cpleOf pk eREFUSED] ∧ t.arrays = s.arrays ∧ t.regs = s.regs ∧ t.movers = s.movers ∧
        t.queue blk q = { x with cRef := x.cRef + BitVec.ofNat 32 n }) ∧
    (∀ w, s.netWaits pane m q n = false → s.discards pane m q = false → s.hasRoom pane m q n = true → pk.data = [w] → anyFails pk = false →
      ∃ t, exec (.wr pk ok) s = .next t ∧ Took s t pk [cplOf pk] ∧ t.regs = s.regs ∧ WritesNoted s t blk ∧
        t.entry blk (s.writePos pane m q) = { word := w, tag := decide (s.wmCfg pane m F.WM_CFG.MODE = 4) } ∧
        (t.queue blk q).cIn = x.cIn + 1 ∧ (t.queue blk q).slots =
          x.slots ++ [{ pos := s.writePos pane m q, filled := true, made := s.cyc pane + 1, acc := s.cyc pane + 1, net := true }])
  )

/-- R207, R300: a message enters the ring of its hub port at MTAIL, or a ring that is disabled, or full with one entry free, drops it and counts it;
LOG2N acts as 1 to 10 (log entry 70). A lookup answers the action word of the entry that holds its key, or the miss action, once the records that its
initiator sent before it at its priority have been performed (R187); it goes to the lookup port that bits 12 and 11 of its key word 1 name (log entry
149); a posted record's result goes to its reply address.
R184, R186, R189: a completion ends the outstanding request of its port and tag, one without such a request counts as late; a request
that times out ends as if by CPLE TIMEOUT and its tag is quarantined until the late completion or the quarantine's end. -/
def Obligations.MessagesAndCompletions : Prop :=
  (
  ∀ (s : State),
    (∀ (pk : Packet) (i : Nat), ReadyAt s cMSG pk → i < 3 → pk.dst = portId 256 (28 + i) → 0x10000 ≤ pk.addr.toNat → pk.addr.toNat < 0x10003 →
      let n := 2 ^ max 1 (min 10 (s.fld (R.MSG_CFG i) F.MSG_CFG.LOG2N))
      let at_ := s.fld (R.MSG_TAIL i) F.MSG_TAIL.MTAIL % n
      let byteAt := (s.reg (R.MSG_RB_H i)).toNat * 2 ^ 32 + (s.reg (R.MSG_RB_L i)).toNat / 8 * 8 + 520 * at_
      let ws := BitVec.ofNat 40 (srcFields pk.src * 128 + pk.data.length) :: pk.data ++ List.replicate (64 - pk.data.length) 0
      let slot := fun k => (i - 1) * 2 ^ 61 + (byteAt / 8 + k) % 2 ^ 61
      ((s.flag (R.MSG_CFG i) F.MSG_CFG.EN = false ∨ (at_ + 1) % n = s.fld (R.MSG_HEAD i) F.MSG_HEAD.MHEAD % n) →
        ∃ t, exec (.msg pk) s = .next t ∧ t = { s.takeWhole pk with regs := t.regs } ∧ RegsBut s t [R.MSG_DROP i] ∧
          t.fld (R.MSG_DROP i) F.MSG_DROP.MDROP = min (s.fld (R.MSG_DROP i) F.MSG_DROP.MDROP + 1) 65535) ∧
      (s.flag (R.MSG_CFG i) F.MSG_CFG.EN = true → (at_ + 1) % n ≠ s.fld (R.MSG_HEAD i) F.MSG_HEAD.MHEAD % n →
        ∃ t, exec (.msg pk) s = .next t ∧ t = { s.takeWhole pk with regs := t.regs, out := t.out, mcMem := t.mcMem, msixs := t.msixs } ∧
          RegsBut s t [R.MSG_TAIL i] ∧ t.fld (R.MSG_TAIL i) F.MSG_TAIL.MTAIL = (at_ + 1) % n ∧
          (i = 0 → t.mcMem = s.mcMem ∧
            t.out = s.vectorOut 0 (s.fld (R.MSG_CFG 0) F.MSG_CFG.VEC) ++ .hostWrite byteAt (ws.flatMap slotOctets) :: s.out) ∧
          (1 ≤ i → t.msixs = s.msixs ∧ t.out = .coreIrq (i - 1) :: s.out ∧ (∀ k, k < ws.length → SMap.get 0 t.mcMem (slot k) = ws.getD k 0) ∧
            ∀ x, (∀ k, k < ws.length → x ≠ slot k) → SMap.get 0 t.mcMem x = SMap.get 0 s.mcMem x))) ∧
    (∀ (pk : Packet) (lp : Fin 4), ReadyAt s cLKUP pk → pk.dst = portId 256 (24 + lp) →
      (∀ i, s.sdFind pk.klen pk.addr pk.opnd = some i → ∃ t, exec (.lkup pk) s = .next t ∧
        Took s t pk [{ cplOf pk with opnd := (s.sdEnt i).act, hit := true }] ∧ RegsBut s t [R.SD_HITS] ∧
        t = { t with arrays := s.arrays, dm := s.dm, queues := s.queues, movers := s.movers } ∧
        t.fld R.SD_HITS F.SD_HITS.COUNT = min (s.fld R.SD_HITS F.SD_HITS.COUNT + 1) (2 ^ (F.SD_HITS.COUNT.hi + 1 - F.SD_HITS.COUNT.lo) - 1)) ∧
      (s.sdFind pk.klen pk.addr pk.opnd = none → ∃ t, exec (.lkup pk) s = .next t ∧
        Took s t pk [{ cplOf pk with opnd := s.sdMiss, hit := false }] ∧ RegsBut s t [R.SD_MISSES])) ∧
    (∀ (pk : Packet) (lp : Fin 4) (r : LkRec), pk.dst = portId 256 (24 + lp) → r ∈ SMap.get [] s.lkRecs lp.val → r.src = pk.src → r.prio = pk.prio →
      exec (.lkup pk) s = .next s) ∧
    (∀ (pk : Packet), pk.cmd = cLKUP → s.routeReq pk = s.launch { pk with dst := portId 256 (24 + bitsOf pk.addr.toNat 12 11) }) ∧
    (∀ (lp : Fin 4) (r : LkRec) (rs : List LkRec), SMap.get [] s.lkRecs lp.val = r :: rs →
      ∃ s2, (s2 = { s with lkRecs := SMap.set [] s.lkRecs lp.val rs, regs := s2.regs } ∧ RegsBut s s2 [R.SD_HITS, R.SD_MISSES]) ∧
        exec (.lookupRecord lp) s = .next (s2.sendReq {
          src := portId 256 (24 + lp), cmd := cWRP, prio := r.prio, len := 1, addr := r.reply,
           data := [match s.sdFind r.klen r.k1 r.k0 with | some i => (s.sdEnt i).act | none => s.sdMiss] } .extern))
  ) ∧
  (
  ∀ (s : State) (pk : Packet),
    let r := routerOf pk.dst
    let late := if r = 256 then F.HTR_ERR.LATE else F.TR_ERR.LATE
    let tout := if r = 256 then F.HTR_ERR.TOUT else F.TR_ERR.TOUT
    let mine := fun (o : Outst) => decide (o.port = pk.dst ∧ o.tag = pk.tag.val)
    (∀ o s0, Arrived s pk s0 → s.outst.find? mine = some o →
      let s1 := { s0 with outst := s0.outst.erase o }
      (pk.cmd = cCPL → exec (.cpl pk) s = .next (s1.settle o (some pk.data) pk.ecode (anyFails pk))) ∧
      (pk.cmd = cCPLE → exec (.cple pk) s = .next (s1.settle o none pk.ecode (anyFails pk))) ∧
      (∀ g x n, o.why = .engRead g x n → pk.cmd = cCPL → exec (.cpl pk) s = .next (s1.landDm g x (pk.data.take n))) ∧
      (∀ g, o.why = .engWrite g → pk.cmd = cCPL → exec (.cpl pk) s = .next s1) ∧
      (∀ g, o.why = .engWrite g → pk.cmd = cCPLE → exec (.cple pk) s = .next (s1.engRaise g F.ENG_ERR.TERR)) ∧
      (∀ g x n, o.why = .engRead g x n → pk.cmd = cCPLE → exec (.cple pk) s = .next (s1.engRaise g F.ENG_ERR.TERR)) ∧
      (∀ blk, o.why = .mover blk → pk.cmd = cCPL → exec (.cpl pk) s = .next (s1.moverDone blk o.tag (some pk.data) (anyFails pk))) ∧
      (∀ blk, o.why = .mover blk → pk.cmd = cCPLE → exec (.cple pk) s = .next (s1.moverDone blk o.tag none (anyFails pk))) ∧
      (o.why = .extern → pk.cmd = cCPL → exec (.cpl pk) s = .next s1)) ∧
    (∀ s0, Arrived s pk s0 → s.outst.find? mine = none →
      let s1 := (({ s0 with quar := s0.quar.filter fun x => !decide (x = (pk.dst, pk.tag.val)) } : State).addSat (trErr r) late 1)
      (pk.cmd = cCPL → exec (.cpl pk) s = .next s1) ∧ (pk.cmd = cCPLE → exec (.cple pk) s = .next s1)) ∧
    (s.headAt pk.dst (vcOf pk) ≠ some pk → pk ∉ s.selfCpl → exec (.cpl pk) s = .next s ∧ exec (.cple pk) s = .next s) ∧
    (∀ (port : Fin 16448) o g, routerOf port = r → s.outst.find? (fun o => decide (o.port = port.val ∧ o.tag = pk.tag.val)) = some o →
      s.fld (trCtl r) F.TR_CTL.RQTO ≠ 0 → s.routerRuns r = true → o.why = .engWrite g →
      exec (.requestTimeout port pk.tag) s = .next ((({ s with
        outst := s.outst.erase o, quar := s.quar ++ [(port.val, pk.tag.val)] } : State).engRaise g F.ENG_ERR.TERR).addSat (trErr r) tout 1)) ∧
    (∀ (port : Fin 16448) (tag : Fin 1024), exec (.quarantineEnd port tag) s =
      .next { s with quar := s.quar.filter fun x => !decide (x = (port.val, tag.val)) })
  )

/-- R181, R182, R190–R192, R198, R199, R201, R215: a router moves the flits of the packet that waits at its input, one in a cycle of the output that
its route names: of the flits ready there the one goes that has lost 512 arbitrations, else the one of the highest PRI, a completion before a
request, in turn among equals. A flit that goes spends a credit; one without a credit, or whose channel another packet holds, is not ready. A
boarded output absorbs it, a non-posted request drawing CPLE BOARDED; a bad header is discarded. A packet of one flit, uncontended, so goes in one
command (log entry 112). The flits of a packet spell that packet again. R183, R408, R411: a request of MC0, MC1 or the configuration controller that
their hub port does not hold yet is issued so (log entry 116), if it has the shape of its command and, of MC1, a tag below 896; a WRUL of MC0 ends
its locked sequence at that word. -/
def Obligations.PacketForwarding : Prop :=
  (
  ∀ (s : State) (i : Fin 16448) (pk : Packet),
    let r := routerOf i; let v := vcOf pk
    (s.routerRuns r = false → exec (.packetForward i pk) s = .next s) ∧
    (∀ j, s.routerRuns r = true → s.wayOf i pk = some j →
      exec (.packetForward i pk) s = .next (s.forwardRun r j v 17408) ∧
      (∀ f l, s.front j v = some f → s.fate r j v f = .send l → s.ready r j l v f = false → exec (.packetForward i pk) s = .next s) ∧
      (∀ f l, s.front j v = some f → f.head = true → flitsOf (headerOf f.w) = 1 → s.fate r j v f = .send l → s.ready r j l v f = true →
        s.contenders r l = [(j, v)] →
        let s1 := { s with lost := SMap.set 0 s.lost (vcKey j v) 0, turns := SMap.set 0 s.turns l (j + 1) }
        let s2 := (s1.setWorm j v ⟨headerOf f.w, some l, 0⟩).leave j v
        (s.boarded l = true → f.fails = false → exec (.packetForward i pk) s = .next (s2.absorb l f)) ∧
        (s.boarded l = false → f.fails = false → exec (.packetForward i pk) s = .next (s2.sendFlit l v f))) ∧
      (∀ f, s.front j v = some f → f.head = true → flitsOf (headerOf f.w) = 1 → s.fate r j v f = .parity → exec (.packetForward i pk) s =
        .next (((s.setWorm j v ⟨headerOf f.w, none, 0⟩).leave j v).setFld (trErr r) (if r = 256 then F.HTR_ERR.HPAR else F.TR_ERR.HPAR) 1))) ∧
    (∀ c : Fin 3, s.routerRuns r = true → s.wayOf i pk = none → i.val = portId 256 (29 + c) → pk.src = i → pk.cmd.val < 9 → pk.par = [] →
      (c = 1 → pk.tag.val < 896) → (∀ o ∈ s.outst, ¬ (o.port = i ∧ o.tag = pk.tag.val)) → (i.val, pk.tag.val) ∉ s.quar →
      let sent := s.sendReq pk (if c = 2 then .extern else .core c)
      (shapeOk pk = true → ¬ (c = 0 ∧ pk.cmd = cWRUL) → exec (.packetForward i pk) s = .next sent) ∧
      (shapeOk pk = true → c = 0 → pk.cmd = cWRUL → (s.core0.locks = [] ∨ ∃ a ∈ s.core0.locks, a ≠ pk.addr.toNat) →
        ∃ t, exec (.packetForward i pk) s = .next t ∧ t = { sent with core0 := t.core0 } ∧
          t.core0 = { s.core0 with locks := s.core0.locks.filter fun a => decide (a ≠ pk.addr.toNat) }) ∧
      (shapeOk pk = false → exec (.packetForward i pk) s = .next s))
  ) ∧
  (
  ∀ (s : State) (r l : Nat) (c : Nat × Nat), SMap.get 0 s.turns l ≤ 131072 → s.winner l (s.contenders r l) = some c →
    let cs := s.contenders r l
    let old := fun (x : Nat × Nat) => 512 ≤ s.losses x
    let fair := fun (x : Nat × Nat) => old x ∨ ∀ y ∈ cs, ¬ old y
    let turn := fun (x : Nat × Nat) => (x.1 + 131072 - SMap.get 0 s.turns l) % 131072
    c ∈ cs ∧ fair c ∧ (∀ x ∈ cs, fair x → vcRank x.2 ≤ vcRank c.2) ∧
    (r ≤ 256 → ∀ x ∈ cs, fair x → vcRank x.2 = vcRank c.2 → turn c ≤ turn x) ∧
    (∀ u w : Fin 8, (u.val % 4 < w.val % 4 → vcRank u < vcRank w) ∧ (u.val % 4 = w.val % 4 → u.val < 4 → 4 ≤ w.val → vcRank u < vcRank w))
  ) ∧
  (
  ∀ (s : State) (r i l v : Nat) (f : TFlit), s.boarded l = false →
    (l ≠ memLink → s.avail l v = 0 → s.ready r i l v f = false) ∧
    (∀ c, c < 8 → (s.fmQueue (fmPortOf c) v).pks ≠ [] → s.ready r i memLink v f = false) ∧
    (∀ j ∈ inputsOf r, j ≠ i → (s.worm j v).left ≠ 0 → (s.worm j v).out = some l → f.head = true → s.ready r i l v f = false) ∧
    (l = uclPort → s.flag R.UCL_CTL F.UCL_CTL.RAW = true → s.ready r i l v f = false)
  ) ∧
  (
  ∀ (s : State) (l : Nat) (f : TFlit), f.head = true →
    let pk := headerOf f.w; let s1 := s.addLed l 10 1
    (pk.cmd = cCPL ∨ pk.cmd = cCPLE → s.absorb l f = s1.addLed l 9 1) ∧
    (pk.cmd = cWRP ∨ pk.cmd = cMSG → s.absorb l f = s1.addLed l 7 1) ∧
    (pk.cmd ≠ cCPL → pk.cmd ≠ cCPLE → pk.cmd ≠ cWRP → pk.cmd ≠ cMSG → s.absorb l f =
      (let a := s1.addLed l 8 1
       { a with owns := a.owns ++ [{ dst := pk.src, src := l, cmd := cCPLE, prio := pk.prio, tag := pk.tag, ecode := eBOARDED }] }))
  ) ∧
  (
  ∀ (pk : Packet) (rest : List TFlit), pk.dst < 2 ^ 15 → pk.src < 2 ^ 15 →
    headerOf (headerUnit pk) = { pk with data := [], par := [] } ∧
    (pk.par = [] → pk.data.length = (if pk.cmd = cWR ∨ pk.cmd = cWRP ∨ pk.cmd = cMSG ∨ pk.cmd = cWRUL ∨ pk.cmd = cCPL then pk.len.val else 0) →
      frontPacket (flitsFor pk ++ rest) = some pk)
  )

/-- R197–R200, R203, R277, R298: a credit or completion timer at its limit and a BOARD command board the port up with their cause, once, and each
non-posted request that its target tracks draws CPLE BOARDED, those at a controller's port through the splitter (R217); UNBOARD opens it with its
full credits and empty request queues, accepted completions staying; SNAP captures a router's counters, and a global capture those of the hub, of
the hinge ends and of every router, one whose clock stands, or whose die the tick has yet to reach, at its first edge after; a park ends when its
die has drained, or at TR_PDTO, which PDEXP notes: the ports that face the die are boarded for it, and the die is without power. That UNBOARD leaves
accepted completions and what the router itself answers is log entries 80 and 111, that it does nothing at a port that is not boarded log entry 152.
A BOARD or UNBOARD of a router whose clock stands waits for the clock (R421). -/
def Obligations.BoardingAndCaptures : Prop :=
  (∀ (s : State) (l : Fin 16448),
    let r := routerOf l
    s.routerRuns r = false → r < 256 → DieReached s (r / 64) →
    let waits := fun (b : Bool) => s.setPane r { s.pane r with brds := (s.pane r).brds ++ [(l.val, b)] }
    exec (.trCmdBoard l) s = .next (waits true) ∧ exec (.trCmdUnboard l) s = .next (waits false)) ∧
  (∀ (s : State) (p : ParkSt) (c : Instr) (late : Bool), s.park = some p → p.die < 4 →
    ((c = .drainEnd ∧ late = false ∧ s.drained0 p.die = true) ∨ (c = .drainTimeout ∧ late = true)) →
    ∃ t, exec c s = .next t ∧ t.park = none ∧ (SMap.get {} t.dies p.die).off = true ∧ (∀ l ∈ s.facing p.die, t.boarded l = true) ∧
      (t.reg R.HUB_PCTL).getLsbD (20 + p.die) = true ∧ t.fld R.HUB_PCTL F.HUB_PCTL.BUSY = 0 ∧ t.fld R.HUB_PCTL F.HUB_PCTL.RESULT = 0 ∧
      (late = true → t.flag R.TR_GSNAP F.TR_GSNAP.PDEXP = true) ∧
      ∀ id, p.cmd = some id → ∀ h ∈ t.host, h.id = id → h.result = some (0, if late then 1 else 0, 0)) ∧
  ∀ (s : State) (l : Fin 16448),
    let r := routerOf l
    s.portExists l = true → s.routerRuns r = true →
    (∀ (v : Fin 8) i f, s.fld (trCtl r) F.TR_CTL.TOCR ≠ 0 → i ∈ inputsOf r → s.front i v = some f → s.fate r i v f = .send l →
      s.noCredit l v f = true → exec (.creditTimeout l v) s = .next (s.board l 1)) ∧
    (∀ (v : Fin 8) pk rest, s.fld (trCtl r) F.TR_CTL.TOCR ≠ 0 → (s.fmQueue l v).pks = pk :: rest →
      s.noCredit l v (flitAt pk (s.fmQueue l v).done) = true → exec (.creditTimeout l v) s = .next (s.board l 1)) ∧
    (∀ u, s.fld (trCtl r) F.TR_CTL.TOCP ≠ 0 → localPort l = true → u ∈ s.tracked → u.link = l.val → u.posted = false → u.cpl = false →
      exec (.completionTimeout l) s = .next (s.board l 2)) ∧
    (r = 256 ∨ s.pathUp (r / 64) = true → exec (.trCmdBoard l) s = .next (s.board l 0)) ∧
    (∀ cause, cause < 4 → s.boarded l = false → fmPort l = true →
      let t := s.board l cause
      t.boarded l = true ∧ t.owns = s.owns ∧ t.tins = s.tins ∧ (∀ v, v < 4 → (t.fmQueue l v).pks = []) ∧
      (∀ e ∈ t.fmSeq, ∀ p ∈ e.left, fmPortOf (p.sc / 2) ≠ l) ∧
      (∀ e p, s.fmSeq = [e] → e.left = [p] → fmPortOf (p.sc / 2) = l → e.done = [] → p.at_ < 64 → e.pk.dst = l → e.pk.cmd = cRD →
        t.fmSeq = [] ∧ t.srcs = (s.launch (cpleOf e.pk eBOARDED)).srcs)) ∧
    (∀ cause, cause < 4 → s.boarded l = false → fmPort l = false →
      let t := s.board l cause
      let reqs := s.tracked.filter fun u => decide (u.link = l.val ∧ u.posted = false ∧ u.cpl = false)
      t.boarded l = true ∧ (∀ v, v < 8 → t.avail l v = linkDepth l) ∧ t.srcs = s.srcs ∧ t.inqs = s.inqs ∧ t.tins = s.tins ∧
      t.tracked = s.tracked.filter (fun u => decide (u.link ≠ l.val)) ∧
      t.owns = s.owns ++ reqs.map (fun u =>
        { dst := u.src, src := l, cmd := cCPLE, prio := Fin.ofNat 4 u.prio, tag := Fin.ofNat 1024 u.tag, ecode := eBOARDED }) ∧
      t.fld (trErr r) (if r = 256 then F.HTR_ERR.BCAUSE else F.TR_ERR.BCAUSE) = cause) ∧
    (s.boarded l = true → s.board l 0 = s) ∧
    (r = 256 ∨ s.pathUp (r / 64) = true → (s.boarded l = false ∨ s.parkBrd.contains l.val = true) → exec (.trCmdUnboard l) s = .next s) ∧
    (r = 256 ∨ s.pathUp (r / 64) = true → s.boarded l = true → s.parkBrd.contains l.val = false → ∃ t, exec (.trCmdUnboard l) s = .next t ∧
      t.boarded l = false ∧
      (∀ v, v < 8 → t.avail l v = linkDepth l ∧ t.tin l v = if v < 4 then [] else s.tin l v) ∧ (∀ u ∈ t.tracked, u.link ≠ l.val) ∧
      t.srcs = s.srcs ∧ t.owns = s.owns) ∧
    (∀ (d : Fin 4) (p : Fin 64), s.routerRuns (paneId d p) = true → s.pathUp d = true → ∃ t, exec (.trCmdSnap d p) s = .next t ∧
      t = { s with regs := t.regs } ∧
      (∀ x k, x < 12 → k < 16 → t.reg (R.TR_LEDGER d p x k) = if s.portExists (portId (paneId d p) x) then s.led (portId (paneId d p) x) k else 0) ∧
      t.fld (R.TR_STAT d p) F.TR_STAT.SEQ = (s.fld (R.TR_STAT d p) F.TR_STAT.SEQ + 1) % 2 ^ (F.TR_STAT.SEQ.hi + 1 - F.TR_STAT.SEQ.lo)) ∧
    (∀ (d : Fin 4) (p : Fin 64), s.routerRuns (paneId d p) = false → DieReached s d →
      let x := s.pane (paneId d p)
      exec (.trCmdSnap d p) s = .next (s.setPane (paneId d p) { x with snaps := x.snaps + 1 })) ∧
    (∀ v, exec (.trGsnapGo v) s = .next { s.writeReg R.TR_GSNAP (v ||| 0x80000000) with gsnap := true }) ∧
    (s.gsnapDue = 0 → exec .globalCapture s = .next s) ∧
    (s.gsnapDue ≠ 0 → s.hubRuns = true → ∃ t, exec .globalCapture s = .next t ∧
      t = { s with regs := t.regs, panes := t.panes, dies := t.dies, gsnapDue := s.gsnapDue - 1 } ∧
      (∀ x k, x < 33 → k < 16 → t.reg (R.HTR_LEDGER x k) = if s.portExists (portId 256 x) then s.led (portId 256 x) k else 0) ∧
      (∀ e j k, e = 12 ∨ e = 13 → j < 32 → k < 8 → ∀ c, c < 16 → (t.reg (R.HNG_LEDGER e j 0) = (s.leaf e j).cNew ∧
        t.reg (R.HNG_LEDGER e j 1) = (s.leaf e j).cAcked ∧ t.reg (R.HNG_LEDGER e j 2) = (s.leaf e j).cRecalled ∧
        t.reg (R.HNG_LEDGER e j 3) = BitVec.ofNat 32 (s.leaf e j).held.length ∧
        t.reg (R.HNGTR_LEDGER e k c) = s.led (stageLink e k) c)) ∧
      (∀ d p : Nat, d < 4 → p < 64 → s.dieDark d = false → s.pathUp d = true →
        (s.routerRuns (64 * d + p) = true → ∀ x k, x < 12 → k < 16 →
          t.reg (R.TR_LEDGER d p x k) = if s.portExists (portId (64 * d + p) x) then s.led (portId (64 * d + p) x) k else 0) ∧
        (s.routerRuns (64 * d + p) = false → (t.pane (64 * d + p)).gcap = true)) ∧
      (∀ d, d < 4 → s.dieDark d = false → s.pathUp d = false → (SMap.get {} t.dies d).gcap = true) ∧
      t.fld R.TR_GSNAP F.TR_GSNAP.GSEQ = (s.fld R.TR_GSNAP F.TR_GSNAP.GSEQ + 1) % 2 ^ (F.TR_GSNAP.GSEQ.hi + 1 - F.TR_GSNAP.GSEQ.lo)) ∧
    (∀ p, s.park = some p → s.drained0 p.die = true → exec .drainEnd s = .next (s.parkEnd p false)) ∧
    (∀ p, s.park = some p → exec .drainTimeout s = .next ((s.setFld R.TR_GSNAP F.TR_GSNAP.PDEXP 1).parkEnd p true))

/-- R206, R209, Table 8.20: the four commands of the stream directory on the key and the action word that software has written; one written
while another runs is ignored. That a row writes SD_CMD, if no command runs, and performs the command that runs, if it is the row's own, with SD_K and
SD_A as they stand then, is log entries 29 and 158. -/
def Obligations.StreamDirectory : Prop :=
  ∀ (s : State) (klen : Bool),
    let k0 : Word := BitVec.ofNat 40 ((s.reg R.SD_K0H).toNat % 256 * 2 ^ 32 + (s.reg R.SD_K0L).toNat)
    let k1 : Word := if klen then BitVec.ofNat 40 ((s.reg R.SD_K1H).toNat % 256 * 2 ^ 32 + (s.reg R.SD_K1L).toNat) else 0
    let act : Word := BitVec.ofNat 40 ((s.reg R.SD_AH).toNat % 256 * 2 ^ 32 + (s.reg R.SD_AL).toNat)
    let two := [R.SD_CMD, R.SD_RES]
    let res := fun (t : State) => t.fld R.SD_RES F.SD_RES.RESULT
    let ix := fun (t : State) => t.fld R.SD_RES F.SD_RES.INDEX
    let free := fun (i : Nat) => (s.sdEnt i).valid = false
    let may := fun (op : Nat) => s.sdOp = none ∨ s.sdOp = some (op, klen)
    (may 0 → ∃ t, exec (.setmiss klen) s = .next t ∧ t = { s with sdOp := none, regs := t.regs, sdMiss := act } ∧ RegsBut s t two ∧ res t = 0 ∧
      ix t = ix s) ∧
    (∀ i, s.sdFind klen k1 k0 = some i →
      (may 1 → ∃ t, exec (.upsert klen) s = .next t ∧ t = { s with sdOp := none, regs := t.regs, sd := t.sd } ∧ RegsBut s t two ∧ res t = 1 ∧
        ix t = i % 2 ^ 17 ∧
        t.sdEnt i = { s.sdEnt i with act := act } ∧ ∀ j, j ≠ i → t.sdEnt j = s.sdEnt j) ∧
      (may 2 → ∃ t, exec (.delete klen) s = .next t ∧ t = { s with sdOp := none, regs := t.regs, sd := t.sd } ∧ RegsBut s t two ∧ res t = 0 ∧
        ix t = i % 2 ^ 17 ∧
        t.sdEnt i = { s.sdEnt i with valid := false } ∧ ∀ j, j ≠ i → t.sdEnt j = s.sdEnt j) ∧
      (may 3 → ∃ t, exec (.find klen) s = .next t ∧ t = { s with sdOp := none, regs := t.regs } ∧ RegsBut s t two ∧ res t = 0 ∧ ix t = i % 2 ^ 17)) ∧
    (s.sdFind klen k1 k0 = none →
      (may 2 → ∃ t, exec (.delete klen) s = .next t ∧ t = { s with sdOp := none, regs := t.regs } ∧ RegsBut s t two ∧ res t = 2 ∧ ix t = ix s) ∧
      (may 3 → ∃ t, exec (.find klen) s = .next t ∧ t = { s with sdOp := none, regs := t.regs } ∧ RegsBut s t two ∧ res t = 2 ∧ ix t = ix s) ∧
      ((∀ i ∈ sdCandidates klen k1 k0, (s.sdEnt i).valid = true) →
        may 1 → ∃ t, exec (.upsert klen) s = .next t ∧ t = { s with sdOp := none, regs := t.regs } ∧ RegsBut s t two ∧ res t = 3 ∧ ix t = ix s) ∧
      (∀ pre i post, sdCandidates klen k1 k0 = pre ++ i :: post → (∀ j ∈ pre, (s.sdEnt j).valid = true) → free i →
        may 1 → ∃ t, exec (.upsert klen) s = .next t ∧ t = { s with sdOp := none, regs := t.regs, sd := t.sd } ∧ RegsBut s t two ∧ res t = 0 ∧
          ix t = i % 2 ^ 17 ∧
          t.sdEnt i = { valid := true, klen := klen, k1 := k1, k0 := k0, act := act } ∧ ∀ j, j ≠ i → t.sdEnt j = s.sdEnt j)) ∧
    (∀ i, s.sdFind klen k1 k0 = some i → (s.sdEnt i).valid = true ∧ (s.sdEnt i).klen = klen ∧ (s.sdEnt i).k0 = k0 ∧
      (klen = true → (s.sdEnt i).k1 = k1) ∧ i ∈ sdCandidates klen k1 k0) ∧
    (∀ x, s.sdOp = some x → (x ≠ (0, klen) → exec (.setmiss klen) s = .next s) ∧ (x ≠ (1, klen) → exec (.upsert klen) s = .next s) ∧
      (x ≠ (2, klen) → exec (.delete klen) s = .next s) ∧ (x ≠ (3, klen) → exec (.find klen) s = .next s))

/-- R211–R226: the states of a DDR5 controller. INIT of a supported, fitted controller, configured as the others, trains in full, RETRAIN trains
again, an armed one defers either; training ends ONLINE, in full with every block zero, or FAILED at its step; refresh, drift tracking and
patrol run ONLINE; a helper computes the strides of a frame store.
OFFLINE waits for the pieces that the controller has accepted. A failure at step 8 shows TSTEP 0, its low
three bits (log entry 166). An armed INIT waits without DEFER (log entry 28).
R215, R217, R218: word X of frame memory lies in word X mod 15 of block X / 15, whose sub-channel is its number modulo NSC and whose local number the
quotient. The splitter divides a request into one piece for each block and sends each to its controller; a read is answered with the words in address
order, ADD and SWAP answer and change one word, a failing piece gives its cause, the lowest address first, and a boarded port BOARDED; a request that
leaves frame memory draws RANGE at the hub. How the splitter holds requests is log entry 160.
R221, R223: a controller that is not ONLINE holds no piece, refusing each at once. One that is performs the piece of a channel once no earlier request
has a piece of its block and no priority that waits has had less service for its weight, unless a piece has waited 2 µs (log entry 129).
R216, Table 9.2: the components hold a local block at the bank group, column, bank, row and rank that its bits give. -/
def Obligations.FrameMemory : Prop :=
  (
  ∀ (s : State) (c : Fin 8),
    let st := fun (u : State) => u.fld (R.DDR_STATUS c) F.DDR_STATUS.STATE
    let free := SMap.get 0 s.armedBy (ddrMember c) = 0
    let idle := s.fmTouches c = false ∧ ∀ v, v < 4 → (s.fmQueue (fmPortOf c) v).pks = []
    let single := (∀ v, v < 4 → (s.fmQueue (fmPortOf c) v).pks = []) ∧ ∀ w q, w < 4 → s.headAt (fmPortOf c) w = some q → vcOf q = w ∧
      (s.popTin (fmPortOf c) w).tin (fmPortOf c) w = []
    let locks := [R.DDR_STATUS c, R.DDR_MAP, R.CLK_HLSTAT]
    let began := { s.ddr c with initWait := false }
    let fitted := ∀ sc, sc < s.nsc → s.ddrFitted sc = true
    ((st s = 0 ∨ st s = 4) → free → s.ddrCfgOk c = true → s.ddrAlike c = true → fitted → s.rateClash c = false →
      ∃ t, exec (.ddrInit c) s = .next t ∧ t = { s with regs := t.regs, clk := t.clk, ddrs := t.ddrs } ∧ RegsBut s t locks ∧ st t = 1 ∧
        t.flag (R.DDR_STATUS c) F.DDR_STATUS.LOCK = true ∧ t.ddr c = { began with full := true, rstN := false } ∧
        t.clk.rate2 = s.fld (R.DDR_CFG c) F.DDR_CFG.RATE ∧ ∀ k, k ≠ c.val → t.ddr k = s.ddr k) ∧
    ((st s = 0 ∨ st s = 4) → free → (s.ddrCfgOk c = false ∨ s.ddrAlike c = false) → ∃ t, exec (.ddrInit c) s = .next t ∧ st t = 4 ∧
      t.fld (R.DDR_STATUS c) F.DDR_STATUS.TSTEP = 0 ∧ RegsBut s t [R.DDR_STATUS c, R.DDR_MAP] ∧
      t = { s with regs := t.regs, ddrs := t.ddrs, fresh := s.fresh + 1 } ∧ t.ddr c = began) ∧
    ((st s = 0 ∨ st s = 4) → free → s.ddrCfgOk c = true → s.ddrAlike c = true → fitted → s.rateClash c = true →
      ∃ t, exec (.ddrInit c) s = .next t ∧ st t = 4 ∧ t.fld (R.DDR_STATUS c) F.DDR_STATUS.TSTEP = 1 ∧
        RegsBut s t [R.DDR_STATUS c, R.DDR_MAP] ∧ t = { s with regs := t.regs, ddrs := t.ddrs, fresh := s.fresh + 1 } ∧ t.ddr c = began) ∧
    ((st s = 0 ∨ st s = 4) → ¬ free → exec (.ddrInit c) s = .next (s.setDdr c { s.ddr c with initWait := true })) ∧
    ((st s = 0 ∨ st s = 4) → free → (s.ddr c).initWait = true → exec (.deferredRetrain c) s = exec (.ddrInit c) s) ∧
    (st s ≠ 0 → st s ≠ 4 → exec (.ddrInit c) s = .next s) ∧
    ((st s = 2 ∨ st s = 3) → free → idle → ∃ t, exec (.ddrRetrain c) s = .next t ∧ t = { s with regs := t.regs, ddrs := t.ddrs } ∧ RegsBut s t locks ∧
      st t = 1 ∧ t.ddr c = { s.ddr c with full := false, offWait := false } ∧ t.flag (R.DDR_STATUS c) F.DDR_STATUS.DEFER = false) ∧
    ((st s = 2 ∨ st s = 3) → ¬ free → exec (.ddrRetrain c) s = .next (s.setFld (R.DDR_STATUS c) F.DDR_STATUS.DEFER 1)) ∧
    ((st s = 2 ∨ st s = 3) → s.flag (R.DDR_STATUS c) F.DDR_STATUS.DEFER = true → free → idle → ∃ t, exec (.deferredRetrain c) s = .next t ∧
      t = { s with regs := t.regs, ddrs := t.ddrs } ∧ RegsBut s t locks ∧ st t = 1 ∧ t.flag (R.DDR_STATUS c) F.DDR_STATUS.DEFER = false) ∧
    ((st s = 2 ∨ st s = 3) → free → single → ∃ t, exec (.ddrRetrain c) s = .next t ∧ st t = 1 ∧ t.fmTouches c = false) ∧
    (∀ pk, pk.dst = fmPortOf c → s.ddrOnline c = false → single → (s.fmArrive pk).fmTouches c = false) ∧
    (st s = 2 → s.fmTouches c = false → ∃ t, exec (.ddrOffline c) s = .next t ∧ t = { s with regs := t.regs } ∧ RegsBut s t locks ∧ st t = 3) ∧
    (st s = 2 → s.fmTouches c = true → exec (.ddrOffline c) s = .next (s.setDdr c { s.ddr c with offWait := true })) ∧
    (st s = 3 → ∃ t, exec (.ddrOnline c) s = .next t ∧ t = { s with regs := t.regs } ∧ RegsBut s t locks ∧ st t = 2) ∧
    (∀ sc, s.ddrTraining c = true → ((s.ddr c).full = true → (s.ddr c).inj0 = 0 ∧ (s.ddr c).inj1 = 0) →
      ∃ t, exec (.ddrTrainingDone c 0 sc) s = .next t ∧ RegsBut s t locks ∧ st t = 2 ∧
      t = { s with regs := t.regs, fm := t.fm, fmErr := t.fmErr, ddrs := t.ddrs } ∧ t.ddr c = { s.ddr c with rstN := true } ∧
      (∀ ch bl k : Nat, bl < 2 ^ 27 → k < 16 →
        t.fmWord ch bl k = if (s.ddr c).full = true ∧ ch / 2 = c then 0 else s.fmWord ch bl k)) ∧
    (∀ (step : Fin 9) sc, s.ddrTraining c = true → step ≠ 0 → ((s.ddr c).full = true ∨ 3 ≤ step.val ∧ step.val ≤ 7) →
      ∃ t, exec (.ddrTrainingDone c step sc) s = .next t ∧
      t = { s with regs := t.regs, ddrs := t.ddrs } ∧ t.ddr c = { s.ddr c with rstN := (s.ddr c).rstN || decide (3 ≤ step.val) } ∧
      RegsBut s t locks ∧ st t = 4 ∧ t.fld (R.DDR_STATUS c) F.DDR_STATUS.TSTEP = step.val % 8 ∧
      t.fld (R.DDR_STATUS c) F.DDR_STATUS.FSC = sc ∧ t.flag (R.DDR_STATUS c) F.DDR_STATUS.LOCK = false) ∧
    (∀ (step : Fin 9) sc, s.ddrTraining c = false ∨ step ≠ 0 ∧ (s.ddr c).full = false ∧ (step.val < 3 ∨ step.val = 8) →
      exec (.ddrTrainingDone c step sc) s = .next s) ∧
    (st s = 2 → exec (.ddrRefresh c) s = .next { s with out := .ddrRefresh c :: s.out } ∧
      exec (.dqsDriftTrack c) s = .next { s with out := .ddrTrack c :: s.out }) ∧
    (let d := s.ddr c
     let sc := 2 * c.val + d.patrol % 2
     let bl := d.patrol / 2
     let next := { d with patrol := (d.patrol + 1) % (2 * s.ddrBlocks c) }
     let loc := blkLoc (s.fld (R.DDR_CFG c) F.DDR_CFG.COMP) (s.fld (R.DDR_CFG c) F.DDR_CFG.RANKS) bl
     let wrong := (s.blkErr sc bl).symbols
     st s = 2 → s.flag (R.DDR_SCRUB c) F.DDR_SCRUB.PEN = true → s.fmTouches c = false → s.ddrFitted sc = true →
      (wrong = [] → exec (.ddrPatrolScrub c) s = .next { s.setDdr c next with out := .ddrBurst sc false loc :: s.out }) ∧
      (∀ n i, wrong = [(n, i)] → d.inj0 = 0 → d.inj1 = 0 → ∃ t, exec (.ddrPatrolScrub c) s = .next t ∧ t.blkErr sc bl = {} ∧ t.ddr c = next ∧
        t.fm = s.fm ∧
        t.out = .ddrBurst sc true loc :: .ddrBurst sc false loc :: s.out ∧ t.flag (ddrErr sc) F.DDR_ERR.CE = true ∧
        (s.fld (R.DDR_CFG c) F.DDR_CFG.COMP ≠ 2 → t.fld (ddrErr sc) F.DDR_ERR.CEDEV = i)) ∧
      (∀ a b, wrong = [a, b] → ∃ t, exec (.ddrPatrolScrub c) s = .next t ∧ t.fmErr = s.fmErr ∧ t.fm = s.fm ∧ t.ddr c = next ∧
        t.flag (ddrErr sc) F.DDR_ERR.UE = true)) ∧
    (∀ (v : BitVec 32),
      let lw := getF v F.DDR_FSHIN.LWORDS
      let ln := getF v F.DDR_FSHIN.LINES
      let lblk := (lw + 14) / 15
      ∃ t, exec (.frameStoreHelper v) s = .next t ∧ t = { s with regs := t.regs } ∧ RegsBut s t [R.DDR_FSHIN, R.DDR_FSHL, R.DDR_FSHF] ∧
        (lw ≠ 0 → ln ≠ 0 →
          t.fld R.DDR_FSHL F.DDR_FSHL.LBLK = lblk % 2 ^ (F.DDR_FSHL.LBLK.hi + 1 - F.DDR_FSHL.LBLK.lo) ∧
          t.fld R.DDR_FSHL F.DDR_FSHL.LSTRIDE = 15 * lblk % 2 ^ (F.DDR_FSHL.LSTRIDE.hi + 1 - F.DDR_FSHL.LSTRIDE.lo) ∧
          t.reg R.DDR_FSHF = BitVec.ofNat 32 (15 * (s.nsc * ((lblk * ln + s.nsc - 1) / s.nsc)))) ∧
        ((lw = 0 ∨ ln = 0) → t.reg R.DDR_FSHL = 0 ∧ t.reg R.DDR_FSHF = 0))
  ) ∧
  (
  ∀ (s : State) (pk : Packet),
    let x := pk.addr.toNat - 0x100000000
    let n := if pk.cmd = cRD ∨ pk.cmd = cWR ∨ pk.cmd = cWRP then pk.len.val else 1
    pk.cmd = cRD ∨ pk.cmd = cWR ∨ pk.cmd = cWRP ∨ pk.cmd = cADD ∨ pk.cmd = cSWAP →
    (s.fmPieces pk).Pairwise (fun p q => p.at_ < q.at_) ∧
    (∀ p ∈ s.fmPieces pk, 1 ≤ p.n ∧ p.k + p.n ≤ 15 ∧ p.at_ + p.n ≤ n) ∧
    ∀ i, i < n → ∃ p ∈ s.fmPieces pk, p.at_ ≤ i ∧ i < p.at_ + p.n ∧ p.sc = (x + i) / 15 % s.nsc ∧ p.bl = (x + i) / 15 / s.nsc ∧
      p.k + (i - p.at_) = (x + i) % 15
  ) ∧
  (
  ∀ (s : State) (pk : Packet) (ps done : List FmPart), ps.Pairwise (fun p q => p.at_ < q.at_) → (∀ p ∈ ps, p.at_ < 64) → done.Perm ps →
    (pk.cmd = cRD → (∀ p ∈ ps, p.cause = 0) → s.fmAnswer pk done =
      (let ws := ps.flatMap FmPart.words
       s.launch { cplOf pk with data := ws, len := Fin.ofNat 65 ws.length })) ∧
    (pk.cmd = cWR → (∀ p ∈ ps, p.cause = 0 ∧ p.words = []) → s.fmAnswer pk done = s.launch (cplOf pk)) ∧
    (pk.cmd = cADD ∨ pk.cmd = cSWAP → ∀ p w, ps = [p] → p.cause = 0 → p.words = [w] → s.fmAnswer pk done = s.launch { cplOf pk with opnd := w }) ∧
    (∀ pre p post, ps = pre ++ p :: post → (∀ q ∈ pre, q.cause = 0) → p.cause ≠ 0 →
      s.fmAnswer pk done = if pk.cmd = cWRP ∨ pk.cmd = cMSG then s else s.launch (cpleOf pk p.cause))
  ) ∧
  (
  ∀ (s : State) (v : Fin 4) (f : TFlit) (p : Piece),
    let h := headerOf f.w
    let pk := { h with dst := fmPortOf (p.sc / 2) }
    let l := fmPortOf (p.sc / 2)
    let q := piecePacket pk p
    f.head = true → (h.cmd = cRD ∨ h.cmd = cADD ∨ h.cmd = cSWAP) → v.val = vcOf h → s.tin memLink v = [] → s.fmPieces h = [p] → p.sc < 16 →
    s.fmOwner q false = none → (∀ e ∈ s.fmSeq, e.left ≠ []) →
    (s.boarded l = true → ∃ t, s.sendFlit memLink v f = t ∧
      t = { (s.absorbPiece l q 0).launch (cpleOf pk eBOARDED) with tins := t.tins } ∧ t.fmSeq = s.fmSeq) ∧
    (s.boarded l = false → s.fmQueue l v = {} → s.noCredit l v (flitAt q 0) = false → s.tin l v = [] → s.ddrOnline (p.sc / 2) = true →
      ∃ t, s.sendFlit memLink v f = t ∧
        t = { s with ledger := t.ledger, tracked := t.tracked, tins := t.tins, fmOut := t.fmOut, fmSeq := t.fmSeq } ∧
        t.headAt l v = some q ∧ t.fmQueue l v = {} ∧
        t.fmSeq = s.fmSeq ++ [{ pk := pk, left := [{ p with since := some s.tbu.run }] }])
  ) ∧
  (
  ∀ (s : State) (i : Fin 16448) (pk : Packet) (j : Nat) (f : TFlit),
    let h := headerOf f.w; let v := vcOf pk
    let s1 := (s.setWorm j v ⟨h, none, 0⟩).leave j v
    routerOf i = 256 → s.routerRuns 256 = true → s.wayOf i pk = some j → s.front j v = some f → f.head = true → flitsOf h = 1 → f.fails = false →
    h.dst = memLink → isCompletion h.cmd = false → posted h.cmd = false →
    (∃ k, k < spanOf h ∧ let x := h.addr.toNat - 0x100000000 + k
      s.ddrBlocks (x / 15 % s.nsc / 2) ≤ x / 15 / s.nsc) →
    exec (.packetForward i pk) s = .next { s1 with
      owns := s1.owns ++ [{ dst := h.src, src := memLink, cmd := cCPLE, prio := h.prio, tag := h.tag, ecode := eRANGE }] }
  ) ∧
  (
  ∀ (s : State) (pk : Packet) (c : Fin 8) (e : FmReq) (p : Piece) (pre post : List FmReq),
    let l := fmPortOf c
    let v := vcOf pk
    let W := fun (q : Nat) => max 1 (bitsOf (s.live (ddrMember c) (R.DDR_QOS c)).toNat (4 * q + 3) (4 * q))
    let still := (s.fmQueue l v).pks = [] ∧ (s.ddr c).qosOld = none ∧ (s.ddr c).offWait = false
    let due := s.ddrOnline c = true ∧ s.pieceDue e p = true ∧ s.qosNext c v = true
    let sound := (s.blkErr p.sc p.bl).symbols = [] ∧ (s.blkErr p.sc p.bl).ue = false ∧ p.bl < 2 ^ 27 ∧ (s.ddr c).inj0 = 0 ∧ (s.ddr c).inj1 = 0
    let ends := fun (r : FmPart) => ({ s.fmTake pk with fmSeq := pre ++ post } : State).fmAnswer e.pk (e.done ++ [r])
    let kept := fun (t : State) => t.ddr c = { s.ddr c with used := (t.ddr c).used } ∧ ∀ k, k ≠ c.val → t.ddr k = s.ddr k
    let only := fun (t : State) (k n : Nat) (w : Nat → Word) => ∀ ch b i, b < 2 ^ 27 → i < 16 →
      t.fmWord ch b i = if ch = p.sc ∧ b = p.bl ∧ k ≤ i ∧ i < k + n then w (i - k) else s.fmWord ch b i
    pk.dst = l → s.fmSeq = pre ++ e :: post → e ∉ pre → (∀ y ∈ pre ++ post, y.left ≠ []) → p.sc / 2 = c → p.k + p.n ≤ 15 →
    s.fmOwner pk true = some (e, p) →
    (∀ host, ReadyAt s cRD pk → still → due → sound →
      let r : FmPart := ⟨p.at_, (List.range p.n).map fun i => s.fmWord p.sc p.bl (p.k + i), 0⟩
      (e.left = [p] → ∃ t, exec (.rd pk host) s = .next t ∧ t = { ends r with out := t.out, ddrs := t.ddrs } ∧ kept t) ∧
      (e.left.erase p ≠ [] → ∃ t, exec (.rd pk host) s = .next t ∧ t = { s.fmTake pk with
        fmSeq := pre ++ { e with left := e.left.erase p, done := e.done ++ [r] } :: post, out := t.out, ddrs := t.ddrs } ∧ kept t)) ∧
    (e.left = [p] → still → due → sound → pk.data.length = p.n → anyFails pk = false → pk.cmd = cWR ∨ pk.cmd = cWRP → ReadyAt s pk.cmd pk →
      ∃ t, (∀ ok, pk.cmd = cWR → exec (.wr pk ok) s = .next t) ∧ (∀ ok, pk.cmd = cWRP → exec (.wrp pk ok) s = .next t) ∧
        t = { ends ⟨p.at_, [], 0⟩ with fm := t.fm, fmErr := t.fmErr, regs := t.regs, out := t.out, ddrs := t.ddrs } ∧ kept t ∧
        only t p.k p.n (fun i => pk.data.getD i 0) ∧ RegsBut s t [ddrErr p.sc] ∧
        t.fld (ddrErr p.sc) F.DDR_ERR.RMW = (if p.n = 15 then s.fld (ddrErr p.sc) F.DDR_ERR.RMW else
          min (s.fld (ddrErr p.sc) F.DDR_ERR.RMW + 1) (2 ^ (F.DDR_ERR.RMW.hi + 1 - F.DDR_ERR.RMW.lo) - 1))) ∧
    (e.left = [p] → still → due → sound → p.n = 1 →
      let old := s.fmWord p.sc p.bl p.k
      let swapped := fun (res : Res) (w : Word) => ∃ t, res = .next t ∧
        t = { ends ⟨p.at_, [old], 0⟩ with fm := t.fm, fmErr := t.fmErr, out := t.out, ddrs := t.ddrs } ∧ kept t ∧ only t p.k 1 fun _ => w
      (ReadyAt s cADD pk → swapped (exec (.transomAdd pk) s) (old + pk.opnd)) ∧ (ReadyAt s cSWAP pk → swapped (exec (.swap pk) s) pk.opnd)) ∧
    (∀ host, ReadyAt s cRD pk → still → s.ddrOnline c = false → e.left = [p] →
      exec (.rd pk host) s = .next (ends ⟨p.at_, List.replicate p.n 0, eREFUSED⟩)) ∧
    (∀ ok, ReadyAt s cWRP pk → still → s.ddrOnline c = false → e.left = [p] → e.pk.cmd = cWRP →
      ∃ t, exec (.wrp pk ok) s = .next t ∧ t = { s.fmTake pk with fmSeq := pre ++ post, regs := t.regs } ∧ RegsBut s t [R.DDR_STATUS c] ∧
        t.fld (R.DDR_STATUS c) F.DDR_STATUS.DROP =
          min (s.fld (R.DDR_STATUS c) F.DDR_STATUS.DROP + 1) (2 ^ (F.DDR_STATUS.DROP.hi + 1 - F.DDR_STATUS.DROP.lo) - 1)) ∧
    (∀ host, ReadyAt s cRD pk → (s.fmQueue l v).pks = [] → (s.ddr c).qosOld = none → (s.ddr c).offWait = true → due → sound →
      (s.fmTake pk).fmTouches c = false → ∃ t, exec (.rd pk host) s = .next t ∧ t.fld (R.DDR_STATUS c) F.DDR_STATUS.STATE = 3) ∧
    (∀ host, ReadyAt s cRD pk → s.ddrOnline c = true →
      ((∃ y ∈ pre, ∃ q ∈ y.left, q.sc = p.sc ∧ q.bl = p.bl) ∨
       ((s.ddr c).qosOld = none ∧ (∀ y ∈ s.fmAt c, s.fmAged y.2 = false) ∧ ∃ q ∈ s.fmContenders c, s.qosUsed c q * W v < s.qosUsed c v * W q)) →
      exec (.rd pk host) s = .next s)
  ) ∧
  (
  ∀ (s : State) (pk : Packet) (c : Fin 8) (host : Option (List (BitVec 40))),
    let x := pk.addr.toNat - 0x100000000
    let l := fmPortOf c
    pk.dst = l → ReadyAt s cRD pk → s.fmOwner pk true = none → (s.fmQueue l (vcOf pk)).pks = [] → (s.ddr c).qosOld = none →
    (s.ddr c).offWait = false → x / 15 % s.nsc / 2 = c → (s.blkErr (x / 15 % s.nsc) (x / 15 / s.nsc)).symbols = [] →
    ∃ t, exec (.rd pk host) s = .next t ∧ t.fmSeq = s.fmSeq ∧ t.srcs = s.srcs ∧ t.fm = s.fm ∧ t.led l 9 = s.led l 9 + 1
  ) ∧
  (∀ bl : Nat, bl < 2 ^ 27 →
    (let a := blkLoc 0 1 bl
     bl = a.bankGroup + 2 ^ 3 * a.column + 2 ^ 9 * a.bank + 2 ^ 10 * a.row + 2 ^ 26 * a.rank ∧ a.bankGroup < 8 ∧ a.column < 64 ∧ a.bank < 2 ∧
       a.row < 65536 ∧ a.rank < 2) ∧
    (let a := blkLoc 1 0 bl
     bl = a.bankGroup + 2 ^ 3 * a.column + 2 ^ 9 * a.bank + 2 ^ 11 * a.row ∧ a.bankGroup < 8 ∧ a.column < 64 ∧ a.bank < 4 ∧ a.row < 65536 ∧
       a.rank = 0) ∧
    (let a := blkLoc 2 0 bl
     bl = a.bankGroup + 2 ^ 3 * a.column + 2 ^ 10 * a.bank + 2 ^ 11 * a.row ∧ a.bankGroup < 8 ∧ a.column < 128 ∧ a.bank < 2 ∧ a.row < 65536 ∧
       a.rank = 0))

/-- R229, R230, R237, R238, R249: an enabled lane starts once its quad's loop is locked, or sets CFGERR, and stops when it is disabled, with CFGERR
0 (log entry 169), or the loop is lost; a recovered clock gains and loses lock; forty received bits are pushed as one word and a transmit queue's
word, or its idle word with an underrun, leaves, but nothing while the transmitter is not driven; an eye measurement runs while CDR holds and
reports its disagreements. R239–R247: native bring-up of a lane. Enabling or RETRAIN enters SEEK at step 0; a good frame counts, two in a row lock
the marker, and its items are taken in order; a bad one counts while locked (one with a stuff error and a bad CRC sets STUFF alone, log entry 148),
and the fourth without a marker loses the lock, taking UP to DOWN; a frame sent takes its items from the transmit queue while the lane is UP and
says the lane's capability once in 16 frames (at first at once, log entry 168); after 64 frames with GO the next step begins, a step without RDY
falls back to the one below it under a lower ceiling, and bring-up starts again where that does not help. -/
def Obligations.FabricLanes : Prop :=
  (
  ∀ (s : State) (d : Fin 4) (l : Fin 32) (dt : Nat),
    let st := R.LANE_STAT d l
    let err := R.LANE_ERR d l
    let qc := R.LANE_QCLK d (l / 4)
    let pane := paneId d (2 * l)
    let s1 := s.advance pane dt
    let eye := R.LANE_EYE d l
    let rst := R.LANE_CNT_RST d l
    let mine := [st, err, qc, R.LANE_CTL d l, R.LANE_CTLE d l, eye, R.LANE_EYER d l, rst]
    let q : Fin 8 := Fin.ofNat 8 (l / 4)
    let locked := s.flag qc F.LANE_QCLK.QLOCK
    (DieReached s d → s.flag (R.LANE_CTL d l) F.LANE_CTL.EN = false → s.laneRun d l = false → ∃ t, exec (.laneEnable d l true) s = .next t ∧
        t = { s with regs := t.regs, lanes := t.lanes, fresh := t.fresh } ∧ RegsBut s t mine ∧
        t.flag (R.LANE_CTL d l) F.LANE_CTL.EN = true ∧ t.flag qc F.LANE_QCLK.QRUN = true ∧
        t.flag st F.LANE_STAT.RUN = (locked || s.flag st F.LANE_STAT.RUN) ∧
        t.flag st F.LANE_STAT.CFGERR = (!s.laneCfgOk d l) ∧
        (s.laneCfgOk d l = false → s.flag st F.LANE_STAT.CFGERR = false → t.flag err F.LANE_ERR.CFG = true) ∧
        (s.laneCfgOk d l = true → s.laneNative d l = true → locked = true →
          t.fld st F.LANE_STAT.NSTATE = 1 ∧ t.fld st F.LANE_STAT.STEP = 0 ∧ t.fld st F.LANE_STAT.CEIL = 3 ∧ t.flag st F.LANE_STAT.CDR = false ∧
          t.lane d l = {} ∧ t.fresh = s.fresh + 1 ∧
          t.fld rst F.LANE_CNT_RST.COUNT = min (2 ^ 32 - 1) (s.fld rst F.LANE_CNT_RST.COUNT + 1)) ∧
        (s.laneCfgOk d l = false ∨ s.laneNative d l = false ∨ locked = false →
          t.lanes = s.lanes ∧ t.fresh = s.fresh ∧ t.reg rst = s.reg rst ∧ t.fld st F.LANE_STAT.NSTATE = s.fld st F.LANE_STAT.NSTATE)) ∧
    (DieReached s d → s.flag (R.LANE_CTL d l) F.LANE_CTL.EN = true →
      ∃ t, exec (.laneEnable d l false) s = .next t ∧ t = { s with regs := t.regs, lanes := t.lanes } ∧ RegsBut s t mine ∧
        t.flag (R.LANE_CTL d l) F.LANE_CTL.EN = false ∧ t.flag st F.LANE_STAT.RUN = false ∧ t.flag st F.LANE_STAT.CDR = false ∧
        t.fld st F.LANE_STAT.NSTATE = 0 ∧ t.flag st F.LANE_STAT.CFGERR = false) ∧
    (s.dieDark d = false → s.hasPref d = true → s.flag qc F.LANE_QCLK.QRUN = true → locked = false →
      1 ≤ s.fld qc F.LANE_QCLK.FAM → s.fld qc F.LANE_QCLK.FAM < 6 →
      ∃ t, exec (.quadLock d q) s = .next t ∧ t.flag qc F.LANE_QCLK.QLOCK = true ∧ t.fld qc F.LANE_QCLK.TOFS = 0 ∧
        t = { s with regs := t.regs, lanes := t.lanes, fresh := t.fresh } ∧
        (s.laneEn d l = true → t.flag st F.LANE_STAT.RUN = true) ∧
        (s.laneEn d l = true → s.laneRun d l = false → t.flag st F.LANE_STAT.CFGERR = (!s.laneCfgOk d l)) ∧
        (s.laneEn d l = true → s.laneRun d l = false → s.laneCfgOk d l = true → s.laneNative d l = true →
          t.fld st F.LANE_STAT.NSTATE = 1 ∧ t.fld st F.LANE_STAT.STEP = 0 ∧ t.fld st F.LANE_STAT.CEIL = 3 ∧ t.lane d l = {}) ∧
        (s.laneEn d l = false → t.reg st = s.reg st ∧ t.lane d l = s.lane d l)) ∧
    (s.dieDark d = true ∨ s.hasPref d = false ∨ s.flag qc F.LANE_QCLK.QRUN = false ∨ locked = true → exec (.quadLock d q) s = .next s) ∧
    (locked = true → ∃ t, exec (.quadLossOfLock d q) s = .next t ∧ t = { s with regs := t.regs, lanes := t.lanes } ∧
        t.flag qc F.LANE_QCLK.QLOCK = false ∧ t.flag st F.LANE_STAT.RUN = false ∧ t.flag st F.LANE_STAT.CDR = false ∧
        t.fld st F.LANE_STAT.NSTATE = 0 ∧ t.flag err F.LANE_ERR.LOL = true) ∧
    (locked = false → exec (.quadLossOfLock d q) s = .next s) ∧
    (s.laneRun d l = true → s.laneNative d l = false → s.laneCdr d l = false →
      s.liveF (laneMember d l) (R.LANE_CTLE d l) F.LANE_CTLE.AUTO = 0 →
      exec (.cdrLockChange d l true) s = .next ((s.setFld st F.LANE_STAT.CDR 1).setFld err F.LANE_ERR.LCHG 1)) ∧
    (s.laneRun d l = true → s.laneNative d l = false → s.laneCdr d l = false →
      s.liveF (laneMember d l) (R.LANE_CTLE d l) F.LANE_CTLE.AUTO = 1 → ∃ t, exec (.cdrLockChange d l true) s = .next t ∧
        t = { s with regs := t.regs, fresh := s.fresh + 1 } ∧ RegsBut s t [st, err, R.LANE_CTLE d l] ∧ t.flag st F.LANE_STAT.CDR = true ∧
        t.flag err F.LANE_ERR.LCHG = true) ∧
    (s.laneRun d l = true → s.laneNative d l = false → s.laneCdr d l = true → s.flag eye F.LANE_EYE.BUSY = false →
      exec (.cdrLockChange d l false) s =
        .next (((s.setFld st F.LANE_STAT.CDR 0).setFld err F.LANE_ERR.LCHG 1).setFld err F.LANE_ERR.LOL 1)) ∧
    (s.laneRun d l = true → s.laneNative d l = false → s.laneCdr d l = true → s.flag eye F.LANE_EYE.BUSY = true →
      ∃ t, exec (.cdrLockChange d l false) s = .next t ∧ t = { s with regs := t.regs } ∧ RegsBut s t mine ∧ t.flag st F.LANE_STAT.CDR = false ∧
        t.flag err F.LANE_ERR.LCHG = true ∧ t.flag err F.LANE_ERR.LOL = true ∧ t.flag eye F.LANE_EYE.BUSY = false ∧
        t.flag eye F.LANE_EYE.DONE = true ∧ t.reg (R.LANE_EYER d l) = 0xFFFFFFFF) ∧
    (∀ (w : Word), ∃ s2 t, exec (.laneReceiveWord d l w dt) s = .next t ∧
      (¬ (s1.laneRun d l = true ∧ s1.laneNative d l = false ∧ s1.laneCdr d l = true) → t = s1) ∧
      (s1.laneRun d l = true → s1.laneNative d l = false → s1.laneCdr d l = true →
        (s1.liveF (laneMember d l) (R.LANE_CTLE d l) F.LANE_CTLE.AUTO = 0 → s2 = s1) ∧
        (s1.liveF (laneMember d l) (R.LANE_CTLE d l) F.LANE_CTLE.AUTO = 1 → s2 = { s1 with regs := s2.regs, fresh := s1.fresh + 1 } ∧
          RegsBut s1 s2 [R.LANE_CTLE d l]) ∧
        LaneTakes d l (if s1.laneRxInv d l then ~~~ w else w) false s2 t)) ∧
    (let b := s1.laneTq d l
     let p := s1.popBound pane b.2.1 b.2.2
     let line := fun (w : Word) => OutEv.laneWord d l (if s1.laneTxInv d l then ~~~ w else w)
     let under := fun (a : State) => (a.addSat (R.LANE_CNT_UNDR d l) F.LANE_CNT_UNDR.COUNT 1).setFld err F.LANE_ERR.UNDR 1
     (s1.laneRun d l = false ∨ s1.laneNative d l = true ∨ s1.laneDrives d l = false → exec (.laneTransmitWord d l dt) s = .next s1) ∧
     (s1.laneRun d l = true → s1.laneNative d l = false → s1.laneDrives d l = true →
      (s1.served pane b false .lane = true → s1.laneServed d l = true → p.1.2.2 = true →
        exec (.laneTransmitWord d l dt) s = .next (p.2.emit (line p.1.1))) ∧
      (s1.served pane b false .lane = true → s1.laneServed d l = true → p.1.2.2 = false →
        exec (.laneTransmitWord d l dt) s = .next ((under p.2).emit (line (s1.idleWord pane b.2.1 b.2.2)))) ∧
      (s1.served pane b false .lane = true → s1.laneServed d l = false →
        exec (.laneTransmitWord d l dt) s = .next ((under s1).emit (line (s1.idleWord pane b.2.1 b.2.2)))) ∧
      (s1.served pane b false .lane = false →
        exec (.laneTransmitWord d l dt) s = .next (((under s1).setFld err F.LANE_ERR.UNB 1).emit (line 0xAAAAAAAAAA))))) ∧
    (DieReached s d → s.laneCdr d l = true → s.flag eye F.LANE_EYE.BUSY = false →
      ∃ t, exec (.eyego d l) s = .next t ∧ t = { s with regs := t.regs, lanes := t.lanes } ∧ RegsBut s t mine ∧
        t.flag eye F.LANE_EYE.BUSY = true ∧ t.lane d l = { s.lane d l with gate := max 16 (s.fld eye F.LANE_EYE.GATE) }) ∧
    (DieReached s d → s.laneCdr d l = false → s.flag eye F.LANE_EYE.BUSY = false →
      ∃ t, exec (.eyego d l) s = .next t ∧ t = { s with regs := t.regs } ∧ RegsBut s t mine ∧ t.flag eye F.LANE_EYE.DONE = true ∧
        t.flag eye F.LANE_EYE.BUSY = false ∧ t.reg (R.LANE_EYER d l) = 0xFFFFFFFF) ∧
    (DieReached s d → s.flag eye F.LANE_EYE.BUSY = true → exec (.eyego d l) s = .next s) ∧
    (∀ errs, s.flag eye F.LANE_EYE.BUSY = true →
      exec (.eyeDone d l errs) s = .next (((s.setFld eye F.LANE_EYE.BUSY 0).setFld eye F.LANE_EYE.DONE 1).setReg (R.LANE_EYER d l)
        (BitVec.ofNat 32 (min errs.toNat (2 ^ (s.lane d l).gate)))))
  ) ∧
  (
  ∀ (s : State) (d : Fin 4) (l : Fin 32) (dt : Nat),
    let st := R.LANE_STAT d l
    let err := R.LANE_ERR d l
    let x := s.lane d l
    let rst := R.LANE_CNT_RST d l
    let ns := fun (u : State) => u.fld st F.LANE_STAT.NSTATE
    let seeks := fun (t : State) => ns t = 1 ∧ t.fld st F.LANE_STAT.STEP = 0 ∧ t.fld st F.LANE_STAT.CEIL = 3 ∧ t.flag st F.LANE_STAT.CDR = false ∧
      t.lane d l = {} ∧ t.fld rst F.LANE_CNT_RST.COUNT = min (2 ^ 32 - 1) (s.fld rst F.LANE_CNT_RST.COUNT + 1)
    (DieReached s d → s.laneRun d l = true → s.laneNative d l = true →
      ∃ t, exec (.laneRetrain d l) s = .next t ∧ seeks t ∧ t = { s with regs := t.regs, lanes := t.lanes, fresh := s.fresh + 1 }) ∧
    (DieReached s d → s.laneRun d l = false ∨ s.laneNative d l = false → exec (.laneRetrain d l) s = .next s) ∧
    (ns s = 4 → s.flag (R.LANE_CFG d l) F.LANE_CFG.AUTO = true → ∃ t, exec (.downToSeek d l) s = .next t ∧ seeks t ∧
      t = { s with regs := t.regs, lanes := t.lanes, fresh := s.fresh + 1 }) ∧
    (ns s = 4 → s.flag (R.LANE_CFG d l) F.LANE_CFG.AUTO = false → exec (.downToSeek d l) s = .next s) ∧
    (x.fell = true → x.rdy = false → ns s = 2 → ∃ t, exec (.seekRestart d l) s = .next t ∧ seeks t ∧
      t = { s with regs := t.regs, lanes := t.lanes, fresh := s.fresh + 1 }) ∧
    ((ns s = 1 ∨ ns s = 2) → 64 ≤ x.go.getD 0 → s.laneStep d l < 3 → ∃ t, exec (.stepSwitch d l) s = .next t ∧ ns t = 2 ∧
      t.fld st F.LANE_STAT.STEP = s.laneStep d l + 1 ∧ t.flag st F.LANE_STAT.CDR = false ∧ (t.lane d l).window = true ∧ (t.lane d l).rdy = false ∧
      t = { s with regs := t.regs, lanes := t.lanes, fresh := s.fresh + 1 }) ∧
    (x.window = true → ns s = 2 → ∃ t, exec (.stepFallback d l) s = .next t ∧ t.fld st F.LANE_STAT.STEP = s.laneStep d l - 1 ∧
      t.fld st F.LANE_STAT.CEIL = s.laneStep d l - 1 ∧ t.flag err F.LANE_ERR.FALLBK = true ∧ (t.lane d l).fell = true ∧
      t = { s with regs := t.regs, lanes := t.lanes, fresh := s.fresh + 1 }) ∧
    (∀ bits,
      let s1 := s.advance (paneId d (2 * l)) dt
      let y := s1.lane d l
      let r := nativeDecode (bits.map fun b => b ^^ s1.laneRxInv d l)
      let good := r.marker = true ∧ r.stuffOk = true ∧ r.crcOk = true
      let missed := s1.setLane d l { y with good := 0, miss := y.miss + 1 }
      let broken := (s1.setLane d l { y with good := 0, miss := 0 }).addSat (R.LANE_CNT_BAD d l) F.LANE_CNT_BAD.COUNT 1
      (s1.laneRun d l = false ∨ s1.laneNative d l = false → exec (.nativeFrameReceive d l bits dt) s = .next s1) ∧
      (s1.laneRun d l = true → s1.laneNative d l = true →
        (good →
          let counted := (s1.addSat (R.LANE_CNT_GOOD d l) F.LANE_CNT_GOOD.COUNT 1).setLane d l { y with good := y.good + 1, miss := 0 }
          let held := if 1 ≤ y.good ∧ s1.laneCdr d l = false
            then (counted.setFld st F.LANE_STAT.CDR 1).setFld err F.LANE_ERR.LCHG 1 else counted
          ∃ t1 t, exec (.nativeFrameReceive d l bits dt) s = .next t ∧ ItemsTaken d l r.items held t1 ∧ BringsUp d l t1 t) ∧
        (¬ good → s1.laneCdr d l = false → exec (.nativeFrameReceive d l bits dt) s =
          .next (if r.marker then s1.setLane d l { y with good := 0, miss := 0 } else missed)) ∧
        (r.marker = false → s1.laneCdr d l = true → y.miss < 3 →
          let counted := missed.addSat (R.LANE_CNT_BAD d l) F.LANE_CNT_BAD.COUNT 1
          exec (.nativeFrameReceive d l bits dt) s = .next (if r.stuffOk = false then counted.setFld err F.LANE_ERR.STUFF 1
            else if r.crcOk = false then counted.setFld err F.LANE_ERR.CRC 1 else counted)) ∧
        (r.marker = false → s1.laneCdr d l = true → 3 ≤ y.miss → ∃ t, exec (.nativeFrameReceive d l bits dt) s = .next t ∧
          t = { s1 with regs := t.regs, lanes := t.lanes } ∧ t.flag st F.LANE_STAT.CDR = false ∧
          t.fld (R.LANE_CNT_BAD d l) F.LANE_CNT_BAD.COUNT = min (2 ^ 32 - 1) (s1.fld (R.LANE_CNT_BAD d l) F.LANE_CNT_BAD.COUNT + 1) ∧
          (r.stuffOk = false → t.flag err F.LANE_ERR.STUFF = true) ∧ (r.stuffOk = true → r.crcOk = false → t.flag err F.LANE_ERR.CRC = true) ∧
          (ns s1 = 3 → ns t = 4 ∧ t.flag err F.LANE_ERR.MLOST = true) ∧ (ns s1 ≠ 3 → ns t = ns s1)) ∧
        (r.marker = true → r.stuffOk = false → s1.laneCdr d l = true →
          exec (.nativeFrameReceive d l bits dt) s = .next (broken.setFld err F.LANE_ERR.STUFF 1)) ∧
        (r.marker = true → r.stuffOk = true → r.crcOk = false → s1.laneCdr d l = true →
          exec (.nativeFrameReceive d l bits dt) s = .next (broken.setFld err F.LANE_ERR.CRC 1)))) ∧
    (let s1 := s.advance (paneId d (2 * l)) dt
     (s1.laneRun d l = false ∨ s1.laneNative d l = false ∨ s1.laneDrives d l = false → exec (.nativeFrameSend d l dt) s = .next s1) ∧
     (s1.laneRun d l = true → s1.laneNative d l = true → s1.laneDrives d l = true →
      let begun := if s1.served (paneId d (2 * l)) (s1.laneTq d l) false .lane = true then s1 else s1.setFld err F.LANE_ERR.UNB 1
      ∃ (items : List (BitVec 42)) (t1 t : State), items.length = 32 ∧ ItemsSent d l items begun t1 ∧
        (let y := t1.lane d l
         let told := ∃ i ∈ items, i.getLsbD 41 = false ∧ i.getLsbD 40 = true
         (told → BringsUp d l (t1.setLane d l { y with since := 0, go := y.go.map (· + 1) }) t) ∧
         (¬ told → BringsUp d l (t1.setLane d l { y with since := y.since + 1, go := y.go.map (· + 1) }) t)) ∧
        exec (.nativeFrameSend d l dt) s =
          .next (t.emit (.laneFrame d l ((nativeEncode items).map fun b => b ^^ s1.laneTxInv d l)))))
  )

/-- R239–R242: what a native lane puts on the line for 32 items is what a receiver takes from it: the marker is found, no stuff error and no
CRC error are met, and the items come back. -/
def Obligations.NativeFramesRoundTrip : Prop :=
  ∀ items : List (BitVec 42), items.length = 32 →
    let r := nativeDecode (nativeEncode items)
    r.marker = true ∧ r.stuffOk = true ∧ r.crcOk = true ∧ r.items = items

/-- R255–R263: at an end that is UP the flit at the front of a leaf's wires is taken in its order alone: a bad one is counted and starts a
wait for its repetition, one taken before or out of its turn is dropped, the next in sequence is accepted, and read from its beats; an edge
flit's items join their channel, a transom flit's flits the stage's input queue, an ACK releases what it names, ECRED and TCRED return
credits, a TICK's records take effect, and one of a reserved type is only counted (log entry 120). A flit that fails on its fifth sending ends its
leaf index, and the hinge trains (R264). A bad flit of a number accepted before is no reason to wait for it (log entry 117). A flit sent arrives good
where nothing disturbs it, and not where its CRC is wrong. A five-bit number names the number nearest (log entry 173). -/
def Obligations.HingeFlits : Prop :=
  (
  ∀ (s : State) (e : Fin 14) (j : Fin 32) (f : HFlit) (rest : List HFlit) (noise : List (BitVec 48)),
    let p := peerEnd e
    let l := s.leaf p j
    let bs := disturbed f.beats noise
    let taken := accepted s e j f rest
    let role := s.role p j
    s.hingeState e = 2 →
    (l.wire = f :: rest → flitGood bs = false → l.rxNext ≤ f.seq → f.sends < 5 → ∀ i, Takes e j noise f.body i → exec i s =
      .next ((s.setLeaf p j { l with wire := rest, rxBad := some (l.rxBad.getD f.seq) }).addSat (R.HNG_CNT e) F.HNG_CNT.CRCCNT 1)) ∧
    (l.wire = f :: rest → flitGood bs = false → f.seq < l.rxNext → f.sends < 5 → ∀ i, Takes e j noise f.body i → exec i s =
      .next ((s.setLeaf p j { l with wire := rest, ackDue := true }).addSat (R.HNG_CNT e) F.HNG_CNT.CRCCNT 1)) ∧
    (∀ k, hingeOf e = some k → l.wire = f :: rest → flitGood bs = false → 5 ≤ f.sends → ∀ i, Takes e j noise f.body i →
      ∃ s1 : State, exec i s = .next (s1.trainHinge k) ∧ s1 = { s with regs := s1.regs, leaves := s1.leaves, hinges := s1.hinges } ∧
        RegsBut s s1 [R.HNG_CNT e, R.HNG_ERR e, R.HNG_ERR p] ∧ s1.flag (R.HNG_ERR e) F.HNG_ERR.LFAIL = true ∧
        s1.flag (R.HNG_ERR p) F.HNG_ERR.LFAIL = true ∧ (s1.leaf p j).wire = rest ∧ (s1.leaf p j).held = l.held ∧
        s1.fld (R.HNG_CNT e) F.HNG_CNT.CRCCNT = min (s.fld (R.HNG_CNT e) F.HNG_CNT.CRCCNT + 1)
          (2 ^ (F.HNG_CNT.CRCCNT.hi + 1 - F.HNG_CNT.CRCCNT.lo) - 1) ∧
        s1.hinge k = { s.hinge k with good := (s.hinge k).good &&& ~~~ (1#32 <<< j.val) } ∧ ∀ m, m ≠ k → s1.hinge m = s.hinge m) ∧
    (l.wire = f :: rest → flitGood bs = true → f.seq < l.rxNext → ∀ i, Takes e j noise f.body i → exec i s =
      .next (s.setLeaf p j { l with wire := rest, ackDue := true })) ∧
    (∀ q, l.wire = f :: rest → flitGood bs = true → l.rxNext ≤ f.seq → l.rxBad = some q → q ≠ f.seq → ∀ i, Takes e j noise f.body i →
      exec i s = .next (s.setLeaf p j { l with wire := rest })) ∧
    (InTurn s e j f rest bs →
      (∀ hs half items, role = some (.edge hs) → half = turn hs f.seq → f.body = .edge half (sbOf bs) items true → sbOf bs < 64 →
        let k := edgeChan p half (sbOf bs)
        let c := s.chan k.1 k.2
        ∃ t, exec (.plainFlit e j noise) s = .next t ∧ t = { taken with chans := t.chans } ∧ ChansBut taken t [k] ∧
          t.chan k.1 k.2 = { c with
            fly := c.fly.drop items.length, far := c.far ++ (wordsOf bs).map fun w => ⟨w.1, 0, thrice c.rxCtx, w.2⟩ }) ∧
      (let d := beatWord (bs.getD 0 0)
       ∀ hs half items, role = some (.edge hs) → half = turn hs f.seq → f.body = .edge half (descCh d) items false → 64 ≤ sbOf bs →
        descN d ≠ 0 → descSplit d = false →
        let k := edgeChan p half (descCh d)
        let c := s.chan k.1 k.2
        let got := (List.range (descN d)).map fun n =>
          let w := (wordsOf bs).getD (n + 1) (0, 0)
          (⟨w.1, thrice ((descTag d n).getLsbD 0), thrice ((descCtx d).getLsbD 0), w.2⟩ : ChanItem)
        ∃ t, exec (.markedFlit e j noise) s = .next t ∧ t = { taken with chans := t.chans } ∧ ChansBut taken t [k] ∧
          t.chan k.1 k.2 = { c with fly := c.fly.drop items.length, far := c.far ++ got, rxCtx := (descCtx d).getLsbD 0 }) ∧
      (∀ ps x v g, role = some (.transom ps) → f.body = .transom x v [g] → sbOf bs / 32 = 1 →
        let x1 := turn ps f.seq; let v1 := sbOf bs / 4 % 8; let y := s.stage e x1 v1
        exec (.flitOne e j noise) s = .next (((taken.setStage e x1 v1 { y with inq := y.inq ++ [flitFrom bs 0 g.head] }).takeFlits
          (stageLink e x1) v1 1).fillStage e x1 v1)) ∧
      (∀ ps x v g h, role = some (.transom ps) → f.body = .transom x v [g, h] → sbOf bs / 32 = 2 →
        let x1 := turn ps f.seq; let v1 := sbOf bs / 4 % 8; let y := s.stage e x1 v1
        exec (.flitTwo e j noise) s = .next (((taken.setStage e x1 v1
          { y with inq := y.inq ++ [flitFrom bs 0 g.head, flitFrom bs 4 h.head] }).takeFlits (stageLink e x1) v1 2).fillStage e x1 v1)) ∧
      (taken.nakRead e j f bs = none →
        (∀ sent seqs, f.body = .ack sent → taken.readFlit e j f bs = .body (.ack seqs) →
          ∃ t, exec (.ack e j noise) s = .next t ∧ t = { taken with leaves := t.leaves } ∧
            ∀ i, i < 32 → (t.leaf e i).held = (taken.leaf e i).held.filter fun g => decide (seqs.getD i 0 ≤ g.seq)) ∧
        (∀ h0 n0 half n, f.body = .ecred h0 n0 → taken.readFlit e j f bs = .body (.ecred half n) → half < 2 →
          ∃ t, exec (.ecred e j noise) s = .next t ∧ t = { taken with chans := t.chans } ∧
            ∀ ch, ch < 64 → let k := edgeChan e half ch; t.chan k.1 k.2 = { s.chan k.1 k.2 with credit := (s.chan k.1 k.2).credit + n.getD ch 0 }) ∧
        (∀ n0 n, f.body = .tcred n0 → taken.readFlit e j f bs = .body (.tcred n) → exec (.tcred e j noise) s =
          .next ((List.range 64).foldl (fun a i => a.creditBack (stageLink e (i / 8)) (i % 8) (n.getD i 0)) taken)) ∧
        (∀ r0 rs, f.body = .tick r0 → taken.readFlit e j f bs = .body (.tick rs) →
          exec (.tick e j noise) s = .next (rs.foldl (fun a r => a.takeTick e r) taken) ∧
          (∀ r, rs = [r] → endDie e = none → exec (.tick e j noise) s = .next (if r.kind.val = 5 then taken.takeAck r else taken)))) ∧
      (∀ i, Takes e j noise f.body i → (∀ half ch items plain, f.body ≠ .edge half ch items plain) → taken.readFlit e j f bs = .reserved →
        exec i s = .next (taken.addSat (R.HNG_CNT e) F.HNG_CNT.CRCCNT 1)))
  ) ∧
  (
  ∀ (ws : List (Word × BitVec 5)) (sb : Nat), ws.length = 8 → sb < 128 →
    let bs := disturbed (beatsOf ws sb false) []
    flitGood bs = true ∧ wordsOf bs = ws ∧ sbOf bs = sb ∧ flitGood (disturbed (beatsOf ws sb true) []) = false
  ) ∧
  (
  ∀ t d : Nat, d < 16 → nearFive t ((t + d) % 32) = t + d ∧ (d ≤ t → nearFive t ((t - d) % 32) = t - d)
  )

/-- R255, R259–R273, R277: an edge leaf's slot sends the next channel that may go, a transom leaf's waiting tick records before flits, and what is
sent stays in the replay buffer until it is acknowledged; a NAK and a timeout start a replay; a lost clock or RETRAIN trains the hinge again; two
WIDTH flits that agree bring it UP, two that differ twice fail it; a step past its bound fails it; the feature level is the lowest stepping found;
SNAP captures the ledgers. That the command names the transom channel and chooses when an ACK, ECRED or TCRED goes is log entry 121, WIDTH as flit 0
of the lowest transom leaf log entry 120, the leaf whose NAK goes first log entry 170, the numbers of idle flits log entry 173, the order in which
trainings that wait go on log entry 30, an idle flit whose CRC is inverted log entry 154; a write of HNG_CTL over a path that is not UP waits at the
hub (R422; log entry 32). -/
def Obligations.HingeControl : Prop :=
  ∀ (s : State) (e : Fin 14) (j : Fin 32),
    let l := s.leaf e j
    let slot := s.hingeState e = 2 ∧ l.resend = none ∧ l.held.length < 16
    let idle := s.setLeaf e j { l with next := l.next + 1, rxNext := ({ l with next := l.next + 1 } : LeafSt).skipIdle l.rxNext }
    let skipped := if s.injDue e then (idle.injDone e).addSat (R.HNG_CNT (peerEnd e)) F.HNG_CNT.CRCCNT 1 else idle
    let there := ∀ d, endDie e = some d → DieReached s d
    let waits := fun (v : HWord) => { s with heldAcc := s.heldAcc ++ [{ off := R.HNG_CTL e, write := some [v], since := s.tbu.run }] }
    let sent := fun (t : State) (body : FlitBody) => ∃ nak, t.leaf e j = { l with
      next := l.next + 1, cNew := l.cNew + 1, held := l.held ++ [{ seq := l.next, body := body, nak := nak }],
      wire := l.wire ++ [{ seq := l.next, body := body, nak := nak }] }
    (∀ sel, s.hingeState e = 2 → (s.role e j).isSome = true → l.resend = none → 16 ≤ l.held.length →
      exec (.leafFlitSend e j sel) s = .next skipped) ∧
    (∀ hs sel, slot → s.role e j = some (.edge hs) →
      let half := turn hs l.next
      let from_ := SMap.get 0 s.edgeTurn (2 * e.val + half)
      ((∀ ch, ch < 64 → s.edgeReady e j half ch = false) → exec (.leafFlitSend e j sel) s = .next skipped) ∧
      (∀ i, i < 64 → s.edgeReady e j half ((from_ + i) % 64) = true → (∀ n, n < i → s.edgeReady e j half ((from_ + n) % 64) = false) →
        exec (.leafFlitSend e j sel) s = .next (({ s with
          edgeTurn := SMap.set 0 s.edgeTurn (2 * e.val + half) (((from_ + i) % 64 + 1) % 64) } : State).sendEdge e j half ((from_ + i) % 64)))) ∧
    (∀ ps v, slot → s.role e j = some (.transom ps) →
      (s.tickWait e ≠ [] → exec (.leafFlitSend e j (.data v)) s =
        .next ((s.setTickWait e ((s.tickWait e).drop 7)).putFlit e j (.tick ((s.tickWait e).take 7)) (s.nakOf e))) ∧
      (s.tickWait e = [] → s.transomReady e (turn ps l.next) v ≠ 0 →
        exec (.leafFlitSend e j (.data v)) s = .next (s.sendTransom e j (turn ps l.next) v)) ∧
      (∀ w g fs, s.tickWait e = [] → w < 8 → s.recalled e (turn ps l.next) = (w, g) :: fs →
        let n := if fs.head?.map (·.1) = some w then 2 else 1
        exec (.leafFlitSend e j (.data v)) s = .next ((s.setRecalled e (turn ps l.next) (((w, g) :: fs).drop n)).putFlit e j
            (.transom (turn ps l.next) w ((((w, g) :: fs).take n).map (·.2))) none)) ∧
      (s.tickWait e = [] → (∀ w, w < 8 → s.transomReady e (turn ps l.next) w = 0) → exec (.leafFlitSend e j (.data v)) s = .next skipped)) ∧
    (∀ ps, slot → e.val < 12 → s.role e j = some (.transom ps) → e.val ≠ peerEnd e →
      (∃ t seqs, exec (.leafFlitSend e j .ack) s = .next t ∧ t = { s with leaves := t.leaves } ∧
        (∀ i, i < 32 → seqs[i]? = some (s.leaf (peerEnd e) i).rxNext) ∧ sent t (.ack seqs)) ∧
      (∀ half : Fin 2, peerEnd e < 12 → ∃ t ns, exec (.leafFlitSend e j (.ecred half)) s = .next t ∧
        t = { s with leaves := t.leaves, chans := t.chans } ∧ sent t (.ecred half ns) ∧
        ∀ ch, ch < 64 → let k := edgeChan (peerEnd e) half ch; let c := s.chan k.1 k.2
          ns[ch]? = some (min 15 c.ret) ∧ t.chan k.1 k.2 = { c with ret := c.ret - min 15 c.ret }) ∧
      (∃ t ns, exec (.leafFlitSend e j .tcred) s = .next t ∧ t = { s with leaves := t.leaves, stages := t.stages } ∧ sent t (.tcred ns) ∧
        ∀ i, i < 64 → let y := s.stage e (i / 8) (i % 8)
          ns[i]? = some (min 15 y.freed) ∧ t.stage e (i / 8) (i % 8) = { y with freed := y.freed - min 15 y.freed })) ∧
    (∀ r f, s.hingeState e = 2 → l.resend = some r → l.held.find? (fun f => decide (r ≤ f.seq)) = some f →
      ∃ t, exec (.leafFlitSend e j .ack) s = .next t ∧ t = { s with leaves := t.leaves, regs := t.regs, hinges := t.hinges } ∧
        RegsBut s t [R.HNG_CNT e] ∧ t.injDue e = false ∧ (s.injDue e = false → t.hinges = s.hinges) ∧
        (t.leaf e j).wire = l.wire ++ [{ f with sends := f.sends + 1, bad := s.injDue e }] ∧ (t.leaf e j).next = l.next ∧ (t.leaf e j).cNew = l.cNew ∧
        t.fld (R.HNG_CNT e) F.HNG_CNT.RPLCNT = min (s.fld (R.HNG_CNT e) F.HNG_CNT.RPLCNT + 1)
          (2 ^ (F.HNG_CNT.RPLCNT.hi + 1 - F.HNG_CNT.RPLCNT.lo) - 1)) ∧
    (∀ f, f ∈ l.held → s.takeNak e j f.seq = (s.setLeaf e j { l with resend := some f.seq }).setFld (R.HNG_ERR e) F.HNG_ERR.REPLAY 1) ∧
    (∀ q, (∀ f, f ∈ l.held → f.seq ≠ q) → s.takeNak e j q = s) ∧
    (∀ q f, f ∈ l.held → q ≤ f.seq → ∃ g, g ∈ l.held ∧ l.skipIdle q = g.seq ∧ q ≤ g.seq) ∧
    (∀ q, (∀ f, f ∈ l.held → f.seq < q) → l.skipIdle q = max q l.next) ∧
    (∀ f fs, s.hingeState e = 2 → l.held = f :: fs → exec (.replayTimeout e j) s =
      .next ((s.setLeaf e j { l with resend := some f.seq }).setFld (R.HNG_ERR e) F.HNG_ERR.REPLAY 1)) ∧
    (∀ k, hingeOf e = some k → s.hingeState e = 2 → ∃ s1 : State, exec (.leafClockLoss e j) s = .next (s1.trainHinge k).prefLost ∧
      s1 = { s with regs := s1.regs, hinges := s1.hinges } ∧ (s1.stopped e).getLsbD j = true ∧
      s1.flag (R.HNG_ERR e) F.HNG_ERR.LFAIL = true ∧ (s1.hinge k).good = (s.hinge k).good &&& ~~~ (1#32 <<< j.val)) ∧
    (∀ k good, there → hingeOf e = some k → s.hingeState e ≠ 4 → exec (.hngRetrain e good) s =
      .next ((s.setHinge k { s.hinge k with good := good, mis := false, cap := 32 }).trainHinge k)) ∧
    (∀ good, there → s.hingeState e = 4 → exec (.hngRetrain e good) s = .next s) ∧
    (∀ d good, endDie e = some d → s.dieDark d = false → s.pathUp d = false →
      exec (.hngRetrain e good) s = .next (waits 0x40000000) ∧ exec (.hngSnap e) s = .next (waits 0x80000000)) ∧
    (∀ d good, endDie e = some d → s.dieDark d = true → exec (.hngRetrain e good) s = .next s ∧ exec (.hngSnap e) s = .next s) ∧
    (∀ k : Fin 6, s.hingeState (hingeEnds k).1 = 1 → ∃ s1 : State, exec (.trainingStepTimeout k) s = .next s1.prefLost.trainOn ∧
      s1 = { s with regs := s1.regs, hinges := s1.hinges } ∧ (s1.hinge k).wait = 0 ∧
      s1.hingeState (hingeEnds k).1 = 3 ∧ s1.hingeState (hingeEnds k).2 = 3 ∧ s1.flag (R.HNG_ERR (hingeEnds k).1) F.HNG_ERR.DOWN = true ∧
      s1.flag (R.HNG_ERR (hingeEnds k).2) F.HNG_ERR.DOWN = true) ∧
    (∀ (k : Fin 6) second f rest noise step0 wc0 mask0 step wcode mask,
      let bs := disturbed f.beats noise
      let taken := accepted s e j f rest
      let other := if e.val = (hingeEnds k).1 then (s.hinge k).ok1 else (s.hinge k).ok0
      let agrees := s.fld (R.HNG_STAT e) F.HNG_STAT.WCODE = wcode ∧ s.reg (R.HNG_LFAIL e) = ~~~ mask
      e.val = hingeEnd k second → s.hingeState e = 1 → InTurn s e j f rest bs → f.body = .width step0 wc0 mask0 →
      taken.readFlit e j f bs = .body (.width step wcode mask) → taken.nakRead e j f bs = none →
        (agrees → other = true → ∀ h, s.power = .on → s.heldAcc = [h] → s.mustWait h false = true → ∃ s1 t : State,
          t = s1.discover.trainOn ∧ s1 = { taken with regs := s1.regs, hinges := s1.hinges } ∧ s1.hingeState (hingeEnds k).1 = 2 ∧
          s1.hingeState (hingeEnds k).2 = 2 ∧
          exec (.width k second j noise) s = .next (if t.mustWait h false then t else ({ t with heldAcc := [] } : State).accMake h)) ∧
        (s.heldAcc = [] → (agrees → other = true → ∃ s1 : State, exec (.width k second j noise) s = .next s1.discover.trainOn ∧
          s1 = { taken with regs := s1.regs, hinges := s1.hinges } ∧ s1.hingeState (hingeEnds k).1 = 2 ∧ s1.hingeState (hingeEnds k).2 = 2 ∧
          ∀ i, i ≠ k.val → s1.hinge i = s.hinge i) ∧
         (agrees → other = false → ∃ t, exec (.width k second j noise) s = .next t ∧ t = { taken with regs := t.regs, hinges := t.hinges } ∧
          RegsBut s t [R.HNG_STAT e] ∧ t.hingeState e = 1) ∧
         (¬ agrees → (s.hinge k).mis = false → ∃ s1 : State, exec (.width k second j noise) s = .next (s1.trainHinge k) ∧
          s1 = { taken with regs := s1.regs, hinges := s1.hinges } ∧ (s1.hinge k).mis = true ∧
          s1.flag (R.HNG_ERR (hingeEnds k).1) F.HNG_ERR.WMIS = true ∧ s1.flag (R.HNG_ERR (hingeEnds k).2) F.HNG_ERR.WMIS = true) ∧
         (¬ agrees → (s.hinge k).mis = true → ∃ s1 : State, exec (.width k second j noise) s = .next (s1.hingeFail k).trainOn ∧
          s1 = { taken with regs := s1.regs } ∧
          s1.flag (R.HNG_ERR (hingeEnds k).1) F.HNG_ERR.WMIS = true ∧ s1.flag (R.HNG_ERR (hingeEnds k).2) F.HNG_ERR.WMIS = true))) ∧
    (s.cfg.due = false → s.fld R.HUB_STEP F.HUB_STEP.LEVEL = 0 → s.hingesSettled = true → (∃ d, d < 4 ∧ getF (s.reg R.HUB_STEP) (stepFld d) ≠ 0) →
      ∃ t, exec .featureLevelFixed s = .next t ∧ t = { s with regs := t.regs } ∧ RegsBut s t [R.HUB_STEP] ∧
        (∀ d, d < 4 → getF (s.reg R.HUB_STEP) (stepFld d) ≠ 0 → t.fld R.HUB_STEP F.HUB_STEP.LEVEL ≤ getF (s.reg R.HUB_STEP) (stepFld d)) ∧
        ∃ d, d < 4 ∧ getF (s.reg R.HUB_STEP) (stepFld d) = t.fld R.HUB_STEP F.HUB_STEP.LEVEL) ∧
    (s.fld R.HUB_STEP F.HUB_STEP.LEVEL ≠ 0 → (s.hingesSettled = false ∨ s.cfg.due = false) → exec .featureLevelFixed s = .next s) ∧
    (∀ k, there → hingeOf e = some k → ∃ t, exec (.hngSnap e) s = .next t ∧ t = { s with regs := t.regs } ∧
      (∀ i : Fin 32, t.reg (R.HNG_LEDGER e i 0) = (s.leaf e i).cNew ∧ t.reg (R.HNG_LEDGER e i 1) = (s.leaf e i).cAcked ∧
        t.reg (R.HNG_LEDGER e i 2) = (s.leaf e i).cRecalled ∧ t.reg (R.HNG_LEDGER e i 3) = BitVec.ofNat 32 (s.leaf e i).held.length) ∧
      (∀ x i : Nat, x < 8 → i < 16 → t.reg (R.HNGTR_LEDGER e x i) = s.led (stageLink e x) i) ∧
      t.fld (R.HNG_STAT e) F.HNG_STAT.SEQ = (s.fld (R.HNG_STAT e) F.HNG_STAT.SEQ + 1) % 2 ^ (F.HNG_STAT.SEQ.hi + 1 - F.HNG_STAT.SEQ.lo))

/-- R198, R278–R280, R282, R283, R286: the companion link's units, errors and states, the PCIe endpoint's resets and link, and BAR2: a write of whole
slots becomes WRPs of up to 64 words, one for each run of slots, and sets PARTIAL for a cut slot, and a read becomes RD requests of up to 64 words;
when the last of them has ended, its bytes return, 0xFF for the slots of a request that failed. An FLR of PF1 resets its MSI-X, and one of PF0
leaves the link up (log entry 71). The MSI-X of the functions is the PCI Express standard's (log entry 155). -/
def Obligations.LinksAndBar2 : Prop :=
  (
  ∀ (s : State),
    let ucl := s.fld R.UCL_STAT F.UCL_STAT.STATE
    let port := portId 256 32
    let takes := fun (a : State) (v : Nat) (g : TFlit) =>
      let left := SMap.get 0 a.uclLeft v
      let hdr := if left = 0 then headerOf g.w else SMap.get {} a.uclHdr v
      let n := if left = 0 then flitsOf hdr - 1 else left - 1
      let a1 := ({ a with uclLeft := SMap.set 0 a.uclLeft v n, uclHdr := SMap.set {} a.uclHdr v hdr } : State).enter port v
        { g with head := decide (left = 0), pos := 0 }
      if n = 0 ∧ isCompletion hdr.cmd then
        { a1 with tracked := a1.tracked.filter fun t => !(decide (t.link = port ∧ t.src = hdr.dst ∧ t.tag = hdr.tag.val) && !t.posted && !t.cpl) }
      else a1
    (s.hasCompanion = true → ucl = 2 → s.flag R.UCL_CTL F.UCL_CTL.RAW = false →
      (∀ (v : Fin 8) (g : TFlit) u3 u2 u1 u0, unitOf u3 u2 u1 u0 = jenwynUnit v [g] 0 0 →
        exec (.uclUnit u3 u2 u1 u0 false) s = .next (takes s v g)) ∧
      (∀ (v : Fin 8) (g h : TFlit) u3 u2 u1 u0, unitOf u3 u2 u1 u0 = jenwynUnit v [g, h] 0 0 →
        exec (.uclUnit u3 u2 u1 u0 false) s = .next (takes (takes s v g) v h)) ∧
      (∀ (v : Fin 8) n u3 u2 u1 u0, unitOf u3 u2 u1 u0 = jenwynUnit 0 [] v n → 1 ≤ n → n < 16 →
        exec (.uclUnit u3 u2 u1 u0 false) s = .next (s.creditBack port v n)) ∧
      (∀ u3 u2 u1 u0, unitKind (unitOf u3 u2 u1 u0) = 3 → exec (.uclUnit u3 u2 u1 u0 false) s = .next s) ∧
      (∀ u3 u2 u1 u0, exec (.uclUnit u3 u2 u1 u0 true) s = exec (.uclUnit u3 u2 u1 u0 false) (s.addSat R.UCL_STAT F.UCL_STAT.RTRY 1))) ∧
    (s.hasCompanion = false ∨ ucl ≠ 2 ∨ s.flag R.UCL_CTL F.UCL_CTL.RAW = true →
      ∀ u3 u2 u1 u0 retry, exec (.uclUnit u3 u2 u1 u0 retry) s = .next s) ∧
    (s.hasCompanion = true → (ucl = 1 ∨ ucl = 2) → ∃ s1, exec .ucieLinkError s = .next (s1.board port 0) ∧
      s1 = { s with regs := s1.regs } ∧ RegsBut s s1 [R.UCL_STAT] ∧ s1.fld R.UCL_STAT F.UCL_STAT.STATE = 3 ∧
        s1.flag R.UCL_STAT F.UCL_STAT.FAIL = true) ∧
    (s.hasCompanion = false ∨ ucl = 0 ∨ ucl = 3 → exec .ucieLinkError s = .next s) ∧
    (∀ (rate : Fin 4) (x8 : Bool),
      (s.hasCompanion = true → ucl = 1 → rate.val ≤ s.fld R.UCL_CTL F.UCL_CTL.RATE →
        (s.clk.ran3 = false ∨ s.flag R.CLK_HLSTAT F.CLK_HLSTAT.LOCK3 = true) → ∃ t, exec (.ucieLinkActive rate x8) s = .next t ∧
          t.fld R.UCL_STAT F.UCL_STAT.STATE = 2 ∧ t.fld R.UCL_STAT F.UCL_STAT.TRATE = rate ∧ t.flag R.UCL_STAT F.UCL_STAT.X8 = x8 ∧
          t.flag R.UCL_STAT F.UCL_STAT.LCHG = true ∧ t.boarded port = false ∧ t.clk.ran3 = true ∧
          (s.clk.ran3 = false → t.flag R.CLK_HLSTAT F.CLK_HLSTAT.LOCK3 = !s.clk.cant.getLsbD 3 ∧
            (s.flag R.CLK_HLSTAT F.CLK_HLSTAT.FB3 = true → s.mux 3 ≠ s.loopSrc 3 → t.flag R.CLK_HLSTAT F.CLK_HLSTAT.FB3 = true)) ∧
          (s.clk.ran3 = true → t.reg R.CLK_HLSTAT = s.reg R.CLK_HLSTAT)) ∧
      (s.hasCompanion = false ∨ ucl ≠ 1 ∨ s.fld R.UCL_CTL F.UCL_CTL.RATE < rate.val ∨
        (s.clk.ran3 = true ∧ s.flag R.CLK_HLSTAT F.CLK_HLSTAT.LOCK3 = false) → exec (.ucieLinkActive rate x8) s = .next s)) ∧
    (∀ v : BitVec 32,
      (s.hasCompanion = false → exec (.uclRetrain v) s = .next s) ∧
      (s.hasCompanion = true → v.getLsbD 0 = true → (ucl = 2 ∨ ucl = 3) → ∃ t, exec (.uclRetrain v) s = .next t ∧
        t.fld R.UCL_STAT F.UCL_STAT.STATE = 1 ∧ t.flag R.UCL_CTL F.UCL_CTL.EN = true ∧ (ucl = 2 → t.boarded port = true)) ∧
      (s.hasCompanion = true → v.getLsbD 0 = true → (ucl = 0 ∨ ucl = 1) → ∃ t, exec (.uclRetrain v) s = .next t ∧
        t.fld R.UCL_STAT F.UCL_STAT.STATE = 1 ∧ t.flag R.UCL_CTL F.UCL_CTL.EN = true ∧ RegsBut s t [R.UCL_CTL, R.UCL_STAT] ∧
        t = { s with regs := t.regs, clk := t.clk } ∧ (ucl = 0 → t.loopOn 3 = true) ∧ (ucl = 1 → t.clk = s.clk)) ∧
      (s.hasCompanion = true → v.getLsbD 0 = false → ∃ t, exec (.uclRetrain v) s = .next t ∧ t = { s with regs := t.regs } ∧
        RegsBut s t [R.UCL_CTL, R.UCL_STAT] ∧ t.fld R.UCL_STAT F.UCL_STAT.STATE = 0 ∧ t.flag R.UCL_CTL F.UCL_CTL.EN = false)) ∧
    (∀ (speed : Fin 6) (width : Fin 17),
      let fits := width = 16 ∨ width = 8 ∨ width = 4 ∨ width = 2 ∨ width = 1
      (s.cfgReply = .normal → speed ≠ 0 → fits → exec (.pcieLinkUp speed width) s =
        .next ((({ s with pcieUp := true } : State).setFld R.HOST_LINK F.HOST_LINK.SPEED speed).setFld R.HOST_LINK F.HOST_LINK.WIDTH width)) ∧
      (s.cfgReply ≠ .normal ∨ speed = 0 ∨ ¬ fits → exec (.pcieLinkUp speed width) s = .next s)) ∧
    (∀ kind : Fin 5, kind ≠ 4 →
      (s.cfg.feed = .load → exec (.pcieReset kind) s = exec (.pcieReset kind) (s.rtClose none s.cfg.words.length)) ∧
      (s.cfg.feed ≠ .load → ∃ t, exec (.pcieReset kind) s = .next t ∧
        t = { s with regs := t.regs, host := [], hcqs := [], b2 := [], outst := s.outst.map (fun q => { q with why := q.why.orphan }),
                     pcieUp := s.pcieUp && decide (kind = 3), msixs := t.msixs, park := s.park.map fun p => { p with cmd := none } } ∧
        t.msixOf 0 = {} ∧ t.msixOf 1 = (if kind = 3 then s.msixOf 1 else {}) ∧
        let named := fun (a : Nat) => (0x1000 ≤ a ∧ a < 0x1014) ∨ (0x1100 ≤ a ∧ a < 0x1120) ∨ (0x100000 ≤ a ∧ a < 0x101000)
        ∀ a, (named a → t.reg a = resetVal a) ∧ (¬ named a → t.reg a = s.reg a))) ∧
    (∃ t, exec (.pcieReset 4) s = .next t ∧ t = { s with msixs := t.msixs } ∧ t.msixOf 1 = {} ∧ t.msixOf 0 = s.msixOf 0)
  ) ∧
  (
  ∀ (s : State) (n : Nat),
    let prio := Fin.ofNat 4 (s.fld R.HOST_CTL F.HOST_CTL.B2PRI)
    let slots := fun (ws : List Word) => (ws.flatMap slotOctets).map some
    let writes := fun (a : State) (k : Nat) (ws : List Word) => a.sendReq
      { src := portId 256 28, cmd := cWRP, prio := prio, addr := BitVec.ofNat 40 k, len := Fin.ofNat 65 ws.length, data := ws } .bar2Write
    let reads := fun (a : State) (k m tag id part : Nat) => a.sendReq
      { src := portId 256 28, cmd := cRD, prio := prio, tag := Fin.ofNat 1024 tag, addr := BitVec.ofNat 40 k, len := Fin.ofNat 65 m }
      (.bar2Read id part)
    let held := (s.outst.filter fun x => decide (x.port = pciePort ∧ x.tag < 512)).length +
      (s.quar.filter fun x => decide (x.1 = pciePort ∧ x.2 < 512)).length
    (∀ ws : List Word, n + ws.length ≤ 2 ^ 32 → 1 ≤ ws.length → ws.length ≤ 64 →
      exec (.bar2Write (BitVec.ofNat 36 (8 * n)) (slots ws)) s = .next (if s.quiesced n then s else writes s n ws)) ∧
    (∀ ws ws2 : List Word, n + 64 + ws2.length ≤ 2 ^ 32 → ws.length = 64 → 1 ≤ ws2.length → ws2.length ≤ 64 → s.quiesced n = false →
      s.quiesced (n + 64) = false →
      exec (.bar2Write (BitVec.ofNat 36 (8 * n)) (slots (ws ++ ws2))) s = .next (writes (writes s n ws) (n + 64) ws2)) ∧
    (∀ (ws ws2 : List Word) (mid : List (Option (BitVec 8))), n + ws.length + 1 + ws2.length ≤ 2 ^ 32 → 1 ≤ ws.length → ws.length ≤ 64 →
      1 ≤ ws2.length → ws2.length ≤ 64 → mid.length = 8 → (∃ k, k < 5 ∧ mid.getD k none = none) → s.quiesced n = false →
      s.quiesced (n + ws.length + 1) = false →
      let told := if (List.range 5).any (fun k => (mid.getD k none).isSome) then s.setFld R.HOST_ERR F.HOST_ERR.PARTIAL 1 else s
      exec (.bar2Write (BitVec.ofNat 36 (8 * n)) (slots ws ++ mid ++ slots ws2)) s =
        .next (writes (writes told n ws) (n + ws.length + 1) ws2)) ∧
    (∀ x : BitVec 8, n < 2 ^ 32 → exec (.bar2Write (BitVec.ofNat 36 (8 * n)) [some x]) s = .next (s.setFld R.HOST_ERR F.HOST_ERR.PARTIAL 1)) ∧
    (∀ m id tag : Nat, n + m ≤ 2 ^ 32 → 1 ≤ m → m ≤ 64 → s.quiesced n = false → (∀ r ∈ s.b2, r.id ≠ id) → s.pcieTag 0 512 = some tag →
      held < 512 → exec (.bar2Read (BitVec.ofNat 36 (8 * n)) (8 * m) id) s =
        .next (reads { s with b2 := s.b2 ++ [{ id := id, off := 8 * n, len := 8 * m, opened := 1 }] } n m tag id 0)) ∧
    (∀ m id tag tag2 : Nat, n + 64 + m ≤ 2 ^ 32 → 1 ≤ m → m ≤ 64 → s.quiesced n = false → s.quiesced (n + 64) = false → (∀ r ∈ s.b2, r.id ≠ id) →
      held < 511 →
      let first := reads { s with b2 := s.b2 ++ [{ id := id, off := 8 * n, len := 8 * (64 + m), opened := 2 }] } n 64 tag id 0
      s.pcieTag 0 512 = some tag → first.pcieTag 0 512 = some tag2 →
      exec (.bar2Read (BitVec.ofNat 36 (8 * n)) (8 * (64 + m)) id) s = .next (reads first (n + 64) m tag2 id 64)) ∧
    (∀ len id : Nat, (∃ r ∈ s.b2, r.id = id) ∨ 512 ≤ held → 1 ≤ len → exec (.bar2Read (BitVec.ofNat 36 (8 * n)) len id) s = .next s)
  ) ∧
  (
  ∀ (s s0 : State) (pk : Packet) (req : Outst) (r : B2Read) (part : Nat),
    let given := if pk.cmd = cCPL then some pk.data else none
    let told := if given = none then s0.setFld R.HOST_ERR F.HOST_ERR.B2CPLE 1 else s0
    let ended : State := { told with outst := s0.outst.erase req }
    let mine := fun (k : Nat) => part ≤ k ∧ k < part + req.len
    let byteOf := fun (w : Option Word) (j : Nat) => match w with | some x => (slotOctets x).getD j 0 | none => (0xFF : BitVec 8)
    (pk.cmd = cCPL ∨ pk.cmd = cCPLE) → Arrived s pk s0 → s.outst.find? (fun x => decide (x.port = pk.dst ∧ x.tag = pk.tag.val)) = some req →
    req.why = .bar2Read r.id part → r ∈ s.b2 → (∀ x ∈ s.b2, x.id = r.id → x = r) →
    let run := fun (t : State) => exec (if pk.cmd = cCPL then .cpl pk else .cple pk) s = .next t
    (r.opened = 1 → ∃ bytes : List (BitVec 8), bytes.length = r.len ∧
      run (({ ended with b2 := s.b2.filter fun x => decide (x.id ≠ r.id) } : State).emit (.bar2Data r.id bytes)) ∧
      ∀ i, i < r.len → let k := (r.off % 8 + i) / 8; let j := (r.off % 8 + i) % 8
        (mine k → bytes[i]? = some (byteOf (given.map fun ws => ws.getD (k - part) 0) j)) ∧
        (¬ mine k → bytes[i]? = some (byteOf (SMap.get (some 0) r.slots k) j))) ∧
    (1 < r.opened → ∃ r1 : B2Read, r1 = { r with opened := r.opened - 1, slots := r1.slots } ∧
      run { ended with b2 := s.b2.map fun x => if x.id = r.id then r1 else x } ∧
      ∀ k, (mine k → SMap.get (some 0) r1.slots k = given.map fun ws => ws.getD (k - part) 0) ∧
        (¬ mine k → SMap.get (some 0) r1.slots k = SMap.get (some 0) r.slots k))
  )

/-- R289–R296, Tables 12.3–12.7: the command queues. Enabling a queue empties it; a doorbell moves TAIL; a fetch reads the command at HEAD and moves
it on; each operation ends with its status; completing writes the entry at CQT with the pass's phase and, where the command asks, sends the queue's
interrupt. R292, R296: a DMA moves its words in pieces that do not cross a 64-word line, with the tags of port 28's upper half; to the device the
octets read go out as WR requests, slots or packed; from the device each answered piece is written to host memory where its first word belongs. A
failed piece is noted with its lowest word, and with its last piece the DMA has its result. R293, R298: an ARM with a map writes SHT_SET first; a
LAUNCH that waits ends as its engine leaves RUN, whatever it does next (R295), and with GONE where its die is being parked; nothing is launched on
such a die, and its DMA pieces fail with ECODE 5 (log entry 156). -/
def Obligations.HostCommandQueues : Prop :=
  (
  ∀ (s : State) (q : Fin 64),
    let cfg := R.HCQ_CFG q
    let st := R.HCQ_STAT q
    let ends := fun (c : HCmd) (st info ce3 : Nat) => s.updCmd c.id fun x => { x with started := true, result := some (st, info, ce3) }
    let starts := fun (c : HCmd) => s.updCmd c.id fun x => { x with started := true }
    (∀ v, exec (.hcqDoorbell q v) s = .next (s.writeReg (R.HCQ_DB q) v)) ∧
    (∀ v, exec (.hcqCqhWrite q v) s = .next (s.writeReg (R.HCQ_CQH q) v)) ∧
    (∀ v : BitVec 32, s.flag cfg F.HCQ_CFG.EN = false → v.getLsbD 31 = true → ∃ t, exec (.hcqEnable q v) s = .next t ∧
      t.fld st F.HCQ_STAT.HEAD = 0 ∧ t.fld st F.HCQ_STAT.CQT = 0 ∧ t.reg (R.HCQ_DB q) = 0 ∧ t.reg (R.HCQ_CQH q) = 0 ∧ t.hcq q = {} ∧
      t.flag cfg F.HCQ_CFG.EN = true ∧ RegsBut s t [cfg, st, R.HCQ_DB q, R.HCQ_CQH q] ∧ t = { s with regs := t.regs, hcqs := t.hcqs }) ∧
    (∀ cw : List (BitVec 32), cw.length = 16 → s.canFetch q = true →
      let i := s.fld st F.HCQ_STAT.HEAD
      let c : HCmd := { id := s.hostSeq, q := q, idx := i, cw := cw }
      let c1 := if c.bad then { c with result := some (5, 0, 0) } else c
      ∃ t, exec (.commandFetch q cw true) s = .next t ∧ t = { s with host := s.host ++ [c1], hostSeq := s.hostSeq + 1, regs := t.regs } ∧
        RegsBut s t [st] ∧
        t.fld st F.HCQ_STAT.HEAD = (i + 1) % 2 ^ s.fld cfg F.HCQ_CFG.LOG2SIZE % 2 ^ (F.HCQ_STAT.HEAD.hi + 1 - F.HCQ_STAT.HEAD.lo)) ∧
    (∀ cw, s.canFetch q = true → ∃ t, exec (.commandFetch q cw false) s = .next t ∧ t.flag st F.HCQ_STAT.FERR = true ∧ (t.hcq q).stop = true ∧
      t.host = s.host) ∧
    (∀ cw ok, s.canFetch q = false → exec (.commandFetch q cw ok) s = .next s) ∧
    (∀ c, s.nextCmd q 1 = some c → exec (.hcqNop q) s = .next (ends c 0 0 0)) ∧
    (∀ c map, s.nextCmd q 4 = some c → s.armState (c.w 4 % 8) = 1 → (c.w 4).testBit 8 = false →
      exec (.arm q map false) s = .next (ends c 1 (s.reg (R.SHT_STATUS (c.w 4 % 8))).toNat 0)) ∧
    (∀ c map, s.nextCmd q 4 = some c → (c.w 4).testBit 8 = true → exec (.arm q map false) s = .next (ends c 4 0 0)) ∧
    (∀ c map, s.nextCmd q 4 = some c → s.armState (c.w 4 % 8) ≠ 1 → (c.w 4).testBit 8 = false →
      let s2 := s.shtArmWrite (c.w 4 % 8) (BitVec.ofNat 32 (c.w 5) ||| 0x80000000)
      s2.armState (c.w 4 % 8) = 1 →
      exec (.arm q map true) s = .next (s2.updCmd c.id fun x => { x with started := true, arm := some (c.w 4 % 8) })) ∧
    (∀ c map, s.nextCmd q 4 = some c → s.armState (c.w 4 % 8) = 1 → exec (.arm q map true) s =
      .next (ends c 1 (s.reg (R.SHT_STATUS (c.w 4 % 8))).toNat 0)) ∧
    (∀ c map, s.nextCmd q 4 = some c → s.armState (c.w 4 % 8) ≠ 1 →
      let t := c.w 4 % 8
      let s1 := if (c.w 4).testBit 8 then (List.range 32).foldl (fun a k => a.writeReg (R.SHT_SET t k) (map.getD k 0)) s else s
      let s2 := s1.shtArmWrite t (BitVec.ofNat 32 (c.w 5) ||| 0x80000000)
      (s2.armState t = 1 → exec (.arm q map true) s = .next (s2.updCmd c.id fun x => { x with started := true, arm := some t })) ∧
      (s2.armState t = 5 → exec (.arm q map true) s = .next (s2.updCmd c.id fun x => { x with
        started := true, result := some (2, (s2.reg (R.SHT_STATUS t)).toNat, 0) }))) ∧
    (∀ c ws, s.nextCmd q 5 = some c → exec (.load q ws false) s = .next (ends c 4 0 0)) ∧
    (∀ c ws, s.nextCmd q 5 = some c → ws.length = c.w 4 → (s.fld R.CFG_BSTAT F.CFG_BSTAT.STATE ≠ 5 ∨ s.cfg.feed ≠ .none) →
      exec (.load q ws true) s = .next (ends c 1 0 0)) ∧
    (∀ c ws, s.nextCmd q 5 = some c → ws.length = c.w 4 → s.fld R.CFG_BSTAT F.CFG_BSTAT.STATE = 5 → s.cfg.feed = .none →
      s.secCfg.testBit 2 = false → ∃ s1 : State, exec (.load q ws true) s = .next s1.rtAhead ∧ s1.cfg.feed = .load ∧ s1.cfg.words = ws ∧
        s1.cfg.pos = ws.length ∧ s1.flag R.CFG_RTSTAT F.CFG_RTSTAT.OPEN = true ∧ s1.flag R.CFG_RTSTAT F.CFG_RTSTAT.OWNER = true ∧
        s1 = { starts c with cfg := s1.cfg, regs := s1.regs }) ∧
    (∀ c ws, s.nextCmd q 5 = some c → ws ≠ [] → ws.length = c.w 4 → s.fld R.CFG_BSTAT F.CFG_BSTAT.STATE = 5 → s.cfg.feed = .none →
      s.secCfg.testBit 2 = true → ∃ s1 : State, exec (.load q ws true) s = .next (s1.rtClose (some 15) ws.length) ∧ s1.cfg.feed = .load ∧
        s1.cfg.pos = ws.length ∧ s1 = { starts c with cfg := s1.cfg, regs := s1.regs } ∧
        (s1.rtClose (some 15) ws.length).flag R.CFG_RTSTAT F.CFG_RTSTAT.REJ = true ∧
        (s1.rtClose (some 15) ws.length).fld R.CFG_RTSTAT F.CFG_RTSTAT.CAUSE = 15) ∧
    (∀ c, s.nextCmd q 6 = some c →
      let g := engId (c.w 4 % 4) (c.w 4 / 256 % 128)
      let runs := s.dieDark (c.w 4 % 4) = false ∧ s.quiesces (c.w 4 % 4) = false
      (s.dieDark (c.w 4 % 4) = true → exec (.launch q) s = .next (ends c 2 0 0)) ∧
      (s.dieDark (c.w 4 % 4) = false → s.quiesces (c.w 4 % 4) = true → exec (.launch q) s = .next (ends c 7 0 5)) ∧
      (runs → ((s.eng g).state = .idle ∨ (s.eng g).state = .stopped ∨ (s.eng g).state = .fault) →
        (s.pane (engPane g)).shut = false → (c.w 4).testBit 16 = true →
        exec (.launch q) s = .next ((s.engStart g).updCmd c.id fun x => { x with started := true, eng := some g })) ∧
      (runs → ((s.eng g).state = .idle ∨ (s.eng g).state = .stopped ∨ (s.eng g).state = .fault) →
        (s.pane (engPane g)).shut = false → (c.w 4).testBit 16 = false →
        exec (.launch q) s = .next ((s.engStart g).endCmd c 0 ((s.engStart g).engStatusView g).toNat 0)) ∧
      (runs → ((s.eng g).state = .run ∨ (s.eng g).state = .halt ∨ (s.eng g).state = .off ∨ (s.pane (engPane g)).shut = true) →
        exec (.launch q) s = .next ((s.engStart g).endCmd c 2 ((s.engStart g).engStatusView g).toNat 0))) ∧
    (∀ c ∈ s.host, ∀ g, c.eng = some g → c.result = none →
      let r := if c.gone = [] then (0, (s.engStatusView g).toNat, 0) else (7, (s.engStatusView g).toNat, 5)
      ((s.eng g).state = .run → s.cmdResult c = none) ∧
      ((s.eng g).state ≠ .run → s.cmdResult c = some r ∧ { c with result := some r } ∈ (s.latchLaunch g).host)) ∧
    (∀ c i, s.host.find? (fun c => decide (c.q = q.val ∧ c.idx = i) && (s.cmdResult c).isSome) = some c → i < 4096 → ∀ r, s.cmdResult c = some r →
      let at_ := s.fld st F.HCQ_STAT.CQT
      let base := (s.reg (R.HCQ_CQB_H q)).toNat * 2 ^ 32 + (s.reg (R.HCQ_CQB_L q)).toNat
      ∃ t, exec (.commandComplete q (Fin.ofNat 4096 i)) s = .next t ∧
        t.out = (if (c.w 0).testBit 8 then s.vectorOut 0 (s.fld cfg F.HCQ_CFG.VEC) else []) ++
          .hostWrite (base + 16 * at_) ((c.entry (((s.hcq q).pass + 1) % 2) r).flatMap hwOctets) :: s.out ∧
        t.host = (s.host.filter fun x => !decide (x.id = c.id)) ∧ RegsBut s t [st] ∧
        t.fld st F.HCQ_STAT.CQT = (at_ + 1) % 2 ^ s.fld cfg F.HCQ_CFG.LOG2SIZE % 2 ^ (F.HCQ_STAT.CQT.hi + 1 - F.HCQ_STAT.CQT.lo))
  ) ∧
  (
  ∀ (s : State) (q : Fin 64) (i : Fin 4096) (c : HCmd) (tag : Nat) (bytes : List (BitVec 8)),
    let a := if c.fixed then c.addr else c.addr + c.pos
    let n := min (c.count - c.pos) (if c.fixed then (if queuePortAddr a ∨ a < 0x10000 then 64 else 1) else 64 - a % 64)
    let on := s.updCmd c.id fun x => { x with started := true, pos := x.pos + n, opened := x.opened + 1 }
    (c.started = true ∨ s.nextCmd q c.opc = some c) → c.result = none → c.pos < c.count → c.gone = [] → s.pcieTag 512 1024 = some tag →
    s.host.find? (fun x => decide (x.q = q.val ∧ x.idx = i.val ∧ x.opc = c.opc ∧ x.result = none ∧ x.pos < x.count)) = some c →
    (s.quiesced a = false →
    (c.opc = 2 → bytes.length = n * (if c.packed then 5 else 8) → exec (.dmaTo q i bytes true) s = .next (on.sendReq
      { src := portId 256 28, cmd := cWR, prio := c.prio, tag := Fin.ofNat 1024 tag, addr := BitVec.ofNat 40 a, len := Fin.ofNat 65 n,
        data := if c.packed then packedWords bytes else slotWords bytes } (.dma c.id c.pos))) ∧
    (c.opc = 3 → exec (.dmaFrom q i) s = .next (on.sendReq
      { src := portId 256 28, cmd := cRD, prio := c.prio, tag := Fin.ofNat 1024 tag, addr := BitVec.ofNat 40 a, len := Fin.ofNat 65 n }
      (.dma c.id c.pos))) ∧
    (c.opc = 2 → c.hostFail = none → exec (.dmaTo q i bytes false) s = .next (s.updCmd c.id fun x =>
      ({ x with started := true, pos := x.pos + n, hostFail := some (x.hostFail.getD x.pos) } : HCmd).dmaEnd))) ∧
    (∀ dd, s.quiesced a = true → addrDie a = some dd → c.opc = 3 → exec (.dmaFrom q i) s = .next (s.updCmd c.id fun x =>
      ({ x with started := true, pos := x.pos + n, fail := lowest x.fail x.pos 5, gone := dd :: x.gone } : HCmd).dmaEnd))
  ) ∧
  (
  ∀ (s s0 : State) (pk : Packet) (req : Outst) (c : HCmd) (part : Nat),
    let good := decide (pk.cmd = cCPL)
    let ended : State := { s0 with outst := s0.outst.erase req }
    let octets := if c.packed then packedOctets pk.data else pk.data.flatMap slotOctets
    let written := if good ∧ c.opc = 3 then ended.emit (.hostWrite (c.haddr + (if c.packed then 5 else 8) * part) octets) else ended
    let sooner := match c.fail with | some f => decide (f.1 ≤ part) | none => false
    let c1 : HCmd := { c with
      opened := c.opened - 1, moved := if good then c.moved + req.len else c.moved,
      fail := if good || sooner then c.fail else some (part, pk.ecode) }
    let status := if c1.gone ≠ [] then 7 else if c1.fail.isSome then 3 else if c1.hostFail.isSome then 4 else 0
    let offset := min ((c1.fail.map (·.1)).getD (2 ^ 24)) (c1.hostFail.getD (2 ^ 24))
    (pk.cmd = cCPL ∨ (pk.cmd = cCPLE ∧ pk.ecode ≠ 0)) → Arrived s pk s0 →
    s.outst.find? (fun x => decide (x.port = pk.dst ∧ x.tag = pk.tag.val)) = some req → req.why = .dma c.id part → c ∈ s.host →
    (∀ x ∈ s.host, x.id = c.id → x = c) → c.result = none →
    let run := fun (t : State) => exec (if pk.cmd = cCPL then .cpl pk else .cple pk) s = .next t
    ((c.pos < c.count ∨ 1 < c.opened) → run { written with host := s.host.map fun x => if x.id = c.id then c1 else x }) ∧
    (c.count ≤ c.pos → c.opened = 1 → run { written with host := s.host.map fun x => if x.id = c.id then
      { c1 with result := some (status, c1.moved, if status = 0 then 0 else offset * 256 + (c1.fail.map (·.2)).getD 0) } else x })
  )

/-- R15, R297–R299, Table 8.10, Table 12.9: a park request is refused with the status of the first check that fails, or quiesces its die; an
unpark of a die that is not parked is refused, one that fails, for want of a link home (LINK) or of its frames or loops (LOADERR), leaves everything
as it was, and one that succeeds leaves the die powered, loaded and past its start-up order, with PARKED clear and the paths written. -/
def Obligations.ParkAndUnpark : Prop :=
  ∀ (s : State) (d : Fin 4) (q : Fin 64) (ups : BitVec 6) (lock : Bool),
    let verdict := if s.dieDark d then some 2 else if s.park.isSome ∨ s.unparkReq.isSome ∨ s.loadTo d then some 1 else if s.dieArmed d then some 1
      else if s.parkForbidden d then some 2 else none
    let told := fun (c : HCmd) => if c.aims d = true ∧ s.cmdResult c = none then { c with gone := d.val :: c.gone } else c
    let quiet := fun (t : State) (asked : Option Nat) => t.park = some ⟨d, asked⟩ ∧ t.flag R.HUB_PCTL F.HUB_PCTL.BUSY = true ∧
      (∀ e : Fin 128, (t.eng (engId d e)).state ≠ .run ∧ (t.eng (engId d e)).state ≠ .halt) ∧
      (∀ g, engDie g ≠ d.val → t.eng g = s.eng g) ∧ (SMap.get {} t.dies d).writes = false ∧ (SMap.get {} t.dies d).outputs = false ∧
      (∀ x, x ≠ d.val → SMap.get {} t.dies x = SMap.get {} s.dies x) ∧
      (∀ n, n < 48 → t.fpad d n = (false, false)) ∧
      t.reg R.HTR_DPATH = dpathWord (fun x => s.parked x || decide (x = d.val)) 4 ∧ t.chans = s.chans ∧ t.arrays = s.arrays ∧ t.fm = s.fm
    (∀ c, s.nextCmd q 7 = some c → c.w 4 = d →
      (∀ st, verdict = some st → exec (.park q) s = .next ((s.setFld R.HUB_PCTL F.HUB_PCTL.RESULT st).endCmd c st 0 0)) ∧
      (verdict = none → ∃ t, exec (.park q) s = .next t ∧ quiet t (some c.id) ∧
        t.host = s.host.map fun x => let y := told x; if x.id = c.id then { y with started := true } else y)) ∧
    (∀ st, verdict = some st → ∃ t, exec (.pctlPark d) s = .next t ∧ t.fld R.HUB_PCTL F.HUB_PCTL.RESULT = st ∧
      RegsBut s t [R.HUB_PCTL] ∧ t = { s with regs := t.regs }) ∧
    (verdict = none → ∃ t, exec (.pctlPark d) s = .next t ∧ quiet t none ∧ t.host = s.host.map told) ∧
    (s.unparkReq = none → s.parked d = false → ∃ t, exec (.pctlUnpark d ups lock) s = .next t ∧ t.fld R.HUB_PCTL F.HUB_PCTL.RESULT = 2 ∧
      RegsBut s t [R.HUB_PCTL] ∧ t = { s with regs := t.regs }) ∧
    (s.unparkReq = none → s.parked d = true → s.park.isSome = true → ∃ t, exec (.pctlUnpark d ups lock) s = .next t ∧
      t.fld R.HUB_PCTL F.HUB_PCTL.RESULT = 1 ∧ RegsBut s t [R.HUB_PCTL] ∧ t = { s with regs := t.regs }) ∧
    ((s.unparkReq = none ∨ s.unparkReq = some d.val) → s.parked d = true → s.park = none → ∃ s1 : State,
      s1 = { s with unparkReq := none, regs := s1.regs } ∧ RegsBut s s1 [R.HUB_PCTL] ∧ s1.flag R.HUB_PCTL F.HUB_PCTL.BUSY = false ∧
      exec (.pctlUnpark d ups lock) s =
        .next ((s1.unparkSteps d ups lock).1.setFld R.HUB_PCTL F.HUB_PCTL.RESULT (s1.unparkSteps d ups lock).2.1)) ∧
    (∀ c, s.nextCmd q 8 = some c → c.w 4 = d → s.parked d = false →
      exec (.unpark q ups lock) s = .next ((s.setFld R.HUB_PCTL F.HUB_PCTL.RESULT 2).endCmd c 2 0 0)) ∧
    (∀ c, s.nextCmd q 8 = some c → c.w 4 = d → s.parked d = true → (s.park.isSome = true ∨ s.unparkReq.isSome = true) →
      exec (.unpark q ups lock) s = .next ((s.setFld R.HUB_PCTL F.HUB_PCTL.RESULT 1).endCmd c 1 0 0)) ∧
    (let r := s.unparkSteps d ups lock
     (∀ c, s.nextCmd q 8 = some c → c.w 4 = d → s.parked d = true → s.park = none → s.unparkReq = none →
       exec (.unpark q ups lock) s = .next ((r.1.setFld R.HUB_PCTL F.HUB_PCTL.RESULT r.2.1).endCmd c r.2.1 0 r.2.2)) ∧
     (r.2.1 = 0 ∨ r.2.1 = 6 ∨ r.2.1 = 9) ∧ (r.2.1 ≠ 0 → r.1 = s) ∧ (r.2.1 = 0 → lock = true ∧ r.2.2 = 0 ∧
       (SMap.get {} r.1.dies d).off = false ∧ (SMap.get {} r.1.dies d).loaded = true ∧ (SMap.get {} r.1.dies d).gsr = true ∧
       (SMap.get {} r.1.dies d).outputs = true ∧ (SMap.get {} r.1.dies d).writes = true ∧
       getF (r.1.reg R.HUB_PCTL) ⟨20 + d, 20 + d⟩ = 0 ∧ getF (r.1.reg R.CFG_BSTAT) ⟨16 + d, 16 + d⟩ = 1 ∧
       r.1.reg R.HTR_DPATH = dpathWord r.1.parked 4))

/-- R301–R308, Table 12.13: the knock chain. A lock change is reported upstream, the device without an upstream lock becomes the head, the head runs
knock rounds, each device takes an address and passes the knock on, and the KNOCK_END comes back; a packet with a bad CRC is only
counted.
R307, R308, R347, Table 12.13: management requests and replies, configuration packets, and the three actions of CHN_CTL. A request goes on in its
direction unless it is for this device alone; its accesses are made at once, or wait at the hub while the path to a die is away (log entry 32);
for an offset that is not aligned the reply has STATUS 2 (log entry 172). The octets of a payload have the order of log entry 171. -/
def Obligations.KnockChainAndManagement : Prop :=
  (
  ∀ (s : State) (pk : ChainPkt),
    let st := R.CHN_STAT
    let good := pk.crc.toNat = chainCrc pk.typ pk.dst pk.src pk.seq pk.payload
    let n := (s.chn.num + 1) % 256
    let begun := (({ s with chn := { s.chn with round := true, num := n, gen := s.chn.gen + 1, sent := s.chn.sent + 1 } } : State).setFld
      st F.CHN_STAT.ROUND n).emit (.chainTx true (chainPk 1 0x80 0 0 (knockOctets n 1 1 0 s.chn.smap)))
    let asks := fun (a : State) => a.emit (.chainTx false (chainPk 7 0 s.chnAddr 0 []))
    let fresh : State := { s with chn := { s.chn with rxIn := {} } }
    (s.chainRuns = true → s.flag st F.CHN_STAT.HEAD = false → s.flag st F.CHN_STAT.INLK = false →
      (s.chn.rxIn.commas = 7 → exec (.chainLockChange false [.comma]) s = .next (asks (fresh.setFld st F.CHN_STAT.INLK 1))) ∧
      (s.chn.rxIn = {} → exec (.chainLockChange false (List.replicate 8 .comma)) s = .next (asks (s.setFld st F.CHN_STAT.INLK 1))) ∧
      (s.chn.rxIn = {} → exec (.chainLockChange false (List.replicate 7 .comma ++ [.bad])) s =
        .next { s with chn := { s.chn with rxIn := { errs := 1, quiet := 1 } } })) ∧
    (s.chainRuns = true → s.flag st F.CHN_STAT.HEAD = false → s.flag st F.CHN_STAT.INLK = true → s.chn.rxIn = {} →
      exec (.chainLockChange false [.bad, .bad, .bad, .bad]) s = .next (asks (s.setFld st F.CHN_STAT.INLK 0)) ∧
      exec (.chainLockChange false [.bad, .bad, .bad]) s = .next { s with chn := { s.chn with rxIn := { errs := 7, quiet := 3 } } }) ∧
    (∀ out cs, s.chainRuns = false → exec (.chainLockChange out cs) s = .next s) ∧
    (s.chn.elected = false → s.flag st F.CHN_STAT.INLK = false → ∃ t, exec .headElection s = .next t ∧
      t = { s with regs := t.regs, chn := { s.chn with elected := true } } ∧ RegsBut s t [st] ∧ t.flag st F.CHN_STAT.HEAD = true ∧
      t.fld st F.CHN_STAT.ADDR = 0 ∧ t.flag st F.CHN_STAT.AVALID = true ∧ t.flag st F.CHN_STAT.END = !s.flag st F.CHN_STAT.OUTLK) ∧
    (s.chn.elected = false → s.flag st F.CHN_STAT.INLK = true → ∃ t, exec .headElection s = .next t ∧
      t = { s with regs := t.regs, chn := { s.chn with elected := true } } ∧ RegsBut s t [st] ∧
      t.flag st F.CHN_STAT.HEAD = s.flag st F.CHN_STAT.HEAD) ∧
    (s.chainRuns = true → s.flag st F.CHN_STAT.HEAD = true → s.chn.round = false → exec .knockRoundStart s = .next begun) ∧
    (s.chainRuns = false ∨ s.flag st F.CHN_STAT.HEAD = false ∨ s.chn.round = true → exec .knockRoundStart s = .next s) ∧
    (s.chainRuns = true → good → pk.typ = 7 → s.flag st F.CHN_STAT.HEAD = true → s.chn.round = false → s.flag R.CHN_CFG F.CHN_CFG.AUTOK = true →
      exec (.knockReq pk) s = .next begun) ∧
    (s.chainRuns = true → good → pk.typ = 7 → s.flag st F.CHN_STAT.HEAD = false → exec (.knockReq pk) s = .next (s.emit (.chainTx false pk))) ∧
    (s.chainRuns = true → ¬ good → exec (.knock pk) s = .next (s.addSat R.CHN_CNT F.CHN_CNT.CRCERR 1) ∧ exec (.knockEnd pk) s = exec (.knock pk) s ∧
      exec (.knockReq pk) s = exec (.knock pk) s ∧ (∀ l, exec (.cfg pk l) s = exec (.knock pk) s) ∧
      (∀ u, exec (.mreq pk u) s = exec (.knock pk) s ∧ exec (.mrsp pk u) s = exec (.knock pk) s)) ∧
    (∀ a, s.chainRuns = true → good → pk.typ = 1 → s.flag st F.CHN_STAT.HEAD = false → s.flag R.CHN_CFG F.CHN_CFG.STICKY = false →
      s.flag st F.CHN_STAT.AVALID = false → 1 ≤ a → a < 16 → oct pk 1 ≤ a → (oct2 pk 2).testBit a = false → (oct2 pk 6).testBit a = false →
      (∀ b, oct pk 1 ≤ b → b < a → (oct2 pk 2).testBit b = true ∨ (oct2 pk 6).testBit b = true) →
      ∃ t, exec (.knock pk) s = .next t ∧ t = { s with regs := t.regs, out := t.out, chn := t.chn } ∧ RegsBut s t [st, R.CHN_MAP] ∧
        t.fld st F.CHN_STAT.ADDR = a ∧ t.flag st F.CHN_STAT.AVALID = true ∧ t.fld st F.CHN_STAT.ROUND = oct pk 0 ∧
        t.chn = { s.chn with rcvd := s.chn.rcvd + 1, sent := s.chn.sent + 1 } ∧
        t.out = .chainTx (s.flag st F.CHN_STAT.OUTLK) (chainPk (if s.flag st F.CHN_STAT.OUTLK then 1 else 2) pk.dst.toNat pk.src.toNat
          pk.seq (knockOctets (oct pk 0) (if a = 15 then 1 else a + 1) (oct2 pk 2 ||| 2 ^ a) (oct2 pk 4) (oct2 pk 6))) :: s.out) ∧
    (s.chainRuns = true → good → pk.typ = 2 → s.flag st F.CHN_STAT.HEAD = true → s.chn.round = true → oct pk 0 = s.chn.num →
      ∃ t, exec (.knockEnd pk) s = .next t ∧ t = { s with regs := t.regs, chn := t.chn } ∧ RegsBut s t [st, R.CHN_MAP] ∧
        t.chn = { s.chn with rcvd := s.chn.rcvd + 1, cons := s.chn.cons + 1, round := false, smap := oct2 pk 4 } ∧
        t.flag st F.CHN_STAT.KDONE = true ∧ t.reg R.CHN_MAP = BitVec.ofNat 32 (oct2 pk 4 * 65536 + oct2 pk 2)) ∧
    (s.chainRuns = true → good → pk.typ = 2 → s.flag st F.CHN_STAT.HEAD = false → ∃ t, exec (.knockEnd pk) s = .next t ∧ RegsBut s t [R.CHN_MAP] ∧
        t = { s with regs := t.regs, out := .chainTx false pk :: s.out,
                     chn := { s.chn with rcvd := s.chn.rcvd + 1, sent := s.chn.sent + 1 } }) ∧
    (s.flag st F.CHN_STAT.HEAD = true → s.chn.round = true → exec .knockTimeout s =
      .next (({ s with chn := { s.chn with round := false } } : State).setFld st F.CHN_STAT.KTO 1))
  ) ∧
  (
  ∀ (s : State) (pk : ChainPkt) (down : Bool),
    let st := R.CHN_STAT
    let good := pk.crc.toNat = chainCrc pk.typ pk.dst pk.src pk.seq pk.payload
    let mine := s.chainMine pk = true
    let passed := fun (way : Bool) => if s.chainMine pk = true ∧ pk.dst.getLsbD 7 = false then s else s.emit (.chainTx way pk)
    let ws := hwOfOctets pk.payload
    let m0 := ws.getD 0 0
    let off := (ws.getD 1 0).toNat % 2 ^ 26
    let n := m0.toNat % 16 + 1
    let reply := fun (a : State) (code : Nat) (data : List HWord) =>
      a.emit (.chainTx (!down) (chainPk 5 (pk.src.toNat % 16) a.chnAddr pk.seq (BitVec.ofNat 8 code :: data.flatMap hwOctets)))
    let put := (List.range n).map fun i => ws.getD (2 + i) 0
    let acc : HeldAcc := { asker := .chain down (pk.src.toNat % 16) pk.seq.toNat, src := 4, off := off, n := n, since := s.tbu.run,
                           write := if m0.getLsbD 31 then some put else none }
    let comes := s.chainRuns = true ∧ good ∧ pk.typ = 4 ∧ mine ∧ s.flag R.CHN_CFG F.CHN_CFG.MGMT = true ∧ s.heldAcc = [] ∧ off % 4 = 0
    let open_ := ∀ i, i < n → s.waitsAt (off + 4 * i) = false
    (s.chainRuns = true → good → pk.typ = 4 → ¬ mine → exec (.mreq pk down) s = .next (s.emit (.chainTx down pk))) ∧
    (s.chainRuns = true → good → pk.typ = 4 → mine → (s.flag R.CHN_CFG F.CHN_CFG.MGMT = false ∨ off % 4 ≠ 0) →
      exec (.mreq pk down) s = .next (reply (passed down) 2 [])) ∧
    (comes → open_ → m0.getLsbD 31 = true → exec (.mreq pk down) s = .next ((passed down).writeRun acc false off put)) ∧
    (comes → open_ → m0.getLsbD 31 = false →
      let got := (passed down).readRun off false n
      exec (.mreq pk down) s = .next (reply got.2 0 got.1)) ∧
    (comes → ¬ open_ → exec (.mreq pk down) s = .next { passed down with heldAcc := [acc] }) ∧
    (∀ (a : State) (o : Nat) (v : HWord) (vs : List HWord), a.writeRun acc false o [] = reply a 0 [] ∧
      (a.waitsAt o = false → a.writeRun acc false o (v :: vs) = (a.busWrite 4 o v).writeRun acc false (o + 4) vs) ∧
      (a.waitsAt o = true → a.writeRun acc false o (v :: vs) =
        { a with heldAcc := a.heldAcc ++ [{ acc with off := o, write := some (v :: vs), since := a.tbu.run }] }) ∧
      (a.readRun off false 0 = ([], a)) ∧ (a.readRun off false (n + 1) =
        let w := a.busRead off false; ((w.1 :: (w.2.readRun (off + 4) false n).1), (w.2.readRun (off + 4) false n).2))) ∧
    (s.chainRuns = true → good → pk.typ = 5 → ¬ mine → exec (.mrsp pk down) s = .next (s.emit (.chainTx down pk))) ∧
    (s.chainRuns = true → good → pk.typ = 5 → mine → s.flag st F.CHN_STAT.MBUSY = false → exec (.mrsp pk down) s = .next (passed down)) ∧
    (s.chainRuns = true → good → pk.typ = 5 → mine → s.flag st F.CHN_STAT.MBUSY = true →
      let got := hwOfOctets (pk.payload.drop 1)
      ∃ t, exec (.mrsp pk down) s = .next t ∧ t = { passed down with regs := t.regs } ∧
        RegsBut s t (st :: (List.range 16).map R.CHN_RBUF) ∧ t.flag st F.CHN_STAT.MBUSY = false ∧ t.flag st F.CHN_STAT.MDONE = true ∧
        t.fld st F.CHN_STAT.MSTATUS = oct pk 0 % 2 ^ (F.CHN_STAT.MSTATUS.hi + 1 - F.CHN_STAT.MSTATUS.lo) ∧
        ∀ i, i < 16 → t.reg (R.CHN_RBUF i) = got.getD i (s.reg (R.CHN_RBUF i))) ∧
    (s.flag st F.CHN_STAT.MBUSY = true → ∃ t, exec .mreqTimeout s = .next t ∧ t = { s with regs := t.regs } ∧ RegsBut s t [st] ∧
      t.flag st F.CHN_STAT.MBUSY = false ∧ t.flag st F.CHN_STAT.MDONE = true ∧ t.fld st F.CHN_STAT.MSTATUS = 1) ∧
    (s.flag st F.CHN_STAT.MBUSY = false → exec .mreqTimeout s = .next s) ∧
    (∀ late, s.chainRuns = true → good → pk.typ = 3 →
      (¬ mine ∨ s.cfg.feed ≠ .chain ∨ s.cfg.up = true → exec (.cfg pk late) s = .next (passed true)) ∧
      (mine → s.cfg.feed = .chain → s.cfg.up = false →
        (late = true ∨ s.chainLate = true ∨ pk.seq.toNat ≠ s.cfg.seq % 256 → exec (.cfg pk late) s = .next ((passed true).bootFailed 16 none)) ∧
        (late = false → s.chainLate = false → pk.seq.toNat = s.cfg.seq % 256 →
          let begun := if s.cfg.octs = [] then (passed true).jtagEnds else passed true
          exec (.cfg pk late) s = .next (State.bootNext { begun with cfg := { s.cfg with
            octs := s.cfg.octs ++ pk.payload, seq := s.cfg.seq + 1, chainAt := s.tbu.run } }.chainOctets)))) ∧
    (∀ v : BitVec 32, v.getLsbD 31 = false → v.getLsbD 30 = false → v.getLsbD 29 = false →
      let s1 := s.writeReg R.CHN_CTL (v ||| 0x40000000)
      ∃ t, exec (.chnCtlKnock v) s = .next t ∧ exec .knockRoundStart s1 = .next t) ∧
    (∀ v : BitVec 32, v.getLsbD 31 = false → v.getLsbD 30 = false →
      let s1 := s.writeReg R.CHN_CTL (v ||| 0x20000000)
      let dst := s1.fld R.CHN_CTL F.CHN_CTL.MDST
      let c0 := s1.reg (R.CHN_MBUF 0)
      let may := s1.chainRuns = true ∧ s1.flag st F.CHN_STAT.NOADDR = false ∧ s1.flag st F.CHN_STAT.MBUSY = false ∧
        (dst = 0 ∨ s1.flag st F.CHN_STAT.HEAD = true)
      let m := if c0.getLsbD 31 then c0.toNat % 16 + 1 else 0
      (may → exec (.chnCtlMgo v) s = .next ((s1.setFld st F.CHN_STAT.MBUSY 1).emit (.chainTx (decide (dst ≠ 0)) (chainPk 4 dst s1.chnAddr 0
        (((List.range (2 + m)).map fun i => s1.reg (R.CHN_MBUF i)).flatMap hwOctets))))) ∧
      (¬ may → exec (.chnCtlMgo v) s = .next s1)) ∧
    (∀ v : BitVec 32, v.getLsbD 30 = false → v.getLsbD 29 = false →
      ∃ t, exec (.chnCtlSnap v) s = .next t ∧ t = { s with regs := t.regs } ∧
        t.reg (R.CHN_LEDGER 0) = s.chn.gen ∧ t.reg (R.CHN_LEDGER 1) = s.chn.rcvd ∧ t.reg (R.CHN_LEDGER 2) = s.chn.sent ∧
        t.reg (R.CHN_LEDGER 3) = s.chn.cons ∧ t.reg (R.CHN_LEDGER 4) = s.chn.held ∧ t.reg (R.CHN_LEDGER 8) = s.chn.asserted ∧
        t.reg (R.CHN_LEDGER 9) = s.chn.released ∧ t.reg (R.CHN_LEDGER 10) = (if s.chn.low then 1 else 0) ∧ t.reg (R.CHN_LEDGER 11) = s.chn.seen)
  )

/-- R309–R322: clocks. A multiplexer (R317) takes the input asked of it, at once where its old clock is dead, or stays; a hub loop that loses lock
falls back, its consumers with it (Table 13.2), and relocks; so does one whose reference fails, and the controllers on HL2 then go OFFLINE; a write
of SRC ends a fallback when its multiplexers have moved; the frequency meter measures while BUSY and reports its count; a watched clock out of range
in two windows running fails, and one too fast sets OVR and ROC. -/
def Obligations.ClocksAndFallback : Prop :=
  ∀ (s : State),
    let hl := R.CLK_HLSTAT
    let ask := fun (t : State) (id : Nat) => SMap.get 0 t.clk.ask id
    let asked := fun (t : State) (id v : Nat) => ask t id = if s.mux id = v then 0 else v + 1
    let cmBit := fun (t : State) (f : Fld) (i : Nat) => (t.fld R.CM_STATUS f).testBit i
    let ddrs := (List.range 8).map R.DDR_STATUS
    let unasked := ∀ c, c < 8 → s.fmTouches c = false ∧ (s.ddr c).offWait = false ∧ ∀ v, v < 4 → (s.fmQueue (fmPortOf c) v).pks = []
    let lost := fun (t : State) (n : Nat) => t.flag hl (lockF n) = false ∧ t.flag hl (lolF n) = true ∧ t.flag hl (fbF n) = true ∧
      cmBit t F.CM_STATUS.FAIL (2 + n) = true ∧ t.mux = s.mux ∧ (n < 2 → asked t (4 + n) 0) ∧ (∀ id, ¬ (n < 2 ∧ id = 4 + n) → ask t id = ask s id) ∧
      (n = 2 → ∀ c, c < 8 → t.fld (R.DDR_STATUS c) F.DDR_STATUS.STATE = 4) ∧
      (n = 3 → s.hasCompanion = true → (s.fld R.UCL_STAT F.UCL_STAT.STATE = 1 ∨ s.fld R.UCL_STAT F.UCL_STAT.STATE = 2) →
        t.fld R.UCL_STAT F.UCL_STAT.STATE = 3 ∧ t.boarded (portId 256 32) = true)
    (∀ (id : Fin 12) (v : Nat), s.mux id ≠ 3 → s.muxWants id = some v →
      let sw := { s with clk := { s.clk with mux := SMap.set 0 s.clk.mux id v, ask := SMap.set 0 s.clk.ask id 0 } }
      let n := id.val % 4
      let arrived := id.val < 8 ∧ sw.mux n = sw.loopSrc n ∧ s.flag hl (lockF n) = true ∧ (2 ≤ n ∨ sw.mux (4 + n) = 1) ∧ ask sw n = 0 ∧
        ask sw (4 + n) = 0
      (∃ t, exec (.muxSwitch id) s = .next t ∧ t = { sw with regs := t.regs } ∧ RegsBut s t [hl] ∧ (arrived → t.flag hl (fbF n) = false) ∧
        (¬ arrived → t = sw)) ∧
      (∃ t, exec (.muxForcedSwitch id) s = .next t ∧ t = { sw with regs := t.regs } ∧ RegsBut s t [hl, R.CLK_MUX] ∧
        t.flag R.CLK_MUX F.CLK_MUX.FSW = true ∧ t.fld R.CLK_MUX F.CLK_MUX.MUXID = id % 16) ∧
      (∃ t, exec (.muxSwitchAbandon id false) s = .next t ∧ RegsBut s t [R.CLK_MUX] ∧ t.flag R.CLK_MUX F.CLK_MUX.SWFAIL = true ∧
        t.fld R.CLK_MUX F.CLK_MUX.MUXID = id % 16 ∧ t = { s with regs := t.regs, clk := { s.clk with ask := SMap.set 0 s.clk.ask id 0 } }) ∧
      (∃ t, exec (.muxSwitchAbandon id true) s = .next t ∧ t.mux id = 3 ∧ ask t id = 0 ∧ t.flag R.CLK_MUX F.CLK_MUX.SWFAIL = true)) ∧
    (∀ id : Fin 12, s.muxWants id = none → exec (.muxSwitch id) s = .next s ∧ exec (.muxForcedSwitch id) s = .next s ∧
      ∀ dead, exec (.muxSwitchAbandon id dead) s = .next s) ∧
    (∀ id : Fin 12, id.val < 8 → s.muxWants id = if ask s id = 0 then none else some (ask s id - 1)) ∧
    (∀ n : Fin 4, s.clk.started.getLsbD n = true → s.flag hl (lockF n) = true →
      ∃ t, exec (.hubLoopLossOfLock n) s = .next t ∧ lost t n ∧ t.clk.cant.getLsbD n = true ∧
        (n.val < 2 → RegsBut s t [hl, R.CM_STATUS] ∧ t = { s with regs := t.regs, clk := t.clk }) ∧
        (n = 2 → unasked → RegsBut s t (hl :: R.CM_STATUS :: R.DDR_MAP :: ddrs) ∧ t = { s with regs := t.regs, clk := t.clk })) ∧
    (∀ n : Fin 4,
      let can : State := { s with clk := { s.clk with cant := s.clk.cant &&& ~~~ BitVec.ofNat 4 (2 ^ n.val) } }
      (s.clk.started.getLsbD n = false ∨ s.unlocked3 n = true → exec (.hubLoopRelock n) s = .next can) ∧
      (s.clk.started.getLsbD n = true → s.unlocked3 n = false → s.cfg.up = false → (∀ k, k < 6 → (s.hinge k).wait = 0) →
        exec (.hubLoopRelock n) s = .next (can.setFld hl (lockF n) 1))) ∧
    (∀ n : Fin 4, (s.clk.started.getLsbD n = false ∨ s.flag hl (lockF n) = false) → exec (.hubLoopLossOfLock n) s =
      .next { s with clk := { s.clk with cant := s.clk.cant ||| BitVec.ofNat 4 (2 ^ n.val) } }) ∧
    (∀ v : BitVec 32, s.flag R.FM_CTL F.FM_CTL.BUSY = false → ∃ t, exec (.fmGo v) s = .next t ∧ t.flag R.FM_CTL F.FM_CTL.BUSY = true ∧
      RegsBut s t [R.FM_CTL] ∧ t = { s with regs := t.regs, clk := t.clk } ∧ t.clk.meas = getF v F.FM_CTL.MEAS ∧ t.clk.ref = getF v F.FM_CTL.REF ∧
      t.clk.gate = max 10 (min 24 (getF v F.FM_CTL.GATE))) ∧
    (∀ n : BitVec 40, s.flag R.FM_CTL F.FM_CTL.BUSY = true →
      let c := if s.measRuns s.clk.meas = true ∧ s.clk.ref < 16 ∧ s.measRuns s.clk.ref = true then
          (if s.clk.meas = s.clk.ref ∧ n ≠ 0 then 2 ^ s.clk.gate else n.toNat) else 0
      ∃ t, exec (.fmDone n) s = .next t ∧ t = { s with regs := t.regs } ∧ RegsBut s t [R.FM_CTL, R.FM_CNT_L, R.FM_CNT_H] ∧
        t.reg R.FM_CNT_L = BitVec.ofNat 32 c ∧ t.reg R.FM_CNT_H = BitVec.ofNat 32 (c / 2 ^ 32) ∧ t.flag R.FM_CTL F.FM_CTL.BUSY = false ∧
        t.flag R.FM_CTL F.FM_CTL.DONE = true) ∧
    (∀ (i : Fin 6) (n : Nat), s.power ≠ .off →
      let e := s.nominal i * 4096
      let low := n * 40000000 < 85 * e
      let high := 115 * e < n * 40000000
      let noted := fun (t : State) (out : Bool) => t = { s with regs := t.regs, clk := t.clk, db := t.db } ∧ cmBit t F.CM_STATUS.OUT i = out ∧
        t.clk.bad.getLsbD i = out
      (s.watched i = false → ∃ t, exec (.monitorWindow i n) s = .next t ∧ t = { s with regs := t.regs, db := t.db } ∧ RegsBut s t [R.CM_STATUS] ∧
        t.fld R.CM_STATUS F.CM_STATUS.OUT = s.fld R.CM_STATUS F.CM_STATUS.OUT) ∧
      (s.watched i = true → ¬ low → ¬ high → ∃ t, exec (.monitorWindow i n) s = .next t ∧ noted t false ∧ RegsBut s t [R.CM_STATUS]) ∧
      let again := s.clk.bad.getLsbD i = true
      let still := ¬ again ∨ (i.val < 2 ∧ cmBit s F.CM_STATUS.FAIL i = true) ∨ (2 ≤ i.val ∧ s.flag hl (lockF (i - 2)) = false)
      (s.watched i = true → low → still →
        ∃ t, exec (.monitorWindow i n) s = .next t ∧ noted t true ∧ RegsBut s t [R.CM_STATUS] ∧ (again → cmBit t F.CM_STATUS.FAIL i = true)) ∧
      (s.watched i = true → high → still →
        ∃ t, exec (.monitorWindow i n) s = .next t ∧ noted t true ∧ RegsBut s t [R.CM_STATUS, R.HUB_INTEGRITY] ∧
          cmBit t F.CM_STATUS.OVR i = true ∧ t.flag R.HUB_INTEGRITY F.HUB_INTEGRITY.ROC = true ∧ (again → cmBit t F.CM_STATUS.FAIL i = true)) ∧
      (s.watched i = true → low ∨ high → ¬ still →
        ∃ t, exec (.monitorWindow i n) s = .next t ∧ cmBit t F.CM_STATUS.FAIL i = true ∧ cmBit t F.CM_STATUS.OUT i = true ∧
          (high → cmBit t F.CM_STATUS.OVR i = true ∧ t.flag R.HUB_INTEGRITY F.HUB_INTEGRITY.ROC = true) ∧
          (2 ≤ i.val → lost t (i - 2)) ∧
          (i.val < 2 → (unasked → t = { s with regs := t.regs, clk := t.clk, db := t.db }) ∧ ∀ k, k < 4 →
            (s.loopOn k = true → s.loopSrc k = i → asked t k 2 ∧ t.flag hl (fbF k) = true ∧
              (k = 2 → ∀ c, c < 8 → t.fld (R.DDR_STATUS c) F.DDR_STATUS.STATE =
                let st := s.fld (R.DDR_STATUS c) F.DDR_STATUS.STATE
                if st = 1 ∨ st = 2 then 3 else st)) ∧
            (s.loopOn k = false ∨ s.loopSrc k ≠ i → ask t k = ask s k ∧ t.flag hl (fbF k) = s.flag hl (fbF k))))) ∧
    (∀ v : BitVec 32,
      let s1 := s.writeReg R.CLK_HLCFG v
      ∃ t, exec (.clkHlcfgWrite v) s = .next t ∧ t = { s1 with regs := t.regs, clk := t.clk } ∧ RegsBut s1 t [hl] ∧ t.clk.mux = s.clk.mux ∧
        ∀ n, n < 4 →
          let src := s1.loopSrc n
          let moves := s1.refGood src = true ∧ (s.flag hl (lockF n) = true ∨ s.unlocked3 n = true)
          (moves → asked t n src ∧ (n < 2 → asked t (4 + n) 1) ∧
            (s.flag hl (lockF n) = true → s.mux n = src → (n < 2 → s.mux (4 + n) = 1) → (2 ≤ n → ask s (4 + n) = 0) → t.flag hl (fbF n) = false) ∧
            (s.flag hl (lockF n) = false ∨ s.mux n ≠ src ∨ (n < 2 ∧ s.mux (4 + n) ≠ 1) → t.flag hl (fbF n) = s.flag hl (fbF n))) ∧
          (¬ moves → ask t n = ask s n ∧ (n < 2 → ask t (4 + n) = ask s (4 + n)) ∧ t.flag hl (fbF n) = s.flag hl (fbF n)))

/-- R323. A window of 256 SOSC ticks whose count of FOSC lies outside ±30 % of 51,200 is bad: the second in succession resets the device with
cause 4, and no other window does. -/
def Obligations.FoscCheck : Prop :=
  ∀ (s : State) (n : Nat), s.power ≠ .off →
    let bad := 10 * n < 7 * 51200 ∨ 13 * 51200 < 10 * n
    (bad → s.clk.foscBad = true → exec (.foscCheckWindow n) s = .next (s.deviceReset 4 none)) ∧
    (bad → s.clk.foscBad = false → exec (.foscCheckWindow n) s = .next { s with clk := { s.clk with foscBad := true } }) ∧
    (¬ bad → exec (.foscCheckWindow n) s = .next { s with clk := { s.clk with foscBad := false } })

/-- R326–R333, R344, R348–R350: power, resets and the start-up order. Power-on, HRESET and CLK_RST run the device reset with their cause; losing
power keeps OTP and the store alone, and a PROGRAM of OTP that it cuts leaves its generation absent or bad; HOLD keeps pins and deadbolt until an
enabled bell pin rings whose driver was off, and the wake keeps the pads latched; in the order, the event after LOCK begins once HL0, HL1 and the
panes that are not gated are locked, and LOCK's time limit fails the attempt with LOCKTO; DONE's end, and its own time limit, let the order go on, and
DONE_N's counters follow. -/
def Obligations.PowerResetAndOrder : Prop :=
  ∀ (s : State),
    (s.power = .off → exec .powerOn s = .next ((s.setReg R.CLK_RSTCAUSE 0).deviceReset 0 none)) ∧
    (s.power = .off → exec .hreset s = .next s) ∧
    (s.power ≠ .off → exec .powerOn s = .next s ∧ exec .hreset s = .next (s.deviceReset 1 none)) ∧
    (s.power = .on → ∀ v : BitVec 32, getF v F.CLK_RST.KEY = 0xC1A5 → v.getLsbD 0 = true → exec (.clkRstDev v) s = .next (s.deviceReset 2 none)) ∧
    (s.power = .on → ∀ v : BitVec 32, getF v F.CLK_RST.KEY ≠ 0xC1A5 → exec (.clkRstDev v) s = .next s) ∧
    (s.otpRun = none → ∃ t, exec .pwrgoodFall s = .next t ∧ t.power = .off ∧ t.regs = [] ∧ t.cells = [] ∧ t.arrays = [] ∧ t.dm = [] ∧
      t.fm = [] ∧ t.frames = [] ∧ t.otp = s.otp ∧ t.store = s.store ∧ t.pending = s.pending) ∧
    (∀ x, s.otpRun = some x → ∃ t, exec .pwrgoodFall s = .next t ∧ t.power = .off ∧ t.otpRun = none ∧ t.store = s.store ∧
      (t.otp = s.otp ∨ x.op = 1 ∧ (t.otpGen x.field x.gen).p = true ∧ (t.otpGen x.field x.gen).good x.field = false)) ∧
    (s.power = .on → ∀ v : BitVec 32,
      let busy := s.flag R.HUB_PCTL F.HUB_PCTL.BUSY = true ∨ ∃ t, t < 8 ∧ s.armState t = 1
      let asks := getF v F.CLK_HOLD.KEY = 0xC1A5 ∧ v.getLsbD 0 = true
      (¬ asks → exec (.clkHoldGo v) s = .next (s.writeReg R.CLK_HOLD v)) ∧
      (asks → busy → ∃ t, exec (.clkHoldGo v) s = .next t ∧ t.power = .on ∧
        t.flag R.CLK_HOLD F.CLK_HOLD.HREJ = true ∧ RegsBut s t [R.CLK_HOLD] ∧ t = { s with regs := t.regs }) ∧
      (asks → ¬ busy → ∃ t, exec (.clkHoldGo v) s = .next t ∧ t.power = .hold ∧
        t.db = s.db ∧ t.clk.bad = s.clk.bad ∧ t.clk.foscBad = s.clk.foscBad ∧ t.cells = [] ∧ t.arrays = [] ∧ t.fm = [] ∧
        t.otpRun = none ∧ (s.otpRun = none → t.otp = s.otp) ∧
        (∀ k, k < 64 → (t.pin k).hold = true ∧ ((s.pin k).hold = false → ((t.pin k).heldEn, (t.pin k).heldLevel) = s.pad k)) ∧
        (∀ d n, d < 4 → n < 48 → (t.fpin d n).hold = true ∧
          ((s.fpin d n).hold = false → ((t.fpin d n).heldEn, (t.fpin d n).heldLevel) = s.fpad d n)))) ∧
    (∀ ks levels : BitVec 4,
      let h := s.reg R.CLK_HOLD
      let heard := fun (k : Nat) => k < 4 ∧ ks.getLsbD k = true ∧ (s.pin k).heldEn = false
      let rings := fun (k : Nat) => heard k ∧ (s.pin k).filt ≠ levels.getLsbD k ∧ (getF h F.CLK_HOLD.BELLEN).testBit k = true ∧
        levels.getLsbD k ≠ (getF h F.CLK_HOLD.BELLPOL).testBit k
      (s.power ≠ .hold → exec (.bellWake ks levels) s = .next s) ∧
      (s.power = .hold → ∃ s1 : State, s1 = { s with pins := s1.pins } ∧ (∀ k, ¬ heard k → s1.pin k = s.pin k) ∧
        (∀ k, heard k → s1.pin k = { s.pin k with
          filt := levels.getLsbD k, raw := levels.getLsbD k != decide (getF (s.pinCfg k) F.PIN_CFG.INV = 1) }) ∧
        ((∀ k, ¬ rings k) → exec (.bellWake ks levels) s = .next s1) ∧
        ((∃ k, rings k) → ∃ w, exec (.bellWake ks levels) s = .next (s1.deviceReset 5 (some w)) ∧ ∀ k, w.testBit k = true ↔ rings k))) ∧
    (∀ cause w, (s.deviceReset cause (some w)).fld R.CLK_RSTCAUSE F.CLK_RSTCAUSE.WAKE = w % 16 ∧ ∀ k, k < 64 →
      let x := (s.deviceReset cause (some w)).pin k
      x.hold = (s.pin k).hold ∧ x.heldEn = (s.pin k).heldEn ∧ x.heldLevel = (s.pin k).heldLevel) ∧
    (∀ cause wake, (s.deviceReset cause wake).power = .on ∧ (s.deviceReset cause wake).chn.low = true ∧
      (s.deviceReset cause wake).chn.asserted = 1 ∧ (s.deviceReset cause wake).store = s.store ∧ (s.deviceReset cause wake).cells = [] ∧
      (s.deviceReset cause wake).db.pol = s.otpVal 11 ∧ (s.deviceReset cause wake).db.cool = decide (cause = 6) ∧
      (s.deviceReset cause wake).fld R.CLK_RSTCAUSE F.CLK_RSTCAUSE.CAUSE = cause % 2 ^ (F.CLK_RSTCAUSE.CAUSE.hi + 1 - F.CLK_RSTCAUSE.CAUSE.lo)) ∧
    (s.cfg.up = true → s.cfg.place < 5 → s.cfg.order / 8 ^ s.cfg.place % 8 = 1 → exec .lockTimeout s = .next (s.bootFailed 14 none)) ∧
    (¬ (s.cfg.up = true ∧ s.cfg.place < 5 ∧ s.cfg.order / 8 ^ s.cfg.place % 8 = 1) → exec .lockTimeout s = .next s) ∧
    (s.cfg.up = true → s.cfg.place < 4 → s.cfg.order / 8 ^ s.cfg.place % 8 = 1 → s.clk.started = 15 → (∀ k, k < 6 → (s.hinge k).wait = 0) →
      let next := s.cfg.order / 8 ^ (s.cfg.place + 1) % 8
      let die := fun (u : State) (d : Nat) => (SMap.get {} u.dies d : DieSt)
      let locked := s.flag R.CLK_HLSTAT (lockF 1) = true ∧ ∀ d p, d < 4 → p < 64 → (die s d).loaded = true →
        s.flag (R.PANE_CLK d p) F.PANE_CLK.GATE = true ∨ s.flag (R.PANE_CLK d p) F.PANE_CLK.LOCK = true
      ∃ t, exec (.hubLoopRelock 0) s = .next t ∧ (¬ locked → t.cfg = s.cfg ∧ t.dies = s.dies) ∧
        (locked → s.cfg.place < t.cfg.place ∧ (∀ d, d < 4 → (die s d).loaded = true →
          (next = 3 → (die t d).gsr = true) ∧ (next = 4 → (die t d).writes = true) ∧ (next = 2 → (die t d).outputs = true)) ∧
          (next = 5 → s.chn.low = true → t.chn.low = false ∧ t.fld R.CFG_BSTAT F.CFG_BSTAT.STATE = 4))) ∧
    (s.waitsDone = false → exec .doneNHigh s = .next s ∧ exec .doneTimeout s = .next s) ∧
    (s.waitsDone = true → exec .doneNHigh s = .next (({ s with
      chn := { s.chn with seen := s.chn.seen + 1 }, cfg := { s.cfg with place := s.cfg.place + 1 } } : State).orderOn)) ∧
    (s.waitsDone = true → s.fld R.CFG_BOOT F.CFG_BOOT.DTO ≠ 0 → exec .doneTimeout s = .next ((({ s with
      cfg := { s.cfg with place := s.cfg.place + 1 } } : State).setFld R.CFG_BSTAT F.CFG_BSTAT.DONETO 1).orderOn)) ∧
    (s.cfg.up = true → 5 ≤ s.cfg.place → ∃ t, exec (.hubLoopRelock 0) { s with clk := { s.clk with started := 15 } } = .next t ∧
      t.fld R.CFG_BSTAT F.CFG_BSTAT.STATE = 5 ∧ t.cfg.up = false ∧ t.cfg.feed = .none)

/-- R339, R340, R348, R351, R352, Tables 14.3, 14.9: the packets of a run-time stream. A frame select names a frame; a good frame of a cell, route or
engine goes to the shadow and loses its image mark, a busy member refuses the stream, a bad frame fails it; IDCODE, CRC and END are
compared; SHUT shuts and opens a pane.
R340, R343–R345, R351, R353, R364, R366, R427: a boot load takes the same packets, a packet that the store cannot give fails with STORE; a failure
of slot 1 or of the chain clears the attempt, records it in UCAUSE and FALLBK and tries slot 0 once, and a failure there ends in FAILED; host
words reach a stream through CFG_RTPKT, which closes it when they pause; a readback shows a frame with its check words, or is rejected. -/
def Obligations.ConfigurationPackets : Prop :=
  (
  ∀ (s : State) (h : BitVec 32) (ws rest : List (BitVec 32)),
    let n := s.cfg.words.length
    let s1 := { s with cfg := { s.cfg with words := rest } }
    let v := (ws.getD 0 0).toNat
    let go := fun (c : CfgSt → CfgSt) => ({ s1 with cfg := c s1.cfg } : State).rtAhead
    let stops := fun (cause : Nat) => s1.rtClose (some cause) n
    s.booting = false → s.cfg.words = h :: (ws ++ rest) → ws.length = h.toNat % 2 ^ 24 → s1.cfg.loaded = false →
    (h.toNat / 2 ^ 24 = 0 → exec .skipPacket s = .next s1.rtAhead) ∧
    (h.toNat / 2 ^ 24 ≠ 0 → exec .skipPacket s = .next s) ∧
    (h.toNat / 2 ^ 24 = 1 → (ws.getD 0 0 = s.reg R.CFG_IDCODE → exec .cfgIdcode s = .next s1.rtAhead) ∧
      (ws.getD 0 0 ≠ s.reg R.CFG_IDCODE → exec .cfgIdcode s = .next (stops 2))) ∧
    (h.toNat / 2 ^ 24 = 2 → exec .cfgFsel s = .next (go fun c => { c with fsel := v % 2 ^ 25 })) ∧
    (h.toNat / 2 ^ 24 = 4 → v.testBit 8 = false → exec .cfgCtl s =
      .next (if v.testBit 0 then go fun c => { c with crc := 0xFFFFFFFF } else s1.rtAhead)) ∧
    (h.toNat / 2 ^ 24 = 4 → v.testBit 8 = true → exec .cfgCtl s = .next (stops 15)) ∧
    (h.toNat / 2 ^ 24 = 5 → (v = s.cfg.crc ^^^ 0xFFFFFFFF → exec .cfgCrc s = .next (go fun c => { c with crc := 0xFFFFFFFF })) ∧
      (v ≠ s.cfg.crc ^^^ 0xFFFFFFFF → exec .cfgCrc s = .next (stops 10))) ∧
    (h.toNat / 2 ^ 24 = 6 → exec .cfgStartOrder s = .next s1.rtAhead) ∧
    (h.toNat / 2 ^ 24 = 7 →
      (SMap.get 0 s.armedBy (fPane v) ≠ 0 → exec .cfgShut s = .next (stops 0)) ∧
      (SMap.get 0 s.armedBy (fPane v) = 0 → v.testBit 31 = true → ∃ t : State, exec .cfgShut s = .next t.rtAhead ∧
        (t.pane (fPane v)).shut = true ∧ (∀ e, e / 2 = fPane v → (t.eng e).state ≠ .run) ∧ ∀ p, p ≠ fPane v → t.pane p = s.pane p) ∧
      (SMap.get 0 s.armedBy (fPane v) = 0 → v.testBit 31 = false → (s.pane (fPane v)).shut = true → ∃ t : State,
        exec .cfgShut s = .next t.rtAhead ∧ (t.pane (fPane v)).shut = false ∧ (t.pane (fPane v)).slot = 0 ∧
        ∀ p, p ≠ fPane v → t.pane p = s.pane p)) ∧
    (h.toNat / 2 ^ 24 = 8 → (v ≠ s.cfg.frames → exec .cfgEnd s = .next (stops 8)) ∧
      (v = s.cfg.frames → ∃ t, exec .cfgEnd s = .next t ∧ t.cfg.feed = .none ∧ t.flag R.CFG_RTSTAT F.CFG_RTSTAT.OPEN = false ∧
        (∀ p ∈ s.cfg.shut, (t.pane p).shut = false))) ∧
    (h.toNat / 2 ^ 24 = 3 → ws.length = 125 → ∀ bad,
      let f := s.cfg.fsel
      let d := packedWords (ws.flatMap hwOctets)
      let m := fMember f
      (frameOk f = false → exec (.cfgFload bad) s = .next (stops 11)) ∧
      (frameOk f = true → frameChecks d = false → exec (.cfgFload bad) s = .next (stops 9)) ∧
      (frameOk f = true → frameChecks d = true → (fType f = 1 ∨ fType f = 3) → s.dieDark (fDie f) = false → s.shadowBusy m = false →
        (s.pane (fPane f)).reload = false → exec (.cfgFload bad) s = .next (({ (((s1.putFrame (1 - s.liveCopy m) f d).setImageBit
          (1 - s.liveCopy m) f false)) with cfg := { s1.cfg with
            fsel := (f + 1) % 2 ^ 25, frames := s.cfg.frames + 1, crc := crcRun s.cfg.crc (d.take 98) } } : State).rtAhead)) ∧
      (frameOk f = true → frameChecks d = true → (fType f = 1 ∨ fType f = 3) → s.dieDark (fDie f) = false →
        (s.shadowBusy m = true ∨ (s.pane (fPane f)).reload = true) →
        exec (.cfgFload bad) s = .next ((s1.noteRefused m).rtClose (some 0) n)) ∧
      (frameOk f = true → frameChecks d = true → s.dieDark (fDie f) = true → exec (.cfgFload bad) s = .next (stops 17)))
  ) ∧
  (
  ∀ (s : State),
    (∀ ws s1 r, s.booting = true → s.cfg.first = false → s.nextPacket = some (r, ws, s1) → s1.cfg.first = false →
      let v := (ws.getD 0 0).toNat
      let goesOn := fun (t : State) => t.bootAhead.elim t fun cause => t.bootFailed cause none
      let on := fun (c : CfgSt → CfgSt) => goesOn { s1 with cfg := c s1.cfg }
      let unread := s1.imgUnread (s1.cfg.pos - ws.length - 1) (if r = 0 ∨ r = 3 then 1 else ws.length + 1)
      (unread = true → (r = 1 → exec .cfgIdcode s = .next (s1.bootFailed 7 none)) ∧ (r = 2 → exec .cfgFsel s = .next (s1.bootFailed 7 none)) ∧
        (r = 3 → exec (.cfgFload false) s = .next (s1.bootFailed 7 none)) ∧ (r = 4 → exec .cfgCtl s = .next (s1.bootFailed 7 none)) ∧
        (r = 6 → exec .cfgStartOrder s = .next (s1.bootFailed 7 none)) ∧ (r = 5 → exec .cfgCrc s = .next (s1.bootFailed 7 none)) ∧
        (r = 8 → exec .cfgEnd s = .next (s1.bootFailed 7 none))) ∧
      (unread = false →
        (r = 0 → exec .skipPacket s = .next (on id)) ∧
        (r = 1 → ws.getD 0 0 = s1.reg R.CFG_IDCODE → exec .cfgIdcode s = .next (on id)) ∧
        (r = 1 → ws.getD 0 0 ≠ s1.reg R.CFG_IDCODE → exec .cfgIdcode s = .next (s1.bootFailed 2 none)) ∧
        (r = 2 → exec .cfgFsel s = .next (on fun c => { c with fsel := v % 2 ^ 25 })) ∧
        (r = 8 → (v ≠ s1.cfg.frames ∨ v ≠ hFrames s1.cfg.head) → exec .cfgEnd s = .next (s1.bootFailed 8 none)) ∧
        (r = 8 → v = s1.cfg.frames → v = hFrames s1.cfg.head → ∀ n, s1.cfg.feed = .slot n → s1.readImage.opens s1.imgKey = true →
          ((s1.cfg.railOut = true ∨ s1.readImage.digest ≠ s1.cfg.digest) → exec .cfgEnd s = .next (s1.bootFailed 5 none)) ∧
          (s1.cfg.railOut = false → s1.readImage.digest = s1.cfg.digest → exec .cfgEnd s =
            .next ({ s1 with cfg := { s1.cfg with loaded := true } } : State).startUp)) ∧
        (r = 6 → orderOk v = false → exec .cfgStartOrder s = .next (s1.bootFailed 12 none)) ∧
        (r = 5 → v = s1.cfg.crc ^^^ 0xFFFFFFFF → exec .cfgCrc s = .next (on fun c => { c with crc := 0xFFFFFFFF })) ∧
        (r = 5 → v ≠ s1.cfg.crc ^^^ 0xFFFFFFFF → exec .cfgCrc s = .next (s1.bootFailed 10 none)) ∧
        (r = 3 → 125 ≤ ws.length → exec (.cfgFload true) s = .next (s1.bootFailed 7 (some s1.cfg.fsel))) ∧
        (r = 3 → ws.length = 125 → s1.imgUnread (s1.cfg.pos - 125) 125 = false →
          let f := s1.cfg.fsel
          let d := packedWords (ws.flatMap hwOctets)
          let inMask := frameOk f = true ∧ (hDmask s1.cfg.head).testBit (fDie f) = true
          (¬ inMask → exec (.cfgFload false) s = .next (s1.bootFailed 11 (some f))) ∧
          (inMask → frameChecks d = false → exec (.cfgFload false) s = .next (s1.bootFailed 9 (some f))) ∧
          (inMask → frameChecks d = true → (s1.bootFrame f d = none → exec (.cfgFload false) s = .next (s1.bootFailed 13 (some f))) ∧
            ∀ a, s1.bootFrame f d = some a → a.cfg.loaded = false → exec (.cfgFload false) s = .next (goesOn (a.frameDone d)))))) ∧
    (∀ cause sel, cause < 32 → s.cfg.feed ≠ .slot 0 → ∃ s2 : State, s2.flag R.CFG_BSTAT F.CFG_BSTAT.FALLBK = true ∧
      s2.fld R.CFG_BSTAT F.CFG_BSTAT.UCAUSE = cause ∧ s2.fld R.CFG_BSTAT F.CFG_BSTAT.LOADED = 0 ∧ s2.outputs = false ∧ s2.chn.low = true ∧
      s2.cfg.runSlot = none ∧
      (s.cfg.offs = [] → s.cfg.head = [] → s2.reg R.CFG_BFSEL = (match sel with | some f => BitVec.ofNat 32 (2 ^ 31 + f) | none => 0)) ∧
      ((s2.startSlot 0 true).2 = none → s.bootFailed cause sel = (s2.startSlot 0 true).1) ∧
      (∀ c f, (s2.startSlot 0 true).2 = some (c, f) → s.bootFailed cause sel = ((s2.startSlot 0 true).1.bootClear c f).bootState 6)) ∧
    (∀ cause sel, s.cfg.feed = .slot 0 → (s.bootFailed cause sel).fld R.CFG_BSTAT F.CFG_BSTAT.STATE = 6) ∧
    (∀ v : BitVec 32, (s.fld R.CFG_BSTAT F.CFG_BSTAT.STATE ≠ 5 ∨ s.cfg.feed = .load ∨ s.cfg.quiet = true) →
      exec (.cfgRtpktWrite v) s = .next (s.setFld R.CFG_RTSTAT F.CFG_RTSTAT.RTREJ 1)) ∧
    (∀ v : BitVec 32, s.fld R.CFG_BSTAT F.CFG_BSTAT.STATE = 5 → s.cfg.feed = .rtpkt → s.cfg.quiet = false → s.secCfg.testBit 2 = false →
      s.cfg.words ≠ [] → packetOk (s.cfg.words.headD 0) = true →
      exec (.cfgRtpktWrite v) s = .next { s with cfg := { s.cfg with words := s.cfg.words ++ [v] } }) ∧
    (s.cfg.quiet = true → exec .rtpktStreamTimeout s = .next { s with cfg := { s.cfg with quiet := false } }) ∧
    (s.cfg.quiet = false → s.cfg.feed = .rtpkt → exec .rtpktStreamTimeout s = .next (s.rtClose none 0)) ∧
    (∀ (v : BitVec 32),
      let f := getF v F.CFG_RBSEL.FSEL
      let c := if getF v F.CFG_RBSEL.PLANE = 0 then s.liveCopy (fMember f) else 1 - s.liveCopy (fMember f)
      let d := s.storedFrame c f
      let whole := hwOfOctets (packedOctets (d ++ [BitVec.ofNat 40 (frameCrc d), BitVec.ofNat 40 (hamming d)]))
      ((frameOk f = true ∧ fType f ≠ 2 ∧ fType f ≠ 4 ∧ s.dieRuns (fDie f) = true ∧ s.flag R.SEC_STAT F.SEC_STAT.ENC = false) →
        ∃ t, exec (.readback v) s = .next t ∧ t = { s with regs := t.regs } ∧ ∀ i, i < 125 → t.reg (R.CFG_RBDAT i) = whole.getD i 0) ∧
      ((frameOk f = false ∨ s.flag R.SEC_STAT F.SEC_STAT.ENC = true) → ∃ t, exec (.readback v) s = .next t ∧
        t.flag R.CFG_RBSEL F.CFG_RBSEL.REJ = true ∧ (∀ i, i < 125 → t.reg (R.CFG_RBDAT i) = 0)))
  )

/-- R335, R336, R368, R369: the store die's READ, PROGRAM and ERASE, started by CFG_SCMD and refused for every reason that holds, which end when no
load or reload reads the store (a READ that fails leaves its page unreadable: the model's choice, log entry 137); and OTP's PROGRAM and VOID,
which write OTP_DATA into, or void, one generation of one field, show it in OTP_GEN and OTP_VAL, and change nothing else but the test access port's
instruction set, which follows SECCFG. -/
def Obligations.StoreAndOtp : Prop :=
  ∀ (s : State),
    let a := s.fld R.CFG_SADR F.CFG_SADR.ADDR
    let idle := s.flag R.CFG_SCMD F.CFG_SCMD.BUSY = false
    let slot := a / 2 ^ 27
    let started := fun (op : Nat) (t : State) => t.flag R.CFG_SCMD F.CFG_SCMD.BUSY = true ∧ RegsBut s t [R.CFG_SCMD] ∧
      t = { s with regs := t.regs, cfg := { s.cfg with cmd := (op, a), cmdWaits := s.storeRead } }
    let refused := fun (err lock : Prop) (t : State) => t.flag R.CFG_SCMD F.CFG_SCMD.BUSY = false ∧ RegsBut s t [R.CFG_SCMD] ∧
      (err → t.flag R.CFG_SCMD F.CFG_SCMD.ERR = true) ∧ (lock → t.flag R.CFG_SCMD F.CFG_SCMD.LOCKERR = true) ∧
      (¬ err → t.flag R.CFG_SCMD F.CFG_SCMD.ERR = s.flag R.CFG_SCMD F.CFG_SCMD.ERR) ∧ t = { s with regs := t.regs }
    let locked := s.cfg.runSlot = some slot ∨ (slot = 0 ∧ s.flag R.CFG_BOOT F.CFG_BOOT.GOLDWE = false)
    let programErr := a % 256 ≠ 0 ∨ SMap.get false s.progd (a / 256) = true
    (idle → a % 4 = 0 → ∃ t, exec .storeRead s = .next t ∧ started 1 t) ∧
    (idle → a % 4 ≠ 0 → ∃ t, exec .storeRead s = .next t ∧ refused True False t) ∧
    (idle → ¬ programErr → ¬ locked → ∃ t, exec .storeProgram s = .next t ∧ started 2 t) ∧
    (idle → programErr ∨ locked → ∃ t, exec .storeProgram s = .next t ∧ refused programErr locked t) ∧
    (idle → a % 65536 = 0 → ¬ locked → ∃ t, exec .storeErase s = .next t ∧ started 3 t) ∧
    (idle → a % 65536 ≠ 0 ∨ locked → ∃ t, exec .storeErase s = .next t ∧ refused (a % 65536 ≠ 0) locked t) ∧
    (s.flag R.CFG_SCMD F.CFG_SCMD.BUSY = false ∨ (s.cfg.cmdWaits = true ∧ s.storeRead = true) →
      ∀ fail, exec (.storeCommandEnd fail) s = .next s) ∧
    (∀ b op, s.flag R.CFG_SCMD F.CFG_SCMD.BUSY = true → s.cfg.cmd = (op, b) → (s.cfg.cmdWaits = false ∨ s.storeRead = false) →
      ∀ fail, ∃ t, exec (.storeCommandEnd fail) s = .next t ∧
      t.flag R.CFG_SCMD F.CFG_SCMD.BUSY = false ∧ t.flag R.CFG_SCMD F.CFG_SCMD.DONE = true ∧
      (fail = true → t.store = s.store ∧ t.flag R.CFG_SCMD F.CFG_SCMD.ERR = true ∧
        ∀ p, SMap.get false t.unread p = (SMap.get false s.unread p || decide (op = 1 ∧ p = b / 256))) ∧
      (fail = false → op = 1 → b / 4 + 64 ≤ 2 ^ 27 → t.store = s.store ∧ ∀ i, i < 64 → t.reg (R.CFG_SBUF i) = s.storeWord (b / 4 + i)) ∧
      (fail = false → op = 2 → ∀ j, t.storeWord j =
        if b / 4 ≤ j ∧ j < b / 4 + 64 then s.reg (R.CFG_SBUF (j - b / 4)) else s.storeWord j) ∧
      (fail = false → op = 3 → ∀ j, t.storeWord j = if j / 16384 = b / 65536 then 0xFFFFFFFF else s.storeWord j)) ∧
    (∀ f : Fin 16, s.power ≠ .on → exec (.otpProgram f) s = .next s ∧ exec (.otpVoid f) s = .next s) ∧
    (∀ f : Fin 16, s.power = .on → s.otpRun = none →
      (∀ c, s.otpRefusal 1 f = c → c ≠ 0 → ∃ t, exec (.otpProgram f) s = .next t ∧ t = { s with regs := t.regs } ∧ RegsBut s t [R.OTP_STAT] ∧
        t.flag R.OTP_STAT F.OTP_STAT.REJ = true ∧ t.fld R.OTP_STAT F.OTP_STAT.CAUSE = c) ∧
      (s.otpRefusal 1 f = 0 → ∃ t g, exec (.otpProgram f) s = .next t ∧ g < 4 ∧ (s.otpGen f g).p = false ∧ (∀ k, k < g → (s.otpGen f k).p = true) ∧
        t.flag R.OTP_STAT F.OTP_STAT.BUSY = true ∧ RegsBut s t [R.OTP_STAT] ∧ t = { s with regs := t.regs, otpRun := t.otpRun } ∧
        ∃ v, t.otpRun = some ⟨1, f, g, v⟩ ∧ v < 2 ^ otpWidth f ∧
          ∀ i, i < otpWidth f → v.testBit i = (s.reg (R.OTP_DATA (i / 32))).getLsbD (i % 32)) ∧
      (s.otpRefusal 2 f = 0 → ∃ t g v, exec (.otpVoid f) s = .next t ∧ s.otpActive f = some g ∧ t.otpRun = some ⟨2, f, g, v⟩ ∧
        t.flag R.OTP_STAT F.OTP_STAT.BUSY = true ∧ RegsBut s t [R.OTP_STAT] ∧ t = { s with regs := t.regs, otpRun := t.otpRun })) ∧
    (∀ op f g v, s.otpRun = some ⟨op, f, g, v⟩ → ∃ t, exec .otpCommandEnd s = .next t ∧
      t.flag R.OTP_STAT F.OTP_STAT.BUSY = false ∧ t.flag R.OTP_STAT F.OTP_STAT.DONE = true ∧
      (op = 1 → t.otpGen f g = { val := v, p := true, chk := otpCrc f v }) ∧ (op = 2 → t.otpGen f g = { s.otpGen f g with v := true }) ∧
      (∀ f' g', 4 * f' + g' ≠ 4 * f + g → t.otpGen f' g' = s.otpGen f' g') ∧
      (f < 12 → ∀ i, i < otpWidth f → (t.reg (R.OTP_VAL f (i / 32))).getLsbD (i % 32) =
        (decide (f ≠ 1 ∧ f ≠ 4) && ((t.otpVal f).getD 0).testBit i)) ∧
      (let shown := R.OTP_STAT :: R.OTP_GEN f :: (List.range 12).map (R.OTP_VAL f)
       (f = 7 → t = { s with regs := t.regs, otp := t.otp, otpRun := none, tap := t.tap } ∧ RegsBut s t (R.SEC_STAT :: shown)) ∧
       (f ≠ 7 → t = { s with regs := t.regs, otp := t.otp, otpRun := none } ∧ RegsBut s t shown))) ∧
    (s.otpRun = none → exec .otpCommandEnd s = .next s)

/-- R341, R354–R358, R371, R372: the scrubber leaves a good frame, corrects one bit, and notes what it cannot correct; the in-service test notes a
signature that differs; the test access port selects its registers, IDCODE alone once the device is locked. A region reload writes the frames that
the running slot's packets give into the copies that are queued for them. -/
def Obligations.ScrubTestAndTap : Prop :=
  ∀ (s : State),
    (∀ (copy : Fin 2) (f : BitVec 25),
      let n := f.toNat
      let s0 := s.passEnds
      let after := fun (t : State) => State.passEnds { t with
        cfg := { t.cfg with scrub0 := if copy = 0 then n + 1 else t.cfg.scrub0, scrub1 := if copy = 0 then t.cfg.scrub1 else n + 1 } }
      let due := s0.scrubNext (s0.scrubAt copy) = some n
      let corrected := fun (t : State) => RegsBut s0 t [R.CFG_SCRST, R.CFG_SCCNT] ∧ t.flag R.CFG_SCRST F.CFG_SCRST.CE = true ∧
        t.fld R.CFG_SCCNT F.CFG_SCCNT.CECNT = min (s0.fld R.CFG_SCCNT F.CFG_SCCNT.CECNT + 1) 65535
      let wrong := fun (t : State) => t = { s0 with regs := t.regs, panes := t.panes, pmBad := t.pmBad, cfg := { s0.cfg with reload := t.cfg.reload } } ∧
        RegsBut s0 t [R.CFG_SCRST, R.CFG_SCCNT, R.CFG_SCUEA] ∧ t.flag R.CFG_SCRST F.CFG_SCRST.UE = true ∧
        t.fld R.CFG_SCCNT F.CFG_SCCNT.UECNT = min (s0.fld R.CFG_SCCNT F.CFG_SCCNT.UECNT + 1) 65535 ∧
        (s.flag R.CFG_SCRST F.CFG_SCRST.UE = false → t.reg R.CFG_SCUEA = BitVec.ofNat 32 (copy * 2 ^ 31 + n)) ∧
        t.cfg.reload = if s.imageBit copy n = true ∧ s.flag R.CFG_SCRUB F.CFG_SCRUB.RELOAD = true ∧ s.cfg.runSlot.isSome = true ∧
          s.cfg.reload.length < 64 ∧ (copy.val, n) ∉ s.cfg.reload then s.cfg.reload ++ [(copy.val, n)] else s.cfg.reload
      (s.scrubRuns = false → exec (.scrubFrame copy f) s = .next s) ∧
      (s.scrubRuns = true → ¬ due → exec (.scrubFrame copy f) s = .next s0) ∧
      (s.scrubRuns = true → due → fType n ≠ 3 →
        let d := s.storedFrame copy n
        let crc := (s.chkWord copy n 0).toNat
        let h := (s.chkWord copy n 1).toNat
        let x := hamSyndrome d h
        let data := x.2 = true ∧ x.1 ∈ hamPositions
        let check := x.2 = true ∧ (x.1 = 0 ∨ ∃ k, k < 12 ∧ x.1 = 2 ^ k)
        let fixed := if data then flipData d (hamPositions.idxOf x.1) else d
        let good := frameCrc d = crc ∧ hamming d = h
        (good → exec (.scrubFrame copy f) s = .next (after s0)) ∧
        (¬ good → (data ∨ check) → frameCrc fixed = crc → ∃ t, exec (.scrubFrame copy f) s = .next (after t) ∧
          t = { s0 with regs := t.regs, frames := t.frames, chk := t.chk, lvPar := t.lvPar } ∧ corrected t ∧
          t.storedFrame copy n = storedWords n fixed ∧ (t.chkWord copy n 0).toNat = frameCrc (storedWords n fixed) ∧
          (t.chkWord copy n 1).toNat = hamming (storedWords n fixed) ∧
          ∀ c g, c < 2 → g < 2 ^ 25 → (c, g) ≠ (copy.val, n) → t.storedFrame c g = s.storedFrame c g) ∧
        (¬ good → (¬ (data ∨ check) ∨ frameCrc fixed ≠ crc) → ∃ t, exec (.scrubFrame copy f) s = .next (after t) ∧ wrong t ∧
          t.pmBad = s.pmBad)) ∧
      (s.scrubRuns = true → due → fType n = 3 →
        let bad := fun (t : State) (b : Nat) => SMap.get (0 : Fin 3) t.pmBad (pmKey copy (fEng n) (32 * fMinor n + b))
        let one := ∃ b, b < 32 ∧ bad s b = 1
        let two := ∃ b, b < 32 ∧ bad s b = 2
        (¬ one → ¬ two → ∃ t, exec (.scrubFrame copy f) s = .next (after t) ∧ t = { s0 with pmBad := t.pmBad } ∧ ∀ b, b < 32 → bad t b = bad s b) ∧
        (one → ¬ two → ∃ t, exec (.scrubFrame copy f) s = .next (after t) ∧ t = { s0 with regs := t.regs, pmBad := t.pmBad } ∧ corrected t ∧
          ∀ b, b < 32 → bad t b = 0) ∧
        (¬ one → two → ∃ t, exec (.scrubFrame copy f) s = .next (after t) ∧ wrong t ∧ ∀ b, b < 32 → bad t b = bad s b) ∧
        (one → two → ∃ t, exec (.scrubFrame copy f) s = .next (after t) ∧ wrong t ∧ t.flag R.CFG_SCRST F.CFG_SCRST.CE = true ∧
          t.fld R.CFG_SCCNT F.CFG_SCCNT.CECNT = min (s0.fld R.CFG_SCCNT F.CFG_SCCNT.CECNT + 1) 65535 ∧
          ∀ b, b < 32 → bad t b = if bad s b = 1 then 0 else bad s b))) ∧
    (s.scrubAt 0 + s.scrubAt 1 ≠ 0 → s.scrubNext (s.scrubAt 0) = none → s.scrubNext (s.scrubAt 1) = none →
      RegsBut s s.passEnds [R.CFG_SCRST] ∧ s.passEnds = { s with regs := s.passEnds.regs, cfg := { s.cfg with scrub0 := 0, scrub1 := 0 } } ∧
      s.passEnds.fld R.CFG_SCRST F.CFG_SCRST.PASSES = (s.fld R.CFG_SCRST F.CFG_SCRST.PASSES + 1) % 65536) ∧
    ((s.scrubAt 0 + s.scrubAt 1 = 0 ∨ s.scrubNext (s.scrubAt 0) ≠ none ∨ s.scrubNext (s.scrubAt 1) ≠ none) → s.passEnds = s) ∧
    (∃ t, exec .scrubSelfFault s = .next t ∧ t = { s with regs := t.regs, cfg := t.cfg, panes := t.panes } ∧ RegsBut s t [R.CFG_SCRST] ∧
      t.flag R.CFG_SCRST F.CFG_SCRST.SELF = true ∧ t.cfg = { s.cfg with stopped := true } ∧
      (∀ e ∈ s.cfg.reload, (t.pane (fPane e.2)).reload = false) ∧
      ∀ p, { t.pane p with reload := false } = { s.pane p with reload := false }) ∧
    (∀ v, s.flag R.CFG_SCRST F.CFG_SCRST.SELF = true → exec (.cfgScrubWrite v) s = .next (s.writeReg R.CFG_SCRUB v)) ∧
    (∀ v, s.flag R.CFG_SCRST F.CFG_SCRST.SELF = false → (s.cfg.stopped = false ∨ s.cfg.reload = []) → exec (.cfgScrubWrite v) s =
      .next { s.writeReg R.CFG_SCRUB v with cfg := { (s.writeReg R.CFG_SCRUB v).cfg with stopped := false } }) ∧
    (∀ v, s.flag R.CFG_SCRST F.CFG_SCRST.SELF = false → s.cfg.stopped = true → ∃ t, exec (.cfgScrubWrite v) s = .next t ∧
      t.cfg = { s.cfg with stopped := false } ∧ t.regs = (s.writeReg R.CFG_SCRUB v).regs ∧
      ∀ e ∈ s.cfg.reload, s.reloadArmed e.2 = false → (t.pane (fPane e.2)).reload = true) ∧
    (s.cfg.reload = [] → exec .regionReload s = .next s) ∧
    (∀ n, s.cfg.runSlot = some n → s.cfg.stopped = false → s.cfg.reload ≠ [] →
      let q := s.cfg.reload.filter fun e => s.imageBit e.1 e.2
      let go := q.filter fun e => !s.reloadWaits e.2
      let wait := q.filter fun e => s.reloadWaits e.2
      let given := (s.walkRunning (fun (m : List (Nat × List Word)) f ws => .ok ((f, ws) :: m)) []).1
      let frame := fun (f : Nat) => (given.find? fun x => decide (x.1 = f)).map Prod.snd
      ∃ t u : State, exec .regionReload s = .next (if (s.slotImage n).opens s.imgKey = true then u else t) ∧
        (t.cfg = { s.cfg with reload := [] } ∧ t.flag R.CFG_RTSTAT F.CFG_RTSTAT.REJ = true ∧ t.fld R.CFG_RTSTAT F.CFG_RTSTAT.CAUSE = 6 ∧
          t.frames = s.frames) ∧
        u.cfg.reload = wait ∧ (∀ e ∈ s.cfg.reload, (u.pane (fPane e.2)).reload = false) ∧
        (∀ c f, c < 2 → f < 2 ^ 25 → (c, f) ∉ go ∨ frame f = none → u.storedFrame c f = s.storedFrame c f ∧ u.imageBit c f = s.imageBit c f) ∧
        ∀ c f ws, c < 2 → f < 2 ^ 25 → (c, f) ∈ go → frame f = some ws → u.storedFrame c f = storedWords f ws ∧ u.imageBit c f = true ∧
          (u.chkWord c f 0).toNat = frameCrc (storedWords f ws) ∧ (u.chkWord c f 1).toNat = hamming (storedWords f ws) ∧
          (s.reg R.CFG_SCUEA = BitVec.ofNat 32 (c * 2 ^ 31 + f) → u.flag R.CFG_SCRST F.CFG_SCRST.UE = false)) ∧
    (∀ (d : Fin 4) (p : Fin 64) (sig : BitVec 32) (dt : Nat),
      let s1 := s.advance (paneId d p) dt
      let x := s1.pane (paneId d p)
      let u := s1.setPane (paneId d p) { x with istSlots := x.istSlots - 64 }
      let bad := s1.paneRuns (paneId d p) = true ∧
        ∃ tc, tc < 2048 ∧ tc / 32 % 8 ≠ 4 ∧ s1.badSpareLouvre (paneId d p) tc ≠ none
      (s1.istOn 2 = false → exec (.istCellSignature d p sig dt) s = .next s1) ∧
      (s1.istOn 2 = true → ¬ bad → exec (.istCellSignature d p sig dt) s = .next (
        if x.istSlots < 64 then s1
        else if sig = s1.reg R.CFG_ISTREF then u else u.setFld (R.CFG_ISTFAIL d (p / 32)) ⟨p % 32, p % 32⟩ 1)) ∧
      (s1.istOn 2 = true → bad → ∃ t, exec (.istCellSignature d p sig dt) s = .next t ∧ (t.reg (R.PANE_LVERR d p)).getLsbD 31 = true ∧
        RegsBut s1 t [R.PANE_LVERR d p, R.CFG_ISTFAIL d (p / 32)])) ∧
    (∀ (d : Fin 4) (e : Fin 128) (sig : BitVec 32),
      let x := s.eng (engId d e)
      s.istOn 1 = true → (x.state = .idle ∨ x.state = .stopped ∨ x.state = .fault ∨ (x.state = .run ∧ x.stall ≠ 0)) → s.engClocked (engId d e) = true →
      exec (.istEngineTest d e sig) s =
        .next (if sig = s.reg R.CFG_ISTREF then s else s.setFld (R.CFG_ISTEFAIL d (e / 32)) ⟨e % 32, e % 32⟩ 1)) ∧
    (∀ (k : Fin 6) (j : Fin 32) (bad : Bool), s.istOn 0 = true → s.hingeState (hingeEnds k).1 = 2 →
      (s.reg (R.HNG_LFAIL (hingeEnds k).1)).getLsbD j = false → (s.logical (hingeEnds k).1).contains j.val = false →
      exec (.istSpareLeafBlock k j bad) s = .next (s.setFld (R.CFG_ISTHNG k) ⟨j, j⟩ (if bad then 1 else 0))) ∧
    (let full := s.flag R.SEC_STAT F.SEC_STAT.JTAG
     let sel := fun (c : Nat) => ({ s with tap := { s.tap with instr := c } } : State)
     let scan := fun (c : Nat) (done : Bool) (v : BitVec 194) => (({ s with tap := { instr := c, capture := s.tapCapture done, update := v } } : State).emit
       (.tapData (s.tapCapture done).toNat))
     (s.power ≠ .on → exec .jtagIdcode s = .next s ∧ exec .bypass s = .next s ∧ exec .highz s = .next s ∧ exec .clamp s = .next s ∧
       ∀ done v, exec (.extest done v) s = .next s ∧ exec (.samplePreload done v) s = .next s) ∧
     (s.power = .on → exec .jtagIdcode s = .next ((sel 1).emit (.tapData (s.reg R.CFG_IDCODE).toNat)) ∧
       exec .bypass s = .next ((sel 15).emit (.tapData 0))) ∧
     (s.power = .on → full = true → (∀ done v, exec (.extest done (some v)) s = .next (scan 0 done v) ∧
       exec (.samplePreload done (some v)) s = .next (scan 2 done v)) ∧
       (∀ done, exec (.extest done none) s = .next (sel 0) ∧ exec (.samplePreload done none) s = .next (sel 2)) ∧
       exec .highz s = .next ((sel 3).emit (.tapData 0)) ∧ exec .clamp s = .next ((sel 4).emit (.tapData 0))) ∧
     (full = false → (∀ done v, exec (.extest done v) s = exec .bypass s ∧ exec (.samplePreload done v) s = exec .bypass s) ∧
       exec .highz s = exec .bypass s ∧ exec .clamp s = exec .bypass s))

/-- R374–R379, R414. The deadbolt's monitors and watchdog. A rail's second sample in succession out of range is a report, a single one or one of a
parked die is not, and 10 ms without a report clear VOUT; sensor readings set ROC, WARN and TRIP at their limits, and 125 °C or a trip resets the
device with cause 6; the watchdog expires first into its grace period and then into a reset of cause 3, unless it is suspended; a heartbeat one
above the last good one reloads it and any other counts as bad; SC's own reloads; a disagreement of SC's cores stops it; a suspension ends with a
reload, and once SC has stopped without one (the model's choice, log entry 140); a reset order that waits at step 2 goes on when every sensor has
been read cool. -/
def Obligations.DeadboltMonitorsAndWatchdog : Prop :=
  ∀ (s : State), s.power ≠ .off →
    let wdt := R.DB_WDT
    (∀ (i : Fin 9) (mv : BitVec 12),
      let bad := mv.toNat < (s.railRange i).1 ∨ (s.railRange i).2 < mv.toNat
      let parked := i.val < 4 ∧ (SMap.get {} s.dies i).off = true
      let good := SMap.get 0 s.db.okV i + 1
      ∃ t, exec (.voltageSample i mv) s = .next t ∧ t = { s with regs := t.regs, db := t.db, cfg := t.cfg } ∧ t.reg (R.DB_VOLT i) = mv.setWidth 32 ∧
        t.db = { s.db with rails := t.db.rails, out := t.db.out, okV := t.db.okV } ∧ (t.db.rails.getLsbD i = true ↔ bad ∧ ¬ parked) ∧
        (t.db.out.getLsbD i = true ↔ bad ∧ ¬ parked ∧ s.db.rails.getLsbD i = true) ∧
        (∀ j, j < 9 → j ≠ i.val → t.db.rails.getLsbD j = s.db.rails.getLsbD j ∧ t.db.out.getLsbD j = s.db.out.getLsbD j) ∧
        (bad → ¬ parked → s.db.rails.getLsbD i = true → t.flag R.DB_VSTAT ⟨i, i⟩ = true ∧ t.flag R.HUB_INTEGRITY F.HUB_INTEGRITY.ROC = true ∧
          RegsBut s t [R.DB_VOLT i, R.DB_VSTAT, R.HUB_INTEGRITY] ∧ t.cfg = { s.cfg with railOut := s.cfg.railOut || s.attemptRuns }) ∧
        (¬ bad ∨ parked ∨ s.db.rails.getLsbD i = false → RegsBut s t [R.DB_VOLT i, R.DB_VSTAT] ∧ t.cfg = s.cfg ∧ t.flag R.DB_VSTAT ⟨i, i⟩ =
          (s.flag R.DB_VSTAT ⟨i, i⟩ && !decide (10000 ≤ good ∧ s.db.scDead = false)))) ∧
    (∀ (i : Fin 19) (c : BitVec 12),
      let warn := 8 * (s.twarn : Int) ≤ c.toInt
      ∃ t, exec (.temperatureSample i c) s = .next (
          if s.db.cool = true ∧ t.db.seen = BitVec.allOnes 19 ∧ ∀ k ∈ List.range 19, t.temp k < 8 * ((s.ttrip : Int) - 15)
          then ({ t with db := { t.db with cool := false } } : State).resetGoes else t) ∧
        t = { s with regs := t.regs, db := { s.db with
          seen := s.db.seen ||| BitVec.ofNat 19 (2 ^ i.val), okT := t.db.okT, tripped := t.db.tripped } } ∧
        t.reg (R.DB_TEMP i) = c.setWidth 32 ∧ RegsBut s t [R.DB_TEMP i, R.DB_TSTAT, R.HUB_INTEGRITY] ∧
        (s.db.scDead = true → RegsBut s t [R.DB_TEMP i] ∧ t.db.tripped = s.db.tripped) ∧
        (s.db.scDead = false →
          (t.flag R.HUB_INTEGRITY F.HUB_INTEGRITY.ROC = true ↔ s.flag R.HUB_INTEGRITY F.HUB_INTEGRITY.ROC = true ∨ 800 < c.toInt ∨ c.toInt < s.gradeLow) ∧
          (t.flag R.DB_TSTAT F.DB_TSTAT.TRIP = true ↔ s.flag R.DB_TSTAT F.DB_TSTAT.TRIP = true ∨ 8 * (s.ttrip : Int) ≤ c.toInt) ∧
          (t.db.tripped = true ↔ s.db.tripped = true ∨ 8 * (s.ttrip : Int) ≤ c.toInt) ∧
          (warn → t.flag R.DB_TSTAT F.DB_TSTAT.WARN = true) ∧
          (¬ warn → (t.flag R.DB_TSTAT F.DB_TSTAT.WARN = true ↔ s.flag R.DB_TSTAT F.DB_TSTAT.WARN = true ∧
            ¬ ∀ k, k < 19 → if k = i.val then 99 ≤ SMap.get 0 s.db.okT k else SMap.get 0 s.db.okT k = 100)))) ∧
    ((s.db.tripped = true ∧ s.db.scDead = false ∨ ∃ i, i < 19 ∧ 1000 ≤ s.temp i) →
      exec .thermalTripReset s = .next (s.deviceReset 6 none)) ∧
    (s.db.tripped = false → (∀ i, i < 19 → s.temp i < 1000) → exec .thermalTripReset s = .next s) ∧
    (s.db.scDead = true → (∀ i, i < 19 → s.temp i < 1000) → exec .thermalTripReset s = .next s) ∧
    (s.flag wdt F.DB_WDT.SUSP = true → exec .deadboltWatchdogExpiry s = .next s) ∧
    (s.flag wdt F.DB_WDT.SUSP = false → s.db.grace = true → exec .deadboltWatchdogExpiry s = .next (s.deviceReset 3 none)) ∧
    (s.flag wdt F.DB_WDT.SUSP = false → s.db.grace = false → ∃ t, exec .deadboltWatchdogExpiry s = .next t ∧
      t = { s with regs := t.regs, db := { s.db with count := s.wdgrace, grace := true } } ∧ RegsBut s t [wdt] ∧ t.flag wdt F.DB_WDT.EXP = true) ∧
    (∀ v : BitVec 32, s.power = .on → s.db.scDead = false →
      ((s.db.beat = none ∨ ∃ b, s.db.beat = some b ∧ v.toNat = (b + 1) % 2 ^ 32) →
        ∃ t, exec (.heartbeat v) s = .next t ∧ RegsBut s t [R.HUB_DBBEAT, wdt] ∧ t.flag wdt F.DB_WDT.EXP = false ∧
          t = { s with regs := t.regs, db := { s.db with beat := some v.toNat, count := s.wdper, grace := false } }) ∧
      (∀ b, s.db.beat = some b → v.toNat ≠ (b + 1) % 2 ^ 32 →
        ∃ t, exec (.heartbeat v) s = .next t ∧ RegsBut s t [R.HUB_DBBEAT, wdt] ∧ t = { s with regs := t.regs } ∧
          t.fld wdt F.DB_WDT.BADBEAT = min (s.fld wdt F.DB_WDT.BADBEAT + 1) 65535 ∧ t.flag wdt F.DB_WDT.EXP = s.flag wdt F.DB_WDT.EXP)) ∧
    (∀ v : BitVec 32, s.power = .on → s.db.scDead = true → exec (.heartbeat v) s = .next (s.setReg R.HUB_DBBEAT v)) ∧
    (s.power = .on → s.fld R.CFG_BSTAT F.CFG_BSTAT.STATE = 5 →
      let a : State := { s with db := { s.db with sinceDone := s.db.sinceDone + 1 } }
      (s.db.scDead = true ∨ s.wdstart ≤ s.db.sinceDone + 1 → exec .scWatchdogReload s = .next a) ∧
      (s.db.scDead = false → s.db.sinceDone + 1 < s.wdstart → exec .scWatchdogReload s =
        .next (({ a with db := { a.db with count := s.wdper, grace := false } } : State).setFld wdt F.DB_WDT.EXP 0))) ∧
    (s.db.scDead = false → s.fld R.CFG_BSTAT F.CFG_BSTAT.STATE ≠ 5 → ∃ t, exec .scWatchdogReload s = .next t ∧ RegsBut s t [wdt] ∧
      t = { s with regs := t.regs, db := { s.db with count := s.wdper, grace := false } } ∧ t.flag wdt F.DB_WDT.EXP = false) ∧
    (s.db.scDead = true → s.fld R.CFG_BSTAT F.CFG_BSTAT.STATE ≠ 5 → exec .scWatchdogReload s = .next s) ∧
    (∃ t, exec .lockstepDisagreement s = .next t ∧ t = { s with regs := t.regs, db := { s.db with scDead := true } } ∧ RegsBut s t [R.DB_STAT] ∧
      t.flag R.DB_STAT F.DB_STAT.LSERR = true) ∧
    (s.flag wdt F.DB_WDT.SUSP = false → exec .watchdogSuspensionEnd s = .next s) ∧
    (s.flag wdt F.DB_WDT.SUSP = true → s.db.scDead = false → ∃ t, exec .watchdogSuspensionEnd s = .next t ∧ RegsBut s t [wdt, R.DB_LOG] ∧
      t.flag wdt F.DB_WDT.SUSP = false ∧ t.fld R.DB_LOG F.DB_LOG.LASTMS = min 65535 ((s.tbu.run / nsUnit - s.kpr.suspAt) / 1000000000) ∧
      t = { s with regs := t.regs, db := { s.db with count := s.wdper, grace := false }, kpr := { s.kpr with susp := false } }) ∧
    (s.flag wdt F.DB_WDT.SUSP = true → s.db.scDead = true → ∃ t, exec .watchdogSuspensionEnd s = .next t ∧ RegsBut s t [wdt] ∧
      t.flag wdt F.DB_WDT.SUSP = false ∧ t = { s with regs := t.regs, kpr := { s.kpr with susp := false } })

/-- R385–R387. The filter passes a level held for FTICKS ticks and no other; an edge passed shows in PIN_GPIN, sets the pin's PIN_ISTAT bit where
IMODE names it, stamps the timestamp channel the pin supplies (once, until VALID is cleared), and counts at the fan it supplies; in HOLD the bell
pins' filters run on (R332). R388, R389, R394. A write of PIN_GPOUT or PIN_GPOE takes its 16 bits; at the handover each pin that was held is
released, its filter restarted at the present input, and the start-up order, if it waits for that, goes on; before OUTPUTS and without power the
latches hold; a held pin that is the lowest to name an input supplies nothing to it (R384); the M pin of an LVDS_OUT pair carries what its P pin
sends, inverted; a fabric output pin pops a word and sends it or, with nothing to pop, sends nothing, and a fabric input pin pushes its word, which
a full queue decides at the end of the cycle, or sets its FPIN_ERR bit where the queue is full or unbound; a push that is outranked counts in
REFUSED. -/
def Obligations.PinsAndFabricPins : Prop :=
  (
  ∀ (s : State) (k : Fin 64) (raw : Bool) (ticks dt : Nat),
    let s1 := s.tbuEdges dt
    let c := s1.pinCfg k
    let mode := getF c F.PIN_CFG.IMODE
    let old := (s1.pin k).filt
    let l := raw != decide (getF c F.PIN_CFG.INV = 1)
    let b := k.val / 16
    let i := k.val % 16
    let feeds := fun (x : DomainSt) => x.pin = k.val ∧ x.fall = !l ∧ x.en = true ∧ x.pinMode = true ∧ s1.refPin x = true ∧
      x.period ≤ 2 * (s1.tbu.run - x.began)
    let only := fun (t : State) => t = { s1 with pins := t.pins } ∧ PinsBut s1 t k ∧ t.pin k = { s1.pin k with raw := raw }
    (s1.power = .off ∨ (s1.power = .hold ∧ ¬ (k.val < 4 ∧ getF c F.PIN_CFG.FTICKS ≤ ticks)) →
      ∃ t, exec (.pinInputEdge k raw ticks dt) s = .next t ∧ only t) ∧
    (s1.power = .hold → k.val < 4 → getF c F.PIN_CFG.FTICKS ≤ ticks → ∃ a u, only a ∧ exec (.pinInputEdge k raw ticks dt) s = .next u ∧
      exec (.bellWake (BitVec.ofNat 4 (2 ^ k.val)) (if l = true then 15 else 0)) a = .next u) ∧
    (s1.power = .on → ∃ t, exec (.pinInputEdge k raw ticks dt) s = .next t ∧
      t = { s1 with pins := t.pins, regs := t.regs, fans := t.fans, doms := t.doms } ∧
      PinsBut s1 t k ∧
      (∀ j, t.dom j = if j < 8 ∧ getF c F.PIN_CFG.FTICKS ≤ ticks ∧ l ≠ old ∧ feeds (s1.dom j) then
        { s1.dom j with frame := (s1.dom j).frame + 1, prevLen := s1.tbu.run - (s1.dom j).began, began := s1.tbu.run, lost := false }
        else s1.dom j) ∧
      RegsBut s1 t (pinRegs k) ∧ OtherBits (s1.reg (R.PIN_GPIN b)) (t.reg (R.PIN_GPIN b)) i ∧
      OtherBits (s1.reg (R.PIN_ISTAT b)) (t.reg (R.PIN_ISTAT b)) i ∧
      (ticks < getF c F.PIN_CFG.FTICKS → t.pin k = { s1.pin k with raw := raw } ∧ t.fans = s1.fans ∧ RegsBut s1 t [R.PIN_ISTAT b] ∧
        ((t.reg (R.PIN_ISTAT b)).getLsbD i = true ↔ (s1.reg (R.PIN_ISTAT b)).getLsbD i = true ∨ namesLevel mode old)) ∧
      (getF c F.PIN_CFG.FTICKS ≤ ticks → t.pin k = { s1.pin k with raw := raw, filt := l } ∧
        ((t.reg (R.PIN_ISTAT b)).getLsbD i = true ↔
          (s1.reg (R.PIN_ISTAT b)).getLsbD i = true ∨ namesLevel mode l ∨ (l ≠ old ∧ namesEdge mode l)) ∧
        (l = old → t.fans = s1.fans ∧ RegsBut s1 t [R.PIN_ISTAT b]) ∧
        (l ≠ old → (t.reg (R.PIN_GPIN b)).getLsbD i = l) ∧
        (l ≠ old → l = true → s1.suppliesInput 0xA k = true →
          (s1.flag (R.PIN_TSSTAT b) F.PIN_TSSTAT.VALID = false → t.flag (R.PIN_TSSTAT b) F.PIN_TSSTAT.VALID = true ∧
            t.reg (R.PIN_TS_L b) = BitVec.ofNat 32 s1.nowNs ∧ t.reg (R.PIN_TS_H b) = BitVec.ofNat 32 (s1.nowNs / 2 ^ 32)) ∧
          (s1.flag (R.PIN_TSSTAT b) F.PIN_TSSTAT.VALID = true → t.flag (R.PIN_TSSTAT b) F.PIN_TSSTAT.OVR = true ∧
            t.reg (R.PIN_TS_L b) = s1.reg (R.PIN_TS_L b) ∧ t.reg (R.PIN_TS_H b) = s1.reg (R.PIN_TS_H b))) ∧
        (¬ (l = true ∧ s1.suppliesInput 0xA k = true) → RegsBut s1 t [R.PIN_GPIN b, R.PIN_ISTAT b]) ∧
        (l ≠ old → l = true → s1.suppliesInput 0xE k = true → SMap.get 0 t.fans (b % 2) = SMap.get 0 s1.fans (b % 2) + 1) ∧
        (¬ (l = true ∧ s1.suppliesInput 0xE k = true) → t.fans = s1.fans)))
  ) ∧
  (
  (∀ (s : State) (b : Fin 4) (oe : Bool) (v : BitVec 32),
    let r := if oe then R.PIN_GPOE b else R.PIN_GPOUT b
    ∃ t, exec (.pinGpoutWrite b oe v) s = .next t ∧ t = { s with regs := t.regs } ∧ RegsBut s t [r] ∧ bitsOf (t.reg r).toNat 15 0 = v.toNat % 65536) ∧
  (∀ (s : State) (b : Fin 8), (s.power ≠ .on ∨ (b.val < 4 ∧ s.outputs = false) ∨ (4 ≤ b.val ∧ (SMap.get {} s.dies (b.val - 4)).outputs = false)) →
    exec (.pinHandover b) s = .next s.orderOn) ∧
  (∀ (s : State) (b : Fin 8), s.power = .on → b.val < 4 → s.outputs = true →
    ∃ t : State, exec (.pinHandover b) s = .next t.orderOn ∧ t = { s with pins := t.pins, regs := t.regs } ∧
      RegsBut s t [R.PIN_GPIN b, R.PIN_ISTAT b, R.PIN_STAT] ∧
      ∀ k : Nat, (k / 16 = b.val → (s.pin k).hold = true →
          t.pin k = { raw := (s.pin k).raw, filt := (s.pin k).raw != decide (getF (s.pinLive k) F.PIN_CFG.INV = 1) }) ∧
        ((k / 16 ≠ b.val ∨ (s.pin k).hold = false) → t.pin k = s.pin k)) ∧
  (∀ (s : State) (b : Fin 8), s.power = .on → 4 ≤ b.val → (SMap.get {} s.dies (b.val - 4)).outputs = true →
    ∃ t : State, exec (.pinHandover b) s = .next t.orderOn ∧ t = { s with fpins := t.fpins } ∧
      ∀ n, n < 48 → (t.fpin (b.val - 4) n).hold = false ∧ (t.fpin (b.val - 4) n).last = (s.fpin (b.val - 4) n).last) ∧
  (∀ s : State, s.cfg.up = false → s.orderOn = s) ∧
  (∀ (s : State) (f i k : Nat), (s.suppliers f i).head? = some k → s.supplier f i = if (s.pin k).hold = true then none else some k) ∧
  (∀ (s : State) (d n : Nat), n % 2 = 1 → s.fpinMode d (n - 1) = 4 → (s.fpin d n).hold = false → (SMap.get {} s.dies d).outputs = true →
    s.fpad d n = (true, !(s.fpin d (n - 1)).last)) ∧
  (∀ (s : State) (d : Fin 4) (n : Fin 48) (dt : Nat),
    let pane := fpinPane d n
    let s1 := s.advance pane dt
    let m := s1.fpinMode d n
    let b := s1.fpinBinding d n
    (s1.fpinRuns d n = false →
      exec (.fpinWordOut d n dt) s = .next s1 ∧ ∀ w : BitVec 40, exec (.fpinWordIn d n w dt) s = .next s1) ∧
    (s1.fpinRuns d n = true →
    ((m = 1 ∨ m = 2 ∨ m = 4) → s1.served pane b false (.fpin n) = true →
      let r := s1.popBound pane b.2.1 b.2.2
      let w := s1.fpinWire d n r.1.1
      (r.1.2.2 = true → ∃ t, exec (.fpinWordOut d n dt) s = .next t ∧ t = { r.2 with fpins := t.fpins, out := .fpinWord d n w :: r.2.out } ∧
        (t.fpin d n).last = w.getLsbD 0 ∧ ∀ q, q < 64 → q ≠ n.val → t.fpin d q = r.2.fpin d q) ∧
      (r.1.2.2 = false → exec (.fpinWordOut d n dt) s = .next r.2)) ∧
    ((m = 1 ∨ m = 2 ∨ m = 4) → s1.served pane b false (.fpin n) = false → exec (.fpinWordOut d n dt) s = .next s1) ∧
    ((m = 3 ∨ m = 5) → ∀ w : BitVec 40, s1.served pane b true (.fpin n) = true → s1.pushWaits pane b.2.1 b.2.2 = true →
      exec (.fpinWordIn d n w dt) s = .next (s1.setPane pane { s1.pane pane with
        late := (s1.pane pane).late ++ [.pin b.2.1 b.2.2 n (s1.fpinWire d n w)] })) ∧
    ((m = 3 ∨ m = 5) → ∀ w : BitVec 40, s1.served pane b true (.fpin n) = true → s1.pushWaits pane b.2.1 b.2.2 = false →
      let r := s1.pushBound pane b.2.1 b.2.2 (s1.fpinWire d n w) false
      (r.1 = true → exec (.fpinWordIn d n w dt) s = .next r.2) ∧
      (r.1 = false → exec (.fpinWordIn d n w dt) s = .next (r.2.fpinErr d n))) ∧
    ((m = 3 ∨ m = 5) → ∀ w : BitVec 40, s1.served pane b true (.fpin n) = false →
      let a := if s1.bound pane b.1 b.2.1 b.2.2 = true ∧ s1.queueMode pane b.2.1 = true then s1.refuse pane b.2.1 b.2.2 1 else s1
      exec (.fpinWordIn d n w dt) s = .next (a.fpinErr d n)) ∧
    (let r := if n.val < 32 then R.FPIN_ERR_L d else R.FPIN_ERR_H d
     s1.fpinErr d n = { s1 with regs := (s1.fpinErr d n).regs } ∧ RegsBut s1 (s1.fpinErr d n) [r] ∧
       (s1.fpinErr d n).reg r = s1.reg r ||| BitVec.ofNat 32 (2 ^ (n.val % 32)))))
  )

/-- R391, R392, Table 16.4. The UARTs' FIFOs take, lose, give and send octets in order; an I2C OP runs from GO to its end and says how it ended;
an SPI exchange runs from GO, with CS_N low until it ends unless HOLDCS; a fan's COUNT takes the edges of its second. -/
def Obligations.SerialControllersAndFans : Prop :=
  (∀ (s : State) (u : Fin 4) (v : BitVec 32), s.uartOwned u = true → exec (.uartTxWrite u v) s = .next s ∧ exec (.uartPop u) s = .next s) ∧
  (∀ (s : State) (u : Fin 4) (v : BitVec 32) (o : BitVec 8), s.uartOwned u = false →
    let x := s.uart u
    let only := fun (t : State) => t = { s with uarts := t.uarts, regs := t.regs } ∧ RegsBut s t [R.UART_STAT u, R.UART_RX u] ∧
      ∀ w, w ≠ u.val → t.uart w = s.uart w
    (x.tx.length < 16 → ∃ t, exec (.uartTxWrite u v) s = .next t ∧ only t ∧ t.uart u = { x with tx := x.tx ++ [v.setWidth 8] } ∧
      t.fld (R.UART_STAT u) F.UART_STAT.TXFREE = 15 - x.tx.length) ∧
    (x.tx.length = 16 → exec (.uartTxWrite u v) s = .next s) ∧
    (∀ h rest, x.tx = h :: rest → x.tx.length ≤ 16 → s.flag (R.UART_CFG u) F.UART_CFG.EN = true →
      ∃ t, exec (.uartTxOctetSent u) s = .next t ∧ only { t with out := s.out } ∧ t.out = .uartTx u h :: s.out ∧
        t.uart u = { x with tx := rest } ∧ t.fld (R.UART_STAT u) F.UART_STAT.TXFREE = 16 - rest.length) ∧
    (∀ perr ferr, s.supplier 2 u = none → exec (.uartRxOctet u o perr ferr) s = .next s) ∧
    (∀ perr ferr, s.flag (R.UART_CFG u) F.UART_CFG.EN = true → s.supplier 2 u ≠ none →
      let par := s.fld (R.UART_CFG u) F.UART_CFG.PAR
      let e : UartRx := { octet := o, perr := perr && decide (par = 1 ∨ par = 2), ferr := ferr }
      (x.rx.length < 16 → ∃ t, exec (.uartRxOctet u o perr ferr) s = .next t ∧ only t ∧ t.uart u = { x with rx := x.rx ++ [e] } ∧
        t.fld (R.UART_STAT u) F.UART_STAT.RXCNT = x.rx.length + 1) ∧
      (x.rx.length = 16 → ∃ t, exec (.uartRxOctet u o perr ferr) s = .next t ∧ t = { s with regs := t.regs } ∧ RegsBut s t [R.UART_STAT u] ∧
        t.flag (R.UART_STAT u) F.UART_STAT.OVR = true)) ∧
    (x.rx.length ≤ 16 → ∃ t, exec (.uartPop u) s = .next t ∧ only t ∧ t.uart u = { x with rx := x.rx.tail } ∧
      t.flag (R.UART_RX u) F.UART_RX.VALID = !x.rx.tail.isEmpty)) ∧
  (∀ (s : State) (i : Fin 2) (data : BitVec 8), s.flag (R.I2C_STAT i) F.I2C_STAT.BUSY = false → s.flag (R.I2C_CFG i) F.I2C_CFG.EN = true →
    ∀ e ∈ ([(.i2cStart i, 1, 0), (.i2cWriteData i data, 2, data), (.i2cReadWithAck i, 3, 0), (.i2cReadWithNack i, 4, 0), (.i2cStop i, 5, 0)] :
        List (Instr × Nat × BitVec 8)),
      ∃ t, exec e.1 s = .next t ∧ t = { s with regs := t.regs, i2cs := t.i2cs, out := .i2c i e.2.1 e.2.2 :: s.out } ∧
        RegsBut s t [R.I2C_CMD i, R.I2C_STAT i] ∧ t.flag (R.I2C_STAT i) F.I2C_STAT.BUSY = true ∧ SMap.get 0 t.i2cs i = e.2.1) ∧
  (∀ (s : State) (i : Fin 2) (rdata : BitVec 8) (nack arbl : Bool), s.flag (R.I2C_STAT i) F.I2C_STAT.BUSY = true →
    let op := SMap.get 0 s.i2cs i
    let wired := s.supplier 4 i ≠ none
    ∃ t, exec (.i2cOpDone i rdata nack arbl) s = .next t ∧ t = { s with regs := t.regs, i2cs := t.i2cs } ∧ RegsBut s t [R.I2C_STAT i] ∧
      t.flag (R.I2C_STAT i) F.I2C_STAT.BUSY = false ∧ t.flag (R.I2C_STAT i) F.I2C_STAT.DONE = true ∧
      (t.flag (R.I2C_STAT i) F.I2C_STAT.NACK = true ↔ s.flag (R.I2C_STAT i) F.I2C_STAT.NACK = true ∨ op = 2 ∧ (nack = true ∨ ¬ wired)) ∧
      (t.flag (R.I2C_STAT i) F.I2C_STAT.ARBL = true ↔ s.flag (R.I2C_STAT i) F.I2C_STAT.ARBL = true ∨ arbl = true) ∧
      ((op = 3 ∨ op = 4) → arbl = false → ¬ wired → t.fld (R.I2C_STAT i) F.I2C_STAT.RDATA = 255) ∧
      ((op = 3 ∨ op = 4) → arbl = false → wired → t.fld (R.I2C_STAT i) F.I2C_STAT.RDATA = rdata.toNat) ∧
      ((op ≠ 3 ∧ op ≠ 4) → t.fld (R.I2C_STAT i) F.I2C_STAT.RDATA = s.fld (R.I2C_STAT i) F.I2C_STAT.RDATA)) ∧
  (∀ (s : State) (i : Fin 2) (v : BitVec 32) (rdata : BitVec 8),
    (s.flag (R.SPI_STAT i) F.SPI_STAT.BUSY = false → s.flag (R.SPI_CFG i) F.SPI_CFG.EN = true →
      ∃ t, exec (.spiXferGo i v) s = .next t ∧ t = { s with regs := t.regs, spis := t.spis, out := .spi i (v.setWidth 8) :: s.out } ∧
        RegsBut s t [R.SPI_XFER i, R.SPI_STAT i] ∧ t.flag (R.SPI_STAT i) F.SPI_STAT.BUSY = true ∧ SMap.get false t.spis i = true ∧
        t.flag (R.SPI_XFER i) F.SPI_XFER.HOLDCS = v.getLsbD 8) ∧
    (s.flag (R.SPI_STAT i) F.SPI_STAT.BUSY = true →
      ∃ t, exec (.spiXferDone i rdata) s = .next t ∧ t = { s with regs := t.regs, spis := t.spis } ∧ RegsBut s t [R.SPI_STAT i] ∧
        t.flag (R.SPI_STAT i) F.SPI_STAT.BUSY = false ∧ t.flag (R.SPI_STAT i) F.SPI_STAT.DONE = true ∧
        (s.supplier 7 i = none → t.fld (R.SPI_STAT i) F.SPI_STAT.RDATA = 0) ∧
        (s.supplier 7 i ≠ none → t.fld (R.SPI_STAT i) F.SPI_STAT.RDATA = rdata.toNat) ∧
        SMap.get false t.spis i = (SMap.get false s.spis i && s.flag (R.SPI_XFER i) F.SPI_XFER.HOLDCS))) ∧
  (∀ (s : State) (f : Fin 2), SMap.get 0 s.fans f < 65536 →
    ∃ t, exec (.fanCountUpdate f) s = .next t ∧ t = { s with regs := t.regs, fans := t.fans } ∧ RegsBut s t [R.FAN_STAT f] ∧
      t.fld (R.FAN_STAT f) F.FAN_STAT.COUNT = SMap.get 0 s.fans f ∧ SMap.get 0 t.fans f = 0)

/-- R396–R399. The event controller follows a source's condition and its class; a group that turns active sends its vector, and so does the NMI;
routing by EVT_SRC takes effect at once; a write of a group's EVT_GACK bit sends again while the group is active; EVT_SWSET and EVT_SWCLR
set and clear the software sources, which follow. A signalled vector's message leaves, or waits while the vector is masked until it is unmasked
(the masking and the table's layout are the PCI Express standard's, PRESUMED in log entry 155). -/
def Obligations.EventsFollowTheirSources : Prop :=
  ∀ (s : State),
    let nmiVec := fun (t : State) => if t.nmiActive = true ∧ s.nmiActive = false ∧ s.flag R.EVT_NMI F.EVT_NMI.MSIX = true
      then [s.fld R.EVT_NMI F.EVT_NMI.NMIVEC] else []
    let vec := fun (g : Nat) (on : Prop) [Decidable on] => if on ∧ s.flag (R.EVT_GCFG g) F.EVT_GCFG.MSIX = true
      then [s.fld (R.EVT_GCFG g) F.EVT_GCFG.VEC] else []
    (∀ n : Fin 1704, (n.val < 1692 ∨ 1696 ≤ n.val) →
      ∃ t, exec (.eventSourceChange n) s = .next t ∧ Followed s t n ∧
        (let g := s.fld (R.EVT_SRC n) F.EVT_SRC.GROUP
         Signalled s t 0 (vec g (t.groupActive g = true ∧ s.groupActive g = false) ++ nmiVec t))) ∧
    (∀ n : Fin 1704, 1692 ≤ n.val → n.val < 1696 → s.sourceUp n = true → s.raised n = false →
      ∃ t, exec (.eventSourceChange n) s = .next t ∧ Followed s t n ∧
        (let x := s.msixOf 1
         (x.on = true → x.masked (n.val - 1692) = false → t.out.head? = some (.msix1 (n.val - 1692)) ∧ t.msixOf 1 = x) ∧
         (x.on = true → x.masked (n.val - 1692) = true → SMap.get false (t.msixOf 1).pend (n.val - 1692) = true))) ∧
    (∀ (n : Fin 1704) (v : BitVec 32),
      let g := getF v F.EVT_SRC.GROUP
      ∃ t, exec (.evtSrcWrite n v) s = .next t ∧ t = { s with regs := t.regs, out := t.out, msixs := t.msixs } ∧ RegsBut s t [R.EVT_SRC n] ∧
        t.fld (R.EVT_SRC n) F.EVT_SRC.GROUP = g ∧ t.flag (R.EVT_SRC n) F.EVT_SRC.EN = v.getLsbD 31 ∧
        t.flag (R.EVT_SRC n) F.EVT_SRC.UE = s.flag (R.EVT_SRC n) F.EVT_SRC.UE ∧
        Signalled s t 0 (vec g (s.raised n = true ∧ v.getLsbD 31 = true ∧ s.groupActive g = false))) ∧
    (∀ (hi : Bool) (j : Nat), j < 32 →
      let g := (if hi then 32 else 0) + j
      ∃ t, exec (.evtGackWrite hi (BitVec.ofNat 32 (2 ^ j))) s = .next t ∧ t = { s with out := t.out, msixs := t.msixs } ∧
        Signalled s t 0 (vec g (s.groupActive g = true))) ∧
    (∀ (fn : Fin 2) (v : Nat) (b : BitVec 64), v < msixVectors fn → s.power = .on → (s.msixOf fn).on = true → (s.msixOf fn).fmask = false →
      (s.msixOf fn).masked v = true → (s.msixOf fn).pend = [(v, true)] → b.getLsbD 0 = false →
      ∃ t, exec (.registerWrite (if fn = 0 then 7 else 8) (BitVec.ofNat 26 (16 * v + 12)) 4 b) s = .next t ∧ t.out = msixEv fn v :: s.out ∧
        (t.msixOf fn).pend = [] ∧ (t.msixOf fn).masked v = false ∧ t = { s with out := t.out, msixs := t.msixs }) ∧
    (∀ (v : BitVec 32) (set : Bool),
      ∃ t, exec (if set then .evtSwsetWrite v else .evtSwclrWrite v) s = .next t ∧ t = { s with regs := t.regs, out := t.out, msixs := t.msixs } ∧
        t.reg R.EVT_SWSET = (if set then s.reg R.EVT_SWSET ||| (v &&& 0xFF) else s.reg R.EVT_SWSET &&& ~~~(v &&& 0xFF)) ∧
        RegsBut s t (R.EVT_SWSET :: R.EVT_RAISED 53 :: (List.range 8).map fun i => R.EVT_SRC (1696 + i)) ∧
        ∀ i, i < 8 → t.raised (1696 + i) = (t.reg R.EVT_SWSET).getLsbD i)

/-- R400–R404. Before step 4 of the reset order ends, and in HOLD, the Keeper does nothing. The mailbox takes and gives words in order and ignores a
write when full; a message too long for it is discarded by its header and the rest of it passed over; a gap within a message discards it. With UEN
UART 3 takes the settings of Table 17.1, and its channel takes a message after 0x4B, 0x50; a KPR packet to this device gives its message; a reply
carries TYPE + 0x80, SEQ, its length, STATUS and its words, and a trailer, on UART 3 behind 0x4B, 0x50, and on the chain in a KPR packet. -/
def Obligations.KeeperChannels : Prop :=
  (∀ (s : State) (c : Fin 3), s.kprRuns = false →
    (∀ cmd, cmd ∈ ([.ident, .hello, .ownk, .cred, .prove, .keeperRd, .keeperWr, .keeperTrd, .keeperTwr, .halt, .resume, .step, .tstat, .rreg, .wreg,
      .wdsusp, .wdres, .dbclr, .bye] : List (Fin 3 → Instr)) → exec (cmd c) s = .next s) ∧ exec .mailboxGapTimeout s = .next s) ∧
  (∀ (s : State) (v : BitVec 32),
    (s.power ≠ .on → exec (.kprTxdWrite v) s = .next s ∧ exec (.kprRxpopWrite v) s = .next s) ∧
    (s.power = .on → s.kpr.skip ≠ 0 → exec (.kprTxdWrite v) s = .next { s with kpr := { s.kpr with skip := s.kpr.skip - 1 } }) ∧
    (s.power = .on → s.kpr.skip = 0 → 64 ≤ (s.kprIn 0).length → ∃ t, exec (.kprTxdWrite v) s = .next t ∧ t = { s with regs := t.regs } ∧
      RegsBut s t [R.KPR_VTSTAT] ∧ t.flag R.KPR_VTSTAT F.KPR_VTSTAT.TXOVR = true) ∧
    (s.power = .on → s.kpr.skip = 0 → (s.kprIn 0).length < 64 →
      let n := 1 + msgLen ((s.kprIn 0 ++ [v]).headD 0) + s.trailLen 0
      ((s.kprIn 0).length + 1 < n → (s.kprRuns = false ∨ n ≤ 64) → ∃ t, exec (.kprTxdWrite v) s = .next t ∧ t.kprIn 0 = s.kprIn 0 ++ [v] ∧
        t = { s with regs := t.regs, kpr := t.kpr } ∧ RegsBut s t [R.KPR_VTSTAT, R.KPR_RXD] ∧
        t.fld R.KPR_VTSTAT F.KPR_VTSTAT.TXFREE = 63 - (s.kprIn 0).length) ∧
      (s.kprIn 0 = [] → s.kprRuns = true → 64 < n → ∃ t, exec (.kprTxdWrite v) s = .next t ∧ t.kprIn 0 = [] ∧ t.kpr.skip = n - 1 ∧
        t = { s with regs := t.regs, kpr := t.kpr } ∧ t.fld R.KPR_STAT F.KPR_STAT.BADMSG = min (s.fld R.KPR_STAT F.KPR_STAT.BADMSG + 1) 65535)) ∧
    (s.power = .on → v.getLsbD 0 = true →
      ∃ t, exec (.kprRxpopWrite v) s = .next t ∧ t = { s with regs := t.regs, kpr := t.kpr } ∧ RegsBut s t [R.KPR_VTSTAT, R.KPR_RXD] ∧
        t.kpr.outq ++ t.kpr.late = s.kpr.outq.tail ++ s.kpr.late ∧ t.reg R.KPR_RXD = (s.kpr.outq.tail ++ s.kpr.late).headD 0)) ∧
  (∀ s : State, s.kprRuns = true → s.kpr.skip = 0 → s.kprIn 0 ≠ [] → s.kprFront 0 = none →
    ∃ t, exec .mailboxGapTimeout s = .next t ∧ t.kprIn 0 = [] ∧ t = { s with regs := t.regs, kpr := t.kpr } ∧
      RegsBut s t [R.KPR_STAT, R.KPR_VTSTAT, R.KPR_RXD] ∧
      t.fld R.KPR_STAT F.KPR_STAT.BADMSG = min (s.fld R.KPR_STAT F.KPR_STAT.BADMSG + 1) 65535) ∧
  (∀ s : State, s.kprRuns = true → s.kpr.skip ≠ 0 → exec .mailboxGapTimeout s = .next { s with kpr := { s.kpr with skip := 0 } }) ∧
  (∀ s : State, s.kpr.skip = 0 → (s.kprIn 0 = [] ∨ (s.kprFront 0).isSome = true) → exec .mailboxGapTimeout s = .next s) ∧
  (∀ s : State, s.flag R.KPR_CFG F.KPR_CFG.UEN = true → let t := s.uenSet
    t = { s with regs := t.regs } ∧ RegsBut s t [R.UART_CFG 3] ∧ t.flag (R.UART_CFG 3) F.UART_CFG.EN = true ∧
      t.fld (R.UART_CFG 3) F.UART_CFG.DIV = 271 ∧ t.fld (R.UART_CFG 3) F.UART_CFG.PAR = 0 ∧ t.flag (R.UART_CFG 3) F.UART_CFG.STOP2 = false) ∧
  (∀ (s : State) (o : BitVec 8) (perr ferr : Bool), s.uartOwned 3 = true → s.supplier 2 3 ≠ none →
    (s.kprRuns = false → exec (.uartRxOctet 3 o perr ferr) s = .next s) ∧
    (s.kprRuns = true → s.kpr.sync = 0 → exec (.uartRxOctet 3 o perr ferr) s =
      .next (if o = 0x4B then { s with kpr := { s.kpr with sync := 1 } } else s)) ∧
    (s.kprRuns = true → s.kpr.sync = 1 → exec (.uartRxOctet 3 o perr ferr) s =
      .next { s with kpr := { s.kpr with sync := if o = 0x50 then 2 else if o = 0x4B then 1 else 0 } }) ∧
    (s.kprRuns = true → s.kpr.sync = 2 →
      let ws := hwOfOctets (s.kpr.uart ++ [o])
      let whole := (s.kpr.uart.length + 1) % 4 = 0 ∧ ws.length = 1 + msgLen (ws.headD 0) + s.trailLen 1
      (¬ whole → exec (.uartRxOctet 3 o perr ferr) s = .next { s with kpr := { s.kpr with uart := s.kpr.uart ++ [o] } }) ∧
      (whole → exec (.uartRxOctet 3 o perr ferr) s =
        .next (({ s with kpr := { s.kpr with sync := 0, uart := [] } } : State).kprArrive 1 ws)))) ∧
  (∀ (s : State) (pk : ChainPkt) (down : Bool), s.chainRuns = true → chainOk pk = true → pk.typ = 6 → s.chainMine pk = true → s.chanOpen 2 = true →
    pk.payload.length % 4 = 0 →
    let ws := hwOfOctets pk.payload
    let s1 := s.chainPass down pk
    ws ≠ [] → ws.length = 1 + msgLen (ws.headD 0) + s.trailLen 2 →
    exec (.kpr pk down) s =
      .next (({ s1 with kpr := { s1.kpr with srcs := s1.kpr.srcs ++ [(pk.src.toNat % 16, down)] } } : State).kprArrive 2 ws)) ∧
  (∀ (s : State) (r : KReq) (st : Nat) (ws : List HWord), r.chan < 3 →
    let p := BitVec.ofNat 32 st :: ws
    let m := BitVec.ofNat 32 ((r.typ + 0x80) * 2 ^ 24 + r.seq * 2 ^ 16 + p.length) :: p
    let all := m ++ s.trailer r.chan true m
    let t := s.kprReply r st ws
    t.kpr.ctrOut = s.kpr.ctrOut + (if s.inSession r.chan = true then 1 else 0) ∧
      (r.chan = 0 → t.kpr.outq ++ t.kpr.late = s.kpr.outq ++ s.kpr.late ++ all ∧ t.out = s.out) ∧
      (r.chan = 1 → t.out = .keeperUart (0x4B :: 0x50 :: octetsOf all) :: s.out) ∧
      (r.chan = 2 → t.out = .chainTx (!r.down) (chainPk 6 r.dst s.chnAddr 0 (octetsOf all)) :: s.out))

/-- R405, R406. A session's opening, step by step, with its conditions; AUTH abandons it; the reply to PROVE opens the session at the credential's
level under a fresh key; the time limits end an opening and a session, whose halted targets resume, a deferred halt of which is answered (log entry
174), and whose requests that wait for the transom keep their replies; what waits on its channel is then looked at anew. -/
def Obligations.KeeperOpening : Prop :=
  ∀ (s : State) (c : Fin 3) (m : List HWord),
    let s1 := s.kprDrop c m
    let r := s1.kreq c m
    let ws := payloadOf m
    (Asked s c 0x01 m → s.inSession c = false →
      exec (.ident c) s = .next (s1.kprReply r 0 (s1.reg R.CFG_IDCODE :: Config.ecPublic s1.devKey))) ∧
    (Asked s c 0x02 m → s.kprState ≠ 0 → s.kprChan ≠ c → exec (.hello c) s = .next (s1.kprReply r 1 [])) ∧
    (Asked s c 0x02 m → s.kprState = 0 →
      ∃ (priv : Nat) (nonce : List HWord) (a : State),
        let chal := Config.ecPublic priv ++ nonce ++
          Config.ecdsaSign s1.devKey (Config.sha384 (octetsOf (ws ++ Config.ecPublic priv ++ nonce)))
        exec (.hello c) s = .next (a.kprReply r 0 chal) ∧ nonce.length = 12 ∧ a = { s1 with regs := a.regs, kpr := a.kpr, fresh := a.fresh } ∧
        RegsBut s1 a [R.KPR_STAT] ∧ OpeningAt a c 1 ∧ a.kpr = { s1.kpr with steps := 1, hello := ws, chal := chal, priv := priv }) ∧
    (Asked s c 0x03 m → OpeningAt s c 1 →
      exec (.ownk c) s = .next (if s1.dkhOk ws = true
        then { s1.kprReply r 0 [] with kpr := { (s1.kprReply r 0 []).kpr with steps := 2, ownk := ws } }
        else s1.kprClosed.kprReply r 7 [])) ∧
    (Asked s c 0x04 m → OpeningAt s c 2 →
      exec (.cred c) s = .next (if s1.credOk s.kpr.ownk ws = true
        then { s1.kprReply r 0 [] with kpr := { (s1.kprReply r 0 []).kpr with steps := 3, cred := ws } }
        else s1.kprClosed.kprReply r 7 [])) ∧
    (Asked s c 0x05 m → OpeningAt s c 3 →
      ∃ t, exec (.prove c) s = .next (if s.kpr.proveOk ws = true then t else s1.kprClosed.kprReply r 7 []) ∧
        t = { s1.kprReply r 0 [] with regs := t.regs, kpr := t.kpr } ∧ RegsBut (s1.kprReply r 0 []) t [R.KPR_STAT] ∧
        t.kprState = 2 ∧ t.kprChan = c ∧ t.fld R.KPR_STAT F.KPR_STAT.LEVEL = credLevel s.kpr.cred ∧ t.flag R.KPR_STAT F.KPR_STAT.SCHG = true ∧
        t.kpr.ctrIn = 0 ∧ t.kpr.ctrOut = 0 ∧ t.kpr.halted = [] ∧ t.kpr.key = Config.sha384 (Config.ecdhX s.kpr.priv (s.kpr.hello.take 24) ++
          octetsOf (s.kpr.hello.drop 24) ++ octetsOf ((s.kpr.chal.drop 24).take 12)) / 2 ^ 128) ∧
    (s.kprState = 1 → ∃ t, exec .openingTimeout s = .next t ∧ t = { s with regs := t.regs, kpr := t.kpr } ∧ RegsBut s t [R.KPR_STAT] ∧
      t.kprState = 0 ∧ t.kpr.steps = 0) ∧
    (s.kprState ≠ 1 → exec .openingTimeout s = .next s) ∧
    (s.kprState = 2 → ∃ t : State, exec .sessionIdleTimeout s = .next (t.kprLook s.kprChan) ∧ t.kprState = 0 ∧ t.fld R.KPR_STAT F.KPR_STAT.LEVEL = 0 ∧
      t.flag R.KPR_STAT F.KPR_STAT.SCHG = true ∧ t.kpr.halted = [] ∧ t.kpr.trans = s.kpr.trans ∧
      (∀ q, s.kpr.due = some q → q.chan = 1 → ∃ os, t.out = .keeperUart os :: s.out) ∧
      (∀ g, g < 512 → 0x100 + g ∈ s.kpr.halted → (s.eng g).state = .halt → (t.eng g).state = .run ∧ (t.eng g).pc = (s.eng g).pc) ∧
      ((∀ x ∈ s.kpr.halted, 0x100 ≤ x) → ∀ g, g < 512 → 0x100 + g ∉ s.kpr.halted → t.eng g = s.eng g)) ∧
    (s.kprState ≠ 2 → exec .sessionIdleTimeout s = .next s)

/-- R407–R415, R422. Each request of a session above the session's level receives LEVEL and without a session NOSESSION, with no effect; HALT, STEP,
RESUME, TSTAT, RREG, WREG, RD, WR, TRD, TWR, WDSUSP, WDRES, DBCLR and BYE have their effect and reply; MC0's deferred halt; the core
watchdogs. The words of a TWR that port B still has to read are read as its engine halts (the model's choice, log entry 21); an access to a die whose
path is away waits (DESIGN CHOICE, log entry 32). -/
def Obligations.KeeperRequests : Prop :=
  ∀ (s : State) (c : Fin 3) (m : List HWord),
    let s1 := s.kprDrop c m
    let r := s1.kreq c m
    let ws := payloadOf m
    let w0 := pay ws 0
    let w1 := pay ws 1
    (∀ cmd t level, SessionRequest cmd t level → Asked s c t m → s.inSession c = false → exec (cmd c) s = .next (s1.kprReply r 8 [])) ∧
    (∀ cmd t level, SessionRequest cmd t level → Asked s c t m → s.inSession c = true → s.fld R.KPR_STAT F.KPR_STAT.LEVEL < level →
      exec (cmd c) s = .next (s1.kprReply r 2 [])) ∧
    (∀ g : Nat, g < 512 → w0 = BitVec.ofNat 32 (0x100 + g) →
      let x := s.eng g
      let sa := s1.wdogSettle g
      let y := sa.eng g
      (x.state ≠ .run ∨ x.wdogDue = false → sa = s1) ∧
      (Asked s c 0x20 m → SessionAt s c 2 → y.state = .run →
        let s2 := ((sa.setEng g { y with state := .halt }).settlePortB g).noteHalted (0x100 + g)
        exec (.halt c) s = .next (s2.kprReply r 0 [s2.engStatusView g]) ∧
          ((∀ b ∈ y.twr, 1 ≤ b.left ∧ b.due = false) → (∀ a, (sa.dmWord g a).bad ≠ 2) → s2.eng g = { y with state := .halt, twr := [] }) ∧
          0x100 + g ∈ s2.kpr.halted ∧ s2.fld R.KPR_STAT F.KPR_STAT.NHALT = min 255 s2.kpr.halted.length) ∧
      (Asked s c 0x20 m → SessionAt s c 2 → y.state ≠ .run → exec (.halt c) s = .next (sa.kprReply r 4 [])) ∧
      (Asked s c 0x21 m → SessionAt s c 2 → x.state = .halt →
        let s2 := s1.resumeTarget (0x100 + g)
        exec (.resume c) s = .next (s2.kprReply r 0 [s2.engStatusView g]) ∧ (s2.eng g).state = .run ∧ (s2.eng g).pc = x.pc ∧
          0x100 + g ∉ s2.kpr.halted) ∧
      (Asked s c 0x21 m → SessionAt s c 2 → x.state ≠ .halt → exec (.resume c) s = .next (s1.kprReply r 4 [])) ∧
      (Asked s c 0x22 m → SessionAt s c 2 → x.state = .halt →
        let s2 := s1.engStep g
        exec (.step c) s = .next ((s2.kprReply r 0 [s2.engStatusView g]).kprSift c 256) ∧ (s2.eng g).state ≠ .run) ∧
      (Asked s c 0x22 m → SessionAt s c 2 → x.state ≠ .halt → exec (.step c) s = .next (s1.kprReply r 4 [])) ∧
      (Asked s c 0x23 m → SessionAt s c 1 → exec (.tstat c) s = .next (s1.kprReply r 0 [s1.engStatusView g])) ∧
      (Asked s c 0x24 m → SessionAt s c 1 → ∀ n, x.regAtCode w1.toNat = some n →
        (x.rests = true → exec (.rreg c) s = .next (s1.kprReply r 0 [BitVec.ofNat 32 n, BitVec.ofNat 32 (n / 2 ^ 32)])) ∧
        (x.rests = false → exec (.rreg c) s = .next (s1.kprReply r 4 []))) ∧
      (Asked s c 0x24 m → SessionAt s c 1 → x.regAtCode w1.toNat = none → exec (.rreg c) s = .next (s1.kprReply r 3 [])) ∧
      (Asked s c 0x25 m → SessionAt s c 2 → x.putCode w1.toNat ((pay ws 3).toNat * 2 ^ 32 + (pay ws 2).toNat) = none →
        exec (.wreg c) s = .next (s1.kprReply r 3 [])) ∧
      (Asked s c 0x25 m → SessionAt s c 2 → ∀ y, x.putCode w1.toNat ((pay ws 3).toNat * 2 ^ 32 + (pay ws 2).toNat) = some y →
        (x.rests = true → exec (.wreg c) s = .next ((s1.setEng g y).kprReply r 0 [])) ∧
        (x.rests = false → exec (.wreg c) s = .next (s1.kprReply r 4 [])))) ∧
    (w0 = 0x3F0 →
      (Asked s c 0x20 m → SessionAt s c 2 → s.core0.halted = false → s.core0.pend = false →
        (s.core0.locks = [] → ∃ s2 : State, exec (.halt c) s = .next (s2.kprReply r 0 [s2.reg R.KPR_HSTAT]) ∧
          s2 = { s1 with regs := s2.regs, kpr := s2.kpr, core0 := { s.core0 with halted := true } } ∧ s2.flag R.KPR_HSTAT F.KPR_HSTAT.HALTED = true) ∧
        (s.core0.locks ≠ [] → ∃ t, exec (.halt c) s = .next t ∧
          t = { s1 with regs := t.regs, kpr := { s1.kpr with due := some r }, core0 := { s.core0 with pend := true } } ∧
          t.flag R.KPR_HSTAT F.KPR_HSTAT.PEND = true)) ∧
      (Asked s c 0x22 m → SessionAt s c 2 → s.core0.halted = true → s.core0.pend = false →
        ∃ s2 : State, exec (.step c) s = .next (s2.kprReply r 0 [s2.reg R.KPR_HSTAT]) ∧ s2 = { s1 with fresh := s2.fresh, core0 := s2.core0 } ∧
          s2.core0.halted = true) ∧
      (s.core0.pend = true →
        (Asked s c 0x20 m → SessionAt s c 2 → exec (.halt c) s = .next (s1.kprReply r 1 [])) ∧
        (Asked s c 0x21 m → SessionAt s c 2 → exec (.resume c) s = .next (s1.kprReply r 1 [])) ∧
        (Asked s c 0x22 m → SessionAt s c 2 → exec (.step c) s = .next (s1.kprReply r 1 [])))) ∧
    (s.core0.pend = true → ∃ t, exec .mc0HaltDeferExpiry s = .next t ∧ t.core0 = { s.core0 with halted := true, pend := false } ∧
      t.flag R.KPR_HSTAT F.KPR_HSTAT.LOCK_HELD_AT_HALT = true ∧ t.flag R.KPR_HSTAT F.KPR_HSTAT.HALTED = true ∧ mc0Code ∈ t.kpr.halted) ∧
    (s.core0.pend = false → exec .mc0HaltDeferExpiry s = .next s) ∧
    (Asked s c 0x10 m → SessionAt s c 1 → w1.getLsbD 31 = false → w0.toNat < 2 ^ 26 → w0.toNat % 4 ≠ 0 → w1.toNat % 64 < 56 → s.heldAcc = [] →
      exec (.keeperRd c) s = .next (s1.kprReply r (5 + 256) [])) ∧
    (Asked s c 0x10 m → SessionAt s c 1 → w1.getLsbD 31 = false → w0.toNat % 4 = 0 → w1.toNat % 64 < 56 →
      w0.toNat + 4 * (w1.toNat % 64 + 1) ≤ 2 ^ 26 → s.heldAcc = [] →
      let n := w1.toNat % 64 + 1
      ((∃ i, i < n ∧ s.waitsAt (w0.toNat + 4 * i) = true) → exec (.keeperRd c) s = .next { s1 with heldAcc := [{
        asker := .keeper r 0, off := w0.toNat, write := none, n := n, quiet := true, since := s.tbu.run }] }) ∧
      ((∀ i, i < n → s.waitsAt (w0.toNat + 4 * i) = false) →
      let x := s1.readRun w0.toNat true (w1.toNat % 64 + 1)
      exec (.keeperRd c) s = .next ((x.2.kprReply r 0 x.1).kprSift c 256))) ∧
    (Asked s c 0x11 m → SessionAt s c 2 → w0.toNat % 4 = 0 → w0.toNat + 4 * (ws.length - 1) ≤ 2 ^ 26 → w0.toNat < 2 ^ 26 →
      s.heldAcc = [] → (∀ i, i < ws.length - 1 → s.waitsAt (w0.toNat + 4 * i) = false) →
      let acc : HeldAcc := { asker := .keeper r 0, src := 5, off := w0.toNat, since := s.tbu.run, write := some (ws.drop 1) }
      exec (.keeperWr c) s = .next ((s1.writeRun acc false w0.toNat (ws.drop 1)).kprSift c 256) ∧
      ∀ (a : State) (o : Nat) (v : HWord) (vs : List HWord), a.writeRun acc false o [] = a.kprReply r 0 [] ∧
        (a.waitsAt o = false → a.writeRun acc false o (v :: vs) = (a.busWrite 5 o v).writeRun acc false (o + 4) vs) ∧
        (a.waitsAt o = true → a.writeRun acc false o (v :: vs) =
          { a with heldAcc := a.heldAcc ++ [{ acc with off := o, write := some (v :: vs), since := a.tbu.run }] })) ∧
    (∀ g, s.kprTag = some g → kprCount ws ≤ 28 →
      (Asked s c 0x12 m → SessionAt s c 2 → (w1.getLsbD 31 = true ∨ queuePortAddr (kprAddr ws) = false) → exec (.keeperTrd c) s =
        .next ((s1.kprIssue r g { cmd := cRD, addr := BitVec.ofNat 40 (kprAddr ws), len := Fin.ofNat 65 (kprCount ws) }).kprSift c 256)) ∧
      (Asked s c 0x12 m → SessionAt s c 1 → w1.getLsbD 31 = false → queuePortAddr (kprAddr ws) = true →
        exec (.keeperTrd c) s = .next (s1.kprReply r 6 [])) ∧
      (Asked s c 0x13 m → SessionAt s c 2 → exec (.keeperTwr c) s =
        .next ((s1.kprIssue r g { cmd := cWR, addr := BitVec.ofNat 40 (kprAddr ws), len := Fin.ofNat 65 (kprCount ws),
                                  data := slotWords (octetsOf (ws.drop 2)) }).kprSift c 256))) ∧
    (Asked s c 0x30 m → SessionAt s c 3 → (w0 = 0 ∨ 3600 < w0.toNat) → exec (.wdsusp c) s = .next (s1.kprReply r 3 [])) ∧
    (Asked s c 0x30 m → SessionAt s c 3 → 1 ≤ w0.toNat → w0.toNat ≤ 3600 → s.db.scDead = true → exec (.wdsusp c) s = .next (s1.kprReply r 7 [])) ∧
    (Asked s c 0x30 m → SessionAt s c 3 → 1 ≤ w0.toNat → w0.toNat ≤ 3600 → s.db.scDead = false →
      s.flag R.DB_WDT F.DB_WDT.SUSP = false →
      ∃ a : State, exec (.wdsusp c) s = .next (if s.dkhOk s.kpr.ownk = true ∧ s.credOk s.kpr.ownk s.kpr.cred = true ∧
          s.kpr.proveOk s.kpr.sig = true ∧ credLevel s.kpr.cred = 3 then a.kprReply r 0 [] else s1.kprReply r 7 []) ∧
        a = { s1 with regs := a.regs, kpr := a.kpr } ∧ RegsBut s1 a [R.DB_WDT, R.DB_LOG] ∧ a.flag R.DB_WDT F.DB_WDT.SUSP = true ∧
        a.kpr.susp = true) ∧
    (Asked s c 0x31 m → SessionAt s c 3 → ∃ a : State, exec (.wdres c) s = .next (a.kprReply r 0 []) ∧ a.flag R.DB_WDT F.DB_WDT.SUSP = false ∧
      a = { s1 with regs := a.regs, kpr := a.kpr, db := a.db }) ∧
    (Asked s c 0x32 m → SessionAt s c 2 →
      let off := w0.toNat
      let may := dbclrBits off ≠ 0 ∧ w1 &&& ~~~ dbclrBits off = 0
      let clr := w1 &&& s.dbclrFree off
      let wipe := if s.db.scDead = true then 0 else if off = 4 ∧ clr &&& 0xFFFF ≠ 0 then clr ||| 0xFFFF else clr
      (¬ may → exec (.dbclr c) s = .next (s1.kprReply r 3 [])) ∧
      (may → exec (.dbclr c) s =
        .next ((s1.setReg (0x50000 + off) (s1.reg (0x50000 + off) &&& ~~~ wipe)).kprReply r 0 [s1.reg (0x50000 + off) &&& wipe])) ∧
      (off = 0x10 → s.dbclrFree off = 0x1FF &&& ~~~ (s.db.out.setWidth 32)) ∧ (off = 0 ∨ off = 4 → s.dbclrFree off = dbclrBits off)) ∧
    (Asked s c 0x3F m → SessionAt s c 1 → exec (.bye c) s = .next ((s1.kprReply r 0 []).kprEnd)) ∧
    (∀ (k : Fin 2) (v : BitVec 32), ∃ t, exec (.mcWdtKick k v) s = .next t ∧ t = { s with regs := t.regs, mcCount := t.mcCount } ∧
      RegsBut s t [R.MC_WDT k] ∧
      SMap.get 0 t.mcCount k = (if k = 0 ∧ s.core0.halted = true then SMap.get 0 s.mcCount k else v.toNat / 65536) ∧
        t.fld (R.MC_WDT k) F.MC_WDT.PERIOD = v.toNat / 65536) ∧
    (∀ k : Fin 2, s.fld (R.MC_WDT k) F.MC_WDT.PERIOD ≠ 0 → (k = 0 → s.core0.halted = false) →
      ∃ t, exec (.mcWatchdogExpiry k) s = .next t ∧ t = { s with regs := t.regs, mcCount := t.mcCount } ∧ RegsBut s t [R.MC_WDT k] ∧
        t.flag (R.MC_WDT k) F.MC_WDT.EXPD = true ∧ SMap.get 0 t.mcCount k = s.fld (R.MC_WDT k) F.MC_WDT.PERIOD)

/-- At reset every register holds the value that the spec's tables give, and the fields below read as their rows say; no queue, memory, session or
command is there; the memories are canonical and every ledger balances. -/
def Obligations.ResetLeavesTheTablesValues : Prop :=
  let s := State.reset
  (∀ off, s.reg off = resetVal off) ∧ (∀ c off, s.stAt c off = resetVal off) ∧
  s.reg R.TBU_INCR = 0x20000000 ∧ s.flag R.EVT_NMI F.EVT_NMI.MC0 = true ∧ s.flag R.EVT_NMI F.EVT_NMI.MC1 = false ∧
  s.fld R.KPR_VTSTAT F.KPR_VTSTAT.TXFREE = 64 ∧ s.fld (R.UART_STAT 0) F.UART_STAT.TXFREE = 16 ∧ s.fld (R.UART_CFG 3) F.UART_CFG.RXTH = 1 ∧
  s.fld (R.FAN_CFG 1) F.FAN_CFG.DUTY = 255 ∧ s.kprState = 0 ∧
  (∀ b q, s.queue b q = {}) ∧ (∀ b a, s.entry b a = {}) ∧ (∀ n, n < 1704 → s.raised n = false) ∧ s.pending = [] ∧
  Memory.wf s = true ∧ s.queuesBalance = true ∧ s.leavesBalance = true ∧ s.chn.tokensBalance = true ∧ s.chn.doneBalances = true

/-- With command c at the front of its queue, the step is c's effect on the state with the queue's rest. -/
def Obligations.StepRunsTheFrontCommand : Prop :=
  ∀ (c : Instr) (s : State) (rest : List Instr), s.pending = c :: rest → step s = exec c { s with pending := rest }

/-- A command's effect leaves the queue of waiting commands as it is, so that commands run once each, first in, first out.
The model stops on no command and in no state: every command answers a next state, and so does every step (the model's own promise; the
spec calls no command undefined as a whole). -/
def Obligations.CommandsAnswerAndLeaveTheQueue : Prop :=
  (
  ∀ (c : Instr) (s t : State), exec c s = .next t → t.pending = s.pending
  ) ∧
  (
  (∀ (c : Instr) (s : State), ∃ t, exec c s = .next t) ∧ ∀ s : State, ∃ t, step s = .next t
  )

/-- Every step keeps the canonical form of the memories and of the register files: keys strictly rising, no entry equal to what an unlisted key
reads as. -/
def Obligations.StepKeepsMemoriesCanonical : Prop :=
  ∀ s t : State, Memory.wf s = true → step s = .next t → Memory.wf t = true

/-- R171. Every step keeps the identity of every word memory queue: IN = OUT + SLAMMED + FLUSHED + OCC, modulo 2^32. -/
def Obligations.StepKeepsQueueLedgers : Prop :=
  ∀ s t : State, s.queuesBalance = true → step s = .next t → t.queuesBalance = true

/-- R266, R308, R350. Every step keeps the identity of every hinge leaf, NEW − ACKED − RECALLED = HELD with at most 16 held, of the knock tokens,
GEN + RCVD = SENT + CONS + HELD, and of DONE_N, ASSERT = RELEASE + HELD. -/
def Obligations.StepKeepsLinkAndChainLedgers : Prop :=
  ∀ s t : State, step s = .next t →
    (s.leavesBalance = true → t.leavesBalance = true) ∧ (s.chn.tokensBalance = true → t.chn.tokensBalance = true) ∧
    (s.chn.doneBalances = true → t.chn.doneBalances = true)

/-- R350. ASSERT counts the changes of the device's own drive of DONE_N from released to low and RELEASE the changes back; HELD is 1 while it is
driven low; SEEN counts the high levels accepted; a device reset starts the counters again with ASSERT at 1; the identity
ASSERT = RELEASE + HELD holds in every state after a step from one in which it holds. -/
def Obligations.DoneLedger : Prop :=
  (∀ s : State, s.chn.low = false → s.doneLow = { s with chn := { s.chn with low := true, asserted := s.chn.asserted + 1 } }) ∧
  (∀ s : State, s.chn.low = true → s.doneRelease = { s with chn := { s.chn with low := false, released := s.chn.released + 1 } } ∧ s.doneLow = s) ∧
  (∀ s : State, s.chn.low = false → s.doneRelease = s) ∧
  (∀ s : State, ∃ t, exec (.chnCtlSnap 0) s = .next t ∧ t.reg (R.CHN_LEDGER 8) = s.chn.asserted ∧ t.reg (R.CHN_LEDGER 9) = s.chn.released ∧
    t.reg (R.CHN_LEDGER 10) = (if s.chn.low = true then 1 else 0) ∧ t.reg (R.CHN_LEDGER 11) = s.chn.seen) ∧
  (∀ s : State, s.waitsDone = true → ∃ t, exec .doneNHigh s = .next t ∧ t.chn.seen = s.chn.seen + 1) ∧
  (∀ (s : State) (cause : Nat) (wake : Option Nat),
    (s.deviceReset cause wake).chn.asserted = 1 ∧ (s.deviceReset cause wake).chn.released = 0 ∧ (s.deviceReset cause wake).chn.seen = 0 ∧
    (s.deviceReset cause wake).chn.low = true) ∧
  (∀ s t : State, s.chn.doneBalances = true → step s = .next t → t.chn.doneBalances = true)
end

