-- ==== Sys2Proof/Laws/SMap.lean ====
section
/-!
SUPPORT. The laws of a sparse map: what is read after a write, there and elsewhere, and that every write keeps the canonical
form. None but the last two needs the map to be in canonical form.
-/
namespace Sys2Proof.Machine

theorem SMap.get_put_same {α : Type} (d : α) (m : SMap α) (k : Nat) (v : α) : SMap.get d (SMap.put m k v) k = v := by
  induction m with
  | nil => simp [SMap.put, SMap.get]
  | cons h m ih =>
    obtain ⟨j, u⟩ := h
    simp only [SMap.put]
    split
    · simp [SMap.get]
    · split
      · simp [SMap.get]
      · simp [SMap.get, *]

theorem SMap.get_put_other {α : Type} (d : α) (m : SMap α) (k i : Nat) (v : α) (h : i ≠ k) :
    SMap.get d (SMap.put m k v) i = SMap.get d m i := by
  induction m with
  | nil => simp [SMap.put, SMap.get, h.symm]
  | cons x m ih =>
    obtain ⟨j, u⟩ := x
    simp only [SMap.put]
    split
    · subst_vars; simp [SMap.get, h.symm]
    · split
      · simp only [SMap.get, h.symm, if_false]
        split
        · split
          · omega
          · rw [if_pos (by omega)]
        · rfl
      · simp only [SMap.get, ih]

theorem SMap.get_dropWhile {α : Type} (d : α) (m : SMap α) (k i : Nat) :
    SMap.get d (m.dropWhile (fun x => decide (x.1 ≤ k))) i = if i ≤ k then d else SMap.get d m i := by
  induction m with
  | nil => simp [SMap.get]
  | cons x m ih =>
    obtain ⟨j, u⟩ := x
    simp only [List.dropWhile_cons, decide_eq_true_eq]
    split
    · rw [ih]
      split
      · rfl
      · simp only [SMap.get]
        rw [if_neg (by omega), if_neg (by omega)]
    · simp only [SMap.get]
      by_cases h1 : j = i
      · rw [if_pos h1, if_neg (by omega)]
      · by_cases h2 : i < j
        · rw [if_neg h1, if_pos h2]; simp
        · rw [if_neg h1, if_neg h2, if_neg (by omega)]

theorem SMap.get_del {α : Type} (d : α) (m : SMap α) (k i : Nat) :
    SMap.get d (SMap.del m k) i = if i = k then d else SMap.get d m i := by
  induction m with
  | nil => simp [SMap.del, SMap.get]
  | cons x m ih =>
    obtain ⟨j, u⟩ := x
    simp only [SMap.del]
    split
    · rename_i hjk
      rw [SMap.get_dropWhile]; subst hjk
      simp only [SMap.get]
      rcases lt_trichotomy i j with h | h | h
      · rw [if_pos (by omega), if_neg (by omega), if_neg (by omega), if_pos h]
      · rw [if_pos (by omega), if_pos h]
      · rw [if_neg (by omega), if_neg (by omega), if_neg (by omega), if_neg (by omega)]
    · split
      · split
        · subst_vars; simp only [SMap.get]; rw [if_neg (by omega), if_pos (by omega)]
        · rfl
      · simp only [SMap.get, ih]
        split
        · rw [if_neg (by omega)]
        · split
          · rw [if_neg (by omega)]
          · rfl

/-- A key reads as what was last written to it. -/
theorem SMap.get_set_same {α : Type} [DecidableEq α] (d : α) (m : SMap α) (k : Nat) (v : α) :
    SMap.get d (SMap.set d m k v) k = v := by
  unfold SMap.set
  split
  · rw [SMap.get_del]; simp [*]
  · exact SMap.get_put_same d m k v

/-- A write leaves every other key's value alone. -/
theorem SMap.get_set_other {α : Type} [DecidableEq α] (d d' : α) (m : SMap α) (k i : Nat) (v : α) (h : i ≠ k) :
    SMap.get d (SMap.set d' m k v) i = SMap.get d m i := by
  unfold SMap.set
  split
  · rw [SMap.get_del, if_neg h]
  · exact SMap.get_put_other d m k i v h

theorem SMap.wfFrom_mono {α : Type} [DecidableEq α] (d : Nat → α) (m : SMap α) (a b : Nat) (h : a ≤ b)
    (w : SMap.wfFrom d b m = true) : SMap.wfFrom d a m = true := by
  cases m with
  | nil => rfl
  | cons x m =>
    simp only [SMap.wfFrom, Bool.and_eq_true, decide_eq_true_eq] at w ⊢
    exact ⟨⟨by omega, w.1.2⟩, w.2⟩

theorem SMap.wfFrom_put {α : Type} [DecidableEq α] (d : Nat → α) (m : SMap α) (lo k : Nat) (v : α) (hlo : lo ≤ k)
    (hv : v ≠ d k) (w : SMap.wfFrom d lo m = true) : SMap.wfFrom d lo (SMap.put m k v) = true := by
  induction m generalizing lo with
  | nil => simp [SMap.put, SMap.wfFrom, hlo, hv]
  | cons x m ih =>
    obtain ⟨j, u⟩ := x
    simp only [SMap.wfFrom, Bool.and_eq_true, decide_eq_true_eq] at w
    simp only [SMap.put]
    split
    · subst_vars; simp [SMap.wfFrom, hlo, hv, w.2]
    · split
      · simp only [SMap.wfFrom, Bool.and_eq_true, decide_eq_true_eq]
        exact ⟨⟨hlo, hv⟩, ⟨by omega, w.1.2⟩, w.2⟩
      · simp only [SMap.wfFrom, Bool.and_eq_true, decide_eq_true_eq]
        exact ⟨w.1, ih (j + 1) (by omega) w.2⟩

theorem SMap.wfFrom_dropWhile {α : Type} [DecidableEq α] (d : Nat → α) (m : SMap α) (lo k : Nat)
    (w : SMap.wfFrom d lo m = true) : SMap.wfFrom d lo (m.dropWhile (fun x => decide (x.1 ≤ k))) = true := by
  induction m generalizing lo with
  | nil => rfl
  | cons x m ih =>
    simp only [List.dropWhile_cons]
    split
    · simp only [SMap.wfFrom, Bool.and_eq_true, decide_eq_true_eq] at w
      exact ih lo (SMap.wfFrom_mono d m lo _ (by omega) w.2)
    · exact w

theorem SMap.wfFrom_del {α : Type} [DecidableEq α] (d : Nat → α) (m : SMap α) (lo k : Nat)
    (w : SMap.wfFrom d lo m = true) : SMap.wfFrom d lo (SMap.del m k) = true := by
  induction m generalizing lo with
  | nil => rfl
  | cons x m ih =>
    obtain ⟨j, u⟩ := x
    have w0 := w
    simp only [SMap.wfFrom, Bool.and_eq_true, decide_eq_true_eq] at w
    simp only [SMap.del]
    split
    · exact SMap.wfFrom_dropWhile d m lo k (SMap.wfFrom_mono d m lo _ (by omega) w.2)
    · split
      · exact w0
      · simp only [SMap.wfFrom, Bool.and_eq_true, decide_eq_true_eq]
        exact ⟨w.1, ih (j + 1) w.2⟩

/-- Every write keeps the canonical form. -/
theorem SMap.wf_set {α : Type} [DecidableEq α] (d : Nat → α) (m : SMap α) (k : Nat) (v : α) (w : SMap.wf d m = true) :
    SMap.wf d (SMap.set (d k) m k v) = true := by
  unfold SMap.set SMap.wf
  split
  · exact SMap.wfFrom_del d m 0 k w
  · exact SMap.wfFrom_put d m 0 k v (by omega) (by assumption) w

/-- Every change of one key keeps the canonical form. -/
theorem SMap.wf_upd {α : Type} [DecidableEq α] (d : Nat → α) (m : SMap α) (k : Nat) (f : α → α) (w : SMap.wf d m = true) :
    SMap.wf d (SMap.upd (d k) m k f) = true := SMap.wf_set d m k _ w

end Sys2Proof.Machine
end

