-- ==== Sys2Proof/Laws/Kept.lean ====
section
/-!
SUPPORT. What every operation keeps: the queue of commands, the canonical form of the memories and register files, and the ledger
identities of Safety. `Kept s0 s` says that `s`, reached from `s0`, has lost none of them.
-/
namespace Sys2Proof.Machine

/-- The state `s` has the queue of `s0`, and keeps what Safety asks of a state wherever `s0` has it. -/
structure Kept (s0 s : State) : Prop where
  queue : s.pending = s0.pending
  mem : Memory.wf s0 = true → Memory.wf s = true
  queues : s0.queuesBalance = true → s.queuesBalance = true
  leaves : s0.leavesBalance = true → s.leavesBalance = true
  tokens : s0.chn.tokensBalance = true → s.chn.tokensBalance = true
  done : s0.chn.doneBalances = true → s.chn.doneBalances = true

theorem Kept.refl (s : State) : Kept s s := ⟨rfl, id, id, id, id, id⟩

theorem Kept.trans {a b c : State} (h : Kept a b) (g : Kept b c) : Kept a c :=
  ⟨g.queue.trans h.queue, g.mem ∘ h.mem, g.queues ∘ h.queues, g.leaves ∘ h.leaves, g.tokens ∘ h.tokens, g.done ∘ h.done⟩

/-- An update of fields that `Kept` does not speak of. -/
theorem kept_mk {s0 s : State}
    {bank' : SMap Bool} {cells' : SMap CellSt} {panes' : SMap PaneSt} {chans' : SMap ChanSt} {ports' : SMap PortSt}
    {movers' : SMap MoverSt} {lvPar' : SMap (BitVec 2)} {dies' : SMap DieSt} {tbu' : TbuSt} {doms' : SMap DomainSt}
    {arms' : SMap ArmSt} {armedBy' : SMap Nat} {engs' : SMap EngSt} {pmBad' : SMap (Fin 3)} {srcs' : SMap SrcQ} {inqs'
    : SMap (List TFlit)} {worms' : SMap Worm} {lost' : SMap Nat} {turns' : SMap Nat} {tins' : SMap (List TFlit)}
    {owns' : List Packet} {selfCpl' : List Packet} {fmSeq' : List FmReq} {fmOut' : SMap SrcQ} {outst' : List Outst}
    {quar' : List (Nat × Nat)} {tracked' : List Tracked} {answered' : List (Nat × Nat × Nat)} {uclLeft' : SMap Nat}
    {uclHdr' : SMap Packet} {uclOwed' : SMap Nat} {credOff' : SMap Int} {ledger' : SMap HWord} {stageBrd' : SMap Bool}
    {parkBrd' : List Nat} {lanes' : SMap LaneSt} {hinges' : SMap HingeSt} {stages' : SMap StageSt} {recalls' : SMap
    (List (Nat × TFlit))} {gsnap' : Bool} {gsnapDue' : Nat} {edgeTurn' : SMap Nat} {tickQ' : SMap (List TickRec)} {sd'
    : SMap SdEnt} {sdMiss' : Word} {sdOp' : Option (Nat × Bool)} {lkRecs' : SMap (List LkRec)} {fmErr' : SMap BlkErr}
    {ddrs' : SMap DdrSt} {pins' : SMap PinSt} {fpins' : SMap FpinSt} {outputs' : Bool} {uarts' : SMap UartSt} {i2cs' :
    SMap Nat} {spis' : SMap Bool} {fans' : SMap Nat} {cfg' : CfgSt} {chk' : SMap Word} {imgBit' : SMap Bool} {progd' :
    SMap Bool} {unread' : SMap Bool} {otp' : SMap OtpGen} {otpRun' : Option OtpRun} {power' : Power} {db' : DbSt}
    {host' : List HCmd} {hostSeq' : Nat} {hcqs' : SMap HcqSt} {b2' : List B2Read} {park' : Option ParkSt} {unparkReq'
    : Option Nat} {msixs' : SMap MsixFn} {pcieUp' : Bool} {mcMem' : SMap Word} {core0' : CoreSt} {mcCount' : SMap Nat}
    {kpr' : KprSt} {heldAcc' : List HeldAcc} {hubPar' : SMap Bool} {fresh' : Nat} {out' : List OutEv}
    (h : Kept s0 s) : Kept s0 { s with
      bank := bank', cells := cells', panes := panes', chans := chans', ports := ports', movers := movers', lvPar :=
      lvPar', dies := dies', tbu := tbu', doms := doms', arms := arms', armedBy := armedBy', engs := engs', pmBad :=
      pmBad', srcs := srcs', inqs := inqs', worms := worms', lost := lost', turns := turns', tins := tins', owns :=
      owns', selfCpl := selfCpl', fmSeq := fmSeq', fmOut := fmOut', outst := outst', quar := quar', tracked :=
      tracked', answered := answered', uclLeft := uclLeft', uclHdr := uclHdr', uclOwed := uclOwed', credOff :=
      credOff', ledger := ledger', stageBrd := stageBrd', parkBrd := parkBrd', lanes := lanes', hinges := hinges',
      stages := stages', recalls := recalls', gsnap := gsnap', gsnapDue := gsnapDue', edgeTurn := edgeTurn', tickQ :=
      tickQ', sd := sd', sdMiss := sdMiss', sdOp := sdOp', lkRecs := lkRecs', fmErr := fmErr', ddrs := ddrs', pins :=
      pins', fpins := fpins', outputs := outputs', uarts := uarts', i2cs := i2cs', spis := spis', fans := fans', cfg
      := cfg', chk := chk', imgBit := imgBit', progd := progd', unread := unread', otp := otp', otpRun := otpRun',
      power := power', db := db', host := host', hostSeq := hostSeq', hcqs := hcqs', b2 := b2', park := park',
      unparkReq := unparkReq', msixs := msixs', pcieUp := pcieUp', mcMem := mcMem', core0 := core0', mcCount :=
      mcCount', kpr := kpr', heldAcc := heldAcc', hubPar := hubPar', fresh := fresh', out := out' } :=
  ⟨h.queue, h.mem, h.queues, h.leaves, h.tokens, h.done⟩

/-- A change of memories and registers that keeps their canonical form. -/
theorem Kept.updMem {s0 s t : State} (h : Kept s0 s) (h1 : t.pending = s.pending) (h2 : Memory.wf s = true → Memory.wf t = true)
    (h9 : t.queues = s.queues) (h10 : t.leaves = s.leaves) (h11 : t.chn = s.chn) : Kept s0 t := by
  obtain ⟨a, b, c, d, e, f⟩ := h
  exact ⟨h1.trans a, h2 ∘ b, by simpa only [State.queuesBalance, h9] using c, by simpa only [State.leavesBalance, h10] using d,
    by rw [h11]; exact e, by rw [h11]; exact f⟩

theorem kept_ite {s0 a b : State} {c : Prop} [Decidable c] (h : Kept s0 a) (g : Kept s0 b) : Kept s0 (if c then a else b) := by
  split <;> assumption

theorem kept_foldl {s0 s : State} {α : Type} (f : State → α → State) (l : List α) (hf : ∀ a i, Kept s0 a → Kept s0 (f a i))
    (h : Kept s0 s) : Kept s0 (l.foldl f s) := by
  induction l generalizing s with
  | nil => exact h
  | cons x l ih => exact ih (hf s x h)

theorem kept_foldl1 {s0 : State} {s : State} {α β : Type} (f : State × β → α → State × β) (l : List α) (b : β)
    (hf : ∀ a i, Kept s0 a.1 → Kept s0 (f a i).1) (h : Kept s0 s) : Kept s0 (l.foldl f (s, b)).1 := by
  suffices ∀ p : State × β, Kept s0 p.1 → Kept s0 (l.foldl f p).1 from this (s, b) h
  induction l with
  | nil => exact fun _ h => h
  | cons x l ih => exact fun p h => ih _ (hf p x h)

theorem kept_foldl2 {s0 : State} {s : State} {α β : Type} (f : β × State → α → β × State) (l : List α) (b : β)
    (hf : ∀ a i, Kept s0 a.2 → Kept s0 (f a i).2) (h : Kept s0 s) : Kept s0 (l.foldl f (b, s)).2 := by
  suffices ∀ p : β × State, Kept s0 p.2 → Kept s0 (l.foldl f p).2 from this (b, s) h
  induction l with
  | nil => exact fun _ h => h
  | cons x l ih => exact fun p h => ih _ (hf p x h)

/-! ### The primitive updates -/

theorem SMap.wfFrom_filter {α : Type} [DecidableEq α] (d : Nat → α) (m : SMap α) (lo : Nat) (p : Nat × α → Bool)
    (w : SMap.wfFrom d lo m = true) : SMap.wfFrom d lo (m.filter p) = true := by
  induction m generalizing lo with
  | nil => rfl
  | cons x m ih =>
    obtain ⟨j, u⟩ := x
    simp only [SMap.wfFrom, Bool.and_eq_true, decide_eq_true_eq] at w
    simp only [List.filter_cons]
    split
    · simp only [SMap.wfFrom, Bool.and_eq_true, decide_eq_true_eq]; exact ⟨w.1, ih _ w.2⟩
    · exact SMap.wfFrom_mono d _ lo _ (by omega) (ih _ w.2)

/-- Dropping keys keeps the canonical form. -/
theorem SMap.wf_filter {α : Type} [DecidableEq α] (d : Nat → α) (m : SMap α) (p : Nat × α → Bool) (w : SMap.wf d m = true) :
    SMap.wf d (m.filter p) = true := SMap.wfFrom_filter d m 0 p w

/-- What holds of every listed value holds after a write of a value it holds of. -/
theorem SMap.all_set {α : Type} [DecidableEq α] (d : α) (P : α → Bool) (m : SMap α) (k : Nat) (v : α) (hv : P v = true)
    (h : m.all (fun e => P e.2) = true) : (SMap.set d m k v).all (fun e => P e.2) = true := by
  have hput : ∀ m : SMap α, m.all (fun e => P e.2) = true → (SMap.put m k v).all (fun e => P e.2) = true := by
    intro m hm
    induction m with
    | nil => simpa [SMap.put] using hv
    | cons x m ih =>
      obtain ⟨j, u⟩ := x
      simp only [List.all_cons, Bool.and_eq_true] at hm
      simp only [SMap.put]
      split
      · simp [hv, hm.2]
      · split
        · simp [hv, hm.1, hm.2]
        · simp [hm.1, ih hm.2]
  have hdel : ∀ m : SMap α, m.all (fun e => P e.2) = true → (SMap.del m k).all (fun e => P e.2) = true := by
    intro m hm
    induction m with
    | nil => simp [SMap.del]
    | cons x m ih =>
      obtain ⟨j, u⟩ := x
      simp only [List.all_cons, Bool.and_eq_true] at hm
      simp only [SMap.del]
      split
      · simp only [List.all_eq_true] at hm ⊢
        exact fun e he => hm.2 e (List.dropWhile_subset _ he)
      · split
        · simp [hm.1, hm.2]
        · simp [hm.1, ih hm.2]
  unfold SMap.set; split
  · exact hdel m h
  · exact hput m h

/-- What holds of every listed value, and of the unlisted key's, holds of what any key reads as. -/
theorem SMap.all_get {α : Type} (d : α) (P : α → Bool) (m : SMap α) (k : Nat) (hd : P d = true)
    (h : m.all (fun e => P e.2) = true) : P (SMap.get d m k) = true := by
  induction m with
  | nil => exact hd
  | cons x m ih =>
    obtain ⟨j, u⟩ := x
    simp only [List.all_cons, Bool.and_eq_true] at h
    simp only [SMap.get]
    split
    · exact h.1
    · split
      · exact hd
      · exact ih h.2

theorem all_filter {α : Type} (P : α → Bool) (m : SMap α) (p : Nat × α → Bool) (h : m.all (fun e => P e.2) = true) :
    (m.filter p).all (fun e => P e.2) = true := by
  simp only [List.all_eq_true, List.mem_filter] at h ⊢
  exact fun e he => h e he.1

theorem kept_setReg {s0 s : State} (off : Nat) (v : HWord) (h : Kept s0 s) : Kept s0 (s.setReg off v) :=
  h.updMem rfl (by
    simp only [Memory.wf, State.setReg, Bool.and_eq_true]
    exact fun w => ⟨⟨w.1.1, SMap.wf_set resetVal s.regs off v w.1.2⟩, w.2⟩) rfl rfl rfl

theorem kept_setStAt {s0 s : State} (c off : Nat) (v : HWord) (hc : c ≤ 1) (h : Kept s0 s) : Kept s0 (s.setStAt c off v) :=
  h.updMem rfl (by
    simp only [Memory.wf, State.setStAt, Bool.and_eq_true]
    refine fun w => ⟨w.1, ?_⟩
    have := SMap.wf_set (fun k => resetVal (k / 2)) s.stv (2 * off + c) v w.2
    rwa [show (2 * off + c) / 2 = off by omega] at this) rfl rfl rfl

theorem kept_setEntry {s0 s : State} (blk a : Nat) (x : Entry) (h : Kept s0 s) : Kept s0 (s.setEntry blk a x) :=
  h.updMem rfl (by
    simp only [Memory.wf, State.setEntry, Bool.and_eq_true]
    exact fun w => ⟨⟨⟨⟨⟨⟨SMap.wf_set (fun _ => {}) s.arrays _ x w.1.1.1.1.1.1, w.1.1.1.1.1.2⟩, w.1.1.1.1.2⟩, w.1.1.1.2⟩, w.1.1.2⟩,
      w.1.2⟩, w.2⟩) rfl rfl rfl

theorem kept_setDm {s0 s : State} (g a : Nat) (x : Entry) (h : Kept s0 s) : Kept s0 (s.setDm g a x) :=
  h.updMem rfl (by
    simp only [Memory.wf, State.setDm, Bool.and_eq_true]
    exact fun w => ⟨⟨⟨⟨⟨⟨w.1.1.1.1.1.1, SMap.wf_set (fun _ => {}) s.dm _ x w.1.1.1.1.1.2⟩, w.1.1.1.1.2⟩, w.1.1.1.2⟩, w.1.1.2⟩,
      w.1.2⟩, w.2⟩) rfl rfl rfl

theorem kept_setFmWord {s0 s : State} (sc bl k : Nat) (w : Word) (h : Kept s0 s) : Kept s0 (s.setFmWord sc bl k w) :=
  h.updMem rfl (by
    simp only [Memory.wf, State.setFmWord, Bool.and_eq_true]
    exact fun x => ⟨⟨⟨⟨⟨x.1.1.1.1.1, SMap.wf_set (fun _ => 0) s.fm _ w x.1.1.1.1.2⟩, x.1.1.1.2⟩, x.1.1.2⟩, x.1.2⟩, x.2⟩) rfl rfl rfl

theorem kept_setStoreWord {s0 s : State} (i : Nat) (v : HWord) (h : Kept s0 s) : Kept s0 (s.setStoreWord i v) :=
  h.updMem rfl (by
    simp only [Memory.wf, State.setStoreWord, Bool.and_eq_true]
    exact fun x => ⟨⟨⟨⟨x.1.1.1.1, SMap.wf_set (fun _ => 0xFFFFFFFF) s.store _ v x.1.1.1.2⟩, x.1.1.2⟩, x.1.2⟩, x.2⟩) rfl rfl rfl

/-- A write of a queue whose ledger balances. -/
theorem kept_setQueue {s0 s : State} (blk q : Nat) (x : QueueSt)
    (hx : (s.queue blk q).balances = true → x.balances = true) (h : Kept s0 s) : Kept s0 (s.setQueue blk q x) := by
  refine ⟨h.queue, h.mem, fun w => ?_, h.leaves, h.tokens, h.done⟩
  exact SMap.all_set {} _ s.queues _ x (hx (SMap.all_get ({} : QueueSt) QueueSt.balances s.queues (blk * 4 + q) rfl (h.queues w))) (h.queues w)

/-- A write of a leaf whose ledger balances. -/
theorem kept_setLeaf {s0 s : State} (e j : Nat) (l : LeafSt)
    (hx : (s.leaf e j).balances = true → l.balances = true) (h : Kept s0 s) : Kept s0 (s.setLeaf e j l) := by
  refine ⟨h.queue, h.mem, h.queues, fun w => ?_, h.tokens, h.done⟩
  exact SMap.all_set {} _ s.leaves _ l (hx (SMap.all_get ({} : LeafSt) LeafSt.balances s.leaves (32 * e + j) rfl (h.leaves w))) (h.leaves w)

theorem kept_withChn {s0 s : State} (f : ChnSt → ChnSt)
    (hx : s.chn.tokensBalance = true → (f s.chn).tokensBalance = true)
    (hy : s.chn.doneBalances = true → (f s.chn).doneBalances = true) (h : Kept s0 s) : Kept s0 (s.withChn f) :=
  ⟨h.queue, h.mem, h.queues, h.leaves, fun w => hx (h.tokens w), fun w => hy (h.done w)⟩

end Sys2Proof.Machine
end

