-- ==== Sys2Proof/Laws/State.lean ====
section
/-!
SUPPORT. What each update of one field leaves: every other field. Each law is a conjunction, one equation per field, all true by
definition, so that no later proof unfolds a record update.
-/
namespace Sys2Proof.Machine

@[simp] theorem State.setReg_fields (s : State) (off : ℕ) (v : HWord) :
    (s.setReg off v).stv = s.stv ∧ (s.setReg off v).bank = s.bank ∧ (s.setReg off v).frames = s.frames ∧ (s.setReg off
    v).cells = s.cells ∧ (s.setReg off v).panes = s.panes ∧ (s.setReg off v).chans = s.chans ∧ (s.setReg off v).arrays =
    s.arrays ∧ (s.setReg off v).queues = s.queues ∧ (s.setReg off v).ports = s.ports ∧ (s.setReg off v).movers = s.movers ∧
    (s.setReg off v).lvPar = s.lvPar ∧ (s.setReg off v).dies = s.dies ∧ (s.setReg off v).tbu = s.tbu ∧ (s.setReg off v).doms
    = s.doms ∧ (s.setReg off v).arms = s.arms ∧ (s.setReg off v).armedBy = s.armedBy ∧ (s.setReg off v).engs = s.engs ∧
    (s.setReg off v).dm = s.dm ∧ (s.setReg off v).pmBad = s.pmBad ∧ (s.setReg off v).srcs = s.srcs ∧ (s.setReg off v).inqs =
    s.inqs ∧ (s.setReg off v).worms = s.worms ∧ (s.setReg off v).lost = s.lost ∧ (s.setReg off v).turns = s.turns ∧
    (s.setReg off v).tins = s.tins ∧ (s.setReg off v).owns = s.owns ∧ (s.setReg off v).selfCpl = s.selfCpl ∧ (s.setReg off
    v).fmSeq = s.fmSeq ∧ (s.setReg off v).fmOut = s.fmOut ∧ (s.setReg off v).outst = s.outst ∧ (s.setReg off v).quar =
    s.quar ∧ (s.setReg off v).tracked = s.tracked ∧ (s.setReg off v).answered = s.answered ∧ (s.setReg off v).uclLeft =
    s.uclLeft ∧ (s.setReg off v).uclHdr = s.uclHdr ∧ (s.setReg off v).uclOwed = s.uclOwed ∧ (s.setReg off v).credOff =
    s.credOff ∧ (s.setReg off v).ledger = s.ledger ∧ (s.setReg off v).stageBrd = s.stageBrd ∧ (s.setReg off v).parkBrd =
    s.parkBrd ∧ (s.setReg off v).lanes = s.lanes ∧ (s.setReg off v).hinges = s.hinges ∧ (s.setReg off v).leaves = s.leaves ∧
    (s.setReg off v).stages = s.stages ∧ (s.setReg off v).recalls = s.recalls ∧ (s.setReg off v).gsnap = s.gsnap ∧ (s.setReg
    off v).gsnapDue = s.gsnapDue ∧ (s.setReg off v).edgeTurn = s.edgeTurn ∧ (s.setReg off v).tickQ = s.tickQ ∧ (s.setReg off
    v).sd = s.sd ∧ (s.setReg off v).sdMiss = s.sdMiss ∧ (s.setReg off v).sdOp = s.sdOp ∧ (s.setReg off v).lkRecs = s.lkRecs
    ∧ (s.setReg off v).fm = s.fm ∧ (s.setReg off v).fmErr = s.fmErr ∧ (s.setReg off v).ddrs = s.ddrs ∧ (s.setReg off v).pins
    = s.pins ∧ (s.setReg off v).fpins = s.fpins ∧ (s.setReg off v).outputs = s.outputs ∧ (s.setReg off v).uarts = s.uarts ∧
    (s.setReg off v).i2cs = s.i2cs ∧ (s.setReg off v).spis = s.spis ∧ (s.setReg off v).fans = s.fans ∧ (s.setReg off v).tap
    = s.tap ∧ (s.setReg off v).clk = s.clk ∧ (s.setReg off v).cfg = s.cfg ∧ (s.setReg off v).chk = s.chk ∧ (s.setReg off
    v).imgBit = s.imgBit ∧ (s.setReg off v).store = s.store ∧ (s.setReg off v).progd = s.progd ∧ (s.setReg off v).unread =
    s.unread ∧ (s.setReg off v).otp = s.otp ∧ (s.setReg off v).otpRun = s.otpRun ∧ (s.setReg off v).power = s.power ∧
    (s.setReg off v).db = s.db ∧ (s.setReg off v).host = s.host ∧ (s.setReg off v).hostSeq = s.hostSeq ∧ (s.setReg off
    v).hcqs = s.hcqs ∧ (s.setReg off v).b2 = s.b2 ∧ (s.setReg off v).park = s.park ∧ (s.setReg off v).unparkReq =
    s.unparkReq ∧ (s.setReg off v).msixs = s.msixs ∧ (s.setReg off v).pcieUp = s.pcieUp ∧ (s.setReg off v).mcMem = s.mcMem ∧
    (s.setReg off v).chn = s.chn ∧ (s.setReg off v).core0 = s.core0 ∧ (s.setReg off v).mcCount = s.mcCount ∧ (s.setReg off
    v).kpr = s.kpr ∧ (s.setReg off v).heldAcc = s.heldAcc ∧ (s.setReg off v).hubPar = s.hubPar ∧ (s.setReg off v).fresh =
    s.fresh ∧ (s.setReg off v).out = s.out ∧ (s.setReg off v).pending = s.pending := by
  and_intros <;> rfl

@[simp] theorem State.setFld_fields (s : State) (off : ℕ) (f : Fld) (n : ℕ) :
    (s.setFld off f n).stv = s.stv ∧ (s.setFld off f n).bank = s.bank ∧ (s.setFld off f n).frames = s.frames ∧ (s.setFld off
    f n).cells = s.cells ∧ (s.setFld off f n).panes = s.panes ∧ (s.setFld off f n).chans = s.chans ∧ (s.setFld off f
    n).arrays = s.arrays ∧ (s.setFld off f n).queues = s.queues ∧ (s.setFld off f n).ports = s.ports ∧ (s.setFld off f
    n).movers = s.movers ∧ (s.setFld off f n).lvPar = s.lvPar ∧ (s.setFld off f n).dies = s.dies ∧ (s.setFld off f n).tbu =
    s.tbu ∧ (s.setFld off f n).doms = s.doms ∧ (s.setFld off f n).arms = s.arms ∧ (s.setFld off f n).armedBy = s.armedBy ∧
    (s.setFld off f n).engs = s.engs ∧ (s.setFld off f n).dm = s.dm ∧ (s.setFld off f n).pmBad = s.pmBad ∧ (s.setFld off f
    n).srcs = s.srcs ∧ (s.setFld off f n).inqs = s.inqs ∧ (s.setFld off f n).worms = s.worms ∧ (s.setFld off f n).lost =
    s.lost ∧ (s.setFld off f n).turns = s.turns ∧ (s.setFld off f n).tins = s.tins ∧ (s.setFld off f n).owns = s.owns ∧
    (s.setFld off f n).selfCpl = s.selfCpl ∧ (s.setFld off f n).fmSeq = s.fmSeq ∧ (s.setFld off f n).fmOut = s.fmOut ∧
    (s.setFld off f n).outst = s.outst ∧ (s.setFld off f n).quar = s.quar ∧ (s.setFld off f n).tracked = s.tracked ∧
    (s.setFld off f n).answered = s.answered ∧ (s.setFld off f n).uclLeft = s.uclLeft ∧ (s.setFld off f n).uclHdr = s.uclHdr
    ∧ (s.setFld off f n).uclOwed = s.uclOwed ∧ (s.setFld off f n).credOff = s.credOff ∧ (s.setFld off f n).ledger = s.ledger
    ∧ (s.setFld off f n).stageBrd = s.stageBrd ∧ (s.setFld off f n).parkBrd = s.parkBrd ∧ (s.setFld off f n).lanes = s.lanes
    ∧ (s.setFld off f n).hinges = s.hinges ∧ (s.setFld off f n).leaves = s.leaves ∧ (s.setFld off f n).stages = s.stages ∧
    (s.setFld off f n).recalls = s.recalls ∧ (s.setFld off f n).gsnap = s.gsnap ∧ (s.setFld off f n).gsnapDue = s.gsnapDue ∧
    (s.setFld off f n).edgeTurn = s.edgeTurn ∧ (s.setFld off f n).tickQ = s.tickQ ∧ (s.setFld off f n).sd = s.sd ∧ (s.setFld
    off f n).sdMiss = s.sdMiss ∧ (s.setFld off f n).sdOp = s.sdOp ∧ (s.setFld off f n).lkRecs = s.lkRecs ∧ (s.setFld off f
    n).fm = s.fm ∧ (s.setFld off f n).fmErr = s.fmErr ∧ (s.setFld off f n).ddrs = s.ddrs ∧ (s.setFld off f n).pins = s.pins
    ∧ (s.setFld off f n).fpins = s.fpins ∧ (s.setFld off f n).outputs = s.outputs ∧ (s.setFld off f n).uarts = s.uarts ∧
    (s.setFld off f n).i2cs = s.i2cs ∧ (s.setFld off f n).spis = s.spis ∧ (s.setFld off f n).fans = s.fans ∧ (s.setFld off f
    n).tap = s.tap ∧ (s.setFld off f n).clk = s.clk ∧ (s.setFld off f n).cfg = s.cfg ∧ (s.setFld off f n).chk = s.chk ∧
    (s.setFld off f n).imgBit = s.imgBit ∧ (s.setFld off f n).store = s.store ∧ (s.setFld off f n).progd = s.progd ∧
    (s.setFld off f n).unread = s.unread ∧ (s.setFld off f n).otp = s.otp ∧ (s.setFld off f n).otpRun = s.otpRun ∧ (s.setFld
    off f n).power = s.power ∧ (s.setFld off f n).db = s.db ∧ (s.setFld off f n).host = s.host ∧ (s.setFld off f n).hostSeq
    = s.hostSeq ∧ (s.setFld off f n).hcqs = s.hcqs ∧ (s.setFld off f n).b2 = s.b2 ∧ (s.setFld off f n).park = s.park ∧
    (s.setFld off f n).unparkReq = s.unparkReq ∧ (s.setFld off f n).msixs = s.msixs ∧ (s.setFld off f n).pcieUp = s.pcieUp ∧
    (s.setFld off f n).mcMem = s.mcMem ∧ (s.setFld off f n).chn = s.chn ∧ (s.setFld off f n).core0 = s.core0 ∧ (s.setFld off
    f n).mcCount = s.mcCount ∧ (s.setFld off f n).kpr = s.kpr ∧ (s.setFld off f n).heldAcc = s.heldAcc ∧ (s.setFld off f
    n).hubPar = s.hubPar ∧ (s.setFld off f n).fresh = s.fresh ∧ (s.setFld off f n).out = s.out ∧ (s.setFld off f n).pending
    = s.pending := by
  and_intros <;> rfl

@[simp] theorem State.addSat_fields (s : State) (off : ℕ) (f : Fld) (n : ℕ) :
    (s.addSat off f n).stv = s.stv ∧ (s.addSat off f n).bank = s.bank ∧ (s.addSat off f n).frames = s.frames ∧ (s.addSat off
    f n).cells = s.cells ∧ (s.addSat off f n).panes = s.panes ∧ (s.addSat off f n).chans = s.chans ∧ (s.addSat off f
    n).arrays = s.arrays ∧ (s.addSat off f n).queues = s.queues ∧ (s.addSat off f n).ports = s.ports ∧ (s.addSat off f
    n).movers = s.movers ∧ (s.addSat off f n).lvPar = s.lvPar ∧ (s.addSat off f n).dies = s.dies ∧ (s.addSat off f n).tbu =
    s.tbu ∧ (s.addSat off f n).doms = s.doms ∧ (s.addSat off f n).arms = s.arms ∧ (s.addSat off f n).armedBy = s.armedBy ∧
    (s.addSat off f n).engs = s.engs ∧ (s.addSat off f n).dm = s.dm ∧ (s.addSat off f n).pmBad = s.pmBad ∧ (s.addSat off f
    n).srcs = s.srcs ∧ (s.addSat off f n).inqs = s.inqs ∧ (s.addSat off f n).worms = s.worms ∧ (s.addSat off f n).lost =
    s.lost ∧ (s.addSat off f n).turns = s.turns ∧ (s.addSat off f n).tins = s.tins ∧ (s.addSat off f n).owns = s.owns ∧
    (s.addSat off f n).selfCpl = s.selfCpl ∧ (s.addSat off f n).fmSeq = s.fmSeq ∧ (s.addSat off f n).fmOut = s.fmOut ∧
    (s.addSat off f n).outst = s.outst ∧ (s.addSat off f n).quar = s.quar ∧ (s.addSat off f n).tracked = s.tracked ∧
    (s.addSat off f n).answered = s.answered ∧ (s.addSat off f n).uclLeft = s.uclLeft ∧ (s.addSat off f n).uclHdr = s.uclHdr
    ∧ (s.addSat off f n).uclOwed = s.uclOwed ∧ (s.addSat off f n).credOff = s.credOff ∧ (s.addSat off f n).ledger = s.ledger
    ∧ (s.addSat off f n).stageBrd = s.stageBrd ∧ (s.addSat off f n).parkBrd = s.parkBrd ∧ (s.addSat off f n).lanes = s.lanes
    ∧ (s.addSat off f n).hinges = s.hinges ∧ (s.addSat off f n).leaves = s.leaves ∧ (s.addSat off f n).stages = s.stages ∧
    (s.addSat off f n).recalls = s.recalls ∧ (s.addSat off f n).gsnap = s.gsnap ∧ (s.addSat off f n).gsnapDue = s.gsnapDue ∧
    (s.addSat off f n).edgeTurn = s.edgeTurn ∧ (s.addSat off f n).tickQ = s.tickQ ∧ (s.addSat off f n).sd = s.sd ∧ (s.addSat
    off f n).sdMiss = s.sdMiss ∧ (s.addSat off f n).sdOp = s.sdOp ∧ (s.addSat off f n).lkRecs = s.lkRecs ∧ (s.addSat off f
    n).fm = s.fm ∧ (s.addSat off f n).fmErr = s.fmErr ∧ (s.addSat off f n).ddrs = s.ddrs ∧ (s.addSat off f n).pins = s.pins
    ∧ (s.addSat off f n).fpins = s.fpins ∧ (s.addSat off f n).outputs = s.outputs ∧ (s.addSat off f n).uarts = s.uarts ∧
    (s.addSat off f n).i2cs = s.i2cs ∧ (s.addSat off f n).spis = s.spis ∧ (s.addSat off f n).fans = s.fans ∧ (s.addSat off f
    n).tap = s.tap ∧ (s.addSat off f n).clk = s.clk ∧ (s.addSat off f n).cfg = s.cfg ∧ (s.addSat off f n).chk = s.chk ∧
    (s.addSat off f n).imgBit = s.imgBit ∧ (s.addSat off f n).store = s.store ∧ (s.addSat off f n).progd = s.progd ∧
    (s.addSat off f n).unread = s.unread ∧ (s.addSat off f n).otp = s.otp ∧ (s.addSat off f n).otpRun = s.otpRun ∧ (s.addSat
    off f n).power = s.power ∧ (s.addSat off f n).db = s.db ∧ (s.addSat off f n).host = s.host ∧ (s.addSat off f n).hostSeq
    = s.hostSeq ∧ (s.addSat off f n).hcqs = s.hcqs ∧ (s.addSat off f n).b2 = s.b2 ∧ (s.addSat off f n).park = s.park ∧
    (s.addSat off f n).unparkReq = s.unparkReq ∧ (s.addSat off f n).msixs = s.msixs ∧ (s.addSat off f n).pcieUp = s.pcieUp ∧
    (s.addSat off f n).mcMem = s.mcMem ∧ (s.addSat off f n).chn = s.chn ∧ (s.addSat off f n).core0 = s.core0 ∧ (s.addSat off
    f n).mcCount = s.mcCount ∧ (s.addSat off f n).kpr = s.kpr ∧ (s.addSat off f n).heldAcc = s.heldAcc ∧ (s.addSat off f
    n).hubPar = s.hubPar ∧ (s.addSat off f n).fresh = s.fresh ∧ (s.addSat off f n).out = s.out ∧ (s.addSat off f n).pending
    = s.pending := by
  and_intros <;> rfl

@[simp] theorem State.emit_fields (s : State) (e : OutEv) :
    (s.emit e).regs = s.regs ∧ (s.emit e).stv = s.stv ∧ (s.emit e).bank = s.bank ∧ (s.emit e).frames = s.frames ∧ (s.emit
    e).cells = s.cells ∧ (s.emit e).panes = s.panes ∧ (s.emit e).chans = s.chans ∧ (s.emit e).arrays = s.arrays ∧ (s.emit
    e).queues = s.queues ∧ (s.emit e).ports = s.ports ∧ (s.emit e).movers = s.movers ∧ (s.emit e).lvPar = s.lvPar ∧ (s.emit
    e).dies = s.dies ∧ (s.emit e).tbu = s.tbu ∧ (s.emit e).doms = s.doms ∧ (s.emit e).arms = s.arms ∧ (s.emit e).armedBy =
    s.armedBy ∧ (s.emit e).engs = s.engs ∧ (s.emit e).dm = s.dm ∧ (s.emit e).pmBad = s.pmBad ∧ (s.emit e).srcs = s.srcs ∧
    (s.emit e).inqs = s.inqs ∧ (s.emit e).worms = s.worms ∧ (s.emit e).lost = s.lost ∧ (s.emit e).turns = s.turns ∧ (s.emit
    e).tins = s.tins ∧ (s.emit e).owns = s.owns ∧ (s.emit e).selfCpl = s.selfCpl ∧ (s.emit e).fmSeq = s.fmSeq ∧ (s.emit
    e).fmOut = s.fmOut ∧ (s.emit e).outst = s.outst ∧ (s.emit e).quar = s.quar ∧ (s.emit e).tracked = s.tracked ∧ (s.emit
    e).answered = s.answered ∧ (s.emit e).uclLeft = s.uclLeft ∧ (s.emit e).uclHdr = s.uclHdr ∧ (s.emit e).uclOwed =
    s.uclOwed ∧ (s.emit e).credOff = s.credOff ∧ (s.emit e).ledger = s.ledger ∧ (s.emit e).stageBrd = s.stageBrd ∧ (s.emit
    e).parkBrd = s.parkBrd ∧ (s.emit e).lanes = s.lanes ∧ (s.emit e).hinges = s.hinges ∧ (s.emit e).leaves = s.leaves ∧
    (s.emit e).stages = s.stages ∧ (s.emit e).recalls = s.recalls ∧ (s.emit e).gsnap = s.gsnap ∧ (s.emit e).gsnapDue =
    s.gsnapDue ∧ (s.emit e).edgeTurn = s.edgeTurn ∧ (s.emit e).tickQ = s.tickQ ∧ (s.emit e).sd = s.sd ∧ (s.emit e).sdMiss =
    s.sdMiss ∧ (s.emit e).sdOp = s.sdOp ∧ (s.emit e).lkRecs = s.lkRecs ∧ (s.emit e).fm = s.fm ∧ (s.emit e).fmErr = s.fmErr ∧
    (s.emit e).ddrs = s.ddrs ∧ (s.emit e).pins = s.pins ∧ (s.emit e).fpins = s.fpins ∧ (s.emit e).outputs = s.outputs ∧
    (s.emit e).uarts = s.uarts ∧ (s.emit e).i2cs = s.i2cs ∧ (s.emit e).spis = s.spis ∧ (s.emit e).fans = s.fans ∧ (s.emit
    e).tap = s.tap ∧ (s.emit e).clk = s.clk ∧ (s.emit e).cfg = s.cfg ∧ (s.emit e).chk = s.chk ∧ (s.emit e).imgBit = s.imgBit
    ∧ (s.emit e).store = s.store ∧ (s.emit e).progd = s.progd ∧ (s.emit e).unread = s.unread ∧ (s.emit e).otp = s.otp ∧
    (s.emit e).otpRun = s.otpRun ∧ (s.emit e).power = s.power ∧ (s.emit e).db = s.db ∧ (s.emit e).host = s.host ∧ (s.emit
    e).hostSeq = s.hostSeq ∧ (s.emit e).hcqs = s.hcqs ∧ (s.emit e).b2 = s.b2 ∧ (s.emit e).park = s.park ∧ (s.emit
    e).unparkReq = s.unparkReq ∧ (s.emit e).msixs = s.msixs ∧ (s.emit e).pcieUp = s.pcieUp ∧ (s.emit e).mcMem = s.mcMem ∧
    (s.emit e).chn = s.chn ∧ (s.emit e).core0 = s.core0 ∧ (s.emit e).mcCount = s.mcCount ∧ (s.emit e).kpr = s.kpr ∧ (s.emit
    e).heldAcc = s.heldAcc ∧ (s.emit e).hubPar = s.hubPar ∧ (s.emit e).fresh = s.fresh ∧ (s.emit e).pending = s.pending := by
  and_intros <;> rfl

@[simp] theorem State.setStAt_fields (s : State) (c : ℕ) (off : ℕ) (v : HWord) :
    (s.setStAt c off v).regs = s.regs ∧ (s.setStAt c off v).bank = s.bank ∧ (s.setStAt c off v).frames = s.frames ∧
    (s.setStAt c off v).cells = s.cells ∧ (s.setStAt c off v).panes = s.panes ∧ (s.setStAt c off v).chans = s.chans ∧
    (s.setStAt c off v).arrays = s.arrays ∧ (s.setStAt c off v).queues = s.queues ∧ (s.setStAt c off v).ports = s.ports ∧
    (s.setStAt c off v).movers = s.movers ∧ (s.setStAt c off v).lvPar = s.lvPar ∧ (s.setStAt c off v).dies = s.dies ∧
    (s.setStAt c off v).tbu = s.tbu ∧ (s.setStAt c off v).doms = s.doms ∧ (s.setStAt c off v).arms = s.arms ∧ (s.setStAt c
    off v).armedBy = s.armedBy ∧ (s.setStAt c off v).engs = s.engs ∧ (s.setStAt c off v).dm = s.dm ∧ (s.setStAt c off
    v).pmBad = s.pmBad ∧ (s.setStAt c off v).srcs = s.srcs ∧ (s.setStAt c off v).inqs = s.inqs ∧ (s.setStAt c off v).worms =
    s.worms ∧ (s.setStAt c off v).lost = s.lost ∧ (s.setStAt c off v).turns = s.turns ∧ (s.setStAt c off v).tins = s.tins ∧
    (s.setStAt c off v).owns = s.owns ∧ (s.setStAt c off v).selfCpl = s.selfCpl ∧ (s.setStAt c off v).fmSeq = s.fmSeq ∧
    (s.setStAt c off v).fmOut = s.fmOut ∧ (s.setStAt c off v).outst = s.outst ∧ (s.setStAt c off v).quar = s.quar ∧
    (s.setStAt c off v).tracked = s.tracked ∧ (s.setStAt c off v).answered = s.answered ∧ (s.setStAt c off v).uclLeft =
    s.uclLeft ∧ (s.setStAt c off v).uclHdr = s.uclHdr ∧ (s.setStAt c off v).uclOwed = s.uclOwed ∧ (s.setStAt c off
    v).credOff = s.credOff ∧ (s.setStAt c off v).ledger = s.ledger ∧ (s.setStAt c off v).stageBrd = s.stageBrd ∧ (s.setStAt
    c off v).parkBrd = s.parkBrd ∧ (s.setStAt c off v).lanes = s.lanes ∧ (s.setStAt c off v).hinges = s.hinges ∧ (s.setStAt
    c off v).leaves = s.leaves ∧ (s.setStAt c off v).stages = s.stages ∧ (s.setStAt c off v).recalls = s.recalls ∧
    (s.setStAt c off v).gsnap = s.gsnap ∧ (s.setStAt c off v).gsnapDue = s.gsnapDue ∧ (s.setStAt c off v).edgeTurn =
    s.edgeTurn ∧ (s.setStAt c off v).tickQ = s.tickQ ∧ (s.setStAt c off v).sd = s.sd ∧ (s.setStAt c off v).sdMiss = s.sdMiss
    ∧ (s.setStAt c off v).sdOp = s.sdOp ∧ (s.setStAt c off v).lkRecs = s.lkRecs ∧ (s.setStAt c off v).fm = s.fm ∧ (s.setStAt
    c off v).fmErr = s.fmErr ∧ (s.setStAt c off v).ddrs = s.ddrs ∧ (s.setStAt c off v).pins = s.pins ∧ (s.setStAt c off
    v).fpins = s.fpins ∧ (s.setStAt c off v).outputs = s.outputs ∧ (s.setStAt c off v).uarts = s.uarts ∧ (s.setStAt c off
    v).i2cs = s.i2cs ∧ (s.setStAt c off v).spis = s.spis ∧ (s.setStAt c off v).fans = s.fans ∧ (s.setStAt c off v).tap =
    s.tap ∧ (s.setStAt c off v).clk = s.clk ∧ (s.setStAt c off v).cfg = s.cfg ∧ (s.setStAt c off v).chk = s.chk ∧ (s.setStAt
    c off v).imgBit = s.imgBit ∧ (s.setStAt c off v).store = s.store ∧ (s.setStAt c off v).progd = s.progd ∧ (s.setStAt c
    off v).unread = s.unread ∧ (s.setStAt c off v).otp = s.otp ∧ (s.setStAt c off v).otpRun = s.otpRun ∧ (s.setStAt c off
    v).power = s.power ∧ (s.setStAt c off v).db = s.db ∧ (s.setStAt c off v).host = s.host ∧ (s.setStAt c off v).hostSeq =
    s.hostSeq ∧ (s.setStAt c off v).hcqs = s.hcqs ∧ (s.setStAt c off v).b2 = s.b2 ∧ (s.setStAt c off v).park = s.park ∧
    (s.setStAt c off v).unparkReq = s.unparkReq ∧ (s.setStAt c off v).msixs = s.msixs ∧ (s.setStAt c off v).pcieUp =
    s.pcieUp ∧ (s.setStAt c off v).mcMem = s.mcMem ∧ (s.setStAt c off v).chn = s.chn ∧ (s.setStAt c off v).core0 = s.core0 ∧
    (s.setStAt c off v).mcCount = s.mcCount ∧ (s.setStAt c off v).kpr = s.kpr ∧ (s.setStAt c off v).heldAcc = s.heldAcc ∧
    (s.setStAt c off v).hubPar = s.hubPar ∧ (s.setStAt c off v).fresh = s.fresh ∧ (s.setStAt c off v).out = s.out ∧
    (s.setStAt c off v).pending = s.pending := by
  and_intros <;> rfl

@[simp] theorem State.flip_fields (s : State) (m : ℕ) :
    (s.flip m).regs = s.regs ∧ (s.flip m).stv = s.stv ∧ (s.flip m).frames = s.frames ∧ (s.flip m).cells = s.cells ∧ (s.flip
    m).panes = s.panes ∧ (s.flip m).chans = s.chans ∧ (s.flip m).arrays = s.arrays ∧ (s.flip m).queues = s.queues ∧ (s.flip
    m).ports = s.ports ∧ (s.flip m).movers = s.movers ∧ (s.flip m).lvPar = s.lvPar ∧ (s.flip m).dies = s.dies ∧ (s.flip
    m).tbu = s.tbu ∧ (s.flip m).doms = s.doms ∧ (s.flip m).arms = s.arms ∧ (s.flip m).armedBy = s.armedBy ∧ (s.flip m).engs
    = s.engs ∧ (s.flip m).dm = s.dm ∧ (s.flip m).pmBad = s.pmBad ∧ (s.flip m).srcs = s.srcs ∧ (s.flip m).inqs = s.inqs ∧
    (s.flip m).worms = s.worms ∧ (s.flip m).lost = s.lost ∧ (s.flip m).turns = s.turns ∧ (s.flip m).tins = s.tins ∧ (s.flip
    m).owns = s.owns ∧ (s.flip m).selfCpl = s.selfCpl ∧ (s.flip m).fmSeq = s.fmSeq ∧ (s.flip m).fmOut = s.fmOut ∧ (s.flip
    m).outst = s.outst ∧ (s.flip m).quar = s.quar ∧ (s.flip m).tracked = s.tracked ∧ (s.flip m).answered = s.answered ∧
    (s.flip m).uclLeft = s.uclLeft ∧ (s.flip m).uclHdr = s.uclHdr ∧ (s.flip m).uclOwed = s.uclOwed ∧ (s.flip m).credOff =
    s.credOff ∧ (s.flip m).ledger = s.ledger ∧ (s.flip m).stageBrd = s.stageBrd ∧ (s.flip m).parkBrd = s.parkBrd ∧ (s.flip
    m).lanes = s.lanes ∧ (s.flip m).hinges = s.hinges ∧ (s.flip m).leaves = s.leaves ∧ (s.flip m).stages = s.stages ∧
    (s.flip m).recalls = s.recalls ∧ (s.flip m).gsnap = s.gsnap ∧ (s.flip m).gsnapDue = s.gsnapDue ∧ (s.flip m).edgeTurn =
    s.edgeTurn ∧ (s.flip m).tickQ = s.tickQ ∧ (s.flip m).sd = s.sd ∧ (s.flip m).sdMiss = s.sdMiss ∧ (s.flip m).sdOp = s.sdOp
    ∧ (s.flip m).lkRecs = s.lkRecs ∧ (s.flip m).fm = s.fm ∧ (s.flip m).fmErr = s.fmErr ∧ (s.flip m).ddrs = s.ddrs ∧ (s.flip
    m).pins = s.pins ∧ (s.flip m).fpins = s.fpins ∧ (s.flip m).outputs = s.outputs ∧ (s.flip m).uarts = s.uarts ∧ (s.flip
    m).i2cs = s.i2cs ∧ (s.flip m).spis = s.spis ∧ (s.flip m).fans = s.fans ∧ (s.flip m).tap = s.tap ∧ (s.flip m).clk = s.clk
    ∧ (s.flip m).cfg = s.cfg ∧ (s.flip m).chk = s.chk ∧ (s.flip m).imgBit = s.imgBit ∧ (s.flip m).store = s.store ∧ (s.flip
    m).progd = s.progd ∧ (s.flip m).unread = s.unread ∧ (s.flip m).otp = s.otp ∧ (s.flip m).otpRun = s.otpRun ∧ (s.flip
    m).power = s.power ∧ (s.flip m).db = s.db ∧ (s.flip m).host = s.host ∧ (s.flip m).hostSeq = s.hostSeq ∧ (s.flip m).hcqs
    = s.hcqs ∧ (s.flip m).b2 = s.b2 ∧ (s.flip m).park = s.park ∧ (s.flip m).unparkReq = s.unparkReq ∧ (s.flip m).msixs =
    s.msixs ∧ (s.flip m).pcieUp = s.pcieUp ∧ (s.flip m).mcMem = s.mcMem ∧ (s.flip m).chn = s.chn ∧ (s.flip m).core0 =
    s.core0 ∧ (s.flip m).mcCount = s.mcCount ∧ (s.flip m).kpr = s.kpr ∧ (s.flip m).heldAcc = s.heldAcc ∧ (s.flip m).hubPar =
    s.hubPar ∧ (s.flip m).fresh = s.fresh ∧ (s.flip m).out = s.out ∧ (s.flip m).pending = s.pending := by
  and_intros <;> rfl

@[simp] theorem State.setCell_fields (s : State) (key : ℕ) (c : CellSt) :
    (s.setCell key c).regs = s.regs ∧ (s.setCell key c).stv = s.stv ∧ (s.setCell key c).bank = s.bank ∧ (s.setCell key
    c).frames = s.frames ∧ (s.setCell key c).panes = s.panes ∧ (s.setCell key c).chans = s.chans ∧ (s.setCell key c).arrays
    = s.arrays ∧ (s.setCell key c).queues = s.queues ∧ (s.setCell key c).ports = s.ports ∧ (s.setCell key c).movers =
    s.movers ∧ (s.setCell key c).lvPar = s.lvPar ∧ (s.setCell key c).dies = s.dies ∧ (s.setCell key c).tbu = s.tbu ∧
    (s.setCell key c).doms = s.doms ∧ (s.setCell key c).arms = s.arms ∧ (s.setCell key c).armedBy = s.armedBy ∧ (s.setCell
    key c).engs = s.engs ∧ (s.setCell key c).dm = s.dm ∧ (s.setCell key c).pmBad = s.pmBad ∧ (s.setCell key c).srcs = s.srcs
    ∧ (s.setCell key c).inqs = s.inqs ∧ (s.setCell key c).worms = s.worms ∧ (s.setCell key c).lost = s.lost ∧ (s.setCell key
    c).turns = s.turns ∧ (s.setCell key c).tins = s.tins ∧ (s.setCell key c).owns = s.owns ∧ (s.setCell key c).selfCpl =
    s.selfCpl ∧ (s.setCell key c).fmSeq = s.fmSeq ∧ (s.setCell key c).fmOut = s.fmOut ∧ (s.setCell key c).outst = s.outst ∧
    (s.setCell key c).quar = s.quar ∧ (s.setCell key c).tracked = s.tracked ∧ (s.setCell key c).answered = s.answered ∧
    (s.setCell key c).uclLeft = s.uclLeft ∧ (s.setCell key c).uclHdr = s.uclHdr ∧ (s.setCell key c).uclOwed = s.uclOwed ∧
    (s.setCell key c).credOff = s.credOff ∧ (s.setCell key c).ledger = s.ledger ∧ (s.setCell key c).stageBrd = s.stageBrd ∧
    (s.setCell key c).parkBrd = s.parkBrd ∧ (s.setCell key c).lanes = s.lanes ∧ (s.setCell key c).hinges = s.hinges ∧
    (s.setCell key c).leaves = s.leaves ∧ (s.setCell key c).stages = s.stages ∧ (s.setCell key c).recalls = s.recalls ∧
    (s.setCell key c).gsnap = s.gsnap ∧ (s.setCell key c).gsnapDue = s.gsnapDue ∧ (s.setCell key c).edgeTurn = s.edgeTurn ∧
    (s.setCell key c).tickQ = s.tickQ ∧ (s.setCell key c).sd = s.sd ∧ (s.setCell key c).sdMiss = s.sdMiss ∧ (s.setCell key
    c).sdOp = s.sdOp ∧ (s.setCell key c).lkRecs = s.lkRecs ∧ (s.setCell key c).fm = s.fm ∧ (s.setCell key c).fmErr = s.fmErr
    ∧ (s.setCell key c).ddrs = s.ddrs ∧ (s.setCell key c).pins = s.pins ∧ (s.setCell key c).fpins = s.fpins ∧ (s.setCell key
    c).outputs = s.outputs ∧ (s.setCell key c).uarts = s.uarts ∧ (s.setCell key c).i2cs = s.i2cs ∧ (s.setCell key c).spis =
    s.spis ∧ (s.setCell key c).fans = s.fans ∧ (s.setCell key c).tap = s.tap ∧ (s.setCell key c).clk = s.clk ∧ (s.setCell
    key c).cfg = s.cfg ∧ (s.setCell key c).chk = s.chk ∧ (s.setCell key c).imgBit = s.imgBit ∧ (s.setCell key c).store =
    s.store ∧ (s.setCell key c).progd = s.progd ∧ (s.setCell key c).unread = s.unread ∧ (s.setCell key c).otp = s.otp ∧
    (s.setCell key c).otpRun = s.otpRun ∧ (s.setCell key c).power = s.power ∧ (s.setCell key c).db = s.db ∧ (s.setCell key
    c).host = s.host ∧ (s.setCell key c).hostSeq = s.hostSeq ∧ (s.setCell key c).hcqs = s.hcqs ∧ (s.setCell key c).b2 = s.b2
    ∧ (s.setCell key c).park = s.park ∧ (s.setCell key c).unparkReq = s.unparkReq ∧ (s.setCell key c).msixs = s.msixs ∧
    (s.setCell key c).pcieUp = s.pcieUp ∧ (s.setCell key c).mcMem = s.mcMem ∧ (s.setCell key c).chn = s.chn ∧ (s.setCell key
    c).core0 = s.core0 ∧ (s.setCell key c).mcCount = s.mcCount ∧ (s.setCell key c).kpr = s.kpr ∧ (s.setCell key c).heldAcc =
    s.heldAcc ∧ (s.setCell key c).hubPar = s.hubPar ∧ (s.setCell key c).fresh = s.fresh ∧ (s.setCell key c).out = s.out ∧
    (s.setCell key c).pending = s.pending := by
  and_intros <;> rfl

@[simp] theorem State.setPane_fields (s : State) (p : ℕ) (x : PaneSt) :
    (s.setPane p x).regs = s.regs ∧ (s.setPane p x).stv = s.stv ∧ (s.setPane p x).bank = s.bank ∧ (s.setPane p x).frames =
    s.frames ∧ (s.setPane p x).cells = s.cells ∧ (s.setPane p x).chans = s.chans ∧ (s.setPane p x).arrays = s.arrays ∧
    (s.setPane p x).queues = s.queues ∧ (s.setPane p x).ports = s.ports ∧ (s.setPane p x).movers = s.movers ∧ (s.setPane p
    x).lvPar = s.lvPar ∧ (s.setPane p x).dies = s.dies ∧ (s.setPane p x).tbu = s.tbu ∧ (s.setPane p x).doms = s.doms ∧
    (s.setPane p x).arms = s.arms ∧ (s.setPane p x).armedBy = s.armedBy ∧ (s.setPane p x).engs = s.engs ∧ (s.setPane p x).dm
    = s.dm ∧ (s.setPane p x).pmBad = s.pmBad ∧ (s.setPane p x).srcs = s.srcs ∧ (s.setPane p x).inqs = s.inqs ∧ (s.setPane p
    x).worms = s.worms ∧ (s.setPane p x).lost = s.lost ∧ (s.setPane p x).turns = s.turns ∧ (s.setPane p x).tins = s.tins ∧
    (s.setPane p x).owns = s.owns ∧ (s.setPane p x).selfCpl = s.selfCpl ∧ (s.setPane p x).fmSeq = s.fmSeq ∧ (s.setPane p
    x).fmOut = s.fmOut ∧ (s.setPane p x).outst = s.outst ∧ (s.setPane p x).quar = s.quar ∧ (s.setPane p x).tracked =
    s.tracked ∧ (s.setPane p x).answered = s.answered ∧ (s.setPane p x).uclLeft = s.uclLeft ∧ (s.setPane p x).uclHdr =
    s.uclHdr ∧ (s.setPane p x).uclOwed = s.uclOwed ∧ (s.setPane p x).credOff = s.credOff ∧ (s.setPane p x).ledger = s.ledger
    ∧ (s.setPane p x).stageBrd = s.stageBrd ∧ (s.setPane p x).parkBrd = s.parkBrd ∧ (s.setPane p x).lanes = s.lanes ∧
    (s.setPane p x).hinges = s.hinges ∧ (s.setPane p x).leaves = s.leaves ∧ (s.setPane p x).stages = s.stages ∧ (s.setPane p
    x).recalls = s.recalls ∧ (s.setPane p x).gsnap = s.gsnap ∧ (s.setPane p x).gsnapDue = s.gsnapDue ∧ (s.setPane p
    x).edgeTurn = s.edgeTurn ∧ (s.setPane p x).tickQ = s.tickQ ∧ (s.setPane p x).sd = s.sd ∧ (s.setPane p x).sdMiss =
    s.sdMiss ∧ (s.setPane p x).sdOp = s.sdOp ∧ (s.setPane p x).lkRecs = s.lkRecs ∧ (s.setPane p x).fm = s.fm ∧ (s.setPane p
    x).fmErr = s.fmErr ∧ (s.setPane p x).ddrs = s.ddrs ∧ (s.setPane p x).pins = s.pins ∧ (s.setPane p x).fpins = s.fpins ∧
    (s.setPane p x).outputs = s.outputs ∧ (s.setPane p x).uarts = s.uarts ∧ (s.setPane p x).i2cs = s.i2cs ∧ (s.setPane p
    x).spis = s.spis ∧ (s.setPane p x).fans = s.fans ∧ (s.setPane p x).tap = s.tap ∧ (s.setPane p x).clk = s.clk ∧
    (s.setPane p x).cfg = s.cfg ∧ (s.setPane p x).chk = s.chk ∧ (s.setPane p x).imgBit = s.imgBit ∧ (s.setPane p x).store =
    s.store ∧ (s.setPane p x).progd = s.progd ∧ (s.setPane p x).unread = s.unread ∧ (s.setPane p x).otp = s.otp ∧ (s.setPane
    p x).otpRun = s.otpRun ∧ (s.setPane p x).power = s.power ∧ (s.setPane p x).db = s.db ∧ (s.setPane p x).host = s.host ∧
    (s.setPane p x).hostSeq = s.hostSeq ∧ (s.setPane p x).hcqs = s.hcqs ∧ (s.setPane p x).b2 = s.b2 ∧ (s.setPane p x).park =
    s.park ∧ (s.setPane p x).unparkReq = s.unparkReq ∧ (s.setPane p x).msixs = s.msixs ∧ (s.setPane p x).pcieUp = s.pcieUp ∧
    (s.setPane p x).mcMem = s.mcMem ∧ (s.setPane p x).chn = s.chn ∧ (s.setPane p x).core0 = s.core0 ∧ (s.setPane p
    x).mcCount = s.mcCount ∧ (s.setPane p x).kpr = s.kpr ∧ (s.setPane p x).heldAcc = s.heldAcc ∧ (s.setPane p x).hubPar =
    s.hubPar ∧ (s.setPane p x).fresh = s.fresh ∧ (s.setPane p x).out = s.out ∧ (s.setPane p x).pending = s.pending := by
  and_intros <;> rfl

@[simp] theorem State.setMover_fields (s : State) (blk : ℕ) (x : MoverSt) :
    (s.setMover blk x).regs = s.regs ∧ (s.setMover blk x).stv = s.stv ∧ (s.setMover blk x).bank = s.bank ∧ (s.setMover blk
    x).frames = s.frames ∧ (s.setMover blk x).cells = s.cells ∧ (s.setMover blk x).panes = s.panes ∧ (s.setMover blk
    x).chans = s.chans ∧ (s.setMover blk x).arrays = s.arrays ∧ (s.setMover blk x).queues = s.queues ∧ (s.setMover blk
    x).ports = s.ports ∧ (s.setMover blk x).lvPar = s.lvPar ∧ (s.setMover blk x).dies = s.dies ∧ (s.setMover blk x).tbu =
    s.tbu ∧ (s.setMover blk x).doms = s.doms ∧ (s.setMover blk x).arms = s.arms ∧ (s.setMover blk x).armedBy = s.armedBy ∧
    (s.setMover blk x).engs = s.engs ∧ (s.setMover blk x).dm = s.dm ∧ (s.setMover blk x).pmBad = s.pmBad ∧ (s.setMover blk
    x).srcs = s.srcs ∧ (s.setMover blk x).inqs = s.inqs ∧ (s.setMover blk x).worms = s.worms ∧ (s.setMover blk x).lost =
    s.lost ∧ (s.setMover blk x).turns = s.turns ∧ (s.setMover blk x).tins = s.tins ∧ (s.setMover blk x).owns = s.owns ∧
    (s.setMover blk x).selfCpl = s.selfCpl ∧ (s.setMover blk x).fmSeq = s.fmSeq ∧ (s.setMover blk x).fmOut = s.fmOut ∧
    (s.setMover blk x).outst = s.outst ∧ (s.setMover blk x).quar = s.quar ∧ (s.setMover blk x).tracked = s.tracked ∧
    (s.setMover blk x).answered = s.answered ∧ (s.setMover blk x).uclLeft = s.uclLeft ∧ (s.setMover blk x).uclHdr = s.uclHdr
    ∧ (s.setMover blk x).uclOwed = s.uclOwed ∧ (s.setMover blk x).credOff = s.credOff ∧ (s.setMover blk x).ledger = s.ledger
    ∧ (s.setMover blk x).stageBrd = s.stageBrd ∧ (s.setMover blk x).parkBrd = s.parkBrd ∧ (s.setMover blk x).lanes = s.lanes
    ∧ (s.setMover blk x).hinges = s.hinges ∧ (s.setMover blk x).leaves = s.leaves ∧ (s.setMover blk x).stages = s.stages ∧
    (s.setMover blk x).recalls = s.recalls ∧ (s.setMover blk x).gsnap = s.gsnap ∧ (s.setMover blk x).gsnapDue = s.gsnapDue ∧
    (s.setMover blk x).edgeTurn = s.edgeTurn ∧ (s.setMover blk x).tickQ = s.tickQ ∧ (s.setMover blk x).sd = s.sd ∧
    (s.setMover blk x).sdMiss = s.sdMiss ∧ (s.setMover blk x).sdOp = s.sdOp ∧ (s.setMover blk x).lkRecs = s.lkRecs ∧
    (s.setMover blk x).fm = s.fm ∧ (s.setMover blk x).fmErr = s.fmErr ∧ (s.setMover blk x).ddrs = s.ddrs ∧ (s.setMover blk
    x).pins = s.pins ∧ (s.setMover blk x).fpins = s.fpins ∧ (s.setMover blk x).outputs = s.outputs ∧ (s.setMover blk
    x).uarts = s.uarts ∧ (s.setMover blk x).i2cs = s.i2cs ∧ (s.setMover blk x).spis = s.spis ∧ (s.setMover blk x).fans =
    s.fans ∧ (s.setMover blk x).tap = s.tap ∧ (s.setMover blk x).clk = s.clk ∧ (s.setMover blk x).cfg = s.cfg ∧ (s.setMover
    blk x).chk = s.chk ∧ (s.setMover blk x).imgBit = s.imgBit ∧ (s.setMover blk x).store = s.store ∧ (s.setMover blk
    x).progd = s.progd ∧ (s.setMover blk x).unread = s.unread ∧ (s.setMover blk x).otp = s.otp ∧ (s.setMover blk x).otpRun =
    s.otpRun ∧ (s.setMover blk x).power = s.power ∧ (s.setMover blk x).db = s.db ∧ (s.setMover blk x).host = s.host ∧
    (s.setMover blk x).hostSeq = s.hostSeq ∧ (s.setMover blk x).hcqs = s.hcqs ∧ (s.setMover blk x).b2 = s.b2 ∧ (s.setMover
    blk x).park = s.park ∧ (s.setMover blk x).unparkReq = s.unparkReq ∧ (s.setMover blk x).msixs = s.msixs ∧ (s.setMover blk
    x).pcieUp = s.pcieUp ∧ (s.setMover blk x).mcMem = s.mcMem ∧ (s.setMover blk x).chn = s.chn ∧ (s.setMover blk x).core0 =
    s.core0 ∧ (s.setMover blk x).mcCount = s.mcCount ∧ (s.setMover blk x).kpr = s.kpr ∧ (s.setMover blk x).heldAcc =
    s.heldAcc ∧ (s.setMover blk x).hubPar = s.hubPar ∧ (s.setMover blk x).fresh = s.fresh ∧ (s.setMover blk x).out = s.out ∧
    (s.setMover blk x).pending = s.pending := by
  and_intros <;> rfl

@[simp] theorem State.setChan_fields (s : State) (pane : ℕ) (k : ℕ) (x : ChanSt) :
    (s.setChan pane k x).regs = s.regs ∧ (s.setChan pane k x).stv = s.stv ∧ (s.setChan pane k x).bank = s.bank ∧ (s.setChan
    pane k x).frames = s.frames ∧ (s.setChan pane k x).cells = s.cells ∧ (s.setChan pane k x).panes = s.panes ∧ (s.setChan
    pane k x).arrays = s.arrays ∧ (s.setChan pane k x).queues = s.queues ∧ (s.setChan pane k x).ports = s.ports ∧ (s.setChan
    pane k x).movers = s.movers ∧ (s.setChan pane k x).lvPar = s.lvPar ∧ (s.setChan pane k x).dies = s.dies ∧ (s.setChan
    pane k x).tbu = s.tbu ∧ (s.setChan pane k x).doms = s.doms ∧ (s.setChan pane k x).arms = s.arms ∧ (s.setChan pane k
    x).armedBy = s.armedBy ∧ (s.setChan pane k x).engs = s.engs ∧ (s.setChan pane k x).dm = s.dm ∧ (s.setChan pane k
    x).pmBad = s.pmBad ∧ (s.setChan pane k x).srcs = s.srcs ∧ (s.setChan pane k x).inqs = s.inqs ∧ (s.setChan pane k
    x).worms = s.worms ∧ (s.setChan pane k x).lost = s.lost ∧ (s.setChan pane k x).turns = s.turns ∧ (s.setChan pane k
    x).tins = s.tins ∧ (s.setChan pane k x).owns = s.owns ∧ (s.setChan pane k x).selfCpl = s.selfCpl ∧ (s.setChan pane k
    x).fmSeq = s.fmSeq ∧ (s.setChan pane k x).fmOut = s.fmOut ∧ (s.setChan pane k x).outst = s.outst ∧ (s.setChan pane k
    x).quar = s.quar ∧ (s.setChan pane k x).tracked = s.tracked ∧ (s.setChan pane k x).answered = s.answered ∧ (s.setChan
    pane k x).uclLeft = s.uclLeft ∧ (s.setChan pane k x).uclHdr = s.uclHdr ∧ (s.setChan pane k x).uclOwed = s.uclOwed ∧
    (s.setChan pane k x).credOff = s.credOff ∧ (s.setChan pane k x).ledger = s.ledger ∧ (s.setChan pane k x).stageBrd =
    s.stageBrd ∧ (s.setChan pane k x).parkBrd = s.parkBrd ∧ (s.setChan pane k x).lanes = s.lanes ∧ (s.setChan pane k
    x).hinges = s.hinges ∧ (s.setChan pane k x).leaves = s.leaves ∧ (s.setChan pane k x).stages = s.stages ∧ (s.setChan pane
    k x).recalls = s.recalls ∧ (s.setChan pane k x).gsnap = s.gsnap ∧ (s.setChan pane k x).gsnapDue = s.gsnapDue ∧
    (s.setChan pane k x).edgeTurn = s.edgeTurn ∧ (s.setChan pane k x).tickQ = s.tickQ ∧ (s.setChan pane k x).sd = s.sd ∧
    (s.setChan pane k x).sdMiss = s.sdMiss ∧ (s.setChan pane k x).sdOp = s.sdOp ∧ (s.setChan pane k x).lkRecs = s.lkRecs ∧
    (s.setChan pane k x).fm = s.fm ∧ (s.setChan pane k x).fmErr = s.fmErr ∧ (s.setChan pane k x).ddrs = s.ddrs ∧ (s.setChan
    pane k x).pins = s.pins ∧ (s.setChan pane k x).fpins = s.fpins ∧ (s.setChan pane k x).outputs = s.outputs ∧ (s.setChan
    pane k x).uarts = s.uarts ∧ (s.setChan pane k x).i2cs = s.i2cs ∧ (s.setChan pane k x).spis = s.spis ∧ (s.setChan pane k
    x).fans = s.fans ∧ (s.setChan pane k x).tap = s.tap ∧ (s.setChan pane k x).clk = s.clk ∧ (s.setChan pane k x).cfg =
    s.cfg ∧ (s.setChan pane k x).chk = s.chk ∧ (s.setChan pane k x).imgBit = s.imgBit ∧ (s.setChan pane k x).store = s.store
    ∧ (s.setChan pane k x).progd = s.progd ∧ (s.setChan pane k x).unread = s.unread ∧ (s.setChan pane k x).otp = s.otp ∧
    (s.setChan pane k x).otpRun = s.otpRun ∧ (s.setChan pane k x).power = s.power ∧ (s.setChan pane k x).db = s.db ∧
    (s.setChan pane k x).host = s.host ∧ (s.setChan pane k x).hostSeq = s.hostSeq ∧ (s.setChan pane k x).hcqs = s.hcqs ∧
    (s.setChan pane k x).b2 = s.b2 ∧ (s.setChan pane k x).park = s.park ∧ (s.setChan pane k x).unparkReq = s.unparkReq ∧
    (s.setChan pane k x).msixs = s.msixs ∧ (s.setChan pane k x).pcieUp = s.pcieUp ∧ (s.setChan pane k x).mcMem = s.mcMem ∧
    (s.setChan pane k x).chn = s.chn ∧ (s.setChan pane k x).core0 = s.core0 ∧ (s.setChan pane k x).mcCount = s.mcCount ∧
    (s.setChan pane k x).kpr = s.kpr ∧ (s.setChan pane k x).heldAcc = s.heldAcc ∧ (s.setChan pane k x).hubPar = s.hubPar ∧
    (s.setChan pane k x).fresh = s.fresh ∧ (s.setChan pane k x).out = s.out ∧ (s.setChan pane k x).pending = s.pending := by
  and_intros <;> rfl

@[simp] theorem State.setQueue_fields (s : State) (blk : ℕ) (q : ℕ) (x : QueueSt) :
    (s.setQueue blk q x).regs = s.regs ∧ (s.setQueue blk q x).stv = s.stv ∧ (s.setQueue blk q x).bank = s.bank ∧ (s.setQueue
    blk q x).frames = s.frames ∧ (s.setQueue blk q x).cells = s.cells ∧ (s.setQueue blk q x).panes = s.panes ∧ (s.setQueue
    blk q x).chans = s.chans ∧ (s.setQueue blk q x).arrays = s.arrays ∧ (s.setQueue blk q x).ports = s.ports ∧ (s.setQueue
    blk q x).movers = s.movers ∧ (s.setQueue blk q x).lvPar = s.lvPar ∧ (s.setQueue blk q x).dies = s.dies ∧ (s.setQueue blk
    q x).tbu = s.tbu ∧ (s.setQueue blk q x).doms = s.doms ∧ (s.setQueue blk q x).arms = s.arms ∧ (s.setQueue blk q
    x).armedBy = s.armedBy ∧ (s.setQueue blk q x).engs = s.engs ∧ (s.setQueue blk q x).dm = s.dm ∧ (s.setQueue blk q
    x).pmBad = s.pmBad ∧ (s.setQueue blk q x).srcs = s.srcs ∧ (s.setQueue blk q x).inqs = s.inqs ∧ (s.setQueue blk q
    x).worms = s.worms ∧ (s.setQueue blk q x).lost = s.lost ∧ (s.setQueue blk q x).turns = s.turns ∧ (s.setQueue blk q
    x).tins = s.tins ∧ (s.setQueue blk q x).owns = s.owns ∧ (s.setQueue blk q x).selfCpl = s.selfCpl ∧ (s.setQueue blk q
    x).fmSeq = s.fmSeq ∧ (s.setQueue blk q x).fmOut = s.fmOut ∧ (s.setQueue blk q x).outst = s.outst ∧ (s.setQueue blk q
    x).quar = s.quar ∧ (s.setQueue blk q x).tracked = s.tracked ∧ (s.setQueue blk q x).answered = s.answered ∧ (s.setQueue
    blk q x).uclLeft = s.uclLeft ∧ (s.setQueue blk q x).uclHdr = s.uclHdr ∧ (s.setQueue blk q x).uclOwed = s.uclOwed ∧
    (s.setQueue blk q x).credOff = s.credOff ∧ (s.setQueue blk q x).ledger = s.ledger ∧ (s.setQueue blk q x).stageBrd =
    s.stageBrd ∧ (s.setQueue blk q x).parkBrd = s.parkBrd ∧ (s.setQueue blk q x).lanes = s.lanes ∧ (s.setQueue blk q
    x).hinges = s.hinges ∧ (s.setQueue blk q x).leaves = s.leaves ∧ (s.setQueue blk q x).stages = s.stages ∧ (s.setQueue blk
    q x).recalls = s.recalls ∧ (s.setQueue blk q x).gsnap = s.gsnap ∧ (s.setQueue blk q x).gsnapDue = s.gsnapDue ∧
    (s.setQueue blk q x).edgeTurn = s.edgeTurn ∧ (s.setQueue blk q x).tickQ = s.tickQ ∧ (s.setQueue blk q x).sd = s.sd ∧
    (s.setQueue blk q x).sdMiss = s.sdMiss ∧ (s.setQueue blk q x).sdOp = s.sdOp ∧ (s.setQueue blk q x).lkRecs = s.lkRecs ∧
    (s.setQueue blk q x).fm = s.fm ∧ (s.setQueue blk q x).fmErr = s.fmErr ∧ (s.setQueue blk q x).ddrs = s.ddrs ∧ (s.setQueue
    blk q x).pins = s.pins ∧ (s.setQueue blk q x).fpins = s.fpins ∧ (s.setQueue blk q x).outputs = s.outputs ∧ (s.setQueue
    blk q x).uarts = s.uarts ∧ (s.setQueue blk q x).i2cs = s.i2cs ∧ (s.setQueue blk q x).spis = s.spis ∧ (s.setQueue blk q
    x).fans = s.fans ∧ (s.setQueue blk q x).tap = s.tap ∧ (s.setQueue blk q x).clk = s.clk ∧ (s.setQueue blk q x).cfg =
    s.cfg ∧ (s.setQueue blk q x).chk = s.chk ∧ (s.setQueue blk q x).imgBit = s.imgBit ∧ (s.setQueue blk q x).store = s.store
    ∧ (s.setQueue blk q x).progd = s.progd ∧ (s.setQueue blk q x).unread = s.unread ∧ (s.setQueue blk q x).otp = s.otp ∧
    (s.setQueue blk q x).otpRun = s.otpRun ∧ (s.setQueue blk q x).power = s.power ∧ (s.setQueue blk q x).db = s.db ∧
    (s.setQueue blk q x).host = s.host ∧ (s.setQueue blk q x).hostSeq = s.hostSeq ∧ (s.setQueue blk q x).hcqs = s.hcqs ∧
    (s.setQueue blk q x).b2 = s.b2 ∧ (s.setQueue blk q x).park = s.park ∧ (s.setQueue blk q x).unparkReq = s.unparkReq ∧
    (s.setQueue blk q x).msixs = s.msixs ∧ (s.setQueue blk q x).pcieUp = s.pcieUp ∧ (s.setQueue blk q x).mcMem = s.mcMem ∧
    (s.setQueue blk q x).chn = s.chn ∧ (s.setQueue blk q x).core0 = s.core0 ∧ (s.setQueue blk q x).mcCount = s.mcCount ∧
    (s.setQueue blk q x).kpr = s.kpr ∧ (s.setQueue blk q x).heldAcc = s.heldAcc ∧ (s.setQueue blk q x).hubPar = s.hubPar ∧
    (s.setQueue blk q x).fresh = s.fresh ∧ (s.setQueue blk q x).out = s.out ∧ (s.setQueue blk q x).pending = s.pending := by
  and_intros <;> rfl

@[simp] theorem State.setEntry_fields (s : State) (blk : ℕ) (a : ℕ) (x : Entry) :
    (s.setEntry blk a x).regs = s.regs ∧ (s.setEntry blk a x).stv = s.stv ∧ (s.setEntry blk a x).bank = s.bank ∧ (s.setEntry
    blk a x).frames = s.frames ∧ (s.setEntry blk a x).cells = s.cells ∧ (s.setEntry blk a x).panes = s.panes ∧ (s.setEntry
    blk a x).chans = s.chans ∧ (s.setEntry blk a x).queues = s.queues ∧ (s.setEntry blk a x).ports = s.ports ∧ (s.setEntry
    blk a x).movers = s.movers ∧ (s.setEntry blk a x).lvPar = s.lvPar ∧ (s.setEntry blk a x).dies = s.dies ∧ (s.setEntry blk
    a x).tbu = s.tbu ∧ (s.setEntry blk a x).doms = s.doms ∧ (s.setEntry blk a x).arms = s.arms ∧ (s.setEntry blk a
    x).armedBy = s.armedBy ∧ (s.setEntry blk a x).engs = s.engs ∧ (s.setEntry blk a x).dm = s.dm ∧ (s.setEntry blk a
    x).pmBad = s.pmBad ∧ (s.setEntry blk a x).srcs = s.srcs ∧ (s.setEntry blk a x).inqs = s.inqs ∧ (s.setEntry blk a
    x).worms = s.worms ∧ (s.setEntry blk a x).lost = s.lost ∧ (s.setEntry blk a x).turns = s.turns ∧ (s.setEntry blk a
    x).tins = s.tins ∧ (s.setEntry blk a x).owns = s.owns ∧ (s.setEntry blk a x).selfCpl = s.selfCpl ∧ (s.setEntry blk a
    x).fmSeq = s.fmSeq ∧ (s.setEntry blk a x).fmOut = s.fmOut ∧ (s.setEntry blk a x).outst = s.outst ∧ (s.setEntry blk a
    x).quar = s.quar ∧ (s.setEntry blk a x).tracked = s.tracked ∧ (s.setEntry blk a x).answered = s.answered ∧ (s.setEntry
    blk a x).uclLeft = s.uclLeft ∧ (s.setEntry blk a x).uclHdr = s.uclHdr ∧ (s.setEntry blk a x).uclOwed = s.uclOwed ∧
    (s.setEntry blk a x).credOff = s.credOff ∧ (s.setEntry blk a x).ledger = s.ledger ∧ (s.setEntry blk a x).stageBrd =
    s.stageBrd ∧ (s.setEntry blk a x).parkBrd = s.parkBrd ∧ (s.setEntry blk a x).lanes = s.lanes ∧ (s.setEntry blk a
    x).hinges = s.hinges ∧ (s.setEntry blk a x).leaves = s.leaves ∧ (s.setEntry blk a x).stages = s.stages ∧ (s.setEntry blk
    a x).recalls = s.recalls ∧ (s.setEntry blk a x).gsnap = s.gsnap ∧ (s.setEntry blk a x).gsnapDue = s.gsnapDue ∧
    (s.setEntry blk a x).edgeTurn = s.edgeTurn ∧ (s.setEntry blk a x).tickQ = s.tickQ ∧ (s.setEntry blk a x).sd = s.sd ∧
    (s.setEntry blk a x).sdMiss = s.sdMiss ∧ (s.setEntry blk a x).sdOp = s.sdOp ∧ (s.setEntry blk a x).lkRecs = s.lkRecs ∧
    (s.setEntry blk a x).fm = s.fm ∧ (s.setEntry blk a x).fmErr = s.fmErr ∧ (s.setEntry blk a x).ddrs = s.ddrs ∧ (s.setEntry
    blk a x).pins = s.pins ∧ (s.setEntry blk a x).fpins = s.fpins ∧ (s.setEntry blk a x).outputs = s.outputs ∧ (s.setEntry
    blk a x).uarts = s.uarts ∧ (s.setEntry blk a x).i2cs = s.i2cs ∧ (s.setEntry blk a x).spis = s.spis ∧ (s.setEntry blk a
    x).fans = s.fans ∧ (s.setEntry blk a x).tap = s.tap ∧ (s.setEntry blk a x).clk = s.clk ∧ (s.setEntry blk a x).cfg =
    s.cfg ∧ (s.setEntry blk a x).chk = s.chk ∧ (s.setEntry blk a x).imgBit = s.imgBit ∧ (s.setEntry blk a x).store = s.store
    ∧ (s.setEntry blk a x).progd = s.progd ∧ (s.setEntry blk a x).unread = s.unread ∧ (s.setEntry blk a x).otp = s.otp ∧
    (s.setEntry blk a x).otpRun = s.otpRun ∧ (s.setEntry blk a x).power = s.power ∧ (s.setEntry blk a x).db = s.db ∧
    (s.setEntry blk a x).host = s.host ∧ (s.setEntry blk a x).hostSeq = s.hostSeq ∧ (s.setEntry blk a x).hcqs = s.hcqs ∧
    (s.setEntry blk a x).b2 = s.b2 ∧ (s.setEntry blk a x).park = s.park ∧ (s.setEntry blk a x).unparkReq = s.unparkReq ∧
    (s.setEntry blk a x).msixs = s.msixs ∧ (s.setEntry blk a x).pcieUp = s.pcieUp ∧ (s.setEntry blk a x).mcMem = s.mcMem ∧
    (s.setEntry blk a x).chn = s.chn ∧ (s.setEntry blk a x).core0 = s.core0 ∧ (s.setEntry blk a x).mcCount = s.mcCount ∧
    (s.setEntry blk a x).kpr = s.kpr ∧ (s.setEntry blk a x).heldAcc = s.heldAcc ∧ (s.setEntry blk a x).hubPar = s.hubPar ∧
    (s.setEntry blk a x).fresh = s.fresh ∧ (s.setEntry blk a x).out = s.out ∧ (s.setEntry blk a x).pending = s.pending := by
  and_intros <;> rfl

@[simp] theorem State.setPort_fields (s : State) (blk : ℕ) (i : ℕ) (x : PortSt) :
    (s.setPort blk i x).regs = s.regs ∧ (s.setPort blk i x).stv = s.stv ∧ (s.setPort blk i x).bank = s.bank ∧ (s.setPort blk
    i x).frames = s.frames ∧ (s.setPort blk i x).cells = s.cells ∧ (s.setPort blk i x).panes = s.panes ∧ (s.setPort blk i
    x).chans = s.chans ∧ (s.setPort blk i x).arrays = s.arrays ∧ (s.setPort blk i x).queues = s.queues ∧ (s.setPort blk i
    x).movers = s.movers ∧ (s.setPort blk i x).lvPar = s.lvPar ∧ (s.setPort blk i x).dies = s.dies ∧ (s.setPort blk i x).tbu
    = s.tbu ∧ (s.setPort blk i x).doms = s.doms ∧ (s.setPort blk i x).arms = s.arms ∧ (s.setPort blk i x).armedBy =
    s.armedBy ∧ (s.setPort blk i x).engs = s.engs ∧ (s.setPort blk i x).dm = s.dm ∧ (s.setPort blk i x).pmBad = s.pmBad ∧
    (s.setPort blk i x).srcs = s.srcs ∧ (s.setPort blk i x).inqs = s.inqs ∧ (s.setPort blk i x).worms = s.worms ∧ (s.setPort
    blk i x).lost = s.lost ∧ (s.setPort blk i x).turns = s.turns ∧ (s.setPort blk i x).tins = s.tins ∧ (s.setPort blk i
    x).owns = s.owns ∧ (s.setPort blk i x).selfCpl = s.selfCpl ∧ (s.setPort blk i x).fmSeq = s.fmSeq ∧ (s.setPort blk i
    x).fmOut = s.fmOut ∧ (s.setPort blk i x).outst = s.outst ∧ (s.setPort blk i x).quar = s.quar ∧ (s.setPort blk i
    x).tracked = s.tracked ∧ (s.setPort blk i x).answered = s.answered ∧ (s.setPort blk i x).uclLeft = s.uclLeft ∧
    (s.setPort blk i x).uclHdr = s.uclHdr ∧ (s.setPort blk i x).uclOwed = s.uclOwed ∧ (s.setPort blk i x).credOff =
    s.credOff ∧ (s.setPort blk i x).ledger = s.ledger ∧ (s.setPort blk i x).stageBrd = s.stageBrd ∧ (s.setPort blk i
    x).parkBrd = s.parkBrd ∧ (s.setPort blk i x).lanes = s.lanes ∧ (s.setPort blk i x).hinges = s.hinges ∧ (s.setPort blk i
    x).leaves = s.leaves ∧ (s.setPort blk i x).stages = s.stages ∧ (s.setPort blk i x).recalls = s.recalls ∧ (s.setPort blk
    i x).gsnap = s.gsnap ∧ (s.setPort blk i x).gsnapDue = s.gsnapDue ∧ (s.setPort blk i x).edgeTurn = s.edgeTurn ∧
    (s.setPort blk i x).tickQ = s.tickQ ∧ (s.setPort blk i x).sd = s.sd ∧ (s.setPort blk i x).sdMiss = s.sdMiss ∧ (s.setPort
    blk i x).sdOp = s.sdOp ∧ (s.setPort blk i x).lkRecs = s.lkRecs ∧ (s.setPort blk i x).fm = s.fm ∧ (s.setPort blk i
    x).fmErr = s.fmErr ∧ (s.setPort blk i x).ddrs = s.ddrs ∧ (s.setPort blk i x).pins = s.pins ∧ (s.setPort blk i x).fpins =
    s.fpins ∧ (s.setPort blk i x).outputs = s.outputs ∧ (s.setPort blk i x).uarts = s.uarts ∧ (s.setPort blk i x).i2cs =
    s.i2cs ∧ (s.setPort blk i x).spis = s.spis ∧ (s.setPort blk i x).fans = s.fans ∧ (s.setPort blk i x).tap = s.tap ∧
    (s.setPort blk i x).clk = s.clk ∧ (s.setPort blk i x).cfg = s.cfg ∧ (s.setPort blk i x).chk = s.chk ∧ (s.setPort blk i
    x).imgBit = s.imgBit ∧ (s.setPort blk i x).store = s.store ∧ (s.setPort blk i x).progd = s.progd ∧ (s.setPort blk i
    x).unread = s.unread ∧ (s.setPort blk i x).otp = s.otp ∧ (s.setPort blk i x).otpRun = s.otpRun ∧ (s.setPort blk i
    x).power = s.power ∧ (s.setPort blk i x).db = s.db ∧ (s.setPort blk i x).host = s.host ∧ (s.setPort blk i x).hostSeq =
    s.hostSeq ∧ (s.setPort blk i x).hcqs = s.hcqs ∧ (s.setPort blk i x).b2 = s.b2 ∧ (s.setPort blk i x).park = s.park ∧
    (s.setPort blk i x).unparkReq = s.unparkReq ∧ (s.setPort blk i x).msixs = s.msixs ∧ (s.setPort blk i x).pcieUp =
    s.pcieUp ∧ (s.setPort blk i x).mcMem = s.mcMem ∧ (s.setPort blk i x).chn = s.chn ∧ (s.setPort blk i x).core0 = s.core0 ∧
    (s.setPort blk i x).mcCount = s.mcCount ∧ (s.setPort blk i x).kpr = s.kpr ∧ (s.setPort blk i x).heldAcc = s.heldAcc ∧
    (s.setPort blk i x).hubPar = s.hubPar ∧ (s.setPort blk i x).fresh = s.fresh ∧ (s.setPort blk i x).out = s.out ∧
    (s.setPort blk i x).pending = s.pending := by
  and_intros <;> rfl

@[simp] theorem State.setLed_fields (s : State) (l : ℕ) (i : ℕ) (v : HWord) :
    (s.setLed l i v).regs = s.regs ∧ (s.setLed l i v).stv = s.stv ∧ (s.setLed l i v).bank = s.bank ∧ (s.setLed l i v).frames
    = s.frames ∧ (s.setLed l i v).cells = s.cells ∧ (s.setLed l i v).panes = s.panes ∧ (s.setLed l i v).chans = s.chans ∧
    (s.setLed l i v).arrays = s.arrays ∧ (s.setLed l i v).queues = s.queues ∧ (s.setLed l i v).ports = s.ports ∧ (s.setLed l
    i v).movers = s.movers ∧ (s.setLed l i v).lvPar = s.lvPar ∧ (s.setLed l i v).dies = s.dies ∧ (s.setLed l i v).tbu =
    s.tbu ∧ (s.setLed l i v).doms = s.doms ∧ (s.setLed l i v).arms = s.arms ∧ (s.setLed l i v).armedBy = s.armedBy ∧
    (s.setLed l i v).engs = s.engs ∧ (s.setLed l i v).dm = s.dm ∧ (s.setLed l i v).pmBad = s.pmBad ∧ (s.setLed l i v).srcs =
    s.srcs ∧ (s.setLed l i v).inqs = s.inqs ∧ (s.setLed l i v).worms = s.worms ∧ (s.setLed l i v).lost = s.lost ∧ (s.setLed
    l i v).turns = s.turns ∧ (s.setLed l i v).tins = s.tins ∧ (s.setLed l i v).owns = s.owns ∧ (s.setLed l i v).selfCpl =
    s.selfCpl ∧ (s.setLed l i v).fmSeq = s.fmSeq ∧ (s.setLed l i v).fmOut = s.fmOut ∧ (s.setLed l i v).outst = s.outst ∧
    (s.setLed l i v).quar = s.quar ∧ (s.setLed l i v).tracked = s.tracked ∧ (s.setLed l i v).answered = s.answered ∧
    (s.setLed l i v).uclLeft = s.uclLeft ∧ (s.setLed l i v).uclHdr = s.uclHdr ∧ (s.setLed l i v).uclOwed = s.uclOwed ∧
    (s.setLed l i v).credOff = s.credOff ∧ (s.setLed l i v).stageBrd = s.stageBrd ∧ (s.setLed l i v).parkBrd = s.parkBrd ∧
    (s.setLed l i v).lanes = s.lanes ∧ (s.setLed l i v).hinges = s.hinges ∧ (s.setLed l i v).leaves = s.leaves ∧ (s.setLed l
    i v).stages = s.stages ∧ (s.setLed l i v).recalls = s.recalls ∧ (s.setLed l i v).gsnap = s.gsnap ∧ (s.setLed l i
    v).gsnapDue = s.gsnapDue ∧ (s.setLed l i v).edgeTurn = s.edgeTurn ∧ (s.setLed l i v).tickQ = s.tickQ ∧ (s.setLed l i
    v).sd = s.sd ∧ (s.setLed l i v).sdMiss = s.sdMiss ∧ (s.setLed l i v).sdOp = s.sdOp ∧ (s.setLed l i v).lkRecs = s.lkRecs
    ∧ (s.setLed l i v).fm = s.fm ∧ (s.setLed l i v).fmErr = s.fmErr ∧ (s.setLed l i v).ddrs = s.ddrs ∧ (s.setLed l i v).pins
    = s.pins ∧ (s.setLed l i v).fpins = s.fpins ∧ (s.setLed l i v).outputs = s.outputs ∧ (s.setLed l i v).uarts = s.uarts ∧
    (s.setLed l i v).i2cs = s.i2cs ∧ (s.setLed l i v).spis = s.spis ∧ (s.setLed l i v).fans = s.fans ∧ (s.setLed l i v).tap
    = s.tap ∧ (s.setLed l i v).clk = s.clk ∧ (s.setLed l i v).cfg = s.cfg ∧ (s.setLed l i v).chk = s.chk ∧ (s.setLed l i
    v).imgBit = s.imgBit ∧ (s.setLed l i v).store = s.store ∧ (s.setLed l i v).progd = s.progd ∧ (s.setLed l i v).unread =
    s.unread ∧ (s.setLed l i v).otp = s.otp ∧ (s.setLed l i v).otpRun = s.otpRun ∧ (s.setLed l i v).power = s.power ∧
    (s.setLed l i v).db = s.db ∧ (s.setLed l i v).host = s.host ∧ (s.setLed l i v).hostSeq = s.hostSeq ∧ (s.setLed l i
    v).hcqs = s.hcqs ∧ (s.setLed l i v).b2 = s.b2 ∧ (s.setLed l i v).park = s.park ∧ (s.setLed l i v).unparkReq =
    s.unparkReq ∧ (s.setLed l i v).msixs = s.msixs ∧ (s.setLed l i v).pcieUp = s.pcieUp ∧ (s.setLed l i v).mcMem = s.mcMem ∧
    (s.setLed l i v).chn = s.chn ∧ (s.setLed l i v).core0 = s.core0 ∧ (s.setLed l i v).mcCount = s.mcCount ∧ (s.setLed l i
    v).kpr = s.kpr ∧ (s.setLed l i v).heldAcc = s.heldAcc ∧ (s.setLed l i v).hubPar = s.hubPar ∧ (s.setLed l i v).fresh =
    s.fresh ∧ (s.setLed l i v).out = s.out ∧ (s.setLed l i v).pending = s.pending := by
  and_intros <;> rfl

@[simp] theorem State.addLed_fields (s : State) (l : ℕ) (i : ℕ) (n : ℕ) :
    (s.addLed l i n).regs = s.regs ∧ (s.addLed l i n).stv = s.stv ∧ (s.addLed l i n).bank = s.bank ∧ (s.addLed l i n).frames
    = s.frames ∧ (s.addLed l i n).cells = s.cells ∧ (s.addLed l i n).panes = s.panes ∧ (s.addLed l i n).chans = s.chans ∧
    (s.addLed l i n).arrays = s.arrays ∧ (s.addLed l i n).queues = s.queues ∧ (s.addLed l i n).ports = s.ports ∧ (s.addLed l
    i n).movers = s.movers ∧ (s.addLed l i n).lvPar = s.lvPar ∧ (s.addLed l i n).dies = s.dies ∧ (s.addLed l i n).tbu =
    s.tbu ∧ (s.addLed l i n).doms = s.doms ∧ (s.addLed l i n).arms = s.arms ∧ (s.addLed l i n).armedBy = s.armedBy ∧
    (s.addLed l i n).engs = s.engs ∧ (s.addLed l i n).dm = s.dm ∧ (s.addLed l i n).pmBad = s.pmBad ∧ (s.addLed l i n).srcs =
    s.srcs ∧ (s.addLed l i n).inqs = s.inqs ∧ (s.addLed l i n).worms = s.worms ∧ (s.addLed l i n).lost = s.lost ∧ (s.addLed
    l i n).turns = s.turns ∧ (s.addLed l i n).tins = s.tins ∧ (s.addLed l i n).owns = s.owns ∧ (s.addLed l i n).selfCpl =
    s.selfCpl ∧ (s.addLed l i n).fmSeq = s.fmSeq ∧ (s.addLed l i n).fmOut = s.fmOut ∧ (s.addLed l i n).outst = s.outst ∧
    (s.addLed l i n).quar = s.quar ∧ (s.addLed l i n).tracked = s.tracked ∧ (s.addLed l i n).answered = s.answered ∧
    (s.addLed l i n).uclLeft = s.uclLeft ∧ (s.addLed l i n).uclHdr = s.uclHdr ∧ (s.addLed l i n).uclOwed = s.uclOwed ∧
    (s.addLed l i n).credOff = s.credOff ∧ (s.addLed l i n).stageBrd = s.stageBrd ∧ (s.addLed l i n).parkBrd = s.parkBrd ∧
    (s.addLed l i n).lanes = s.lanes ∧ (s.addLed l i n).hinges = s.hinges ∧ (s.addLed l i n).leaves = s.leaves ∧ (s.addLed l
    i n).stages = s.stages ∧ (s.addLed l i n).recalls = s.recalls ∧ (s.addLed l i n).gsnap = s.gsnap ∧ (s.addLed l i
    n).gsnapDue = s.gsnapDue ∧ (s.addLed l i n).edgeTurn = s.edgeTurn ∧ (s.addLed l i n).tickQ = s.tickQ ∧ (s.addLed l i
    n).sd = s.sd ∧ (s.addLed l i n).sdMiss = s.sdMiss ∧ (s.addLed l i n).sdOp = s.sdOp ∧ (s.addLed l i n).lkRecs = s.lkRecs
    ∧ (s.addLed l i n).fm = s.fm ∧ (s.addLed l i n).fmErr = s.fmErr ∧ (s.addLed l i n).ddrs = s.ddrs ∧ (s.addLed l i n).pins
    = s.pins ∧ (s.addLed l i n).fpins = s.fpins ∧ (s.addLed l i n).outputs = s.outputs ∧ (s.addLed l i n).uarts = s.uarts ∧
    (s.addLed l i n).i2cs = s.i2cs ∧ (s.addLed l i n).spis = s.spis ∧ (s.addLed l i n).fans = s.fans ∧ (s.addLed l i n).tap
    = s.tap ∧ (s.addLed l i n).clk = s.clk ∧ (s.addLed l i n).cfg = s.cfg ∧ (s.addLed l i n).chk = s.chk ∧ (s.addLed l i
    n).imgBit = s.imgBit ∧ (s.addLed l i n).store = s.store ∧ (s.addLed l i n).progd = s.progd ∧ (s.addLed l i n).unread =
    s.unread ∧ (s.addLed l i n).otp = s.otp ∧ (s.addLed l i n).otpRun = s.otpRun ∧ (s.addLed l i n).power = s.power ∧
    (s.addLed l i n).db = s.db ∧ (s.addLed l i n).host = s.host ∧ (s.addLed l i n).hostSeq = s.hostSeq ∧ (s.addLed l i
    n).hcqs = s.hcqs ∧ (s.addLed l i n).b2 = s.b2 ∧ (s.addLed l i n).park = s.park ∧ (s.addLed l i n).unparkReq =
    s.unparkReq ∧ (s.addLed l i n).msixs = s.msixs ∧ (s.addLed l i n).pcieUp = s.pcieUp ∧ (s.addLed l i n).mcMem = s.mcMem ∧
    (s.addLed l i n).chn = s.chn ∧ (s.addLed l i n).core0 = s.core0 ∧ (s.addLed l i n).mcCount = s.mcCount ∧ (s.addLed l i
    n).kpr = s.kpr ∧ (s.addLed l i n).heldAcc = s.heldAcc ∧ (s.addLed l i n).hubPar = s.hubPar ∧ (s.addLed l i n).fresh =
    s.fresh ∧ (s.addLed l i n).out = s.out ∧ (s.addLed l i n).pending = s.pending := by
  and_intros <;> rfl

@[simp] theorem State.setSrcq_fields (s : State) (i : ℕ) (v : ℕ) (x : SrcQ) :
    (s.setSrcq i v x).regs = s.regs ∧ (s.setSrcq i v x).stv = s.stv ∧ (s.setSrcq i v x).bank = s.bank ∧ (s.setSrcq i v
    x).frames = s.frames ∧ (s.setSrcq i v x).cells = s.cells ∧ (s.setSrcq i v x).panes = s.panes ∧ (s.setSrcq i v x).chans =
    s.chans ∧ (s.setSrcq i v x).arrays = s.arrays ∧ (s.setSrcq i v x).queues = s.queues ∧ (s.setSrcq i v x).ports = s.ports
    ∧ (s.setSrcq i v x).movers = s.movers ∧ (s.setSrcq i v x).lvPar = s.lvPar ∧ (s.setSrcq i v x).dies = s.dies ∧ (s.setSrcq
    i v x).tbu = s.tbu ∧ (s.setSrcq i v x).doms = s.doms ∧ (s.setSrcq i v x).arms = s.arms ∧ (s.setSrcq i v x).armedBy =
    s.armedBy ∧ (s.setSrcq i v x).engs = s.engs ∧ (s.setSrcq i v x).dm = s.dm ∧ (s.setSrcq i v x).pmBad = s.pmBad ∧
    (s.setSrcq i v x).inqs = s.inqs ∧ (s.setSrcq i v x).worms = s.worms ∧ (s.setSrcq i v x).lost = s.lost ∧ (s.setSrcq i v
    x).turns = s.turns ∧ (s.setSrcq i v x).tins = s.tins ∧ (s.setSrcq i v x).owns = s.owns ∧ (s.setSrcq i v x).selfCpl =
    s.selfCpl ∧ (s.setSrcq i v x).fmSeq = s.fmSeq ∧ (s.setSrcq i v x).fmOut = s.fmOut ∧ (s.setSrcq i v x).outst = s.outst ∧
    (s.setSrcq i v x).quar = s.quar ∧ (s.setSrcq i v x).tracked = s.tracked ∧ (s.setSrcq i v x).answered = s.answered ∧
    (s.setSrcq i v x).uclLeft = s.uclLeft ∧ (s.setSrcq i v x).uclHdr = s.uclHdr ∧ (s.setSrcq i v x).uclOwed = s.uclOwed ∧
    (s.setSrcq i v x).credOff = s.credOff ∧ (s.setSrcq i v x).ledger = s.ledger ∧ (s.setSrcq i v x).stageBrd = s.stageBrd ∧
    (s.setSrcq i v x).parkBrd = s.parkBrd ∧ (s.setSrcq i v x).lanes = s.lanes ∧ (s.setSrcq i v x).hinges = s.hinges ∧
    (s.setSrcq i v x).leaves = s.leaves ∧ (s.setSrcq i v x).stages = s.stages ∧ (s.setSrcq i v x).recalls = s.recalls ∧
    (s.setSrcq i v x).gsnap = s.gsnap ∧ (s.setSrcq i v x).gsnapDue = s.gsnapDue ∧ (s.setSrcq i v x).edgeTurn = s.edgeTurn ∧
    (s.setSrcq i v x).tickQ = s.tickQ ∧ (s.setSrcq i v x).sd = s.sd ∧ (s.setSrcq i v x).sdMiss = s.sdMiss ∧ (s.setSrcq i v
    x).sdOp = s.sdOp ∧ (s.setSrcq i v x).lkRecs = s.lkRecs ∧ (s.setSrcq i v x).fm = s.fm ∧ (s.setSrcq i v x).fmErr = s.fmErr
    ∧ (s.setSrcq i v x).ddrs = s.ddrs ∧ (s.setSrcq i v x).pins = s.pins ∧ (s.setSrcq i v x).fpins = s.fpins ∧ (s.setSrcq i v
    x).outputs = s.outputs ∧ (s.setSrcq i v x).uarts = s.uarts ∧ (s.setSrcq i v x).i2cs = s.i2cs ∧ (s.setSrcq i v x).spis =
    s.spis ∧ (s.setSrcq i v x).fans = s.fans ∧ (s.setSrcq i v x).tap = s.tap ∧ (s.setSrcq i v x).clk = s.clk ∧ (s.setSrcq i
    v x).cfg = s.cfg ∧ (s.setSrcq i v x).chk = s.chk ∧ (s.setSrcq i v x).imgBit = s.imgBit ∧ (s.setSrcq i v x).store =
    s.store ∧ (s.setSrcq i v x).progd = s.progd ∧ (s.setSrcq i v x).unread = s.unread ∧ (s.setSrcq i v x).otp = s.otp ∧
    (s.setSrcq i v x).otpRun = s.otpRun ∧ (s.setSrcq i v x).power = s.power ∧ (s.setSrcq i v x).db = s.db ∧ (s.setSrcq i v
    x).host = s.host ∧ (s.setSrcq i v x).hostSeq = s.hostSeq ∧ (s.setSrcq i v x).hcqs = s.hcqs ∧ (s.setSrcq i v x).b2 = s.b2
    ∧ (s.setSrcq i v x).park = s.park ∧ (s.setSrcq i v x).unparkReq = s.unparkReq ∧ (s.setSrcq i v x).msixs = s.msixs ∧
    (s.setSrcq i v x).pcieUp = s.pcieUp ∧ (s.setSrcq i v x).mcMem = s.mcMem ∧ (s.setSrcq i v x).chn = s.chn ∧ (s.setSrcq i v
    x).core0 = s.core0 ∧ (s.setSrcq i v x).mcCount = s.mcCount ∧ (s.setSrcq i v x).kpr = s.kpr ∧ (s.setSrcq i v x).heldAcc =
    s.heldAcc ∧ (s.setSrcq i v x).hubPar = s.hubPar ∧ (s.setSrcq i v x).fresh = s.fresh ∧ (s.setSrcq i v x).out = s.out ∧
    (s.setSrcq i v x).pending = s.pending := by
  and_intros <;> rfl

@[simp] theorem State.setInq_fields (s : State) (i : ℕ) (v : ℕ) (x : List TFlit) :
    (s.setInq i v x).regs = s.regs ∧ (s.setInq i v x).stv = s.stv ∧ (s.setInq i v x).bank = s.bank ∧ (s.setInq i v x).frames
    = s.frames ∧ (s.setInq i v x).cells = s.cells ∧ (s.setInq i v x).panes = s.panes ∧ (s.setInq i v x).chans = s.chans ∧
    (s.setInq i v x).arrays = s.arrays ∧ (s.setInq i v x).queues = s.queues ∧ (s.setInq i v x).ports = s.ports ∧ (s.setInq i
    v x).movers = s.movers ∧ (s.setInq i v x).lvPar = s.lvPar ∧ (s.setInq i v x).dies = s.dies ∧ (s.setInq i v x).tbu =
    s.tbu ∧ (s.setInq i v x).doms = s.doms ∧ (s.setInq i v x).arms = s.arms ∧ (s.setInq i v x).armedBy = s.armedBy ∧
    (s.setInq i v x).engs = s.engs ∧ (s.setInq i v x).dm = s.dm ∧ (s.setInq i v x).pmBad = s.pmBad ∧ (s.setInq i v x).srcs =
    s.srcs ∧ (s.setInq i v x).worms = s.worms ∧ (s.setInq i v x).lost = s.lost ∧ (s.setInq i v x).turns = s.turns ∧
    (s.setInq i v x).tins = s.tins ∧ (s.setInq i v x).owns = s.owns ∧ (s.setInq i v x).selfCpl = s.selfCpl ∧ (s.setInq i v
    x).fmSeq = s.fmSeq ∧ (s.setInq i v x).fmOut = s.fmOut ∧ (s.setInq i v x).outst = s.outst ∧ (s.setInq i v x).quar =
    s.quar ∧ (s.setInq i v x).tracked = s.tracked ∧ (s.setInq i v x).answered = s.answered ∧ (s.setInq i v x).uclLeft =
    s.uclLeft ∧ (s.setInq i v x).uclHdr = s.uclHdr ∧ (s.setInq i v x).uclOwed = s.uclOwed ∧ (s.setInq i v x).credOff =
    s.credOff ∧ (s.setInq i v x).ledger = s.ledger ∧ (s.setInq i v x).stageBrd = s.stageBrd ∧ (s.setInq i v x).parkBrd =
    s.parkBrd ∧ (s.setInq i v x).lanes = s.lanes ∧ (s.setInq i v x).hinges = s.hinges ∧ (s.setInq i v x).leaves = s.leaves ∧
    (s.setInq i v x).stages = s.stages ∧ (s.setInq i v x).recalls = s.recalls ∧ (s.setInq i v x).gsnap = s.gsnap ∧ (s.setInq
    i v x).gsnapDue = s.gsnapDue ∧ (s.setInq i v x).edgeTurn = s.edgeTurn ∧ (s.setInq i v x).tickQ = s.tickQ ∧ (s.setInq i v
    x).sd = s.sd ∧ (s.setInq i v x).sdMiss = s.sdMiss ∧ (s.setInq i v x).sdOp = s.sdOp ∧ (s.setInq i v x).lkRecs = s.lkRecs
    ∧ (s.setInq i v x).fm = s.fm ∧ (s.setInq i v x).fmErr = s.fmErr ∧ (s.setInq i v x).ddrs = s.ddrs ∧ (s.setInq i v x).pins
    = s.pins ∧ (s.setInq i v x).fpins = s.fpins ∧ (s.setInq i v x).outputs = s.outputs ∧ (s.setInq i v x).uarts = s.uarts ∧
    (s.setInq i v x).i2cs = s.i2cs ∧ (s.setInq i v x).spis = s.spis ∧ (s.setInq i v x).fans = s.fans ∧ (s.setInq i v x).tap
    = s.tap ∧ (s.setInq i v x).clk = s.clk ∧ (s.setInq i v x).cfg = s.cfg ∧ (s.setInq i v x).chk = s.chk ∧ (s.setInq i v
    x).imgBit = s.imgBit ∧ (s.setInq i v x).store = s.store ∧ (s.setInq i v x).progd = s.progd ∧ (s.setInq i v x).unread =
    s.unread ∧ (s.setInq i v x).otp = s.otp ∧ (s.setInq i v x).otpRun = s.otpRun ∧ (s.setInq i v x).power = s.power ∧
    (s.setInq i v x).db = s.db ∧ (s.setInq i v x).host = s.host ∧ (s.setInq i v x).hostSeq = s.hostSeq ∧ (s.setInq i v
    x).hcqs = s.hcqs ∧ (s.setInq i v x).b2 = s.b2 ∧ (s.setInq i v x).park = s.park ∧ (s.setInq i v x).unparkReq =
    s.unparkReq ∧ (s.setInq i v x).msixs = s.msixs ∧ (s.setInq i v x).pcieUp = s.pcieUp ∧ (s.setInq i v x).mcMem = s.mcMem ∧
    (s.setInq i v x).chn = s.chn ∧ (s.setInq i v x).core0 = s.core0 ∧ (s.setInq i v x).mcCount = s.mcCount ∧ (s.setInq i v
    x).kpr = s.kpr ∧ (s.setInq i v x).heldAcc = s.heldAcc ∧ (s.setInq i v x).hubPar = s.hubPar ∧ (s.setInq i v x).fresh =
    s.fresh ∧ (s.setInq i v x).out = s.out ∧ (s.setInq i v x).pending = s.pending := by
  and_intros <;> rfl

@[simp] theorem State.setWorm_fields (s : State) (i : ℕ) (v : ℕ) (x : Worm) :
    (s.setWorm i v x).regs = s.regs ∧ (s.setWorm i v x).stv = s.stv ∧ (s.setWorm i v x).bank = s.bank ∧ (s.setWorm i v
    x).frames = s.frames ∧ (s.setWorm i v x).cells = s.cells ∧ (s.setWorm i v x).panes = s.panes ∧ (s.setWorm i v x).chans =
    s.chans ∧ (s.setWorm i v x).arrays = s.arrays ∧ (s.setWorm i v x).queues = s.queues ∧ (s.setWorm i v x).ports = s.ports
    ∧ (s.setWorm i v x).movers = s.movers ∧ (s.setWorm i v x).lvPar = s.lvPar ∧ (s.setWorm i v x).dies = s.dies ∧ (s.setWorm
    i v x).tbu = s.tbu ∧ (s.setWorm i v x).doms = s.doms ∧ (s.setWorm i v x).arms = s.arms ∧ (s.setWorm i v x).armedBy =
    s.armedBy ∧ (s.setWorm i v x).engs = s.engs ∧ (s.setWorm i v x).dm = s.dm ∧ (s.setWorm i v x).pmBad = s.pmBad ∧
    (s.setWorm i v x).srcs = s.srcs ∧ (s.setWorm i v x).inqs = s.inqs ∧ (s.setWorm i v x).lost = s.lost ∧ (s.setWorm i v
    x).turns = s.turns ∧ (s.setWorm i v x).tins = s.tins ∧ (s.setWorm i v x).owns = s.owns ∧ (s.setWorm i v x).selfCpl =
    s.selfCpl ∧ (s.setWorm i v x).fmSeq = s.fmSeq ∧ (s.setWorm i v x).fmOut = s.fmOut ∧ (s.setWorm i v x).outst = s.outst ∧
    (s.setWorm i v x).quar = s.quar ∧ (s.setWorm i v x).tracked = s.tracked ∧ (s.setWorm i v x).answered = s.answered ∧
    (s.setWorm i v x).uclLeft = s.uclLeft ∧ (s.setWorm i v x).uclHdr = s.uclHdr ∧ (s.setWorm i v x).uclOwed = s.uclOwed ∧
    (s.setWorm i v x).credOff = s.credOff ∧ (s.setWorm i v x).ledger = s.ledger ∧ (s.setWorm i v x).stageBrd = s.stageBrd ∧
    (s.setWorm i v x).parkBrd = s.parkBrd ∧ (s.setWorm i v x).lanes = s.lanes ∧ (s.setWorm i v x).hinges = s.hinges ∧
    (s.setWorm i v x).leaves = s.leaves ∧ (s.setWorm i v x).stages = s.stages ∧ (s.setWorm i v x).recalls = s.recalls ∧
    (s.setWorm i v x).gsnap = s.gsnap ∧ (s.setWorm i v x).gsnapDue = s.gsnapDue ∧ (s.setWorm i v x).edgeTurn = s.edgeTurn ∧
    (s.setWorm i v x).tickQ = s.tickQ ∧ (s.setWorm i v x).sd = s.sd ∧ (s.setWorm i v x).sdMiss = s.sdMiss ∧ (s.setWorm i v
    x).sdOp = s.sdOp ∧ (s.setWorm i v x).lkRecs = s.lkRecs ∧ (s.setWorm i v x).fm = s.fm ∧ (s.setWorm i v x).fmErr = s.fmErr
    ∧ (s.setWorm i v x).ddrs = s.ddrs ∧ (s.setWorm i v x).pins = s.pins ∧ (s.setWorm i v x).fpins = s.fpins ∧ (s.setWorm i v
    x).outputs = s.outputs ∧ (s.setWorm i v x).uarts = s.uarts ∧ (s.setWorm i v x).i2cs = s.i2cs ∧ (s.setWorm i v x).spis =
    s.spis ∧ (s.setWorm i v x).fans = s.fans ∧ (s.setWorm i v x).tap = s.tap ∧ (s.setWorm i v x).clk = s.clk ∧ (s.setWorm i
    v x).cfg = s.cfg ∧ (s.setWorm i v x).chk = s.chk ∧ (s.setWorm i v x).imgBit = s.imgBit ∧ (s.setWorm i v x).store =
    s.store ∧ (s.setWorm i v x).progd = s.progd ∧ (s.setWorm i v x).unread = s.unread ∧ (s.setWorm i v x).otp = s.otp ∧
    (s.setWorm i v x).otpRun = s.otpRun ∧ (s.setWorm i v x).power = s.power ∧ (s.setWorm i v x).db = s.db ∧ (s.setWorm i v
    x).host = s.host ∧ (s.setWorm i v x).hostSeq = s.hostSeq ∧ (s.setWorm i v x).hcqs = s.hcqs ∧ (s.setWorm i v x).b2 = s.b2
    ∧ (s.setWorm i v x).park = s.park ∧ (s.setWorm i v x).unparkReq = s.unparkReq ∧ (s.setWorm i v x).msixs = s.msixs ∧
    (s.setWorm i v x).pcieUp = s.pcieUp ∧ (s.setWorm i v x).mcMem = s.mcMem ∧ (s.setWorm i v x).chn = s.chn ∧ (s.setWorm i v
    x).core0 = s.core0 ∧ (s.setWorm i v x).mcCount = s.mcCount ∧ (s.setWorm i v x).kpr = s.kpr ∧ (s.setWorm i v x).heldAcc =
    s.heldAcc ∧ (s.setWorm i v x).hubPar = s.hubPar ∧ (s.setWorm i v x).fresh = s.fresh ∧ (s.setWorm i v x).out = s.out ∧
    (s.setWorm i v x).pending = s.pending := by
  and_intros <;> rfl

@[simp] theorem State.setTin_fields (s : State) (l : ℕ) (v : ℕ) (x : List TFlit) :
    (s.setTin l v x).regs = s.regs ∧ (s.setTin l v x).stv = s.stv ∧ (s.setTin l v x).bank = s.bank ∧ (s.setTin l v x).frames
    = s.frames ∧ (s.setTin l v x).cells = s.cells ∧ (s.setTin l v x).panes = s.panes ∧ (s.setTin l v x).chans = s.chans ∧
    (s.setTin l v x).arrays = s.arrays ∧ (s.setTin l v x).queues = s.queues ∧ (s.setTin l v x).ports = s.ports ∧ (s.setTin l
    v x).movers = s.movers ∧ (s.setTin l v x).lvPar = s.lvPar ∧ (s.setTin l v x).dies = s.dies ∧ (s.setTin l v x).tbu =
    s.tbu ∧ (s.setTin l v x).doms = s.doms ∧ (s.setTin l v x).arms = s.arms ∧ (s.setTin l v x).armedBy = s.armedBy ∧
    (s.setTin l v x).engs = s.engs ∧ (s.setTin l v x).dm = s.dm ∧ (s.setTin l v x).pmBad = s.pmBad ∧ (s.setTin l v x).srcs =
    s.srcs ∧ (s.setTin l v x).inqs = s.inqs ∧ (s.setTin l v x).worms = s.worms ∧ (s.setTin l v x).lost = s.lost ∧ (s.setTin
    l v x).turns = s.turns ∧ (s.setTin l v x).owns = s.owns ∧ (s.setTin l v x).selfCpl = s.selfCpl ∧ (s.setTin l v x).fmSeq
    = s.fmSeq ∧ (s.setTin l v x).fmOut = s.fmOut ∧ (s.setTin l v x).outst = s.outst ∧ (s.setTin l v x).quar = s.quar ∧
    (s.setTin l v x).tracked = s.tracked ∧ (s.setTin l v x).answered = s.answered ∧ (s.setTin l v x).uclLeft = s.uclLeft ∧
    (s.setTin l v x).uclHdr = s.uclHdr ∧ (s.setTin l v x).uclOwed = s.uclOwed ∧ (s.setTin l v x).credOff = s.credOff ∧
    (s.setTin l v x).ledger = s.ledger ∧ (s.setTin l v x).stageBrd = s.stageBrd ∧ (s.setTin l v x).parkBrd = s.parkBrd ∧
    (s.setTin l v x).lanes = s.lanes ∧ (s.setTin l v x).hinges = s.hinges ∧ (s.setTin l v x).leaves = s.leaves ∧ (s.setTin l
    v x).stages = s.stages ∧ (s.setTin l v x).recalls = s.recalls ∧ (s.setTin l v x).gsnap = s.gsnap ∧ (s.setTin l v
    x).gsnapDue = s.gsnapDue ∧ (s.setTin l v x).edgeTurn = s.edgeTurn ∧ (s.setTin l v x).tickQ = s.tickQ ∧ (s.setTin l v
    x).sd = s.sd ∧ (s.setTin l v x).sdMiss = s.sdMiss ∧ (s.setTin l v x).sdOp = s.sdOp ∧ (s.setTin l v x).lkRecs = s.lkRecs
    ∧ (s.setTin l v x).fm = s.fm ∧ (s.setTin l v x).fmErr = s.fmErr ∧ (s.setTin l v x).ddrs = s.ddrs ∧ (s.setTin l v x).pins
    = s.pins ∧ (s.setTin l v x).fpins = s.fpins ∧ (s.setTin l v x).outputs = s.outputs ∧ (s.setTin l v x).uarts = s.uarts ∧
    (s.setTin l v x).i2cs = s.i2cs ∧ (s.setTin l v x).spis = s.spis ∧ (s.setTin l v x).fans = s.fans ∧ (s.setTin l v x).tap
    = s.tap ∧ (s.setTin l v x).clk = s.clk ∧ (s.setTin l v x).cfg = s.cfg ∧ (s.setTin l v x).chk = s.chk ∧ (s.setTin l v
    x).imgBit = s.imgBit ∧ (s.setTin l v x).store = s.store ∧ (s.setTin l v x).progd = s.progd ∧ (s.setTin l v x).unread =
    s.unread ∧ (s.setTin l v x).otp = s.otp ∧ (s.setTin l v x).otpRun = s.otpRun ∧ (s.setTin l v x).power = s.power ∧
    (s.setTin l v x).db = s.db ∧ (s.setTin l v x).host = s.host ∧ (s.setTin l v x).hostSeq = s.hostSeq ∧ (s.setTin l v
    x).hcqs = s.hcqs ∧ (s.setTin l v x).b2 = s.b2 ∧ (s.setTin l v x).park = s.park ∧ (s.setTin l v x).unparkReq =
    s.unparkReq ∧ (s.setTin l v x).msixs = s.msixs ∧ (s.setTin l v x).pcieUp = s.pcieUp ∧ (s.setTin l v x).mcMem = s.mcMem ∧
    (s.setTin l v x).chn = s.chn ∧ (s.setTin l v x).core0 = s.core0 ∧ (s.setTin l v x).mcCount = s.mcCount ∧ (s.setTin l v
    x).kpr = s.kpr ∧ (s.setTin l v x).heldAcc = s.heldAcc ∧ (s.setTin l v x).hubPar = s.hubPar ∧ (s.setTin l v x).fresh =
    s.fresh ∧ (s.setTin l v x).out = s.out ∧ (s.setTin l v x).pending = s.pending := by
  and_intros <;> rfl

@[simp] theorem State.setTickWait_fields (s : State) (e : ℕ) (rs : List TickRec) :
    (s.setTickWait e rs).regs = s.regs ∧ (s.setTickWait e rs).stv = s.stv ∧ (s.setTickWait e rs).bank = s.bank ∧
    (s.setTickWait e rs).frames = s.frames ∧ (s.setTickWait e rs).cells = s.cells ∧ (s.setTickWait e rs).panes = s.panes ∧
    (s.setTickWait e rs).chans = s.chans ∧ (s.setTickWait e rs).arrays = s.arrays ∧ (s.setTickWait e rs).queues = s.queues ∧
    (s.setTickWait e rs).ports = s.ports ∧ (s.setTickWait e rs).movers = s.movers ∧ (s.setTickWait e rs).lvPar = s.lvPar ∧
    (s.setTickWait e rs).dies = s.dies ∧ (s.setTickWait e rs).tbu = s.tbu ∧ (s.setTickWait e rs).doms = s.doms ∧
    (s.setTickWait e rs).arms = s.arms ∧ (s.setTickWait e rs).armedBy = s.armedBy ∧ (s.setTickWait e rs).engs = s.engs ∧
    (s.setTickWait e rs).dm = s.dm ∧ (s.setTickWait e rs).pmBad = s.pmBad ∧ (s.setTickWait e rs).srcs = s.srcs ∧
    (s.setTickWait e rs).inqs = s.inqs ∧ (s.setTickWait e rs).worms = s.worms ∧ (s.setTickWait e rs).lost = s.lost ∧
    (s.setTickWait e rs).turns = s.turns ∧ (s.setTickWait e rs).tins = s.tins ∧ (s.setTickWait e rs).owns = s.owns ∧
    (s.setTickWait e rs).selfCpl = s.selfCpl ∧ (s.setTickWait e rs).fmSeq = s.fmSeq ∧ (s.setTickWait e rs).fmOut = s.fmOut ∧
    (s.setTickWait e rs).outst = s.outst ∧ (s.setTickWait e rs).quar = s.quar ∧ (s.setTickWait e rs).tracked = s.tracked ∧
    (s.setTickWait e rs).answered = s.answered ∧ (s.setTickWait e rs).uclLeft = s.uclLeft ∧ (s.setTickWait e rs).uclHdr =
    s.uclHdr ∧ (s.setTickWait e rs).uclOwed = s.uclOwed ∧ (s.setTickWait e rs).credOff = s.credOff ∧ (s.setTickWait e
    rs).ledger = s.ledger ∧ (s.setTickWait e rs).stageBrd = s.stageBrd ∧ (s.setTickWait e rs).parkBrd = s.parkBrd ∧
    (s.setTickWait e rs).lanes = s.lanes ∧ (s.setTickWait e rs).hinges = s.hinges ∧ (s.setTickWait e rs).leaves = s.leaves ∧
    (s.setTickWait e rs).stages = s.stages ∧ (s.setTickWait e rs).recalls = s.recalls ∧ (s.setTickWait e rs).gsnap = s.gsnap
    ∧ (s.setTickWait e rs).gsnapDue = s.gsnapDue ∧ (s.setTickWait e rs).edgeTurn = s.edgeTurn ∧ (s.setTickWait e rs).sd =
    s.sd ∧ (s.setTickWait e rs).sdMiss = s.sdMiss ∧ (s.setTickWait e rs).sdOp = s.sdOp ∧ (s.setTickWait e rs).lkRecs =
    s.lkRecs ∧ (s.setTickWait e rs).fm = s.fm ∧ (s.setTickWait e rs).fmErr = s.fmErr ∧ (s.setTickWait e rs).ddrs = s.ddrs ∧
    (s.setTickWait e rs).pins = s.pins ∧ (s.setTickWait e rs).fpins = s.fpins ∧ (s.setTickWait e rs).outputs = s.outputs ∧
    (s.setTickWait e rs).uarts = s.uarts ∧ (s.setTickWait e rs).i2cs = s.i2cs ∧ (s.setTickWait e rs).spis = s.spis ∧
    (s.setTickWait e rs).fans = s.fans ∧ (s.setTickWait e rs).tap = s.tap ∧ (s.setTickWait e rs).clk = s.clk ∧
    (s.setTickWait e rs).cfg = s.cfg ∧ (s.setTickWait e rs).chk = s.chk ∧ (s.setTickWait e rs).imgBit = s.imgBit ∧
    (s.setTickWait e rs).store = s.store ∧ (s.setTickWait e rs).progd = s.progd ∧ (s.setTickWait e rs).unread = s.unread ∧
    (s.setTickWait e rs).otp = s.otp ∧ (s.setTickWait e rs).otpRun = s.otpRun ∧ (s.setTickWait e rs).power = s.power ∧
    (s.setTickWait e rs).db = s.db ∧ (s.setTickWait e rs).host = s.host ∧ (s.setTickWait e rs).hostSeq = s.hostSeq ∧
    (s.setTickWait e rs).hcqs = s.hcqs ∧ (s.setTickWait e rs).b2 = s.b2 ∧ (s.setTickWait e rs).park = s.park ∧
    (s.setTickWait e rs).unparkReq = s.unparkReq ∧ (s.setTickWait e rs).msixs = s.msixs ∧ (s.setTickWait e rs).pcieUp =
    s.pcieUp ∧ (s.setTickWait e rs).mcMem = s.mcMem ∧ (s.setTickWait e rs).chn = s.chn ∧ (s.setTickWait e rs).core0 =
    s.core0 ∧ (s.setTickWait e rs).mcCount = s.mcCount ∧ (s.setTickWait e rs).kpr = s.kpr ∧ (s.setTickWait e rs).heldAcc =
    s.heldAcc ∧ (s.setTickWait e rs).hubPar = s.hubPar ∧ (s.setTickWait e rs).fresh = s.fresh ∧ (s.setTickWait e rs).out =
    s.out ∧ (s.setTickWait e rs).pending = s.pending := by
  and_intros <;> rfl

@[simp] theorem State.updCmd_fields (s : State) (id : ℕ) (f : HCmd → HCmd) :
    (s.updCmd id f).regs = s.regs ∧ (s.updCmd id f).stv = s.stv ∧ (s.updCmd id f).bank = s.bank ∧ (s.updCmd id f).frames =
    s.frames ∧ (s.updCmd id f).cells = s.cells ∧ (s.updCmd id f).panes = s.panes ∧ (s.updCmd id f).chans = s.chans ∧
    (s.updCmd id f).arrays = s.arrays ∧ (s.updCmd id f).queues = s.queues ∧ (s.updCmd id f).ports = s.ports ∧ (s.updCmd id
    f).movers = s.movers ∧ (s.updCmd id f).lvPar = s.lvPar ∧ (s.updCmd id f).dies = s.dies ∧ (s.updCmd id f).tbu = s.tbu ∧
    (s.updCmd id f).doms = s.doms ∧ (s.updCmd id f).arms = s.arms ∧ (s.updCmd id f).armedBy = s.armedBy ∧ (s.updCmd id
    f).engs = s.engs ∧ (s.updCmd id f).dm = s.dm ∧ (s.updCmd id f).pmBad = s.pmBad ∧ (s.updCmd id f).srcs = s.srcs ∧
    (s.updCmd id f).inqs = s.inqs ∧ (s.updCmd id f).worms = s.worms ∧ (s.updCmd id f).lost = s.lost ∧ (s.updCmd id f).turns
    = s.turns ∧ (s.updCmd id f).tins = s.tins ∧ (s.updCmd id f).owns = s.owns ∧ (s.updCmd id f).selfCpl = s.selfCpl ∧
    (s.updCmd id f).fmSeq = s.fmSeq ∧ (s.updCmd id f).fmOut = s.fmOut ∧ (s.updCmd id f).outst = s.outst ∧ (s.updCmd id
    f).quar = s.quar ∧ (s.updCmd id f).tracked = s.tracked ∧ (s.updCmd id f).answered = s.answered ∧ (s.updCmd id f).uclLeft
    = s.uclLeft ∧ (s.updCmd id f).uclHdr = s.uclHdr ∧ (s.updCmd id f).uclOwed = s.uclOwed ∧ (s.updCmd id f).credOff =
    s.credOff ∧ (s.updCmd id f).ledger = s.ledger ∧ (s.updCmd id f).stageBrd = s.stageBrd ∧ (s.updCmd id f).parkBrd =
    s.parkBrd ∧ (s.updCmd id f).lanes = s.lanes ∧ (s.updCmd id f).hinges = s.hinges ∧ (s.updCmd id f).leaves = s.leaves ∧
    (s.updCmd id f).stages = s.stages ∧ (s.updCmd id f).recalls = s.recalls ∧ (s.updCmd id f).gsnap = s.gsnap ∧ (s.updCmd id
    f).gsnapDue = s.gsnapDue ∧ (s.updCmd id f).edgeTurn = s.edgeTurn ∧ (s.updCmd id f).tickQ = s.tickQ ∧ (s.updCmd id f).sd
    = s.sd ∧ (s.updCmd id f).sdMiss = s.sdMiss ∧ (s.updCmd id f).sdOp = s.sdOp ∧ (s.updCmd id f).lkRecs = s.lkRecs ∧
    (s.updCmd id f).fm = s.fm ∧ (s.updCmd id f).fmErr = s.fmErr ∧ (s.updCmd id f).ddrs = s.ddrs ∧ (s.updCmd id f).pins =
    s.pins ∧ (s.updCmd id f).fpins = s.fpins ∧ (s.updCmd id f).outputs = s.outputs ∧ (s.updCmd id f).uarts = s.uarts ∧
    (s.updCmd id f).i2cs = s.i2cs ∧ (s.updCmd id f).spis = s.spis ∧ (s.updCmd id f).fans = s.fans ∧ (s.updCmd id f).tap =
    s.tap ∧ (s.updCmd id f).clk = s.clk ∧ (s.updCmd id f).cfg = s.cfg ∧ (s.updCmd id f).chk = s.chk ∧ (s.updCmd id f).imgBit
    = s.imgBit ∧ (s.updCmd id f).store = s.store ∧ (s.updCmd id f).progd = s.progd ∧ (s.updCmd id f).unread = s.unread ∧
    (s.updCmd id f).otp = s.otp ∧ (s.updCmd id f).otpRun = s.otpRun ∧ (s.updCmd id f).power = s.power ∧ (s.updCmd id f).db =
    s.db ∧ (s.updCmd id f).hostSeq = s.hostSeq ∧ (s.updCmd id f).hcqs = s.hcqs ∧ (s.updCmd id f).b2 = s.b2 ∧ (s.updCmd id
    f).park = s.park ∧ (s.updCmd id f).unparkReq = s.unparkReq ∧ (s.updCmd id f).msixs = s.msixs ∧ (s.updCmd id f).pcieUp =
    s.pcieUp ∧ (s.updCmd id f).mcMem = s.mcMem ∧ (s.updCmd id f).chn = s.chn ∧ (s.updCmd id f).core0 = s.core0 ∧ (s.updCmd
    id f).mcCount = s.mcCount ∧ (s.updCmd id f).kpr = s.kpr ∧ (s.updCmd id f).heldAcc = s.heldAcc ∧ (s.updCmd id f).hubPar =
    s.hubPar ∧ (s.updCmd id f).fresh = s.fresh ∧ (s.updCmd id f).out = s.out ∧ (s.updCmd id f).pending = s.pending := by
  and_intros <;> rfl

@[simp] theorem State.startLoop_fields (s : State) (n : ℕ) :
    (s.startLoop n).regs = s.regs ∧ (s.startLoop n).stv = s.stv ∧ (s.startLoop n).bank = s.bank ∧ (s.startLoop n).frames =
    s.frames ∧ (s.startLoop n).cells = s.cells ∧ (s.startLoop n).panes = s.panes ∧ (s.startLoop n).chans = s.chans ∧
    (s.startLoop n).arrays = s.arrays ∧ (s.startLoop n).queues = s.queues ∧ (s.startLoop n).ports = s.ports ∧ (s.startLoop
    n).movers = s.movers ∧ (s.startLoop n).lvPar = s.lvPar ∧ (s.startLoop n).dies = s.dies ∧ (s.startLoop n).tbu = s.tbu ∧
    (s.startLoop n).doms = s.doms ∧ (s.startLoop n).arms = s.arms ∧ (s.startLoop n).armedBy = s.armedBy ∧ (s.startLoop
    n).engs = s.engs ∧ (s.startLoop n).dm = s.dm ∧ (s.startLoop n).pmBad = s.pmBad ∧ (s.startLoop n).srcs = s.srcs ∧
    (s.startLoop n).inqs = s.inqs ∧ (s.startLoop n).worms = s.worms ∧ (s.startLoop n).lost = s.lost ∧ (s.startLoop n).turns
    = s.turns ∧ (s.startLoop n).tins = s.tins ∧ (s.startLoop n).owns = s.owns ∧ (s.startLoop n).selfCpl = s.selfCpl ∧
    (s.startLoop n).fmSeq = s.fmSeq ∧ (s.startLoop n).fmOut = s.fmOut ∧ (s.startLoop n).outst = s.outst ∧ (s.startLoop
    n).quar = s.quar ∧ (s.startLoop n).tracked = s.tracked ∧ (s.startLoop n).answered = s.answered ∧ (s.startLoop n).uclLeft
    = s.uclLeft ∧ (s.startLoop n).uclHdr = s.uclHdr ∧ (s.startLoop n).uclOwed = s.uclOwed ∧ (s.startLoop n).credOff =
    s.credOff ∧ (s.startLoop n).ledger = s.ledger ∧ (s.startLoop n).stageBrd = s.stageBrd ∧ (s.startLoop n).parkBrd =
    s.parkBrd ∧ (s.startLoop n).lanes = s.lanes ∧ (s.startLoop n).hinges = s.hinges ∧ (s.startLoop n).leaves = s.leaves ∧
    (s.startLoop n).stages = s.stages ∧ (s.startLoop n).recalls = s.recalls ∧ (s.startLoop n).gsnap = s.gsnap ∧ (s.startLoop
    n).gsnapDue = s.gsnapDue ∧ (s.startLoop n).edgeTurn = s.edgeTurn ∧ (s.startLoop n).tickQ = s.tickQ ∧ (s.startLoop n).sd
    = s.sd ∧ (s.startLoop n).sdMiss = s.sdMiss ∧ (s.startLoop n).sdOp = s.sdOp ∧ (s.startLoop n).lkRecs = s.lkRecs ∧
    (s.startLoop n).fm = s.fm ∧ (s.startLoop n).fmErr = s.fmErr ∧ (s.startLoop n).ddrs = s.ddrs ∧ (s.startLoop n).pins =
    s.pins ∧ (s.startLoop n).fpins = s.fpins ∧ (s.startLoop n).outputs = s.outputs ∧ (s.startLoop n).uarts = s.uarts ∧
    (s.startLoop n).i2cs = s.i2cs ∧ (s.startLoop n).spis = s.spis ∧ (s.startLoop n).fans = s.fans ∧ (s.startLoop n).tap =
    s.tap ∧ (s.startLoop n).cfg = s.cfg ∧ (s.startLoop n).chk = s.chk ∧ (s.startLoop n).imgBit = s.imgBit ∧ (s.startLoop
    n).store = s.store ∧ (s.startLoop n).progd = s.progd ∧ (s.startLoop n).unread = s.unread ∧ (s.startLoop n).otp = s.otp ∧
    (s.startLoop n).otpRun = s.otpRun ∧ (s.startLoop n).power = s.power ∧ (s.startLoop n).db = s.db ∧ (s.startLoop n).host =
    s.host ∧ (s.startLoop n).hostSeq = s.hostSeq ∧ (s.startLoop n).hcqs = s.hcqs ∧ (s.startLoop n).b2 = s.b2 ∧ (s.startLoop
    n).park = s.park ∧ (s.startLoop n).unparkReq = s.unparkReq ∧ (s.startLoop n).msixs = s.msixs ∧ (s.startLoop n).pcieUp =
    s.pcieUp ∧ (s.startLoop n).mcMem = s.mcMem ∧ (s.startLoop n).chn = s.chn ∧ (s.startLoop n).core0 = s.core0 ∧
    (s.startLoop n).mcCount = s.mcCount ∧ (s.startLoop n).kpr = s.kpr ∧ (s.startLoop n).heldAcc = s.heldAcc ∧ (s.startLoop
    n).hubPar = s.hubPar ∧ (s.startLoop n).fresh = s.fresh ∧ (s.startLoop n).out = s.out ∧ (s.startLoop n).pending =
    s.pending := by
  and_intros <;> rfl

@[simp] theorem State.setEng_fields (s : State) (g : ℕ) (x : EngSt) :
    (s.setEng g x).regs = s.regs ∧ (s.setEng g x).stv = s.stv ∧ (s.setEng g x).bank = s.bank ∧ (s.setEng g x).frames =
    s.frames ∧ (s.setEng g x).cells = s.cells ∧ (s.setEng g x).panes = s.panes ∧ (s.setEng g x).chans = s.chans ∧ (s.setEng
    g x).arrays = s.arrays ∧ (s.setEng g x).queues = s.queues ∧ (s.setEng g x).ports = s.ports ∧ (s.setEng g x).movers =
    s.movers ∧ (s.setEng g x).lvPar = s.lvPar ∧ (s.setEng g x).dies = s.dies ∧ (s.setEng g x).tbu = s.tbu ∧ (s.setEng g
    x).doms = s.doms ∧ (s.setEng g x).arms = s.arms ∧ (s.setEng g x).armedBy = s.armedBy ∧ (s.setEng g x).dm = s.dm ∧
    (s.setEng g x).pmBad = s.pmBad ∧ (s.setEng g x).srcs = s.srcs ∧ (s.setEng g x).inqs = s.inqs ∧ (s.setEng g x).worms =
    s.worms ∧ (s.setEng g x).lost = s.lost ∧ (s.setEng g x).turns = s.turns ∧ (s.setEng g x).tins = s.tins ∧ (s.setEng g
    x).owns = s.owns ∧ (s.setEng g x).selfCpl = s.selfCpl ∧ (s.setEng g x).fmSeq = s.fmSeq ∧ (s.setEng g x).fmOut = s.fmOut
    ∧ (s.setEng g x).outst = s.outst ∧ (s.setEng g x).quar = s.quar ∧ (s.setEng g x).tracked = s.tracked ∧ (s.setEng g
    x).answered = s.answered ∧ (s.setEng g x).uclLeft = s.uclLeft ∧ (s.setEng g x).uclHdr = s.uclHdr ∧ (s.setEng g
    x).uclOwed = s.uclOwed ∧ (s.setEng g x).credOff = s.credOff ∧ (s.setEng g x).ledger = s.ledger ∧ (s.setEng g x).stageBrd
    = s.stageBrd ∧ (s.setEng g x).parkBrd = s.parkBrd ∧ (s.setEng g x).lanes = s.lanes ∧ (s.setEng g x).hinges = s.hinges ∧
    (s.setEng g x).leaves = s.leaves ∧ (s.setEng g x).stages = s.stages ∧ (s.setEng g x).recalls = s.recalls ∧ (s.setEng g
    x).gsnap = s.gsnap ∧ (s.setEng g x).gsnapDue = s.gsnapDue ∧ (s.setEng g x).edgeTurn = s.edgeTurn ∧ (s.setEng g x).tickQ
    = s.tickQ ∧ (s.setEng g x).sd = s.sd ∧ (s.setEng g x).sdMiss = s.sdMiss ∧ (s.setEng g x).sdOp = s.sdOp ∧ (s.setEng g
    x).lkRecs = s.lkRecs ∧ (s.setEng g x).fm = s.fm ∧ (s.setEng g x).fmErr = s.fmErr ∧ (s.setEng g x).ddrs = s.ddrs ∧
    (s.setEng g x).pins = s.pins ∧ (s.setEng g x).fpins = s.fpins ∧ (s.setEng g x).outputs = s.outputs ∧ (s.setEng g
    x).uarts = s.uarts ∧ (s.setEng g x).i2cs = s.i2cs ∧ (s.setEng g x).spis = s.spis ∧ (s.setEng g x).fans = s.fans ∧
    (s.setEng g x).tap = s.tap ∧ (s.setEng g x).clk = s.clk ∧ (s.setEng g x).cfg = s.cfg ∧ (s.setEng g x).chk = s.chk ∧
    (s.setEng g x).imgBit = s.imgBit ∧ (s.setEng g x).store = s.store ∧ (s.setEng g x).progd = s.progd ∧ (s.setEng g
    x).unread = s.unread ∧ (s.setEng g x).otp = s.otp ∧ (s.setEng g x).otpRun = s.otpRun ∧ (s.setEng g x).power = s.power ∧
    (s.setEng g x).db = s.db ∧ (s.setEng g x).host = s.host ∧ (s.setEng g x).hostSeq = s.hostSeq ∧ (s.setEng g x).hcqs =
    s.hcqs ∧ (s.setEng g x).b2 = s.b2 ∧ (s.setEng g x).park = s.park ∧ (s.setEng g x).unparkReq = s.unparkReq ∧ (s.setEng g
    x).msixs = s.msixs ∧ (s.setEng g x).pcieUp = s.pcieUp ∧ (s.setEng g x).mcMem = s.mcMem ∧ (s.setEng g x).chn = s.chn ∧
    (s.setEng g x).core0 = s.core0 ∧ (s.setEng g x).mcCount = s.mcCount ∧ (s.setEng g x).kpr = s.kpr ∧ (s.setEng g
    x).heldAcc = s.heldAcc ∧ (s.setEng g x).hubPar = s.hubPar ∧ (s.setEng g x).fresh = s.fresh ∧ (s.setEng g x).out = s.out
    ∧ (s.setEng g x).pending = s.pending := by
  and_intros <;> rfl

@[simp] theorem State.setDm_fields (s : State) (g : ℕ) (a : ℕ) (x : Entry) :
    (s.setDm g a x).regs = s.regs ∧ (s.setDm g a x).stv = s.stv ∧ (s.setDm g a x).bank = s.bank ∧ (s.setDm g a x).frames =
    s.frames ∧ (s.setDm g a x).cells = s.cells ∧ (s.setDm g a x).panes = s.panes ∧ (s.setDm g a x).chans = s.chans ∧
    (s.setDm g a x).arrays = s.arrays ∧ (s.setDm g a x).queues = s.queues ∧ (s.setDm g a x).ports = s.ports ∧ (s.setDm g a
    x).movers = s.movers ∧ (s.setDm g a x).lvPar = s.lvPar ∧ (s.setDm g a x).dies = s.dies ∧ (s.setDm g a x).tbu = s.tbu ∧
    (s.setDm g a x).doms = s.doms ∧ (s.setDm g a x).arms = s.arms ∧ (s.setDm g a x).armedBy = s.armedBy ∧ (s.setDm g a
    x).engs = s.engs ∧ (s.setDm g a x).pmBad = s.pmBad ∧ (s.setDm g a x).srcs = s.srcs ∧ (s.setDm g a x).inqs = s.inqs ∧
    (s.setDm g a x).worms = s.worms ∧ (s.setDm g a x).lost = s.lost ∧ (s.setDm g a x).turns = s.turns ∧ (s.setDm g a x).tins
    = s.tins ∧ (s.setDm g a x).owns = s.owns ∧ (s.setDm g a x).selfCpl = s.selfCpl ∧ (s.setDm g a x).fmSeq = s.fmSeq ∧
    (s.setDm g a x).fmOut = s.fmOut ∧ (s.setDm g a x).outst = s.outst ∧ (s.setDm g a x).quar = s.quar ∧ (s.setDm g a
    x).tracked = s.tracked ∧ (s.setDm g a x).answered = s.answered ∧ (s.setDm g a x).uclLeft = s.uclLeft ∧ (s.setDm g a
    x).uclHdr = s.uclHdr ∧ (s.setDm g a x).uclOwed = s.uclOwed ∧ (s.setDm g a x).credOff = s.credOff ∧ (s.setDm g a
    x).ledger = s.ledger ∧ (s.setDm g a x).stageBrd = s.stageBrd ∧ (s.setDm g a x).parkBrd = s.parkBrd ∧ (s.setDm g a
    x).lanes = s.lanes ∧ (s.setDm g a x).hinges = s.hinges ∧ (s.setDm g a x).leaves = s.leaves ∧ (s.setDm g a x).stages =
    s.stages ∧ (s.setDm g a x).recalls = s.recalls ∧ (s.setDm g a x).gsnap = s.gsnap ∧ (s.setDm g a x).gsnapDue = s.gsnapDue
    ∧ (s.setDm g a x).edgeTurn = s.edgeTurn ∧ (s.setDm g a x).tickQ = s.tickQ ∧ (s.setDm g a x).sd = s.sd ∧ (s.setDm g a
    x).sdMiss = s.sdMiss ∧ (s.setDm g a x).sdOp = s.sdOp ∧ (s.setDm g a x).lkRecs = s.lkRecs ∧ (s.setDm g a x).fm = s.fm ∧
    (s.setDm g a x).fmErr = s.fmErr ∧ (s.setDm g a x).ddrs = s.ddrs ∧ (s.setDm g a x).pins = s.pins ∧ (s.setDm g a x).fpins
    = s.fpins ∧ (s.setDm g a x).outputs = s.outputs ∧ (s.setDm g a x).uarts = s.uarts ∧ (s.setDm g a x).i2cs = s.i2cs ∧
    (s.setDm g a x).spis = s.spis ∧ (s.setDm g a x).fans = s.fans ∧ (s.setDm g a x).tap = s.tap ∧ (s.setDm g a x).clk =
    s.clk ∧ (s.setDm g a x).cfg = s.cfg ∧ (s.setDm g a x).chk = s.chk ∧ (s.setDm g a x).imgBit = s.imgBit ∧ (s.setDm g a
    x).store = s.store ∧ (s.setDm g a x).progd = s.progd ∧ (s.setDm g a x).unread = s.unread ∧ (s.setDm g a x).otp = s.otp ∧
    (s.setDm g a x).otpRun = s.otpRun ∧ (s.setDm g a x).power = s.power ∧ (s.setDm g a x).db = s.db ∧ (s.setDm g a x).host =
    s.host ∧ (s.setDm g a x).hostSeq = s.hostSeq ∧ (s.setDm g a x).hcqs = s.hcqs ∧ (s.setDm g a x).b2 = s.b2 ∧ (s.setDm g a
    x).park = s.park ∧ (s.setDm g a x).unparkReq = s.unparkReq ∧ (s.setDm g a x).msixs = s.msixs ∧ (s.setDm g a x).pcieUp =
    s.pcieUp ∧ (s.setDm g a x).mcMem = s.mcMem ∧ (s.setDm g a x).chn = s.chn ∧ (s.setDm g a x).core0 = s.core0 ∧ (s.setDm g
    a x).mcCount = s.mcCount ∧ (s.setDm g a x).kpr = s.kpr ∧ (s.setDm g a x).heldAcc = s.heldAcc ∧ (s.setDm g a x).hubPar =
    s.hubPar ∧ (s.setDm g a x).fresh = s.fresh ∧ (s.setDm g a x).out = s.out ∧ (s.setDm g a x).pending = s.pending := by
  and_intros <;> rfl

@[simp] theorem State.setDom_fields (s : State) (t : ℕ) (x : DomainSt) :
    (s.setDom t x).regs = s.regs ∧ (s.setDom t x).stv = s.stv ∧ (s.setDom t x).bank = s.bank ∧ (s.setDom t x).frames =
    s.frames ∧ (s.setDom t x).cells = s.cells ∧ (s.setDom t x).panes = s.panes ∧ (s.setDom t x).chans = s.chans ∧ (s.setDom
    t x).arrays = s.arrays ∧ (s.setDom t x).queues = s.queues ∧ (s.setDom t x).ports = s.ports ∧ (s.setDom t x).movers =
    s.movers ∧ (s.setDom t x).lvPar = s.lvPar ∧ (s.setDom t x).dies = s.dies ∧ (s.setDom t x).tbu = s.tbu ∧ (s.setDom t
    x).arms = s.arms ∧ (s.setDom t x).armedBy = s.armedBy ∧ (s.setDom t x).engs = s.engs ∧ (s.setDom t x).dm = s.dm ∧
    (s.setDom t x).pmBad = s.pmBad ∧ (s.setDom t x).srcs = s.srcs ∧ (s.setDom t x).inqs = s.inqs ∧ (s.setDom t x).worms =
    s.worms ∧ (s.setDom t x).lost = s.lost ∧ (s.setDom t x).turns = s.turns ∧ (s.setDom t x).tins = s.tins ∧ (s.setDom t
    x).owns = s.owns ∧ (s.setDom t x).selfCpl = s.selfCpl ∧ (s.setDom t x).fmSeq = s.fmSeq ∧ (s.setDom t x).fmOut = s.fmOut
    ∧ (s.setDom t x).outst = s.outst ∧ (s.setDom t x).quar = s.quar ∧ (s.setDom t x).tracked = s.tracked ∧ (s.setDom t
    x).answered = s.answered ∧ (s.setDom t x).uclLeft = s.uclLeft ∧ (s.setDom t x).uclHdr = s.uclHdr ∧ (s.setDom t
    x).uclOwed = s.uclOwed ∧ (s.setDom t x).credOff = s.credOff ∧ (s.setDom t x).ledger = s.ledger ∧ (s.setDom t x).stageBrd
    = s.stageBrd ∧ (s.setDom t x).parkBrd = s.parkBrd ∧ (s.setDom t x).lanes = s.lanes ∧ (s.setDom t x).hinges = s.hinges ∧
    (s.setDom t x).leaves = s.leaves ∧ (s.setDom t x).stages = s.stages ∧ (s.setDom t x).recalls = s.recalls ∧ (s.setDom t
    x).gsnap = s.gsnap ∧ (s.setDom t x).gsnapDue = s.gsnapDue ∧ (s.setDom t x).edgeTurn = s.edgeTurn ∧ (s.setDom t x).tickQ
    = s.tickQ ∧ (s.setDom t x).sd = s.sd ∧ (s.setDom t x).sdMiss = s.sdMiss ∧ (s.setDom t x).sdOp = s.sdOp ∧ (s.setDom t
    x).lkRecs = s.lkRecs ∧ (s.setDom t x).fm = s.fm ∧ (s.setDom t x).fmErr = s.fmErr ∧ (s.setDom t x).ddrs = s.ddrs ∧
    (s.setDom t x).pins = s.pins ∧ (s.setDom t x).fpins = s.fpins ∧ (s.setDom t x).outputs = s.outputs ∧ (s.setDom t
    x).uarts = s.uarts ∧ (s.setDom t x).i2cs = s.i2cs ∧ (s.setDom t x).spis = s.spis ∧ (s.setDom t x).fans = s.fans ∧
    (s.setDom t x).tap = s.tap ∧ (s.setDom t x).clk = s.clk ∧ (s.setDom t x).cfg = s.cfg ∧ (s.setDom t x).chk = s.chk ∧
    (s.setDom t x).imgBit = s.imgBit ∧ (s.setDom t x).store = s.store ∧ (s.setDom t x).progd = s.progd ∧ (s.setDom t
    x).unread = s.unread ∧ (s.setDom t x).otp = s.otp ∧ (s.setDom t x).otpRun = s.otpRun ∧ (s.setDom t x).power = s.power ∧
    (s.setDom t x).db = s.db ∧ (s.setDom t x).host = s.host ∧ (s.setDom t x).hostSeq = s.hostSeq ∧ (s.setDom t x).hcqs =
    s.hcqs ∧ (s.setDom t x).b2 = s.b2 ∧ (s.setDom t x).park = s.park ∧ (s.setDom t x).unparkReq = s.unparkReq ∧ (s.setDom t
    x).msixs = s.msixs ∧ (s.setDom t x).pcieUp = s.pcieUp ∧ (s.setDom t x).mcMem = s.mcMem ∧ (s.setDom t x).chn = s.chn ∧
    (s.setDom t x).core0 = s.core0 ∧ (s.setDom t x).mcCount = s.mcCount ∧ (s.setDom t x).kpr = s.kpr ∧ (s.setDom t
    x).heldAcc = s.heldAcc ∧ (s.setDom t x).hubPar = s.hubPar ∧ (s.setDom t x).fresh = s.fresh ∧ (s.setDom t x).out = s.out
    ∧ (s.setDom t x).pending = s.pending := by
  and_intros <;> rfl

@[simp] theorem State.setArm_fields (s : State) (t : ℕ) (a : ArmSt) :
    (s.setArm t a).regs = s.regs ∧ (s.setArm t a).stv = s.stv ∧ (s.setArm t a).bank = s.bank ∧ (s.setArm t a).frames =
    s.frames ∧ (s.setArm t a).cells = s.cells ∧ (s.setArm t a).panes = s.panes ∧ (s.setArm t a).chans = s.chans ∧ (s.setArm
    t a).arrays = s.arrays ∧ (s.setArm t a).queues = s.queues ∧ (s.setArm t a).ports = s.ports ∧ (s.setArm t a).movers =
    s.movers ∧ (s.setArm t a).lvPar = s.lvPar ∧ (s.setArm t a).dies = s.dies ∧ (s.setArm t a).tbu = s.tbu ∧ (s.setArm t
    a).doms = s.doms ∧ (s.setArm t a).armedBy = s.armedBy ∧ (s.setArm t a).engs = s.engs ∧ (s.setArm t a).dm = s.dm ∧
    (s.setArm t a).pmBad = s.pmBad ∧ (s.setArm t a).srcs = s.srcs ∧ (s.setArm t a).inqs = s.inqs ∧ (s.setArm t a).worms =
    s.worms ∧ (s.setArm t a).lost = s.lost ∧ (s.setArm t a).turns = s.turns ∧ (s.setArm t a).tins = s.tins ∧ (s.setArm t
    a).owns = s.owns ∧ (s.setArm t a).selfCpl = s.selfCpl ∧ (s.setArm t a).fmSeq = s.fmSeq ∧ (s.setArm t a).fmOut = s.fmOut
    ∧ (s.setArm t a).outst = s.outst ∧ (s.setArm t a).quar = s.quar ∧ (s.setArm t a).tracked = s.tracked ∧ (s.setArm t
    a).answered = s.answered ∧ (s.setArm t a).uclLeft = s.uclLeft ∧ (s.setArm t a).uclHdr = s.uclHdr ∧ (s.setArm t
    a).uclOwed = s.uclOwed ∧ (s.setArm t a).credOff = s.credOff ∧ (s.setArm t a).ledger = s.ledger ∧ (s.setArm t a).stageBrd
    = s.stageBrd ∧ (s.setArm t a).parkBrd = s.parkBrd ∧ (s.setArm t a).lanes = s.lanes ∧ (s.setArm t a).hinges = s.hinges ∧
    (s.setArm t a).leaves = s.leaves ∧ (s.setArm t a).stages = s.stages ∧ (s.setArm t a).recalls = s.recalls ∧ (s.setArm t
    a).gsnap = s.gsnap ∧ (s.setArm t a).gsnapDue = s.gsnapDue ∧ (s.setArm t a).edgeTurn = s.edgeTurn ∧ (s.setArm t a).tickQ
    = s.tickQ ∧ (s.setArm t a).sd = s.sd ∧ (s.setArm t a).sdMiss = s.sdMiss ∧ (s.setArm t a).sdOp = s.sdOp ∧ (s.setArm t
    a).lkRecs = s.lkRecs ∧ (s.setArm t a).fm = s.fm ∧ (s.setArm t a).fmErr = s.fmErr ∧ (s.setArm t a).ddrs = s.ddrs ∧
    (s.setArm t a).pins = s.pins ∧ (s.setArm t a).fpins = s.fpins ∧ (s.setArm t a).outputs = s.outputs ∧ (s.setArm t
    a).uarts = s.uarts ∧ (s.setArm t a).i2cs = s.i2cs ∧ (s.setArm t a).spis = s.spis ∧ (s.setArm t a).fans = s.fans ∧
    (s.setArm t a).tap = s.tap ∧ (s.setArm t a).clk = s.clk ∧ (s.setArm t a).cfg = s.cfg ∧ (s.setArm t a).chk = s.chk ∧
    (s.setArm t a).imgBit = s.imgBit ∧ (s.setArm t a).store = s.store ∧ (s.setArm t a).progd = s.progd ∧ (s.setArm t
    a).unread = s.unread ∧ (s.setArm t a).otp = s.otp ∧ (s.setArm t a).otpRun = s.otpRun ∧ (s.setArm t a).power = s.power ∧
    (s.setArm t a).db = s.db ∧ (s.setArm t a).host = s.host ∧ (s.setArm t a).hostSeq = s.hostSeq ∧ (s.setArm t a).hcqs =
    s.hcqs ∧ (s.setArm t a).b2 = s.b2 ∧ (s.setArm t a).park = s.park ∧ (s.setArm t a).unparkReq = s.unparkReq ∧ (s.setArm t
    a).msixs = s.msixs ∧ (s.setArm t a).pcieUp = s.pcieUp ∧ (s.setArm t a).mcMem = s.mcMem ∧ (s.setArm t a).chn = s.chn ∧
    (s.setArm t a).core0 = s.core0 ∧ (s.setArm t a).mcCount = s.mcCount ∧ (s.setArm t a).kpr = s.kpr ∧ (s.setArm t
    a).heldAcc = s.heldAcc ∧ (s.setArm t a).hubPar = s.hubPar ∧ (s.setArm t a).fresh = s.fresh ∧ (s.setArm t a).out = s.out
    ∧ (s.setArm t a).pending = s.pending := by
  and_intros <;> rfl

@[simp] theorem State.setSdEnt_fields (s : State) (i : ℕ) (x : SdEnt) :
    (s.setSdEnt i x).regs = s.regs ∧ (s.setSdEnt i x).stv = s.stv ∧ (s.setSdEnt i x).bank = s.bank ∧ (s.setSdEnt i x).frames
    = s.frames ∧ (s.setSdEnt i x).cells = s.cells ∧ (s.setSdEnt i x).panes = s.panes ∧ (s.setSdEnt i x).chans = s.chans ∧
    (s.setSdEnt i x).arrays = s.arrays ∧ (s.setSdEnt i x).queues = s.queues ∧ (s.setSdEnt i x).ports = s.ports ∧ (s.setSdEnt
    i x).movers = s.movers ∧ (s.setSdEnt i x).lvPar = s.lvPar ∧ (s.setSdEnt i x).dies = s.dies ∧ (s.setSdEnt i x).tbu =
    s.tbu ∧ (s.setSdEnt i x).doms = s.doms ∧ (s.setSdEnt i x).arms = s.arms ∧ (s.setSdEnt i x).armedBy = s.armedBy ∧
    (s.setSdEnt i x).engs = s.engs ∧ (s.setSdEnt i x).dm = s.dm ∧ (s.setSdEnt i x).pmBad = s.pmBad ∧ (s.setSdEnt i x).srcs =
    s.srcs ∧ (s.setSdEnt i x).inqs = s.inqs ∧ (s.setSdEnt i x).worms = s.worms ∧ (s.setSdEnt i x).lost = s.lost ∧
    (s.setSdEnt i x).turns = s.turns ∧ (s.setSdEnt i x).tins = s.tins ∧ (s.setSdEnt i x).owns = s.owns ∧ (s.setSdEnt i
    x).selfCpl = s.selfCpl ∧ (s.setSdEnt i x).fmSeq = s.fmSeq ∧ (s.setSdEnt i x).fmOut = s.fmOut ∧ (s.setSdEnt i x).outst =
    s.outst ∧ (s.setSdEnt i x).quar = s.quar ∧ (s.setSdEnt i x).tracked = s.tracked ∧ (s.setSdEnt i x).answered = s.answered
    ∧ (s.setSdEnt i x).uclLeft = s.uclLeft ∧ (s.setSdEnt i x).uclHdr = s.uclHdr ∧ (s.setSdEnt i x).uclOwed = s.uclOwed ∧
    (s.setSdEnt i x).credOff = s.credOff ∧ (s.setSdEnt i x).ledger = s.ledger ∧ (s.setSdEnt i x).stageBrd = s.stageBrd ∧
    (s.setSdEnt i x).parkBrd = s.parkBrd ∧ (s.setSdEnt i x).lanes = s.lanes ∧ (s.setSdEnt i x).hinges = s.hinges ∧
    (s.setSdEnt i x).leaves = s.leaves ∧ (s.setSdEnt i x).stages = s.stages ∧ (s.setSdEnt i x).recalls = s.recalls ∧
    (s.setSdEnt i x).gsnap = s.gsnap ∧ (s.setSdEnt i x).gsnapDue = s.gsnapDue ∧ (s.setSdEnt i x).edgeTurn = s.edgeTurn ∧
    (s.setSdEnt i x).tickQ = s.tickQ ∧ (s.setSdEnt i x).sdMiss = s.sdMiss ∧ (s.setSdEnt i x).sdOp = s.sdOp ∧ (s.setSdEnt i
    x).lkRecs = s.lkRecs ∧ (s.setSdEnt i x).fm = s.fm ∧ (s.setSdEnt i x).fmErr = s.fmErr ∧ (s.setSdEnt i x).ddrs = s.ddrs ∧
    (s.setSdEnt i x).pins = s.pins ∧ (s.setSdEnt i x).fpins = s.fpins ∧ (s.setSdEnt i x).outputs = s.outputs ∧ (s.setSdEnt i
    x).uarts = s.uarts ∧ (s.setSdEnt i x).i2cs = s.i2cs ∧ (s.setSdEnt i x).spis = s.spis ∧ (s.setSdEnt i x).fans = s.fans ∧
    (s.setSdEnt i x).tap = s.tap ∧ (s.setSdEnt i x).clk = s.clk ∧ (s.setSdEnt i x).cfg = s.cfg ∧ (s.setSdEnt i x).chk =
    s.chk ∧ (s.setSdEnt i x).imgBit = s.imgBit ∧ (s.setSdEnt i x).store = s.store ∧ (s.setSdEnt i x).progd = s.progd ∧
    (s.setSdEnt i x).unread = s.unread ∧ (s.setSdEnt i x).otp = s.otp ∧ (s.setSdEnt i x).otpRun = s.otpRun ∧ (s.setSdEnt i
    x).power = s.power ∧ (s.setSdEnt i x).db = s.db ∧ (s.setSdEnt i x).host = s.host ∧ (s.setSdEnt i x).hostSeq = s.hostSeq
    ∧ (s.setSdEnt i x).hcqs = s.hcqs ∧ (s.setSdEnt i x).b2 = s.b2 ∧ (s.setSdEnt i x).park = s.park ∧ (s.setSdEnt i
    x).unparkReq = s.unparkReq ∧ (s.setSdEnt i x).msixs = s.msixs ∧ (s.setSdEnt i x).pcieUp = s.pcieUp ∧ (s.setSdEnt i
    x).mcMem = s.mcMem ∧ (s.setSdEnt i x).chn = s.chn ∧ (s.setSdEnt i x).core0 = s.core0 ∧ (s.setSdEnt i x).mcCount =
    s.mcCount ∧ (s.setSdEnt i x).kpr = s.kpr ∧ (s.setSdEnt i x).heldAcc = s.heldAcc ∧ (s.setSdEnt i x).hubPar = s.hubPar ∧
    (s.setSdEnt i x).fresh = s.fresh ∧ (s.setSdEnt i x).out = s.out ∧ (s.setSdEnt i x).pending = s.pending := by
  and_intros <;> rfl

@[simp] theorem State.setDdr_fields (s : State) (c : ℕ) (x : DdrSt) :
    (s.setDdr c x).regs = s.regs ∧ (s.setDdr c x).stv = s.stv ∧ (s.setDdr c x).bank = s.bank ∧ (s.setDdr c x).frames =
    s.frames ∧ (s.setDdr c x).cells = s.cells ∧ (s.setDdr c x).panes = s.panes ∧ (s.setDdr c x).chans = s.chans ∧ (s.setDdr
    c x).arrays = s.arrays ∧ (s.setDdr c x).queues = s.queues ∧ (s.setDdr c x).ports = s.ports ∧ (s.setDdr c x).movers =
    s.movers ∧ (s.setDdr c x).lvPar = s.lvPar ∧ (s.setDdr c x).dies = s.dies ∧ (s.setDdr c x).tbu = s.tbu ∧ (s.setDdr c
    x).doms = s.doms ∧ (s.setDdr c x).arms = s.arms ∧ (s.setDdr c x).armedBy = s.armedBy ∧ (s.setDdr c x).engs = s.engs ∧
    (s.setDdr c x).dm = s.dm ∧ (s.setDdr c x).pmBad = s.pmBad ∧ (s.setDdr c x).srcs = s.srcs ∧ (s.setDdr c x).inqs = s.inqs
    ∧ (s.setDdr c x).worms = s.worms ∧ (s.setDdr c x).lost = s.lost ∧ (s.setDdr c x).turns = s.turns ∧ (s.setDdr c x).tins =
    s.tins ∧ (s.setDdr c x).owns = s.owns ∧ (s.setDdr c x).selfCpl = s.selfCpl ∧ (s.setDdr c x).fmSeq = s.fmSeq ∧ (s.setDdr
    c x).fmOut = s.fmOut ∧ (s.setDdr c x).outst = s.outst ∧ (s.setDdr c x).quar = s.quar ∧ (s.setDdr c x).tracked =
    s.tracked ∧ (s.setDdr c x).answered = s.answered ∧ (s.setDdr c x).uclLeft = s.uclLeft ∧ (s.setDdr c x).uclHdr = s.uclHdr
    ∧ (s.setDdr c x).uclOwed = s.uclOwed ∧ (s.setDdr c x).credOff = s.credOff ∧ (s.setDdr c x).ledger = s.ledger ∧ (s.setDdr
    c x).stageBrd = s.stageBrd ∧ (s.setDdr c x).parkBrd = s.parkBrd ∧ (s.setDdr c x).lanes = s.lanes ∧ (s.setDdr c x).hinges
    = s.hinges ∧ (s.setDdr c x).leaves = s.leaves ∧ (s.setDdr c x).stages = s.stages ∧ (s.setDdr c x).recalls = s.recalls ∧
    (s.setDdr c x).gsnap = s.gsnap ∧ (s.setDdr c x).gsnapDue = s.gsnapDue ∧ (s.setDdr c x).edgeTurn = s.edgeTurn ∧ (s.setDdr
    c x).tickQ = s.tickQ ∧ (s.setDdr c x).sd = s.sd ∧ (s.setDdr c x).sdMiss = s.sdMiss ∧ (s.setDdr c x).sdOp = s.sdOp ∧
    (s.setDdr c x).lkRecs = s.lkRecs ∧ (s.setDdr c x).fm = s.fm ∧ (s.setDdr c x).fmErr = s.fmErr ∧ (s.setDdr c x).pins =
    s.pins ∧ (s.setDdr c x).fpins = s.fpins ∧ (s.setDdr c x).outputs = s.outputs ∧ (s.setDdr c x).uarts = s.uarts ∧
    (s.setDdr c x).i2cs = s.i2cs ∧ (s.setDdr c x).spis = s.spis ∧ (s.setDdr c x).fans = s.fans ∧ (s.setDdr c x).tap = s.tap
    ∧ (s.setDdr c x).clk = s.clk ∧ (s.setDdr c x).cfg = s.cfg ∧ (s.setDdr c x).chk = s.chk ∧ (s.setDdr c x).imgBit =
    s.imgBit ∧ (s.setDdr c x).store = s.store ∧ (s.setDdr c x).progd = s.progd ∧ (s.setDdr c x).unread = s.unread ∧
    (s.setDdr c x).otp = s.otp ∧ (s.setDdr c x).otpRun = s.otpRun ∧ (s.setDdr c x).power = s.power ∧ (s.setDdr c x).db =
    s.db ∧ (s.setDdr c x).host = s.host ∧ (s.setDdr c x).hostSeq = s.hostSeq ∧ (s.setDdr c x).hcqs = s.hcqs ∧ (s.setDdr c
    x).b2 = s.b2 ∧ (s.setDdr c x).park = s.park ∧ (s.setDdr c x).unparkReq = s.unparkReq ∧ (s.setDdr c x).msixs = s.msixs ∧
    (s.setDdr c x).pcieUp = s.pcieUp ∧ (s.setDdr c x).mcMem = s.mcMem ∧ (s.setDdr c x).chn = s.chn ∧ (s.setDdr c x).core0 =
    s.core0 ∧ (s.setDdr c x).mcCount = s.mcCount ∧ (s.setDdr c x).kpr = s.kpr ∧ (s.setDdr c x).heldAcc = s.heldAcc ∧
    (s.setDdr c x).hubPar = s.hubPar ∧ (s.setDdr c x).fresh = s.fresh ∧ (s.setDdr c x).out = s.out ∧ (s.setDdr c x).pending
    = s.pending := by
  and_intros <;> rfl

@[simp] theorem State.setFmWord_fields (s : State) (sc : ℕ) (bl : ℕ) (k : ℕ) (w : Word) :
    (s.setFmWord sc bl k w).regs = s.regs ∧ (s.setFmWord sc bl k w).stv = s.stv ∧ (s.setFmWord sc bl k w).bank = s.bank ∧
    (s.setFmWord sc bl k w).frames = s.frames ∧ (s.setFmWord sc bl k w).cells = s.cells ∧ (s.setFmWord sc bl k w).panes =
    s.panes ∧ (s.setFmWord sc bl k w).chans = s.chans ∧ (s.setFmWord sc bl k w).arrays = s.arrays ∧ (s.setFmWord sc bl k
    w).queues = s.queues ∧ (s.setFmWord sc bl k w).ports = s.ports ∧ (s.setFmWord sc bl k w).movers = s.movers ∧
    (s.setFmWord sc bl k w).lvPar = s.lvPar ∧ (s.setFmWord sc bl k w).dies = s.dies ∧ (s.setFmWord sc bl k w).tbu = s.tbu ∧
    (s.setFmWord sc bl k w).doms = s.doms ∧ (s.setFmWord sc bl k w).arms = s.arms ∧ (s.setFmWord sc bl k w).armedBy =
    s.armedBy ∧ (s.setFmWord sc bl k w).engs = s.engs ∧ (s.setFmWord sc bl k w).dm = s.dm ∧ (s.setFmWord sc bl k w).pmBad =
    s.pmBad ∧ (s.setFmWord sc bl k w).srcs = s.srcs ∧ (s.setFmWord sc bl k w).inqs = s.inqs ∧ (s.setFmWord sc bl k w).worms
    = s.worms ∧ (s.setFmWord sc bl k w).lost = s.lost ∧ (s.setFmWord sc bl k w).turns = s.turns ∧ (s.setFmWord sc bl k
    w).tins = s.tins ∧ (s.setFmWord sc bl k w).owns = s.owns ∧ (s.setFmWord sc bl k w).selfCpl = s.selfCpl ∧ (s.setFmWord sc
    bl k w).fmSeq = s.fmSeq ∧ (s.setFmWord sc bl k w).fmOut = s.fmOut ∧ (s.setFmWord sc bl k w).outst = s.outst ∧
    (s.setFmWord sc bl k w).quar = s.quar ∧ (s.setFmWord sc bl k w).tracked = s.tracked ∧ (s.setFmWord sc bl k w).answered =
    s.answered ∧ (s.setFmWord sc bl k w).uclLeft = s.uclLeft ∧ (s.setFmWord sc bl k w).uclHdr = s.uclHdr ∧ (s.setFmWord sc
    bl k w).uclOwed = s.uclOwed ∧ (s.setFmWord sc bl k w).credOff = s.credOff ∧ (s.setFmWord sc bl k w).ledger = s.ledger ∧
    (s.setFmWord sc bl k w).stageBrd = s.stageBrd ∧ (s.setFmWord sc bl k w).parkBrd = s.parkBrd ∧ (s.setFmWord sc bl k
    w).lanes = s.lanes ∧ (s.setFmWord sc bl k w).hinges = s.hinges ∧ (s.setFmWord sc bl k w).leaves = s.leaves ∧
    (s.setFmWord sc bl k w).stages = s.stages ∧ (s.setFmWord sc bl k w).recalls = s.recalls ∧ (s.setFmWord sc bl k w).gsnap
    = s.gsnap ∧ (s.setFmWord sc bl k w).gsnapDue = s.gsnapDue ∧ (s.setFmWord sc bl k w).edgeTurn = s.edgeTurn ∧ (s.setFmWord
    sc bl k w).tickQ = s.tickQ ∧ (s.setFmWord sc bl k w).sd = s.sd ∧ (s.setFmWord sc bl k w).sdMiss = s.sdMiss ∧
    (s.setFmWord sc bl k w).sdOp = s.sdOp ∧ (s.setFmWord sc bl k w).lkRecs = s.lkRecs ∧ (s.setFmWord sc bl k w).fmErr =
    s.fmErr ∧ (s.setFmWord sc bl k w).ddrs = s.ddrs ∧ (s.setFmWord sc bl k w).pins = s.pins ∧ (s.setFmWord sc bl k w).fpins
    = s.fpins ∧ (s.setFmWord sc bl k w).outputs = s.outputs ∧ (s.setFmWord sc bl k w).uarts = s.uarts ∧ (s.setFmWord sc bl k
    w).i2cs = s.i2cs ∧ (s.setFmWord sc bl k w).spis = s.spis ∧ (s.setFmWord sc bl k w).fans = s.fans ∧ (s.setFmWord sc bl k
    w).tap = s.tap ∧ (s.setFmWord sc bl k w).clk = s.clk ∧ (s.setFmWord sc bl k w).cfg = s.cfg ∧ (s.setFmWord sc bl k w).chk
    = s.chk ∧ (s.setFmWord sc bl k w).imgBit = s.imgBit ∧ (s.setFmWord sc bl k w).store = s.store ∧ (s.setFmWord sc bl k
    w).progd = s.progd ∧ (s.setFmWord sc bl k w).unread = s.unread ∧ (s.setFmWord sc bl k w).otp = s.otp ∧ (s.setFmWord sc
    bl k w).otpRun = s.otpRun ∧ (s.setFmWord sc bl k w).power = s.power ∧ (s.setFmWord sc bl k w).db = s.db ∧ (s.setFmWord
    sc bl k w).host = s.host ∧ (s.setFmWord sc bl k w).hostSeq = s.hostSeq ∧ (s.setFmWord sc bl k w).hcqs = s.hcqs ∧
    (s.setFmWord sc bl k w).b2 = s.b2 ∧ (s.setFmWord sc bl k w).park = s.park ∧ (s.setFmWord sc bl k w).unparkReq =
    s.unparkReq ∧ (s.setFmWord sc bl k w).msixs = s.msixs ∧ (s.setFmWord sc bl k w).pcieUp = s.pcieUp ∧ (s.setFmWord sc bl k
    w).mcMem = s.mcMem ∧ (s.setFmWord sc bl k w).chn = s.chn ∧ (s.setFmWord sc bl k w).core0 = s.core0 ∧ (s.setFmWord sc bl
    k w).mcCount = s.mcCount ∧ (s.setFmWord sc bl k w).kpr = s.kpr ∧ (s.setFmWord sc bl k w).heldAcc = s.heldAcc ∧
    (s.setFmWord sc bl k w).hubPar = s.hubPar ∧ (s.setFmWord sc bl k w).fresh = s.fresh ∧ (s.setFmWord sc bl k w).out =
    s.out ∧ (s.setFmWord sc bl k w).pending = s.pending := by
  and_intros <;> rfl

@[simp] theorem State.setBlkErr_fields (s : State) (sc : ℕ) (bl : ℕ) (x : BlkErr) :
    (s.setBlkErr sc bl x).regs = s.regs ∧ (s.setBlkErr sc bl x).stv = s.stv ∧ (s.setBlkErr sc bl x).bank = s.bank ∧
    (s.setBlkErr sc bl x).frames = s.frames ∧ (s.setBlkErr sc bl x).cells = s.cells ∧ (s.setBlkErr sc bl x).panes = s.panes
    ∧ (s.setBlkErr sc bl x).chans = s.chans ∧ (s.setBlkErr sc bl x).arrays = s.arrays ∧ (s.setBlkErr sc bl x).queues =
    s.queues ∧ (s.setBlkErr sc bl x).ports = s.ports ∧ (s.setBlkErr sc bl x).movers = s.movers ∧ (s.setBlkErr sc bl x).lvPar
    = s.lvPar ∧ (s.setBlkErr sc bl x).dies = s.dies ∧ (s.setBlkErr sc bl x).tbu = s.tbu ∧ (s.setBlkErr sc bl x).doms =
    s.doms ∧ (s.setBlkErr sc bl x).arms = s.arms ∧ (s.setBlkErr sc bl x).armedBy = s.armedBy ∧ (s.setBlkErr sc bl x).engs =
    s.engs ∧ (s.setBlkErr sc bl x).dm = s.dm ∧ (s.setBlkErr sc bl x).pmBad = s.pmBad ∧ (s.setBlkErr sc bl x).srcs = s.srcs ∧
    (s.setBlkErr sc bl x).inqs = s.inqs ∧ (s.setBlkErr sc bl x).worms = s.worms ∧ (s.setBlkErr sc bl x).lost = s.lost ∧
    (s.setBlkErr sc bl x).turns = s.turns ∧ (s.setBlkErr sc bl x).tins = s.tins ∧ (s.setBlkErr sc bl x).owns = s.owns ∧
    (s.setBlkErr sc bl x).selfCpl = s.selfCpl ∧ (s.setBlkErr sc bl x).fmSeq = s.fmSeq ∧ (s.setBlkErr sc bl x).fmOut =
    s.fmOut ∧ (s.setBlkErr sc bl x).outst = s.outst ∧ (s.setBlkErr sc bl x).quar = s.quar ∧ (s.setBlkErr sc bl x).tracked =
    s.tracked ∧ (s.setBlkErr sc bl x).answered = s.answered ∧ (s.setBlkErr sc bl x).uclLeft = s.uclLeft ∧ (s.setBlkErr sc bl
    x).uclHdr = s.uclHdr ∧ (s.setBlkErr sc bl x).uclOwed = s.uclOwed ∧ (s.setBlkErr sc bl x).credOff = s.credOff ∧
    (s.setBlkErr sc bl x).ledger = s.ledger ∧ (s.setBlkErr sc bl x).stageBrd = s.stageBrd ∧ (s.setBlkErr sc bl x).parkBrd =
    s.parkBrd ∧ (s.setBlkErr sc bl x).lanes = s.lanes ∧ (s.setBlkErr sc bl x).hinges = s.hinges ∧ (s.setBlkErr sc bl
    x).leaves = s.leaves ∧ (s.setBlkErr sc bl x).stages = s.stages ∧ (s.setBlkErr sc bl x).recalls = s.recalls ∧
    (s.setBlkErr sc bl x).gsnap = s.gsnap ∧ (s.setBlkErr sc bl x).gsnapDue = s.gsnapDue ∧ (s.setBlkErr sc bl x).edgeTurn =
    s.edgeTurn ∧ (s.setBlkErr sc bl x).tickQ = s.tickQ ∧ (s.setBlkErr sc bl x).sd = s.sd ∧ (s.setBlkErr sc bl x).sdMiss =
    s.sdMiss ∧ (s.setBlkErr sc bl x).sdOp = s.sdOp ∧ (s.setBlkErr sc bl x).lkRecs = s.lkRecs ∧ (s.setBlkErr sc bl x).fm =
    s.fm ∧ (s.setBlkErr sc bl x).ddrs = s.ddrs ∧ (s.setBlkErr sc bl x).pins = s.pins ∧ (s.setBlkErr sc bl x).fpins = s.fpins
    ∧ (s.setBlkErr sc bl x).outputs = s.outputs ∧ (s.setBlkErr sc bl x).uarts = s.uarts ∧ (s.setBlkErr sc bl x).i2cs =
    s.i2cs ∧ (s.setBlkErr sc bl x).spis = s.spis ∧ (s.setBlkErr sc bl x).fans = s.fans ∧ (s.setBlkErr sc bl x).tap = s.tap ∧
    (s.setBlkErr sc bl x).clk = s.clk ∧ (s.setBlkErr sc bl x).cfg = s.cfg ∧ (s.setBlkErr sc bl x).chk = s.chk ∧ (s.setBlkErr
    sc bl x).imgBit = s.imgBit ∧ (s.setBlkErr sc bl x).store = s.store ∧ (s.setBlkErr sc bl x).progd = s.progd ∧
    (s.setBlkErr sc bl x).unread = s.unread ∧ (s.setBlkErr sc bl x).otp = s.otp ∧ (s.setBlkErr sc bl x).otpRun = s.otpRun ∧
    (s.setBlkErr sc bl x).power = s.power ∧ (s.setBlkErr sc bl x).db = s.db ∧ (s.setBlkErr sc bl x).host = s.host ∧
    (s.setBlkErr sc bl x).hostSeq = s.hostSeq ∧ (s.setBlkErr sc bl x).hcqs = s.hcqs ∧ (s.setBlkErr sc bl x).b2 = s.b2 ∧
    (s.setBlkErr sc bl x).park = s.park ∧ (s.setBlkErr sc bl x).unparkReq = s.unparkReq ∧ (s.setBlkErr sc bl x).msixs =
    s.msixs ∧ (s.setBlkErr sc bl x).pcieUp = s.pcieUp ∧ (s.setBlkErr sc bl x).mcMem = s.mcMem ∧ (s.setBlkErr sc bl x).chn =
    s.chn ∧ (s.setBlkErr sc bl x).core0 = s.core0 ∧ (s.setBlkErr sc bl x).mcCount = s.mcCount ∧ (s.setBlkErr sc bl x).kpr =
    s.kpr ∧ (s.setBlkErr sc bl x).heldAcc = s.heldAcc ∧ (s.setBlkErr sc bl x).hubPar = s.hubPar ∧ (s.setBlkErr sc bl
    x).fresh = s.fresh ∧ (s.setBlkErr sc bl x).out = s.out ∧ (s.setBlkErr sc bl x).pending = s.pending := by
  and_intros <;> rfl

@[simp] theorem State.setHinge_fields (s : State) (k : ℕ) (x : HingeSt) :
    (s.setHinge k x).regs = s.regs ∧ (s.setHinge k x).stv = s.stv ∧ (s.setHinge k x).bank = s.bank ∧ (s.setHinge k x).frames
    = s.frames ∧ (s.setHinge k x).cells = s.cells ∧ (s.setHinge k x).panes = s.panes ∧ (s.setHinge k x).chans = s.chans ∧
    (s.setHinge k x).arrays = s.arrays ∧ (s.setHinge k x).queues = s.queues ∧ (s.setHinge k x).ports = s.ports ∧ (s.setHinge
    k x).movers = s.movers ∧ (s.setHinge k x).lvPar = s.lvPar ∧ (s.setHinge k x).dies = s.dies ∧ (s.setHinge k x).tbu =
    s.tbu ∧ (s.setHinge k x).doms = s.doms ∧ (s.setHinge k x).arms = s.arms ∧ (s.setHinge k x).armedBy = s.armedBy ∧
    (s.setHinge k x).engs = s.engs ∧ (s.setHinge k x).dm = s.dm ∧ (s.setHinge k x).pmBad = s.pmBad ∧ (s.setHinge k x).srcs =
    s.srcs ∧ (s.setHinge k x).inqs = s.inqs ∧ (s.setHinge k x).worms = s.worms ∧ (s.setHinge k x).lost = s.lost ∧
    (s.setHinge k x).turns = s.turns ∧ (s.setHinge k x).tins = s.tins ∧ (s.setHinge k x).owns = s.owns ∧ (s.setHinge k
    x).selfCpl = s.selfCpl ∧ (s.setHinge k x).fmSeq = s.fmSeq ∧ (s.setHinge k x).fmOut = s.fmOut ∧ (s.setHinge k x).outst =
    s.outst ∧ (s.setHinge k x).quar = s.quar ∧ (s.setHinge k x).tracked = s.tracked ∧ (s.setHinge k x).answered = s.answered
    ∧ (s.setHinge k x).uclLeft = s.uclLeft ∧ (s.setHinge k x).uclHdr = s.uclHdr ∧ (s.setHinge k x).uclOwed = s.uclOwed ∧
    (s.setHinge k x).credOff = s.credOff ∧ (s.setHinge k x).ledger = s.ledger ∧ (s.setHinge k x).stageBrd = s.stageBrd ∧
    (s.setHinge k x).parkBrd = s.parkBrd ∧ (s.setHinge k x).lanes = s.lanes ∧ (s.setHinge k x).leaves = s.leaves ∧
    (s.setHinge k x).stages = s.stages ∧ (s.setHinge k x).recalls = s.recalls ∧ (s.setHinge k x).gsnap = s.gsnap ∧
    (s.setHinge k x).gsnapDue = s.gsnapDue ∧ (s.setHinge k x).edgeTurn = s.edgeTurn ∧ (s.setHinge k x).tickQ = s.tickQ ∧
    (s.setHinge k x).sd = s.sd ∧ (s.setHinge k x).sdMiss = s.sdMiss ∧ (s.setHinge k x).sdOp = s.sdOp ∧ (s.setHinge k
    x).lkRecs = s.lkRecs ∧ (s.setHinge k x).fm = s.fm ∧ (s.setHinge k x).fmErr = s.fmErr ∧ (s.setHinge k x).ddrs = s.ddrs ∧
    (s.setHinge k x).pins = s.pins ∧ (s.setHinge k x).fpins = s.fpins ∧ (s.setHinge k x).outputs = s.outputs ∧ (s.setHinge k
    x).uarts = s.uarts ∧ (s.setHinge k x).i2cs = s.i2cs ∧ (s.setHinge k x).spis = s.spis ∧ (s.setHinge k x).fans = s.fans ∧
    (s.setHinge k x).tap = s.tap ∧ (s.setHinge k x).clk = s.clk ∧ (s.setHinge k x).cfg = s.cfg ∧ (s.setHinge k x).chk =
    s.chk ∧ (s.setHinge k x).imgBit = s.imgBit ∧ (s.setHinge k x).store = s.store ∧ (s.setHinge k x).progd = s.progd ∧
    (s.setHinge k x).unread = s.unread ∧ (s.setHinge k x).otp = s.otp ∧ (s.setHinge k x).otpRun = s.otpRun ∧ (s.setHinge k
    x).power = s.power ∧ (s.setHinge k x).db = s.db ∧ (s.setHinge k x).host = s.host ∧ (s.setHinge k x).hostSeq = s.hostSeq
    ∧ (s.setHinge k x).hcqs = s.hcqs ∧ (s.setHinge k x).b2 = s.b2 ∧ (s.setHinge k x).park = s.park ∧ (s.setHinge k
    x).unparkReq = s.unparkReq ∧ (s.setHinge k x).msixs = s.msixs ∧ (s.setHinge k x).pcieUp = s.pcieUp ∧ (s.setHinge k
    x).mcMem = s.mcMem ∧ (s.setHinge k x).chn = s.chn ∧ (s.setHinge k x).core0 = s.core0 ∧ (s.setHinge k x).mcCount =
    s.mcCount ∧ (s.setHinge k x).kpr = s.kpr ∧ (s.setHinge k x).heldAcc = s.heldAcc ∧ (s.setHinge k x).hubPar = s.hubPar ∧
    (s.setHinge k x).fresh = s.fresh ∧ (s.setHinge k x).out = s.out ∧ (s.setHinge k x).pending = s.pending := by
  and_intros <;> rfl

@[simp] theorem State.setLeaf_fields (s : State) (e : ℕ) (j : ℕ) (x : LeafSt) :
    (s.setLeaf e j x).regs = s.regs ∧ (s.setLeaf e j x).stv = s.stv ∧ (s.setLeaf e j x).bank = s.bank ∧ (s.setLeaf e j
    x).frames = s.frames ∧ (s.setLeaf e j x).cells = s.cells ∧ (s.setLeaf e j x).panes = s.panes ∧ (s.setLeaf e j x).chans =
    s.chans ∧ (s.setLeaf e j x).arrays = s.arrays ∧ (s.setLeaf e j x).queues = s.queues ∧ (s.setLeaf e j x).ports = s.ports
    ∧ (s.setLeaf e j x).movers = s.movers ∧ (s.setLeaf e j x).lvPar = s.lvPar ∧ (s.setLeaf e j x).dies = s.dies ∧ (s.setLeaf
    e j x).tbu = s.tbu ∧ (s.setLeaf e j x).doms = s.doms ∧ (s.setLeaf e j x).arms = s.arms ∧ (s.setLeaf e j x).armedBy =
    s.armedBy ∧ (s.setLeaf e j x).engs = s.engs ∧ (s.setLeaf e j x).dm = s.dm ∧ (s.setLeaf e j x).pmBad = s.pmBad ∧
    (s.setLeaf e j x).srcs = s.srcs ∧ (s.setLeaf e j x).inqs = s.inqs ∧ (s.setLeaf e j x).worms = s.worms ∧ (s.setLeaf e j
    x).lost = s.lost ∧ (s.setLeaf e j x).turns = s.turns ∧ (s.setLeaf e j x).tins = s.tins ∧ (s.setLeaf e j x).owns = s.owns
    ∧ (s.setLeaf e j x).selfCpl = s.selfCpl ∧ (s.setLeaf e j x).fmSeq = s.fmSeq ∧ (s.setLeaf e j x).fmOut = s.fmOut ∧
    (s.setLeaf e j x).outst = s.outst ∧ (s.setLeaf e j x).quar = s.quar ∧ (s.setLeaf e j x).tracked = s.tracked ∧ (s.setLeaf
    e j x).answered = s.answered ∧ (s.setLeaf e j x).uclLeft = s.uclLeft ∧ (s.setLeaf e j x).uclHdr = s.uclHdr ∧ (s.setLeaf
    e j x).uclOwed = s.uclOwed ∧ (s.setLeaf e j x).credOff = s.credOff ∧ (s.setLeaf e j x).ledger = s.ledger ∧ (s.setLeaf e
    j x).stageBrd = s.stageBrd ∧ (s.setLeaf e j x).parkBrd = s.parkBrd ∧ (s.setLeaf e j x).lanes = s.lanes ∧ (s.setLeaf e j
    x).hinges = s.hinges ∧ (s.setLeaf e j x).stages = s.stages ∧ (s.setLeaf e j x).recalls = s.recalls ∧ (s.setLeaf e j
    x).gsnap = s.gsnap ∧ (s.setLeaf e j x).gsnapDue = s.gsnapDue ∧ (s.setLeaf e j x).edgeTurn = s.edgeTurn ∧ (s.setLeaf e j
    x).tickQ = s.tickQ ∧ (s.setLeaf e j x).sd = s.sd ∧ (s.setLeaf e j x).sdMiss = s.sdMiss ∧ (s.setLeaf e j x).sdOp = s.sdOp
    ∧ (s.setLeaf e j x).lkRecs = s.lkRecs ∧ (s.setLeaf e j x).fm = s.fm ∧ (s.setLeaf e j x).fmErr = s.fmErr ∧ (s.setLeaf e j
    x).ddrs = s.ddrs ∧ (s.setLeaf e j x).pins = s.pins ∧ (s.setLeaf e j x).fpins = s.fpins ∧ (s.setLeaf e j x).outputs =
    s.outputs ∧ (s.setLeaf e j x).uarts = s.uarts ∧ (s.setLeaf e j x).i2cs = s.i2cs ∧ (s.setLeaf e j x).spis = s.spis ∧
    (s.setLeaf e j x).fans = s.fans ∧ (s.setLeaf e j x).tap = s.tap ∧ (s.setLeaf e j x).clk = s.clk ∧ (s.setLeaf e j x).cfg
    = s.cfg ∧ (s.setLeaf e j x).chk = s.chk ∧ (s.setLeaf e j x).imgBit = s.imgBit ∧ (s.setLeaf e j x).store = s.store ∧
    (s.setLeaf e j x).progd = s.progd ∧ (s.setLeaf e j x).unread = s.unread ∧ (s.setLeaf e j x).otp = s.otp ∧ (s.setLeaf e j
    x).otpRun = s.otpRun ∧ (s.setLeaf e j x).power = s.power ∧ (s.setLeaf e j x).db = s.db ∧ (s.setLeaf e j x).host = s.host
    ∧ (s.setLeaf e j x).hostSeq = s.hostSeq ∧ (s.setLeaf e j x).hcqs = s.hcqs ∧ (s.setLeaf e j x).b2 = s.b2 ∧ (s.setLeaf e j
    x).park = s.park ∧ (s.setLeaf e j x).unparkReq = s.unparkReq ∧ (s.setLeaf e j x).msixs = s.msixs ∧ (s.setLeaf e j
    x).pcieUp = s.pcieUp ∧ (s.setLeaf e j x).mcMem = s.mcMem ∧ (s.setLeaf e j x).chn = s.chn ∧ (s.setLeaf e j x).core0 =
    s.core0 ∧ (s.setLeaf e j x).mcCount = s.mcCount ∧ (s.setLeaf e j x).kpr = s.kpr ∧ (s.setLeaf e j x).heldAcc = s.heldAcc
    ∧ (s.setLeaf e j x).hubPar = s.hubPar ∧ (s.setLeaf e j x).fresh = s.fresh ∧ (s.setLeaf e j x).out = s.out ∧ (s.setLeaf e
    j x).pending = s.pending := by
  and_intros <;> rfl

@[simp] theorem State.setStage_fields (s : State) (e : ℕ) (x : ℕ) (v : ℕ) (y : StageSt) :
    (s.setStage e x v y).regs = s.regs ∧ (s.setStage e x v y).stv = s.stv ∧ (s.setStage e x v y).bank = s.bank ∧ (s.setStage
    e x v y).frames = s.frames ∧ (s.setStage e x v y).cells = s.cells ∧ (s.setStage e x v y).panes = s.panes ∧ (s.setStage e
    x v y).chans = s.chans ∧ (s.setStage e x v y).arrays = s.arrays ∧ (s.setStage e x v y).queues = s.queues ∧ (s.setStage e
    x v y).ports = s.ports ∧ (s.setStage e x v y).movers = s.movers ∧ (s.setStage e x v y).lvPar = s.lvPar ∧ (s.setStage e x
    v y).dies = s.dies ∧ (s.setStage e x v y).tbu = s.tbu ∧ (s.setStage e x v y).doms = s.doms ∧ (s.setStage e x v y).arms =
    s.arms ∧ (s.setStage e x v y).armedBy = s.armedBy ∧ (s.setStage e x v y).engs = s.engs ∧ (s.setStage e x v y).dm = s.dm
    ∧ (s.setStage e x v y).pmBad = s.pmBad ∧ (s.setStage e x v y).srcs = s.srcs ∧ (s.setStage e x v y).inqs = s.inqs ∧
    (s.setStage e x v y).worms = s.worms ∧ (s.setStage e x v y).lost = s.lost ∧ (s.setStage e x v y).turns = s.turns ∧
    (s.setStage e x v y).tins = s.tins ∧ (s.setStage e x v y).owns = s.owns ∧ (s.setStage e x v y).selfCpl = s.selfCpl ∧
    (s.setStage e x v y).fmSeq = s.fmSeq ∧ (s.setStage e x v y).fmOut = s.fmOut ∧ (s.setStage e x v y).outst = s.outst ∧
    (s.setStage e x v y).quar = s.quar ∧ (s.setStage e x v y).tracked = s.tracked ∧ (s.setStage e x v y).answered =
    s.answered ∧ (s.setStage e x v y).uclLeft = s.uclLeft ∧ (s.setStage e x v y).uclHdr = s.uclHdr ∧ (s.setStage e x v
    y).uclOwed = s.uclOwed ∧ (s.setStage e x v y).credOff = s.credOff ∧ (s.setStage e x v y).ledger = s.ledger ∧ (s.setStage
    e x v y).stageBrd = s.stageBrd ∧ (s.setStage e x v y).parkBrd = s.parkBrd ∧ (s.setStage e x v y).lanes = s.lanes ∧
    (s.setStage e x v y).hinges = s.hinges ∧ (s.setStage e x v y).leaves = s.leaves ∧ (s.setStage e x v y).recalls =
    s.recalls ∧ (s.setStage e x v y).gsnap = s.gsnap ∧ (s.setStage e x v y).gsnapDue = s.gsnapDue ∧ (s.setStage e x v
    y).edgeTurn = s.edgeTurn ∧ (s.setStage e x v y).tickQ = s.tickQ ∧ (s.setStage e x v y).sd = s.sd ∧ (s.setStage e x v
    y).sdMiss = s.sdMiss ∧ (s.setStage e x v y).sdOp = s.sdOp ∧ (s.setStage e x v y).lkRecs = s.lkRecs ∧ (s.setStage e x v
    y).fm = s.fm ∧ (s.setStage e x v y).fmErr = s.fmErr ∧ (s.setStage e x v y).ddrs = s.ddrs ∧ (s.setStage e x v y).pins =
    s.pins ∧ (s.setStage e x v y).fpins = s.fpins ∧ (s.setStage e x v y).outputs = s.outputs ∧ (s.setStage e x v y).uarts =
    s.uarts ∧ (s.setStage e x v y).i2cs = s.i2cs ∧ (s.setStage e x v y).spis = s.spis ∧ (s.setStage e x v y).fans = s.fans ∧
    (s.setStage e x v y).tap = s.tap ∧ (s.setStage e x v y).clk = s.clk ∧ (s.setStage e x v y).cfg = s.cfg ∧ (s.setStage e x
    v y).chk = s.chk ∧ (s.setStage e x v y).imgBit = s.imgBit ∧ (s.setStage e x v y).store = s.store ∧ (s.setStage e x v
    y).progd = s.progd ∧ (s.setStage e x v y).unread = s.unread ∧ (s.setStage e x v y).otp = s.otp ∧ (s.setStage e x v
    y).otpRun = s.otpRun ∧ (s.setStage e x v y).power = s.power ∧ (s.setStage e x v y).db = s.db ∧ (s.setStage e x v y).host
    = s.host ∧ (s.setStage e x v y).hostSeq = s.hostSeq ∧ (s.setStage e x v y).hcqs = s.hcqs ∧ (s.setStage e x v y).b2 =
    s.b2 ∧ (s.setStage e x v y).park = s.park ∧ (s.setStage e x v y).unparkReq = s.unparkReq ∧ (s.setStage e x v y).msixs =
    s.msixs ∧ (s.setStage e x v y).pcieUp = s.pcieUp ∧ (s.setStage e x v y).mcMem = s.mcMem ∧ (s.setStage e x v y).chn =
    s.chn ∧ (s.setStage e x v y).core0 = s.core0 ∧ (s.setStage e x v y).mcCount = s.mcCount ∧ (s.setStage e x v y).kpr =
    s.kpr ∧ (s.setStage e x v y).heldAcc = s.heldAcc ∧ (s.setStage e x v y).hubPar = s.hubPar ∧ (s.setStage e x v y).fresh =
    s.fresh ∧ (s.setStage e x v y).out = s.out ∧ (s.setStage e x v y).pending = s.pending := by
  and_intros <;> rfl

@[simp] theorem State.setLane_fields (s : State) (d : ℕ) (l : ℕ) (x : LaneSt) :
    (s.setLane d l x).regs = s.regs ∧ (s.setLane d l x).stv = s.stv ∧ (s.setLane d l x).bank = s.bank ∧ (s.setLane d l
    x).frames = s.frames ∧ (s.setLane d l x).cells = s.cells ∧ (s.setLane d l x).panes = s.panes ∧ (s.setLane d l x).chans =
    s.chans ∧ (s.setLane d l x).arrays = s.arrays ∧ (s.setLane d l x).queues = s.queues ∧ (s.setLane d l x).ports = s.ports
    ∧ (s.setLane d l x).movers = s.movers ∧ (s.setLane d l x).lvPar = s.lvPar ∧ (s.setLane d l x).dies = s.dies ∧ (s.setLane
    d l x).tbu = s.tbu ∧ (s.setLane d l x).doms = s.doms ∧ (s.setLane d l x).arms = s.arms ∧ (s.setLane d l x).armedBy =
    s.armedBy ∧ (s.setLane d l x).engs = s.engs ∧ (s.setLane d l x).dm = s.dm ∧ (s.setLane d l x).pmBad = s.pmBad ∧
    (s.setLane d l x).srcs = s.srcs ∧ (s.setLane d l x).inqs = s.inqs ∧ (s.setLane d l x).worms = s.worms ∧ (s.setLane d l
    x).lost = s.lost ∧ (s.setLane d l x).turns = s.turns ∧ (s.setLane d l x).tins = s.tins ∧ (s.setLane d l x).owns = s.owns
    ∧ (s.setLane d l x).selfCpl = s.selfCpl ∧ (s.setLane d l x).fmSeq = s.fmSeq ∧ (s.setLane d l x).fmOut = s.fmOut ∧
    (s.setLane d l x).outst = s.outst ∧ (s.setLane d l x).quar = s.quar ∧ (s.setLane d l x).tracked = s.tracked ∧ (s.setLane
    d l x).answered = s.answered ∧ (s.setLane d l x).uclLeft = s.uclLeft ∧ (s.setLane d l x).uclHdr = s.uclHdr ∧ (s.setLane
    d l x).uclOwed = s.uclOwed ∧ (s.setLane d l x).credOff = s.credOff ∧ (s.setLane d l x).ledger = s.ledger ∧ (s.setLane d
    l x).stageBrd = s.stageBrd ∧ (s.setLane d l x).parkBrd = s.parkBrd ∧ (s.setLane d l x).hinges = s.hinges ∧ (s.setLane d
    l x).leaves = s.leaves ∧ (s.setLane d l x).stages = s.stages ∧ (s.setLane d l x).recalls = s.recalls ∧ (s.setLane d l
    x).gsnap = s.gsnap ∧ (s.setLane d l x).gsnapDue = s.gsnapDue ∧ (s.setLane d l x).edgeTurn = s.edgeTurn ∧ (s.setLane d l
    x).tickQ = s.tickQ ∧ (s.setLane d l x).sd = s.sd ∧ (s.setLane d l x).sdMiss = s.sdMiss ∧ (s.setLane d l x).sdOp = s.sdOp
    ∧ (s.setLane d l x).lkRecs = s.lkRecs ∧ (s.setLane d l x).fm = s.fm ∧ (s.setLane d l x).fmErr = s.fmErr ∧ (s.setLane d l
    x).ddrs = s.ddrs ∧ (s.setLane d l x).pins = s.pins ∧ (s.setLane d l x).fpins = s.fpins ∧ (s.setLane d l x).outputs =
    s.outputs ∧ (s.setLane d l x).uarts = s.uarts ∧ (s.setLane d l x).i2cs = s.i2cs ∧ (s.setLane d l x).spis = s.spis ∧
    (s.setLane d l x).fans = s.fans ∧ (s.setLane d l x).tap = s.tap ∧ (s.setLane d l x).clk = s.clk ∧ (s.setLane d l x).cfg
    = s.cfg ∧ (s.setLane d l x).chk = s.chk ∧ (s.setLane d l x).imgBit = s.imgBit ∧ (s.setLane d l x).store = s.store ∧
    (s.setLane d l x).progd = s.progd ∧ (s.setLane d l x).unread = s.unread ∧ (s.setLane d l x).otp = s.otp ∧ (s.setLane d l
    x).otpRun = s.otpRun ∧ (s.setLane d l x).power = s.power ∧ (s.setLane d l x).db = s.db ∧ (s.setLane d l x).host = s.host
    ∧ (s.setLane d l x).hostSeq = s.hostSeq ∧ (s.setLane d l x).hcqs = s.hcqs ∧ (s.setLane d l x).b2 = s.b2 ∧ (s.setLane d l
    x).park = s.park ∧ (s.setLane d l x).unparkReq = s.unparkReq ∧ (s.setLane d l x).msixs = s.msixs ∧ (s.setLane d l
    x).pcieUp = s.pcieUp ∧ (s.setLane d l x).mcMem = s.mcMem ∧ (s.setLane d l x).chn = s.chn ∧ (s.setLane d l x).core0 =
    s.core0 ∧ (s.setLane d l x).mcCount = s.mcCount ∧ (s.setLane d l x).kpr = s.kpr ∧ (s.setLane d l x).heldAcc = s.heldAcc
    ∧ (s.setLane d l x).hubPar = s.hubPar ∧ (s.setLane d l x).fresh = s.fresh ∧ (s.setLane d l x).out = s.out ∧ (s.setLane d
    l x).pending = s.pending := by
  and_intros <;> rfl

@[simp] theorem State.setMux_fields (s : State) (id : ℕ) (v : ℕ) :
    (s.setMux id v).regs = s.regs ∧ (s.setMux id v).stv = s.stv ∧ (s.setMux id v).bank = s.bank ∧ (s.setMux id v).frames =
    s.frames ∧ (s.setMux id v).cells = s.cells ∧ (s.setMux id v).panes = s.panes ∧ (s.setMux id v).chans = s.chans ∧
    (s.setMux id v).arrays = s.arrays ∧ (s.setMux id v).queues = s.queues ∧ (s.setMux id v).ports = s.ports ∧ (s.setMux id
    v).movers = s.movers ∧ (s.setMux id v).lvPar = s.lvPar ∧ (s.setMux id v).dies = s.dies ∧ (s.setMux id v).tbu = s.tbu ∧
    (s.setMux id v).doms = s.doms ∧ (s.setMux id v).arms = s.arms ∧ (s.setMux id v).armedBy = s.armedBy ∧ (s.setMux id
    v).engs = s.engs ∧ (s.setMux id v).dm = s.dm ∧ (s.setMux id v).pmBad = s.pmBad ∧ (s.setMux id v).srcs = s.srcs ∧
    (s.setMux id v).inqs = s.inqs ∧ (s.setMux id v).worms = s.worms ∧ (s.setMux id v).lost = s.lost ∧ (s.setMux id v).turns
    = s.turns ∧ (s.setMux id v).tins = s.tins ∧ (s.setMux id v).owns = s.owns ∧ (s.setMux id v).selfCpl = s.selfCpl ∧
    (s.setMux id v).fmSeq = s.fmSeq ∧ (s.setMux id v).fmOut = s.fmOut ∧ (s.setMux id v).outst = s.outst ∧ (s.setMux id
    v).quar = s.quar ∧ (s.setMux id v).tracked = s.tracked ∧ (s.setMux id v).answered = s.answered ∧ (s.setMux id v).uclLeft
    = s.uclLeft ∧ (s.setMux id v).uclHdr = s.uclHdr ∧ (s.setMux id v).uclOwed = s.uclOwed ∧ (s.setMux id v).credOff =
    s.credOff ∧ (s.setMux id v).ledger = s.ledger ∧ (s.setMux id v).stageBrd = s.stageBrd ∧ (s.setMux id v).parkBrd =
    s.parkBrd ∧ (s.setMux id v).lanes = s.lanes ∧ (s.setMux id v).hinges = s.hinges ∧ (s.setMux id v).leaves = s.leaves ∧
    (s.setMux id v).stages = s.stages ∧ (s.setMux id v).recalls = s.recalls ∧ (s.setMux id v).gsnap = s.gsnap ∧ (s.setMux id
    v).gsnapDue = s.gsnapDue ∧ (s.setMux id v).edgeTurn = s.edgeTurn ∧ (s.setMux id v).tickQ = s.tickQ ∧ (s.setMux id v).sd
    = s.sd ∧ (s.setMux id v).sdMiss = s.sdMiss ∧ (s.setMux id v).sdOp = s.sdOp ∧ (s.setMux id v).lkRecs = s.lkRecs ∧
    (s.setMux id v).fm = s.fm ∧ (s.setMux id v).fmErr = s.fmErr ∧ (s.setMux id v).ddrs = s.ddrs ∧ (s.setMux id v).pins =
    s.pins ∧ (s.setMux id v).fpins = s.fpins ∧ (s.setMux id v).outputs = s.outputs ∧ (s.setMux id v).uarts = s.uarts ∧
    (s.setMux id v).i2cs = s.i2cs ∧ (s.setMux id v).spis = s.spis ∧ (s.setMux id v).fans = s.fans ∧ (s.setMux id v).tap =
    s.tap ∧ (s.setMux id v).cfg = s.cfg ∧ (s.setMux id v).chk = s.chk ∧ (s.setMux id v).imgBit = s.imgBit ∧ (s.setMux id
    v).store = s.store ∧ (s.setMux id v).progd = s.progd ∧ (s.setMux id v).unread = s.unread ∧ (s.setMux id v).otp = s.otp ∧
    (s.setMux id v).otpRun = s.otpRun ∧ (s.setMux id v).power = s.power ∧ (s.setMux id v).db = s.db ∧ (s.setMux id v).host =
    s.host ∧ (s.setMux id v).hostSeq = s.hostSeq ∧ (s.setMux id v).hcqs = s.hcqs ∧ (s.setMux id v).b2 = s.b2 ∧ (s.setMux id
    v).park = s.park ∧ (s.setMux id v).unparkReq = s.unparkReq ∧ (s.setMux id v).msixs = s.msixs ∧ (s.setMux id v).pcieUp =
    s.pcieUp ∧ (s.setMux id v).mcMem = s.mcMem ∧ (s.setMux id v).chn = s.chn ∧ (s.setMux id v).core0 = s.core0 ∧ (s.setMux
    id v).mcCount = s.mcCount ∧ (s.setMux id v).kpr = s.kpr ∧ (s.setMux id v).heldAcc = s.heldAcc ∧ (s.setMux id v).hubPar =
    s.hubPar ∧ (s.setMux id v).fresh = s.fresh ∧ (s.setMux id v).out = s.out ∧ (s.setMux id v).pending = s.pending := by
  and_intros <;> rfl

@[simp] theorem State.setPin_fields (s : State) (k : ℕ) (x : PinSt) :
    (s.setPin k x).regs = s.regs ∧ (s.setPin k x).stv = s.stv ∧ (s.setPin k x).bank = s.bank ∧ (s.setPin k x).frames =
    s.frames ∧ (s.setPin k x).cells = s.cells ∧ (s.setPin k x).panes = s.panes ∧ (s.setPin k x).chans = s.chans ∧ (s.setPin
    k x).arrays = s.arrays ∧ (s.setPin k x).queues = s.queues ∧ (s.setPin k x).ports = s.ports ∧ (s.setPin k x).movers =
    s.movers ∧ (s.setPin k x).lvPar = s.lvPar ∧ (s.setPin k x).dies = s.dies ∧ (s.setPin k x).tbu = s.tbu ∧ (s.setPin k
    x).doms = s.doms ∧ (s.setPin k x).arms = s.arms ∧ (s.setPin k x).armedBy = s.armedBy ∧ (s.setPin k x).engs = s.engs ∧
    (s.setPin k x).dm = s.dm ∧ (s.setPin k x).pmBad = s.pmBad ∧ (s.setPin k x).srcs = s.srcs ∧ (s.setPin k x).inqs = s.inqs
    ∧ (s.setPin k x).worms = s.worms ∧ (s.setPin k x).lost = s.lost ∧ (s.setPin k x).turns = s.turns ∧ (s.setPin k x).tins =
    s.tins ∧ (s.setPin k x).owns = s.owns ∧ (s.setPin k x).selfCpl = s.selfCpl ∧ (s.setPin k x).fmSeq = s.fmSeq ∧ (s.setPin
    k x).fmOut = s.fmOut ∧ (s.setPin k x).outst = s.outst ∧ (s.setPin k x).quar = s.quar ∧ (s.setPin k x).tracked =
    s.tracked ∧ (s.setPin k x).answered = s.answered ∧ (s.setPin k x).uclLeft = s.uclLeft ∧ (s.setPin k x).uclHdr = s.uclHdr
    ∧ (s.setPin k x).uclOwed = s.uclOwed ∧ (s.setPin k x).credOff = s.credOff ∧ (s.setPin k x).ledger = s.ledger ∧ (s.setPin
    k x).stageBrd = s.stageBrd ∧ (s.setPin k x).parkBrd = s.parkBrd ∧ (s.setPin k x).lanes = s.lanes ∧ (s.setPin k x).hinges
    = s.hinges ∧ (s.setPin k x).leaves = s.leaves ∧ (s.setPin k x).stages = s.stages ∧ (s.setPin k x).recalls = s.recalls ∧
    (s.setPin k x).gsnap = s.gsnap ∧ (s.setPin k x).gsnapDue = s.gsnapDue ∧ (s.setPin k x).edgeTurn = s.edgeTurn ∧ (s.setPin
    k x).tickQ = s.tickQ ∧ (s.setPin k x).sd = s.sd ∧ (s.setPin k x).sdMiss = s.sdMiss ∧ (s.setPin k x).sdOp = s.sdOp ∧
    (s.setPin k x).lkRecs = s.lkRecs ∧ (s.setPin k x).fm = s.fm ∧ (s.setPin k x).fmErr = s.fmErr ∧ (s.setPin k x).ddrs =
    s.ddrs ∧ (s.setPin k x).fpins = s.fpins ∧ (s.setPin k x).outputs = s.outputs ∧ (s.setPin k x).uarts = s.uarts ∧
    (s.setPin k x).i2cs = s.i2cs ∧ (s.setPin k x).spis = s.spis ∧ (s.setPin k x).fans = s.fans ∧ (s.setPin k x).tap = s.tap
    ∧ (s.setPin k x).clk = s.clk ∧ (s.setPin k x).cfg = s.cfg ∧ (s.setPin k x).chk = s.chk ∧ (s.setPin k x).imgBit =
    s.imgBit ∧ (s.setPin k x).store = s.store ∧ (s.setPin k x).progd = s.progd ∧ (s.setPin k x).unread = s.unread ∧
    (s.setPin k x).otp = s.otp ∧ (s.setPin k x).otpRun = s.otpRun ∧ (s.setPin k x).power = s.power ∧ (s.setPin k x).db =
    s.db ∧ (s.setPin k x).host = s.host ∧ (s.setPin k x).hostSeq = s.hostSeq ∧ (s.setPin k x).hcqs = s.hcqs ∧ (s.setPin k
    x).b2 = s.b2 ∧ (s.setPin k x).park = s.park ∧ (s.setPin k x).unparkReq = s.unparkReq ∧ (s.setPin k x).msixs = s.msixs ∧
    (s.setPin k x).pcieUp = s.pcieUp ∧ (s.setPin k x).mcMem = s.mcMem ∧ (s.setPin k x).chn = s.chn ∧ (s.setPin k x).core0 =
    s.core0 ∧ (s.setPin k x).mcCount = s.mcCount ∧ (s.setPin k x).kpr = s.kpr ∧ (s.setPin k x).heldAcc = s.heldAcc ∧
    (s.setPin k x).hubPar = s.hubPar ∧ (s.setPin k x).fresh = s.fresh ∧ (s.setPin k x).out = s.out ∧ (s.setPin k x).pending
    = s.pending := by
  and_intros <;> rfl

@[simp] theorem State.setFpin_fields (s : State) (d : ℕ) (n : ℕ) (x : FpinSt) :
    (s.setFpin d n x).regs = s.regs ∧ (s.setFpin d n x).stv = s.stv ∧ (s.setFpin d n x).bank = s.bank ∧ (s.setFpin d n
    x).frames = s.frames ∧ (s.setFpin d n x).cells = s.cells ∧ (s.setFpin d n x).panes = s.panes ∧ (s.setFpin d n x).chans =
    s.chans ∧ (s.setFpin d n x).arrays = s.arrays ∧ (s.setFpin d n x).queues = s.queues ∧ (s.setFpin d n x).ports = s.ports
    ∧ (s.setFpin d n x).movers = s.movers ∧ (s.setFpin d n x).lvPar = s.lvPar ∧ (s.setFpin d n x).dies = s.dies ∧ (s.setFpin
    d n x).tbu = s.tbu ∧ (s.setFpin d n x).doms = s.doms ∧ (s.setFpin d n x).arms = s.arms ∧ (s.setFpin d n x).armedBy =
    s.armedBy ∧ (s.setFpin d n x).engs = s.engs ∧ (s.setFpin d n x).dm = s.dm ∧ (s.setFpin d n x).pmBad = s.pmBad ∧
    (s.setFpin d n x).srcs = s.srcs ∧ (s.setFpin d n x).inqs = s.inqs ∧ (s.setFpin d n x).worms = s.worms ∧ (s.setFpin d n
    x).lost = s.lost ∧ (s.setFpin d n x).turns = s.turns ∧ (s.setFpin d n x).tins = s.tins ∧ (s.setFpin d n x).owns = s.owns
    ∧ (s.setFpin d n x).selfCpl = s.selfCpl ∧ (s.setFpin d n x).fmSeq = s.fmSeq ∧ (s.setFpin d n x).fmOut = s.fmOut ∧
    (s.setFpin d n x).outst = s.outst ∧ (s.setFpin d n x).quar = s.quar ∧ (s.setFpin d n x).tracked = s.tracked ∧ (s.setFpin
    d n x).answered = s.answered ∧ (s.setFpin d n x).uclLeft = s.uclLeft ∧ (s.setFpin d n x).uclHdr = s.uclHdr ∧ (s.setFpin
    d n x).uclOwed = s.uclOwed ∧ (s.setFpin d n x).credOff = s.credOff ∧ (s.setFpin d n x).ledger = s.ledger ∧ (s.setFpin d
    n x).stageBrd = s.stageBrd ∧ (s.setFpin d n x).parkBrd = s.parkBrd ∧ (s.setFpin d n x).lanes = s.lanes ∧ (s.setFpin d n
    x).hinges = s.hinges ∧ (s.setFpin d n x).leaves = s.leaves ∧ (s.setFpin d n x).stages = s.stages ∧ (s.setFpin d n
    x).recalls = s.recalls ∧ (s.setFpin d n x).gsnap = s.gsnap ∧ (s.setFpin d n x).gsnapDue = s.gsnapDue ∧ (s.setFpin d n
    x).edgeTurn = s.edgeTurn ∧ (s.setFpin d n x).tickQ = s.tickQ ∧ (s.setFpin d n x).sd = s.sd ∧ (s.setFpin d n x).sdMiss =
    s.sdMiss ∧ (s.setFpin d n x).sdOp = s.sdOp ∧ (s.setFpin d n x).lkRecs = s.lkRecs ∧ (s.setFpin d n x).fm = s.fm ∧
    (s.setFpin d n x).fmErr = s.fmErr ∧ (s.setFpin d n x).ddrs = s.ddrs ∧ (s.setFpin d n x).pins = s.pins ∧ (s.setFpin d n
    x).outputs = s.outputs ∧ (s.setFpin d n x).uarts = s.uarts ∧ (s.setFpin d n x).i2cs = s.i2cs ∧ (s.setFpin d n x).spis =
    s.spis ∧ (s.setFpin d n x).fans = s.fans ∧ (s.setFpin d n x).tap = s.tap ∧ (s.setFpin d n x).clk = s.clk ∧ (s.setFpin d
    n x).cfg = s.cfg ∧ (s.setFpin d n x).chk = s.chk ∧ (s.setFpin d n x).imgBit = s.imgBit ∧ (s.setFpin d n x).store =
    s.store ∧ (s.setFpin d n x).progd = s.progd ∧ (s.setFpin d n x).unread = s.unread ∧ (s.setFpin d n x).otp = s.otp ∧
    (s.setFpin d n x).otpRun = s.otpRun ∧ (s.setFpin d n x).power = s.power ∧ (s.setFpin d n x).db = s.db ∧ (s.setFpin d n
    x).host = s.host ∧ (s.setFpin d n x).hostSeq = s.hostSeq ∧ (s.setFpin d n x).hcqs = s.hcqs ∧ (s.setFpin d n x).b2 = s.b2
    ∧ (s.setFpin d n x).park = s.park ∧ (s.setFpin d n x).unparkReq = s.unparkReq ∧ (s.setFpin d n x).msixs = s.msixs ∧
    (s.setFpin d n x).pcieUp = s.pcieUp ∧ (s.setFpin d n x).mcMem = s.mcMem ∧ (s.setFpin d n x).chn = s.chn ∧ (s.setFpin d n
    x).core0 = s.core0 ∧ (s.setFpin d n x).mcCount = s.mcCount ∧ (s.setFpin d n x).kpr = s.kpr ∧ (s.setFpin d n x).heldAcc =
    s.heldAcc ∧ (s.setFpin d n x).hubPar = s.hubPar ∧ (s.setFpin d n x).fresh = s.fresh ∧ (s.setFpin d n x).out = s.out ∧
    (s.setFpin d n x).pending = s.pending := by
  and_intros <;> rfl

@[simp] theorem State.setStoreWord_fields (s : State) (i : ℕ) (v : HWord) :
    (s.setStoreWord i v).regs = s.regs ∧ (s.setStoreWord i v).stv = s.stv ∧ (s.setStoreWord i v).bank = s.bank ∧
    (s.setStoreWord i v).frames = s.frames ∧ (s.setStoreWord i v).cells = s.cells ∧ (s.setStoreWord i v).panes = s.panes ∧
    (s.setStoreWord i v).chans = s.chans ∧ (s.setStoreWord i v).arrays = s.arrays ∧ (s.setStoreWord i v).queues = s.queues ∧
    (s.setStoreWord i v).ports = s.ports ∧ (s.setStoreWord i v).movers = s.movers ∧ (s.setStoreWord i v).lvPar = s.lvPar ∧
    (s.setStoreWord i v).dies = s.dies ∧ (s.setStoreWord i v).tbu = s.tbu ∧ (s.setStoreWord i v).doms = s.doms ∧
    (s.setStoreWord i v).arms = s.arms ∧ (s.setStoreWord i v).armedBy = s.armedBy ∧ (s.setStoreWord i v).engs = s.engs ∧
    (s.setStoreWord i v).dm = s.dm ∧ (s.setStoreWord i v).pmBad = s.pmBad ∧ (s.setStoreWord i v).srcs = s.srcs ∧
    (s.setStoreWord i v).inqs = s.inqs ∧ (s.setStoreWord i v).worms = s.worms ∧ (s.setStoreWord i v).lost = s.lost ∧
    (s.setStoreWord i v).turns = s.turns ∧ (s.setStoreWord i v).tins = s.tins ∧ (s.setStoreWord i v).owns = s.owns ∧
    (s.setStoreWord i v).selfCpl = s.selfCpl ∧ (s.setStoreWord i v).fmSeq = s.fmSeq ∧ (s.setStoreWord i v).fmOut = s.fmOut ∧
    (s.setStoreWord i v).outst = s.outst ∧ (s.setStoreWord i v).quar = s.quar ∧ (s.setStoreWord i v).tracked = s.tracked ∧
    (s.setStoreWord i v).answered = s.answered ∧ (s.setStoreWord i v).uclLeft = s.uclLeft ∧ (s.setStoreWord i v).uclHdr =
    s.uclHdr ∧ (s.setStoreWord i v).uclOwed = s.uclOwed ∧ (s.setStoreWord i v).credOff = s.credOff ∧ (s.setStoreWord i
    v).ledger = s.ledger ∧ (s.setStoreWord i v).stageBrd = s.stageBrd ∧ (s.setStoreWord i v).parkBrd = s.parkBrd ∧
    (s.setStoreWord i v).lanes = s.lanes ∧ (s.setStoreWord i v).hinges = s.hinges ∧ (s.setStoreWord i v).leaves = s.leaves ∧
    (s.setStoreWord i v).stages = s.stages ∧ (s.setStoreWord i v).recalls = s.recalls ∧ (s.setStoreWord i v).gsnap = s.gsnap
    ∧ (s.setStoreWord i v).gsnapDue = s.gsnapDue ∧ (s.setStoreWord i v).edgeTurn = s.edgeTurn ∧ (s.setStoreWord i v).tickQ =
    s.tickQ ∧ (s.setStoreWord i v).sd = s.sd ∧ (s.setStoreWord i v).sdMiss = s.sdMiss ∧ (s.setStoreWord i v).sdOp = s.sdOp ∧
    (s.setStoreWord i v).lkRecs = s.lkRecs ∧ (s.setStoreWord i v).fm = s.fm ∧ (s.setStoreWord i v).fmErr = s.fmErr ∧
    (s.setStoreWord i v).ddrs = s.ddrs ∧ (s.setStoreWord i v).pins = s.pins ∧ (s.setStoreWord i v).fpins = s.fpins ∧
    (s.setStoreWord i v).outputs = s.outputs ∧ (s.setStoreWord i v).uarts = s.uarts ∧ (s.setStoreWord i v).i2cs = s.i2cs ∧
    (s.setStoreWord i v).spis = s.spis ∧ (s.setStoreWord i v).fans = s.fans ∧ (s.setStoreWord i v).tap = s.tap ∧
    (s.setStoreWord i v).clk = s.clk ∧ (s.setStoreWord i v).cfg = s.cfg ∧ (s.setStoreWord i v).chk = s.chk ∧ (s.setStoreWord
    i v).imgBit = s.imgBit ∧ (s.setStoreWord i v).progd = s.progd ∧ (s.setStoreWord i v).unread = s.unread ∧ (s.setStoreWord
    i v).otp = s.otp ∧ (s.setStoreWord i v).otpRun = s.otpRun ∧ (s.setStoreWord i v).power = s.power ∧ (s.setStoreWord i
    v).db = s.db ∧ (s.setStoreWord i v).host = s.host ∧ (s.setStoreWord i v).hostSeq = s.hostSeq ∧ (s.setStoreWord i v).hcqs
    = s.hcqs ∧ (s.setStoreWord i v).b2 = s.b2 ∧ (s.setStoreWord i v).park = s.park ∧ (s.setStoreWord i v).unparkReq =
    s.unparkReq ∧ (s.setStoreWord i v).msixs = s.msixs ∧ (s.setStoreWord i v).pcieUp = s.pcieUp ∧ (s.setStoreWord i v).mcMem
    = s.mcMem ∧ (s.setStoreWord i v).chn = s.chn ∧ (s.setStoreWord i v).core0 = s.core0 ∧ (s.setStoreWord i v).mcCount =
    s.mcCount ∧ (s.setStoreWord i v).kpr = s.kpr ∧ (s.setStoreWord i v).heldAcc = s.heldAcc ∧ (s.setStoreWord i v).hubPar =
    s.hubPar ∧ (s.setStoreWord i v).fresh = s.fresh ∧ (s.setStoreWord i v).out = s.out ∧ (s.setStoreWord i v).pending =
    s.pending := by
  and_intros <;> rfl

@[simp] theorem State.setChkWord_fields (s : State) (c : ℕ) (f : ℕ) (i : ℕ) (w : Word) :
    (s.setChkWord c f i w).regs = s.regs ∧ (s.setChkWord c f i w).stv = s.stv ∧ (s.setChkWord c f i w).bank = s.bank ∧
    (s.setChkWord c f i w).frames = s.frames ∧ (s.setChkWord c f i w).cells = s.cells ∧ (s.setChkWord c f i w).panes =
    s.panes ∧ (s.setChkWord c f i w).chans = s.chans ∧ (s.setChkWord c f i w).arrays = s.arrays ∧ (s.setChkWord c f i
    w).queues = s.queues ∧ (s.setChkWord c f i w).ports = s.ports ∧ (s.setChkWord c f i w).movers = s.movers ∧ (s.setChkWord
    c f i w).lvPar = s.lvPar ∧ (s.setChkWord c f i w).dies = s.dies ∧ (s.setChkWord c f i w).tbu = s.tbu ∧ (s.setChkWord c f
    i w).doms = s.doms ∧ (s.setChkWord c f i w).arms = s.arms ∧ (s.setChkWord c f i w).armedBy = s.armedBy ∧ (s.setChkWord c
    f i w).engs = s.engs ∧ (s.setChkWord c f i w).dm = s.dm ∧ (s.setChkWord c f i w).pmBad = s.pmBad ∧ (s.setChkWord c f i
    w).srcs = s.srcs ∧ (s.setChkWord c f i w).inqs = s.inqs ∧ (s.setChkWord c f i w).worms = s.worms ∧ (s.setChkWord c f i
    w).lost = s.lost ∧ (s.setChkWord c f i w).turns = s.turns ∧ (s.setChkWord c f i w).tins = s.tins ∧ (s.setChkWord c f i
    w).owns = s.owns ∧ (s.setChkWord c f i w).selfCpl = s.selfCpl ∧ (s.setChkWord c f i w).fmSeq = s.fmSeq ∧ (s.setChkWord c
    f i w).fmOut = s.fmOut ∧ (s.setChkWord c f i w).outst = s.outst ∧ (s.setChkWord c f i w).quar = s.quar ∧ (s.setChkWord c
    f i w).tracked = s.tracked ∧ (s.setChkWord c f i w).answered = s.answered ∧ (s.setChkWord c f i w).uclLeft = s.uclLeft ∧
    (s.setChkWord c f i w).uclHdr = s.uclHdr ∧ (s.setChkWord c f i w).uclOwed = s.uclOwed ∧ (s.setChkWord c f i w).credOff =
    s.credOff ∧ (s.setChkWord c f i w).ledger = s.ledger ∧ (s.setChkWord c f i w).stageBrd = s.stageBrd ∧ (s.setChkWord c f
    i w).parkBrd = s.parkBrd ∧ (s.setChkWord c f i w).lanes = s.lanes ∧ (s.setChkWord c f i w).hinges = s.hinges ∧
    (s.setChkWord c f i w).leaves = s.leaves ∧ (s.setChkWord c f i w).stages = s.stages ∧ (s.setChkWord c f i w).recalls =
    s.recalls ∧ (s.setChkWord c f i w).gsnap = s.gsnap ∧ (s.setChkWord c f i w).gsnapDue = s.gsnapDue ∧ (s.setChkWord c f i
    w).edgeTurn = s.edgeTurn ∧ (s.setChkWord c f i w).tickQ = s.tickQ ∧ (s.setChkWord c f i w).sd = s.sd ∧ (s.setChkWord c f
    i w).sdMiss = s.sdMiss ∧ (s.setChkWord c f i w).sdOp = s.sdOp ∧ (s.setChkWord c f i w).lkRecs = s.lkRecs ∧ (s.setChkWord
    c f i w).fm = s.fm ∧ (s.setChkWord c f i w).fmErr = s.fmErr ∧ (s.setChkWord c f i w).ddrs = s.ddrs ∧ (s.setChkWord c f i
    w).pins = s.pins ∧ (s.setChkWord c f i w).fpins = s.fpins ∧ (s.setChkWord c f i w).outputs = s.outputs ∧ (s.setChkWord c
    f i w).uarts = s.uarts ∧ (s.setChkWord c f i w).i2cs = s.i2cs ∧ (s.setChkWord c f i w).spis = s.spis ∧ (s.setChkWord c f
    i w).fans = s.fans ∧ (s.setChkWord c f i w).tap = s.tap ∧ (s.setChkWord c f i w).clk = s.clk ∧ (s.setChkWord c f i
    w).cfg = s.cfg ∧ (s.setChkWord c f i w).imgBit = s.imgBit ∧ (s.setChkWord c f i w).store = s.store ∧ (s.setChkWord c f i
    w).progd = s.progd ∧ (s.setChkWord c f i w).unread = s.unread ∧ (s.setChkWord c f i w).otp = s.otp ∧ (s.setChkWord c f i
    w).otpRun = s.otpRun ∧ (s.setChkWord c f i w).power = s.power ∧ (s.setChkWord c f i w).db = s.db ∧ (s.setChkWord c f i
    w).host = s.host ∧ (s.setChkWord c f i w).hostSeq = s.hostSeq ∧ (s.setChkWord c f i w).hcqs = s.hcqs ∧ (s.setChkWord c f
    i w).b2 = s.b2 ∧ (s.setChkWord c f i w).park = s.park ∧ (s.setChkWord c f i w).unparkReq = s.unparkReq ∧ (s.setChkWord c
    f i w).msixs = s.msixs ∧ (s.setChkWord c f i w).pcieUp = s.pcieUp ∧ (s.setChkWord c f i w).mcMem = s.mcMem ∧
    (s.setChkWord c f i w).chn = s.chn ∧ (s.setChkWord c f i w).core0 = s.core0 ∧ (s.setChkWord c f i w).mcCount = s.mcCount
    ∧ (s.setChkWord c f i w).kpr = s.kpr ∧ (s.setChkWord c f i w).heldAcc = s.heldAcc ∧ (s.setChkWord c f i w).hubPar =
    s.hubPar ∧ (s.setChkWord c f i w).fresh = s.fresh ∧ (s.setChkWord c f i w).out = s.out ∧ (s.setChkWord c f i w).pending
    = s.pending := by
  and_intros <;> rfl

@[simp] theorem State.setImageBit_fields (s : State) (c : ℕ) (f : ℕ) (b : Bool) :
    (s.setImageBit c f b).regs = s.regs ∧ (s.setImageBit c f b).stv = s.stv ∧ (s.setImageBit c f b).bank = s.bank ∧
    (s.setImageBit c f b).frames = s.frames ∧ (s.setImageBit c f b).cells = s.cells ∧ (s.setImageBit c f b).panes = s.panes
    ∧ (s.setImageBit c f b).chans = s.chans ∧ (s.setImageBit c f b).arrays = s.arrays ∧ (s.setImageBit c f b).queues =
    s.queues ∧ (s.setImageBit c f b).ports = s.ports ∧ (s.setImageBit c f b).movers = s.movers ∧ (s.setImageBit c f b).lvPar
    = s.lvPar ∧ (s.setImageBit c f b).dies = s.dies ∧ (s.setImageBit c f b).tbu = s.tbu ∧ (s.setImageBit c f b).doms =
    s.doms ∧ (s.setImageBit c f b).arms = s.arms ∧ (s.setImageBit c f b).armedBy = s.armedBy ∧ (s.setImageBit c f b).engs =
    s.engs ∧ (s.setImageBit c f b).dm = s.dm ∧ (s.setImageBit c f b).pmBad = s.pmBad ∧ (s.setImageBit c f b).srcs = s.srcs ∧
    (s.setImageBit c f b).inqs = s.inqs ∧ (s.setImageBit c f b).worms = s.worms ∧ (s.setImageBit c f b).lost = s.lost ∧
    (s.setImageBit c f b).turns = s.turns ∧ (s.setImageBit c f b).tins = s.tins ∧ (s.setImageBit c f b).owns = s.owns ∧
    (s.setImageBit c f b).selfCpl = s.selfCpl ∧ (s.setImageBit c f b).fmSeq = s.fmSeq ∧ (s.setImageBit c f b).fmOut =
    s.fmOut ∧ (s.setImageBit c f b).outst = s.outst ∧ (s.setImageBit c f b).quar = s.quar ∧ (s.setImageBit c f b).tracked =
    s.tracked ∧ (s.setImageBit c f b).answered = s.answered ∧ (s.setImageBit c f b).uclLeft = s.uclLeft ∧ (s.setImageBit c f
    b).uclHdr = s.uclHdr ∧ (s.setImageBit c f b).uclOwed = s.uclOwed ∧ (s.setImageBit c f b).credOff = s.credOff ∧
    (s.setImageBit c f b).ledger = s.ledger ∧ (s.setImageBit c f b).stageBrd = s.stageBrd ∧ (s.setImageBit c f b).parkBrd =
    s.parkBrd ∧ (s.setImageBit c f b).lanes = s.lanes ∧ (s.setImageBit c f b).hinges = s.hinges ∧ (s.setImageBit c f
    b).leaves = s.leaves ∧ (s.setImageBit c f b).stages = s.stages ∧ (s.setImageBit c f b).recalls = s.recalls ∧
    (s.setImageBit c f b).gsnap = s.gsnap ∧ (s.setImageBit c f b).gsnapDue = s.gsnapDue ∧ (s.setImageBit c f b).edgeTurn =
    s.edgeTurn ∧ (s.setImageBit c f b).tickQ = s.tickQ ∧ (s.setImageBit c f b).sd = s.sd ∧ (s.setImageBit c f b).sdMiss =
    s.sdMiss ∧ (s.setImageBit c f b).sdOp = s.sdOp ∧ (s.setImageBit c f b).lkRecs = s.lkRecs ∧ (s.setImageBit c f b).fm =
    s.fm ∧ (s.setImageBit c f b).fmErr = s.fmErr ∧ (s.setImageBit c f b).ddrs = s.ddrs ∧ (s.setImageBit c f b).pins = s.pins
    ∧ (s.setImageBit c f b).fpins = s.fpins ∧ (s.setImageBit c f b).outputs = s.outputs ∧ (s.setImageBit c f b).uarts =
    s.uarts ∧ (s.setImageBit c f b).i2cs = s.i2cs ∧ (s.setImageBit c f b).spis = s.spis ∧ (s.setImageBit c f b).fans =
    s.fans ∧ (s.setImageBit c f b).tap = s.tap ∧ (s.setImageBit c f b).clk = s.clk ∧ (s.setImageBit c f b).cfg = s.cfg ∧
    (s.setImageBit c f b).chk = s.chk ∧ (s.setImageBit c f b).store = s.store ∧ (s.setImageBit c f b).progd = s.progd ∧
    (s.setImageBit c f b).unread = s.unread ∧ (s.setImageBit c f b).otp = s.otp ∧ (s.setImageBit c f b).otpRun = s.otpRun ∧
    (s.setImageBit c f b).power = s.power ∧ (s.setImageBit c f b).db = s.db ∧ (s.setImageBit c f b).host = s.host ∧
    (s.setImageBit c f b).hostSeq = s.hostSeq ∧ (s.setImageBit c f b).hcqs = s.hcqs ∧ (s.setImageBit c f b).b2 = s.b2 ∧
    (s.setImageBit c f b).park = s.park ∧ (s.setImageBit c f b).unparkReq = s.unparkReq ∧ (s.setImageBit c f b).msixs =
    s.msixs ∧ (s.setImageBit c f b).pcieUp = s.pcieUp ∧ (s.setImageBit c f b).mcMem = s.mcMem ∧ (s.setImageBit c f b).chn =
    s.chn ∧ (s.setImageBit c f b).core0 = s.core0 ∧ (s.setImageBit c f b).mcCount = s.mcCount ∧ (s.setImageBit c f b).kpr =
    s.kpr ∧ (s.setImageBit c f b).heldAcc = s.heldAcc ∧ (s.setImageBit c f b).hubPar = s.hubPar ∧ (s.setImageBit c f
    b).fresh = s.fresh ∧ (s.setImageBit c f b).out = s.out ∧ (s.setImageBit c f b).pending = s.pending := by
  and_intros <;> rfl

@[simp] theorem State.withCfg_fields (s : State) (f : CfgSt → CfgSt) :
    (s.withCfg f).regs = s.regs ∧ (s.withCfg f).stv = s.stv ∧ (s.withCfg f).bank = s.bank ∧ (s.withCfg f).frames = s.frames
    ∧ (s.withCfg f).cells = s.cells ∧ (s.withCfg f).panes = s.panes ∧ (s.withCfg f).chans = s.chans ∧ (s.withCfg f).arrays =
    s.arrays ∧ (s.withCfg f).queues = s.queues ∧ (s.withCfg f).ports = s.ports ∧ (s.withCfg f).movers = s.movers ∧
    (s.withCfg f).lvPar = s.lvPar ∧ (s.withCfg f).dies = s.dies ∧ (s.withCfg f).tbu = s.tbu ∧ (s.withCfg f).doms = s.doms ∧
    (s.withCfg f).arms = s.arms ∧ (s.withCfg f).armedBy = s.armedBy ∧ (s.withCfg f).engs = s.engs ∧ (s.withCfg f).dm = s.dm
    ∧ (s.withCfg f).pmBad = s.pmBad ∧ (s.withCfg f).srcs = s.srcs ∧ (s.withCfg f).inqs = s.inqs ∧ (s.withCfg f).worms =
    s.worms ∧ (s.withCfg f).lost = s.lost ∧ (s.withCfg f).turns = s.turns ∧ (s.withCfg f).tins = s.tins ∧ (s.withCfg f).owns
    = s.owns ∧ (s.withCfg f).selfCpl = s.selfCpl ∧ (s.withCfg f).fmSeq = s.fmSeq ∧ (s.withCfg f).fmOut = s.fmOut ∧
    (s.withCfg f).outst = s.outst ∧ (s.withCfg f).quar = s.quar ∧ (s.withCfg f).tracked = s.tracked ∧ (s.withCfg f).answered
    = s.answered ∧ (s.withCfg f).uclLeft = s.uclLeft ∧ (s.withCfg f).uclHdr = s.uclHdr ∧ (s.withCfg f).uclOwed = s.uclOwed ∧
    (s.withCfg f).credOff = s.credOff ∧ (s.withCfg f).ledger = s.ledger ∧ (s.withCfg f).stageBrd = s.stageBrd ∧ (s.withCfg
    f).parkBrd = s.parkBrd ∧ (s.withCfg f).lanes = s.lanes ∧ (s.withCfg f).hinges = s.hinges ∧ (s.withCfg f).leaves =
    s.leaves ∧ (s.withCfg f).stages = s.stages ∧ (s.withCfg f).recalls = s.recalls ∧ (s.withCfg f).gsnap = s.gsnap ∧
    (s.withCfg f).gsnapDue = s.gsnapDue ∧ (s.withCfg f).edgeTurn = s.edgeTurn ∧ (s.withCfg f).tickQ = s.tickQ ∧ (s.withCfg
    f).sd = s.sd ∧ (s.withCfg f).sdMiss = s.sdMiss ∧ (s.withCfg f).sdOp = s.sdOp ∧ (s.withCfg f).lkRecs = s.lkRecs ∧
    (s.withCfg f).fm = s.fm ∧ (s.withCfg f).fmErr = s.fmErr ∧ (s.withCfg f).ddrs = s.ddrs ∧ (s.withCfg f).pins = s.pins ∧
    (s.withCfg f).fpins = s.fpins ∧ (s.withCfg f).outputs = s.outputs ∧ (s.withCfg f).uarts = s.uarts ∧ (s.withCfg f).i2cs =
    s.i2cs ∧ (s.withCfg f).spis = s.spis ∧ (s.withCfg f).fans = s.fans ∧ (s.withCfg f).tap = s.tap ∧ (s.withCfg f).clk =
    s.clk ∧ (s.withCfg f).chk = s.chk ∧ (s.withCfg f).imgBit = s.imgBit ∧ (s.withCfg f).store = s.store ∧ (s.withCfg
    f).progd = s.progd ∧ (s.withCfg f).unread = s.unread ∧ (s.withCfg f).otp = s.otp ∧ (s.withCfg f).otpRun = s.otpRun ∧
    (s.withCfg f).power = s.power ∧ (s.withCfg f).db = s.db ∧ (s.withCfg f).host = s.host ∧ (s.withCfg f).hostSeq =
    s.hostSeq ∧ (s.withCfg f).hcqs = s.hcqs ∧ (s.withCfg f).b2 = s.b2 ∧ (s.withCfg f).park = s.park ∧ (s.withCfg
    f).unparkReq = s.unparkReq ∧ (s.withCfg f).msixs = s.msixs ∧ (s.withCfg f).pcieUp = s.pcieUp ∧ (s.withCfg f).mcMem =
    s.mcMem ∧ (s.withCfg f).chn = s.chn ∧ (s.withCfg f).core0 = s.core0 ∧ (s.withCfg f).mcCount = s.mcCount ∧ (s.withCfg
    f).kpr = s.kpr ∧ (s.withCfg f).heldAcc = s.heldAcc ∧ (s.withCfg f).hubPar = s.hubPar ∧ (s.withCfg f).fresh = s.fresh ∧
    (s.withCfg f).out = s.out ∧ (s.withCfg f).pending = s.pending := by
  and_intros <;> rfl

@[simp] theorem State.updDie_fields (s : State) (d : ℕ) (f : DieSt → DieSt) :
    (s.updDie d f).regs = s.regs ∧ (s.updDie d f).stv = s.stv ∧ (s.updDie d f).bank = s.bank ∧ (s.updDie d f).frames =
    s.frames ∧ (s.updDie d f).cells = s.cells ∧ (s.updDie d f).panes = s.panes ∧ (s.updDie d f).chans = s.chans ∧ (s.updDie
    d f).arrays = s.arrays ∧ (s.updDie d f).queues = s.queues ∧ (s.updDie d f).ports = s.ports ∧ (s.updDie d f).movers =
    s.movers ∧ (s.updDie d f).lvPar = s.lvPar ∧ (s.updDie d f).tbu = s.tbu ∧ (s.updDie d f).doms = s.doms ∧ (s.updDie d
    f).arms = s.arms ∧ (s.updDie d f).armedBy = s.armedBy ∧ (s.updDie d f).engs = s.engs ∧ (s.updDie d f).dm = s.dm ∧
    (s.updDie d f).pmBad = s.pmBad ∧ (s.updDie d f).srcs = s.srcs ∧ (s.updDie d f).inqs = s.inqs ∧ (s.updDie d f).worms =
    s.worms ∧ (s.updDie d f).lost = s.lost ∧ (s.updDie d f).turns = s.turns ∧ (s.updDie d f).tins = s.tins ∧ (s.updDie d
    f).owns = s.owns ∧ (s.updDie d f).selfCpl = s.selfCpl ∧ (s.updDie d f).fmSeq = s.fmSeq ∧ (s.updDie d f).fmOut = s.fmOut
    ∧ (s.updDie d f).outst = s.outst ∧ (s.updDie d f).quar = s.quar ∧ (s.updDie d f).tracked = s.tracked ∧ (s.updDie d
    f).answered = s.answered ∧ (s.updDie d f).uclLeft = s.uclLeft ∧ (s.updDie d f).uclHdr = s.uclHdr ∧ (s.updDie d
    f).uclOwed = s.uclOwed ∧ (s.updDie d f).credOff = s.credOff ∧ (s.updDie d f).ledger = s.ledger ∧ (s.updDie d f).stageBrd
    = s.stageBrd ∧ (s.updDie d f).parkBrd = s.parkBrd ∧ (s.updDie d f).lanes = s.lanes ∧ (s.updDie d f).hinges = s.hinges ∧
    (s.updDie d f).leaves = s.leaves ∧ (s.updDie d f).stages = s.stages ∧ (s.updDie d f).recalls = s.recalls ∧ (s.updDie d
    f).gsnap = s.gsnap ∧ (s.updDie d f).gsnapDue = s.gsnapDue ∧ (s.updDie d f).edgeTurn = s.edgeTurn ∧ (s.updDie d f).tickQ
    = s.tickQ ∧ (s.updDie d f).sd = s.sd ∧ (s.updDie d f).sdMiss = s.sdMiss ∧ (s.updDie d f).sdOp = s.sdOp ∧ (s.updDie d
    f).lkRecs = s.lkRecs ∧ (s.updDie d f).fm = s.fm ∧ (s.updDie d f).fmErr = s.fmErr ∧ (s.updDie d f).ddrs = s.ddrs ∧
    (s.updDie d f).pins = s.pins ∧ (s.updDie d f).fpins = s.fpins ∧ (s.updDie d f).outputs = s.outputs ∧ (s.updDie d
    f).uarts = s.uarts ∧ (s.updDie d f).i2cs = s.i2cs ∧ (s.updDie d f).spis = s.spis ∧ (s.updDie d f).fans = s.fans ∧
    (s.updDie d f).tap = s.tap ∧ (s.updDie d f).clk = s.clk ∧ (s.updDie d f).cfg = s.cfg ∧ (s.updDie d f).chk = s.chk ∧
    (s.updDie d f).imgBit = s.imgBit ∧ (s.updDie d f).store = s.store ∧ (s.updDie d f).progd = s.progd ∧ (s.updDie d
    f).unread = s.unread ∧ (s.updDie d f).otp = s.otp ∧ (s.updDie d f).otpRun = s.otpRun ∧ (s.updDie d f).power = s.power ∧
    (s.updDie d f).db = s.db ∧ (s.updDie d f).host = s.host ∧ (s.updDie d f).hostSeq = s.hostSeq ∧ (s.updDie d f).hcqs =
    s.hcqs ∧ (s.updDie d f).b2 = s.b2 ∧ (s.updDie d f).park = s.park ∧ (s.updDie d f).unparkReq = s.unparkReq ∧ (s.updDie d
    f).msixs = s.msixs ∧ (s.updDie d f).pcieUp = s.pcieUp ∧ (s.updDie d f).mcMem = s.mcMem ∧ (s.updDie d f).chn = s.chn ∧
    (s.updDie d f).core0 = s.core0 ∧ (s.updDie d f).mcCount = s.mcCount ∧ (s.updDie d f).kpr = s.kpr ∧ (s.updDie d
    f).heldAcc = s.heldAcc ∧ (s.updDie d f).hubPar = s.hubPar ∧ (s.updDie d f).fresh = s.fresh ∧ (s.updDie d f).out = s.out
    ∧ (s.updDie d f).pending = s.pending := by
  and_intros <;> rfl

@[simp] theorem State.withDb_fields (s : State) (f : DbSt → DbSt) :
    (s.withDb f).regs = s.regs ∧ (s.withDb f).stv = s.stv ∧ (s.withDb f).bank = s.bank ∧ (s.withDb f).frames = s.frames ∧
    (s.withDb f).cells = s.cells ∧ (s.withDb f).panes = s.panes ∧ (s.withDb f).chans = s.chans ∧ (s.withDb f).arrays =
    s.arrays ∧ (s.withDb f).queues = s.queues ∧ (s.withDb f).ports = s.ports ∧ (s.withDb f).movers = s.movers ∧ (s.withDb
    f).lvPar = s.lvPar ∧ (s.withDb f).dies = s.dies ∧ (s.withDb f).tbu = s.tbu ∧ (s.withDb f).doms = s.doms ∧ (s.withDb
    f).arms = s.arms ∧ (s.withDb f).armedBy = s.armedBy ∧ (s.withDb f).engs = s.engs ∧ (s.withDb f).dm = s.dm ∧ (s.withDb
    f).pmBad = s.pmBad ∧ (s.withDb f).srcs = s.srcs ∧ (s.withDb f).inqs = s.inqs ∧ (s.withDb f).worms = s.worms ∧ (s.withDb
    f).lost = s.lost ∧ (s.withDb f).turns = s.turns ∧ (s.withDb f).tins = s.tins ∧ (s.withDb f).owns = s.owns ∧ (s.withDb
    f).selfCpl = s.selfCpl ∧ (s.withDb f).fmSeq = s.fmSeq ∧ (s.withDb f).fmOut = s.fmOut ∧ (s.withDb f).outst = s.outst ∧
    (s.withDb f).quar = s.quar ∧ (s.withDb f).tracked = s.tracked ∧ (s.withDb f).answered = s.answered ∧ (s.withDb
    f).uclLeft = s.uclLeft ∧ (s.withDb f).uclHdr = s.uclHdr ∧ (s.withDb f).uclOwed = s.uclOwed ∧ (s.withDb f).credOff =
    s.credOff ∧ (s.withDb f).ledger = s.ledger ∧ (s.withDb f).stageBrd = s.stageBrd ∧ (s.withDb f).parkBrd = s.parkBrd ∧
    (s.withDb f).lanes = s.lanes ∧ (s.withDb f).hinges = s.hinges ∧ (s.withDb f).leaves = s.leaves ∧ (s.withDb f).stages =
    s.stages ∧ (s.withDb f).recalls = s.recalls ∧ (s.withDb f).gsnap = s.gsnap ∧ (s.withDb f).gsnapDue = s.gsnapDue ∧
    (s.withDb f).edgeTurn = s.edgeTurn ∧ (s.withDb f).tickQ = s.tickQ ∧ (s.withDb f).sd = s.sd ∧ (s.withDb f).sdMiss =
    s.sdMiss ∧ (s.withDb f).sdOp = s.sdOp ∧ (s.withDb f).lkRecs = s.lkRecs ∧ (s.withDb f).fm = s.fm ∧ (s.withDb f).fmErr =
    s.fmErr ∧ (s.withDb f).ddrs = s.ddrs ∧ (s.withDb f).pins = s.pins ∧ (s.withDb f).fpins = s.fpins ∧ (s.withDb f).outputs
    = s.outputs ∧ (s.withDb f).uarts = s.uarts ∧ (s.withDb f).i2cs = s.i2cs ∧ (s.withDb f).spis = s.spis ∧ (s.withDb f).fans
    = s.fans ∧ (s.withDb f).tap = s.tap ∧ (s.withDb f).clk = s.clk ∧ (s.withDb f).cfg = s.cfg ∧ (s.withDb f).chk = s.chk ∧
    (s.withDb f).imgBit = s.imgBit ∧ (s.withDb f).store = s.store ∧ (s.withDb f).progd = s.progd ∧ (s.withDb f).unread =
    s.unread ∧ (s.withDb f).otp = s.otp ∧ (s.withDb f).otpRun = s.otpRun ∧ (s.withDb f).power = s.power ∧ (s.withDb f).host
    = s.host ∧ (s.withDb f).hostSeq = s.hostSeq ∧ (s.withDb f).hcqs = s.hcqs ∧ (s.withDb f).b2 = s.b2 ∧ (s.withDb f).park =
    s.park ∧ (s.withDb f).unparkReq = s.unparkReq ∧ (s.withDb f).msixs = s.msixs ∧ (s.withDb f).pcieUp = s.pcieUp ∧
    (s.withDb f).mcMem = s.mcMem ∧ (s.withDb f).chn = s.chn ∧ (s.withDb f).core0 = s.core0 ∧ (s.withDb f).mcCount =
    s.mcCount ∧ (s.withDb f).kpr = s.kpr ∧ (s.withDb f).heldAcc = s.heldAcc ∧ (s.withDb f).hubPar = s.hubPar ∧ (s.withDb
    f).fresh = s.fresh ∧ (s.withDb f).out = s.out ∧ (s.withDb f).pending = s.pending := by
  and_intros <;> rfl

@[simp] theorem State.withKpr_fields (s : State) (f : KprSt → KprSt) :
    (s.withKpr f).regs = s.regs ∧ (s.withKpr f).stv = s.stv ∧ (s.withKpr f).bank = s.bank ∧ (s.withKpr f).frames = s.frames
    ∧ (s.withKpr f).cells = s.cells ∧ (s.withKpr f).panes = s.panes ∧ (s.withKpr f).chans = s.chans ∧ (s.withKpr f).arrays =
    s.arrays ∧ (s.withKpr f).queues = s.queues ∧ (s.withKpr f).ports = s.ports ∧ (s.withKpr f).movers = s.movers ∧
    (s.withKpr f).lvPar = s.lvPar ∧ (s.withKpr f).dies = s.dies ∧ (s.withKpr f).tbu = s.tbu ∧ (s.withKpr f).doms = s.doms ∧
    (s.withKpr f).arms = s.arms ∧ (s.withKpr f).armedBy = s.armedBy ∧ (s.withKpr f).engs = s.engs ∧ (s.withKpr f).dm = s.dm
    ∧ (s.withKpr f).pmBad = s.pmBad ∧ (s.withKpr f).srcs = s.srcs ∧ (s.withKpr f).inqs = s.inqs ∧ (s.withKpr f).worms =
    s.worms ∧ (s.withKpr f).lost = s.lost ∧ (s.withKpr f).turns = s.turns ∧ (s.withKpr f).tins = s.tins ∧ (s.withKpr f).owns
    = s.owns ∧ (s.withKpr f).selfCpl = s.selfCpl ∧ (s.withKpr f).fmSeq = s.fmSeq ∧ (s.withKpr f).fmOut = s.fmOut ∧
    (s.withKpr f).outst = s.outst ∧ (s.withKpr f).quar = s.quar ∧ (s.withKpr f).tracked = s.tracked ∧ (s.withKpr f).answered
    = s.answered ∧ (s.withKpr f).uclLeft = s.uclLeft ∧ (s.withKpr f).uclHdr = s.uclHdr ∧ (s.withKpr f).uclOwed = s.uclOwed ∧
    (s.withKpr f).credOff = s.credOff ∧ (s.withKpr f).ledger = s.ledger ∧ (s.withKpr f).stageBrd = s.stageBrd ∧ (s.withKpr
    f).parkBrd = s.parkBrd ∧ (s.withKpr f).lanes = s.lanes ∧ (s.withKpr f).hinges = s.hinges ∧ (s.withKpr f).leaves =
    s.leaves ∧ (s.withKpr f).stages = s.stages ∧ (s.withKpr f).recalls = s.recalls ∧ (s.withKpr f).gsnap = s.gsnap ∧
    (s.withKpr f).gsnapDue = s.gsnapDue ∧ (s.withKpr f).edgeTurn = s.edgeTurn ∧ (s.withKpr f).tickQ = s.tickQ ∧ (s.withKpr
    f).sd = s.sd ∧ (s.withKpr f).sdMiss = s.sdMiss ∧ (s.withKpr f).sdOp = s.sdOp ∧ (s.withKpr f).lkRecs = s.lkRecs ∧
    (s.withKpr f).fm = s.fm ∧ (s.withKpr f).fmErr = s.fmErr ∧ (s.withKpr f).ddrs = s.ddrs ∧ (s.withKpr f).pins = s.pins ∧
    (s.withKpr f).fpins = s.fpins ∧ (s.withKpr f).outputs = s.outputs ∧ (s.withKpr f).uarts = s.uarts ∧ (s.withKpr f).i2cs =
    s.i2cs ∧ (s.withKpr f).spis = s.spis ∧ (s.withKpr f).fans = s.fans ∧ (s.withKpr f).tap = s.tap ∧ (s.withKpr f).clk =
    s.clk ∧ (s.withKpr f).cfg = s.cfg ∧ (s.withKpr f).chk = s.chk ∧ (s.withKpr f).imgBit = s.imgBit ∧ (s.withKpr f).store =
    s.store ∧ (s.withKpr f).progd = s.progd ∧ (s.withKpr f).unread = s.unread ∧ (s.withKpr f).otp = s.otp ∧ (s.withKpr
    f).otpRun = s.otpRun ∧ (s.withKpr f).power = s.power ∧ (s.withKpr f).db = s.db ∧ (s.withKpr f).host = s.host ∧
    (s.withKpr f).hostSeq = s.hostSeq ∧ (s.withKpr f).hcqs = s.hcqs ∧ (s.withKpr f).b2 = s.b2 ∧ (s.withKpr f).park = s.park
    ∧ (s.withKpr f).unparkReq = s.unparkReq ∧ (s.withKpr f).msixs = s.msixs ∧ (s.withKpr f).pcieUp = s.pcieUp ∧ (s.withKpr
    f).mcMem = s.mcMem ∧ (s.withKpr f).chn = s.chn ∧ (s.withKpr f).core0 = s.core0 ∧ (s.withKpr f).mcCount = s.mcCount ∧
    (s.withKpr f).heldAcc = s.heldAcc ∧ (s.withKpr f).hubPar = s.hubPar ∧ (s.withKpr f).fresh = s.fresh ∧ (s.withKpr f).out
    = s.out ∧ (s.withKpr f).pending = s.pending := by
  and_intros <;> rfl

@[simp] theorem State.withChn_fields (s : State) (f : ChnSt → ChnSt) :
    (s.withChn f).regs = s.regs ∧ (s.withChn f).stv = s.stv ∧ (s.withChn f).bank = s.bank ∧ (s.withChn f).frames = s.frames
    ∧ (s.withChn f).cells = s.cells ∧ (s.withChn f).panes = s.panes ∧ (s.withChn f).chans = s.chans ∧ (s.withChn f).arrays =
    s.arrays ∧ (s.withChn f).queues = s.queues ∧ (s.withChn f).ports = s.ports ∧ (s.withChn f).movers = s.movers ∧
    (s.withChn f).lvPar = s.lvPar ∧ (s.withChn f).dies = s.dies ∧ (s.withChn f).tbu = s.tbu ∧ (s.withChn f).doms = s.doms ∧
    (s.withChn f).arms = s.arms ∧ (s.withChn f).armedBy = s.armedBy ∧ (s.withChn f).engs = s.engs ∧ (s.withChn f).dm = s.dm
    ∧ (s.withChn f).pmBad = s.pmBad ∧ (s.withChn f).srcs = s.srcs ∧ (s.withChn f).inqs = s.inqs ∧ (s.withChn f).worms =
    s.worms ∧ (s.withChn f).lost = s.lost ∧ (s.withChn f).turns = s.turns ∧ (s.withChn f).tins = s.tins ∧ (s.withChn f).owns
    = s.owns ∧ (s.withChn f).selfCpl = s.selfCpl ∧ (s.withChn f).fmSeq = s.fmSeq ∧ (s.withChn f).fmOut = s.fmOut ∧
    (s.withChn f).outst = s.outst ∧ (s.withChn f).quar = s.quar ∧ (s.withChn f).tracked = s.tracked ∧ (s.withChn f).answered
    = s.answered ∧ (s.withChn f).uclLeft = s.uclLeft ∧ (s.withChn f).uclHdr = s.uclHdr ∧ (s.withChn f).uclOwed = s.uclOwed ∧
    (s.withChn f).credOff = s.credOff ∧ (s.withChn f).ledger = s.ledger ∧ (s.withChn f).stageBrd = s.stageBrd ∧ (s.withChn
    f).parkBrd = s.parkBrd ∧ (s.withChn f).lanes = s.lanes ∧ (s.withChn f).hinges = s.hinges ∧ (s.withChn f).leaves =
    s.leaves ∧ (s.withChn f).stages = s.stages ∧ (s.withChn f).recalls = s.recalls ∧ (s.withChn f).gsnap = s.gsnap ∧
    (s.withChn f).gsnapDue = s.gsnapDue ∧ (s.withChn f).edgeTurn = s.edgeTurn ∧ (s.withChn f).tickQ = s.tickQ ∧ (s.withChn
    f).sd = s.sd ∧ (s.withChn f).sdMiss = s.sdMiss ∧ (s.withChn f).sdOp = s.sdOp ∧ (s.withChn f).lkRecs = s.lkRecs ∧
    (s.withChn f).fm = s.fm ∧ (s.withChn f).fmErr = s.fmErr ∧ (s.withChn f).ddrs = s.ddrs ∧ (s.withChn f).pins = s.pins ∧
    (s.withChn f).fpins = s.fpins ∧ (s.withChn f).outputs = s.outputs ∧ (s.withChn f).uarts = s.uarts ∧ (s.withChn f).i2cs =
    s.i2cs ∧ (s.withChn f).spis = s.spis ∧ (s.withChn f).fans = s.fans ∧ (s.withChn f).tap = s.tap ∧ (s.withChn f).clk =
    s.clk ∧ (s.withChn f).cfg = s.cfg ∧ (s.withChn f).chk = s.chk ∧ (s.withChn f).imgBit = s.imgBit ∧ (s.withChn f).store =
    s.store ∧ (s.withChn f).progd = s.progd ∧ (s.withChn f).unread = s.unread ∧ (s.withChn f).otp = s.otp ∧ (s.withChn
    f).otpRun = s.otpRun ∧ (s.withChn f).power = s.power ∧ (s.withChn f).db = s.db ∧ (s.withChn f).host = s.host ∧
    (s.withChn f).hostSeq = s.hostSeq ∧ (s.withChn f).hcqs = s.hcqs ∧ (s.withChn f).b2 = s.b2 ∧ (s.withChn f).park = s.park
    ∧ (s.withChn f).unparkReq = s.unparkReq ∧ (s.withChn f).msixs = s.msixs ∧ (s.withChn f).pcieUp = s.pcieUp ∧ (s.withChn
    f).mcMem = s.mcMem ∧ (s.withChn f).core0 = s.core0 ∧ (s.withChn f).mcCount = s.mcCount ∧ (s.withChn f).kpr = s.kpr ∧
    (s.withChn f).heldAcc = s.heldAcc ∧ (s.withChn f).hubPar = s.hubPar ∧ (s.withChn f).fresh = s.fresh ∧ (s.withChn f).out
    = s.out ∧ (s.withChn f).pending = s.pending := by
  and_intros <;> rfl

@[simp] theorem State.setRecalled_fields (s : State) (e : ℕ) (x : ℕ) (fs : List (ℕ × TFlit)) :
    (s.setRecalled e x fs).regs = s.regs ∧ (s.setRecalled e x fs).stv = s.stv ∧ (s.setRecalled e x fs).bank = s.bank ∧
    (s.setRecalled e x fs).frames = s.frames ∧ (s.setRecalled e x fs).cells = s.cells ∧ (s.setRecalled e x fs).panes =
    s.panes ∧ (s.setRecalled e x fs).chans = s.chans ∧ (s.setRecalled e x fs).arrays = s.arrays ∧ (s.setRecalled e x
    fs).queues = s.queues ∧ (s.setRecalled e x fs).ports = s.ports ∧ (s.setRecalled e x fs).movers = s.movers ∧
    (s.setRecalled e x fs).lvPar = s.lvPar ∧ (s.setRecalled e x fs).dies = s.dies ∧ (s.setRecalled e x fs).tbu = s.tbu ∧
    (s.setRecalled e x fs).doms = s.doms ∧ (s.setRecalled e x fs).arms = s.arms ∧ (s.setRecalled e x fs).armedBy = s.armedBy
    ∧ (s.setRecalled e x fs).engs = s.engs ∧ (s.setRecalled e x fs).dm = s.dm ∧ (s.setRecalled e x fs).pmBad = s.pmBad ∧
    (s.setRecalled e x fs).srcs = s.srcs ∧ (s.setRecalled e x fs).inqs = s.inqs ∧ (s.setRecalled e x fs).worms = s.worms ∧
    (s.setRecalled e x fs).lost = s.lost ∧ (s.setRecalled e x fs).turns = s.turns ∧ (s.setRecalled e x fs).tins = s.tins ∧
    (s.setRecalled e x fs).owns = s.owns ∧ (s.setRecalled e x fs).selfCpl = s.selfCpl ∧ (s.setRecalled e x fs).fmSeq =
    s.fmSeq ∧ (s.setRecalled e x fs).fmOut = s.fmOut ∧ (s.setRecalled e x fs).outst = s.outst ∧ (s.setRecalled e x fs).quar
    = s.quar ∧ (s.setRecalled e x fs).tracked = s.tracked ∧ (s.setRecalled e x fs).answered = s.answered ∧ (s.setRecalled e
    x fs).uclLeft = s.uclLeft ∧ (s.setRecalled e x fs).uclHdr = s.uclHdr ∧ (s.setRecalled e x fs).uclOwed = s.uclOwed ∧
    (s.setRecalled e x fs).credOff = s.credOff ∧ (s.setRecalled e x fs).ledger = s.ledger ∧ (s.setRecalled e x fs).stageBrd
    = s.stageBrd ∧ (s.setRecalled e x fs).parkBrd = s.parkBrd ∧ (s.setRecalled e x fs).lanes = s.lanes ∧ (s.setRecalled e x
    fs).hinges = s.hinges ∧ (s.setRecalled e x fs).leaves = s.leaves ∧ (s.setRecalled e x fs).stages = s.stages ∧
    (s.setRecalled e x fs).gsnap = s.gsnap ∧ (s.setRecalled e x fs).gsnapDue = s.gsnapDue ∧ (s.setRecalled e x fs).edgeTurn
    = s.edgeTurn ∧ (s.setRecalled e x fs).tickQ = s.tickQ ∧ (s.setRecalled e x fs).sd = s.sd ∧ (s.setRecalled e x fs).sdMiss
    = s.sdMiss ∧ (s.setRecalled e x fs).sdOp = s.sdOp ∧ (s.setRecalled e x fs).lkRecs = s.lkRecs ∧ (s.setRecalled e x fs).fm
    = s.fm ∧ (s.setRecalled e x fs).fmErr = s.fmErr ∧ (s.setRecalled e x fs).ddrs = s.ddrs ∧ (s.setRecalled e x fs).pins =
    s.pins ∧ (s.setRecalled e x fs).fpins = s.fpins ∧ (s.setRecalled e x fs).outputs = s.outputs ∧ (s.setRecalled e x
    fs).uarts = s.uarts ∧ (s.setRecalled e x fs).i2cs = s.i2cs ∧ (s.setRecalled e x fs).spis = s.spis ∧ (s.setRecalled e x
    fs).fans = s.fans ∧ (s.setRecalled e x fs).tap = s.tap ∧ (s.setRecalled e x fs).clk = s.clk ∧ (s.setRecalled e x fs).cfg
    = s.cfg ∧ (s.setRecalled e x fs).chk = s.chk ∧ (s.setRecalled e x fs).imgBit = s.imgBit ∧ (s.setRecalled e x fs).store =
    s.store ∧ (s.setRecalled e x fs).progd = s.progd ∧ (s.setRecalled e x fs).unread = s.unread ∧ (s.setRecalled e x fs).otp
    = s.otp ∧ (s.setRecalled e x fs).otpRun = s.otpRun ∧ (s.setRecalled e x fs).power = s.power ∧ (s.setRecalled e x fs).db
    = s.db ∧ (s.setRecalled e x fs).host = s.host ∧ (s.setRecalled e x fs).hostSeq = s.hostSeq ∧ (s.setRecalled e x fs).hcqs
    = s.hcqs ∧ (s.setRecalled e x fs).b2 = s.b2 ∧ (s.setRecalled e x fs).park = s.park ∧ (s.setRecalled e x fs).unparkReq =
    s.unparkReq ∧ (s.setRecalled e x fs).msixs = s.msixs ∧ (s.setRecalled e x fs).pcieUp = s.pcieUp ∧ (s.setRecalled e x
    fs).mcMem = s.mcMem ∧ (s.setRecalled e x fs).chn = s.chn ∧ (s.setRecalled e x fs).core0 = s.core0 ∧ (s.setRecalled e x
    fs).mcCount = s.mcCount ∧ (s.setRecalled e x fs).kpr = s.kpr ∧ (s.setRecalled e x fs).heldAcc = s.heldAcc ∧
    (s.setRecalled e x fs).hubPar = s.hubPar ∧ (s.setRecalled e x fs).fresh = s.fresh ∧ (s.setRecalled e x fs).out = s.out ∧
    (s.setRecalled e x fs).pending = s.pending := by
  and_intros <;> rfl

@[simp] theorem State.setFmQueue_fields (s : State) (l : ℕ) (v : ℕ) (x : SrcQ) :
    (s.setFmQueue l v x).regs = s.regs ∧ (s.setFmQueue l v x).stv = s.stv ∧ (s.setFmQueue l v x).bank = s.bank ∧
    (s.setFmQueue l v x).frames = s.frames ∧ (s.setFmQueue l v x).cells = s.cells ∧ (s.setFmQueue l v x).panes = s.panes ∧
    (s.setFmQueue l v x).chans = s.chans ∧ (s.setFmQueue l v x).arrays = s.arrays ∧ (s.setFmQueue l v x).queues = s.queues ∧
    (s.setFmQueue l v x).ports = s.ports ∧ (s.setFmQueue l v x).movers = s.movers ∧ (s.setFmQueue l v x).lvPar = s.lvPar ∧
    (s.setFmQueue l v x).dies = s.dies ∧ (s.setFmQueue l v x).tbu = s.tbu ∧ (s.setFmQueue l v x).doms = s.doms ∧
    (s.setFmQueue l v x).arms = s.arms ∧ (s.setFmQueue l v x).armedBy = s.armedBy ∧ (s.setFmQueue l v x).engs = s.engs ∧
    (s.setFmQueue l v x).dm = s.dm ∧ (s.setFmQueue l v x).pmBad = s.pmBad ∧ (s.setFmQueue l v x).srcs = s.srcs ∧
    (s.setFmQueue l v x).inqs = s.inqs ∧ (s.setFmQueue l v x).worms = s.worms ∧ (s.setFmQueue l v x).lost = s.lost ∧
    (s.setFmQueue l v x).turns = s.turns ∧ (s.setFmQueue l v x).tins = s.tins ∧ (s.setFmQueue l v x).owns = s.owns ∧
    (s.setFmQueue l v x).selfCpl = s.selfCpl ∧ (s.setFmQueue l v x).fmSeq = s.fmSeq ∧ (s.setFmQueue l v x).outst = s.outst ∧
    (s.setFmQueue l v x).quar = s.quar ∧ (s.setFmQueue l v x).tracked = s.tracked ∧ (s.setFmQueue l v x).answered =
    s.answered ∧ (s.setFmQueue l v x).uclLeft = s.uclLeft ∧ (s.setFmQueue l v x).uclHdr = s.uclHdr ∧ (s.setFmQueue l v
    x).uclOwed = s.uclOwed ∧ (s.setFmQueue l v x).credOff = s.credOff ∧ (s.setFmQueue l v x).ledger = s.ledger ∧
    (s.setFmQueue l v x).stageBrd = s.stageBrd ∧ (s.setFmQueue l v x).parkBrd = s.parkBrd ∧ (s.setFmQueue l v x).lanes =
    s.lanes ∧ (s.setFmQueue l v x).hinges = s.hinges ∧ (s.setFmQueue l v x).leaves = s.leaves ∧ (s.setFmQueue l v x).stages
    = s.stages ∧ (s.setFmQueue l v x).recalls = s.recalls ∧ (s.setFmQueue l v x).gsnap = s.gsnap ∧ (s.setFmQueue l v
    x).gsnapDue = s.gsnapDue ∧ (s.setFmQueue l v x).edgeTurn = s.edgeTurn ∧ (s.setFmQueue l v x).tickQ = s.tickQ ∧
    (s.setFmQueue l v x).sd = s.sd ∧ (s.setFmQueue l v x).sdMiss = s.sdMiss ∧ (s.setFmQueue l v x).sdOp = s.sdOp ∧
    (s.setFmQueue l v x).lkRecs = s.lkRecs ∧ (s.setFmQueue l v x).fm = s.fm ∧ (s.setFmQueue l v x).fmErr = s.fmErr ∧
    (s.setFmQueue l v x).ddrs = s.ddrs ∧ (s.setFmQueue l v x).pins = s.pins ∧ (s.setFmQueue l v x).fpins = s.fpins ∧
    (s.setFmQueue l v x).outputs = s.outputs ∧ (s.setFmQueue l v x).uarts = s.uarts ∧ (s.setFmQueue l v x).i2cs = s.i2cs ∧
    (s.setFmQueue l v x).spis = s.spis ∧ (s.setFmQueue l v x).fans = s.fans ∧ (s.setFmQueue l v x).tap = s.tap ∧
    (s.setFmQueue l v x).clk = s.clk ∧ (s.setFmQueue l v x).cfg = s.cfg ∧ (s.setFmQueue l v x).chk = s.chk ∧ (s.setFmQueue l
    v x).imgBit = s.imgBit ∧ (s.setFmQueue l v x).store = s.store ∧ (s.setFmQueue l v x).progd = s.progd ∧ (s.setFmQueue l v
    x).unread = s.unread ∧ (s.setFmQueue l v x).otp = s.otp ∧ (s.setFmQueue l v x).otpRun = s.otpRun ∧ (s.setFmQueue l v
    x).power = s.power ∧ (s.setFmQueue l v x).db = s.db ∧ (s.setFmQueue l v x).host = s.host ∧ (s.setFmQueue l v x).hostSeq
    = s.hostSeq ∧ (s.setFmQueue l v x).hcqs = s.hcqs ∧ (s.setFmQueue l v x).b2 = s.b2 ∧ (s.setFmQueue l v x).park = s.park ∧
    (s.setFmQueue l v x).unparkReq = s.unparkReq ∧ (s.setFmQueue l v x).msixs = s.msixs ∧ (s.setFmQueue l v x).pcieUp =
    s.pcieUp ∧ (s.setFmQueue l v x).mcMem = s.mcMem ∧ (s.setFmQueue l v x).chn = s.chn ∧ (s.setFmQueue l v x).core0 =
    s.core0 ∧ (s.setFmQueue l v x).mcCount = s.mcCount ∧ (s.setFmQueue l v x).kpr = s.kpr ∧ (s.setFmQueue l v x).heldAcc =
    s.heldAcc ∧ (s.setFmQueue l v x).hubPar = s.hubPar ∧ (s.setFmQueue l v x).fresh = s.fresh ∧ (s.setFmQueue l v x).out =
    s.out ∧ (s.setFmQueue l v x).pending = s.pending := by
  and_intros <;> rfl

end Sys2Proof.Machine
end

