-- ==== Sys2Proof/Laws/Regs.lean ====
section
/-!
SUPPORT. Reading a register, a field or a flag after one has been written.
-/
namespace Sys2Proof.Machine

theorem State.reg_setReg (s : State) (a b : Nat) (v : HWord) : (s.setReg a v).reg b = if b = a then v else s.reg b := by
  by_cases h : b = a
  · subst h; simpa [State.reg, State.setReg] using SMap.get_set_same (resetVal b) s.regs b v
  · simpa [State.reg, State.setReg, h] using SMap.get_set_other (resetVal b) (resetVal a) s.regs a b v h

@[simp] theorem State.reg_setReg_same (s : State) (a : Nat) (v : HWord) : (s.setReg a v).reg a = v := by simp [State.reg_setReg]

theorem State.reg_setReg_other (s : State) {a b : Nat} (v : HWord) (h : b ≠ a) : (s.setReg a v).reg b = s.reg b := by
  simp [State.reg_setReg, h]

@[simp] theorem State.reg_setFld_same (s : State) (a : Nat) (f : Fld) (n : Nat) : (s.setFld a f n).reg a = putF (s.reg a) f n := by
  simp [State.setFld]

theorem State.reg_setFld_other (s : State) {a b : Nat} (f : Fld) (n : Nat) (h : b ≠ a) : (s.setFld a f n).reg b = s.reg b :=
  s.reg_setReg_other _ h

theorem State.reg_addSat_other (s : State) {a b : Nat} (f : Fld) (n : Nat) (h : b ≠ a) : (s.addSat a f n).reg b = s.reg b :=
  s.reg_setFld_other f _ h

/-- A number in three parts: above, in and below a field. -/
theorem field_parts (x lo w : Nat) : x = x / 2 ^ (lo + w) * 2 ^ (lo + w) + x / 2 ^ lo % 2 ^ w * 2 ^ lo + x % 2 ^ lo := by
  have h1 := Nat.div_add_mod x (2 ^ lo)
  have h2 := Nat.div_add_mod (x / 2 ^ lo) (2 ^ w)
  rw [Nat.div_div_eq_div_mul, ← Nat.pow_add] at h2
  calc x = 2 ^ lo * (x / 2 ^ lo) + x % 2 ^ lo := h1.symm
    _ = 2 ^ lo * (2 ^ w * (x / 2 ^ (lo + w)) + x / 2 ^ lo % 2 ^ w) + x % 2 ^ lo := by rw [h2]
    _ = _ := by rw [Nat.pow_add]; ring

/-- Three parts put together stand in their places. -/
theorem parts_div {a m l lo w : Nat} (hl : l < 2 ^ lo) : (a * 2 ^ (lo + w) + m * 2 ^ lo + l) / 2 ^ lo = a * 2 ^ w + m := by
  have : a * 2 ^ (lo + w) + m * 2 ^ lo + l = l + 2 ^ lo * (a * 2 ^ w + m) := by rw [Nat.pow_add]; ring
  rw [this, Nat.add_mul_div_left _ _ (Nat.two_pow_pos lo), Nat.div_eq_of_lt hl, Nat.zero_add]

/-- A host word with a field replaced, as a number in three parts. -/
theorem putF_toNat (v : HWord) (f : Fld) (n : Nat) (h1 : f.lo ≤ f.hi) (h2 : f.hi < 32) :
    (putF v f n).toNat = v.toNat / 2 ^ (f.hi + 1) * 2 ^ (f.hi + 1) + n % 2 ^ (f.hi + 1 - f.lo) * 2 ^ f.lo + v.toNat % 2 ^ f.lo := by
  obtain ⟨hi, lo⟩ := f
  simp only at h1 h2 ⊢
  obtain ⟨w, hw⟩ : ∃ w, hi + 1 = lo + w := ⟨hi + 1 - lo, by omega⟩
  have e : hi + 1 - lo = w := by omega
  have hp := field_parts v.toNat lo w
  have hv := v.isLt
  have hm : n % 2 ^ w < 2 ^ w := Nat.mod_lt _ (Nat.two_pow_pos w)
  have hl : v.toNat % 2 ^ lo < 2 ^ lo := Nat.mod_lt _ (Nat.two_pow_pos lo)
  have hs : 2 ^ (lo + w) * 2 ^ (32 - (lo + w)) = 2 ^ 32 := by rw [← Nat.pow_add]; congr 1; omega
  have hh : v.toNat / 2 ^ (lo + w) < 2 ^ (32 - (lo + w)) := by
    rw [Nat.div_lt_iff_lt_mul (Nat.two_pow_pos _), Nat.mul_comm, hs]; exact hv
  have hb : n % 2 ^ w * 2 ^ lo + v.toNat % 2 ^ lo < 2 ^ (lo + w) := by
    rw [Nat.pow_add, Nat.mul_comm (2 ^ lo)]
    calc n % 2 ^ w * 2 ^ lo + v.toNat % 2 ^ lo < n % 2 ^ w * 2 ^ lo + 2 ^ lo := by omega
      _ = (n % 2 ^ w + 1) * 2 ^ lo := by ring
      _ ≤ 2 ^ w * 2 ^ lo := Nat.mul_le_mul_right _ hm
  have hlt : v.toNat / 2 ^ (lo + w) * 2 ^ (lo + w) + n % 2 ^ w * 2 ^ lo + v.toNat % 2 ^ lo < 2 ^ 32 := by
    have : (v.toNat / 2 ^ (lo + w) + 1) * 2 ^ (lo + w) ≤ 2 ^ (32 - (lo + w)) * 2 ^ (lo + w) := Nat.mul_le_mul_right _ hh
    rw [Nat.mul_comm (2 ^ (32 - (lo + w))), hs] at this
    have h3 : (v.toNat / 2 ^ (lo + w) + 1) * 2 ^ (lo + w) = v.toNat / 2 ^ (lo + w) * 2 ^ (lo + w) + 2 ^ (lo + w) := by ring
    omega
  have g : v.toNat - v.toNat / 2 ^ lo % 2 ^ w * 2 ^ lo + n % 2 ^ w * 2 ^ lo =
      v.toNat / 2 ^ (lo + w) * 2 ^ (lo + w) + n % 2 ^ w * 2 ^ lo + v.toNat % 2 ^ lo := by omega
  simp only [putF, getF, bitsOf, BitVec.toNat_ofNat, hw, show lo + w - lo = w by omega, g]
  exact Nat.mod_eq_of_lt hlt

theorem getF_putF_same (v : HWord) (f : Fld) (n : Nat) (h1 : f.lo ≤ f.hi) (h2 : f.hi < 32) :
    getF (putF v f n) f = n % 2 ^ (f.hi + 1 - f.lo) := by
  have e : f.hi + 1 = f.lo + (f.hi + 1 - f.lo) := by omega
  rw [getF, bitsOf, putF_toNat v f n h1 h2, e, show f.lo + (f.hi + 1 - f.lo) - f.lo = f.hi + 1 - f.lo by omega,
    parts_div (Nat.mod_lt _ (Nat.two_pow_pos _)), Nat.mul_add_mod', Nat.mod_mod]

/-- A field clear of the one written keeps its value. -/
theorem getF_putF_other (v : HWord) (f g : Fld) (n : Nat) (h1 : f.lo ≤ f.hi) (h2 : f.hi < 32) (h3 : g.lo ≤ g.hi)
    (h : g.hi < f.lo ∨ f.hi < g.lo) : getF (putF v f n) g = getF v g := by
  have e : f.hi + 1 = f.lo + (f.hi + 1 - f.lo) := by omega
  have hp := field_parts v.toNat f.lo (f.hi + 1 - f.lo)
  rw [← e] at hp
  have hl : v.toNat % 2 ^ f.lo < 2 ^ f.lo := Nat.mod_lt _ (Nat.two_pow_pos _)
  obtain h | h := h
  · have low : (putF v f n).toNat % 2 ^ f.lo = v.toNat % 2 ^ f.lo := by
      rw [putF_toNat v f n h1 h2]
      have : v.toNat / 2 ^ (f.hi + 1) * 2 ^ (f.hi + 1) + n % 2 ^ (f.hi + 1 - f.lo) * 2 ^ f.lo =
          2 ^ f.lo * (v.toNat / 2 ^ (f.hi + 1) * 2 ^ (f.hi + 1 - f.lo) + n % 2 ^ (f.hi + 1 - f.lo)) := by
        conv => lhs; rw [show (2 : Nat) ^ (f.hi + 1) = 2 ^ f.lo * 2 ^ (f.hi + 1 - f.lo) by rw [← Nat.pow_add, ← e]]
        conv => rhs; rw [show (2 : Nat) ^ (f.hi + 1) = 2 ^ f.lo * 2 ^ (f.hi + 1 - f.lo) by rw [← Nat.pow_add, ← e]]
        ring
      rw [this, Nat.mul_add_mod, Nat.mod_mod]
    have d : (2 : Nat) ^ (g.hi + 1) ∣ 2 ^ f.lo := Nat.pow_dvd_pow 2 h
    have at_ : ∀ x : Nat, x / 2 ^ g.lo % 2 ^ (g.hi + 1 - g.lo) = x % 2 ^ f.lo % 2 ^ (g.hi + 1) / 2 ^ g.lo := by
      intro x
      rw [Nat.mod_mod_of_dvd x d, show g.hi + 1 = g.lo + (g.hi + 1 - g.lo) by omega, Nat.pow_add, Nat.mod_mul_right_div_self]
      congr 2; omega
    rw [getF, getF, bitsOf, bitsOf, at_, at_, low]
  · have high : (putF v f n).toNat / 2 ^ (f.hi + 1) = v.toNat / 2 ^ (f.hi + 1) := by
      rw [putF_toNat v f n h1 h2]
      have hb : n % 2 ^ (f.hi + 1 - f.lo) * 2 ^ f.lo + v.toNat % 2 ^ f.lo < 2 ^ (f.hi + 1) := by
        have hm : n % 2 ^ (f.hi + 1 - f.lo) < 2 ^ (f.hi + 1 - f.lo) := Nat.mod_lt _ (Nat.two_pow_pos _)
        rw [show (2 : Nat) ^ (f.hi + 1) = 2 ^ (f.hi + 1 - f.lo) * 2 ^ f.lo by rw [← Nat.pow_add]; congr 1; omega]
        calc _ < n % 2 ^ (f.hi + 1 - f.lo) * 2 ^ f.lo + 2 ^ f.lo := by omega
          _ = (n % 2 ^ (f.hi + 1 - f.lo) + 1) * 2 ^ f.lo := by ring
          _ ≤ _ := Nat.mul_le_mul_right _ hm
      rw [Nat.add_assoc, Nat.add_comm, Nat.add_mul_div_right _ _ (Nat.two_pow_pos _), Nat.div_eq_of_lt hb, Nat.zero_add]
    have at_ : ∀ x : Nat, x / 2 ^ g.lo = x / 2 ^ (f.hi + 1) / 2 ^ (g.lo - (f.hi + 1)) := by
      intro x; rw [Nat.div_div_eq_div_mul, ← Nat.pow_add]; congr 2; omega
    rw [getF, getF, bitsOf, bitsOf, at_, at_ v.toNat, high]

theorem State.fld_setFld_same (s : State) (a : Nat) (f : Fld) (n : Nat) (h1 : f.lo ≤ f.hi) (h2 : f.hi < 32) :
    (s.setFld a f n).fld a f = n % 2 ^ (f.hi + 1 - f.lo) := by
  rw [State.fld, State.reg_setFld_same, getF_putF_same _ _ _ h1 h2]

theorem State.fld_setFld_other (s : State) (a : Nat) (f g : Fld) (n : Nat) (h1 : f.lo ≤ f.hi) (h2 : f.hi < 32) (h3 : g.lo ≤ g.hi)
    (h : g.hi < f.lo ∨ f.hi < g.lo) : (s.setFld a f n).fld a g = s.fld a g := by
  rw [State.fld, State.reg_setFld_same, getF_putF_other _ _ _ _ h1 h2 h3 h, State.fld]

theorem State.fld_setFld_reg (s : State) {a b : Nat} (f g : Fld) (n : Nat) (h : b ≠ a) : (s.setFld a f n).fld b g = s.fld b g := by
  rw [State.fld, State.reg_setFld_other _ _ _ h, State.fld]

theorem State.flag_setFld_one (s : State) (a : Nat) (f : Fld) (h1 : f.lo ≤ f.hi) (h2 : f.hi < 32) : (s.setFld a f 1).flag a f = true := by
  have : 1 % 2 ^ (f.hi + 1 - f.lo) = 1 := Nat.mod_eq_of_lt (Nat.one_lt_two_pow (by omega))
  simp [State.flag, State.fld_setFld_same _ _ _ _ h1 h2, this]

theorem State.flag_setFld_zero (s : State) (a : Nat) (f : Fld) (h1 : f.lo ≤ f.hi) (h2 : f.hi < 32) : (s.setFld a f 0).flag a f = false := by
  simp [State.flag, State.fld_setFld_same _ _ _ _ h1 h2]

theorem State.flag_setFld_other (s : State) (a : Nat) (f g : Fld) (n : Nat) (h1 : f.lo ≤ f.hi) (h2 : f.hi < 32) (h3 : g.lo ≤ g.hi)
    (h : g.hi < f.lo ∨ f.hi < g.lo) : (s.setFld a f n).flag a g = s.flag a g := by
  simp [State.flag, State.fld_setFld_other _ _ _ _ _ h1 h2 h3 h]

theorem State.flag_setFld_reg (s : State) {a b : Nat} (f g : Fld) (n : Nat) (h : b ≠ a) : (s.setFld a f n).flag b g = s.flag b g := by
  simp [State.flag, State.fld_setFld_reg _ _ _ _ h]

end Sys2Proof.Machine
end

