-- ==== Sys2Proof/WellFormed.lean ====
section
/-!
DEFINITION. Which commands are well formed: what the types of their operands do not say. A packet's LEN agrees with its words, names
that a packet or an access carries are names of the device, and a list has as many items as the rule of its command gives it. The
machine's meanings do not depend on it.
-/
namespace Sys2Proof

/-- Is a number the name of a port (Tables 8.1, 8.2)? -/
def portNameOk (p : Nat) : Bool :=
  decide ((p < 16384 ∧ 4 ≤ p % 64 ∧ p % 64 < 12) ∨ (16400 ≤ p ∧ p < 16417) ∨ (20480 ≤ p ∧ p < 20544))

/-- A packet (Tables 8.3, 8.4): its ports have names, CMD is one of the table's, LEN counts the words of a command that carries data, and
parity bits stand for each of them or for none. -/
def Packet.wf (p : Packet) : Bool :=
  portNameOk p.dst && portNameOk p.src && decide (p.cmd.val < 9 ∨ p.cmd.val = 14 ∨ p.cmd.val = 15) &&
  (if p.cmd.val = 1 ∨ p.cmd.val = 2 ∨ p.cmd.val = 7 then decide (p.len.val = p.data.length ∧ 1 ≤ p.len.val) else true) &&
  (if p.cmd.val = 0 then decide (1 ≤ p.len.val ∧ p.data = []) else true) &&
  decide (p.data.length ≤ 64 ∧ (p.par = [] ∨ p.par.length = p.data.length))

/-- A chain packet (R302): a payload of up to 256 octets. -/
def ChainPkt.wf (p : ChainPkt) : Bool := decide (p.payload.length ≤ 256)

/-- The lists of a command are as long as its rule has them. -/
def Instr.wf : Instr → Bool
  | .rd pk _ => pk.wf
  | .wr pk _ => pk.wf
  | .wrp pk _ => pk.wf
  | .rdlk pk => pk.wf
  | .wrul pk => pk.wf
  | .transomAdd pk => pk.wf
  | .swap pk => pk.wf
  | .msg pk => pk.wf
  | .lkup pk => pk.wf
  | .cpl pk => pk.wf
  | .cple pk => pk.wf
  | .packetForward _ pk => pk.wf
  | .plainFlit _ _ ns => decide (ns.length ≤ 8)
  | .markedFlit _ _ ns => decide (ns.length ≤ 8)
  | .flitOne _ _ ns => decide (ns.length ≤ 8)
  | .flitTwo _ _ ns => decide (ns.length ≤ 8)
  | .ack _ _ ns => decide (ns.length ≤ 8)
  | .ecred _ _ ns => decide (ns.length ≤ 8)
  | .tcred _ _ ns => decide (ns.length ≤ 8)
  | .tick _ _ ns => decide (ns.length ≤ 8)
  | .width _ _ _ ns => decide (ns.length ≤ 8)
  | .knock pk => pk.wf
  | .knockEnd pk => pk.wf
  | .knockReq pk => pk.wf
  | .cfg pk _ => pk.wf
  | .mreq pk _ => pk.wf
  | .mrsp pk _ => pk.wf
  | .kpr pk _ => pk.wf
  | .commandFetch _ cw ok => decide (ok = false ∨ cw.length = 16)
  | .arm _ map ok => decide (ok = false ∨ map.length = 32)
  | .registerWrite _ _ len _ => decide (1 ≤ len ∧ len ≤ 8)
  | .readClear _ len _ => decide (1 ≤ len)
  | .bar2Write _ bytes => decide (1 ≤ bytes.length)
  | .bar2Read _ len _ => decide (1 ≤ len)
  | _ => true

end Sys2Proof
end

