-- ==== Sys2Proof/Tests/Slice0.lean ====
section
/-!
SUPPORT. Tests: terms that WellFormed refuses, register values at reset, single steps whose results the spec's own tables and examples
give, and, for the statements' hypotheses, states and operands that meet them.
-/
namespace Sys2Proof.Tests
open Sys2Proof Sys2Proof.Machine Sys2Proof.Claims
set_option Elab.async false

/-! ### Small states -/

/-- A state with some fields of registers changed. -/
def setFlds (s : State) (l : List (Nat × Fld × Nat)) : State := l.foldl (fun a e => a.setFld e.1 e.2.1 e.2.2) s

/-- A register value made of fields. -/
def fields (l : List (Fld × Nat)) : HWord := l.foldl (fun v e => putF v e.1 e.2) 0

/-- ST fields of a register of a member, in bank A. -/
def setSt (s : State) (off : Nat) (l : List (Fld × Nat)) : State := s.setStAt 0 off (fields l)

/-- Every die known, die 0 loaded and out of GSR, its pane 0 clocked and in its tenth cycle. -/
def running : State :=
  (setFlds ((State.reset.setReg R.HUB_STEP 0x4000BBBB).updDie 0 fun x => { x with loaded := true, gsr := true, writes := true, outputs := true })
    [(R.PANE_CLK 0 0, F.PANE_CLK.LOCK, 1)]).setPane 0 { cycle := 10 }

/-- Besides, every hinge UP and the loops of the hub locked. -/
def linked : State :=
  setFlds running
    (([0, 1, 2, 3, 4, 5, 6, 7, 9, 10, 12, 13].map fun e => (R.HNG_STAT e, F.HNG_STAT.STATE, 2)) ++
      [(R.CLK_HLSTAT, F.CLK_HLSTAT.LOCK0, 1), (R.CLK_HLSTAT, F.CLK_HLSTAT.LOCK1, 1)])

/-! ### Well-formedness -/

def goodRead : Packet := { dst := 4, src := 10, cmd := 0, len := 4 }

theorem test_wf_packet : (Instr.rd goodRead none).wf = true := by decide
theorem test_wf_refuses_bad_target : (Instr.rd { goodRead with dst := 63 } none).wf = false := by decide
theorem test_wf_refuses_bad_source : (Instr.rd { goodRead with src := 16384 } none).wf = false := by decide
theorem test_wf_refuses_free_command : (Instr.rd { goodRead with cmd := 9 } none).wf = false := by decide
theorem test_wf_refuses_write_of_other_length : (Instr.wr { goodRead with cmd := 1, data := [1] } true).wf = false := by decide
theorem test_wf_refuses_read_of_nothing : (Instr.rd { goodRead with len := 0 } none).wf = false := by decide
theorem test_wf_refuses_parity_for_some_words :
    (Instr.wr { goodRead with cmd := 1, len := 2, data := [1, 2], par := [0] } true).wf = false := by decide
theorem test_wf_refuses_long_payload : (Instr.knock ⟨1, 2, 3, 4, List.replicate 257 0, 0⟩).wf = false := by decide +kernel
theorem test_wf_takes_payload_256 : (Instr.cfg ⟨1, 2, 3, 4, List.replicate 256 0, 0⟩ false).wf = true := by decide +kernel
theorem test_wf_refuses_noise_of_nine_beats : (Instr.plainFlit 0 0 (List.replicate 9 0)).wf = false := by decide
theorem test_wf_refuses_short_command : (Instr.commandFetch 0 (List.replicate 15 0) true).wf = false := by decide
theorem test_wf_refuses_short_map : (Instr.arm 0 (List.replicate 31 0) true).wf = false := by decide
theorem test_wf_refuses_empty_access : (Instr.registerWrite 0 0 0 0).wf = false := by decide
theorem test_wf_refuses_long_access : (Instr.registerWrite 0 0 9 0).wf = false := by decide
theorem test_wf_refuses_empty_read : (Instr.readClear 0 0 .consume).wf = false := by decide
theorem test_wf_refuses_empty_bar2_write : (Instr.bar2Write 0 []).wf = false := by decide
theorem test_wf_refuses_empty_bar2_read : (Instr.bar2Read 0 0 0).wf = false := by decide

/-! ### Reset (the tables' values) -/

theorem test_reset_partid : State.reset.reg R.HUB_PARTID = 0x000B0000 := by decide +kernel
theorem test_reset_integrity : State.reset.reg R.HUB_INTEGRITY = 1 := by decide +kernel
theorem test_reset_schedule : State.reset.live 0 (R.PANE_LVSCHED 0 0) = 0xFFFFFFF8 := by decide +kernel
theorem test_reset_predicates : (State.reset.eng 0).p = 1 := by decide +kernel
theorem test_reset_queue_empty : State.reset.pending = [] := by decide

/-! ### Control space -/

/-- Lines of the register tables: a plain register, one with RC bits, one with ST fields, one of a pane. -/
def rowSetL : RegRow := ⟨.TBU_SET_L, 0x20000c, [], 0x0, 0xffffffff, 0x0, 0x0, 0x0, 0x0, 0x0, 0x0, 0x0, 0x0⟩
def rowHostErr : RegRow := ⟨.HOST_ERR, 0x1010, [], 0x0, 0x0, 0xc, 0x0, 0xffff0000, 0x0, 0x0, 0x0, 0x0, 0x0⟩
def rowPinCfg : RegRow := ⟨.PIN_CFG, 0x20000, [(0x4, 64)], 0x0, 0x0, 0x0, 0x0, 0x0, 0x0, 0xffffffcf, 0x0, 0xffffffcf, 0x0⟩
def rowPaneCtx : RegRow := ⟨.PANE_CTX, 0x1000000, [(0x400000, 4), (0x4000, 64)], 0x3, 0x0, 0x4, 0x0, 0x0, 0x0, 0x0, 0x0, 0x0, 0x2⟩

theorem reach {s : State} {off : BitVec 26} {row : RegRow} {ix : List Nat}
    (h : s.power = .on ∧ off.toNat % 4 = 0 ∧ (off.toNat < 0x50000 ∨ 0x60000 ≤ off.toNat) ∧ regAt off.toNat = some (row, ix) ∧
      s.absent off.toNat row.kind ix = false ∧ s.cutOff off.toNat = false ∧ s.heldAcc = []) : Reachable s off row ix := h

theorem witness_RegisterTypeCodes_write : Reachable State.reset 0x20000C rowSetL [] ∧ PlainRegister rowSetL [] R.TBU_SET_L ∧
    stMember rowSetL.kind [] = none :=
  ⟨reach (by decide +kernel), fun _ _ => rfl, rfl⟩
theorem witness_RegisterTypeCodes_read : Reachable State.reset 0x20000C rowSetL [] ∧ ShowsItself rowSetL [] := ⟨reach (by decide +kernel), fun _ _ => rfl⟩
theorem witness_RegisterTypeCodes_staged : Reachable State.reset 0x20014 rowPinCfg [5] ∧ rowPinCfg.rc = 0 ∧ stMember rowPinCfg.kind [5] = some 0x388 :=
  ⟨reach (by decide +kernel), by decide, by decide +kernel⟩
theorem witness_RegisterTypeCodes_clear : Reachable State.reset 0x1010 rowHostErr [] ∧ rowHostErr.rc ≠ 0 :=
  ⟨reach (by decide +kernel), by decide⟩
theorem witness_StagedWritesWaitForCommit : Reachable State.reset 0x20014 rowPinCfg [5] ∧ PlainRegister rowPinCfg [5] (R.PIN_CFG 5) ∧
    stMember rowPinCfg.kind [5] = some 0x388 ∧ State.reset.shadowBusy 0x388 = false :=
  ⟨reach (by decide +kernel), fun _ _ => rfl, by decide +kernel, by decide +kernel⟩
theorem witness_AccessesAndRefusals_noRegister : regAt 0x3FFC = none := by decide +kernel
theorem witness_AccessesAndRefusals_waits : running.power = .on ∧ running.heldAcc = [] ∧ running.waitsAt (R.PANE_CTX 0 0) = true ∧
    linked.waitsAt (R.PANE_CTX 0 0) = false ∧ regAt (R.PANE_CTX 0 0) = some (rowPaneCtx, [0, 0]) ∧
    running.absent (R.PANE_CTX 0 0) rowPaneCtx.kind [0, 0] = false := by decide +kernel
theorem witness_AccessesAndRefusals_waitedLong :
    let s : State := { running with tbu := { run := 50000 * nsUnit }, heldAcc := [{ off := R.PANE_CTX 0 0, write := none, n := 1, since := 0 }] }
    s.waitsAt (R.PANE_CTX 0 0) = true ∧ 0 + 50000 * nsUnit ≤ s.tbu.run ∧ dieOf R.TBU_SET_L = none := by decide +kernel
theorem witness_AccessesAndRefusals_bar4 : (0 : Nat) < 16 * msixVectors 1 ∧ (State.reset.msixOf 1).pend = [] := by decide +kernel
theorem witness_DiagnosticOverrides : ∃ s : State, s.avail (portId 256 16) 0 = 3 :=
  ⟨State.reset.setAvail (portId 256 16) 0 3, by decide +kernel⟩

/-! ### Word cells -/

/-- Cell 0 of tile 5 of pane 0. -/
def cell0 : CellId := ⟨0, 0, 0, 5, 0, 0⟩

/-- Pane 0 whose cell 0 of tile 5 holds the louvre in L0, which its schedule names in slot 0. -/
def withLouvre (s : State) (l : BitVec 48) : State :=
  let f := paneFrame 0 0 5 0
  { setSt s (R.PANE_LVSCHED 0 0) [] with
    frames := SMap.set 0 (SMap.set 0 s.frames (frameKey 0 f 0) (BitVec.ofNat 40 (l.toNat / 256))) (frameKey 0 f 1)
      (BitVec.ofNat 40 (l.toNat % 256 * 2 ^ 32)),
    lvPar := SMap.set 0 s.lvPar (lvParKey 0 0 5 0 0) (louvreParity l) }

/-- A legal word of each opcode: operands Q0, Q1, Q2, destination Q3, COND AL, and a lane mode and IMM that Table 3.7 allows. -/
def legalWords : List (BitVec 48) :=
  [0x11300000#48, 0x20011300000#48, 0x40011300000#48, 0x60011300000#48, 0x80011300000#48, 0x100011300000#48, 0x120011300000#48, 0x140011300000#48,
   0x160011300000#48, 0x180011300000#48, 0x1a0011300000#48, 0x1c0011300000#48, 0x1e0011300000#48, 0x200011300000#48, 0x220011300000#48, 0x240011300000#48,
   0x260011300000#48, 0x280011300000#48, 0x2a0011300000#48, 0x2c0011300000#48, 0x300011300000#48, 0x320011300000#48, 0x340011300000#48, 0x400011300000#48,
   0x420011300000#48, 0x440011300000#48, 0x460011300000#48, 0x480011300000#48, 0x500011300000#48, 0x520011300000#48, 0x540011300000#48, 0x560011300000#48,
   0x580011300000#48, 0x600011301430#48, 0x620011301430#48, 0x640011301430#48, 0x684011300000#48, 0x6a8011300000#48, 0x700011300000#48, 0x720011300000#48,
   0x780011300000#48, 0x800011300000#48, 0x820011300000#48, 0x840011300000#48, 0x860011300000#48]

/-- The hypotheses of `CellClaim` for the word `l` at the present cycle. -/
def cellReady (s : State) (l : BitVec 48) : Bool :=
  decide ((s.cell (keyOf cell0)).ran ≠ s.cyc 0 + 1) && decide (s.issued 0 5 0 = some ⟨some 0, l⟩) &&
  decide (s.lvParAt (s.liveCopy 0) 0 5 0 0 = louvreParity l) && decide (illegalCause l = none) && (opRow l).isSome &&
  condHolds (s.cell (keyOf cell0)) (lvLane l) (lvCond l)

theorem ready_issues {s : State} {l : BitVec 48} (h : cellReady s l = true) :
    Issues s cell0 (some 0) l ∧ SoundParity s cell0 (some 0) l ∧ illegalCause l = none ∧ (∃ row, opRow l = some row) ∧
      condHolds (s.cell (keyOf cell0)) (lvLane l) (lvCond l) = true := by
  simp only [cellReady, Bool.and_eq_true, decide_eq_true_eq] at h
  obtain ⟨⟨⟨⟨⟨h1, h2⟩, h3⟩, h4⟩, h5⟩, h6⟩ := h
  exact ⟨⟨by decide, h1, h2⟩, fun j e => by cases e; exact h3, h4, Option.isSome_iff_exists.1 h5, h6⟩

/-- CellArithmetic, CellOrderAndLogic, CellFlagsAndMoves, CellShiftsAndFields, CellMultiplyCascade and CellQueueOpcodes: every opcode has a legal
word that a cell issues, its condition holding. -/
theorem witness_CellClaims : (legalWords.all fun l => cellReady ((withLouvre running l).advance 0 0) l) = true := by decide +kernel
theorem test_legalWords_opcodes : legalWords.map lvOp = cellCommands.map (·.2) := by decide +kernel
/-- CellsThatDoNotExecute: an ADD whose condition does not hold; one whose stored parity is wrong; an opcode that Table 3.7 lacks. -/
theorem witness_CellsThatDoNotExecute_condition : let s := (withLouvre running 0x100011310000#48).advance 0 0
    decide (s.issued 0 5 0 = some ⟨some 0, 0x100011310000#48⟩) = true ∧ illegalCause 0x100011310000#48 = none ∧
    condHolds (s.cell (keyOf cell0)) (lvLane 0x100011310000#48) (lvCond 0x100011310000#48) = false := by decide +kernel
theorem witness_CellsThatDoNotExecute_parity : let s := ({ withLouvre running 0x100011300000#48 with lvPar := [] }).advance 0 0
    s.issued 0 5 0 = some ⟨some 0, 0x100011300000#48⟩ ∧ s.lvParAt (s.liveCopy 0) 0 5 0 0 ≠ louvreParity 0x100011300000#48 ∧
    (s.reg (R.PANE_LVERR 0 0)).getLsbD 31 = false := by decide +kernel
theorem witness_CellsThatDoNotExecute_illegal : let s := (withLouvre running 0xfe0000000000#48).advance 0 0
    s.issued 0 5 0 = some ⟨some 0, 0xfe0000000000#48⟩ ∧ illegalCause 0xfe0000000000#48 = some 0 ∧
    (s.reg (R.PANE_LVILL 0 0)).getLsbD 31 = false := by decide +kernel
/-- A failure is captured already: of an earlier cycle, and of the present one by a cell of a higher coordinate. -/
theorem witness_CellsThatDoNotExecute_more :
    let s := ({ withLouvre running 0x100011300000#48 with lvPar := [] }.setReg (R.PANE_LVERR 0 0) 0x8041FFFF).advance 0 0
    let t := s.setPane 0 { s.pane 0 with errCyc := 11 }
    s.issued 0 5 0 = some ⟨some 0, 0x100011300000#48⟩ ∧ (s.reg (R.PANE_LVERR 0 0)).getLsbD 31 = true ∧ (s.pane 0).errCyc ≠ s.cyc 0 + 1 ∧
    (t.pane 0).errCyc = t.cyc 0 + 1 ∧ t.issued 0 5 0 = some ⟨some 0, 0x100011300000#48⟩ := by decide +kernel
/-- CellQueueOpcodes: a consumer that is not bound is not served. -/
theorem witness_CellQueueOpcodes_unbound :
    let s := (withLouvre running 0x800000300000#48).advance 0 0
    s.served 0 (s.cellBinding 0 (32 * 5) false) false (.cell (32 * 5)) = false := by decide +kernel

/-! ### Panes and channels -/

theorem witness_PaneClockIsland_gate : linked.dieDark 0 = false ∧ linked.flag (R.PANE_CLK 0 0) F.PANE_CLK.LOCK = true ∧
    linked.flag (R.PANE_CLK 0 0) F.PANE_CLK.GATE = false := by decide +kernel
theorem witness_PaneClockIsland_pending : ((linked.setPane 0 { gatePend := true }).pane 0).gatePend = true ∧
    (linked.setPane 0 { gatePend := true }).dieDark 0 = false := by decide +kernel
theorem witness_PaneClockIsland_gated : let s := setFlds linked [(R.PANE_CLK 0 0, F.PANE_CLK.LOCK, 0), (R.PANE_CLK 0 0, F.PANE_CLK.GATED, 1)]
    s.dieDark 0 = false ∧ (s.pane 0).gatePend = false ∧ s.flag (R.PANE_CLK 0 0) F.PANE_CLK.GATED = true ∧
    s.flag (R.PANE_CLK 0 0) F.PANE_CLK.LOCK = false := by decide +kernel
theorem witness_PaneClockIsland_relock : let s := linked.setPane 0 { relocking := true }
    (s.pane 0).relocking = true ∧ s.flag (R.PANE_CLK 0 0) F.PANE_CLK.GATE = false ∧ s.hasPref 0 = true ∧ (s.pane 0).switchPend = 0 ∧
    (s.pane 0).snaps = 0 ∧ (s.pane 0).gcap = false ∧ s.engs = [] ∧ s.movers = [] ∧ s.cfg.up = false := by decide +kernel
/-- A pane whose loop relocks, with what waited for its clocks. -/
def relocks (x : PaneSt) : State := linked.setPane 0 { x with relocking := true }
theorem witness_PaneClockIsland_waits : ((relocks { switchPend := 1 }).pane 0).switchPend = 1 ∧ ((relocks { snaps := 2 }).pane 0).snaps = 2 ∧
    ((relocks { gcap := true }).pane 0).gcap = true ∧ (((relocks {}).setEng 0 { switchPend := 1 }).eng 0).switchPend = 1 ∧
    (((relocks {}).setMover 0 { snaps := 2 }).mover 0).snaps = 2 := by decide +kernel
theorem witness_PaneClockIsland_boards : let s := relocks { brds := [(portId 0 1, true)] }
    (s.pane 0).brds = [(portId 0 1, true)] ∧ s.portExists (portId 0 1) = true ∧ s.dieDark 0 = false ∧ s.hasPref 0 = true ∧
    (s.pane 0).gatePend = false := by decide +kernel
theorem witness_PaneClockIsland_noReference : running.hasPref 0 = false ∧ running.cfg.up = false := by decide +kernel
theorem witness_PaneClockIsland_lossWhileGating : let s := setFlds linked [(R.PANE_CLK 0 0, F.PANE_CLK.GATE, 1)]
    s.flag (R.PANE_CLK 0 0) F.PANE_CLK.LOCK = true ∧ s.flag (R.PANE_CLK 0 0) F.PANE_CLK.GATE = true := by decide +kernel

/-- Pane 0 with block 0 in mode `mode`: queue 0 of four entries at 0, queue 1 of two at 8. -/
def queued (mode : Nat) (q : QueueSt) : State :=
  ((setSt (setSt (setSt running (R.WM_CFG 0 0 0) [(F.WM_CFG.MODE, mode), (F.WM_CFG.NQ, 1)]) (R.WM_QCFG 0 0 0 0) [(F.WM_QCFG.SIZEM1, 3)])
    (R.WM_QCFG 0 0 0 1) [(F.WM_QCFG.BASE, 8), (F.WM_QCFG.SIZEM1, 1)]).setEntry 0 0 { word := 0x11 }).setQueue 0 0 q

/-- A queue that has shown the entry at 0 since cycle 3. -/
def oneEntry : QueueSt := { wpos := 1, slots := [{ pos := 0, filled := true, made := 2, acc := 3 }], cIn := 1 }

/-- CellQueueOpcodes, R153: a pop finds a visible head; a push finds room; and a full queue. -/
def fullQueue : QueueSt :=
  let e := fun (p : Nat) => ({ pos := p, filled := true, made := 2, acc := 3 } : QSlot)
  { wpos := 4, slots := [e 0, e 1, e 2, e 3], cIn := 4 }
theorem witness_CellQueueOpcodes_queue : let s := queued 3 oneEntry
    s.queueMode 0 0 = true ∧ (s.queue 0 0).slots = [{ pos := 0, filled := true, made := 2, acc := 3 }] ∧ 3 < s.cyc 0 ∧ (s.entry 0 0).bad = 0 ∧
    s.paneOpen 0 = true ∧ s.discards 0 0 0 = false ∧ s.bindRoom 0 0 0 = true ∧ (s.queue 0 0).netNow (s.cyc 0) = [] ∧
    ((queued 3 {}).queue 0 0).visible 10 = none := by decide +kernel
theorem witness_CellQueueOpcodes_full : (queued 3 fullQueue).bindRoom 0 0 0 = false ∧ (queued 3 fullQueue).paneOpen 0 = true ∧
    (queued 3 fullQueue).discards 0 0 0 = false := by decide +kernel

/-- Outbound channel 16 of pane 0 (its east side), by inlet settings; inbound channel 16 there comes from pane 1's channel 48. -/
def inlet (s : State) (l : List (Fld × Nat)) : State := setSt s (R.PANE_CHIN 0 0 16) l
def outlet (s : State) (l : List (Fld × Nat)) (items : List ChanItem) : State :=
  (setSt s (R.PANE_CHOUT 0 0 16) l).setChan 1 48 { far := items }
def item : ChanItem := freshItem 0xAB true false

theorem witness_ElasticChannels_queueInlet : let s := inlet (queued 3 oneEntry) [(F.PANE_CHIN.MODE, 1)]
    s.paneRuns 0 = true ∧ (s.chan 0 16).inCyc ≠ s.cyc 0 + 1 ∧ nbr 0 1 = some (1, false) ∧
    s.served 0 (true, 0, 0) false (.chan 16) = true ∧ s.stageFree 0 16 = true ∧ (s.popBound 0 0 0).1.2.2 = true := by decide +kernel
theorem witness_ElasticChannels_queueInletWaits : let s := inlet (queued 3 {}) [(F.PANE_CHIN.MODE, 1)]
    s.paneRuns 0 = true ∧ (s.popBound 0 0 0).1.2.2 = false ∧ getF (s.chIn 0 0 16) F.PANE_CHIN.MODE = 1 := by decide +kernel
/-- A STROBE inlet of cell 0 of tile 5, for louvres L0 and L1; the cell wrote OUT in this cycle. -/
def strobe (ch : ChanSt) : State :=
  ((inlet running [(F.PANE_CHIN.MODE, 2), (F.PANE_CHIN.SCELL, 160), (F.PANE_CHIN.LVMASK, 3)]).setCell (keyOf cell0)
    { ran := 11, wroteOut := true, out := 0x123, lastLv := 1 }).setChan 0 16 ch
theorem witness_ElasticChannels_strobeInlet : let s := strobe {}
    let v := s.chIn (s.liveCopy 0) 0 16
    getF v F.PANE_CHIN.MODE = 2 ∧ getF v F.PANE_CHIN.SCELL = 160 ∧ (s.cell (cellKey 0 5 0)).ran = s.cyc 0 + 1 ∧
    (getF v F.PANE_CHIN.LVMASK).testBit 1 = true ∧ s.stageFree 0 16 = true := by decide +kernel
theorem witness_ElasticChannels_strobeOverrun :
    (strobe { far := [item, item, item, item, item, item, item, item] }).stageFree 0 16 = false := by decide +kernel
theorem witness_ElasticChannels_head : let s := outlet (queued 3 oneEntry) [(F.PANE_CHOUT.MODE, 1)] [item]
    HeadReady s 0 16 1 48 false item [] := ⟨by decide +kernel, by decide +kernel, by decide +kernel, by decide +kernel⟩
theorem witness_ElasticChannels_toQueue : let s := outlet (queued 3 oneEntry) [(F.PANE_CHOUT.MODE, 1)] [item]
    s.served 0 (true, 0, 0) true (.chan 16) = true ∧ s.queueMode 0 0 = true ∧ s.bindRoom 0 0 0 = true := by decide +kernel
theorem witness_ElasticChannels_toFullQueue :
    let s := outlet (queued 3 fullQueue) [(F.PANE_CHOUT.MODE, 1)] [item]
    s.discards 0 0 0 = false ∧ s.bindRoom 0 0 0 = false := by decide +kernel
theorem witness_ElasticChannels_toNoQueue : let s := outlet running [(F.PANE_CHOUT.MODE, 1)] [item]
    s.served 0 (true, 0, 0) true (.chan 16) = false := by decide +kernel
theorem witness_ElasticChannels_toPort : let s := outlet (queued 2 {}) [(F.PANE_CHOUT.MODE, 1)] [item]
    s.served 0 (true, 0, 0) true (.chan 16) = true ∧ s.queueMode 0 0 = false ∧ (s.pushPort 0 0 0 0xAB true).1 = true := by decide +kernel
theorem witness_ElasticChannels_toLatch : let s := outlet running [(F.PANE_CHOUT.MODE, 2), (F.PANE_CHOUT.LATCH, 3)] [item]
    getF (outletOf s 0 16 item) F.PANE_CHOUT.MODE = 2 ∧ s.latchTaken 0 16 3 = false := by decide +kernel
/-- A THRU pair of inbound channel 16 and outbound channel 33, to the south. -/
def thru (ch : ChanSt) : State :=
  (setSt (outlet running [(F.PANE_CHOUT.MODE, 3), (F.PANE_CHOUT.TDST, 33)] [item]) (R.PANE_CHIN 0 0 33)
    [(F.PANE_CHIN.MODE, 3), (F.PANE_CHIN.TSRC, 16)]).setChan 0 33 ch
theorem witness_ElasticChannels_thru : let s := thru {}
    getF (s.chIn 0 0 33) F.PANE_CHIN.MODE = 3 ∧ getF (s.chIn 0 0 33) F.PANE_CHIN.TSRC = 16 ∧ s.stageFree 0 33 = true ∧
    (s.chan 0 33).inCyc ≠ s.cyc 0 + 1 := by decide +kernel
theorem witness_ElasticChannels_thruHeld : ((thru { inCyc := 11 }).chan 0 33).inCyc = (thru { inCyc := 11 }).cyc 0 + 1 := by decide +kernel

/-! ### The shutter -/

/-- Device time at n ns. -/
def timed (n : Nat) (x : DomainSt) : State := ({ running with tbu := { time := n * 2 ^ 30, run := n * 2 ^ 30 + 5 } } : State).setDom 0 x

/-- A domain of 240 frames a second of four lines, which follows device time. -/
def film : DomainSt := { en := true, num := 240, den := 1, lines := 4, offset := 100 }

theorem witness_IdleStepIsTimebaseEdge : State.reset.pending = [] ∧ State.reset.power = .on ∧ State.reset.heldAcc = [] ∧
    State.reset.cfg.feed ≠ .chain ∧ SMap.get 0 State.reset.clk.mux 4 = 0 := by
  decide +kernel
theorem witness_IdleStepIsTimebaseEdge_cool : ({ db := { cool := true } } : State).db.cool = true := by decide +kernel
theorem witness_IdleStepIsTimebaseEdge_heldLow : SMap.get 0 ({ clk := { mux := [(4, 3)] } } : State).clk.mux 4 = 3 := by decide +kernel
/-- A chain stream that has not begun for 3 s, and one that stands still for 10 ms; accesses of a running die whose path is not UP. -/
theorem witness_IdleStepIsTimebaseEdge_chain :
    let s : State := { tbu := { run := 3000000000 * 2 ^ 30 }, cfg := { feed := .chain } }
    let t : State := { tbu := { run := 20000000 * 2 ^ 30 }, cfg := { feed := .chain, octs := [1], chainAt := 2 ^ 30 } }
    s.cfg.up = false ∧ s.chainWhole = false ∧ s.cfg.octs = [] ∧ 3000000000 * 2 ^ 30 ≤ s.tbu.run ∧ t.cfg.octs ≠ [] ∧ t.chainWhole = false ∧
    10000000 * 2 ^ 30 < t.tbu.run - t.cfg.chainAt := by decide +kernel
theorem witness_IdleStepIsTimebaseEdge_held :
    let h : HeldAcc := { off := 0x1000000, write := none, n := 1, since := 0 }
    let s : State := { running with heldAcc := [h], tbu := { run := 50000 * 2 ^ 30 } }
    dieOf h.off = some 0 ∧ s.dieDark 0 = false ∧ s.pathUp 0 = false ∧ h.since + 50000 * 2 ^ 30 ≤ s.tbu.run ∧ h.words = 1 ∧
    (regAt h.off).isSome = true := by decide +kernel
theorem witness_DeviceTimeAndTicks_noArm : ∀ i, i < 8 → State.reset.canEnd i = false := by decide +kernel
theorem witness_DeviceTimeAndTicks_frame : let s := timed 12500100 film
    (s.dom 0).en = true ∧ (s.dom 0).pinMode = false ∧ 1 ≤ (s.dom 0).num ∧ 1 ≤ (s.dom 0).den ∧
    tauNs (s.dom 0) 3 ≤ (s.tbu.time / 2 ^ 30 : Nat) ∧ ((s.tbu.time / 2 ^ 30 : Nat) : Int) < tauNs (s.dom 0) 4 ∧ (3 : Int) ≠ (s.dom 0).ticked ∧
    s.canEnd 0 = false := by decide +kernel
theorem witness_DeviceTimeAndTicks_line : let s := timed 14000100 { film with ticked := 3, line := 0 }
    (s.dom 0).en = true ∧ s.frameNow 0 = (s.dom 0).ticked ∧ s.lineNow 0 ≠ (s.dom 0).line := by decide +kernel
theorem witness_DeviceTimeAndTicks_edge :
    let s := setSt (timed 100 { film with pinMode := true, pin := 5 }) (R.PIN_CFG 5) [(F.PIN_CFG.FUNC, 0xB)]
    (s.dom 0).en = true ∧ (s.dom 0).pinMode = true ∧ s.refPin (s.dom 0) = true ∧ (s.dom 0).pin < 64 := by decide +kernel
theorem witness_DeviceTimeAndTicks_lost :
    let s := timed 6000000 { film with pinMode := true, pin := 5 }
    let x := s.dom 0
    x.en = true ∧ x.pinMode = true ∧ x.lost = false ∧ 5 * (x.den * 1000000000 * 2 ^ 30 / x.num) ≤ 4 * (s.tbu.run - x.began) := by decide +kernel
theorem witness_DeviceTimeAndTicks_still_lost :
    let s := timed 6000000 { film with pinMode := true, pin := 5, lost := true }
    let x := s.dom 0
    x.lost = true ∧ x.den * 1000000000 * 2 ^ 30 / x.num ≤ s.tbu.run - x.began := by decide +kernel
theorem witness_DeviceTimeAndTicks_up : (∀ e ∈ [12, 13, 2, 5], linked.hingeState e = 2 ∧ linked.tickWait e = []) ∧
    ∀ d, d < 4 → (SMap.get {} linked.dies d).off = false := by decide +kernel
theorem witness_DeviceTimeAndTicks_down : (SMap.get {} running.dies (tickDie 12)).off = false ∧ running.hingeState 12 ≠ 2 := by decide +kernel

theorem witness_DeviceTimeAndTicks_read : let x := film
    TimeDomain x ∧ tauNs x 3 ≤ 12500100 ∧ 12500100 < tauNs x 4 := ⟨⟨rfl, rfl, by decide, by decide⟩, by decide +kernel, by decide +kernel⟩
theorem witness_DeviceTimeAndTicks_record : endDie 2 = some 0 ∧ (recordOf 0 2 3).kind.val < 5 ∧ (SMap.get {} running.dies 0).gcap = false := by
  decide +kernel
/-- Generation 1 of domain 0's group. -/
def group (num src : Nat) : State :=
  setFlds running [(R.TB_CFG 0, F.TB_CFG.GEN, 1), (R.TB_CFG 0, F.TB_CFG.EN, 1), (R.TB_CFG 0, F.TB_CFG.SRC, src), (R.TB_RATE 0, F.TB_RATE.GEN, 1),
    (R.TB_RATE 0, F.TB_RATE.NUM, num), (R.TB_RATE 0, F.TB_RATE.DEN, 1), (R.TB_LINES 0, F.TB_LINES.GEN, 1), (R.TB_OFFSET 0, F.TB_OFFSET.GEN, 1)]
/-- GEN of the four registers, AGEN, NUM, DEN and SRC. -/
def groupOf (s : State) : List Nat :=
  [s.fld (R.TB_CFG 0) F.TB_CFG.GEN, s.fld (R.TB_RATE 0) F.TB_RATE.GEN, s.fld (R.TB_LINES 0) F.TB_LINES.GEN, s.fld (R.TB_OFFSET 0) F.TB_OFFSET.GEN,
   s.fld (R.TB_CFG 0) F.TB_CFG.AGEN, s.fld (R.TB_RATE 0) F.TB_RATE.NUM, s.fld (R.TB_RATE 0) F.TB_RATE.DEN, s.fld (R.TB_CFG 0) F.TB_CFG.SRC]
theorem witness_GenerationAdoption_valid : groupOf (group 60 0) = [1, 1, 1, 1, 0, 60, 1, 0] ∧ (group 60 0).canEnd 0 = false := by decide +kernel
theorem witness_GenerationAdoption_invalid : groupOf (group 241 0) = [1, 1, 1, 1, 0, 241, 1, 0] := by decide +kernel
theorem witness_GenerationAdoption_reserved_source : groupOf (group 60 2) = [1, 1, 1, 1, 0, 60, 1, 2] := by decide +kernel

/-- Frame 3 of domain 0, whose set holds the first member of every 32. -/
def inSet0 : State := (List.range 29).foldl (fun s k => s.setReg (R.SHT_SET 0 k) 1) (timed 12500100 { film with ticked := 2 })
def set0 : List Nat := (List.range 29).map (32 * ·)
/-- The domain with an arm in STATE `st`. -/
def armed (st : Nat) (a : ArmSt) : State := ((setFlds (inSet0) [(R.SHT_STATUS 0, F.SHT_STATUS.STATE, st)]).setArm 0 a)
/-- Member 0 has received the arm of number 1. -/
def received (s : State) : State := { s with armedBy := [(0, 9)] }

theorem witness_ArmingACommit_rejected : (armed 1 {}).armState 0 = 1 := by decide +kernel
theorem witness_ArmingACommit_refused : let s := { inSet0 with park := some ⟨0, none⟩ }
    s.armState 0 ≠ 1 ∧ s.goCheck 0 ≠ 0 := by decide +kernel
theorem witness_ArmingACommit_parked : let s := { inSet0 with park := some ⟨0, none⟩ }
    s.inSet 0 0 = true ∧ memberDie 0 = some 0 ∧ s.park = some ⟨0, none⟩ := by decide +kernel
theorem witness_ArmingACommit_armed : let s := inSet0
    s.armState 0 ≠ 1 ∧ s.goCheck 0 = 0 ∧ s.frameNow 0 = 3 ∧ (10 : Int) % 65536 = getF (10 : HWord) F.SHT_ARM.FRAME := by decide +kernel
theorem witness_ArmingACommit_armReceive : let s := armed 1 { target := 3, seq := 1, reach := [(2, 0)] }
    s.canEnd 0 = true ∧ s.inSet 0 0 = true ∧ s.reached0 0 2 0 = true ∧ SMap.get 0 s.armedBy 0 = 0 := by decide +kernel
theorem witness_ArmingACommit_acknowledge :
    let s := { received (armed 1 { target := 3, seq := 1 }) with regs := (received (setFlds linked [])).regs }
    SMap.get 0 s.armedBy 0 = s.armTag 0 ∧ s.memberReady 0 = true ∧ s.pathUp 0 = true := by decide +kernel
theorem witness_ArmingACommit_ready : let s := received (armed 1 { target := 3, seq := 1 })
    s.canEnd 0 = true ∧ (s.dom 0).en = true ∧ (s.dom 0).pinMode = false ∧ SMap.get 0 s.armedBy 0 = s.armTag 0 := by decide +kernel
theorem witness_ArmingACommit_heard : let s := armed 1 { target := 3, seq := 1 }
    endDie 12 = none ∧ s.canEnd 0 = true ∧ (recordOf 0 5 3).frame.val = ((s.arm 0).target % 2 ^ 24).toNat ∧ (5 : Nat) ∉ (s.arm 0).acked := by
  decide +kernel
theorem witness_ArmingACommit_hubMember : memberDie 0x388 = none ∧ linked.memberReady 0x388 = true := by decide +kernel
theorem witness_ArmingACommit_disarm : let s := received (armed 4 { target := 3, seq := 1, reach := [(4, 0)] })
    SMap.get 0 s.armedBy 0 = 9 ∧ s.armState 0 ≠ 1 ∧ s.armTag 0 = 9 ∧ s.reached0 0 4 0 = true := by decide +kernel
theorem witness_ArmingACommit_abortSent : let s := armed 1 { target := 3, seq := 1, sent := true }
    s.armState 0 = 1 ∧ (s.arm 0).sent = true := by decide +kernel
theorem witness_ArmingACommit_allAcknowledged : let s := received (armed 1 { target := 3, seq := 1, acked := set0 })
    s.frameNow 0 = 3 ∧ (3 : Int) ≠ (s.dom 0).ticked ∧ s.canEnd 0 = true ∧ (s.arm 0).target ≤ 3 ∧ s.unacked 0 = [] := by decide +kernel
theorem witness_ArmingACommit_missed : let s := armed 1 { target := 3, seq := 1 }
    s.canEnd 0 = true ∧ (s.arm 0).target ≤ 3 ∧ s.unacked 0 ≠ [] ∧ s.fld (R.SHT_STATUS 0) F.SHT_STATUS.MISSES < 15 := by decide +kernel

/-- The commit of domain 0 has been sent, and has reached die 0. -/
def committed (sw : List Nat) : State :=
  received (armed 1 { target := 3, seq := 1, acked := set0, sent := true, frame := 3, reach := [(2, 0), (3, 0)], switched := sw })
theorem witness_CommitSwitches_switch : (committed []).commitFor 0 = some 0 ∧ (committed []).clockStopped 0 = false := by decide +kernel
theorem witness_CommitSwitches_stopped : let s := setFlds (committed []) [(R.PANE_CLK 0 0, F.PANE_CLK.LOCK, 0)]
    s.commitFor 0 = some 0 ∧ s.clockStopped 0 = true := by decide +kernel
theorem witness_CommitSwitches_complete : let s := committed set0
    s.armState 0 = 1 ∧ (s.arm 0).sent = true ∧ ∀ m ∈ s.setOf 0, m ∈ (s.arm 0).switched := by decide +kernel

/-! ### Signal engines -/

/-- Engine 0 in RUN at bundle 0, which holds the four slots LS, MAC, ALU, BR. -/
def engineAt (x : EngSt) (ls mac alu br : Nat) : State :=
  let b := ls * 2 ^ 90 + mac * 2 ^ 60 + alu * 2 ^ 30 + br
  let f := paneFrame 0 3 0 0
  ({ running with frames := (List.range 3).foldl (fun m i => SMap.set 0 m (frameKey 0 f i) (BitVec.ofNat 40 (b / 2 ^ (80 - 40 * i)))) running.frames } : State).setEng
    0 { x with state := .run }

/-- Opcodes of the MAC and of the ALU slot whose statements `EngClaim` makes, with a legal word of each. -/
def macWords : List Nat := [0x01, 0x02, 0x03, 0x04, 0x08, 0x09, 0x0A, 0x10, 0x11, 0x18, 0x19].map (· * 2 ^ 24)
def aluWords : List Nat :=
  [0x01, 0x02, 0x03, 0x08, 0x09, 0x0A, 0x0B, 0x0C, 0x0D, 0x0E, 0x0F, 0x10, 0x11, 0x12, 0x14, 0x15, 0x16, 0x19, 0x1C, 0x1D, 0x1E, 0x1F, 0x20,
   0x21, 0x22, 0x23, 0x28].map (· * 2 ^ 24) ++ [0x18 * 2 ^ 24 + 2 ^ 18]

/-- The hypotheses of `EngClaim` for slot `i` and word `w` of engine 0. -/
def engineReady (s : State) (i w : Nat) : Bool :=
  decide ((s.eng 0).state = .run) && s.engClocked 0 && decide ((s.eng 0).wdLoad = 0 ∨ (s.eng 0).wdog ≠ 0) &&
  decide (SMap.get 0 s.pmBad (pmKey (s.liveCopy (engMember (engDie 0) (engIx 0))) 0 (s.eng 0).pc) ≠ 2) &&
  ((List.range 4).all fun j => slotLegal j (slotOf (bundleOf s 0) j)) &&
  decide (slotOf (bundleOf s 0) i = w) && slotRuns (s.eng 0) w &&
  ((List.range 4).all fun j => decide (j = i) || !slotRuns (s.eng 0) (slotOf (bundleOf s 0) j))

theorem ready_engine {s : State} {i w : Nat} (h : engineReady s i w = true) :
    BundleReady s 0 ∧ SlotExecutes s 0 i w ∧ OthersIdle s 0 i := by
  simp only [engineReady, Bool.and_eq_true, decide_eq_true_eq, List.all_eq_true, List.mem_range, Bool.or_eq_true, Bool.not_eq_true'] at h
  obtain ⟨⟨⟨⟨⟨⟨⟨h1, h2⟩, h3⟩, h4⟩, h5⟩, h6⟩, h7⟩, h8⟩ := h
  exact ⟨⟨h1, h2, h3, h4, h5⟩, ⟨h6, h7⟩, fun j hj hn => (h8 j hj).resolve_left hn⟩

theorem witness_EngineAccumulates_EngineMovesAndControl_mac :
    (macWords.all fun w => engineReady (cycleOf (engineAt {} 0 w 0 0) 0 0) 1 w) = true := by decide +kernel
theorem witness_EngineArithmetic_EngineMovesAndControl_alu :
    (aluWords.all fun w => engineReady (cycleOf (engineAt {} 0 0 w 0) 0 0) 2 w) = true := by decide +kernel
theorem witness_EngineMovesAndControl_rrb : rrbIllegal (({} : EngSt).vr 0).toNat = false := by decide +kernel
/-- LD, LDO, ST, STO, SPOP, SPUSH, SSLAM, TRD and TWR in the LS slot. -/
def lsWords : List Nat := [0x01, 0x02, 0x03, 0x04, 0x08, 0x09, 0x0A, 0x10, 0x11].map (· * 2 ^ 24)
theorem witness_EngineMemoryAndStreams : (lsWords.all fun w => engineReady (cycleOf (engineAt {} w 0 0 0) 0 0) 0 w) = true := by decide +kernel
theorem witness_EngineMemoryAndStreams_due :
    let s := { engineAt {} (0x01 * 2 ^ 24) 0 0 0 with dm := [(0, { word := 5, bad := 2 })] }
    (s.dmWord 0 0).bad = 2 ∧ engineReady s 0 (0x01 * 2 ^ 24) = true := by decide +kernel
theorem witness_EngineMemoryAndStreams_tags : let s := engineAt {} (0x10 * 2 ^ 24) 0 0 0
    s.engTpend 0 < 16 ∧ s.freeTag (engPort 0) 16 ≠ none := by decide +kernel
theorem witness_EngineMemoryAndStreams_noTag :
    let s := { engineAt {} (0x10 * 2 ^ 24) 0 0 0 with quar := (List.range 16).map fun i => (engPort 0, i) }
    s.engTpend 0 < 16 ∧ s.freeTag (engPort 0) 16 = none := by decide +kernel
/-- Port 0 of engine 0 bound to queue 0 of block 0 as consumer and producer. -/
def streaming (q : QueueSt) (w : Nat) : State :=
  let s := setSt (queued 3 q) (R.ENG_SPB 0 0 0) [(F.ENG_SPB.CEN, 1), (F.ENG_SPB.PEN, 1)]
  { s with frames := (engineAt {} w 0 0 0).frames, engs := (engineAt {} w 0 0 0).engs }
theorem witness_EngineMemoryAndStreams_served : let s := streaming oneEntry (0x08 * 2 ^ 24)
    streamQ s 0 0 false = (true, 0, 0) ∧ streamQ s 0 0 true = (true, 0, 0) ∧ (s.popEngine 0 0 0).1.2.2 = true ∧
    (s.pushBound 0 0 0 0 false).1 = true ∧ s.queueMode 0 0 = true ∧ engineReady s 0 (0x08 * 2 ^ 24) = true := by decide +kernel
theorem witness_EngineMemoryAndStreams_waits : let s := streaming {} (0x08 * 2 ^ 24 + 2 ^ 6)
    (s.popEngine 0 0 0).1.2.2 = false ∧ engineReady s 0 (0x08 * 2 ^ 24 + 2 ^ 6) = true := by decide +kernel
theorem witness_EngineMemoryAndStreams_portB :
    (({ twr := [{ pk := { cmd := 2 }, x := 5, left := 2 }] } : EngSt)).twr = [{ pk := { cmd := 2 }, x := 5, left := 2 }] ∧
    (engineAt {} 0 0 0 0).dmWord 0 5 = {} := by decide +kernel
/-- The branch slot's operations, none of which faults here: BR, CALL, RET, LOOP, LOOPV, LOOPP, TWAIT, WDOG, BLK, SIG, STOP. -/
def brWords : List Nat := [0x01, 0x02, 0x03, 0x08, 0x09, 0x10, 0x11, 0x12, 0x13, 0x14].map (· * 2 ^ 24) ++ [0x0A * 2 ^ 24 + 3 * 2 ^ 9]
theorem witness_EngineProgramFlow : (brWords.all fun w =>
    engineReady (cycleOf (engineAt { ret := [7] } 0 0 0 w) 0 0) 3 w && !loopFault { ret := [7], state := .run } w) = true := by decide +kernel
theorem witness_EngineProgramFlow_unreadable :
    let s := { engineAt {} 0 0 0 0 with pmBad := [(pmKey 0 0 0, 2)] }
    (s.eng 0).state = .run ∧ s.engClocked 0 = true ∧ SMap.get 0 s.pmBad (pmKey (s.liveCopy (engMember 0 0)) 0 0) = 2 := by decide +kernel
theorem witness_EngineProgramFlow_illegal : let s := engineAt {} 0 (0x3F * 2 ^ 24) 0 0
    slotLegal 1 (slotOf (bundleOf s 0) 1) = false ∧ slotLegal 0 (slotOf (bundleOf s 0) 0) = true := by decide +kernel
theorem witness_EngineProgramFlow_loopFault : (engineReady (engineAt {} 0 0 0 (0x03 * 2 ^ 24)) 3 (0x03 * 2 ^ 24) &&
    decide (((engineAt {} 0 0 0 (0x03 * 2 ^ 24)).eng 0).ret = [])) = true := by decide +kernel
theorem witness_EngineProgramFlow_collision :
    let s := engineAt {} 0 (0x19 * 2 ^ 24 + 3) (0x01 * 2 ^ 24 + 3 * 2 ^ 12) 0
    slotOp (slotOf (bundleOf s 0) 1) = 0x19 ∧ slotOp (slotOf (bundleOf s 0) 2) = 0x01 ∧
    bitsOf (slotOf (bundleOf s 0) 1) 5 0 = bitsOf (slotOf (bundleOf s 0) 2) 17 12 ∧
    (∀ j, j < 4 → slotLegal j (slotOf (bundleOf s 0) j) = true) ∧ slotRuns (s.eng 0) (slotOf (bundleOf s 0) 1) = true := by decide +kernel
theorem witness_EngineProgramFlow_start : let s := running.setEng 0 { state := .idle }
    s.dieDark 0 = false ∧ (s.eng 0).state = .idle ∧ (s.pane (engPane 0)).shut = false := by decide +kernel
theorem witness_EngineProgramFlow_control : linked.dieDark 0 = false ∧ (linked.eng 0).state = .off ∧ (linked.eng 0).state ≠ .halt := by decide +kernel
/-- The watchdog's last cycle, with a taken branch, a STOP or an unreadable bundle; an MTC of an illegal value to RRB with EN set; a TWR of which
words remain; an engine in a die that is being parked. -/
theorem witness_EngineProgramFlow_lastCycle :
    (engineReady (cycleOf (engineAt { wdLoad := 2, wdog := 1 } 0 0 0 (0x01 * 2 ^ 24)) 0 0) 3 (0x01 * 2 ^ 24) &&
     engineReady (cycleOf (engineAt { wdLoad := 2, wdog := 1 } 0 0 0 (0x14 * 2 ^ 24)) 0 0) 3 (0x14 * 2 ^ 24)) = true ∧
    (let s := { engineAt { wdLoad := 2, wdog := 1 } 0 0 0 0 with pmBad := [(pmKey 0 0 0, 2)] }
     (s.eng 0).wdog = 1 ∧ SMap.get 0 s.pmBad (pmKey (s.liveCopy (engMember 0 0)) 0 0) = 2) := by decide +kernel
theorem witness_EngineMovesAndControl_illegalRrb : rrbIllegal (bitsOf 1 19 0) = false ∧ rrbIllegal 0x0807F = true := by decide +kernel
theorem witness_EngineProgramFlow_parking : let s := { running with park := some ⟨0, none⟩ }
    s.quiesces 0 = true ∧ s.dieDark 0 = false := by decide +kernel
theorem witness_EngineProgramFlow_expiry : let s := engineAt { wdLoad := 2, wdog := 0 } 0 0 0 0
    (s.eng 0).state = .run ∧ (s.eng 0).wdLoad ≠ 0 ∧ (s.eng 0).wdog = 0 ∧ s.engClocked 0 = true := by decide +kernel

/-! ### Word memories -/

theorem witness_RamPortsAndPatrol_serve : let s := (queued 2 {}).setPort 0 0 { reqs := [⟨true, 5, 7, false, 3⟩] }
    (3 : Nat) < s.cyc 0 ∧ (s.port 0 0).goneCyc ≠ s.cyc 0 + 1 ∧ (0 : Nat) < s.numPorts 0 0 ∧ s.paneRuns 0 = true ∧ s.arrWrite 0 5 = none := by
  decide +kernel
theorem witness_RamPortsAndPatrol_early : let s := (queued 2 {}).setPort 0 0 { reqs := [⟨true, 5, 7, false, 10⟩] }
    s.cyc 0 ≤ 10 ∧ (s.port 0 0).reqs = [⟨true, 5, 7, false, 10⟩] := by decide +kernel
theorem witness_RamPortsAndPatrol_readBad : let s := ((queued 2 {}).setEntry 0 5 { word := 1, bad := 2 }).setPort 0 0 { reqs := [⟨false, 5, 0, false, 3⟩] }
    (s.entryStart 0 5).bad = 2 ∧ (s.entryStart 0 6).bad = 0 ∧ (3 : Nat) < s.cyc 0 ∧ s.paneRuns 0 = true := by decide +kernel
theorem witness_RamPortsAndPatrol_lateWrite :
    let s := (queued 2 {}).setMover 0 { wrCyc := 11, wrs := [⟨5, 2, {}⟩] }
    s.arrWrite 0 5 = some ⟨5, 2, {}⟩ := by decide +kernel
/-- Patrol at an entry of the array whose mark is `b`. -/
def patrolled (mode : Nat) (b : Fin 3) (a : Nat) : State :=
  ((setFlds (queued mode oneEntry) [(R.WM_CFG 0 0 0, F.WM_CFG.PEN, 1)]).setEntry 0 a { word := 5, bad := b }).setMover 0 { patrol := a }
theorem witness_RamPortsAndPatrol_patrol : (patrolled 3 1 9).flag (R.WM_CFG 0 0 0) F.WM_CFG.PEN = true ∧
    ((patrolled 3 1 9).entry 0 9).bad = 1 ∧ (patrolled 3 2 9).liveEntry 0 0 9 = false ∧ (patrolled 3 2 0).liveEntry 0 0 0 = true ∧
    ((patrolled 3 2 0).entry 0 0).bad = 2 := by decide +kernel

/-- Block 0's mover of direction `dir`, its command or data queue 0, lines of four words in requests of two. -/
def moving (dir : Nat) (q : QueueSt) (mv : MoverSt) : State :=
  (setSt (queued 3 q) (R.WM_MVCFG 0 0 0) [(F.WM_MVCFG.DIR, dir), (F.WM_MVCFG.DQ, if dir = 1 then 1 else 0), (F.WM_MVCFG.LWORDS, 4),
    (F.WM_MVCFG.RWORDS, 2)]).setMover 0 mv

theorem witness_LineMovers_fetchLine : let s := moving 1 oneEntry {}
    (s.mvLive 0 0).dir = 1 ∧ s.paneRuns 0 = true ∧ s.served 0 (true, 0, 0) false .mover = true ∧ s.poppedNow 0 0 0 = false ∧
    (s.popQueue 0 0 0).1.2.2 = true := by decide +kernel
theorem witness_LineMovers_fetchIssue :
    let s := moving 1 {} { hold := true, set := { dir := 1, cq := 0, dq := 1, lwords := 4, rwords := 2 } }
    s.served 0 (true, 0, 1) true .mover = true ∧ s.hasRoom 0 0 1 2 = true ∧ (s.mover 0).issCyc ≠ s.cyc 0 + 1 ∧
    (s.queue 0 1).netNow (s.cyc 0) = [] ∧ s.freeTag (portId 0 4) 16 = some 0 := by decide +kernel
theorem witness_LineMovers_postEntry : let s := moving 2 oneEntry {}
    (s.mvEff 0 0).dir = 2 ∧ s.served 0 (true, 0, 0) false .mover = true ∧ s.poppedNow 0 0 0 = false ∧
    (s.queue 0 0).visible (s.cyc 0) = some 0 ∧ (s.entry 0 0).tag = false ∧ (0 : Nat) + 1 ≠ (s.mvEff 0 0).lwords := by decide +kernel
theorem witness_LineMovers_postLineEnd : let s := moving 2 oneEntry { i := 3, buf := [1] }
    (s.mover 0).i + 1 = (s.mvEff 0 0).lwords := by decide +kernel
theorem witness_LineMovers_postTagged : let s := (moving 2 oneEntry {}).setEntry 0 0 { word := 5, tag := true }
    (s.queue 0 0).visible (s.cyc 0) = some 0 ∧ (s.entry 0 0).tag = true ∧ (s.mover 0).buf = [] := by decide +kernel
theorem witness_LineMovers_nothing : let s := moving 1 {} {}
    (s.popQueue 0 0 0).1.2.2 = false ∧ (s.mover 0).hold = false ∧ (s.mover 0).ctl = false ∧ (s.mvLive 0 0).dir = 1 := by decide +kernel
theorem witness_LineMovers_taggedBehindWords : let s := (moving 2 oneEntry { i := 1, buf := [1] }).setEntry 0 0 { word := 5, tag := true }
    (s.entry 0 0).tag = true ∧ (s.mover 0).buf ≠ [] ∧ (s.mover 0).full = false := by decide +kernel
theorem witness_LineMovers_postIssue : let s := moving 2 {} { buf := [1], full := true }
    (s.mover 0).full = true ∧ (s.mover 0).buf ≠ [] ∧ s.paneRuns 0 = true ∧
    (s.queue 0 (s.mvEff 0 0).dq).visible (s.cyc 0) = none := by decide +kernel

/-- A RDLK of queue 0 of block 0, from engine 1 of pane 3. -/
def lockRead : Packet := { dst := 4, src := 203, cmd := cRDLK, addr := 0x1004000, tag := 5, prio := 1 }
theorem witness_LocksAndLedger_break :
    let s := (setFlds (queued 3 {}) [(R.WM_CFG 0 0 0, F.WM_CFG.LKTO, 1)]).setQueue 0 0 { lock := some 9, waiters := [lockRead] }
    s.fld (R.WM_CFG 0 0 0) F.WM_CFG.LKTO ≠ 0 ∧ (s.queue 0 0).lock.isSome = true ∧ s.dieDark 0 = false ∧
    s.flag (R.PANE_CLK 0 0) F.PANE_CLK.LOCK = true ∧ s.lateOf 0 0 lockRead = false ∧ (s.queue 0 0).waiters = [lockRead] ∧
    lockRead.cmd = cRDLK := by decide +kernel
theorem witness_LocksAndLedger_snap : linked.dieDark 0 = false ∧ linked.flag (R.PANE_CLK 0 0) F.PANE_CLK.LOCK = true := by decide +kernel
theorem witness_LocksAndLedger_snapWaits : let s := setFlds linked [(R.PANE_CLK 0 0, F.PANE_CLK.LOCK, 0)]
    s.dieDark 0 = false ∧ s.flag (R.PANE_CLK 0 0) F.PANE_CLK.LOCK = false := by decide +kernel
theorem witness_LocksAndLedger_reached : DieReached linked 0 :=
  ⟨by decide +kernel, by decide +kernel⟩

/-! ### Transom -/

/-- The flits of a packet stand at its target, whose pane runs. -/
def arrived (s : State) (pk : Packet) : State := s.setTin pk.dst (vcOf pk) (flitsFor pk)
/-- A request from engine 1 of pane 3 to block 0 of pane 0, at entry a of a RAM. -/
def request (cmd : Fin 16) (a n : Nat) (ws : List Word) : Packet :=
  { dst := 4, src := 203, cmd := cmd, prio := 1, tag := 5, len := Fin.ofNat 65 n, addr := BitVec.ofNat 40 (0x1000000 + a), data := ws, opnd := 7 }
/-- The hypotheses of `ReadyAt`. -/
def readyAt (s : State) (pk : Packet) : Bool :=
  decide (s.headAt pk.dst (vcOf pk) = some pk) && s.inTurn pk && s.targetRuns pk.dst

theorem ready_at {s : State} {c : Fin 16} {pk : Packet} (hc : pk.cmd = c) (h : readyAt s pk = true) : ReadyAt s c pk := by
  simp only [readyAt, Bool.and_eq_true, decide_eq_true_eq] at h
  exact ⟨hc, h.1.1, h.1.2, h.2⟩

theorem witness_TransomMemoryAccess_read : let pk := request cRD 5 3 []
    readyAt (arrived (queued 1 {}) pk) pk = true ∧ 5 + pk.len.val ≤ 16384 := by decide +kernel
theorem witness_TransomMemoryAccess_block : AtBlock (request cRD 5 3 []) 0 0 5 := by
  refine ⟨by decide, by decide, by decide, by decide⟩
theorem witness_TransomMemoryAccess_range : let pk := request cRD 16383 2 []
    readyAt (arrived (queued 1 {}) pk) pk = true ∧ 16384 < 16383 + pk.len.val := by decide +kernel
theorem witness_TransomMemoryAccess_write : let pk := request cWR 5 2 [1, 2]
    let s := arrived (queued 1 {}) pk
    readyAt s pk = true ∧ 1 ≤ s.numPorts 0 0 ∧ s.paneOpen 0 = true ∧ 5 + pk.data.length ≤ 16384 ∧ s.arrWrite 0 5 = none ∧
    s.arrWrite 0 6 = none := by decide +kernel
theorem witness_TransomMemoryAccess_posted : let pk := request cWRP 5 2 [1, 2]
    readyAt (arrived (queued 1 {}) pk) pk = true := by decide +kernel
theorem witness_TransomMemoryAccess_add : let pk := request cADD 5 0 []
    let s := arrived (queued 1 {}) pk
    readyAt s pk = true ∧ (s.entry 0 5).bad = 0 ∧ (s.entryNet 0 5).bad = 0 := by decide +kernel
theorem witness_TransomMemoryAccess_swap : let pk := request cSWAP 5 0 []
    readyAt (arrived (queued 1 {}) pk) pk = true := by decide +kernel
theorem witness_TransomMemoryAccess_engine : let pk := { request cRD 0x38005 2 [] with dst := 11 }
    readyAt (arrived running pk) pk = true ∧ pk.dst = portId 0 11 ∧ (pk.addr.toNat - 0x1000000) % 0x8000 = 5 := by decide +kernel

/-- Queue 0 of block 0 in locked use. -/
def lockedQueue (q : QueueSt) (pk : Packet) : State :=
  arrived ((setSt (queued 3 q) (R.WM_CFG 0 0 0) [(F.WM_CFG.MODE, 3), (F.WM_CFG.NQ, 1), (F.WM_CFG.LOCKED, 1)])) pk
theorem witness_TransomMemoryAccess_queue : let s := lockedQueue oneEntry lockRead
    s.qUsable 0 0 0 = true ∧ s.lockedUse 0 0 0 = true ∧ s.paneOpen 0 = true ∧ anyFails lockRead = false ∧ readyAt s lockRead = true ∧
    (s.queue 0 0).lock = none ∧ s.presentHead 0 0 0 ≠ [] ∧ (s.entry 0 0).bad = 0 := by decide +kernel
theorem witness_TransomMemoryAccess_queueEmpty : (lockedQueue {} lockRead).presentHead 0 0 0 = [] := by decide +kernel
theorem witness_TransomMemoryAccess_held : let s := lockedQueue { lock := some 9 } lockRead
    readyAt s lockRead = true ∧ (s.queue 0 0).lock = some 9 ∧ (9 : Nat) ≠ lockRead.src ∧ (s.queue 0 0).waiters.length < 4 := by decide +kernel
theorem witness_TransomMemoryAccess_fifthWaiter :
    ((lockedQueue { lock := some 9, waiters := [lockRead, lockRead, lockRead, lockRead] } lockRead).queue 0 0).waiters.length = 4 := by
  decide +kernel
theorem witness_TransomMemoryAccess_unlock : let pk := request cWRUL 0x4000 1 [9]
    let s := lockedQueue { oneEntry with lock := some 203 } pk
    readyAt s pk = true ∧ (s.queue 0 0).lock = some pk.src ∧ (s.queue 0 0).waiters = [] ∧ s.presentHead 0 0 0 ≠ [] ∧
    s.arrWrite 0 0 = none := by decide +kernel
theorem witness_TransomMemoryAccess_unlockFull :
    let pk := request cWRUL 0x4000 1 [9]
    let e := fun (p : Nat) => ({ pos := p, filled := false, made := 2, acc := 0, resv := true } : QSlot)
    let s := lockedQueue { slots := [e 0, e 1, e 2, e 3], wpos := 4, lock := some 203 } pk
    readyAt s pk = true ∧ s.presentHead 0 0 0 = [] ∧ s.discards 0 0 0 = false ∧ s.hasRoom 0 0 0 1 = false := by decide +kernel
theorem witness_TransomMemoryAccess_unlockPush :
    let pk := request cWRUL 0x4000 1 [9]
    let e := fun (p : Nat) => ({ pos := p, filled := false, made := 2, acc := 0, resv := true } : QSlot)
    let s := lockedQueue { lock := some 203 } pk
    let late := lockedQueue { slots := [e 0, e 1, e 2], wpos := 3, lock := some 203 } pk
    readyAt s pk = true ∧ s.presentHead 0 0 0 = [] ∧ s.discards 0 0 0 = false ∧ s.hasRoom 0 0 0 1 = true ∧ s.netWaits 0 0 0 1 = false ∧
    readyAt late pk = true ∧ late.presentHead 0 0 0 = [] ∧ late.netWaits 0 0 0 1 = true := by decide +kernel
theorem witness_TransomMemoryAccess_unlockRemove : let pk := request cWRUL 0x4000 0 []
    let s := lockedQueue { oneEntry with lock := some 203 } pk
    readyAt s pk = true ∧ pk.data = [] := by decide +kernel
theorem witness_TransomMemoryAccess_queueRead : let pk := request cRD 0x4000 1 []
    let s := lockedQueue oneEntry pk
    readyAt s pk = true ∧ pk.len = 1 ∧ (s.presentHead 0 0 0).length < (request cRD 0x4000 2 []).len.val := by decide +kernel
theorem witness_TransomMemoryAccess_holder : let s := lockedQueue { oneEntry with lock := some 203 } lockRead
    (s.queue 0 0).lock = some lockRead.src ∧ readyAt s lockRead = true ∧ s.presentHead 0 0 0 ≠ [] := by decide +kernel
theorem witness_TransomMemoryAccess_unlockWithoutLock : let pk := request cWRUL 0x4000 1 [9]
    let s := lockedQueue oneEntry pk
    readyAt s pk = true ∧ (s.queue 0 0).lock = none := by decide +kernel
/-- A write to queue 0 of block 0: with room; with room for it alone, where the binding's push would stand before it; at a full queue; at a full
PQUEUE, which a SLAM could yet make discard. -/
theorem witness_TransomMemoryAccess_push : let pk := request cWR 0x4000 1 [9]
    let at_ := fun mode q => arrived (queued mode q) pk
    let three : QueueSt := { fullQueue with slots := fullQueue.slots.take 3, wpos := 3 }
    readyAt (at_ 3 {}) pk = true ∧ (at_ 3 {}).qUsable 0 0 0 = true ∧ (at_ 3 {}).paneOpen 0 = true ∧ (at_ 3 {}).netWaits 0 0 0 1 = false ∧
    (at_ 3 {}).hasRoom 0 0 0 1 = true ∧ (at_ 3 {}).discards 0 0 0 = false ∧ anyFails pk = false ∧ (at_ 3 three).netWaits 0 0 0 1 = true ∧
    (at_ 3 fullQueue).netWaits 0 0 0 1 = false ∧ (at_ 3 fullQueue).hasRoom 0 0 0 1 = false ∧ (at_ 4 fullQueue).netWaits 0 0 0 1 = true := by
  decide +kernel

/-- A message to ring `i`, from engine 1 of pane 3. -/
def message (i : Nat) : Packet :=
  { dst := portId 256 (28 + i), src := 203, cmd := cMSG, prio := 1, tag := 5, len := 2, addr := 0x10000, data := [1, 2] }
theorem witness_MessagesAndCompletions_dropped :
    readyAt (arrived running (message 0)) (message 0) = true ∧ running.flag (R.MSG_CFG 0) F.MSG_CFG.EN = false := by decide +kernel
theorem witness_MessagesAndCompletions_taken : let s := arrived (setFlds running [(R.MSG_CFG 1, F.MSG_CFG.EN, 1)]) (message 1)
    readyAt s (message 1) = true ∧ s.flag (R.MSG_CFG 1) F.MSG_CFG.EN = true ∧
    (s.fld (R.MSG_TAIL 1) F.MSG_TAIL.MTAIL % 16 + 1) % 16 ≠ s.fld (R.MSG_HEAD 1) F.MSG_HEAD.MHEAD % 16 := by decide +kernel
/-- A lookup of a short key at lookup port 1. -/
def lookup : Packet := { dst := portId 256 25, src := 203, cmd := cLKUP, prio := 1, tag := 5, opnd := 7 }
def oneStream (s : State) : State := { s with sd := [((sdCandidates false 0 7).headD 0, { valid := true, k0 := 7, act := 9 })] }
theorem witness_MessagesAndCompletions_hit : let s := arrived (oneStream running) lookup
    readyAt s lookup = true ∧ s.sdFind false lookup.addr lookup.opnd = some ((sdCandidates false 0 7).headD 0) := by decide +kernel
theorem witness_MessagesAndCompletions_miss : running.sdFind false lookup.addr lookup.opnd = none := by decide +kernel
theorem witness_MessagesAndCompletions_record :
    let r : LkRec := { src := 203, prio := 1, reply := 0x1000000, klen := false, k1 := 0, k0 := 7 }
    SMap.get [] ({ running with lkRecs := [(1, [r])] } : State).lkRecs 1 = r :: [] ∧ r.src = lookup.src ∧ r.prio = lookup.prio ∧
    lookup.dst = portId 256 (24 + 1) := by decide +kernel
/-- A completion at engine 0 of pane 0, for tag 5. -/
def answer (cmd : Fin 16) : Packet := { dst := 10, src := 5, cmd := cmd, prio := 1, tag := 5, ecode := if cmd = cCPLE then 2 else 0 }
def asked (why : Purpose) : Outst := { port := 10, tag := 5, cmd := cWR, addr := 0, len := 1, why := why }
theorem witness_MessagesAndCompletions_completion :
    let s := arrived { running with outst := [asked (.engWrite 0)] } (answer cCPL)
    s.headAt 10 (vcOf (answer cCPL)) = some (answer cCPL) ∧
    s.outst.find? (fun o => decide (o.port = 10 ∧ o.tag = 5)) = some (asked (.engWrite 0)) := by decide +kernel
theorem witness_MessagesAndCompletions_error :
    let s := arrived { running with outst := [asked (.mover 0)] } (answer cCPLE)
    s.headAt 10 (vcOf (answer cCPLE)) = some (answer cCPLE) := by decide +kernel
theorem witness_MessagesAndCompletions_own :
    let s := { running with selfCpl := [answer cCPLE], outst := [asked (.engRead 0 0 1)] }
    s.headAt 10 (vcOf (answer cCPLE)) ≠ some (answer cCPLE) ∧ answer cCPLE ∈ s.selfCpl := by decide +kernel
theorem witness_MessagesAndCompletions_late : let s := arrived running (answer cCPL)
    s.headAt 10 (vcOf (answer cCPL)) = some (answer cCPL) ∧ s.outst = [] := by decide +kernel
theorem witness_MessagesAndCompletions_timeout :
    let s := { setFlds running [(trCtl 0, F.TR_CTL.RQTO, 3)] with outst := [asked (.engWrite 0)] }
    s.fld (trCtl 0) F.TR_CTL.RQTO ≠ 0 ∧ s.routerRuns 0 = true := by decide +kernel

/-- A read of one flit from engine 0 of pane 0 to its neighbour M0, at the router's input. -/
def local_ : Packet := { dst := 5, src := 10, cmd := cRD, prio := 1, tag := 5, len := 1, addr := 0x1008000 }
def atInput (s : State) (fs : List TFlit) : State := s.setInq 10 (vcOf local_) fs
theorem witness_PacketForwarding_send : let s := atInput running (flitsFor local_)
    let f := (flitsFor local_).headD { w := 0, par := 0 }
    s.routerRuns 0 = true ∧ s.wayOf 10 local_ = some 10 ∧ s.front 10 (vcOf local_) = some f ∧ f.head = true ∧
    flitsOf (headerOf f.w) = 1 ∧ s.fate 0 10 (vcOf local_) f = .send 5 ∧ s.ready 0 10 5 (vcOf local_) f = true ∧
    s.contenders 0 5 = [(10, vcOf local_)] ∧ f.fails = false ∧ s.boarded 5 = false := by decide +kernel
theorem witness_PacketForwarding_boarded : let s := (atInput running (flitsFor local_)).setBoarded 5 true
    s.boarded 5 = true ∧ s.contenders 0 5 = [(10, vcOf local_)] := by decide +kernel
theorem witness_PacketForwarding_noCredit : let s := (atInput running (flitsFor local_)).setAvail 5 (vcOf local_) 0
    s.boarded 5 = false ∧ s.avail 5 (vcOf local_) = 0 ∧ s.wayOf 10 local_ = some 10 := by decide +kernel
theorem witness_PacketForwarding_badHeader :
    let fs := (flitsFor local_).map fun f => { f with par := f.par ^^^ 1 }
    let s := atInput running fs
    s.fate 0 10 (vcOf local_) (fs.headD { w := 0, par := 0 }) = .parity ∧ s.wayOf 10 local_ = some 10 := by decide +kernel
theorem witness_PacketForwarding_core : let pk := { local_ with src := portId 256 29 }
    running.routerRuns 256 = true ∧ running.wayOf (portId 256 29) pk = none ∧ pk.cmd.val < 9 ∧ pk.par = [] ∧ running.outst = [] ∧
    running.quar = [] ∧ shapeOk pk = true ∧ shapeOk { pk with cmd := cWR } = false := by decide +kernel
/-- MC0 releases the word at 0x4000 of pane 0's M0, which it locked. -/
theorem witness_PacketForwarding_unlock :
    let pk := { local_ with src := portId 256 29, cmd := cWRUL, len := 0, addr := 0x100C000 }
    let s := { running with core0 := { locks := [0x100C000, 5] } }
    shapeOk pk = true ∧ (∃ a ∈ s.core0.locks, a ≠ pk.addr.toNat) ∧ s.routerRuns 256 = true ∧ s.wayOf (portId 256 29) pk = none := by decide +kernel
theorem witness_PacketForwarding_splitterBusy :
    ((running.setFmQueue (fmPortOf 2) 1 ⟨[local_], 0⟩).fmQueue (fmPortOf 2) 1).pks ≠ [] ∧ running.boarded memLink = false := by decide +kernel
theorem witness_PacketForwarding_stands : linked.routerRuns 1 = false ∧ (1 : Nat) < 256 := by decide +kernel
theorem witness_PacketForwarding_winner : let s := atInput running (flitsFor local_)
    SMap.get 0 s.turns 5 ≤ 131072 ∧ s.winner 5 (s.contenders 0 5) = some (10, vcOf local_) := by decide +kernel
theorem witness_PacketForwarding_held : let s := running.setWorm 11 (vcOf local_) ⟨local_, some 5, 1⟩
    11 ∈ inputsOf 0 ∧ (s.worm 11 (vcOf local_)).left ≠ 0 ∧ (s.worm 11 (vcOf local_)).out = some 5 := by decide +kernel

/-- A request from engine 1 of pane 3 that port 5 tracks. -/
def request5 : Tracked := { link := 5, src := 203, tag := 5, posted := false, cpl := false, prio := 1, left := 0, ahead := 0 }
theorem witness_BoardingAndCaptures_credit :
    let s := (setFlds (atInput running (flitsFor local_)) [(trCtl 0, F.TR_CTL.TOCR, 1)]).setAvail 5 (vcOf local_) 0
    let f := (flitsFor local_).headD { w := 0, par := 0 }
    s.portExists 5 = true ∧ s.routerRuns 0 = true ∧ s.fld (trCtl 0) F.TR_CTL.TOCR ≠ 0 ∧ 10 ∈ inputsOf 0 ∧
    s.front 10 (vcOf local_) = some f ∧ s.fate 0 10 (vcOf local_) f = .send 5 ∧ s.noCredit 5 (vcOf local_) f = true := by decide +kernel
theorem witness_BoardingAndCaptures_completion :
    let s := { setFlds running [(trCtl 0, F.TR_CTL.TOCP, 1)] with tracked := [request5] }
    s.portExists 5 = true ∧ s.routerRuns 0 = true ∧ s.fld (trCtl 0) F.TR_CTL.TOCP ≠ 0 ∧ localPort 5 = true ∧ request5 ∈ s.tracked ∧
    s.boarded 5 = false := by decide +kernel
theorem witness_BoardingAndCaptures_boarded : let s := running.setBoarded 5 true
    s.boarded 5 = true ∧ s.parkBrd.contains 5 = false ∧ s.portExists 5 = true := by decide +kernel
theorem witness_BoardingAndCaptures_parkBoarded : let s := { running.setBoarded 5 true with parkBrd := [5] }
    s.parkBrd.contains 5 = true ∧ s.boarded 5 = true ∧ s.portExists 5 = true ∧ s.pathUp 0 = false ∧ linked.pathUp 0 = true := by decide +kernel
theorem witness_BoardingAndCaptures_writeWaits : linked.routerRuns (routerOf (portId 1 2)) = false ∧ DieReached linked (routerOf (portId 1 2) / 64) :=
  ⟨by decide +kernel, by decide +kernel, by decide +kernel⟩
theorem witness_BoardingAndCaptures_snapWaits : running.routerRuns 1 = false ∧ running.dieDark 0 = false ∧
    running.routerRuns (paneId 0 0) = true := by decide +kernel
theorem witness_BoardingAndCaptures_global : let s := { linked with gsnapDue := 1 }
    s.gsnapDue ≠ 0 ∧ s.hubRuns = true ∧ s.pathUp 0 = true ∧ running.pathUp 0 = false := by decide +kernel
theorem witness_BoardingAndCaptures_park : let s := { linked with park := some ⟨2, none⟩ }
    s.park = some ⟨2, none⟩ ∧ s.drained0 2 = true := by decide +kernel

theorem witness_StreamDirectory_found : let s := (oneStream running).setReg R.SD_K0L 7
    s.sdFind false 0 7 = some ((sdCandidates false 0 7).headD 0) ∧ (s.reg R.SD_K0H).toNat % 256 * 2 ^ 32 + (s.reg R.SD_K0L).toNat = 7 ∧
    s.sdOp = none := by decide +kernel
theorem witness_StreamDirectory_free : running.sdFind false 0 7 = none ∧ (sdCandidates false 0 7).length ≠ 0 ∧
    (running.sdEnt ((sdCandidates false 0 7).headD 0)).valid = false := by decide +kernel
theorem witness_StreamDirectory_full :
    let s := { running with sd := (sdCandidates false 0 7).foldl (fun m i => SMap.set {} m i { valid := true, k0 := 8 }) [] }
    s.sdFind false 0 7 = none ∧ ∀ i ∈ sdCandidates false 0 7, (s.sdEnt i).valid = true := by decide +kernel
theorem witness_StreamDirectory_busy : ({ running with sdOp := some (3, false) } : State).sdOp = some (3, false) := by decide +kernel

/-! ### Frame memory -/

/-- Controller 0 in STATE `st`, its two sub-channels fitted, NSC 2. -/
def memory (st : Nat) : State :=
  setFlds running [(R.DDR_STATUS 0, F.DDR_STATUS.STATE, st), (R.DDR_MAP, F.DDR_MAP.NSCL, 1), (R.DDR_CFG 0, F.DDR_CFG.SCEN, 3)]
theorem witness_FrameMemory_init : (memory 0).ddrCfgOk 0 = true ∧ (memory 0).ddrAlike 0 = true ∧ (memory 0).rateClash 0 = false ∧
    (∀ sc, sc < (memory 0).nsc → (memory 0).ddrFitted sc = true) ∧ SMap.get 0 (memory 0).armedBy (ddrMember 0) = 0 := by decide +kernel
theorem witness_FrameMemory_badConfig : (setFlds (memory 0) [(R.DDR_CFG 0, F.DDR_CFG.RATE, 9)]).ddrCfgOk 0 = false := by decide +kernel
theorem witness_FrameMemory_clash :
    let s := { setFlds (memory 0) [(R.DDR_STATUS 1, F.DDR_STATUS.STATE, 2), (R.DDR_CFG 0, F.DDR_CFG.RATE, 2)] with clk := { started := 4 } }
    s.rateClash 0 = true ∧ s.ddrCfgOk 0 = true ∧ s.ddrAlike 0 = true := by decide +kernel
theorem witness_FrameMemory_deferred :
    let s := { (memory 0).setDdr 0 { initWait := true } with armedBy := [(ddrMember 0, 9)] }
    SMap.get 0 s.armedBy (ddrMember 0) ≠ 0 ∧ (s.ddr 0).initWait = true := by decide +kernel
theorem witness_FrameMemory_states : (memory 2).fld (R.DDR_STATUS 0) F.DDR_STATUS.STATE = 2 ∧
    (memory 3).fld (R.DDR_STATUS 0) F.DDR_STATUS.STATE = 3 ∧ (memory 1).ddrTraining 0 = true ∧
    (setFlds (memory 2) [(R.DDR_STATUS 0, F.DDR_STATUS.DEFER, 1)]).flag (R.DDR_STATUS 0) F.DDR_STATUS.DEFER = true := by decide +kernel
/-- A block with one wrong bit in beat 3. -/
def worn : State := { setFlds (memory 2) [(R.DDR_SCRUB 0, F.DDR_SCRUB.PEN, 1)] with fmErr := [(0, { flips := [(3, 1)] })] }
theorem witness_FrameMemory_patrol : worn.flag (R.DDR_SCRUB 0) F.DDR_SCRUB.PEN = true ∧ worn.fmTouches 0 = false ∧ worn.ddrFitted 0 = true ∧
    (worn.blkErr 0 0).symbols.length = 1 ∧ ((memory 2).blkErr 0 0).symbols = [] := by decide +kernel
theorem witness_FrameMemory_patrolTwo :
    (({ memory 2 with fmErr := [(0, { flips := [(3, 1), (4, 1#40 <<< 20)] })] } : State).blkErr 0 0).symbols.length = 2 := by decide +kernel
/-- A request to frame memory at word X, at controller 0. -/
def frameRequest (cmd : Fin 16) (x n : Nat) (ws : List Word) : Packet :=
  { dst := portId 256 16, src := 203, cmd := cmd, prio := 1, tag := 5, len := Fin.ofNat 65 n, addr := BitVec.ofNat 40 (0x100000000 + x),
    data := ws, opnd := 7 }
/-- A piece of that request, of `n` words at word X, accepted by its controller. -/
def piece (x n : Nat) : Piece := { ((memory 2).fmPieces (frameRequest cRD x n [])).headD ⟨0, 0, 0, 0, 0, none, false⟩ with since := some 0 }
/-- The request as the splitter holds it. -/
def held (pk : Packet) (ps : List Piece) : FmReq := { pk := { pk with data := [], par := [] }, left := ps }
/-- The request of one piece at word 20 stands at its controller, in STATE `st`, alone. -/
def atController (st : Nat) (pk : Packet) : State :=
  { arrived (memory st) pk with fmSeq := [held pk [{ piece 20 pk.len with n := fmCount pk }]] }
theorem witness_FrameMemory_pieces : ((memory 2).fmPieces (frameRequest cRD 20 20 [])).length = 2 ∧
    [⟨0, [5], 0⟩, ⟨10, [6], 0⟩].Pairwise (fun (p q : FmPart) => p.at_ < q.at_) := by decide +kernel
/-- The header unit of a read reaches the splitter. -/
theorem witness_FrameMemory_split : let pk := frameRequest cRD 20 1 []
    let f := flitAt { pk with dst := memLink } 0
    let h := headerOf f.w
    let s := memory 2
    f.head = true ∧ h.cmd = cRD ∧ vcOf h = 1 ∧ s.tin memLink 1 = [] ∧ s.fmPieces h = [{ piece 20 1 with since := none }] ∧
    s.fmOwner (piecePacket { h with dst := fmPortOf 0 } { piece 20 1 with since := none }) false = none ∧ s.boarded (fmPortOf 0) = false ∧
    s.fmQueue (fmPortOf 0) 1 = {} ∧ s.noCredit (fmPortOf 0) 1 (flitAt pk 0) = false ∧ s.tin (fmPortOf 0) 1 = [] ∧ s.ddrOnline 0 = true ∧
    ((s.setBoarded (fmPortOf 0) true).boarded (fmPortOf 0)) = true := by decide +kernel
/-- It does: the piece stands at its controller, and is served. -/
theorem test_splitter : let s := (memory 2).sendFlit memLink 1 (flitAt { frameRequest cRD 20 1 [] with dst := memLink } 0)
    s.headAt (fmPortOf 0) 1 = some (frameRequest cRD 20 1 []) ∧ s.fmSeq = [held (frameRequest cRD 20 1 []) [{ piece 20 1 with since := some 0 }]] := by
  decide +kernel
theorem witness_FrameMemory_range : let pk := { frameRequest cRD (2 ^ 27 * 15) 1 [] with dst := memLink, src := portId 256 29 }
    let s := (memory 2).setInq (portId 256 29) 1 (flitsFor pk)
    let f := flitAt pk 0
    s.routerRuns 256 = true ∧ s.wayOf (portId 256 29) pk = some (portId 256 29) ∧ s.front (portId 256 29) 1 = some f ∧ f.fails = false ∧
    flitsOf (headerOf f.w) = 1 ∧ (headerOf f.w).dst = memLink ∧ (memory 2).ddrBlocks 0 ≤ 2 ^ 27 * 15 / 15 / (memory 2).nsc := by decide +kernel
theorem witness_FrameMemory_single : let pk := frameRequest cRD 20 1 []
    let s := arrived (memory 3) pk
    s.fmTouches 0 = true ∧ s.headAt (fmPortOf 0) 1 = some pk ∧ (s.popTin (fmPortOf 0) 1).tin (fmPortOf 0) 1 = [] ∧ s.ddrOnline 0 = false ∧
    [0, 2, 3].all (fun w => (s.headAt (fmPortOf 0) w).isNone) = true := by decide +kernel
theorem witness_FrameMemory_read : let pk := frameRequest cRD 20 3 []
    let s := atController 2 pk
    readyAt s pk = true ∧ s.fmOwner pk true = some (held pk [piece 20 3], piece 20 3) ∧ s.pieceDue (held pk [piece 20 3]) (piece 20 3) = true ∧
    s.qosNext 0 1 = true ∧ s.ddrOnline 0 = true ∧ (piece 20 3).sc / 2 = 0 ∧ (piece 20 3).k + (piece 20 3).n ≤ 15 ∧
    (s.blkErr (piece 20 3).sc (piece 20 3).bl).symbols = [] ∧ (s.fmQueue (fmPortOf 0) 1).pks = [] ∧ (s.ddr 0).qosOld = none := by decide +kernel
theorem witness_FrameMemory_readMore : let pk := frameRequest cRD 20 3 []
    let more := [piece 20 3, { piece 30 1 with at_ := 10, since := none }]
    ({ atController 2 pk with fmSeq := [held pk more] } : State).fmOwner pk true = some (held pk more, piece 20 3) ∧ more.erase (piece 20 3) ≠ [] := by
  decide +kernel
theorem witness_FrameMemory_write :
    (let pk := frameRequest cWR 20 1 [5]
     let s := atController 2 pk
     readyAt s pk = true ∧ anyFails pk = false ∧ s.fmOwner pk true = some (held pk [piece 20 1], piece 20 1) ∧ (s.ddr 0).inj0 = 0) ∧
    (let pk := frameRequest cWRP 20 1 [5]
     readyAt (atController 2 pk) pk = true ∧ readyAt (atController 3 pk) pk = true ∧ (held pk [piece 20 1]).pk.cmd = cWRP) := by decide +kernel
theorem witness_FrameMemory_atomic : let add := frameRequest cADD 20 0 []
    let swap := frameRequest cSWAP 20 0 []
    readyAt (atController 2 add) add = true ∧ readyAt (atController 2 swap) swap = true ∧
    (atController 2 add).fmOwner add true = some (held add [{ piece 20 0 with n := 1 }], { piece 20 0 with n := 1 }) := by decide +kernel
theorem witness_FrameMemory_refused : let pk := frameRequest cRD 20 1 []
    let s := atController 3 pk
    readyAt s pk = true ∧ s.fmOwner pk true = some (held pk [piece 20 1], piece 20 1) ∧ s.ddrOnline 0 = false := by decide +kernel
theorem witness_FrameMemory_lastPiece : let pk := frameRequest cRD 20 1 []
    let s := (atController 2 pk).setDdr 0 { offWait := true }
    readyAt s pk = true ∧ (s.ddr 0).offWait = true ∧ (s.fmTake pk).fmTouches 0 = false ∧ s.qosNext 0 1 = true := by decide +kernel
/-- Behind an earlier request to its block; behind a priority that has had less service for its weight. -/
theorem witness_FrameMemory_behind : let pk := frameRequest cRD 20 1 []
    let first := held { pk with src := 5 } [piece 20 1]
    let s := { atController 2 pk with fmSeq := [first, held pk [piece 20 1]] }
    readyAt s pk = true ∧ s.fmOwner pk true = some (held pk [piece 20 1], piece 20 1) ∧ held pk [piece 20 1] ∉ [first] ∧ s.ddrOnline 0 = true := by
  decide +kernel
theorem witness_FrameMemory_weighs : let pk := frameRequest cRD 20 1 []
    let other := { frameRequest cRD 50 1 [] with src := 5, prio := 0 }
    let s := { arrived (atController 2 pk) other with
      fmSeq := [held pk [piece 20 1], held other [piece 50 1]], ddrs := [(0, { used := [(1, 4)] })] }
    readyAt s pk = true ∧ (s.ddr 0).qosOld = none ∧ (∀ y ∈ s.fmAt 0, s.fmAged y.2 = false) ∧ 0 ∈ s.fmContenders 0 ∧
    s.qosUsed 0 0 * 1 < s.qosUsed 0 1 * 1 ∧ vcOf pk = 1 := by decide +kernel
theorem witness_FrameMemory_offlineWaits : let s := atController 2 (frameRequest cRD 20 1 [])
    s.fmTouches 0 = true ∧ (memory 2).fmTouches 0 = false ∧ s.fld (R.DDR_STATUS 0) F.DDR_STATUS.STATE = 2 := by decide +kernel
/-- The end of a piece that the splitter took as BOARDED. -/
theorem witness_FrameMemory_cut : let pk := frameRequest cRD 20 1 []
    let s := arrived (memory 2) pk
    readyAt s pk = true ∧ s.fmOwner pk true = none ∧ 20 / 15 % s.nsc / 2 = 0 ∧ (s.fmQueue (fmPortOf 0) 1).pks = [] := by decide +kernel
theorem witness_BoardingAndCaptures_controller : let pk := frameRequest cRD 20 1 []
    let s := { memory 2 with fmSeq := [held pk [piece 20 1]] }
    s.portExists (fmPortOf 0) = true ∧ s.routerRuns 256 = true ∧ s.boarded (fmPortOf 0) = false ∧ fmPort (fmPortOf 0) = true ∧
    fmPortOf ((piece 20 1).sc / 2) = fmPortOf 0 ∧ pk.dst = fmPortOf 0 ∧ (piece 20 1).at_ < 64 := by decide +kernel
theorem witness_BoardingAndCaptures_splitterCredit : let pk := frameRequest cRD 20 1 []
    let s := ((setFlds (memory 2) [(trCtl 256, F.TR_CTL.TOCR, 1)]).setFmQueue (fmPortOf 0) 1 ⟨[pk], 0⟩).setAvail (fmPortOf 0) 1 0
    s.fld (trCtl 256) F.TR_CTL.TOCR ≠ 0 ∧ (s.fmQueue (fmPortOf 0) 1).pks = [pk] ∧ s.noCredit (fmPortOf 0) 1 (flitAt pk 0) = true := by decide +kernel

/-! ### Lanes -/

/-- Lane 0 of die 0 by fields of its registers, its quad locked; mode 0 is transparent. -/
def lane0 (l : List (Nat × Fld × Nat)) : State :=
  setFlds linked ([(R.LANE_QCLK 0 0, F.LANE_QCLK.QRUN, 1), (R.LANE_QCLK 0 0, F.LANE_QCLK.QLOCK, 1), (R.LANE_QCLK 0 0, F.LANE_QCLK.FAM, 1)] ++ l)

/-- Lane 0 of die 0 runs with CDR, in transparent mode; its binding in `l`. -/
def laneOn (s : State) (l : List (Fld × Nat)) : State :=
  setSt (setSt (setFlds s [(R.LANE_CTL 0 0, F.LANE_CTL.EN, 1), (R.LANE_STAT 0 0, F.LANE_STAT.RUN, 1), (R.LANE_STAT 0 0, F.LANE_STAT.CDR, 1)])
    (R.LANE_QB 0 0) l) (R.LANE_TX 0 0) [(F.LANE_TX.TXON, 1)]
theorem witness_FabricLanes_enable : let s := lane0 []
    s.dieDark 0 = false ∧ s.flag (R.LANE_CTL 0 0) F.LANE_CTL.EN = false ∧ s.laneCfgOk 0 0 = true ∧ s.laneNative 0 0 = false := by decide +kernel
theorem witness_FabricLanes_badConfig : let s := lane0 [(R.LANE_CFG 0 0, F.LANE_CFG.MODE, 1)]
    s.dieDark 0 = false ∧ s.flag (R.LANE_CTL 0 0) F.LANE_CTL.EN = false ∧ s.laneCfgOk 0 0 = false ∧ s.flag (R.LANE_STAT 0 0) F.LANE_STAT.RUN = false ∧
    s.flag (R.LANE_STAT 0 0) F.LANE_STAT.CFGERR = false := by decide +kernel
theorem witness_FabricLanes_quadLock : let s := lane0 [(R.LANE_QCLK 0 0, F.LANE_QCLK.QLOCK, 0), (R.LANE_CTL 0 0, F.LANE_CTL.EN, 1)]
    s.dieDark 0 = false ∧ s.hasPref 0 = true ∧ s.flag (R.LANE_QCLK 0 0) F.LANE_QCLK.QRUN = true ∧
    s.flag (R.LANE_QCLK 0 0) F.LANE_QCLK.QLOCK = false ∧ s.fld (R.LANE_QCLK 0 0) F.LANE_QCLK.FAM = 1 ∧ s.laneEn 0 0 = true ∧
    s.laneCfgOk 0 0 = true := by decide +kernel
theorem witness_FabricLanes_cdrGain : let s := lane0 [(R.LANE_STAT 0 0, F.LANE_STAT.RUN, 1)]
    s.laneRun 0 0 = true ∧ s.laneNative 0 0 = false ∧ s.laneCdr 0 0 = false ∧
    s.liveF (laneMember 0 0) (R.LANE_CTLE 0 0) F.LANE_CTLE.AUTO = 0 := by decide +kernel
theorem witness_FabricLanes_eye : let s := laneOn (lane0 []) []
    s.laneRun 0 0 = true ∧ s.laneNative 0 0 = false ∧ s.laneCdr 0 0 = true ∧ s.flag (R.LANE_EYE 0 0) F.LANE_EYE.BUSY = false ∧
    s.laneEn 0 0 = true ∧ s.dieDark 0 = false := by decide +kernel
theorem witness_FabricLanes_eyeDone : (lane0 [(R.LANE_EYE 0 0, F.LANE_EYE.BUSY, 1)]).flag (R.LANE_EYE 0 0) F.LANE_EYE.BUSY = true := by
  decide +kernel
theorem witness_FabricLanes_receive : let s := (laneOn (queued 3 oneEntry) [(F.LANE_QB.RQEN, 1)]).advance (paneId 0 0) 0
    let b := s.laneRq 0 0
    s.laneRun 0 0 = true ∧ s.laneNative 0 0 = false ∧ s.laneCdr 0 0 = true ∧ s.dieRuns 0 = true ∧
    s.liveF (laneMember 0 0) (R.LANE_CTLE 0 0) F.LANE_CTLE.AUTO = 0 ∧ s.served 0 b true .lane = true ∧ s.laneServed 0 0 = true ∧
    (s.pushBound 0 b.2.1 b.2.2 5 false).1 = true := by decide +kernel
theorem witness_FabricLanes_receiveUnbound : let s := (laneOn (queued 3 oneEntry) []).advance (paneId 0 0) 0
    s.served 0 (s.laneRq 0 0) true .lane = false := by decide +kernel
theorem witness_FabricLanes_transmit : let s := (laneOn (queued 3 oneEntry) [(F.LANE_QB.TQEN, 1)]).advance (paneId 0 0) 0
    let b := s.laneTq 0 0
    s.laneRun 0 0 = true ∧ s.laneNative 0 0 = false ∧ s.laneDrives 0 0 = true ∧ s.served 0 b false .lane = true ∧
    s.laneServed 0 0 = true ∧ (s.popBound 0 b.2.1 b.2.2).1.2.2 = true := by decide +kernel
theorem witness_FabricLanes_underflow : let s := (laneOn (queued 3 {}) [(F.LANE_QB.TQEN, 1)]).advance (paneId 0 0) 0
    let b := s.laneTq 0 0
    s.served 0 b false .lane = true ∧ (s.popBound 0 b.2.1 b.2.2).1.2.2 = false := by decide +kernel

/-- A native lane in NSTATE `n` and STEP `k`. -/
def native (n k cdr : Nat) (x : LaneSt) : State :=
  (lane0 [(R.LANE_QCLK 0 0, F.LANE_QCLK.FAM, 5), (R.LANE_CFG 0 0, F.LANE_CFG.MODE, 1), (R.LANE_CTL 0 0, F.LANE_CTL.EN, 1),
    (R.LANE_STAT 0 0, F.LANE_STAT.RUN, 1), (R.LANE_STAT 0 0, F.LANE_STAT.NSTATE, n), (R.LANE_STAT 0 0, F.LANE_STAT.STEP, k),
    (R.LANE_STAT 0 0, F.LANE_STAT.CDR, cdr)]).setLane 0 0 x
def nstep (s : State) : Nat × Nat := (s.fld (R.LANE_STAT 0 0) F.LANE_STAT.NSTATE, s.laneStep 0 0)
theorem witness_FabricLanes_retrain : let s := native 3 1 1 {}
    s.dieDark 0 = false ∧ s.laneRun 0 0 = true ∧ s.laneEn 0 0 = true ∧ s.laneNative 0 0 = true ∧ nstep s = (3, 1) := by decide +kernel
theorem witness_FabricLanes_down : let s := setFlds (native 4 0 0 {}) [(R.LANE_CFG 0 0, F.LANE_CFG.AUTO, 1)]
    nstep s = (4, 0) ∧ s.flag (R.LANE_CFG 0 0) F.LANE_CFG.AUTO = true := by decide +kernel
theorem witness_FabricLanes_steps :
    (let s := native 2 1 1 { fell := true }
     nstep s = (2, 1) ∧ (s.lane 0 0).fell = true ∧ (s.lane 0 0).rdy = false) ∧
    (let s := native 2 2 1 { go := some 64, window := true }
     nstep s = (2, 2) ∧ 64 ≤ (s.lane 0 0).go.getD 0 ∧ (s.lane 0 0).window = true) := by decide +kernel
theorem witness_FabricLanes_goodFrame : let s := (native 3 1 1 {}).advance (paneId 0 0) 0
    let r := nativeDecode ((nativeEncode (List.replicate 32 0)).map fun b => b ^^ s.laneRxInv 0 0)
    s.laneRun 0 0 = true ∧ s.laneNative 0 0 = true ∧ r.marker = true ∧ r.stuffOk = true ∧ r.crcOk = true ∧ (s.lane 0 0).good = 0 ∧
    r.items = List.replicate 32 0 := by decide +kernel
theorem witness_FabricLanes_noMarker : let s := (native 3 1 1 { miss := 3 }).advance (paneId 0 0) 0
    (nativeDecode ((List.replicate 1456 false).map fun b => b ^^ s.laneRxInv 0 0)).marker = false ∧ s.laneCdr 0 0 = true ∧
    (s.lane 0 0).miss = 3 ∧ (nstep s).1 = 3 := by decide +kernel
theorem witness_FabricLanes_nativeSend :
    let s := (laneOn (setFlds (queued 3 oneEntry) [(R.LANE_CFG 0 0, F.LANE_CFG.MODE, 1), (R.LANE_STAT 0 0, F.LANE_STAT.NSTATE, 4)])
      [(F.LANE_QB.TQEN, 1)]).advance (paneId 0 0) 0
    s.laneRun 0 0 = true ∧ s.laneNative 0 0 = true ∧ (nstep s).1 = 4 ∧ s.laneDrives 0 0 = true ∧ s.served 0 (s.laneTq 0 0) false .lane = true := by
  decide +kernel
theorem witness_FabricLanes_reached : DieReached (lane0 []) 0 := ⟨by decide +kernel, by decide +kernel⟩
/-- A native lane is enabled under a locked quad; a RETRAIN. -/
theorem witness_FabricLanes_enableNative :
    let s := lane0 [(R.LANE_QCLK 0 0, F.LANE_QCLK.FAM, 5), (R.LANE_CFG 0 0, F.LANE_CFG.MODE, 1)]
    s.flag (R.LANE_CTL 0 0) F.LANE_CTL.EN = false ∧ s.laneRun 0 0 = false ∧ s.laneCfgOk 0 0 = true ∧ s.laneNative 0 0 = true ∧
    s.flag (R.LANE_QCLK 0 0) F.LANE_QCLK.QLOCK = true := by decide +kernel
theorem witness_FabricLanes_stop : let s := laneOn (lane0 []) []
    s.flag (R.LANE_CTL 0 0) F.LANE_CTL.EN = true ∧ s.flag (R.LANE_QCLK 0 0) F.LANE_QCLK.QLOCK = true := by decide +kernel
theorem witness_FabricLanes_adapts : let s := setSt (lane0 [(R.LANE_STAT 0 0, F.LANE_STAT.RUN, 1)]) (R.LANE_CTLE 0 0) [(F.LANE_CTLE.AUTO, 1)]
    s.laneRun 0 0 = true ∧ s.laneCdr 0 0 = false ∧ s.liveF (laneMember 0 0) (R.LANE_CTLE 0 0) F.LANE_CTLE.AUTO = 1 := by decide +kernel
theorem witness_FabricLanes_eyeLost : let s := setFlds (laneOn (lane0 []) []) [(R.LANE_EYE 0 0, F.LANE_EYE.BUSY, 1)]
    s.laneCdr 0 0 = true ∧ s.flag (R.LANE_EYE 0 0) F.LANE_EYE.BUSY = true ∧ s.laneRun 0 0 = true := by decide +kernel
/-- `LaneTakes`: before OUTPUTS; a binding not served; a gated pane; a full PQUEUE; room. -/
theorem witness_FabricLanes_takes :
    let s := laneOn (queued 3 oneEntry) [(F.LANE_QB.RQEN, 1)]
    let full := laneOn (queued 4 fullQueue) [(F.LANE_QB.RQEN, 1)]
    (SMap.get {} (s.updDie 0 fun x => { x with outputs := false }).dies 0).outputs = false ∧ (SMap.get {} s.dies 0).outputs = true ∧
    s.dieRuns 0 = true ∧ (laneOn (queued 3 oneEntry) []).served 0 (s.laneRq 0 0) true .lane = false ∧
    s.served 0 (s.laneRq 0 0) true .lane = true ∧ s.pushWaits 0 0 0 = false ∧ full.served 0 (full.laneRq 0 0) true .lane = true ∧
    full.laneServed 0 0 = true ∧ full.pushWaits 0 0 0 = true := by decide +kernel
theorem witness_FabricLanes_gated :
    let s := setFlds (laneOn (queued 3 oneEntry) [(F.LANE_QB.RQEN, 1)]) [(R.PANE_CLK 0 0, F.PANE_CLK.LOCK, 0)]
    s.served 0 (s.laneRq 0 0) true .lane = true ∧ s.laneServed 0 0 = false := by decide +kernel
theorem witness_FabricLanes_silent : let s := setFlds (lane0 []) [(R.LANE_STAT 0 0, F.LANE_STAT.RUN, 1)]
    s.laneRun 0 0 = true ∧ s.laneDrives 0 0 = false := by decide +kernel
/-- Items: data, a capability word, a fill. -/
theorem witness_FabricLanes_items : (2 ^ 41 + 5 : BitVec 42).getLsbD 41 = true ∧ (2 ^ 40 : BitVec 42).getLsbD 41 = false ∧
    (2 ^ 40 : BitVec 42).getLsbD 40 = true ∧ (0 : BitVec 42).getLsbD 40 = false := by decide
/-- The second good frame in a row, in SEEK; the steps of `BringsUp` from there: nothing yet, ready, moving on, settling. -/
theorem witness_FabricLanes_seek : let s := native 1 0 0 { good := 1 }
    (nstep s).1 = 1 ∧ 1 ≤ (s.lane 0 0).good ∧ s.laneCdr 0 0 = false := by decide +kernel
theorem witness_FabricLanes_bringUp :
    let settle := (native 1 0 1 { good := 16, done := true, doneSent := true }).setFld (R.LANE_PCAP_L 0 0) ⟨31, 29⟩ 7
    let moves := setFlds (native 1 0 1 { good := 16 }) [(R.LANE_PCAP_L 0 0, ⟨31, 30⟩, 3), (R.LANE_STAT 0 0, F.LANE_STAT.CEIL, 3)]
    (settle.reg (R.LANE_PCAP_L 0 0)).getLsbD 29 = true ∧ (settle.lane 0 0).doneSent = true ∧ (nstep settle).1 = 1 ∧
    (moves.reg (R.LANE_PCAP_L 0 0)).getLsbD 30 = true ∧ (moves.lane 0 0).go = none ∧
    moves.fld (R.LANE_STAT 0 0) F.LANE_STAT.STEP < moves.fld (R.LANE_STAT 0 0) F.LANE_STAT.CEIL ∧ (nstep (native 3 0 1 {})).1 ≠ 1 := by
  decide +kernel
/-- Frames that are not good: before the lock, with and without a marker; under it, with one bit of the scrambled payload turned. -/
theorem witness_FabricLanes_badFrames : let s := native 3 1 1 {}
    let turned := (nativeEncode (List.replicate 32 0)).set 700 (!((nativeEncode (List.replicate 32 0)).getD 700 false))
    let r := nativeDecode turned
    r.marker = true ∧ (r.stuffOk && r.crcOk) = false ∧ (s.lane 0 0).miss < 3 ∧ s.laneCdr 0 0 = true ∧ (native 1 0 0 {}).laneCdr 0 0 = false := by
  decide +kernel
theorem witness_FabricLanes_sends :
    let s := laneOn (setFlds (queued 3 oneEntry) [(R.LANE_CFG 0 0, F.LANE_CFG.MODE, 1), (R.LANE_STAT 0 0, F.LANE_STAT.NSTATE, 3)])
      [(F.LANE_QB.TQEN, 1)]
    LaneMayPop 0 0 s ∧ (s.popBound 0 0 0).1.2.2 = true ∧ 16 ≤ ((s.setLane 0 0 { since := 16 }).lane 0 0).since := by
  unfold LaneMayPop; decide +kernel
theorem witness_NativeFramesRoundTrip : (List.replicate 32 (5 : BitVec 42)).length = 32 := by decide

/-! ### Hinges -/

/-- A flit of contents `b` is on the wires of leaf `j` of end 4, towards end 1 (hinge 2, UP); what the leaf's receiver keeps is as in `l`. -/
def wireFlit (b : FlitBody) : HFlit := { seq := 0, body := b }
def onWire (j : Fin 32) (b : FlitBody) (l : LeafSt) : State := linked.setLeaf 4 j { l with wire := [wireFlit b] }
/-- It arrives undisturbed, good and in its turn. -/
def comes (j : Fin 32) (b : FlitBody) : Bool :=
  let s := onWire j b {}; let bs := disturbed (wireFlit b).beats []
  decide ((s.leaf 4 j).wire = [wireFlit b] ∧ s.hingeState 1 = 2 ∧ flitGood bs = true ∧ beatFails bs = false ∧ (s.leaf 4 j).rxNext = 0 ∧
    (s.leaf 4 j).rxBad = none)
theorem comes_in_turn {j : Fin 32} {b : FlitBody} (h : comes j b = true) :
    InTurn (onWire j b {}) 1 j (wireFlit b) [] (disturbed (wireFlit b).beats []) ∧ (onWire j b {}).hingeState 1 = 2 := by
  have e : peerEnd 1 = 4 := by decide
  simp only [comes, decide_eq_true_eq] at h
  exact ⟨⟨by rw [show peerEnd ((1 : Fin 14) : Nat) = 4 from e]; exact h.1, h.2.2.1, h.2.2.2.1,
    by rw [show peerEnd ((1 : Fin 14) : Nat) = 4 from e, h.2.2.2.2.1]; exact Nat.zero_le _,
    by rw [show peerEnd ((1 : Fin 14) : Nat) = 4 from e, h.2.2.2.2.2]; intro q hq; cases hq⟩, h.2.1⟩
def eight : List ChanItem := (List.range 8).map fun n => freshItem (BitVec.ofNat 40 n) false false
def marked : List ChanItem := [freshItem 7 true true, freshItem 8 false true]
def tflit : TFlit := { w := 5, par := 0 }
/-- The contents of each kind, and leaves that carry them: 0 to 23 carry edge flits, 24 to 31 transom and control flits. -/
def bodies : List (Fin 32 × FlitBody) :=
  [(0, .edge 0 3 eight true), (0, .edge 0 3 marked false), (24, .transom 0 2 [tflit]), (24, .transom 0 2 [tflit, tflit]),
   (24, .ack (List.replicate 32 0)), (24, .ecred 0 (List.replicate 64 1)), (24, .tcred (List.replicate 64 1)), (24, .tick [⟨0, 5, 0, 0⟩])]
theorem witness_HingeFlits : (bodies.all fun x => comes x.1 x.2) = true := by decide +kernel
theorem witness_HingeFlits_roles : linked.role 4 0 = some (.edge [0]) ∧ linked.role 4 24 = some (.transom [0]) := by decide +kernel
theorem witness_HingeFlits_edge : let bs := disturbed (wireFlit (.edge 0 3 eight true)).beats []
    let ms := disturbed (wireFlit (.edge 0 3 marked false)).beats []
    sbOf bs = 3 ∧ sbOf ms = 64 ∧ descN (beatWord (ms.getD 0 0)) = 2 ∧ descSplit (beatWord (ms.getD 0 0)) = false ∧
    descCh (beatWord (ms.getD 0 0)) = 3 := by decide +kernel
theorem witness_HingeFlits_transom : sbOf (disturbed (wireFlit (.transom 0 2 [tflit])).beats []) / 32 = 1 ∧
    sbOf (disturbed (wireFlit (.transom 0 2 [tflit, tflit])).beats []) / 32 = 2 := by decide +kernel
theorem witness_HingeFlits_control :
    ((bodies.drop 4).all fun x =>
      let bs := disturbed (wireFlit x.2).beats []
      let taken := (onWire x.1 x.2 {}).setLeaf 4 x.1 { rxNext := 1, ackDue := true }
      decide (taken.nakRead 1 x.1 (wireFlit x.2) bs = none ∧ taken.readFlit 1 x.1 (wireFlit x.2) bs = .body x.2)) = true := by decide +kernel
theorem witness_HingeFlits_bad : flitGood (disturbed (wireFlit (.edge 0 3 eight true)).beats [16]) = false ∧
    ((onWire 0 (.edge 0 3 eight true) { rxNext := 1 }).leaf 4 0).rxNext = 1 ∧
    ((onWire 0 (.edge 0 3 eight true) { rxBad := some 9 }).leaf 4 0).rxBad = some 9 := by decide +kernel
/-- The fifth sending of a flit is bad; a bad flit of a number accepted before. -/
theorem witness_HingeFlits_fifth : let b : FlitBody := .edge 0 3 eight true
    let f : HFlit := { wireFlit b with sends := 5 }
    hingeOf 1 = some 2 ∧ ((linked.setLeaf 4 0 { wire := [f] }).leaf 4 0).wire = [f] ∧ flitGood (disturbed f.beats [16]) = false ∧
    linked.hingeState 1 = 2 ∧ Takes 1 0 [16] b (.plainFlit 1 0 [16]) :=
  ⟨by decide +kernel, by decide +kernel, by decide +kernel, by decide +kernel, .inl ⟨0, 3, eight, rfl, rfl⟩⟩
/-- The beats of a control flit of type 9, which Table 11.4 reserves. -/
def reservedBeats : List (BitVec 48) := beatsOf (clean (ctlHeader 9 none) :: List.replicate 7 (clean 0)) 96 false
theorem witness_HingeFlits_reserved : let b : FlitBody := .tick [⟨0, 5, 0, 0⟩]
    let bs := disturbed (wireFlit b).beats ((List.range 8).map fun i => (wireFlit b).beats.getD i 0 ^^^ reservedBeats.getD i 0)
    flitGood bs = true ∧ beatFails bs = false ∧
    ((onWire 24 b {}).setLeaf 4 24 { rxNext := 1, ackDue := true }).readFlit 1 24 (wireFlit b) bs = .reserved := by decide +kernel
/-- An ACK record at a hub end. -/
theorem witness_HingeFlits_ackRecord : endDie 1 = some 0 ∧ endDie 12 = none := by decide
theorem witness_HingeFlits_words : ((List.replicate 8 ((5 : Word), (0 : BitVec 5))).length = 8) ∧ 127 < 128 := by decide

theorem witness_HingeControl_full : let s := linked.setLeaf 1 0 { held := List.replicate 16 (wireFlit (.ack [])) }
    s.hingeState 1 = 2 ∧ (s.role 1 0).isSome = true ∧ (s.leaf 1 0).resend = none ∧ 16 ≤ (s.leaf 1 0).held.length := by decide +kernel
/-- Channel 0 of half 0 of end 1 has items to send. -/
def items1 : State := linked.setChan (edgeChan 1 0 0).1 (edgeChan 1 0 0).2 { near := eight }
theorem witness_HingeControl_edge : items1.hingeState 1 = 2 ∧ (items1.leaf 1 0).resend = none ∧ (items1.leaf 1 0).held.length < 16 ∧
    items1.role 1 0 = some (.edge [0]) ∧ items1.edgeReady 1 0 0 0 = true ∧ SMap.get 0 items1.edgeTurn 2 = 0 := by decide +kernel
theorem witness_HingeControl_idle : ∀ ch, ch < 64 → linked.edgeReady 1 0 0 ch = false := by decide +kernel
theorem witness_HingeControl_transom :
    (linked.setTickWait 1 [⟨0, 5, 0, 0⟩]).tickWait 1 ≠ [] ∧ linked.tickWait 1 = [] ∧ linked.role 1 24 = some (.transom [0]) ∧
    (linked.setStage 1 0 2 { out := [tflit] }).transomReady 1 0 2 ≠ 0 ∧
    (linked.setRecalled 1 0 [(2, tflit), (5, tflit)]).recalled 1 0 = (2, tflit) :: [(5, tflit)] ∧ (1 : Nat) ≠ peerEnd 1 := by decide +kernel
theorem witness_HingeControl_replay : let s := linked.setLeaf 1 0 { resend := some 0, held := [wireFlit (.ack [])] }
    (s.leaf 1 0).resend = some 0 ∧ (s.leaf 1 0).held.find? (fun f => decide (0 ≤ f.seq)) = some (wireFlit (.ack [])) ∧
    wireFlit (.ack []) ∈ (s.leaf 1 0).held ∧ (∀ f, f ∈ (s.leaf 1 0).held → f.seq ≠ 40) ∧ (∀ f, f ∈ (s.leaf 1 0).held → f.seq < 3) := by
  decide +kernel
theorem witness_HingeControl_control : linked.hingeState 1 = 2 ∧ linked.role 1 24 = some (.transom [0]) ∧ (1 : Nat) < 12 ∧ peerEnd 1 < 12 ∧
    (linked.leaf 1 24).held.length < 16 ∧ (linked.leaf 1 24).resend = none := by decide +kernel
theorem witness_HingeControl_injected : (linked.setHinge 0 { injCrc := true }).injDue 12 = true ∧ hingeOf 12 = some 0 ∧ linked.injDue 12 = false := by
  decide +kernel
theorem witness_HingeControl_reached : ∀ d, endDie 1 = some d → DieReached linked d := by
  rw [show endDie 1 = some 0 by decide]; intro d h; injection h with h; subst h; exact ⟨by decide +kernel, by decide +kernel⟩
/-- Beyond a path that is not UP; at a die without power. -/
theorem witness_HingeControl_away : endDie 1 = some 0 ∧ running.dieDark 0 = false ∧ running.pathUp 0 = false ∧
    (linked.updDie 0 fun x => { x with off := true }).dieDark 0 = true := by decide +kernel
/-- An access to pane 0 of die 0 waits for its path. -/
def accessWaits : HeldAcc := { off := 0x1000000, write := some [1], since := 0 }
theorem witness_HingeControl_waits : let s := { running with heldAcc := [accessWaits] }
    s.power = .on ∧ s.heldAcc = [accessWaits] ∧ s.mustWait accessWaits false = true ∧ linked.mustWait accessWaits false = false := by decide +kernel
theorem witness_HingeControl_clock : hingeOf 1 = some 2 ∧ linked.hingeState 1 = 2 ∧ linked.hingeState 1 ≠ 4 ∧
    (setFlds linked [(R.HNG_STAT 1, F.HNG_STAT.STATE, 4)]).hingeState 1 = 4 := by decide +kernel
/-- Hinge 2 trains, and end 4's WIDTH flit is on leaf 24's wires; `x` is what the hinge keeps. -/
def widthWire (mask : BitVec 32) (x : HingeSt) : State :=
  (setFlds (onWire 24 (.width 11 0 mask) {}) [(R.HNG_STAT 1, F.HNG_STAT.STATE, 1), (R.HNG_STAT 4, F.HNG_STAT.STATE, 1)]).setHinge 2 x
theorem witness_HingeControl_width :
    ([((0xFFFFFFFF : BitVec 32), ({ ok1 := true } : HingeSt)), (0xFFFFFFFF, {}), (1, {}), (1, { mis := true })].all fun y =>
      let s := widthWire y.1 y.2; let b : FlitBody := .width 11 0 y.1; let bs := disturbed (wireFlit b).beats []
      let taken := s.setLeaf 4 24 { rxNext := 1, ackDue := true }
      decide (hingeEnd 2 false = 1 ∧ s.hingeState 1 = 1 ∧ s.hingeState (hingeEnds 2).1 = 1 ∧ comes 24 b = true ∧ taken.readFlit 1 24 (wireFlit b) bs = .body b ∧
        taken.nakRead 1 24 (wireFlit b) bs = none ∧
        (s.fld (R.HNG_STAT 1) F.HNG_STAT.WCODE = 0 ∧ s.reg (R.HNG_LFAIL 1) = ~~~ y.1 ↔ y.1 = 0xFFFFFFFF))) = true := by decide +kernel
theorem witness_HingeControl_level : let s := { setFlds linked [(R.HUB_STEP, F.HUB_STEP.LEVEL, 0)] with cfg := {} }
    s.cfg.due = false ∧ s.fld R.HUB_STEP F.HUB_STEP.LEVEL = 0 ∧ s.hingesSettled = true ∧ getF (s.reg R.HUB_STEP) (stepFld 0) ≠ 0 := by
  decide +kernel
theorem witness_HingeControl_levelFixed : linked.fld R.HUB_STEP F.HUB_STEP.LEVEL ≠ 0 ∧ linked.cfg.due = false := by decide +kernel

/-! ### The companion, the PCIe endpoint and command queues -/

/-- An HVX4U-460 whose companion link is in STATE `st`. -/
def companion (st : Nat) : State := setFlds linked [(R.HUB_PARTID, F.HUB_PARTID.VARIANT, 1), (R.UCL_STAT, F.UCL_STAT.STATE, st)]
theorem witness_LinksAndBar2_companion :
    ([1, 2, 3].all fun st => decide ((companion st).hasCompanion = true ∧ (companion st).fld R.UCL_STAT F.UCL_STAT.STATE = st)) = true ∧
    (companion 2).flag R.UCL_CTL F.UCL_CTL.RAW = false ∧ SMap.get 0 (companion 2).uclLeft 3 = 0 ∧
    SMap.get 0 ({ companion 2 with uclLeft := [(3, 2)] } : State).uclLeft 3 = 1 + 1 ∧ (companion 1).clk.cant.getLsbD 3 = false := by decide +kernel
theorem witness_LinksAndBar2_raw : (setFlds (companion 2) [(R.UCL_CTL, F.UCL_CTL.RAW, 1)]).flag R.UCL_CTL F.UCL_CTL.RAW = true := by decide +kernel
theorem witness_LinksAndBar2_unit : unitKind (unitOf (3 * 2 ^ 126) 0 0 0) = 3 ∧
    ([jenwynUnit 3 [tflit] 0 0, jenwynUnit 0 [] 3 2].all fun u =>
      decide (unitOf (u.extractLsb' 384 128) (u.extractLsb' 256 128) (u.extractLsb' 128 128) (u.extractLsb' 0 128) = u)) = true := by decide +kernel
/-- A request of two flits that the companion answers; its states. -/
theorem witness_LinksAndBar2_states : linked.hasCompanion = false ∧ (companion 0).fld R.UCL_STAT F.UCL_STAT.STATE = 0 ∧
    (companion 1).clk.ran3 = false ∧ (0 : Nat) ≤ (companion 1).fld R.UCL_CTL F.UCL_CTL.RATE ∧
    ({ companion 1 with clk := { ran3 := true } } : State).flag R.CLK_HLSTAT F.CLK_HLSTAT.LOCK3 = false ∧
    (setFlds (companion 1) [(R.CLK_HLSTAT, F.CLK_HLSTAT.FB3, 1)]).flag R.CLK_HLSTAT F.CLK_HLSTAT.FB3 = true ∧
    ({ companion 1 with clk := { mux := [(3, 2)] } } : State).mux 3 ≠ (companion 1).loopSrc 3 := by decide +kernel
theorem witness_LinksAndBar2_linkUp : ({ State.reset with clk := { started := 15 } } : State).cfgReply = .normal ∧
    ({ State.reset with clk := {} } : State).cfgReply ≠ .normal := by decide +kernel
theorem witness_LinksAndBar2_reset : (3 : Fin 5) ≠ 4 ∧ linked.cfg.feed ≠ .load := by decide +kernel
theorem witness_LinksAndBar2_bar2 : linked.quiesced 0x1008000 = false ∧ linked.b2 = [] ∧ linked.pcieTag 0 512 = some 0 ∧
    (linked.outst.filter fun o => decide (o.port = pciePort ∧ o.tag < 512)).length +
      (linked.quar.filter fun x => decide (x.1 = pciePort ∧ x.2 < 512)).length < 512 := by decide +kernel
theorem witness_LinksAndBar2_split : linked.quiesced (0x1008000 + 64) = false ∧ (0x1008000 + 64 + 1 : Nat) ≤ 2 ^ 32 ∧
    (linked.outst.filter fun o => decide (o.port = pciePort ∧ o.tag < 512)).length +
      (linked.quar.filter fun x => decide (x.1 = pciePort ∧ x.2 < 512)).length < 511 ∧
    (({ linked with b2 := [{ id := 4, off := 8 * 0x1008000, len := 520, opened := 2 }] } : State).sendReq
      { src := portId 256 28, cmd := cRD, prio := 0, tag := 0, addr := 0x1008000, len := 64 } (.bar2Read 4 0)).pcieTag 0 512 = some 1 ∧
    ([none, some 1, some 2, some 3, some 4, none, none, none] : List (Option (BitVec 8))).getD 0 none = none := by decide +kernel
/-- A read of two requests, the second still to be answered; the answer of the first stands at port 28. -/
def bar2Waits (opened : Nat) : B2Read := { id := 4, off := 8 * 0x1008000 + 3, len := 600, opened := opened, slots := [(64, some 9)] }
def bar2Asked : Outst := { port := portId 256 28, tag := 5, cmd := cRD, addr := 0x1008000, len := 64, why := .bar2Read 4 0 }
def bar2Answer (cmd : Fin 16) : Packet :=
  { dst := portId 256 28, src := 5, cmd := cmd, tag := 5, len := if cmd = cCPL then 2 else 0, data := if cmd = cCPL then [1, 2] else [],
    ecode := if cmd = cCPL then 0 else 2 }
theorem witness_LinksAndBar2_answer : ([(cCPL, 1), (cCPL, 2), (cCPLE, 1), (cCPLE, 2)].all fun x =>
    let pk := bar2Answer x.1; let r := bar2Waits x.2
    let s := arrived { linked with b2 := [r], outst := [bar2Asked] } pk
    decide (s.headAt pk.dst (vcOf pk) = some pk ∧ s.outst.find? (fun o => decide (o.port = pk.dst ∧ o.tag = pk.tag.val)) = some bar2Asked ∧
      bar2Asked.why = .bar2Read r.id 0 ∧ r ∈ s.b2 ∧ ∀ y ∈ s.b2, y.id = r.id → y = r)) = true := by decide +kernel
theorem witness_LinksAndBar2_functions : (4 : Fin 5) ≠ 3 ∧
    ({ linked with cfg := { linked.cfg with feed := .load } } : State).cfg.feed = .load := by decide

/-- Queue 0 of 16 entries is enabled, has a command to fetch and `host` in progress. -/
def hostQueue (host : List HCmd) : State :=
  { setFlds linked [(R.HCQ_CFG 0, F.HCQ_CFG.EN, 1), (R.HCQ_CFG 0, F.HCQ_CFG.LOG2SIZE, 4), (R.HCQ_DB 0, F.HCQ_DB.TAIL, 1)] with
    host := host, pcieUp := true }
/-- A command of opcode `opc` with words 4 to 6. -/
def hcmd (opc w4 w5 w6 : Nat) : HCmd := { q := 0, idx := 0, cw := [BitVec.ofNat 32 opc, 0, 0, 0, BitVec.ofNat 32 w4, BitVec.ofNat 32 w5, BitVec.ofNat 32 w6] }
theorem witness_HostCommandQueues_fetch : (hostQueue []).canFetch 0 = true ∧ linked.canFetch 0 = false ∧
    linked.flag (R.HCQ_CFG 0) F.HCQ_CFG.EN = false ∧ (List.replicate 16 (0 : BitVec 32)).length = 16 := by decide +kernel
theorem witness_HostCommandQueues_next :
    ([hcmd 1 0 0 0, hcmd 4 0x100 0 0, hcmd 5 2 0 0, hcmd 6 0x10000 0 0, hcmd 6 0 0 0, hcmd 6 3 0 0].all fun c =>
      decide ((hostQueue [c]).nextCmd 0 c.opc = some c)) = true := by decide +kernel
theorem witness_HostCommandQueues_armBusy :
    let s := { armed 1 { target := 3, seq := 1 } with host := [hcmd 4 0 10 0] }
    s.nextCmd 0 4 = some (hcmd 4 0 10 0) ∧ s.armState 0 = 1 ∧ ((hcmd 4 0 10 0).w 4).testBit 8 = false := by decide +kernel
theorem witness_HostCommandQueues_arm :
    let s := { inSet0 with host := [hcmd 4 0 10 0] }
    s.nextCmd 0 4 = some (hcmd 4 0 10 0) ∧ s.armState 0 ≠ 1 ∧ (s.shtArmWrite 0 (10 ||| 0x80000000)).armState 0 = 1 := by decide +kernel
theorem witness_HostCommandQueues_load :
    let s := { setFlds (hostQueue [hcmd 5 2 0 0]) [(R.CFG_BSTAT, F.CFG_BSTAT.STATE, 5)] with cfg := {} }
    s.fld R.CFG_BSTAT F.CFG_BSTAT.STATE = 5 ∧ s.cfg.feed = .none ∧ s.secCfg.testBit 2 = false ∧ ([0, 0] : List (BitVec 32)).length = (hcmd 5 2 0 0).w 4 ∧
    (hostQueue []).fld R.CFG_BSTAT F.CFG_BSTAT.STATE ≠ 5 := by decide +kernel
theorem witness_HostCommandQueues_launch :
    let s := (hostQueue [hcmd 6 0x10000 0 0]).setEng 0 { state := .idle }
    s.nextCmd 0 6 = some (hcmd 6 0x10000 0 0) ∧ s.dieDark 0 = false ∧ (s.eng (engId 0 0)).state = .idle ∧ (s.pane (engPane (engId 0 0))).shut = false ∧
    ((hcmd 6 0x10000 0 0).w 4).testBit 16 = true ∧ ((s.setEng 0 { state := .run }).eng 0).state = .run ∧
    (s.updDie 3 fun x => { x with off := true }).dieDark 3 = true := by decide +kernel
/-- A LAUNCH that waits: its engine runs, has left RUN, and its die is being parked. -/
theorem witness_HostCommandQueues_launchEnd : ([(EngState.run, ([] : List Nat)), (.idle, []), (.idle, [1])].all fun e =>
    let c := { hcmd 6 0x10000 0 0 with started := true, eng := some 0, gone := e.2 }
    let s := (hostQueue [c]).setEng 0 { state := e.1 }
    decide (c ∈ s.host ∧ c.eng = some 0 ∧ c.result = none ∧ (s.eng 0).state = e.1 ∧ c.gone = e.2)) = true := by decide +kernel
theorem witness_HostCommandQueues_complete : let c := { hcmd 1 0 0 0 with result := some (0, 0, 0) }
    let s := hostQueue [c]
    s.host.find? (fun c => decide (c.q = 0 ∧ c.idx = 0) && (s.cmdResult c).isSome) = some c ∧ s.cmdResult c = some (0, 0, 0) := by decide +kernel
/-- A DMA of 70 words at word 0x1008000, started. -/
def dma (opc : Nat) : HCmd := { hcmd opc 0x1008000 0 70 with started := true }
theorem witness_HostCommandQueues_dma : ([2, 3].all fun opc =>
    let s := hostQueue [dma opc]; let c := dma opc
    decide (c.opc = opc ∧ c.started = true ∧ c.result = none ∧ c.pos < c.count ∧ c.gone = [] ∧ s.pcieTag 512 1024 = some 512 ∧
      s.host.find? (fun x => decide (x.q = 0 ∧ x.idx = 0 ∧ x.opc = c.opc ∧ x.result = none ∧ x.pos < x.count)) = some c ∧
      s.quiesced c.addr = false ∧ c.hostFail = none ∧ c.packed = false)) = true := by decide +kernel
theorem witness_HostCommandQueues_quiesced : let s := { hostQueue [dma 3] with park := some ⟨0, none⟩ }
    s.quiesced (dma 3).addr = true ∧ addrDie (dma 3).addr = some 0 := by decide +kernel

/-- An answer to a piece of a DMA, with pieces to come, or the last. -/
def dmaWaits (opc opened pos : Nat) : HCmd := { dma opc with opened := opened, pos := pos }
theorem witness_HostCommandQueues_dmaAnswer : ([(cCPL, dmaWaits 3 1 70), (cCPLE, dmaWaits 2 1 70), (cCPL, dmaWaits 3 2 70), (cCPLE, dmaWaits 3 1 64)].all
    fun x =>
      let pk := bar2Answer x.1; let c := x.2
      let o : Outst := { bar2Asked with why := .dma c.id 0 }
      let s := arrived { hostQueue [c] with outst := [o] } pk
      decide ((pk.cmd = cCPL ∨ (pk.cmd = cCPLE ∧ pk.ecode ≠ 0)) ∧ s.headAt pk.dst (vcOf pk) = some pk ∧
        s.outst.find? (fun o => decide (o.port = pk.dst ∧ o.tag = pk.tag.val)) = some o ∧ c ∈ s.host ∧ (∀ y ∈ s.host, y.id = c.id → y = c) ∧
        c.result = none)) = true := by decide +kernel
/-- An ARM with a map, accepted, and late; a LOAD under RTLOCK; a LAUNCH on a die that is being parked. -/
theorem witness_HostCommandQueues_armMap :
    let s := { timed 12500100 { film with ticked := 2 } with host := [hcmd 4 0x100 10 0] }
    let mapped := (List.range 32).foldl (fun a k => a.writeReg (R.SHT_SET 0 k) (if k < 29 then 1 else 0)) s
    s.nextCmd 0 4 = some (hcmd 4 0x100 10 0) ∧ s.armState 0 ≠ 1 ∧ (mapped.shtArmWrite 0 (10 ||| 0x80000000)).armState 0 = 1 ∧
    (({ mapped with park := some ⟨0, none⟩ } : State).shtArmWrite 0 (10 ||| 0x80000000)).armState 0 = 5 := by decide +kernel
theorem witness_HostCommandQueues_locked :
    let s := { (setFlds (hostQueue [hcmd 5 2 0 0]) [(R.CFG_BSTAT, F.CFG_BSTAT.STATE, 5)]).setOtpGen 7 0 { val := 4, p := true, chk := otpCrc 7 4 } with
      cfg := {} }
    s.nextCmd 0 5 = some (hcmd 5 2 0 0) ∧ s.cfg.feed = .none ∧ s.secCfg.testBit 2 = true := by decide +kernel
theorem witness_HostCommandQueues_launchParking : let s := { hostQueue [hcmd 6 0x10000 0 0] with park := some ⟨0, none⟩ }
    s.quiesces 0 = true ∧ s.dieDark 0 = false := by decide +kernel

theorem witness_ParkAndUnpark_refused :
    let s := { hostQueue [hcmd 7 0 0 0] with park := some ⟨1, none⟩ }
    s.nextCmd 0 7 = some (hcmd 7 0 0 0) ∧ (hcmd 7 0 0 0).w 4 = 0 ∧ s.dieDark 0 = false ∧ s.park.isSome = true := by decide +kernel
theorem witness_ParkAndUnpark_accepted :
    let s := hostQueue [hcmd 7 2 0 0]
    s.nextCmd 0 7 = some (hcmd 7 2 0 0) ∧ s.dieDark 2 = false ∧ s.park = none ∧ s.unparkReq = none ∧ s.loadTo 2 = false ∧ s.dieArmed 2 = false ∧
    s.parkForbidden 2 = false := by decide +kernel
/-- Die 2 is parked. -/
def dark2 (s : State) : State := s.updDie 2 fun x => { x with off := true }
theorem witness_ParkAndUnpark_dark : (dark2 linked).park = none ∧ (dark2 linked).dieDark 2 = true := by decide +kernel
theorem witness_ParkAndUnpark_unparkRefused : linked.unparkReq = none ∧ linked.parked 2 = false ∧ (dark2 linked).parked 2 = true ∧
    ({ dark2 linked with park := some ⟨1, none⟩ } : State).park.isSome = true := by decide +kernel
theorem witness_ParkAndUnpark_unpark : let s := dark2 (hostQueue [hcmd 8 2 0 0])
    s.nextCmd 0 8 = some (hcmd 8 2 0 0) ∧ s.parked 2 = true ∧ s.park = none ∧ s.unparkReq = none ∧ (s.unparkSteps 2 0 false).2.1 = 9 := by
  decide +kernel
/-- The running image is that of slot 0: a header and one END packet. -/
def imageOf0 : List (Nat × HWord) :=
  [(0, 0), (1, 0xA0000), (2, 0), (3, 0), (4, 12), (5, 0), (6, 0), (7, 0), (8, 0), (9, 0), (10, 0x08000001), (11, 0)]
theorem witness_ParkAndUnpark_unparked :
    (({ dark2 (hostQueue [hcmd 8 2 0 0]) with cfg := { runSlot := some 0 }, store := imageOf0 } : State).unparkSteps 2 0x3F true).2 = (0, 0) := by
  decide +kernel

/-! ### The knock chain -/

/-- A device of the chain by fields of CHN_STAT and CHN_CFG. -/
def chained (l : List (Nat × Fld × Nat)) : State := setFlds running l
/-- A packet with a good CRC. -/
def goodPk (typ dst src : Nat) (payload : List Octet) : ChainPkt := chainPk typ dst src 0 payload
def knock1 : ChainPkt := goodPk 1 0x80 0 (knockOctets 1 1 1 0 0)
theorem witness_KnockChainAndManagement_lock : let s := chained []
    s.chainRuns = true ∧ s.flag R.CHN_STAT F.CHN_STAT.HEAD = false ∧ s.flag R.CHN_STAT F.CHN_STAT.INLK = false ∧ s.chn.rxIn = {} ∧
    ({ s with chn := { s.chn with rxIn := { commas := 7 } } } : State).chn.rxIn.commas = 7 ∧ s.chn.elected = false ∧
    ({ s with power := .off } : State).chainRuns = false := by decide +kernel
theorem witness_KnockChainAndManagement_unlock : let s := chained [(R.CHN_STAT, F.CHN_STAT.INLK, 1)]
    s.flag R.CHN_STAT F.CHN_STAT.INLK = true ∧ s.chn.elected = false := by decide +kernel
theorem witness_KnockChainAndManagement_head : let s := chained [(R.CHN_STAT, F.CHN_STAT.HEAD, 1), (R.CHN_CFG, F.CHN_CFG.AUTOK, 1)]
    s.chainRuns = true ∧ s.flag R.CHN_STAT F.CHN_STAT.HEAD = true ∧ s.chn.round = false ∧ s.flag R.CHN_CFG F.CHN_CFG.AUTOK = true ∧
    (goodPk 7 0 1 []).typ = 7 ∧ chainOk (goodPk 7 0 1 []) = true := by decide +kernel
theorem witness_KnockChainAndManagement_badCrc : chainOk { knock1 with crc := knock1.crc ^^^ 1 } = false := by decide +kernel
theorem witness_KnockChainAndManagement_knock : let s := chained []
    s.chainRuns = true ∧ chainOk knock1 = true ∧ knock1.typ = 1 ∧ s.flag R.CHN_STAT F.CHN_STAT.HEAD = false ∧
    s.flag R.CHN_CFG F.CHN_CFG.STICKY = false ∧ s.flag R.CHN_STAT F.CHN_STAT.AVALID = false ∧ oct knock1 1 = 1 ∧
    (oct2 knock1 2).testBit 1 = false ∧ (oct2 knock1 6).testBit 1 = false := by decide +kernel
theorem witness_KnockChainAndManagement_end : let pk := goodPk 2 0x80 0 (knockOctets 1 2 3 0 0)
    let s := { chained [(R.CHN_STAT, F.CHN_STAT.HEAD, 1)] with chn := { round := true, num := 1 } }
    chainOk pk = true ∧ pk.typ = 2 ∧ s.flag R.CHN_STAT F.CHN_STAT.HEAD = true ∧ s.chn.round = true ∧ oct pk 0 = s.chn.num := by decide +kernel
/-- A management write of one word to TBU_SET_L, and a read of it, from the head to address 0. -/
def mreq (w : Bool) : ChainPkt :=
  goodPk 4 0 1 ([if w then 0x80000000 else 0, 0x20000C, 5].flatMap hwOctets)
theorem witness_KnockChainAndManagement_mreq :
    let s := chained [(R.CHN_STAT, F.CHN_STAT.AVALID, 1), (R.CHN_CFG, F.CHN_CFG.MGMT, 1)]
    ([true, false].all fun w => let pk := mreq w; let m0 := (hwOfOctets pk.payload).getD 0 0
      decide (chainOk pk = true ∧ pk.typ = 4 ∧ s.chainMine pk = true ∧ pk.dst.getLsbD 7 = false ∧ m0.getLsbD 31 = w ∧ m0.toNat % 16 = 0)) = true ∧
    s.flag R.CHN_CFG F.CHN_CFG.MGMT = true ∧ (chained []).chainMine (mreq true) = false ∧ 0x20000C % 4 = 0 ∧
    chainOk (goodPk 4 0 1 ([0, 0x20000D].flatMap hwOctets)) = true ∧ 0x20000D % 4 ≠ 0 ∧
    (setFlds s [(R.CHN_CFG, F.CHN_CFG.MGMT, 0)]).flag R.CHN_CFG F.CHN_CFG.MGMT = false := by decide +kernel
theorem witness_KnockChainAndManagement_mreqWaits : (List.range 1).all (fun i => (chained []).waitsAt (0x20000C + 4 * i)) = false ∧
    (chained []).heldAcc = [] ∧ (chained []).waitsAt 0x1000000 = true := by decide +kernel
theorem witness_KnockChainAndManagement_late :
    let s := { chained [(R.CHN_STAT, F.CHN_STAT.AVALID, 1)] with cfg := { feed := .chain, octs := [1] }, tbu := { run := 2 ^ 80 } }
    s.chainLate = true ∧ ({ s with tbu := {} } : State).chainLate = false ∧ (goodPk 3 0 1 [1, 2, 3, 4]).seq.toNat ≠ 1 := by decide +kernel
theorem witness_KnockChainAndManagement_mrsp : let pk := goodPk 5 0 1 [0]
    let s := chained [(R.CHN_STAT, F.CHN_STAT.AVALID, 1), (R.CHN_STAT, F.CHN_STAT.MBUSY, 1)]
    chainOk pk = true ∧ pk.typ = 5 ∧ s.chainMine pk = true ∧ pk.dst.getLsbD 7 = false ∧ s.flag R.CHN_STAT F.CHN_STAT.MBUSY = true ∧
    pk.payload.length = 1 := by decide +kernel
theorem witness_KnockChainAndManagement_cfg : let pk := goodPk 3 0 1 [1, 2, 3, 4]
    let s := { chained [(R.CHN_STAT, F.CHN_STAT.AVALID, 1)] with cfg := { feed := .chain } }
    chainOk pk = true ∧ pk.typ = 3 ∧ s.chainMine pk = true ∧ s.cfg.feed = .chain ∧ s.cfg.up = false ∧ pk.seq.toNat = s.cfg.seq % 256 ∧
    (chained []).cfg.feed ≠ .chain := by decide +kernel
theorem witness_KnockChainAndManagement_mgo : let s := (chained [(R.CHN_STAT, F.CHN_STAT.HEAD, 1)]).writeReg R.CHN_CTL (0x103 ||| 0x20000000)
    s.chainRuns = true ∧ s.flag R.CHN_STAT F.CHN_STAT.NOADDR = false ∧ s.flag R.CHN_STAT F.CHN_STAT.MBUSY = false ∧
    s.flag R.CHN_STAT F.CHN_STAT.HEAD = true ∧ (s.reg (R.CHN_MBUF 0)).getLsbD 31 = false ∧ s.chn.round = false := by decide +kernel

/-! ### Clocks and power -/

/-- The loops HL0 and HL1 run and are locked, XA is present and watched; multiplexer 4 is asked for input 1. -/
def clocked (c : ClkSt) : State :=
  { setFlds linked [(R.CM_CFG, F.CM_CFG.EN, 0x3F), (R.CLK_XCFG, F.CLK_XCFG.XAF, 1000000)] with
    clk := { c with started := 15, ask := [(4, 2)] }, cfg := {} }
theorem witness_ClocksAndFallback_mux : (clocked {}).mux 4 ≠ 3 ∧ SMap.get 0 (clocked {}).clk.ask 4 = 1 + 1 ∧ SMap.get 0 (clocked {}).clk.ask 5 = 0 := by
  decide +kernel
theorem witness_ClocksAndFallback_loop : (clocked {}).clk.started.getLsbD 0 = true ∧ (clocked {}).flag R.CLK_HLSTAT (lockF 0) = true ∧
    linked.clk.started.getLsbD 2 = false ∧ (clocked {}).unlocked3 0 = false ∧ (clocked {}).unlocked3 3 = true ∧ (clocked {}).cfg.up = false ∧ (∀ k, k < 6 → ((clocked {}).hinge k).wait = 0) ∧
    ∀ n : Fin 4, running.flag R.CLK_HLSTAT (lockF n) = false := by decide +kernel
theorem witness_ClocksAndFallback_meter : linked.flag R.FM_CTL F.FM_CTL.BUSY = false ∧
    (setFlds linked [(R.FM_CTL, F.FM_CTL.BUSY, 1)]).flag R.FM_CTL F.FM_CTL.BUSY = true ∧ (clocked {}).measRuns 2 = true := by decide +kernel
theorem witness_ClocksAndFallback_monitor : let s := clocked {}
    s.watched 2 = true ∧ 85 * (s.nominal 2 * 4096) ≤ 30000 * 40000000 ∧ 30000 * 40000000 ≤ 12582912 * 115 * 1000000 ∧
    1 * 40000000 < 85 * (s.nominal 2 * 4096) ∧ s.clk.bad.getLsbD 2 = false ∧ (clocked { bad := 4 }).clk.bad.getLsbD 2 = true ∧
    (s.fld R.CM_STATUS F.CM_STATUS.FAIL).testBit 2 = false := by decide +kernel
/-- A loop falls back and its consumers have moved back; a window above 1.15 E, the second of two; a loop on the failing reference; a write of SRC. -/
theorem witness_ClocksAndFallback_returns : let s := setFlds (clocked {}) [(R.CLK_XCFG, F.CLK_XCFG.XAF, 2500)]
    s.mux 0 = s.loopSrc 0 ∧ s.flag R.CLK_HLSTAT (lockF 0) = true ∧ SMap.get 0 s.clk.ask 0 = 0 ∧ s.refGood (s.loopSrc 0) = true ∧
    (4 : Nat) < 8 := by decide +kernel
theorem witness_ClocksAndFallback_high : let s := clocked {}
    115 * (s.nominal 2 * 4096) < 16777215 * 40000000 ∧ s.watched 2 = true := by decide +kernel
theorem witness_ClocksAndFallback_reference : let s := setFlds (clocked { bad := 1 }) [(R.CLK_XCFG, F.CLK_XCFG.XAF, 2500)]
    s.watched 0 = true ∧ s.clk.bad.getLsbD 0 = true ∧ (s.fld R.CM_STATUS F.CM_STATUS.FAIL).testBit 0 = false ∧ s.loopSrc 0 = 0 ∧ s.loopOn 0 = true ∧
    1 * 40000000 < 85 * (s.nominal 0 * 4096) ∧ s.loopSrc 0 ≠ 1 ∧ linked.loopOn 2 = false ∧ s.watched 1 = false := by decide +kernel
theorem witness_ClocksAndFallback_noReference :
    let s := { clocked {} with clk := { started := 15, ask := [], bad := 1 } }
    (s.setFld R.CM_STATUS F.CM_STATUS.FAIL 1).refGood 0 = false := by decide +kernel
theorem witness_FoscCheck : State.reset.power ≠ .off ∧ 10 * 10000 < 7 * 51200 ∧ ({ clk := { foscBad := true } } : State).clk.foscBad = true ∧
    State.reset.clk.foscBad = false ∧ ¬ (10 * 51200 < 7 * 51200 ∨ 13 * 51200 < 10 * 51200) := by decide +kernel

theorem witness_PowerResetAndOrder_power : ({ State.reset with power := .off } : State).power = .off ∧ linked.power = .on ∧ linked.otpRun = none := by
  decide +kernel
theorem witness_PowerResetAndOrder_keys : getF (0xC1A50001 : HWord) F.CLK_RST.KEY = 0xC1A5 ∧ (0xC1A50001 : HWord).getLsbD 0 = true ∧
    getF (0xC1A50001 : HWord) F.CLK_HOLD.KEY = 0xC1A5 ∧ getF (1 : HWord) F.CLK_RST.KEY ≠ 0xC1A5 := by decide +kernel
theorem witness_PowerResetAndOrder_hold : linked.flag R.HUB_PCTL F.HUB_PCTL.BUSY = false ∧ (∀ t, t < 8 → linked.armState t ≠ 1) ∧
    (setFlds linked [(R.HUB_PCTL, F.HUB_PCTL.BUSY, 1)]).flag R.HUB_PCTL F.HUB_PCTL.BUSY = true := by decide +kernel
theorem witness_PowerResetAndOrder_bell :
    let s := { setFlds running [(R.CLK_HOLD, F.CLK_HOLD.BELLEN, 2)] with power := .hold }
    s.power = .hold ∧ (s.pin 1).filt ≠ true ∧ (getF (s.reg R.CLK_HOLD) F.CLK_HOLD.BELLEN).testBit 1 = true ∧
    true ≠ (getF (s.reg R.CLK_HOLD) F.CLK_HOLD.BELLPOL).testBit 1 ∧ (getF (s.reg R.CLK_HOLD) F.CLK_HOLD.BELLEN).testBit 0 = false := by decide +kernel
/-- Bell pin 1, whose driver was on, or pin 0, which is not enabled, rings nothing; BELLPOL 1 waits for the other level. -/
theorem witness_PowerResetAndOrder_quietBells :
    let s := { setFlds (running.setPin 1 { heldEn := true }) [(R.CLK_HOLD, F.CLK_HOLD.BELLEN, 2)] with power := .hold }
    s.power = .hold ∧ (s.pin 1).heldEn = true ∧ (s.pin 0).heldEn = false ∧ (getF (s.reg R.CLK_HOLD) F.CLK_HOLD.BELLEN).testBit 0 = false ∧
    linked.power ≠ .hold := by decide +kernel
theorem witness_PowerResetAndOrder_cut : ({ linked with otpRun := some ⟨1, 9, 0, 3⟩ } : State).otpRun = some ⟨1, 9, 0, 3⟩ := by decide
theorem witness_PowerResetAndOrder_holdNow : ¬ ((linked.flag R.HUB_PCTL F.HUB_PCTL.BUSY = true) ∨ ∃ t, t < 8 ∧ linked.armState t = 1) := by
  decide +kernel
theorem witness_PowerResetAndOrder_other : (linked.pin 3).hold = false ∧ (linked.fpin 0 7).hold = false ∧ linked.waitsDone = false ∧
    ¬ (linked.cfg.up = true ∧ linked.cfg.place < 5) := by decide +kernel
/-- The start-up order at place `n`. -/
def order (n : Nat) : State := { setFlds linked [(R.CFG_BOOT, F.CFG_BOOT.DTO, 1)] with cfg := { up := true, place := n, order := 0x2B19 }, chn := {} }
theorem witness_PowerResetAndOrder_order :
    ([0, 1, 2, 3, 4].any fun n => decide ((order n).cfg.order / 8 ^ n % 8 = 1)) = true ∧ ([0, 1, 2, 3, 4].any fun n => (order n).waitsDone) = true ∧
    (order 5).cfg.up = true ∧ 5 ≤ (order 5).cfg.place ∧ (order 4).fld R.CFG_BOOT F.CFG_BOOT.DTO ≠ 0 := by decide +kernel

/-- The order stands at LOCK, GSR being next, and every pane of its die is locked or gated, or pane 1 is not. -/
theorem witness_PowerResetAndOrder_lock :
    let s := setFlds (order 0) (((List.range 64).map fun p => (R.PANE_CLK 0 p, F.PANE_CLK.LOCK, 1)) ++ [(R.CLK_HLSTAT, F.CLK_HLSTAT.LOCK0, 0)])
    let t : State := { s with clk := { s.clk with started := 15 } }
    t.cfg.up = true ∧ t.cfg.place < 4 ∧ t.cfg.order / 8 ^ t.cfg.place % 8 = 1 ∧ t.cfg.order / 8 ^ (t.cfg.place + 1) % 8 = 3 ∧
    t.flag R.CLK_HLSTAT (lockF 1) = true ∧ (SMap.get {} t.dies 0).loaded = true ∧
    (∀ p, p < 64 → t.flag (R.PANE_CLK 0 p) F.PANE_CLK.LOCK = true) ∧ (order 0).flag (R.PANE_CLK 0 1) F.PANE_CLK.LOCK = false := by decide +kernel

/-! ### Configuration -/

/-- A run-time stream whose next packet has REG `r` and payload `ws`. -/
def stream (s : State) (r : Nat) (ws : List HWord) : State :=
  { s with cfg := { feed := .rtpkt, words := BitVec.ofNat 32 (r * 2 ^ 24 + ws.length) :: (ws ++ []) } }
/-- The data of a frame of zeros, whose CRC is taken 70 octets at a time. -/
def zeros : List Word := List.replicate 98 0
def octets70 : List Nat := List.replicate 70 0
theorem zeros_crc0 : octets70.foldl crc32Octet 0xffffffff = 0xf85732c := by decide +kernel
theorem zeros_crc1 : octets70.foldl crc32Octet 0xf85732c = 0x3188e461 := by decide +kernel
theorem zeros_crc2 : octets70.foldl crc32Octet 0x3188e461 = 0x812109f4 := by decide +kernel
theorem zeros_crc3 : octets70.foldl crc32Octet 0x812109f4 = 0x7b052a93 := by decide +kernel
theorem zeros_crc4 : octets70.foldl crc32Octet 0x7b052a93 = 0x4ca86699 := by decide +kernel
theorem zeros_crc5 : octets70.foldl crc32Octet 0x4ca86699 = 0xb6d7c8e9 := by decide +kernel
theorem zeros_crc6 : octets70.foldl crc32Octet 0xb6d7c8e9 = 0xaf8b8ef9 := by decide +kernel
theorem zeros_octets : zeros.flatMap wordOctets =
    octets70 ++ (octets70 ++ (octets70 ++ (octets70 ++ (octets70 ++ (octets70 ++ octets70))))) := by decide +kernel
theorem zeros_crc : frameCrc zeros = 0x50747106 := by
  rw [frameCrc, zeros_octets, crc32]
  simp only [List.foldl_append, zeros_crc0, zeros_crc1, zeros_crc2, zeros_crc3, zeros_crc4, zeros_crc5, zeros_crc6]
  rfl
theorem fold_unset (bs : List (Bool × Nat)) (h : ∀ b ∈ bs, b.1 = false) :
    (bs.foldl (fun a b => if b.1 then a ^^^ b.2 else a) 0 = 0) ∧ bs.foldl (fun a b => a != b.1) false = false := by
  induction bs with
  | nil => exact ⟨rfl, rfl⟩
  | cons b t ih => simpa [h b (by simp)] using ih fun x hx => h x (by simp [hx])
theorem hamming_unset (ws : List Word) (hw : ∀ w ∈ ws, w = 0) : hamming ws = 0 := by
  have h := fold_unset ((frameData ws).zip hamPositions) (by
    intro b hb
    have := (List.of_mem_zip hb).1
    simp only [frameData, List.mem_flatMap, List.mem_map] at this
    obtain ⟨w, hm, j, _, e⟩ := this
    simpa [hw w hm] using e.symm)
  unfold hamming
  dsimp only
  rw [h.1, h.2]
  rfl
theorem zeros_hamming : hamming zeros = 0 := hamming_unset zeros fun _ h => List.eq_of_mem_replicate h
/-- Its host words, with its check words. -/
def frame0 : List HWord := List.replicate 122 0 ++ [0x50000000, 0x67174, 0]
theorem frame0_words : packedWords (frame0.flatMap hwOctets) = zeros ++ [0x50747106, 0] := by decide +kernel
theorem frame0_checks : frameChecks (packedWords (frame0.flatMap hwOctets)) = true := by
  have e : (zeros ++ [0x50747106, 0]).take 98 = zeros := by decide
  rw [frameChecks, frame0_words, e, zeros_crc, zeros_hamming]
  decide
theorem witness_ConfigurationPackets_packets :
    ([(0, []), (1, [linked.reg R.CFG_IDCODE]), (2, [5]), (4, [1]), (5, [0]), (6, [0]), (7, [0x80000000]), (8, [0])] : List (Nat × List HWord)).all
      (fun x => let s := stream linked x.1 x.2
        let h := (s.cfg.words.headD 0).toNat
        decide (s.booting = false ∧ h / 2 ^ 24 = x.1 ∧ x.2.length = h % 2 ^ 24 ∧ s.cfg.loaded = false)) = true := by decide +kernel
theorem witness_ConfigurationPackets_shut : let s := (stream linked 7 [0]).setPane 0 { shut := true }
    SMap.get 0 s.armedBy (fPane 0) = 0 ∧ (s.pane (fPane 0)).shut = true := by decide +kernel
theorem witness_ConfigurationPackets_frame :
    let s := stream linked 3 frame0; let f := 2 ^ 20
    frame0.length = 125 ∧ frameOk f = true ∧ frameChecks (packedWords (frame0.flatMap hwOctets)) = true ∧ fType f = 1 ∧
    s.dieDark (fDie f) = false ∧ frameOk (7 * 2 ^ 20) = false :=
  ⟨by decide +kernel, by decide +kernel, frame0_checks, by decide +kernel, by decide +kernel, by decide +kernel⟩
theorem witness_ConfigurationPackets_drained : linked.shadowBusy (fMember (2 ^ 20)) = false ∧ (linked.pane (fPane (2 ^ 20))).reload = false := by
  decide +kernel
/-- A boot load from slot 1, at image word 10; the store holds one packet there. -/
def booted (r v : Nat) : State :=
  { linked with cfg := { feed := .slot 1, pos := 10, first := false, head := (List.range 10).map fun i => if i = 4 then 12 else 0 },
                store := [(2 ^ 25 + 10, BitVec.ofNat 32 (r * 2 ^ 24 + 1)), (2 ^ 25 + 11, BitVec.ofNat 32 v)] }
theorem witness_ConfigurationPackets_boot :
    ([(1, 0), (8, 5), (6, 0), (5, 3)].all fun x => let s := booted x.1 x.2
      decide (s.booting = true ∧ s.cfg.first = false) &&
      (match s.nextPacket with
       | some p => decide (p.1 = x.1 ∧ p.2.1 = [BitVec.ofNat 32 x.2] ∧ p.2.2.cfg.first = false)
       | none => false)) = true := by decide +kernel
/-- The same, a packet's page unreadable; an END whose counts agree, its image sealed with no key and read twice alike. -/
theorem witness_ConfigurationPackets_unread : let s := { booted 1 0 with unread := [(2 ^ 27 / 256, true)] }
    (match s.nextPacket with
     | some p => p.2.2.imgUnread (p.2.2.cfg.pos - p.2.1.length - 1) (p.2.1.length + 1)
     | none => false) = true ∧
    (match (booted 1 0).nextPacket with
     | some p => p.2.2.imgUnread (p.2.2.cfg.pos - p.2.1.length - 1) (p.2.1.length + 1)
     | none => true) = false := by decide +kernel
theorem witness_ConfigurationPackets_end :
    (match (booted 8 0).nextPacket with
     | some p => decide (p.1 = 8 ∧ p.2.2.cfg.frames = 0 ∧ hFrames p.2.2.cfg.head = 0 ∧ p.2.2.cfg.feed = .slot 1 ∧ p.2.2.cfg.railOut = false)
     | none => false) = true := by decide +kernel
theorem witness_ConfigurationPackets_slots : (booted 8 0).cfg.feed ≠ .slot 0 ∧ orderOk 0 = false ∧ orderOk 0x2B19 = true ∧
    ({ booted 8 0 with cfg := { feed := .slot 0 } } : State).cfg.feed = .slot 0 ∧ ({} : CfgSt).offs = [] := by decide +kernel
theorem witness_ConfigurationPackets_rtpkt :
    let s := { setFlds (stream linked 1 []) [(R.CFG_BSTAT, F.CFG_BSTAT.STATE, 5)] with cfg := { feed := .rtpkt, words := [0x01000001] } }
    s.fld R.CFG_BSTAT F.CFG_BSTAT.STATE = 5 ∧ s.cfg.feed = .rtpkt ∧ s.cfg.quiet = false ∧ s.secCfg.testBit 2 = false ∧ s.cfg.words ≠ [] ∧
    packetOk (s.cfg.words.headD 0) = true ∧ linked.fld R.CFG_BSTAT F.CFG_BSTAT.STATE ≠ 5 := by decide +kernel
theorem witness_ConfigurationPackets_readback : frameOk (2 ^ 20) = true ∧ linked.dieRuns (fDie (2 ^ 20)) = true ∧
    linked.flag R.SEC_STAT F.SEC_STAT.ENC = false := by decide +kernel

theorem witness_StoreAndOtp_store : let s := setFlds linked [(R.CFG_SADR, F.CFG_SADR.ADDR, 2 ^ 27)]
    s.flag R.CFG_SCMD F.CFG_SCMD.BUSY = false ∧ s.fld R.CFG_SADR F.CFG_SADR.ADDR = 2 ^ 27 ∧ SMap.get false s.progd (2 ^ 27 / 256) = false ∧
    s.cfg.runSlot ≠ some 1 ∧ ({ s with cfg := { runSlot := some 1 } } : State).cfg.runSlot = some 1 := by decide +kernel
theorem witness_StoreAndOtp_end : ([1, 2, 3].all fun op =>
    let s := { setFlds linked [(R.CFG_SCMD, F.CFG_SCMD.BUSY, 1)] with cfg := { cmd := (op, 2 ^ 27) } }
    decide (s.flag R.CFG_SCMD F.CFG_SCMD.BUSY = true ∧ s.cfg.cmd = (op, 2 ^ 27))) = true := by decide +kernel
theorem witness_StoreAndOtp_otp : linked.otpRun = none ∧ linked.otpRefusal 1 0 = 1 ∧ linked.otpRefusal 1 9 = 0 ∧
    (linked.setOtpGen 9 0 { val := 3, p := true, chk := otpCrc 9 3 }).otpRefusal 2 9 ≠ 1 ∧
    ({ linked with otpRun := some ⟨1, 9, 0, 3⟩ } : State).otpRun = some ⟨1, 9, 0, 3⟩ := by decide +kernel
theorem witness_StoreAndOtp_refused : let s := setFlds linked [(R.CFG_SADR, F.CFG_SADR.ADDR, 2 ^ 27 + 1)]
    s.fld R.CFG_SADR F.CFG_SADR.ADDR % 256 ≠ 0 ∧ s.fld R.CFG_SADR F.CFG_SADR.ADDR % 4 ≠ 0 ∧ s.fld R.CFG_SADR F.CFG_SADR.ADDR % 65536 ≠ 0 ∧
    linked.fld R.CFG_SADR F.CFG_SADR.ADDR / 2 ^ 27 = 0 ∧ linked.flag R.CFG_BOOT F.CFG_BOOT.GOLDWE = false := by decide +kernel
theorem witness_StoreAndOtp_waits : let s := { linked with cfg := { feed := .slot 1, cmdWaits := true } }
    s.cfg.cmdWaits = true ∧ s.storeRead = true ∧ linked.storeRead = false ∧ ({ linked with power := .hold } : State).power ≠ .on ∧
    linked.power = .on := by decide +kernel

/-! ### Scrubbing, tests and the deadbolt -/

def scrubbing : State := setFlds running [(R.CFG_SCRUB, F.CFG_SCRUB.EN, 1), (R.CFG_IST, F.CFG_IST.EN, 7)]
/-- Frame 0 is next; it holds zeros, and its check words are `crc` and `ham`. -/
def framed (crc ham : Word) : State := { scrubbing with chk := [(0, crc), (1, ham)] }
theorem witness_ScrubTestAndTap_scrub : scrubbing.scrubRuns = true ∧ fType 0 ≠ 3 ∧
    scrubbing.passEnds.scrubNext (scrubbing.passEnds.scrubAt 0) = some 0 ∧ scrubbing.passEnds.scrubNext 0 ≠ some 1 ∧
    State.reset.scrubRuns = false := by decide +kernel
theorem framed_zeros (crc ham : Word) : (framed crc ham).storedFrame 0 0 = zeros := by
  show scrubbing.storedFrame 0 0 = zeros
  decide +kernel
theorem framed_chk (crc ham : Word) : (framed crc ham).chkWord 0 0 0 = crc ∧ (framed crc ham).chkWord 0 0 1 = ham := ⟨rfl, rfl⟩
theorem zeros_syndrome (h : Nat) : hamSyndrome zeros h = (0 % 4096 ^^^ h % 4096, (Nat.testBit 0 12 != oddOnes 12 0) != (h.testBit 12 != oddOnes 12 h)) := by
  unfold hamSyndrome; rw [zeros_hamming]
/-- The frame of zeros with its first bit turned. -/
def turned : List Word := 0x8000000000 :: List.replicate 97 0
theorem turned_flip : flipData zeros 0 = turned := by decide +kernel
theorem turned_octets : turned.flatMap wordOctets =
    (128 :: List.replicate 69 0) ++ (octets70 ++ (octets70 ++ (octets70 ++ (octets70 ++ (octets70 ++ octets70))))) := by decide +kernel
theorem turned_crc0 : (128 :: List.replicate 69 0).foldl crc32Octet 0xffffffff = 1695010066 := by decide +kernel
theorem turned_crc1 : octets70.foldl crc32Octet 1695010066 = 3737157195 := by decide +kernel
theorem turned_crc2 : octets70.foldl crc32Octet 3737157195 = 4062491162 := by decide +kernel
theorem turned_crc3 : octets70.foldl crc32Octet 4062491162 = 1231209137 := by decide +kernel
theorem turned_crc4 : octets70.foldl crc32Octet 1231209137 = 2821711677 := by decide +kernel
theorem turned_crc5 : octets70.foldl crc32Octet 2821711677 = 1706000731 := by decide +kernel
theorem turned_crc6 : octets70.foldl crc32Octet 1706000731 = 3571267438 := by decide +kernel
theorem turned_crc : frameCrc turned = 723699857 := by
  rw [frameCrc, turned_octets, crc32]
  simp only [List.foldl_append, turned_crc0, turned_crc1, turned_crc2, turned_crc3, turned_crc4, turned_crc5, turned_crc6]
  rfl
/-- A good frame; one with check bit 0 wrong; two wrong bits; a data bit whose correction mends the CRC; a wrong CRC under sound check bits. -/
theorem witness_ScrubTestAndTap_frames :
    frameCrc zeros = (0x50747106#40).toNat ∧ hamming zeros = (0#40).toNat ∧
    (hamSyndrome zeros (1#40).toNat = (1, true) ∧ hamming zeros ≠ (1#40).toNat) ∧ hamSyndrome zeros (3#40).toNat = (3, false) ∧
    (hamSyndrome zeros (0x1003#40).toNat = (3, true) ∧ 3 ∈ hamPositions ∧ frameCrc (flipData zeros (hamPositions.idxOf 3)) = (723699857#40).toNat) ∧
    (hamSyndrome zeros (0#40).toNat).2 = false ∧ frameCrc zeros ≠ (1#40).toNat := by
  have e : hamPositions.idxOf 3 = 0 := by decide +kernel
  have m : 3 ∈ hamPositions := by simp [hamPositions]
  simp only [zeros_syndrome, e, turned_flip, turned_crc, zeros_crc, zeros_hamming]
  exact ⟨by decide, by decide, ⟨by decide, by decide⟩, by decide, ⟨by decide, m, by decide⟩, by decide, by decide⟩
/-- A frame of engine program memory: all bundles good, one or two with a bad bit. -/
def engineFrame (bad : Fin 3) : State := { scrubbing with cfg := { scrub0 := 3 * 2 ^ 20 }, pmBad := [(pmKey 0 0 5, bad)] }
theorem witness_ScrubTestAndTap_engineFrame : fType (3 * 2 ^ 20) = 3 ∧ fEng (3 * 2 ^ 20) = 0 ∧ fMinor (3 * 2 ^ 20) = 0 ∧
    (engineFrame 1).passEnds.scrubNext ((engineFrame 1).passEnds.scrubAt 0) = some (3 * 2 ^ 20) ∧
    SMap.get 0 (engineFrame 1).pmBad (pmKey 0 0 (32 * 0 + 5)) = 1 ∧ SMap.get 0 (engineFrame 2).pmBad (pmKey 0 0 (32 * 0 + 5)) = 2 ∧
    SMap.get 0 (engineFrame 1).pmBad (pmKey 0 0 (32 * 0 + 6)) = 0 := by decide +kernel
theorem witness_ScrubTestAndTap_bothErrors : let s := { engineFrame 1 with pmBad := [(pmKey 0 0 5, 1), (pmKey 0 0 6, 2)] }
    s.passEnds.scrubNext (s.passEnds.scrubAt 0) = some (3 * 2 ^ 20) ∧ SMap.get 0 s.pmBad (pmKey 0 0 (32 * 0 + 5)) = 1 ∧
    SMap.get 0 s.pmBad (pmKey 0 0 (32 * 0 + 6)) = 2 := by decide +kernel
theorem witness_ScrubTestAndTap_self : (setFlds running [(R.CFG_SCRST, F.CFG_SCRST.SELF, 1)]).flag R.CFG_SCRST F.CFG_SCRST.SELF = true := by
  decide +kernel
theorem witness_ScrubTestAndTap_passEnds : let s := { scrubbing with cfg := { scrub0 := 2 ^ 25, scrub1 := 2 ^ 25 } }
    s.scrubAt 0 + s.scrubAt 1 ≠ 0 ∧ s.scrubNext (s.scrubAt 0) = none ∧ s.scrubNext (s.scrubAt 1) = none ∧
    scrubbing.scrubAt 0 + scrubbing.scrubAt 1 = 0 := by decide +kernel
/-- In service: a louvre in no slot has a wrong parity bit; none has. -/
theorem witness_ScrubTestAndTap_louvres : let s := { scrubbing with lvPar := [(lvParKey 0 0 5 0 0, 1)] }
    s.paneRuns 0 = true ∧ (160 : Nat) < 2048 ∧ 160 / 32 % 8 ≠ 4 ∧ s.badSpareLouvre 0 160 ≠ none ∧ (setFlds scrubbing [(R.CFG_IST, F.CFG_IST.EN, 0)]).istOn 2 = false := by
  decide +kernel
theorem witness_ScrubTestAndTap_sound : ((List.range 128).all fun n => (scrubbing.badSpareLouvre 0 n).isNone) = true ∧
    (({ scrubbing with power := .hold } : State).power ≠ .on) := by decide +kernel
theorem witness_ScrubTestAndTap_restart : running.flag R.CFG_SCRST F.CFG_SCRST.SELF = false ∧ running.cfg.stopped = false ∧ running.cfg.reload = [] ∧
    ({ running with cfg := { stopped := true, reload := [(0, 2 ^ 20)] } } : State).reloadArmed (2 ^ 20) = false := by decide +kernel
theorem witness_ScrubTestAndTap_reload : let s := { running with cfg := { runSlot := some 0, reload := [(0, 2 ^ 20)] }, store := imageOf0 }
    s.cfg.runSlot = some 0 ∧ s.cfg.stopped = false ∧ s.cfg.reload ≠ [] ∧ (s.slotImage 0).opens s.imgKey = true := by decide +kernel
/-- The image in slot 0 gives route frame 2^20 of die 0's pane 0, all zeros. -/
def imageWithFrame : List (Nat × HWord) :=
  [(0, 0), (1, 0xA0000), (2, 0), (3, 0), (4, 140), (5, 0), (6, 0), (7, 0), (8, 0), (9, 0), (10, 0x02000001), (11, 0x100000), (12, 0x0300007D)] ++
    ((List.range 125).map fun i => (13 + i, if i = 122 then 0x50000000 else if i = 123 then 0x67174 else 0)) ++ [(138, 0x08000001), (139, 0)]
set_option maxRecDepth 20000 in
theorem witness_ScrubTestAndTap_given :
    let s := { running with cfg := { runSlot := some 0, reload := [(0, 2 ^ 20)] }, store := imageWithFrame, imgBit := [(2 ^ 20, true)] }
    ((s.cfg.reload.filter fun e => s.imageBit e.1 e.2).filter fun e => !s.reloadWaits e.2) = [(0, 2 ^ 20)] ∧ (s.slotImage 0).opens s.imgKey = true ∧
    ((s.walkRunning (fun (m : List (Nat × List Word)) f ws => .ok ((f, ws) :: m)) []).1.map Prod.fst) = [2 ^ 20] := by decide +kernel
theorem witness_ScrubTestAndTap_cells : let s := (scrubbing.setPane 0 { cycle := 10, istSlots := 64 }).advance (paneId 0 0) 0
    s.istOn 2 = true ∧ 64 ≤ (s.pane (paneId 0 0)).istSlots := by decide +kernel
theorem witness_ScrubTestAndTap_engine : let s := scrubbing.setEng 0 { state := .idle }
    s.istOn 1 = true ∧ (s.eng (engId 0 0)).state = .idle ∧ s.engClocked (engId 0 0) = true := by decide +kernel
theorem witness_ScrubTestAndTap_leaf : let s := setFlds linked [(R.CFG_IST, F.CFG_IST.EN, 1), (R.HNG_STAT 12, F.HNG_STAT.WCODE, 1)]
    s.istOn 0 = true ∧ s.hingeState (hingeEnds 0).1 = 2 ∧ (s.reg (R.HNG_LFAIL 12)).getLsbD 31 = false ∧ (s.logical 12).contains 31 = false := by
  decide +kernel
theorem witness_ScrubTestAndTap_jtag : (setFlds running [(R.SEC_STAT, F.SEC_STAT.JTAG, 1)]).flag R.SEC_STAT F.SEC_STAT.JTAG = true ∧
    (setFlds running [(R.SEC_STAT, F.SEC_STAT.JTAG, 0)]).flag R.SEC_STAT F.SEC_STAT.JTAG = false := by decide +kernel

theorem witness_DeadboltMonitorsAndWatchdog_rails : State.reset.power ≠ .off ∧ (SMap.get {} State.reset.dies 0).off = false ∧
    10 < (State.reset.railRange 0).1 ∧ ({ State.reset with db := { rails := 1 } } : State).db.rails.getLsbD 0 = true ∧
    State.reset.db.rails.getLsbD 0 = false ∧ running.db.scDead = false ∧ ({ running with db := {} } : State).db.cool = false := by decide +kernel
theorem witness_DeadboltMonitorsAndWatchdog_trip : ({ running with db := { tripped := true } } : State).db.tripped = true ∧
    running.db.tripped = false ∧ ∀ i, i < 19 → running.temp i < 1000 := by decide +kernel
theorem witness_DeadboltMonitorsAndWatchdog_expiry : running.flag R.DB_WDT F.DB_WDT.SUSP = false ∧ running.db.grace = false ∧
    ({ running with db := { grace := true } } : State).db.grace = true ∧
    (setFlds running [(R.DB_WDT, F.DB_WDT.SUSP, 1)]).flag R.DB_WDT F.DB_WDT.SUSP = true := by decide +kernel
theorem witness_DeadboltMonitorsAndWatchdog_beat : running.power = .on ∧ running.db.scDead = false ∧ running.db.beat = none ∧
    ({ running with db := { beat := some 7 } } : State).db.beat = some 7 ∧ (8 : Nat) = (7 + 1) % 2 ^ 32 ∧ (9 : Nat) ≠ (7 + 1) % 2 ^ 32 ∧
    running.fld R.CFG_BSTAT F.CFG_BSTAT.STATE ≠ 5 ∧ ({ running with db := { scDead := true } } : State).db.scDead = true := by decide +kernel
/-- A parked die's rail; a rail good for 10 ms; a sensor that is warm; every sensor read cool; SC's cores disagree while a suspension runs. -/
theorem witness_DeadboltMonitorsAndWatchdog_more :
    (SMap.get {} (dark2 running).dies 2).off = true ∧ 10000 ≤ SMap.get 0 ({ rails := 0, okV := [(0, 9999)] } : DbSt).okV 0 + 1 ∧
    (8 : Int) * running.twarn ≤ (800 : BitVec 12).toInt ∧ ¬ (8 : Int) * running.twarn ≤ (0 : BitVec 12).toInt ∧
    ({ cool := true, seen := BitVec.allOnes 19 } : DbSt).seen = BitVec.allOnes 19 ∧
    running.wdstart ≤ 2 ^ 32 ∧ ({ running with db := { sinceDone := 2 ^ 32 } } : State).db.sinceDone + 1 ≥ running.wdstart ∧
    running.db.sinceDone + 1 < running.wdstart ∧
    ({ setFlds running [(R.DB_WDT, F.DB_WDT.SUSP, 1)] with db := { scDead := true } } : State).flag R.DB_WDT F.DB_WDT.SUSP = true ∧
    (setFlds running [(R.CFG_BSTAT, F.CFG_BSTAT.STATE, 5)]).fld R.CFG_BSTAT F.CFG_BSTAT.STATE = 5 := by decide +kernel
theorem witness_DeadboltMonitorsAndWatchdog_hot : 1000 ≤ (running.setReg (R.DB_TEMP 3) 1000).temp 3 := by decide +kernel

/-! ### Pins and controllers -/

/-- The pins past OUTPUTS, none held, with fields of their live settings. -/
def pinned (l : List (Nat × Fld × Nat)) : State :=
  l.foldl (fun a e => setSt a (R.PIN_CFG e.1) [(e.2.1, e.2.2)]) { running with outputs := true }
theorem witness_PinsAndFabricPins_stamp : let s := (pinned [(5, F.PIN_CFG.FUNC, 0xA)]).tbuEdges 0
    s.suppliesInput 0xA 5 = true ∧ s.flag (R.PIN_TSSTAT 0) F.PIN_TSSTAT.VALID = false ∧ (s.pin 5).filt = false ∧
    getF (s.pinCfg 5) F.PIN_CFG.FTICKS = 0 := by decide +kernel
theorem witness_PinsAndFabricPins_fan : ((pinned [(5, F.PIN_CFG.FUNC, 0xE)]).tbuEdges 0).suppliesInput 0xE 5 = true := by decide +kernel
theorem witness_PinsAndFabricPins_handover : ((running.setPin 3 { raw := true, hold := true }).pin 3).hold = true ∧ (running.pin 3).hold = false ∧
    (4 : Nat) ≤ (7 : Fin 8).val := by decide +kernel
/-- Pane 1 of die 0, to which fabric pin 0 is attached, has a queue; the pin is in mode `m`, bound or not. -/
def fpinned (m bound : Nat) (q : QueueSt) : State :=
  let s := setFlds running [(R.PANE_CLK 0 1, F.PANE_CLK.LOCK, 1)]
  let s := s.setStAt 0 (R.WM_CFG 0 1 0) (fields [(F.WM_CFG.MODE, 3), (F.WM_CFG.NQ, 1)])
  let s := s.setStAt 0 (R.WM_QCFG 0 1 0 0) (fields [(F.WM_QCFG.SIZEM1, 3)])
  let s := s.setStAt 0 (R.FPIN_CFG 0 0) (fields [(F.FPIN_CFG.MODE, m), (F.FPIN_CFG.QEN, bound)])
  ((s.setPane 1 { cycle := 10 }).setEntry 6 0 { word := 0x11 }).setQueue 6 0 q
theorem witness_PinsAndFabricPins_out : let s := (fpinned 1 1 oneEntry).advance (fpinPane 0 0) 0
    let b := s.fpinBinding 0 0
    s.fpinRuns 0 0 = true ∧ s.fpinMode 0 0 = 1 ∧ s.served (fpinPane 0 0) b false (.fpin 0) = true ∧
    (s.popBound (fpinPane 0 0) b.2.1 b.2.2).1.2.2 = true := by decide +kernel
theorem witness_PinsAndFabricPins_in : let s := (fpinned 3 1 {}).advance (fpinPane 0 0) 0
    let b := s.fpinBinding 0 0
    s.fpinMode 0 0 = 3 ∧ s.served (fpinPane 0 0) b true (.fpin 0) = true ∧
    (s.pushBound (fpinPane 0 0) b.2.1 b.2.2 (s.fpinWire 0 0 5) false).1 = true := by decide +kernel
/-- Without power, in HOLD a bell pin and another; banks before OUTPUTS; a held pin that is the lowest to name its input; the M pin of a pair; a full
PQUEUE at a pin; a pin whose mode has no word. -/
theorem witness_PinsAndFabricPins_power : ({ running with power := .off } : State).power = .off ∧ ((2 : Fin 64).val < 4) ∧
    getF ((running.tbuEdges 0).pinCfg 2) F.PIN_CFG.FTICKS ≤ 16 ∧ running.outputs = false ∧
    (SMap.get {} (running.updDie 0 fun x => { x with outputs := false }).dies 0).outputs = false ∧ (pinned []).outputs = true ∧
    running.cfg.up = false := by decide +kernel
theorem witness_PinsAndFabricPins_filtered : let s := (pinned [(5, F.PIN_CFG.FTICKS, 3)]).tbuEdges 0
    s.power = .on ∧ 2 < getF (s.pinCfg 5) F.PIN_CFG.FTICKS ∧ getF (s.pinCfg 5) F.PIN_CFG.FTICKS ≤ 3 := by decide +kernel
theorem witness_PinsAndFabricPins_held : let s := (pinned [(5, F.PIN_CFG.FUNC, 0xA)]).setPin 5 { hold := true }
    (s.suppliers 0xA (pinInst 0xA 5)).head? = some 5 ∧ (s.pin 5).hold = true ∧ s.supplier 0xA (pinInst 0xA 5) = none := by decide +kernel
theorem witness_PinsAndFabricPins_pair : let s := running.setStAt 0 (R.FPIN_CFG 0 0) (fields [(F.FPIN_CFG.MODE, 4)])
    s.fpinMode 0 (1 - 1) = 4 ∧ (s.fpin 0 1).hold = false ∧ (SMap.get {} s.dies 0).outputs = true ∧ 1 % 2 = 1 := by decide +kernel
theorem witness_PinsAndFabricPins_pqueue :
    let s := (fpinned 3 1 fullQueue).setStAt 0 (R.WM_CFG 0 1 0) (fields [(F.WM_CFG.MODE, 4), (F.WM_CFG.NQ, 1)])
    s.served (fpinPane 0 0) (s.fpinBinding 0 0) true (.fpin 0) = true ∧ s.pushWaits 1 0 0 = true ∧ (fpinned 3 1 {}).pushWaits 1 0 0 = false ∧
    (fpinned 3 1 fullQueue).pushWaits 1 0 0 = false ∧ (fpinned 1 0 {}).served (fpinPane 0 0) ((fpinned 1 0 {}).fpinBinding 0 0) false (.fpin 0) = false ∧
    ((fpinned 1 1 {}).popBound 1 0 0).1.2.2 = false := by decide +kernel
theorem witness_PinsAndFabricPins_stopped : let s := setFlds (fpinned 3 1 {}) [(R.PANE_CLK 0 1, F.PANE_CLK.LOCK, 0)]
    s.fpinRuns 0 0 = false := by decide +kernel
theorem witness_PinsAndFabricPins_unbound : let s := (fpinned 3 0 {}).advance (fpinPane 0 0) 0
    s.served (fpinPane 0 0) (s.fpinBinding 0 0) true (.fpin 0) = false := by decide +kernel

theorem witness_SerialControllersAndFans_uart : let s := setFlds (pinned [(0, F.PIN_CFG.FUNC, 2)]) [(R.UART_CFG 0, F.UART_CFG.EN, 1)]
    s.uartOwned 0 = false ∧ (s.uart 0).tx.length < 16 ∧ s.flag (R.UART_CFG 0) F.UART_CFG.EN = true ∧ (s.uart 0).rx.length < 16 ∧
    s.suppliers 2 0 ≠ [] := by decide +kernel
theorem witness_SerialControllersAndFans_keeper : let s := setFlds running [(R.KPR_CFG, F.KPR_CFG.UEN, 1)]
    s.uartOwned 3 = true ∧ running.supplier 2 0 = none ∧ running.supplier 4 0 = none ∧ running.supplier 7 0 = none ∧
    (pinned [(0, F.PIN_CFG.FUNC, 2)]).supplier 2 0 ≠ none ∧ (pinned [(4, F.PIN_CFG.FUNC, 4)]).supplier 4 0 ≠ none ∧
    (pinned [(4, F.PIN_CFG.FUNC, 7)]).supplier 7 0 ≠ none := by decide +kernel
theorem witness_SerialControllersAndFans_full :
    let s := { running with uarts := [(0, { tx := List.replicate 16 5, rx := List.replicate 16 { octet := 5, perr := false, ferr := false } })] }
    (s.uart 0).tx.length = 16 ∧ (s.uart 0).rx.length = 16 ∧ s.uartOwned 0 = false := by decide +kernel
theorem witness_SerialControllersAndFans_i2c :
    let s := setFlds (pinned [(4, F.PIN_CFG.FUNC, 4)]) [(R.I2C_CFG 0, F.I2C_CFG.EN, 1)]
    s.flag (R.I2C_STAT 0) F.I2C_STAT.BUSY = false ∧ s.flag (R.I2C_CFG 0) F.I2C_CFG.EN = true ∧
    (setFlds s [(R.I2C_STAT 0, F.I2C_STAT.BUSY, 1)]).flag (R.I2C_STAT 0) F.I2C_STAT.BUSY = true ∧
    s.suppliers 4 0 ≠ [] := by decide +kernel
theorem witness_SerialControllersAndFans_spi :
    let s := setFlds (pinned [(4, F.PIN_CFG.FUNC, 7)]) [(R.SPI_CFG 0, F.SPI_CFG.EN, 1)]
    s.flag (R.SPI_STAT 0) F.SPI_STAT.BUSY = false ∧ s.flag (R.SPI_CFG 0) F.SPI_CFG.EN = true ∧
    (setFlds s [(R.SPI_STAT 0, F.SPI_STAT.BUSY, 1)]).flag (R.SPI_STAT 0) F.SPI_STAT.BUSY = true ∧
    s.suppliers 7 0 ≠ [] := by decide +kernel
theorem witness_SerialControllersAndFans_fan : SMap.get 0 ({ fans := [(1, 3)] } : State).fans 1 < 65536 := by decide +kernel

/-- The Keeper's second source (1,693) is up, and the first software source is set and routed to group 3. -/
def eventful : State :=
  setFlds (running.setReg R.EVT_SWSET 1) [(R.KPR_STAT, F.KPR_STAT.SCHG, 1), (R.EVT_SRC 1696, F.EVT_SRC.EN, 1), (R.EVT_SRC 1696, F.EVT_SRC.GROUP, 3),
    (R.EVT_GCFG 3, F.EVT_GCFG.MSIX, 1)]
theorem witness_EventsFollowTheirSources : eventful.sourceUp 1693 = true ∧ eventful.raised 1693 = false ∧ eventful.sourceUp 1696 = true ∧
    eventful.flag (R.EVT_GCFG 3) F.EVT_GCFG.MSIX = true := by decide +kernel
/-- MSI-X of PF1: on and unmasked, on and masked; of PF0 with vector 5 pending behind its own mask. -/
theorem witness_EventsFollowTheirSources_msix : let x : MsixFn := { on := true }
    let s := ({ eventful with msixs := [(0, { x with tab := [(23, 1)], pend := [(5, true)] }), (1, { x with tab := [(7, 0)] })] } : State)
    (s.msixOf 1).on = true ∧ (s.msixOf 1).masked 1 = false ∧ (s.msixOf 1).masked 2 = true ∧ 5 < msixVectors 0 ∧ s.power = .on ∧
    (s.msixOf 0).on = true ∧ (s.msixOf 0).fmask = false ∧ (s.msixOf 0).masked 5 = true ∧ (s.msixOf 0).pend = [(5, true)] := by decide +kernel

/-! ### The Keeper -/

/-- The Keeper runs; the session, or its opening, has STATE `st`, LEVEL `lv` and steps `k`. -/
def keeping (st lv k : Nat) : State :=
  { setFlds running [(R.KPR_STAT, F.KPR_STAT.STATE, st), (R.KPR_STAT, F.KPR_STAT.LEVEL, lv)] with clk := { started := 15 }, kpr := { steps := k } }
/-- The header and payload of a message of TYPE `t`. -/
def kbody (t : Nat) (ws : List HWord) : List HWord := BitVec.ofNat 32 (t * 2 ^ 24 + ws.length) :: ws
/-- Such a message with its trailer, and a state in which it waits on channel 0. -/
def sealedBy (s : State) (b : List HWord) : List HWord := b ++ s.trailer 0 false b
def waitsAt0 (s : State) (b : List HWord) : State := { s with kpr := { s.kpr with inq := [(0, sealedBy s b)] } }
def asking (st lv k t : Nat) (ws : List HWord) : State := waitsAt0 (keeping st lv k) (kbody t ws)
def asks (s : State) (t : Nat) (ws : List HWord) : Bool :=
  let h : HWord := BitVec.ofNat 32 (t * 2 ^ 24 + ws.length)
  decide (msgLen h = ws.length ∧ h.toNat / 2 ^ 24 = t ∧ s.chanOpen 0 = true ∧ ws.length ≤ (if s.inSession 0 = true then 58 else 61)) &&
    lenOk t ws.length (ws.getD 1 0).toNat && (decide (2 ≤ ws.length) || decide (t ≠ 0x13))
theorem trailer_length (s : State) (out : Bool) (ws : List HWord) : (s.trailer 0 out ws).length = s.trailLen 0 := by
  unfold State.trailer State.trailLen; split <;> simp [Config.hmacTag]
theorem lenOk_any {t n w : Nat} (h : t ≠ 0x13) (v : Nat) : lenOk t n w = lenOk t n v := by
  unfold lenOk; split <;> first | rfl | exact absurd rfl h
theorem asks_asked {s : State} {t : Nat} {ws : List HWord} (h : asks s t ws = true) :
    Asked (waitsAt0 s (kbody t ws)) 0 t (sealedBy s (kbody t ws)) := by
  simp only [asks, Bool.and_eq_true, Bool.or_eq_true, decide_eq_true_eq] at h
  obtain ⟨⟨⟨h1, h2, h3, h4⟩, h5⟩, h6⟩ := h
  have hb : (kbody t ws).length = 1 + ws.length := by simp [kbody, Nat.add_comm]
  have hk : (sealedBy s (kbody t ws)).length = 1 + ws.length + s.trailLen 0 := by
    rw [sealedBy, List.length_append, hb, trailer_length]
  refine ⟨rfl, ?_, h2, h3, ?_, ?_, ?_⟩
  · show (let n := 1 + msgLen (BitVec.ofNat 32 (t * 2 ^ 24 + ws.length)) + s.trailLen 0
      if (sealedBy s (kbody t ws)).length < n then none else some ((sealedBy s (kbody t ws)).take n)) = _
    dsimp only
    rw [h1, if_neg (by omega), List.take_of_length_le (by omega)]
  · exact h1.symm ▸ h4
  · show lenOk t (msgLen (BitVec.ofNat 32 (t * 2 ^ 24 + ws.length))) _ = true
    rw [h1]
    rcases h6 with h6 | h6
    · match ws, h6 with
      | a :: b :: c, _ => exact h5
    · rw [lenOk_any h6 ((ws.getD 1 0).toNat)]; exact h5
  · show (sealedBy s (kbody t ws)).drop (1 + msgLen (BitVec.ofNat 32 (t * 2 ^ 24 + ws.length))) =
      s.trailer 0 false ((sealedBy s (kbody t ws)).take (1 + msgLen (BitVec.ofNat 32 (t * 2 ^ 24 + ws.length))))
    rw [h1, ← hb]
    simp only [sealedBy, List.take_left', List.drop_left']
theorem witness_KeeperChannels_mailbox : let s := { running with kpr := { inq := [(0, [3])] } }
    (s.kprIn 0).length < 64 ∧ (s.kprIn 0).length < msgLen ((s.kprIn 0 ++ [5]).headD 0) + s.trailLen 0 ∧ s.kprIn 0 ≠ [] ∧ s.kprFront 0 = none ∧
    ({ running with kpr := { inq := [(0, List.replicate 64 63)] } } : State).kprIn 0 = List.replicate 64 63 ∧ running.kprIn 0 = [] := by decide +kernel
theorem witness_KeeperChannels_uart : let s := { setFlds (pinned [(48, F.PIN_CFG.FUNC, 2)]) [(R.KPR_CFG, F.KPR_CFG.UEN, 1)] with
      kpr := { sync := 2, uart := [0, 0, 0, 1, 0, 0, 0] } }
    s.uartOwned 3 = true ∧ (s.kpr.uart.length + 1) % 4 = 0 ∧ (hwOfOctets (s.kpr.uart ++ [0])).length = 2 ∧ s.suppliers 2 3 ≠ [] := by decide +kernel
theorem witness_KeeperChannels_stopped : ({ keeping 0 0 0 with power := .hold } : State).kprRuns = false ∧ (keeping 0 0 0).kprRuns = true ∧
    ({ keeping 0 0 0 with kpr := { skip := 2 } } : State).kpr.skip ≠ 0 ∧ (keeping 0 0 0).kpr.skip = 0 ∧
    64 < 1 + msgLen 63 + (keeping 2 3 5).trailLen 0 ∧ 1 + msgLen 58 + (keeping 2 3 5).trailLen 0 ≤ 64 := by decide +kernel
theorem witness_KeeperChannels_gap : let s := { keeping 0 0 0 with kpr := { inq := [(0, [3])] } }
    s.kprRuns = true ∧ s.kprIn 0 ≠ [] ∧ s.kprFront 0 = none := by decide +kernel
/-- Three octets wait behind 0x4B, 0x50: a fourth that makes no whole message yet. -/
theorem witness_KeeperChannels_part : let s := { keeping 0 0 0 with kpr := { sync := 2, uart := [0, 0, 0] } }
    s.kpr.sync = 2 ∧ ¬ ((s.kpr.uart.length + 1) % 4 = 0 ∧ (hwOfOctets (s.kpr.uart ++ [0])).length = 1 + msgLen 0 + s.trailLen 1) := by
  decide +kernel
theorem witness_KeeperChannels_chain :
    let s := { chained [(R.CHN_STAT, F.CHN_STAT.AVALID, 1), (R.KPR_CFG, F.KPR_CFG.CEN, 1)] with clk := { started := 15 } }
    let pk := goodPk 6 0 1 ((kbody 1 [] ++ (keeping 0 0 0).trailer 2 false (kbody 1 [])).flatMap hwOctets); let ws := hwOfOctets pk.payload
    s.chainRuns = true ∧ chainOk pk = true ∧ pk.typ = 6 ∧ s.chainMine pk = true ∧ s.chanOpen 2 = true ∧ pk.payload.length % 4 = 0 ∧ ws ≠ [] ∧
    ws.length = 1 + msgLen (ws.headD 0) + s.trailLen 2 := by decide +kernel
theorem witness_KeeperOpening : asks (keeping 0 0 0) 1 [] = true ∧ asks (keeping 0 0 0) 2 (List.replicate 36 0) = true ∧ asks (keeping 1 0 1) 3 (List.replicate 24 0) = true ∧
    asks (keeping 1 0 2) 4 (List.replicate 61 0) = true ∧ asks (keeping 1 0 3) 5 (List.replicate 24 0) = true := by decide +kernel
theorem witness_KeeperOpening_states : (keeping 0 0 0).kprState = 0 ∧ (keeping 0 0 0).inSession 0 = false ∧
    ([1, 2, 3].all fun k => decide ((keeping 1 0 k).kprState = 1 ∧ (keeping 1 0 k).kprChan = 0 ∧ (keeping 1 0 k).kpr.steps = k)) = true ∧
    (1 : Nat) ≠ (keeping 1 0 1).kprChan ∧ (keeping 2 3 5).kprState = 2 := by decide +kernel

/-- A session of LEVEL 3 asks this. -/
def insists (t : Nat) (ws : List HWord) : Bool := asks (keeping 2 3 5) t ws
theorem witness_KeeperRequests_session : (keeping 2 3 5).inSession 0 = true ∧ (keeping 2 3 5).fld R.KPR_STAT F.KPR_STAT.LEVEL = 3 ∧
    (keeping 2 0 5).fld R.KPR_STAT F.KPR_STAT.LEVEL = 0 ∧ (keeping 0 0 0).inSession 0 = false := by decide +kernel
theorem witness_KeeperRequests :
    insists 0x10 [0x20000C, 0] = true ∧ insists 0x11 [0x20000C, 5] = true ∧ insists 0x12 [0x1008000, 1] = true ∧
    insists 0x13 [0x1008000, 1, 5, 0] = true ∧ insists 0x20 [0x100] = true ∧ insists 0x21 [0x100] = true ∧ insists 0x22 [0x100] = true ∧
    insists 0x23 [0x100] = true ∧ insists 0x24 [0x100, 5] = true ∧ insists 0x25 [0x100, 5, 1, 0] = true ∧ insists 0x30 [60] = true ∧
    insists 0x31 [] = true ∧ insists 0x32 [0, 0x80000000] = true ∧ insists 0x3F [] = true ∧ insists 0x20 [0x3F0] = true := by decide +kernel
theorem witness_KeeperRequests_targets :
    ([EngState.run, .halt, .idle].all fun st => decide ((((keeping 2 3 5).setEng 0 { state := st }).eng 0).state = st)) = true ∧
    ({ state := .halt } : EngSt).rests = true ∧ ({ state := .run } : EngSt).rests = false ∧ (({} : EngSt).regAtCode 5).isSome = true ∧
    ({} : EngSt).regAtCode 0x4F = none ∧ (({} : EngSt).putCode 5 1).isSome = true ∧ (keeping 2 3 5).core0.pend = false ∧
    (keeping 2 3 5).core0.halted = false ∧ (keeping 2 3 5).core0.locks = [] ∧ (keeping 2 3 5).kprTag = some 896 := by decide +kernel
/-- Engine 0's watchdog is at 0 in RUN; SC has stopped; a misaligned read, one of a die whose path is away; a queue port. -/
theorem witness_KeeperRequests_more :
    (({ wdLoad := 2, wdog := 0 } : EngSt)).wdogDue = true ∧ ({ state := .run } : EngSt).wdogDue = false ∧
    ({ keeping 2 3 5 with db := { scDead := true } } : State).db.scDead = true ∧ (keeping 2 3 5).flag R.DB_WDT F.DB_WDT.SUSP = false ∧
    0x20000E % 4 ≠ 0 ∧ (keeping 2 3 5).waitsAt 0x1000000 = true ∧ (keeping 2 3 5).waitsAt 0x20000C = false ∧ (keeping 2 3 5).heldAcc = [] ∧
    queuePortAddr (kprAddr [0x100C000, 0]) = true ∧ queuePortAddr (kprAddr [0x1008000, 0]) = false ∧ kprCount [0x1008000, 0] ≤ 28 ∧
    dbclrBits 4 ≠ 0 ∧ dbclrBits 1 = 0 := by decide +kernel
/-- A misaligned RD. -/
theorem witness_KeeperRequests_misaligned : insists 0x10 [0x20000E, 0] = true ∧ (1 : Nat) ≤ 3 := by decide +kernel
theorem witness_KeeperRequests_core : ({ core0 := { pend := true, locks := [4] } } : State).core0.pend = true ∧
    ({ core0 := { halted := true } } : State).core0.halted = true ∧
    (setFlds running [(R.MC_WDT 1, F.MC_WDT.PERIOD, 4)]).fld (R.MC_WDT 1) F.MC_WDT.PERIOD ≠ 0 := by decide +kernel

/-! ### Steps and invariants -/

/-- Two commands wait. -/
theorem witness_StepRunsTheFrontCommand : ({ State.reset with pending := [.hreset, .powerOn] } : State).pending = .hreset :: [.powerOn] := by
  decide +kernel
theorem witness_CommandsAnswerAndLeaveTheQueue : ∃ t, exec .hreset running = .next t := ⟨_, rfl⟩
theorem witness_StepKeepsMemoriesCanonical : Memory.wf running = true ∧ ∃ t, step running = .next t := ⟨by decide +kernel, ⟨_, rfl⟩⟩
theorem witness_StepKeepsQueueLedgers : (queued 3 oneEntry).queuesBalance = true ∧ (queued 3 {}).queuesBalance = true ∧
    ∃ t, step (queued 3 oneEntry) = .next t := ⟨by decide +kernel, by decide +kernel, ⟨_, rfl⟩⟩
theorem witness_StepKeepsLinkAndChainLedgers : linked.leavesBalance = true ∧ linked.chn.tokensBalance = true ∧ linked.chn.doneBalances = true ∧
    ∃ t, step linked = .next t := ⟨by decide +kernel, by decide +kernel, by decide +kernel, ⟨_, rfl⟩⟩
theorem witness_DoneLedger : State.reset.chn.low = false ∧ ({ low := true } : ChnSt).low = true ∧ State.reset.chn.doneBalances = true ∧
    (({ asserted := 1, low := true } : ChnSt).doneBalances) = true ∧ ([0, 1, 2, 3, 4].any fun n => (order n).waitsDone) = true := by decide +kernel

end Sys2Proof.Tests
end

section
/-!
PROOF. Control space (00_scope.md): what an access that need not wait does, what a write and a read of a register do by its type codes (R7, R10),
staged fields and their commit (R8), and what reset leaves (R12, R424).
-/
namespace Sys2Proof.Machine
open Sys2Proof.Claims

/-! ### The register table -/

/-- How far past its base a row reaches. -/
def dimsExtent : List (Nat × Nat) → Nat
  | [] => 1
  | (st, n) :: ds => st * (n - 1) + dimsExtent ds

theorem lt_dimsExtent_of_dimsIx {dims : List (Nat × Nat)} {r : Nat} {ix : List Nat} (h : dimsIx dims r = some ix) :
    r < dimsExtent dims := by
  induction dims generalizing r ix with
  | nil =>
    have h0 : r = 0 := by by_contra hr; simp [dimsIx, hr] at h
    simp [h0, dimsExtent]
  | cons d ds ih =>
    obtain ⟨st, n⟩ := d
    have hlt : r / st < n := by by_contra hr; simp [dimsIx, hr] at h
    rw [dimsIx, if_pos hlt] at h
    obtain ⟨jx, hj, -⟩ := Option.map_eq_some_iff.1 h
    calc r = st * (r / st) + r % st := (Nat.div_add_mod r st).symm
      _ < st * (n - 1) + dimsExtent ds := Nat.add_lt_add_of_le_of_lt (Nat.mul_le_mul_left _ (by omega)) (ih hj)

theorem row_of_regAt {off : Nat} {row : RegRow} {ix : List Nat} (h : regAt off = some (row, ix)) :
    row ∈ regTab ∧ row.at off = some ix := by
  obtain ⟨x, hx, hm⟩ := List.exists_of_findSome?_eq_some h
  obtain ⟨jx, hj, he⟩ := Option.map_eq_some_iff.1 hm
  cases he
  exact ⟨hx, hj⟩

/-- A register lies in the range of offsets of its row. -/
theorem range_of_regAt {off : Nat} {row : RegRow} {ix : List Nat} (h : regAt off = some (row, ix)) :
    row.base ≤ off ∧ off < row.base + dimsExtent row.dims := by
  have hat := (row_of_regAt h).2
  have hge : row.base ≤ off := by by_contra hlt; simp [RegRow.at, Nat.lt_of_not_le hlt] at hat
  rw [RegRow.at, if_neg (by omega)] at hat
  have := lt_dimsExtent_of_dimsIx hat
  omega

/-- No register lies in the live view (R120). -/
theorem regTab_below_liveView : ∀ row ∈ regTab, row.base + dimsExtent row.dims ≤ 0x2000000 := by decide +kernel

/-- DB_WDT, whose BADBEAT a write clears whole, lies in the deadbolt block. -/
theorem regTab_dbWdt_in_deadbolt : ∀ row ∈ regTab, row.kind = .DB_WDT →
    0x50000 ≤ row.base ∧ row.base + dimsExtent row.dims ≤ 0x60000 := by decide +kernel

/-- In a register with RC fields no ST field is WO, and a read of it captures no time. -/
theorem regTab_rc : ∀ row ∈ regTab, row.rc ≠ 0 →
    row.st &&& row.wo = 0 ∧ row.kind ≠ .TBU_NOW_L ∧ row.kind ≠ .TB_FRAMEL := by decide +kernel

/-! ### Accesses that need not wait -/

theorem State.mustWait_of_path (s : State) (h : HeldAcc) (hw : ∀ i < h.words, s.waitsAt (h.off + 4 * i) = false) :
    s.mustWait h false = false := by
  have : (List.range h.words).any (fun i => s.waitsAt (h.off + 4 * i)) = false := by simpa using hw
  simp [State.mustWait, this]

/-- The one access that waits at the hub is made when it need not wait any longer. -/
theorem State.settleHeld_single {a s : State} {h : HeldAcc} (hp : a.power = .on) (ha : a.heldAcc = [h])
    (hs : { a with heldAcc := [] } = s) (hm : s.mustWait h false = false) : a.settleHeld = s.accMake h := by
  have he : s.heldAcc = [] := by rw [← hs]
  rw [State.settleHeld, if_neg (by simp [hp]), ha, hs]
  simp [he, hm]

/-- Where no access waits at the hub and the paths are UP, an access is made at once (R422). -/
theorem State.access_at_once (s : State) (h : HeldAcc) (hp : s.power = .on) (hh : s.heldAcc = [])
    (hw : ∀ i < h.words, s.waitsAt (h.off + 4 * i) = false) : s.access h = s.accMake { h with since := s.tbu.run } :=
  State.settleHeld_single hp (by simp [hh]) (by rw [← hh]) (s.mustWait_of_path { h with since := s.tbu.run } hw)

/-- A host word written through PF0's BAR0 by one of the six initiators. -/
theorem exec_registerWrite_word (s : State) (src : Fin 9) (off : BitVec 26) (v : BitVec 64) (hsrc : src.val < 6) (hp : s.power = .on)
    (hh : s.heldAcc = []) (hal : off.toNat % 4 = 0) (hw : s.waitsAt off.toNat = false) :
    exec (.registerWrite src off 4 v) s = .next (s.busWrite src off.toNat (v.setWidth 32)) := by
  have h6 : src.val ≠ 6 := by omega
  have h7 : ¬ 7 ≤ src.val := by omega
  have hmod : src.val % 6 = src.val := Nat.mod_eq_of_lt hsrc
  have hacc : execRegisterWrite src off 4 v s =
      .next (s.access { src := src, off := off.toNat, since := 0, write := some [v.setWidth 32] }) := by
    simp [execRegisterWrite, hp, h6, h7, barWords, accessWords, hal, hmod]
  show execRegisterWrite src off 4 v s = _
  rw [hacc, s.access_at_once _ hp hh (by simpa [HeldAcc.words] using hw)]
  simp [State.accMake, State.writeRun, hw, State.accAnswer]

/-- A host word read through PF0's BAR0, or by a debug read without CONSUME. -/
theorem exec_readClear_word (s : State) (off : BitVec 26) (how : ReadBy) (hhow : how = .consume ∨ how = .quiet) (hp : s.power = .on)
    (hh : s.heldAcc = []) (hal : off.toNat % 4 = 0) (hw : s.waitsAt off.toNat = false) :
    exec (.readClear off 4 how) s = .next
      ((s.busRead off.toNat (decide (how = .quiet))).2.emit (.busRead off.toNat (s.busRead off.toNat (decide (how = .quiet))).1)) := by
  have hacc : execReadClear off 4 how s =
      .next (s.access { off := off.toNat, write := none, n := 1, quiet := decide (how = .quiet), since := 0 }) := by
    rcases hhow with rfl | rfl <;> simp [execReadClear, hp, barWords, accessWords, hal]
  show execReadClear off 4 how s = _
  rw [hacc, s.access_at_once _ hp hh (by simpa [HeldAcc.words] using hw)]
  simp [State.accMake, State.readRun, State.accAnswer, List.range_succ]

/-! ### What reaches a register -/

/-- The path to a register that is reached is UP, so that no access of it waits. -/
theorem waitsAt_of_reachable {s : State} {off : BitVec 26} {row : RegRow} {ix : List Nat} (h : Reachable s off row ix) :
    s.waitsAt off.toNat = false := by
  obtain ⟨-, -, -, hreg, -, hcut, -⟩ := h
  have hlt : off.toNat < 0x2000000 :=
    (range_of_regAt hreg).2.trans_le (regTab_below_liveView row (row_of_regAt hreg).1)
  cases hd : dieOf off.toNat with
  | none => simp [State.waitsAt, Nat.mod_eq_of_lt hlt, hd]
  | some d =>
    have hup : s.pathUp d = true := by simpa [State.cutOff, hd] using hcut
    simp [State.waitsAt, Nat.mod_eq_of_lt hlt, hd, hup]

theorem kind_ne_dbWdt_of_reachable {s : State} {off : BitVec 26} {row : RegRow} {ix : List Nat} (h : Reachable s off row ix) :
    row.kind ≠ .DB_WDT := by
  obtain ⟨-, -, hdb, hreg, -⟩ := h
  intro hk
  have hrange := range_of_regAt hreg
  have hblock := regTab_dbWdt_in_deadbolt row (row_of_regAt hreg).1 hk
  omega

/-- A write of a register that it reaches and that starts nothing is the write by its type codes (R7). -/
theorem exec_registerWrite_of_reachable {s : State} {src : Fin 9} {off : BitVec 26} {v : BitVec 64} {row : RegRow} {ix : List Nat}
    (hsrc : src.val < 6) (hr : Reachable s off row ix) (hplain : PlainRegister row ix off.toNat) :
    exec (.registerWrite src off 4 v) s = .next (s.writeReg off.toNat (v.setWidth 32)) := by
  have hw := waitsAt_of_reachable hr
  obtain ⟨hp, hal, hdb, hreg, habs, hcut, hheld⟩ := hr
  rw [exec_registerWrite_word s src off v hsrc hp hheld hal hw, State.busWrite, if_neg (by simp [hp]), if_neg (by omega)]
  simpa [hreg, habs, hcut] using hplain s _

/-! ### The write by type codes -/

/-- The bits that a write of `v` clears: those of W1C fields written 1, and the whole of BADBEAT (R7). -/
def RegRow.cleared (row : RegRow) (v : HWord) : HWord :=
  (v &&& row.w1c) ||| ((if row.kind = .DB_WDT ∧ v &&& 0xFFFF ≠ 0 then 0xFFFF else 0) &&& row.w1c)

/-- The value that a write of `v` gives a register holding `r`, `mask` being the bits that take what is written. -/
def RegRow.written (row : RegRow) (mask r v : HWord) : HWord :=
  (((r &&& ~~~mask) ||| (v &&& mask)) &&& ~~~row.cleared v) ||| (v &&& row.w1s)

/-- A register given a value that it may have already; the register file is left alone then. -/
def State.putReg (s : State) (off : Nat) (v : HWord) : State :=
  { s with regs := if v = s.reg off then s.regs else SMap.set (resetVal off) s.regs off v }

theorem State.putReg_eq_ite (s : State) (off : Nat) (v : HWord) : s.putReg off v = if v = s.reg off then s else s.setReg off v := by
  unfold State.putReg
  split <;> rfl

theorem State.reg_putReg (s : State) (a b : Nat) (v : HWord) : (s.putReg a v).reg b = if b = a then v else s.reg b := by
  rw [State.putReg_eq_ite]
  by_cases hv : v = s.reg a
  · by_cases hb : b = a <;> simp [hv, hb]
  · rw [if_neg hv, State.reg_setReg]

theorem State.reg_putReg_same (s : State) (a : Nat) (v : HWord) : (s.putReg a v).reg a = v := by
  rw [State.reg_putReg, if_pos rfl]

theorem regsBut_putReg (s : State) (a : Nat) (v : HWord) : RegsBut s (s.putReg a v) [a] := fun b hb => by
  rw [State.reg_putReg, if_neg (by simpa using hb)]

theorem RegRow.cleared_of_ne_dbWdt {row : RegRow} (h : row.kind ≠ .DB_WDT) (v : HWord) : row.cleared v = v &&& row.w1c := by
  simp [RegRow.cleared, h]

/-- Table 0.5, bit by bit. -/
theorem RegRow.getLsbD_written {row : RegRow} (h : row.kind ≠ .DB_WDT) (mask r v : HWord) {j : Nat} (hj : j < 32) :
    (row.written mask r v).getLsbD j =
      (if row.w1s.getLsbD j = true ∧ v.getLsbD j = true then true
       else if row.w1c.getLsbD j = true ∧ v.getLsbD j = true then false
       else if mask.getLsbD j = true then v.getLsbD j else r.getLsbD j) := by
  simp only [RegRow.written, RegRow.cleared_of_ne_dbWdt h, BitVec.getLsbD_or, BitVec.getLsbD_and, BitVec.getLsbD_not, hj,
    decide_true, Bool.true_and]
  generalize row.w1s.getLsbD j = set, row.w1c.getLsbD j = clear, mask.getLsbD j = take, v.getLsbD j = b, r.getLsbD j = old
  revert set clear take b old
  decide

section
variable {s : State} {off : Nat} {row : RegRow} {ix : List Nat}

theorem writeReg_unstaged (hreg : regAt off = some (row, ix)) (habs : s.absent off row.kind ix = false)
    (hm : stMember row.kind ix = none) (v : HWord) :
    s.writeReg off v = s.putReg off (row.written (writable s row ix) (s.reg off) v) := by
  rw [State.putReg_eq_ite]
  simp only [State.writeReg, hreg, habs, hm]
  rfl

theorem writeReg_staged (hreg : regAt off = some (row, ix)) (habs : s.absent off row.kind ix = false) {m : Nat}
    (hm : stMember row.kind ix = some m) (v : HWord) :
    s.writeReg off v = (s.putReg off (row.written (writable s row ix) (s.reg off) v)).writeStaged m off row.st v := by
  rw [State.putReg_eq_ite]
  simp only [State.writeReg, hreg, habs, hm]
  rfl

end

/-- BADBEAT is cleared whole by a 1 in any of its bits (R7). -/
theorem badbeat_writeReg (s : State) {v : HWord} (hv : v &&& 0xFFFF ≠ 0) :
    (s.writeReg R.DB_WDT v).fld R.DB_WDT F.DB_WDT.BADBEAT = 0 := by
  obtain ⟨row, -, hreg, hkind, hw1c, hw1s⟩ : ∃ row ∈ regTab, regAt R.DB_WDT = some (row, []) ∧ row.kind = .DB_WDT ∧
      row.w1c = 0x8000FFFF ∧ row.w1s = 0 := by decide +kernel
  have habs : s.absent R.DB_WDT row.kind [] = false := by rw [hkind]; rfl
  have hlow : ∀ mask r : HWord, row.written mask r v &&& 0xFFFF = 0 := by
    intro mask r
    simp only [RegRow.written, RegRow.cleared, hkind, hw1c, hw1s, hv, ne_eq, not_false_eq_true, and_self, if_true]
    ext j hj
    have : (0x8000FFFF#32)[j] = ((0xFFFF#32)[j] || decide (j = 31)) := by revert j; decide
    simp [this]
  rw [writeReg_unstaged hreg habs (by rw [hkind]; rfl), State.fld, State.reg_putReg_same]
  have := congrArg BitVec.toNat (hlow (writable s row []) (s.reg R.DB_WDT))
  simpa [getF, bitsOf, F.DB_WDT.BADBEAT, Nat.and_two_pow_sub_one_eq_mod _ 16] using this

/-! ### Staged fields -/

theorem State.liveCopy_le_one (s : State) (m : Nat) : s.liveCopy m ≤ 1 := by
  unfold State.liveCopy
  split <;> omega

theorem State.stAt_setStAt (s : State) {c c' : Nat} (a b : Nat) (v : HWord) (hc : c ≤ 1) (hc' : c' ≤ 1) :
    (s.setStAt c a v).stAt c' b = if c' = c ∧ b = a then v else s.stAt c' b := by
  by_cases h : c' = c ∧ b = a
  · obtain ⟨rfl, rfl⟩ := h
    simpa [State.stAt, State.setStAt] using SMap.get_set_same (resetVal b) s.stv (2 * b + c') v
  · rw [if_neg h]
    exact SMap.get_set_other (resetVal b) (resetVal a) s.stv (2 * a + c) (2 * b + c') v (by omega)

/-- A value staged for member `m` is what its shadow holds. -/
theorem State.staged_setStAt_shadow (s : State) (m off : Nat) (v : HWord) :
    (s.setStAt (1 - s.liveCopy m) off v).staged m off = v := by
  show (s.setStAt _ off v).stAt (1 - s.liveCopy m) off = v
  rw [State.stAt_setStAt _ _ _ _ (by omega) (by omega), if_pos ⟨rfl, rfl⟩]

/-- A value staged for member `m` changes no live value of it, and none of another register. -/
theorem State.live_setStAt_shadow (s : State) (m off : Nat) (v : HWord) {k o : Nat} (h : k = m ∨ o ≠ off) :
    (s.setStAt (1 - s.liveCopy m) off v).live k o = s.live k o := by
  have hm := s.liveCopy_le_one m
  have hk := s.liveCopy_le_one k
  show (s.setStAt _ off v).stAt (s.liveCopy k) o = s.stAt (s.liveCopy k) o
  rw [State.stAt_setStAt _ _ _ _ (by omega) hk, if_neg]
  rintro ⟨hc, ho⟩
  obtain rfl | h := h
  · omega
  · exact h ho

theorem State.liveCopy_flip_same (s : State) (m : Nat) : (s.flip m).liveCopy m = 1 - s.liveCopy m := by
  simp only [State.liveCopy, State.flip, SMap.upd, SMap.get_set_same]
  cases SMap.get false s.bank m <;> rfl

theorem State.liveCopy_flip_other (s : State) {k m : Nat} (h : k ≠ m) : (s.flip m).liveCopy k = s.liveCopy k := by
  simp only [State.liveCopy, State.flip, SMap.upd, SMap.get_set_other _ _ _ _ _ _ h]

/-- The commit of a member makes its shadow live (R8, R111). -/
theorem State.live_flip_same (s : State) (m off : Nat) : (s.flip m).live m off = s.staged m off := by
  rw [State.live, State.liveCopy_flip_same]; rfl

/-- A write refused by a shadow is noted in registers alone (R78, R114). -/
theorem State.noteRefused_staged (s : State) (m : Nat) : (s.noteRefused m).stv = s.stv ∧ (s.noteRefused m).bank = s.bank := by
  simp only [State.noteRefused]
  split <;> split <;> simp

theorem State.live_congr {s t : State} (h : t.stv = s.stv ∧ t.bank = s.bank) (m off : Nat) : t.live m off = s.live m off := by
  simp only [State.live, State.stAt, State.liveCopy, h]

/-! ### The write of a staged field -/

/-- The shadow of member `m` once the staged bits `mask` of a register have been written `v` (R7). -/
def State.staging (s : State) (m off : Nat) (mask v : HWord) : HWord := (s.staged m off &&& ~~~mask) ||| (v &&& mask)

section
variable {s : State} {off : Nat} {row : RegRow} {ix : List Nat} {m : Nat}
  (hreg : regAt off = some (row, ix)) (habs : s.absent off row.kind ix = false) (hm : stMember row.kind ix = some m) (v : HWord)
include hreg habs hm

/-- A shadow that takes the write. -/
theorem writeReg_staged_free (hfree : s.shadowBusy m = false) :
    s.writeReg off v = (s.putReg off (row.written (writable s row ix) (s.reg off) v)).setStAt (1 - s.liveCopy m) off
      (s.staging m off row.st v) := by
  rw [writeReg_staged hreg habs hm]
  exact if_neg (ne_true_of_eq_false hfree)

/-- A shadow that refuses it (R78, R114). -/
theorem writeReg_staged_busy (hbusy : s.shadowBusy m = true) :
    s.writeReg off v = (s.putReg off (row.written (writable s row ix) (s.reg off) v)).noteRefused m := by
  rw [writeReg_staged hreg habs hm]
  exact if_pos hbusy

/-- Free or not, the write changes no live value of the register's member, and none of another register. -/
theorem live_writeReg_staged {k o : Nat} (h : k = m ∨ o ≠ off) : (s.writeReg off v).live k o = s.live k o := by
  by_cases hbusy : s.shadowBusy m = true
  · rw [writeReg_staged_busy hreg habs hm v hbusy, State.live_congr (State.noteRefused_staged _ m)]
    rfl
  · rw [writeReg_staged_free hreg habs hm v (eq_false_of_ne_true hbusy)]
    exact (s.putReg off _).live_setStAt_shadow m off _ h

theorem bank_writeReg_staged : (s.writeReg off v).bank = s.bank := by
  by_cases hbusy : s.shadowBusy m = true
  · rw [writeReg_staged_busy hreg habs hm v hbusy, (State.noteRefused_staged _ m).2]
    rfl
  · rw [writeReg_staged_free hreg habs hm v (eq_false_of_ne_true hbusy)]
    rfl

theorem staged_writeReg_free (hfree : s.shadowBusy m = false) : (s.writeReg off v).staged m off = s.staging m off row.st v := by
  rw [writeReg_staged_free hreg habs hm v hfree]
  exact (s.putReg off _).staged_setStAt_shadow m off _

end

/-- A write that no shadow refuses changes the register by its row, and beside it staged values alone. -/
theorem writeReg_free_spec {s : State} {off : Nat} {row : RegRow} {ix : List Nat} (hreg : regAt off = some (row, ix))
    (habs : s.absent off row.kind ix = false) (hfree : ∀ m, stMember row.kind ix = some m → s.shadowBusy m = false) (v : HWord) :
    let t := s.writeReg off v
    t = { s with regs := t.regs, stv := t.stv } ∧ (stMember row.kind ix = none → t.stv = s.stv) ∧ RegsBut s t [off] ∧
      t.reg off = row.written (writable s row ix) (s.reg off) v := by
  cases hm : stMember row.kind ix with
  | none =>
    rw [writeReg_unstaged hreg habs hm]
    exact ⟨rfl, fun _ => rfl, regsBut_putReg s off _, s.reg_putReg_same off _⟩
  | some m =>
    rw [writeReg_staged_free hreg habs hm v (hfree m hm)]
    exact ⟨rfl, nofun, regsBut_putReg s off _, s.reg_putReg_same off _⟩

/-- A second write of the same staged bits takes the place of the first (R8). -/
theorem staging_over {s t : State} {m off : Nat} {mask v v' : HWord} (h : t.staged m off = s.staging m off mask v) :
    t.staging m off mask v' = s.staging m off mask v' := by
  rw [State.staging, State.staging, h, State.staging]
  ext j hj
  simp only [BitVec.getElem_or, BitVec.getElem_and, BitVec.getElem_not]
  cases mask[j] <;> simp

/-! ### What a staged write leaves reached -/

/-- The registers that say whether a register is there and its die's path UP: the part number, the dies' steppings, and the hinges on the way
to a die (R1, R422). -/
def presenceRegs : List Nat := [R.HUB_PARTID, R.HUB_STEP, R.HNG_STAT 0, R.HNG_STAT 2, R.HNG_STAT 3, R.HNG_STAT 5, R.HNG_STAT 7]

theorem presenceRegs_unstaged : ∀ o ∈ presenceRegs, (regAt o).bind (fun x => stMember x.1.kind x.2) = none := by decide +kernel

theorem absent_congr {s t : State} (hd : t.dies = s.dies) (h : ∀ o ∈ presenceRegs, t.reg o = s.reg o) (off : Nat) (k : RegKind)
    (ix : List Nat) : t.absent off k ix = s.absent off k ix := by
  have hpart := h R.HUB_PARTID (by simp [presenceRegs])
  have hstep := h R.HUB_STEP (by simp [presenceRegs])
  simp only [State.absent, State.dieDark, State.fld, hd, hpart, hstep]
  rfl

theorem cutOff_congr {s t : State} (hd : t.dies = s.dies) (h : ∀ o ∈ presenceRegs, t.reg o = s.reg o) (off : Nat) :
    t.cutOff off = s.cutOff off := by
  have hup : ∀ d, t.pathUp d = s.pathUp d := by
    intro d
    simp only [presenceRegs, List.forall_mem_cons] at h
    obtain ⟨-, -, h0, h2, h3, h5, h7, -⟩ := h
    simp only [State.pathUp, State.hingeState, State.fld, hd, h0, h2, h3, h5, h7]
    rfl
  simp only [State.cutOff, hup]

/-- A register that has a staged field is still reached when nothing but it and staged values have changed. -/
theorem reachable_of_staged_write {s t : State} {off : BitVec 26} {row : RegRow} {ix : List Nat} {m : Nat} (hr : Reachable s off row ix)
    (hm : stMember row.kind ix = some m) (ht : t = { s with regs := t.regs, stv := t.stv }) (hb : RegsBut s t [off.toNat]) :
    Reachable t off row ix := by
  obtain ⟨hp, hal, hdb, hreg, habs, hcut, hheld⟩ := hr
  have hd : t.dies = s.dies := by rw [ht]
  have h : ∀ o ∈ presenceRegs, t.reg o = s.reg o := by
    intro o ho
    refine hb o (fun he => ?_)
    have := presenceRegs_unstaged o ho
    simp [List.mem_singleton.1 he, hreg, hm] at this
  refine ⟨?_, hal, hdb, hreg, ?_, ?_, ?_⟩
  · rw [ht]; exact hp
  · rw [absent_congr hd h]; exact habs
  · rw [cutOff_congr hd h]; exact hcut
  · rw [ht]; exact hheld

/-- Settles O2: a staged write goes to the copy that is not live, where the next write overlays the same bits and a commit finds it. -/
theorem stagedWritesWaitForCommit : Obligations.StagedWritesWaitForCommit := by
  intro s src off v v' row ix m hsrc hr hplain hm
  have ⟨_, _, _, hreg, habs, _, _⟩ := hr
  have hexec := exec_registerWrite_of_reachable (v := v) hsrc hr hplain
  refine ⟨⟨_, hexec, bank_writeReg_staged hreg habs hm _, live_writeReg_staged hreg habs hm _ (.inl rfl),
    fun k o ho => live_writeReg_staged hreg habs hm _ (.inr ho), fun hfree => ?_, fun hbusy => ?_⟩,
    fun t hfree ht => ?_, s.live_flip_same m _, fun k hk => s.liveCopy_flip_other hk⟩
  case _ =>
    exact ⟨(writeReg_free_spec hreg habs (by simpa [hm] using hfree) _).1, staged_writeReg_free hreg habs hm _ hfree⟩
  case _ => rw [writeReg_staged_busy hreg habs hm _ hbusy, (State.noteRefused_staged _ m).1]; rfl
  case _ =>
    have hte : t = s.writeReg off.toNat (v.setWidth 32) := by simpa [hexec] using ht.symm
    have hspec := writeReg_free_spec hreg habs (by simpa [hm] using hfree) (v.setWidth 32)
    rw [← hte] at hspec
    obtain ⟨hframe, -, hbut, -⟩ := hspec
    have hrt : Reachable t off row ix := reachable_of_staged_write hr hm hframe hbut
    have hfreet : t.shadowBusy m = false := by rw [hframe]; exact hfree
    have ⟨_, _, _, _, habst, _, _⟩ := hrt
    refine ⟨_, exec_registerWrite_of_reachable hsrc hrt hplain, ?_⟩
    rw [staged_writeReg_free hreg habst hm _ hfreet]
    exact staging_over (hte ▸ staged_writeReg_free hreg habs hm _ hfree)

/-! ### Reads -/

/-- A read of the register captures neither the time (R105) nor a frame number (R106). -/
def CapturesNothing (row : RegRow) (ix : List Nat) : Prop := row.kind ≠ .TBU_NOW_L ∧ ∀ t, ¬ (row.kind = .TB_FRAMEL ∧ ix = [t])

/-- The value of a read by type codes, `r` being what the register shows and `x` what its shadow holds (R7). -/
def RegRow.shown (row : RegRow) (r x : HWord) : HWord := (r &&& ~~~(row.wo ||| row.st)) ||| (x &&& row.st)

/-- What a read leaves in a register that held `r`, its reset value being `r0` (R10). -/
def RegRow.consumed (row : RegRow) (r0 r : HWord) : HWord := (r &&& ~~~row.rc) ||| (r0 &&& row.rc)

theorem RegRow.getLsbD_shown {row : RegRow} {j : Nat} (hj : j < 32) (hwo : row.wo.getLsbD j = false) (hst : row.st.getLsbD j = false)
    (r x : HWord) : (row.shown r x).getLsbD j = r.getLsbD j := by
  rw [RegRow.shown, BitVec.getLsbD_or, BitVec.getLsbD_and, BitVec.getLsbD_and, BitVec.getLsbD_not, BitVec.getLsbD_or]
  simp only [hj, hwo, hst, decide_true, Bool.or_self, Bool.not_false, Bool.and_true, Bool.and_false, Bool.or_false]

theorem RegRow.shown_writeOnly (row : RegRow) (r x : HWord) : row.shown r x &&& row.wo &&& ~~~row.st = 0 := by
  ext j hj
  simp only [RegRow.shown, BitVec.getElem_or, BitVec.getElem_and, BitVec.getElem_not]
  cases row.wo[j] <;> cases row.st[j] <;> simp

theorem RegRow.shown_writeOnly_of_disjoint {row : RegRow} (h : row.st &&& row.wo = 0) (r x : HWord) : row.shown r x &&& row.wo = 0 := by
  ext j hj
  have hj' : (row.st[j] && row.wo[j]) = false := by
    rw [← BitVec.getElem_and, h]
    exact BitVec.getElem_zero hj
  simp only [RegRow.shown, BitVec.getElem_or, BitVec.getElem_and, BitVec.getElem_not]
  revert hj'
  cases row.wo[j] <;> cases row.st[j] <;> simp

theorem RegRow.shown_staged (row : RegRow) (r x : HWord) : row.shown r x &&& row.st = x &&& row.st := by
  ext j hj
  simp only [RegRow.shown, BitVec.getElem_or, BitVec.getElem_and, BitVec.getElem_not]
  cases row.st[j] <;> simp

theorem RegRow.consumed_of_rc_zero {row : RegRow} (h : row.rc = 0) (r0 r : HWord) : row.consumed r0 r = r := by
  rw [RegRow.consumed, h]
  exact (congrArg₂ (· ||| ·) BitVec.and_allOnes BitVec.and_zero).trans BitVec.or_zero

section
variable {s : State} {off : Nat} {row : RegRow} {ix : List Nat}

/-- What a read of a register returns, by its type codes: the staged value where a member stages it (R7, R120). -/
theorem busValue_eq_shown (hlow : off < 0x800000 ∨ 0x900000 ≤ off) (hreg : regAt off = some (row, ix))
    (habs : s.absent off row.kind ix = false) (hcut : s.cutOff off = false) :
    ∃ x, s.busValue off false = row.shown (s.viewOf row.kind ix (s.reg off)) x ∧ ∀ m, stMember row.kind ix = some m → x = s.staged m off := by
  have hout : ¬ (0x800000 ≤ off ∧ off < 0x900000) := by omega
  cases hm : stMember row.kind ix with
  | none => exact ⟨0, by simp [State.busValue, hout, hreg, habs, hcut, hm, RegRow.shown], by simp⟩
  | some m => exact ⟨s.staged m off, by simp [State.busValue, hout, hreg, habs, hcut, hm, RegRow.shown], by simp⟩

/-- A read of a register that captures no time clears its RC fields to their reset values (R10). -/
theorem readEffect_eq (hreg : regAt off = some (row, ix)) (habs : s.absent off row.kind ix = false) (hcut : s.cutOff off = false)
    (hcap : CapturesNothing row ix) :
    s.readEffect off = if row.rc = 0 then s else s.setReg off (row.consumed (resetVal off) (s.reg off)) := by
  simp only [State.readEffect, hreg, habs, hcut, Bool.or_self, Bool.false_eq_true, if_false]
  split
  case _ hk => exact absurd hk hcap.1
  case _ hk => exact absurd ⟨hk, rfl⟩ (hcap.2 _)
  case _ => rfl

/-- It changes nothing else. -/
theorem readEffect_spec (hreg : regAt off = some (row, ix)) (habs : s.absent off row.kind ix = false) (hcut : s.cutOff off = false)
    (hcap : CapturesNothing row ix) :
    s.readEffect off = { s with regs := (s.readEffect off).regs } ∧ RegsBut s (s.readEffect off) [off] ∧
      (s.readEffect off).reg off = row.consumed (resetVal off) (s.reg off) := by
  rw [readEffect_eq hreg habs hcut hcap]
  by_cases hrc : row.rc = 0
  · simp [hrc, RegRow.consumed_of_rc_zero, RegsBut]
  · rw [if_neg hrc]
    exact ⟨rfl, fun o ho => s.reg_setReg_other _ (by simpa using ho), s.reg_setReg_same off _⟩

end

/-- A register that shows what the register file holds captures no time. -/
theorem capturesNothing_of_showsItself {row : RegRow} {ix : List Nat} (h : ShowsItself row ix) : CapturesNothing row ix := by
  have h01 : State.reset.viewOf row.kind ix 0 ≠ State.reset.viewOf row.kind ix 1 := by
    rw [h, h]; decide
  refine ⟨fun hk => h01 ?_, fun t ht => h01 ?_⟩
  · rw [hk]; rfl
  · rw [ht.1, ht.2]; rfl

/-- Nor does one that a member stages. -/
theorem capturesNothing_of_staged {row : RegRow} {ix : List Nat} {m : Nat} (h : stMember row.kind ix = some m) :
    CapturesNothing row ix := by
  refine ⟨fun hk => ?_, fun t ht => ?_⟩
  · rw [hk] at h; cases h
  · rw [ht.1, ht.2] at h; cases h

/-- A read of a register that it reaches sends its value, and takes effect unless it is quiet (R10, R409). -/
theorem exec_readClear_of_reachable {s : State} {off : BitVec 26} {row : RegRow} {ix : List Nat} {how : ReadBy}
    (hhow : how = .consume ∨ how = .quiet) (hr : Reachable s off row ix) (hview : off.toNat < 0x2000000) :
    exec (.readClear off 4 how) s = .next
      ((if how = .quiet then s else s.readEffect off.toNat).emit (.busRead off.toNat (s.busValue off.toNat false))) := by
  have hw := waitsAt_of_reachable hr
  obtain ⟨hp, hal, -, -, -, -, hheld⟩ := hr
  rw [exec_readClear_word s off how hhow hp hheld hal hw, State.busRead, if_neg (by omega)]
  simp

/-- What such a read leaves where it captures nothing. -/
theorem exec_readClear_spec {s : State} {off : BitVec 26} {row : RegRow} {ix : List Nat} {how : ReadBy}
    (hhow : how = .consume ∨ how = .quiet) (hr : Reachable s off row ix) (hview : off.toNat < 0x2000000) (hcap : CapturesNothing row ix) :
    ∃ t, exec (.readClear off 4 how) s = .next t ∧
      t = { s with regs := t.regs, out := .busRead off.toNat (s.busValue off.toNat false) :: s.out } ∧ RegsBut s t [off.toNat] ∧
      t.reg off.toNat = if how = .quiet then s.reg off.toNat else row.consumed (resetVal off.toNat) (s.reg off.toNat) := by
  refine ⟨_, exec_readClear_of_reachable hhow hr hview, ?_⟩
  obtain ⟨-, -, -, hreg, habs, hcut, -⟩ := hr
  by_cases hq : how = .quiet
  · rw [if_pos hq, if_pos hq]
    exact ⟨rfl, fun _ _ => rfl, rfl⟩
  · rw [if_neg hq, if_neg hq]
    obtain ⟨hframe, hbut, hval⟩ := readEffect_spec hreg habs hcut hcap
    exact ⟨congrArg (State.emit · _) hframe, hbut, hval⟩

/-- Settles O1: an access of a register that is reached is made at once, a write by `State.writeReg`, a read by `State.busValue` and
`State.readEffect`, and each follows the register's row bit by bit. -/
theorem registerTypeCodes : Obligations.RegisterTypeCodes := by
  refine ⟨?write, fun s v hv => badbeat_writeReg s hv, ?shows, ?clears, ?staged⟩
  case write =>
    intro s src off v row ix hsrc hr hplain hfree
    have ⟨_, _, _, hreg, habs, _, _⟩ := hr
    obtain ⟨hframe, hstv, hbut, hval⟩ := writeReg_free_spec hreg habs hfree (v.setWidth 32)
    refine ⟨_, exec_registerWrite_of_reachable hsrc hr hplain, hframe, hstv, hbut, fun j hj => ?_⟩
    rw [hval, RegRow.getLsbD_written (kind_ne_dbWdt_of_reachable hr) _ _ _ hj]
    simp only [BitVec.getLsbD_setWidth, hj, decide_true, Bool.true_and]
  case shows =>
    intro s off row ix how hhow hr hlow hview hshow
    have ⟨_, _, _, hreg, habs, hcut, _⟩ := hr
    obtain ⟨t, hexec, hframe, hbut, hval⟩ := exec_readClear_spec hhow hr hview (capturesNothing_of_showsItself hshow)
    obtain ⟨x, hx, -⟩ := busValue_eq_shown hlow hreg habs hcut
    rw [hshow] at hx
    refine ⟨t, _, hexec, hframe, fun j hj hwo hst => ?_, ?_, hbut, hval⟩
    · rw [hx, RegRow.getLsbD_shown hj hwo hst]
    · rw [hx, RegRow.shown_writeOnly]
  case clears =>
    intro s off row ix how hhow hr hlow hview hrc
    have ⟨_, _, _, hreg, habs, hcut, _⟩ := hr
    obtain ⟨hdisj, hnow, hframel⟩ := regTab_rc row (row_of_regAt hreg).1 hrc
    obtain ⟨t, hexec, hframe, hbut, hval⟩ := exec_readClear_spec hhow hr hview ⟨hnow, fun _ ht => hframel ht.1⟩
    obtain ⟨x, hx, -⟩ := busValue_eq_shown hlow hreg habs hcut
    exact ⟨t, hexec, hframe, by rw [hx, RegRow.shown_writeOnly_of_disjoint hdisj], hbut, hval⟩
  case staged =>
    intro s off row ix m hr hlow hview hrc hm
    have ⟨_, _, _, hreg, habs, hcut, _⟩ := hr
    obtain ⟨x, hx, hstaged⟩ := busValue_eq_shown hlow hreg habs hcut
    have heffect := readEffect_eq hreg habs hcut (capturesNothing_of_staged hm)
    rw [if_pos hrc] at heffect
    refine ⟨?_, by rw [hx, RegRow.shown_staged, hstaged m hm], by rw [hx, RegRow.shown_writeOnly]⟩
    rw [exec_readClear_of_reachable (.inl rfl) hr hview, if_neg nofun, heffect]
    rfl

/-! ### Reset -/

theorem resetVal_evtRaised : ∀ k < 54, resetVal (R.EVT_RAISED k) = 0 := by decide +kernel

theorem State.reg_reset (off : Nat) : State.reset.reg off = resetVal off := rfl

/-- No event source is raised at reset. -/
theorem State.raised_reset {n : Nat} (h : n < 1704) : State.reset.raised n = false := by
  rw [State.raised, State.reg_reset, resetVal_evtRaised (n / 32) (by omega)]
  simp

/-- Settles O54: the reset state lists no register, no staged value and no entry of a memory, so that each reads as its table's value. -/
theorem resetLeavesTheTablesValues : Obligations.ResetLeavesTheTablesValues := by
  refine ⟨State.reg_reset, fun _ _ => rfl, ?_, ?_, ?_, ?_, ?_, ?_, ?_, ?_, fun _ _ => rfl, fun _ _ => rfl, fun _ => State.raised_reset, rfl, ?_⟩
  all_goals decide +kernel

end Sys2Proof.Machine
end

section
/-!
PROOF. The diagnostic override registers (R423, Tables 18.3 and 18.4), and the credit fields of a link's ledger that they rest on (Table 8.11).
-/
namespace Sys2Proof.Machine
open Sys2Proof.Claims

/-! ### One field of a number replaced -/

/-- A number with the field of `w` bits at `lo` replaced, in three parts. -/
theorem replaced_parts (x lo w m : Nat) : x - x / 2 ^ lo % 2 ^ w * 2 ^ lo + m * 2 ^ lo =
    x / 2 ^ (lo + w) * 2 ^ (lo + w) + m * 2 ^ lo + x % 2 ^ lo := by
  have := field_parts x lo w
  omega

theorem parts_lt {x m lo w N : Nat} (hx : x < 2 ^ N) (hm : m < 2 ^ w) (hN : lo + w ≤ N) :
    x / 2 ^ (lo + w) * 2 ^ (lo + w) + m * 2 ^ lo + x % 2 ^ lo < 2 ^ N := by
  have hpow : 2 ^ N = 2 ^ (N - (lo + w)) * 2 ^ (lo + w) := by rw [← Nat.pow_add, Nat.sub_add_cancel hN]
  have hlow : x % 2 ^ lo < 2 ^ lo := Nat.mod_lt _ (Nat.two_pow_pos lo)
  have htop : x / 2 ^ (lo + w) + 1 ≤ 2 ^ (N - (lo + w)) := by
    rw [Nat.succ_le_iff, Nat.div_lt_iff_lt_mul (Nat.two_pow_pos _), ← hpow]
    exact hx
  have hfield : (m + 1) * 2 ^ lo ≤ 2 ^ w * 2 ^ lo := Nat.mul_le_mul_right _ hm
  calc x / 2 ^ (lo + w) * 2 ^ (lo + w) + m * 2 ^ lo + x % 2 ^ lo
      < x / 2 ^ (lo + w) * 2 ^ (lo + w) + (m + 1) * 2 ^ lo := by rw [Nat.add_mul]; omega
    _ ≤ x / 2 ^ (lo + w) * 2 ^ (lo + w) + 2 ^ (lo + w) := by rw [Nat.pow_add, Nat.mul_comm (2 ^ lo)]; omega
    _ = (x / 2 ^ (lo + w) + 1) * 2 ^ (lo + w) := by rw [Nat.add_mul, Nat.one_mul]
    _ ≤ 2 ^ N := by rw [hpow]; exact Nat.mul_le_mul_right _ htop

/-! ### The channel fields of a link -/

/-- The channel fields `x` of a link with that of channel `v` replaced. -/
def chanReplaced (l x v n : Nat) : Nat := x - chanField l x v * 2 ^ (fieldW l * v) + n * 2 ^ (fieldW l * v)

theorem chanReplaced_eq_parts (l x v n : Nat) : chanReplaced l x v n =
    x / 2 ^ (fieldW l * v + fieldW l) * 2 ^ (fieldW l * v + fieldW l) + n * 2 ^ (fieldW l * v) + x % 2 ^ (fieldW l * v) :=
  replaced_parts x _ _ n

theorem chanField_chanReplaced_same {l n : Nat} (x v : Nat) (hn : n < 2 ^ fieldW l) : chanField l (chanReplaced l x v n) v = n := by
  rw [chanReplaced_eq_parts, chanField, parts_div (Nat.mod_lt _ (Nat.two_pow_pos _)), Nat.mul_add_mod', Nat.mod_eq_of_lt hn]

/-- A channel's field, from the bits below its end. -/
theorem chanField_eq_mod_div (l x v : Nat) : chanField l x v = x % 2 ^ (fieldW l * (v + 1)) / 2 ^ (fieldW l * v) := by
  rw [chanField, Nat.mul_succ, Nat.pow_add, Nat.mod_mul_right_div_self]

/-- A channel's field, from the bits above the end of a channel before it. -/
theorem chanField_eq_div_div {k v : Nat} (l x : Nat) (h : v < k) :
    chanField l x k = x / 2 ^ (fieldW l * (v + 1)) / 2 ^ (fieldW l * (k - (v + 1))) % 2 ^ fieldW l := by
  rw [chanField, Nat.div_div_eq_div_mul, ← Nat.pow_add, ← Nat.mul_add, Nat.add_sub_cancel' h]

theorem chanField_chanReplaced_other {l n v k : Nat} (x : Nat) (hn : n < 2 ^ fieldW l) (hk : k ≠ v) :
    chanField l (chanReplaced l x v n) k = chanField l x k := by
  have hlow : x % 2 ^ (fieldW l * v) < 2 ^ (fieldW l * v) := Nat.mod_lt _ (Nat.two_pow_pos _)
  rcases Nat.lt_or_gt_of_ne hk with hlt | hgt
  · have hmod : chanReplaced l x v n % 2 ^ (fieldW l * v) = x % 2 ^ (fieldW l * v) := by
      rw [chanReplaced_eq_parts, Nat.pow_add, Nat.mul_comm (2 ^ (fieldW l * v)), ← Nat.mul_assoc, ← Nat.add_mul, Nat.mul_add_mod',
        Nat.mod_mod]
    have hdvd : 2 ^ (fieldW l * (k + 1)) ∣ 2 ^ (fieldW l * v) := Nat.pow_dvd_pow 2 (Nat.mul_le_mul_left _ hlt)
    rw [chanField_eq_mod_div, chanField_eq_mod_div, ← Nat.mod_mod_of_dvd _ hdvd, hmod, Nat.mod_mod_of_dvd _ hdvd]
  · have hdiv : chanReplaced l x v n / 2 ^ (fieldW l * (v + 1)) = x / 2 ^ (fieldW l * (v + 1)) := by
      rw [chanReplaced_eq_parts, Nat.mul_succ, Nat.pow_add, ← Nat.div_div_eq_div_mul, ← Nat.pow_add, parts_div hlow,
        Nat.mul_comm, Nat.mul_add_div (Nat.two_pow_pos _), Nat.div_eq_of_lt hn, Nat.add_zero]
    rw [chanField_eq_div_div l _ hgt, chanField_eq_div_div l _ hgt, hdiv]

theorem chanReplaced_lt {l x v n N : Nat} (hx : x < 2 ^ N) (hn : n < 2 ^ fieldW l) (hN : fieldW l * v + fieldW l ≤ N) :
    chanReplaced l x v n < 2 ^ N := by
  rw [chanReplaced_eq_parts]
  exact parts_lt hx hn hN

/-! ### The ledger of a link -/

theorem State.led_setLed_same (s : State) (l i : Nat) (v : HWord) : (s.setLed l i v).led l i = v := SMap.get_set_same _ _ _ _

theorem State.led_setLed_other (s : State) {l i j : Nat} (v : HWord) (h : j ≠ i) : (s.setLed l i v).led l j = s.led l j := by
  refine SMap.get_set_other _ _ _ _ _ _ ?_
  unfold ledOff R.HNGTR_LEDGER R.HTR_LEDGER R.TR_LEDGER
  split_ifs <;> omega

/-- Bits in the two counters that hold the channel fields of a link. -/
def chanBits (l : Nat) : Nat := if wideLink l then 64 else 32

theorem State.chanFields_lt (s : State) (l i j : Nat) : s.chanFields l i j < 2 ^ chanBits l := by
  have hi := (s.led l i).isLt
  have hj := (s.led l j).isLt
  unfold State.chanFields chanBits
  split_ifs <;> omega

theorem State.chanFields_setChanFields (s : State) {l i j n : Nat} (hij : i ≠ j) (hn : n < 2 ^ chanBits l) :
    (s.setChanFields l i j n).chanFields l i j = n := by
  unfold chanBits at hn
  unfold State.setChanFields State.chanFields
  by_cases hw : wideLink l = true
  · simp only [hw, if_true] at hn ⊢
    rw [State.led_setLed_other _ _ hij, State.led_setLed_same, State.led_setLed_same, BitVec.toNat_ofNat, BitVec.toNat_ofNat,
      Nat.mod_eq_of_lt (a := n / 2 ^ 32) (by omega)]
    omega
  · simp only [hw] at hn ⊢
    rw [if_neg Bool.false_ne_true, if_neg Bool.false_ne_true, State.led_setLed_same, BitVec.toNat_ofNat, Nat.mod_eq_of_lt (by simpa using hn)]
    rfl

theorem State.setAvail_eq (s : State) (l v n : Nat) :
    s.setAvail l v n = s.setChanFields l 2 11 (chanReplaced l (s.chanFields l 2 11) v n) := rfl

theorem fieldW_mul_le {l v : Nat} (hv : v < 8) : fieldW l * v + fieldW l ≤ chanBits l := by
  unfold fieldW chanBits
  split <;> omega

theorem State.chanFields_setAvail (s : State) {l v n : Nat} (hv : v < 8) (hn : n < 2 ^ fieldW l) :
    (s.setAvail l v n).chanFields l 2 11 = chanReplaced l (s.chanFields l 2 11) v n :=
  s.chanFields_setChanFields (by decide) (chanReplaced_lt (s.chanFields_lt l 2 11) hn (fieldW_mul_le hv))

/-- The credits of a channel after they have been given a number that its field holds. -/
theorem State.avail_setAvail_same (s : State) {l v n : Nat} (hv : v < 8) (hn : n < 2 ^ fieldW l) : (s.setAvail l v n).avail l v = n := by
  rw [State.avail, s.chanFields_setAvail hv hn, chanField_chanReplaced_same _ _ hn]

theorem State.avail_setAvail_other (s : State) {l v n k : Nat} (hv : v < 8) (hn : n < 2 ^ fieldW l) (hk : k ≠ v) :
    (s.setAvail l v n).avail l k = s.avail l k := by
  rw [State.avail, s.chanFields_setAvail hv hn, chanField_chanReplaced_other _ hn hk, State.avail]

theorem State.avail_lt (s : State) (l v : Nat) : s.avail l v < 2 ^ fieldW l := Nat.mod_lt _ (Nat.two_pow_pos _)

/-- The credits are held in the ledger alone. -/
theorem State.setAvail_frame (s : State) (l v n : Nat) : s.setAvail l v n = { s with ledger := (s.setAvail l v n).ledger } := by
  rw [State.setAvail_eq, State.setChanFields]
  split <;> rfl

/-! ### DIAG_OVR -/

/-- DIAG_OVR is set, and nothing else has changed. -/
def OnlyDiagOvr (s t : State) : Prop :=
  t = { s with regs := t.regs } ∧ RegsBut s t [R.HUB_INTEGRITY] ∧ t.flag R.HUB_INTEGRITY F.HUB_INTEGRITY.DIAG_OVR = true

theorem onlyDiagOvr_diagWritten (s : State) : OnlyDiagOvr s s.diagWritten :=
  ⟨rfl, fun _ ho => s.reg_setFld_other _ _ (by simpa using ho), s.flag_setFld_one _ _ (by decide) (by decide)⟩

/-! ### DIAG_INJ -/

theorem diagKey_diagInjWord (key : BitVec 16) {tgt kind : Nat} (ht : tgt < 64) (hk : kind < 16) :
    diagKey (diagInjWord key tgt kind) = decide (key = 0xD1A6) := by
  have hkey := key.isLt
  rw [diagKey, decide_eq_decide, diagInjWord, BitVec.toNat_ofNat, BitVec.toNat_eq, show (0xD1A6 : BitVec 16).toNat = 0xD1A6 from rfl]
  omega

theorem getF_diagInjWord {tgt kind : Nat} (key : BitVec 16) (ht : tgt < 64) (hk : kind < 16) :
    getF (diagInjWord key tgt kind) F.DIAG_INJ.TGT = tgt ∧ getF (diagInjWord key tgt kind) F.DIAG_INJ.KIND = kind := by
  have hkey := key.isLt
  simp only [getF, bitsOf, diagInjWord, BitVec.toNat_ofNat, F.DIAG_INJ.TGT, F.DIAG_INJ.KIND]
  omega

/-- A write of DIAG_INJ with another KEY arms nothing (Table 18.3). -/
theorem State.diagInjWrite_otherKey (s : State) {key : BitVec 16} (hkey : key ≠ 0xD1A6) {tgt kind : Nat} (ht : tgt < 64) (hk : kind < 16) :
    s.diagInjWrite (diagInjWord key tgt kind) = s.diagWritten := by
  have hno : ¬ diagKey (diagInjWord key tgt kind) = true := by rw [diagKey_diagInjWord key ht hk]; simpa using hkey
  exact if_pos hno

/-- Kinds 1 and 2 arm an injection of one or two symbols at a sub-channel. -/
theorem State.diagInjWrite_ddr (s : State) {tgt kind : Nat} (ht : tgt < 64) (hk : kind = 1 ∨ kind = 2) :
    s.diagInjWrite (diagInjWord 0xD1A6 tgt kind) = s.diagWritten.injectDdr tgt kind := by
  have hlt : kind < 16 := by omega
  obtain ⟨htgt, hkind⟩ := getF_diagInjWord 0xD1A6 ht hlt
  simp only [State.diagInjWrite, diagKey_diagInjWord 0xD1A6 ht hlt, htgt, hkind, decide_true, not_true, if_false]
  rcases hk with rfl | rfl <;> rfl

/-- Kind 3 arms the inversion of a parity bit at a hub port. -/
theorem State.diagInjWrite_parity (s : State) {tgt : Nat} (ht : tgt < 64) : s.diagInjWrite (diagInjWord 0xD1A6 tgt 3) =
    if tgt ≤ 32 then { s.diagWritten with hubPar := SMap.set false s.hubPar tgt true } else s.diagWritten := by
  have hlt : 3 < 16 := by decide
  obtain ⟨htgt, hkind⟩ := getF_diagInjWord 0xD1A6 ht hlt
  simp only [State.diagInjWrite, diagKey_diagInjWord 0xD1A6 ht hlt, htgt, hkind, decide_true, not_true, if_false]
  rfl

/-- Kind 4 arms the inversion of a flit's CRC at a hub hinge. -/
theorem State.diagInjWrite_flitCrc (s : State) {tgt : Nat} (ht : tgt < 64) : s.diagInjWrite (diagInjWord 0xD1A6 tgt 4) =
    s.diagWritten.setHinge (tgt % 2) { s.hinge (tgt % 2) with injCrc := true } := by
  have hlt : 4 < 16 := by decide
  obtain ⟨htgt, hkind⟩ := getF_diagInjWord 0xD1A6 ht hlt
  simp only [State.diagInjWrite, diagKey_diagInjWord 0xD1A6 ht hlt, htgt, hkind, decide_true, not_true, if_false]
  rfl

/-! ### DIAG_CRED -/

theorem diagKey_diagCredWord (key : BitVec 16) {port vc sub : Nat} (hp : port < 64) (hv : vc < 8) (hs : sub < 2) :
    diagKey (diagCredWord key port vc sub) = decide (key = 0xD1A6) := by
  have hkey := key.isLt
  rw [diagKey, decide_eq_decide, diagCredWord, BitVec.toNat_ofNat, BitVec.toNat_eq, show (0xD1A6 : BitVec 16).toNat = 0xD1A6 from rfl]
  omega

theorem getF_diagCredWord (key : BitVec 16) {port vc sub : Nat} (hp : port < 64) (hv : vc < 8) (hs : sub < 2) :
    getF (diagCredWord key port vc sub) F.DIAG_CRED.PORT = port ∧ getF (diagCredWord key port vc sub) F.DIAG_CRED.VC = vc ∧
      getF (diagCredWord key port vc sub) F.DIAG_CRED.SUB = sub := by
  have hkey := key.isLt
  simp only [getF, bitsOf, diagCredWord, BitVec.toNat_ofNat, F.DIAG_CRED.PORT, F.DIAG_CRED.VC, F.DIAG_CRED.SUB]
  omega

theorem State.diagCredWrite_otherKey (s : State) {key : BitVec 16} (hkey : key ≠ 0xD1A6) {port vc sub : Nat} (hp : port < 64) (hv : vc < 8)
    (hs : sub < 2) : s.diagCredWrite (diagCredWord key port vc sub) = s.diagWritten := by
  have hno : ¬ diagKey (diagCredWord key port vc sub) = true := by rw [diagKey_diagCredWord key hp hv hs]; simpa using hkey
  exact if_pos (.inl hno)

/-- Channel `vc` of output `l` now holds `n` credits, and `k` more in all. -/
def State.credMoved (s : State) (l vc n : Nat) (k : Int) : State :=
  { s.diagWritten.setAvail l vc n with credOff := SMap.upd 0 s.credOff (8 * l + vc) (· + k) }

/-- What a credit moved at output `l` lets go on: the splitter of frame memory, which has a port's credits to spend. -/
def State.credUsed (t : State) (l vc : Nat) : State := if fmPort l then t.fmPump l vc else t

/-- A write of DIAG_CRED with its KEY (Table 18.4). -/
theorem State.diagCredWrite_key (s : State) {port vc sub : Nat} (hp : port < 64) (hv : vc < 8) (hs : sub < 2) :
    s.diagCredWrite (diagCredWord 0xD1A6 port vc sub) =
      if 32 < port then s.diagWritten
      else if sub = 1 then
        (if s.avail (portId 256 port) vc = 0 then s.diagWritten
          else (s.credMoved (portId 256 port) vc (s.avail (portId 256 port) vc - 1) (-1)).credUsed (portId 256 port) vc)
      else if 15 ≤ s.avail (portId 256 port) vc then s.diagWritten
      else (s.credMoved (portId 256 port) vc (s.avail (portId 256 port) vc + 1) 1).credUsed (portId 256 port) vc := by
  obtain ⟨hport, hvc, hsub⟩ := getF_diagCredWord 0xD1A6 hp hv hs
  simp only [State.diagCredWrite, diagKey_diagCredWord 0xD1A6 hp hv hs, hport, hvc, hsub, decide_true, not_true, false_or]
  rfl

/-- With nothing to send the splitter stands still. -/
theorem State.fmPump_of_empty {s : State} {l v : Nat} (h : (s.fmQueue l v).pks = []) : s.fmPump l v = s := by
  rw [State.fmPump, h]
  rfl

theorem State.credUsed_eq {s t : State} {l vc : Nat} (h : t.fmOut = s.fmOut) :
    t.credUsed l vc = if fmPort l = true ∧ (s.fmQueue l vc).pks ≠ [] then t.fmPump l vc else t := by
  have hq : t.fmQueue l vc = s.fmQueue l vc := by rw [State.fmQueue, h, State.fmQueue]
  unfold State.credUsed
  by_cases hport : fmPort l = true
  · by_cases hpks : (s.fmQueue l vc).pks = []
    · rw [if_pos hport, if_neg (by simp [hpks]), State.fmPump_of_empty (by rw [hq, hpks])]
    · rw [if_pos hport, if_pos ⟨hport, hpks⟩]
  · rw [if_neg hport, if_neg (by simp [hport])]

theorem State.credMoved_frame (s : State) (l vc n : Nat) (k : Int) :
    s.credMoved l vc n k = { s.diagWritten with ledger := (s.credMoved l vc n k).ledger, credOff := (s.credMoved l vc n k).credOff } := by
  unfold State.credMoved
  rw [State.setAvail_frame]

theorem State.fmOut_credMoved (s : State) (l vc n : Nat) (k : Int) : (s.credMoved l vc n k).fmOut = s.fmOut := by
  rw [State.credMoved_frame]
  rfl

/-- One credit more or less: DIAG_OVR, the credits of the channel and what it holds in all, and nothing else. -/
theorem State.credMoved_spec (s : State) {l vc n : Nat} (k : Int) (hvc : vc < 8) (hn : n < 2 ^ fieldW l) :
    let t := s.credMoved l vc n k
    OnlyDiagOvr s { t with ledger := s.ledger, credOff := s.credOff } ∧ t.avail l vc = n ∧
      SMap.get 0 t.credOff (8 * l + vc) = SMap.get 0 s.credOff (8 * l + vc) + k ∧
      (∀ x, x ≠ 8 * l + vc → SMap.get 0 t.credOff x = SMap.get 0 s.credOff x) ∧ ∀ j, j < 8 → j ≠ vc → t.avail l j = s.avail l j := by
  refine ⟨?_, s.diagWritten.avail_setAvail_same hvc hn, SMap.get_set_same _ _ _ _, fun x hx => SMap.get_set_other _ _ _ _ _ _ hx,
    fun j _ hj => s.diagWritten.avail_setAvail_other hvc hn hj⟩
  rw [State.credMoved_frame]
  exact onlyDiagOvr_diagWritten s

/-! ### The obligation -/

section
variable (s : State)

/-- With another KEY each of the six writes sets DIAG_OVR and no more. -/
theorem exec_diag_otherKey {key : BitVec 16} (tgt : Fin 64) (vc : Fin 8) (hkey : key ≠ 0xD1A6) :
    ∀ i ∈ [Instr.diagInjDataBit key tgt, .diagInjTwoSymbols key tgt, .diagInjParity key tgt, .diagInjFlitCrc key tgt,
      .diagCredAdd key tgt vc, .diagCredRemove key tgt vc], exec i s = .next s.diagWritten := by
  have hinj : ∀ kind < 16, s.diagInjWrite (diagInjWord key tgt kind) = s.diagWritten := fun _ hk =>
    s.diagInjWrite_otherKey hkey tgt.isLt hk
  have hcred : ∀ sub < 2, s.diagCredWrite (diagCredWord key tgt vc sub) = s.diagWritten := fun _ hs =>
    s.diagCredWrite_otherKey hkey tgt.isLt vc.isLt hs
  simp only [List.forall_mem_cons]
  exact ⟨congrArg _ (hinj 1 (by decide)), congrArg _ (hinj 2 (by decide)), congrArg _ (hinj 3 (by decide)),
    congrArg _ (hinj 4 (by decide)), congrArg _ (hcred 0 (by decide)), congrArg _ (hcred 1 (by decide)), nofun⟩

/-- Kinds 1 and 2 arm an injection of one or two symbols at a sub-channel of a controller. -/
theorem exec_diagInj_ddr (tgt : Fin 64) (two : Bool) :
    exec (if two then .diagInjTwoSymbols 0xD1A6 tgt else .diagInjDataBit 0xD1A6 tgt) s =
      .next (s.diagWritten.injectDdr tgt (if two then 2 else 1)) := by
  cases two
  · exact congrArg _ (s.diagInjWrite_ddr tgt.isLt (.inl rfl))
  · exact congrArg _ (s.diagInjWrite_ddr tgt.isLt (.inr rfl))

theorem exec_diagInjParity (tgt : Fin 64) : exec (.diagInjParity 0xD1A6 tgt) s =
    .next (if tgt.val ≤ 32 then { s.diagWritten with hubPar := SMap.set false s.hubPar tgt true } else s.diagWritten) :=
  congrArg _ (s.diagInjWrite_parity tgt.isLt)

theorem exec_diagInjFlitCrc (tgt : Fin 64) : exec (.diagInjFlitCrc 0xD1A6 tgt) s =
    .next (s.diagWritten.setHinge (tgt % 2) { s.hinge (tgt % 2) with injCrc := true }) :=
  congrArg _ (s.diagInjWrite_flitCrc tgt.isLt)

theorem exec_diagCredAdd (port : Fin 64) (vc : Fin 8) : exec (.diagCredAdd 0xD1A6 port vc) s = .next (
    if 32 < port.val then s.diagWritten
    else if 15 ≤ s.avail (portId 256 port) vc then s.diagWritten
    else (s.credMoved (portId 256 port) vc (s.avail (portId 256 port) vc + 1) 1).credUsed (portId 256 port) vc) :=
  congrArg _ (s.diagCredWrite_key (sub := 0) port.isLt vc.isLt (by decide))

theorem exec_diagCredRemove (port : Fin 64) (vc : Fin 8) : exec (.diagCredRemove 0xD1A6 port vc) s = .next (
    if 32 < port.val then s.diagWritten
    else if s.avail (portId 256 port) vc = 0 then s.diagWritten
    else (s.credMoved (portId 256 port) vc (s.avail (portId 256 port) vc - 1) (-1)).credUsed (portId 256 port) vc) :=
  congrArg _ (s.diagCredWrite_key (sub := 1) port.isLt vc.isLt (by decide))

theorem exec_credMoved {cmd : Instr} {l vc n : Nat} {k : Int} (h : exec cmd s = .next ((s.credMoved l vc n k).credUsed l vc)) :
    exec cmd s = .next (if fmPort l = true ∧ (s.fmQueue l vc).pks ≠ [] then (s.credMoved l vc n k).fmPump l vc else s.credMoved l vc n k) := by
  rw [h, State.credUsed_eq (s.fmOut_credMoved l vc n k)]

end

/-- Settles O4: each write is the setting of DIAG_OVR, and with the KEY one more change, of an injection or of a channel's credits. -/
theorem diagnosticOverrides : Obligations.DiagnosticOverrides := by
  intro s onlyOvr
  have hovr : onlyOvr s.diagWritten := onlyDiagOvr_diagWritten s
  refine ⟨fun key tgt vc hkey i hi => ⟨_, exec_diag_otherKey s tgt vc hkey i hi, hovr⟩, ?ddr, ?parity, ?crc, ?credit⟩
  case ddr =>
    intro tgt two
    refine ⟨_, exec_diagInj_ddr s tgt two, hovr, fun k hk => SMap.get_set_other _ _ _ _ _ _ hk, SMap.get_set_same _ _ _ _⟩
  case parity =>
    intro tgt
    refine ⟨_, exec_diagInjParity s tgt, ?_⟩
    by_cases ht : tgt.val ≤ 32
    · rw [if_pos ht]
      exact ⟨hovr, fun _ => (SMap.get_set_same false s.hubPar tgt true :), fun h => absurd ht (Nat.not_le.2 h),
        fun k hk => (SMap.get_set_other false false s.hubPar tgt k true hk :)⟩
    · rw [if_neg ht]
      exact ⟨hovr, fun h => absurd h ht, fun _ => hovr, fun _ _ => rfl⟩
  case crc =>
    intro tgt
    refine ⟨_, exec_diagInjFlitCrc s tgt, hovr, SMap.get_set_same _ _ _ _, fun k hk => SMap.get_set_other _ _ _ _ _ _ hk⟩
  case credit =>
    intro port vc add l n cmd sent
    have hn : n < 2 ^ fieldW l := s.avail_lt l vc
    have hw : 2 ^ 4 ≤ 2 ^ fieldW l := Nat.pow_le_pow_right (by decide) (by unfold fieldW; split <;> decide)
    refine ⟨fun h => ⟨_, ?_, hovr⟩, fun hp ha hlt => ⟨s.credMoved l vc (n + 1) 1, exec_credMoved s ?_, s.credMoved_spec 1 vc.isLt (by omega)⟩,
      fun hp ha hpos => ⟨s.credMoved l vc (n - 1) (-1), exec_credMoved s ?_, s.credMoved_spec (-1) vc.isLt (by omega)⟩⟩
    · cases add
      · rw [show cmd = .diagCredRemove 0xD1A6 port vc from rfl, exec_diagCredRemove]
        by_cases hp : 32 < port.val
        · rw [if_pos hp]
        · rw [if_neg hp, if_pos (by simpa [hp] using h)]
      · rw [show cmd = .diagCredAdd 0xD1A6 port vc from rfl, exec_diagCredAdd]
        by_cases hp : 32 < port.val
        · rw [if_pos hp]
        · rw [if_neg hp, if_pos (by simpa [hp] using h)]
    · subst ha
      rw [show cmd = .diagCredAdd 0xD1A6 port vc from rfl, exec_diagCredAdd, if_neg (Nat.not_lt.2 hp), if_neg (Nat.not_le.2 hlt)]
    · subst ha
      rw [show cmd = .diagCredRemove 0xD1A6 port vc from rfl, exec_diagCredRemove, if_neg (Nat.not_lt.2 hp), if_neg (Nat.ne_of_gt hpos)]

end Sys2Proof.Machine
end

section
/-!
PROOF. What the steps of an unpark (Table 12.9) run through leaves the dies' progress as it was.
-/
namespace Sys2Proof.Machine

/-! ### Choices and repetitions -/

@[simp] theorem State.dies_ite (c : Prop) [Decidable c] (a b : State) : (if c then a else b).dies = if c then a.dies else b.dies :=
  apply_ite State.dies c a b

@[simp] theorem State.dies_foldl {α : Type} (f : State → α → State) (l : List α) (s : State) (hf : ∀ a i, (f a i).dies = a.dies) :
    (l.foldl f s).dies = s.dies := by
  induction l generalizing s with
  | nil => rfl
  | cons i l ih => rw [List.foldl_cons, ih, hf]

/-! ### Hinges, their lanes and their leaves -/

@[simp] theorem State.dies_hngErr (s : State) (e : Nat) (f : Fld) : (s.hngErr e f).dies = s.dies := by
  simp [State.hngErr]

@[simp] theorem State.dies_setHingeState (s : State) (e st : Nat) : (s.setHingeState e st).dies = s.dies := by
  simp [State.setHingeState]

@[simp] theorem State.dies_trainBegin (s : State) (k : Nat) : (s.trainBegin k).dies = s.dies := by
  simp [State.trainBegin]

@[simp] theorem State.dies_laneErr (s : State) (d l : Nat) (f : Fld) : (s.laneErr d l f).dies = s.dies := by
  simp [State.laneErr]

@[simp] theorem State.dies_setNstate (s : State) (d l n : Nat) : (s.setNstate d l n).dies = s.dies := by
  simp [State.setNstate]

@[simp] theorem State.dies_setCdr (s : State) (d l : Nat) (b : Bool) : (s.setCdr d l b).dies = s.dies := by
  simp [State.setCdr]

@[simp] theorem State.dies_laneStop (s : State) (d l : Nat) : (s.laneStop d l).dies = s.dies := by
  simp [State.laneStop]

@[simp] theorem State.dies_quadLoses (s : State) (d q : Nat) : (s.quadLoses d q).dies = s.dies := by
  simp [State.quadLoses]

@[simp] theorem State.dies_gate (s : State) (pane : Nat) : (s.gate pane).dies = s.dies := by
  simp [State.gate]

@[simp] theorem State.dies_paneLoses (s : State) (pane : Nat) : (s.paneLoses pane).dies = s.dies := by
  simp [State.paneLoses]

@[simp] theorem State.dies_prefLost (s : State) : (s.prefLost).dies = s.dies := by
  simp [State.prefLost]

@[simp] theorem State.dies_hingeFail (s : State) (k : Nat) : (s.hingeFail k).dies = s.dies := by
  simp [State.hingeFail]

@[simp] theorem State.dies_recallChans (s : State) (e : Nat) : (s.recallChans e).dies = s.dies := by
  simp [State.recallChans]

@[simp] theorem State.dies_recallLeaf (s : State) (e j : Nat) : (s.recallLeaf e j).dies = s.dies := by
  unfold State.recallLeaf
  refine (State.dies_foldl _ _ _ fun a f => ?_).trans (by simp)
  split <;> simp

@[simp] theorem State.dies_injDone (s : State) (e : Nat) : (s.injDone e).dies = s.dies := by
  simp [State.injDone]

@[simp] theorem State.dies_putFlit (s : State) (e j : Nat) (body : FlitBody) (nak : Option (Nat × Nat)) :
    (s.putFlit e j body nak).dies = s.dies := by
  simp [State.putFlit]

@[simp] theorem State.dies_sendWidth (s : State) (e : Nat) : (s.sendWidth e).dies = s.dies := by
  unfold State.sendWidth
  split <;> simp

@[simp] theorem State.dies_trainRun (s : State) (k : Nat) : (s.trainRun k).dies = s.dies := by
  simp [State.trainRun]

@[simp] theorem State.dies_trainOn (s : State) : (s.trainOn).dies = s.dies := by
  simp [State.trainOn]

@[simp] theorem State.dies_trainHinge (s : State) (k : Nat) : (s.trainHinge k).dies = s.dies := by
  simp [State.trainHinge]

@[simp] theorem State.dies_leafFail (s : State) (e j : Nat) : (s.leafFail e j).dies = s.dies := by
  unfold State.leafFail
  split <;> simp

@[simp] theorem State.dies_landed (s : State) (e : Nat) (z : FlitBody) : (s.landed e z).dies = s.dies := by
  unfold State.landed
  split <;> simp

@[simp] theorem State.dies_startReplay (s : State) (e j q : Nat) : (s.startReplay e j q).dies = s.dies := by
  simp [State.startReplay]

@[simp] theorem State.dies_takeNak (s : State) (e j q : Nat) : (s.takeNak e j q).dies = s.dies := by
  simp [State.takeNak]

/-! ### Credits, queues and stages -/

@[simp] theorem State.dies_setChanFields (s : State) (l i j n : Nat) : (s.setChanFields l i j n).dies = s.dies := by
  simp [State.setChanFields]

@[simp] theorem State.dies_setIocc (s : State) (l v n : Nat) : (s.setIocc l v n).dies = s.dies := by
  simp [State.setIocc]

@[simp] theorem State.dies_takeFlits (s : State) (l v n : Nat) : (s.takeFlits l v n).dies = s.dies := by
  simp [State.takeFlits]

@[simp] theorem State.dies_enter (s : State) (i v : Nat) (f : TFlit) : (s.enter i v f).dies = s.dies := by
  simp [State.enter]

@[simp] theorem State.dies_freeFlits (s : State) (l v n : Nat) : (s.freeFlits l v n).dies = s.dies := by
  simp [State.freeFlits]

@[simp] theorem State.dies_fillStageOne (s : State) (e x v : Nat) : (s.fillStageOne e x v).dies = s.dies := by
  dsimp only [State.fillStageOne]
  split <;> simp

@[simp] theorem State.dies_fillStage (s : State) (e x v : Nat) : (s.fillStage e x v).dies = s.dies := by
  simp [State.fillStage]

@[simp] theorem State.dies_releaseLeaf (s : State) (e j q : Nat) : (s.releaseLeaf e j q).dies = s.dies := by
  simp [State.releaseLeaf]

@[simp] theorem State.dies_setAvail (s : State) (l v n : Nat) : (s.setAvail l v n).dies = s.dies := by
  simp [State.setAvail]

@[simp] theorem State.dies_creditBack (s : State) (l v n : Nat) : (s.creditBack l v n).dies = s.dies := by
  simp [State.creditBack]

/-! ### Ticks and captures -/

@[simp] theorem State.dies_heard (s : State) (t m : Nat) : (s.heard t m).dies = s.dies := by
  simp [State.heard]

@[simp] theorem State.dies_takeAck (s : State) (r : TickRec) : (s.takeAck r).dies = s.dies := by
  simp [State.takeAck]

@[simp] theorem State.dies_relay (s : State) (e : Nat) (r : TickRec) : (s.relay e r).dies = s.dies := by
  simp [State.relay]

@[simp] theorem State.dies_recAt (s : State) (d : Nat) (r : TickRec) : (s.recAt d r).dies = s.dies := by
  simp [State.recAt]

@[simp] theorem State.dies_snapEnd (s : State) (e : Nat) : (s.snapEnd e).dies = s.dies := by
  simp [State.snapEnd]

@[simp] theorem State.dies_captureRouter (s : State) (r : Nat) : (s.captureRouter r).dies = s.dies := by
  simp [State.captureRouter]

@[simp] theorem State.dies_discover (s : State) : (s.discover).dies = s.dies := by
  simp [State.discover]

@[simp] theorem State.dies_takeWidth (s : State) (e step wcode : Nat) (mask : BitVec 32) : (s.takeWidth e step wcode mask).dies = s.dies := by
  unfold State.takeWidth
  split <;> simp

/-! ### Lanes, loops and DDR5 controllers, as entries of an image set them -/

@[simp] theorem State.dies_putMemory (s : State) (f : Nat) (ws : List Word) : (s.putMemory f ws).dies = s.dies := by
  simp [State.putMemory]

@[simp] theorem State.dies_free (s : State) : s.free.2.dies = s.dies := by simp [State.free]

@[simp] theorem State.dies_enterStep (s : State) (d l step : Nat) (x : LaneSt) : (s.enterStep d l step x).dies = s.dies := by
  simp [State.enterStep]

@[simp] theorem State.dies_enterSeek (s : State) (d l : Nat) : (s.enterSeek d l).dies = s.dies := by
  simp [State.enterSeek]

@[simp] theorem State.dies_setPeak (s : State) (d l : Nat) : (s.setPeak d l).dies = s.dies := by
  simp [State.setPeak]

@[simp] theorem State.dies_laneStart (s : State) (d l : Nat) : (s.laneStart d l).dies = s.dies := by
  simp [State.laneStart]

@[simp] theorem State.dies_laneCheck (s : State) (d l : Nat) : (s.laneCheck d l).dies = s.dies := by
  simp [State.laneCheck]

@[simp] theorem State.dies_laneOn (s : State) (d l : Nat) : (s.laneOn d l).dies = s.dies := by
  simp [State.laneOn]

@[simp] theorem State.dies_laneOff (s : State) (d l : Nat) : (s.laneOff d l).dies = s.dies := by
  simp [State.laneOff]

@[simp] theorem State.dies_setDdrState (s : State) (c st : Nat) : (s.setDdrState c st).dies = s.dies := by
  simp [State.setDdrState]

@[simp] theorem State.dies_ddrFail (s : State) (c step sc : Nat) : (s.ddrFail c step sc).dies = s.dies := by
  simp [State.ddrFail]

@[simp] theorem State.dies_fbCheck (s : State) (n : Nat) : (s.fbCheck n).dies = s.dies := by
  simp [State.fbCheck]

@[simp] theorem State.dies_lockLoop (s : State) (n : Nat) : (s.lockLoop n).dies = s.dies := by
  simp [State.lockLoop]

@[simp] theorem State.dies_startHl2 (s : State) (rate : Nat) : (s.startHl2 rate).dies = s.dies := by
  simp [State.startHl2]

@[simp] theorem State.dies_ddrInitNow (s0 : State) (c : Nat) : (s0.ddrInitNow c).dies = s0.dies := by
  dsimp only [State.ddrInitNow]
  split
  · simp
  · split <;> simp

@[simp] theorem State.dies_ddrInit (s : State) (c : Nat) : (s.ddrInit c).dies = s.dies := by
  simp [State.ddrInit]

/-! ### Register writes -/

@[simp] theorem State.dies_noteRefused (s : State) (m : Nat) : (s.noteRefused m).dies = s.dies := by
  simp [State.noteRefused]

@[simp] theorem State.dies_writeStaged (s : State) (m off : Nat) (mask v : HWord) : (s.writeStaged m off mask v).dies = s.dies := by
  simp [State.writeStaged]

@[simp] theorem State.dies_writeReg (s : State) (off : Nat) (v : HWord) : (s.writeReg off v).dies = s.dies := by
  unfold State.writeReg
  split
  · rfl
  · dsimp only
    split
    · rfl
    · split <;> simp

/-! ### The UCL link, and frame memory's requests -/

@[simp] theorem State.dies_setUclState (s : State) (n : Nat) : (s.setUclState n).dies = s.dies := by
  simp [State.setUclState]

@[simp] theorem State.dies_reclaim (s : State) (l : Nat) (recl : Bool) : (s.reclaim l recl).dies = s.dies := by
  simp [State.reclaim]

@[simp] theorem State.dies_ownCple (s : State) (l : Nat) (dst : Nat) (prio : Fin 4) (tag : Fin 1024) (e : Fin 8) :
    (s.ownCple l dst prio tag e).dies = s.dies := by
  simp [State.ownCple]

@[simp] theorem State.dies_absorbPiece (s : State) (l : Nat) (pk : Packet) (i : Nat) : (s.absorbPiece l pk i).dies = s.dies := by
  simp [State.absorbPiece]

@[simp] theorem State.dies_hasLeft (s : State) (i : Nat) (pk : Packet) : (s.hasLeft i pk).dies = s.dies := by
  simp [State.hasLeft]

@[simp] theorem State.dies_fillOne (s : State) (i v : Nat) : (s.fillOne i v).dies = s.dies := by
  dsimp only [State.fillOne]
  split <;> simp

@[simp] theorem State.dies_fill (s : State) (i v : Nat) : (s.fill i v).dies = s.dies := by
  simp [State.fill]

@[simp] theorem State.dies_launch (s : State) (pk : Packet) : (s.launch pk).dies = s.dies := by
  simp [State.launch]

@[simp] theorem State.dies_answer (s : State) (pk : Packet) (cpl : Packet) : (s.answer pk cpl).dies = s.dies := by
  simp [State.answer]

@[simp] theorem State.dies_answerErr (s : State) (pk : Packet) (e : Fin 8) : (s.answerErr pk e).dies = s.dies := by
  simp [State.answerErr]

@[simp] theorem State.dies_answerData (s : State) (pk : Packet) (ws : List Word) : (s.answerData pk ws).dies = s.dies := by
  simp [State.answerData]

@[simp] theorem State.dies_fmAnswer (s : State) (pk : Packet) (done : List FmPart) : (s.fmAnswer pk done).dies = s.dies := by
  dsimp only [State.fmAnswer]
  split <;> simp

@[simp] theorem State.dies_fmFinish (s : State) : (s.fmFinish).dies = s.dies := by
  simp [State.fmFinish]

@[simp] theorem State.dies_fmCut (s : State) (l : Nat) : (s.fmCut l).dies = s.dies := by
  unfold State.fmCut
  refine (State.dies_fmFinish _).trans (State.dies_foldl _ _ _ fun a v => ?_)
  dsimp only
  split <;> simp

@[simp] theorem State.dies_setBoarded (s : State) (l : Nat) (b : Bool) : (s.setBoarded l b).dies = s.dies := by
  simp [State.setBoarded]

@[simp] theorem State.dies_setTrErr (s : State) (r : Nat) (pane hub : Fld) (n : Nat) : (s.setTrErr r pane hub n).dies = s.dies := by
  simp [State.setTrErr]

@[simp] theorem State.dies_board (s : State) (l cause : Nat) : (s.board l cause).dies = s.dies := by
  simp [State.board]

@[simp] theorem State.dies_uclLeave (s : State) (n : Nat) : (s.uclLeave n).dies = s.dies := by
  simp [State.uclLeave]

@[simp] theorem State.dies_uclCtlWrite (s : State) (v : HWord) : (s.uclCtlWrite v).dies = s.dies := by
  simp [State.uclCtlWrite]

/-! ### The hub's cores and the Keeper -/

@[simp] theorem State.dies_setHalted (s : State) (l : List Nat) : (s.setHalted l).dies = s.dies := by
  simp [State.setHalted]

@[simp] theorem State.dies_mcReload (s : State) (c : Nat) : (s.mcReload c).dies = s.dies := by
  simp [State.mcReload]

@[simp] theorem State.dies_setMc0 (s : State) (halted pend held : Bool) : (s.setMc0 halted pend held).dies = s.dies := by
  simp [State.setMc0]

@[simp] theorem State.dies_latchLaunch (s : State) (g : Nat) : (s.latchLaunch g).dies = s.dies := by
  simp [State.latchLaunch]

@[simp] theorem State.dies_resumeTarget (s : State) (t : Nat) : (s.resumeTarget t).dies = s.dies := by
  simp [State.resumeTarget]

@[simp] theorem State.dies_kprShow (s : State) : (s.kprShow).dies = s.dies := by
  simp [State.kprShow]

@[simp] theorem State.dies_sendChain (s : State) (down : Bool) (pk : ChainPkt) : (s.sendChain down pk).dies = s.dies := by
  simp [State.sendChain]

@[simp] theorem State.dies_kprSend (s : State) (r : KReq) (ws : List HWord) : (s.kprSend r ws).dies = s.dies := by
  unfold State.kprSend
  split <;> simp

@[simp] theorem State.dies_kprReply (s : State) (r : KReq) (st : Nat) (ws : List HWord) : (s.kprReply r st ws).dies = s.dies := by
  simp [State.kprReply]

@[simp] theorem State.dies_haltWithdrawn (s : State) : (s.haltWithdrawn).dies = s.dies := by
  unfold State.haltWithdrawn
  split <;> simp

@[simp] theorem State.dies_wdReload (s : State) : (s.wdReload).dies = s.dies := by
  simp [State.wdReload]

@[simp] theorem State.dies_suspEnd (s : State) : (s.suspEnd).dies = s.dies := by
  simp [State.suspEnd]

@[simp] theorem State.dies_kprClosed (s : State) : (s.kprClosed).dies = s.dies := by
  simp [State.kprClosed]

@[simp] theorem State.dies_kprEnd (s : State) : (s.kprEnd).dies = s.dies := by
  simp [State.kprEnd]

@[simp] theorem State.dies_kprLose (s : State) (c : Nat) : (s.kprLose c).dies = s.dies := by
  simp [State.kprLose]

@[simp] theorem State.dies_uenSet (s : State) : (s.uenSet).dies = s.dies := by
  simp [State.uenSet]

/-! ### Entries and frames of an image -/

@[simp] theorem State.dies_entryEffect (s old : State) (row : RegRow) (ix : List Nat) : (s.entryEffect old row ix).dies = s.dies := by
  unfold State.entryEffect
  split <;> simp

@[simp] theorem State.dies_putImage (s : State) (row : RegRow) (off : Nat) (mask v : HWord) : (s.putImage row off mask v).dies = s.dies := by
  simp [State.putImage]

@[simp] theorem State.dies_bootEntry (s : State) (off : Nat) (v : HWord) : (s.bootEntry off v).dies = s.dies := by
  unfold State.bootEntry
  split
  · rfl
  · split
    · rfl
    · simp

@[simp] theorem State.dies_putFrame (s : State) (c f : Nat) (ws : List Word) : (s.putFrame c f ws).dies = s.dies := by
  simp [State.putFrame]

/-! ### Boards, paths and the relock of a die -/

@[simp] theorem State.dies_unboard (s : State) (l : Nat) : (s.unboard l).dies = s.dies := by
  simp [State.unboard]

@[simp] theorem State.dies_writePaths (s : State) (off : Nat → Bool) : (s.writePaths off).dies = s.dies := by
  simp [State.writePaths]

@[simp] theorem State.dies_openPaths (s : State) (d : Nat) : (s.openPaths d).dies = s.dies := by
  simp [State.openPaths]

@[simp] theorem State.dies_relockDie (s : State) (d : Nat) : (s.relockDie d).dies = s.dies := by
  simp [State.relockDie]

@[simp] theorem State.dies_noteOverlaps (s : State) (pane m : Nat) (old : List (Nat × Nat × (Nat × Nat) × (Nat × Nat))) :
    (s.noteOverlaps pane m old).dies = s.dies := by
  simp [State.noteOverlaps]

@[simp] theorem State.dies_dieOverlaps (s : State) (d : Nat) : (s.dieOverlaps d).dies = s.dies := by
  simp [State.dieOverlaps]

@[simp] theorem State.dies_boardNow (s : State) (l : Nat) : (s.boardNow l).dies = s.dies := by
  simp [State.boardNow]

@[simp] theorem State.dies_ddrSettle (s : State) (c : Nat) : (s.ddrSettle c).dies = s.dies := by
  simp [State.ddrSettle]

@[simp] theorem State.dies_unboardNow (s : State) (l : Nat) : (s.unboardNow l).dies = s.dies := by
  unfold State.unboardNow
  split
  · rfl
  · refine (State.dies_foldl _ _ _ State.dies_ddrSettle).trans ((State.dies_unboard _ _).trans ?_)
    split
    · simp
    · split <;> simp

@[simp] theorem State.dies_brdCmd (s : State) (l : Nat) (board : Bool) : (s.brdCmd l board).dies = s.dies := by
  simp [State.brdCmd]

@[simp] theorem State.dies_brdResume (s : State) (r : Nat) : (s.brdResume r).dies = s.dies := by
  simp [State.brdResume]

@[simp] theorem State.dies_routerResume (s : State) (pane : Nat) : (s.routerResume pane).dies = s.dies := by
  simp [State.routerResume]

/-! ### Word memory and its queues -/

@[simp] theorem State.dies_exchangeTimes (f : State → State) (hf : ∀ a, (f a).dies = a.dies) (s : State) (n : Nat) :
    (s.exchangeTimes f n).dies = s.dies := by
  induction n generalizing s with
  | zero => rfl
  | succ n ih => rw [State.exchangeTimes, ih, hf]

@[simp] theorem State.dies_latchPost (s : State) (pane m : Nat) : (s.latchPost pane m).dies = s.dies := by
  simp [State.latchPost]

@[simp] theorem State.dies_dropHead (s : State) (pane m q : Nat) : (s.dropHead pane m q).dies = s.dies := by
  simp [State.dropHead]

@[simp] theorem State.dies_checkEntry (s : State) (blk a : Nat) : (s.checkEntry blk a).dies = s.dies := by
  unfold State.checkEntry
  split <;> simp

@[simp] theorem State.dies_popMany (s : State) (pane m q n : Nat) : (s.popMany pane m q n).2.2.dies = s.dies := by
  induction n generalizing s with
  | zero => rfl
  | succ n ih =>
    rw [State.popMany]
    split
    · rfl
    · split
      · rfl
      · simp [ih]

@[simp] theorem State.dies_lockedRead (s : State) (pane m q : Nat) (pk : Packet) : (s.lockedRead pane m q pk).dies = s.dies := by
  simp [State.lockedRead]

@[simp] theorem State.dies_takeLock (s : State) (pane m q : Nat) (pk : Packet) : (s.takeLock pane m q pk).dies = s.dies := by
  dsimp only [State.takeLock]
  split <;> simp

@[simp] theorem State.dies_waitPush (s : State) (pane : Nat) (e : LatePush) : (s.waitPush pane e).dies = s.dies := by
  simp [State.waitPush]

@[simp] theorem State.dies_storeEntry (s : State) (blk a who : Nat) (x : Entry) : (s.storeEntry blk a who x).dies = s.dies := by
  dsimp only [State.storeEntry]
  split <;> simp

@[simp] theorem State.dies_appendWord (s : State) (pane m q : Nat) (w : Word) (tag net : Bool) :
    (s.appendWord pane m q w tag net).dies = s.dies := by
  simp [State.appendWord]

@[simp] theorem State.dies_acceptWord (s : State) (pane m q : Nat) (w : Word) (tag net : Bool) :
    (s.acceptWord pane m q w tag net).dies = s.dies := by
  simp [State.acceptWord]

@[simp] theorem State.dies_storeUnlock (s : State) (pane m q : Nat) (pk : Packet) : (s.storeUnlock pane m q pk).dies = s.dies := by
  dsimp only [State.storeUnlock]
  split <;> simp

@[simp] theorem State.dies_wmXpar (s : State) (blk : Nat) (bad : Bool) : (s.wmXpar blk bad).dies = s.dies := by
  simp [State.wmXpar]

@[simp] theorem State.dies_lockedServe (s : State) (pane m q : Nat) (pk : Packet) : (s.lockedServe pane m q pk).dies = s.dies := by
  simp [State.lockedServe]

@[simp] theorem State.dies_serveWaiters (s : State) (pane m q n : Nat) : (s.serveWaiters pane m q n).dies = s.dies := by
  induction n generalizing s with
  | zero => rfl
  | succ n ih =>
    dsimp only [State.serveWaiters]
    split <;> simp [ih]

@[simp] theorem State.dies_writeUnlock (s : State) (pane m q : Nat) (pk : Packet) : (s.writeUnlock pane m q pk).dies = s.dies := by
  simp [State.writeUnlock]

@[simp] theorem State.dies_pushWords (s : State) (pane m q : Nat) (ws : List Word) : (s.pushWords pane m q ws).dies = s.dies := by
  induction ws generalizing s with
  | nil => rfl
  | cons w ws ih => simp [State.pushWords, ih]

@[simp] theorem State.dies_refuse (s : State) (pane m q n : Nat) : (s.refuse pane m q n).dies = s.dies := by
  simp [State.refuse]

@[simp] theorem State.dies_netPush (s : State) (pane m q : Nat) (pk : Packet) : (s.netPush pane m q pk).dies = s.dies := by
  simp [State.netPush]

@[simp] theorem State.dies_noteFull (s : State) (pane m q : Nat) (tag : Bool) : (s.noteFull pane m q tag).dies = s.dies := by
  simp [State.noteFull]

@[simp] theorem State.dies_pushQueue (s : State) (pane m q : Nat) (w : Word) (tag : Bool) :
    (s.pushQueue pane m q w tag).2.dies = s.dies := by
  unfold State.pushQueue
  split
  · simp
  · split <;> simp

@[simp] theorem State.dies_laneDrop (s : State) (d l : Nat) : (s.laneDrop d l).dies = s.dies := by
  simp [State.laneDrop]

@[simp] theorem State.dies_fpinErr (s : State) (d n : Nat) : (s.fpinErr d n).dies = s.dies := by
  simp [State.fpinErr]

@[simp] theorem State.dies_decidePush (s : State) (pane : Nat) (e : LatePush) : (s.decidePush pane e).dies = s.dies := by
  cases e <;> simp [State.decidePush]

@[simp] theorem State.dies_settleLate (s : State) (pane : Nat) : (s.settleLate pane).dies = s.dies := by
  unfold State.settleLate
  split <;> simp

/-! ### The edge at which a pane's clocks run again -/

@[simp] theorem State.dies_capture (s : State) (off : Nat) (mask loc : HWord) (n : Nat) : (s.capture off mask loc n).dies = s.dies := by
  simp [State.capture]

/-- A contention is captured in PANE_BUSCON, or there is none. The list of contended wires is made a variable before the match on it is
unfolded: to compare the two sides the kernel would evaluate it. -/
theorem State.recordContention_cases (s : State) (pane : Nat) :
    s.recordContention pane = s ∨ ∃ off mask loc n, s.recordContention pane = s.capture off mask loc n := by
  generalize hf : State.recordContention = f
  delta State.recordContention at hf
  generalize State.contended = wires at hf
  subst hf
  beta_reduce
  generalize wires s pane = xs
  cases xs with
  | nil => exact .inl rfl
  | cons x xs => exact .inr ⟨_, _, _, _, rfl⟩

@[simp] theorem State.dies_recordContention (s : State) (pane : Nat) : (s.recordContention pane).dies = s.dies := by
  obtain h | ⟨off, mask, loc, n, h⟩ := s.recordContention_cases pane
  · rw [h]
  · rw [h, State.dies_capture]

@[simp] theorem State.dies_closeCycle (s : State) (pane : Nat) : (s.closeCycle pane).dies = s.dies := by
  simp [State.closeCycle]

@[simp] theorem State.dies_flushQueue (s : State) (pane m q : Nat) : (s.flushQueue pane m q).dies = s.dies := by
  simp [State.flushQueue]

@[simp] theorem State.dies_flushBlock (s old : State) (pane m : Nat) : (s.flushBlock old pane m).dies = s.dies := by
  simp [State.flushBlock]

@[simp] theorem State.dies_exchangePane (s : State) (pane : Nat) : (s.exchangePane pane).dies = s.dies := by
  simp [State.exchangePane]

@[simp] theorem State.dies_engLeaveOff (s : State) (g : Nat) : (s.engLeaveOff g).dies = s.dies := by
  simp [State.engLeaveOff]

@[simp] theorem State.dies_exchangeEngine (s : State) (g : Nat) : (s.exchangeEngine g).dies = s.dies := by
  simp [State.exchangeEngine]

@[simp] theorem State.dies_snapBlock (s : State) (d p m : Nat) : (s.snapBlock d p m).dies = s.dies := by
  simp [State.snapBlock]

@[simp] theorem State.dies_snapTimes (s : State) (d p m n : Nat) : (s.snapTimes d p m n).dies = s.dies := by
  induction n generalizing s with
  | zero => rfl
  | succ n ih => simp [State.snapTimes, ih]

@[simp] theorem State.dies_clocksResume (s : State) (pane : Nat) : (s.clocksResume pane).dies = s.dies := by
  simp [State.clocksResume]

@[simp] theorem State.dies_paneRelocked (s : State) (pane : Nat) : (s.paneRelocked pane).dies = s.dies := by
  simp [State.paneRelocked]

/-! ### Pins -/

@[simp] theorem State.dies_latchFpin (s : State) (d n : Nat) (o : Bool × Bool) (pull : Nat) : (s.latchFpin d n o pull).dies = s.dies := by
  simp [State.latchFpin]

@[simp] theorem State.dies_dieStarts (s : State) (d : Nat) : (s.dieStarts d).dies = s.dies := by
  simp [State.dieStarts]

@[simp] theorem State.dies_pinInt (s : State) (k : Nat) : (s.pinInt k).dies = s.dies := by
  simp [State.pinInt]

@[simp] theorem State.dies_levelInt (s : State) (k : Nat) : (s.levelInt k).dies = s.dies := by
  simp [State.levelInt]

@[simp] theorem State.dies_showPin (s : State) (k : Nat) : (s.showPin k).dies = s.dies := by
  simp [State.showPin]

@[simp] theorem State.dies_pinConflict (s : State) : (s.pinConflict).dies = s.dies := by
  dsimp only [State.pinConflict]
  split <;> simp

@[simp] theorem State.dies_handover (s : State) (b : Nat) : (s.handover b).dies = s.dies := by
  simp [State.handover]

end Sys2Proof.Machine
end

section
/-!
PROOF. The steps of an unpark (R299, Table 12.9): they fail and leave everything as it was, or the die has power and has started up.
-/
namespace Sys2Proof.Machine
open Sys2Proof.Claims

/-! ### What a tick or a flit of a hinge leaves of the dies' progress -/

/-- How far a die's start-up order has come, and whether it is powered: its progress but for a global capture that waits for its tick (R203). -/
def State.dieModes (s : State) (d : Nat) : DieSt := { SMap.get {} s.dies d with gcap := false }

theorem State.dieModes_congr {s t : State} (h : t.dies = s.dies) : t.dieModes = s.dieModes := by
  funext d
  rw [State.dieModes, h, State.dieModes]

theorem State.dieModes_foldl {α : Type} (f : State → α → State) (l : List α) (s : State) (hf : ∀ a i, (f a i).dieModes = a.dieModes) :
    (l.foldl f s).dieModes = s.dieModes := by
  induction l generalizing s with
  | nil => rfl
  | cons i l ih => rw [List.foldl_cons, ih, hf]

theorem State.dies_captureDie (s : State) (d : Nat) :
    (s.captureDie d).dies = SMap.upd {} s.dies d fun x => { x with gcap := false } := by
  simp [State.captureDie]

theorem State.dieModes_captureDie (s : State) (d : Nat) : (s.captureDie d).dieModes = s.dieModes := by
  funext x
  rw [State.dieModes, State.dies_captureDie, SMap.upd]
  by_cases hx : x = d
  · rw [hx, SMap.get_set_same, State.dieModes]
  · rw [SMap.get_set_other _ _ _ _ _ _ hx, State.dieModes]

theorem State.dieModes_takeTick (s : State) (e : Nat) (r : TickRec) : (s.takeTick e r).dieModes = s.dieModes := by
  dsimp only [State.takeTick]
  split
  · exact State.dieModes_congr (by simp)
  · split
    · exact State.dieModes_congr (by simp)
    · split
      · exact (State.dieModes_captureDie _ _).trans (State.dieModes_congr (by simp))
      · exact State.dieModes_congr (by simp)

theorem State.dieModes_takeBody (s : State) (e : Nat) (b : FlitBody) : (s.takeBody e b).dieModes = s.dieModes := by
  cases b with
  | tick rs => exact State.dieModes_foldl _ _ _ fun a r => a.dieModes_takeTick e r
  | edge | transom | ack | ecred | tcred | width => exact State.dieModes_congr (by simp [State.takeBody])

theorem State.dieModes_acceptFlit (s : State) (e j : Nat) (f : HFlit) (bs : List (BitVec 48)) :
    (s.acceptFlit e j f bs).dieModes = s.dieModes := by
  unfold State.acceptFlit
  lift_lets
  intro s1 split s2 nak
  have hs2 : s2.dies = s.dies := by simp [s2, s1]
  have hnak : ∀ a, (nak a).dies = a.dies := fun a => by
    dsimp only [nak]
    split <;> simp
  split
  · exact (State.dieModes_congr (hnak _)).trans ((State.dieModes_takeBody _ _ _).trans (State.dieModes_congr hs2))
  · exact State.dieModes_congr ((hnak _).trans hs2)
  · exact State.dieModes_congr (by simp)

theorem State.dieModes_receive (s : State) (e j : Nat) (noise : List (BitVec 48)) (kind : FlitBody → Bool) :
    (s.receive e j noise kind).dieModes = s.dieModes := by
  unfold State.receive
  extract_lets p l
  split
  · rfl
  · extract_lets training bs l1 old s1
    split
    · rfl
    · split
      · exact State.dieModes_congr (by simp [s1])
      · split
        · exact State.dieModes_congr (by simp)
        · exact (State.dieModes_acceptFlit _ _ _ _ _).trans (State.dieModes_congr (by simp))

theorem State.dieModes_widthArrives (s : State) (e : Nat) : (s.widthArrives e).dieModes = s.dieModes := by
  unfold State.widthArrives
  split
  · exact s.dieModes_receive _ _ _ _
  · rfl

theorem State.dieModes_bringUp (s : State) (k : Nat) (up : Bool) : (s.bringUp k up).dieModes = s.dieModes := by
  have htrain : (s.trainHinge k).dieModes = s.dieModes := State.dieModes_congr (s.dies_trainHinge k)
  dsimp only [State.bringUp]
  split
  · exact htrain
  · split
    · exact (State.dieModes_widthArrives _ _).trans ((State.dieModes_widthArrives _ _).trans htrain)
    · exact (State.dieModes_congr (State.dies_hingeFail _ _)).trans htrain

/-! ### What a load of frames leaves of them -/

theorem State.dies_paneEntries (s : State) (f : Nat) (ws : List Word) {w : State → Nat → HWord → State}
    (hw : ∀ a off v, (w a off v).dies = a.dies) : (s.paneEntries f ws w).1.dies = s.dies := by
  unfold State.paneEntries
  refine List.foldlRecOn (motive := fun r : State × Bool => r.1.dies = s.dies) _ _ rfl fun r hr e _ => ?_
  dsimp only
  split
  · exact hr
  · split
    · exact hr
    · exact (hw _ _ _).trans hr

theorem State.dies_bootFrame {s t : State} {f : Nat} {ws : List Word} (h : s.bootFrame f ws = some t) : t.dies = s.dies := by
  unfold State.bootFrame at h
  generalize fType f = typ at h
  split at h
  · exact Option.some.inj h ▸ s.dies_putMemory f ws
  · have hentries := s.dies_paneEntries f ws State.dies_bootEntry
    generalize s.paneEntries f ws State.bootEntry = r at h hentries
    dsimp only at h
    split at h
    · exact Option.some.inj h ▸ hentries
    · cases h
  · rw [← Option.some.inj h]
    simp

/-- What holds of what a walk over an image begins with, and is kept by each frame it takes, holds of what it gathers. -/
theorem State.walkImage_invariant {α : Type} (P : α → Prop) (s : State) (n : Nat) (h : List HWord)
    {g : α → Nat → List Word → Except Nat α} (hg : ∀ a f ws b, P a → g a f ws = .ok b → P b) (fuel pos fsel : Nat) {a : α} (ha : P a) :
    P (s.walkImage n h g fuel pos fsel a).1 := by
  induction fuel generalizing pos fsel a with
  | zero => exact ha
  | succ fuel ih =>
    unfold State.walkImage
    extract_lets hd ws next r
    have hr : P r.1 := by
      refine List.foldlRecOn (motive := fun b : α × Nat => P b.1) _ _ ha fun b hb k _ => ?_
      dsimp only
      split
      · exact hb
      · split
        · exact hb
        · split
          · exact hb
          · split
            · next hok => exact hg _ _ _ _ hb hok
            · exact hb
    split
    · exact ha
    · split
      · exact ha
      · split
        · exact ha
        · generalize pkReg hd = kind
          split
          · exact ih _ _ ha
          · split
            · exact hr
            · exact ih _ _ hr
          · exact ha
          · exact ih _ _ ha

theorem State.walkRunning_invariant {α : Type} (P : α → Prop) (s : State) {g : α → Nat → List Word → Except Nat α}
    (hg : ∀ a f ws b, P a → g a f ws = .ok b → P b) {a : α} (ha : P a) : P (s.walkRunning g a).1 := by
  unfold State.walkRunning
  split
  · exact ha
  · exact s.walkImage_invariant P _ _ hg _ _ _ ha

/-! ### The start-up of a die in one, and the paths to it -/

/-- The progress of a die that has started up. -/
def DieSt.started (x : DieSt) : DieSt := { x with loaded := true, gsr := true, outputs := true, writes := true }

theorem State.dies_dieEvent_outputs (s : State) (d : Nat) : (s.dieEvent d 2).dies = SMap.upd {} s.dies d fun x => { x with outputs := true } := by
  simp [State.dieEvent, State.fpinsOn]

theorem State.dies_dieEvent_gsr (s : State) (d : Nat) : (s.dieEvent d 3).dies = SMap.upd {} s.dies d fun x => { x with gsr := true } := by
  simp [State.dieEvent, State.updDie]

theorem State.dies_dieEvent_writes (s : State) (d : Nat) : (s.dieEvent d 4).dies = SMap.upd {} s.dies d fun x => { x with writes := true } := by
  simp [State.dieEvent, State.updDie]

theorem State.die_dieUp (s : State) (d : Nat) : SMap.get {} (s.dieUp d).dies d = (SMap.get {} s.dies d).started := by
  simp [State.dieUp, State.dies_dieEvent_outputs, State.dies_dieEvent_gsr, State.dies_dieEvent_writes, State.updDie, SMap.upd,
    SMap.get_set_same, DieSt.started]

theorem State.parked_congr {s t : State} (h : t.dies = s.dies) : t.parked = s.parked := by
  funext d
  rw [State.parked, h, State.parked]

theorem State.reg_foldl_setReg_other {α : Type} (off : Nat) (at_ : α → Nat) (v : α → HWord) (l : List α) (s : State)
    (h : ∀ i, off ≠ at_ i) : (l.foldl (fun a i => a.setReg (at_ i) (v i)) s).reg off = s.reg off := by
  induction l generalizing s with
  | nil => rfl
  | cons i l ih => rw [List.foldl_cons, ih, State.reg_setReg_other _ _ (h i)]

theorem State.reg_writePaths (s : State) (off : Nat → Bool) {o : Nat} (ho : o < 0x11e0000) :
    (s.writePaths off).reg o = if o = R.HTR_DPATH then dpathWord off 4 else s.reg o := by
  rw [State.writePaths, State.reg_foldl_setReg_other o R.TR_DPATH _ _ _ (fun d => by unfold R.TR_DPATH; omega), State.reg_setReg]

theorem State.reg_openPaths (s : State) (d : Nat) : (s.openPaths d).reg R.HTR_DPATH = dpathWord s.parked 4 := by
  unfold State.openPaths
  extract_lets s1 s2
  rw [State.reg_writePaths _ _ (by decide), if_pos rfl, State.parked_congr (s := s) (by simp [s2, s1])]

/-! ### What an unpark comes to -/

/-- A powered die that has been loaded through the hinges that trained, has started up, and to which the paths are open (R299). -/
def State.unparkEnd (s : State) (d : Nat) : State :=
  (((s.dieUp d).openPaths d).setFld R.CFG_BSTAT ⟨16 + d, 16 + d⟩ 1).setFld R.HUB_PCTL ⟨20 + d, 20 + d⟩ 0

theorem State.dies_unparkEnd (s : State) (d : Nat) : (s.unparkEnd d).dies = (s.dieUp d).dies := by
  simp [State.unparkEnd]

/-- What the steps of an unpark of die d come to: they fail and leave everything as it was, or from a state `a` in which the die has power, and
the others are what they were, they go on to the end. -/
inductive UnparkEnds (s : State) (d : Nat) (lock : Bool) : State × Nat × Nat → Prop where
  | noLink : UnparkEnds s d lock (s, 9, 0)
  | loadError (cause : Nat) : UnparkEnds s d lock (s, 6, cause)
  | up (a : State) (hlock : lock = true) (ha : a.dieModes = (s.updDie d fun x => { x with off := false }).dieModes) :
      UnparkEnds s d lock (a.unparkEnd d, 0, 0)

theorem State.unparkSteps_ends (s : State) (d : Nat) (ups : BitVec 6) (lock : Bool) : UnparkEnds s d lock (s.unparkSteps d ups lock) := by
  unfold State.unparkSteps
  extract_lets s0 ks s1 r s3
  have hs1 : s1.dieModes = s0.dieModes := State.dieModes_foldl _ _ _ fun a k => a.dieModes_bringUp k _
  have hr : r.1.dieModes = s0.dieModes := by
    refine s1.walkRunning_invariant (fun a : State => a.dieModes = s0.dieModes) (fun a f ws b ha hb => ?_) hs1
    split at hb
    · split at hb
      · next hboot => exact Except.ok.inj hb ▸ (State.dieModes_congr (State.dies_bootFrame hboot)).trans ha
      · cases hb
    · exact Except.ok.inj hb ▸ ha
  refine iteInduction (fun _ => .noLink) fun _ => iteInduction (fun _ => .loadError 6) fun _ => ?_
  refine iteInduction (fun _ => .loadError r.2) fun _ => iteInduction (fun _ => .loadError 14) fun hlock => ?_
  exact .up r.1 (by simpa using hlock) hr

/-- A die that an unpark has taken through all its steps: powered, loaded and past its start-up order; PARKED is clear, LOADED set, and the hub's
paths are those of the dies that are not parked. -/
theorem State.unparkEnd_spec {s a : State} {d : Nat} (hd : d < 4) (ha : a.dieModes = (s.updDie d fun x => { x with off := false }).dieModes) :
    let t := a.unparkEnd d
    let x := SMap.get {} t.dies d
    x.off = false ∧ x.loaded = true ∧ x.gsr = true ∧ x.outputs = true ∧ x.writes = true ∧
      getF (t.reg R.HUB_PCTL) ⟨20 + d, 20 + d⟩ = 0 ∧ getF (t.reg R.CFG_BSTAT) ⟨16 + d, 16 + d⟩ = 1 ∧ t.reg R.HTR_DPATH = dpathWord t.parked 4 := by
  intro t x
  have hx : x = (SMap.get {} a.dies d).started := by
    show SMap.get {} (a.unparkEnd d).dies d = _
    rw [a.dies_unparkEnd, a.die_dieUp]
  have hoff : (SMap.get {} a.dies d).off = false := by
    calc (SMap.get {} a.dies d).off = (a.dieModes d).off := rfl
      _ = ((s.updDie d fun x => { x with off := false }).dieModes d).off := by rw [ha]
      _ = false := by simp [State.dieModes, State.updDie, SMap.upd, SMap.get_set_same]
  have hpctl : getF (t.reg R.HUB_PCTL) ⟨20 + d, 20 + d⟩ = 0 := by
    refine (State.fld_setFld_same _ _ _ _ (Nat.le_refl _) ?_).trans (Nat.zero_mod _)
    show 20 + d < 32
    omega
  have hbstat : getF (t.reg R.CFG_BSTAT) ⟨16 + d, 16 + d⟩ = 1 := by
    refine (State.fld_setFld_reg _ _ _ _ (by decide)).trans ((State.fld_setFld_same _ _ _ _ (Nat.le_refl _) ?_).trans ?_)
    · show 16 + d < 32
      omega
    · simp
  have hpath : t.reg R.HTR_DPATH = dpathWord t.parked 4 := by
    rw [State.parked_congr (a.dies_unparkEnd d), ← State.reg_openPaths]
    exact (State.reg_setFld_other _ _ _ (by decide)).trans (State.reg_setFld_other _ _ _ (by decide))
  rw [hx]
  exact ⟨hoff, rfl, rfl, rfl, rfl, hpctl, hbstat, hpath⟩

end Sys2Proof.Machine
end

section
/-!
PROOF. A park that is accepted (R298, Table 8.10): the engines of the die stop, and the die is quiesced.
-/
namespace Sys2Proof.Machine
open Sys2Proof.Claims

/-! ### What the queues of a router's port leave alone -/

/-- The engines, and of the rest what a park of a die speaks of. -/
def State.aside (s : State) : SMap EngSt × SMap DieSt × SMap ChanSt × SMap Entry × SMap Word × List HCmd :=
  (s.engs, s.dies, s.chans, s.arrays, s.fm, s.host)

@[simp] theorem State.aside_ite (c : Prop) [Decidable c] (a b : State) : (if c then a else b).aside = if c then a.aside else b.aside :=
  apply_ite State.aside c a b

@[simp] theorem State.aside_setFld (s : State) (off : Nat) (f : Fld) (n : Nat) : (s.setFld off f n).aside = s.aside := by
  simp [State.aside]

@[simp] theorem State.aside_addLed (s : State) (l i n : Nat) : (s.addLed l i n).aside = s.aside := by
  simp [State.aside]

@[simp] theorem State.aside_setLed (s : State) (l i : Nat) (v : HWord) : (s.setLed l i v).aside = s.aside := by
  simp [State.aside]

@[simp] theorem State.aside_setInq (s : State) (i v : Nat) (x : List TFlit) : (s.setInq i v x).aside = s.aside := by
  simp [State.aside]

@[simp] theorem State.aside_setSrcq (s : State) (i v : Nat) (x : SrcQ) : (s.setSrcq i v x).aside = s.aside := by
  simp [State.aside]

@[simp] theorem State.aside_setDm (s : State) (g a : Nat) (x : Entry) : (s.setDm g a x).aside = s.aside := by
  simp [State.aside]

theorem State.aside_kpr (s : State) (k : KprSt) : ({ s with kpr := k } : State).aside = s.aside := rfl

@[simp] theorem State.aside_setIocc (s : State) (l v n : Nat) : (s.setIocc l v n).aside = s.aside := by
  simp [State.setIocc, State.setChanFields]

@[simp] theorem State.aside_enter (s : State) (i v : Nat) (f : TFlit) : (s.enter i v f).aside = s.aside := by
  simp [State.enter, State.takeFlits]

@[simp] theorem State.aside_hasLeft (s : State) (i : Nat) (pk : Packet) : (s.hasLeft i pk).aside = s.aside := by
  unfold State.hasLeft
  split <;> rfl

@[simp] theorem State.aside_fillOne (s : State) (i v : Nat) : (s.fillOne i v).aside = s.aside := by
  unfold State.fillOne
  extract_lets q
  split <;> simp

@[simp] theorem State.aside_fill (s : State) (i v : Nat) : (s.fill i v).aside = s.aside :=
  List.foldlRecOn (motive := fun a : State => a.aside = s.aside) _ _ rfl fun a ha _ _ => (a.aside_fillOne i v).trans ha

@[simp] theorem State.aside_launch (s : State) (pk : Packet) : (s.launch pk).aside = s.aside := by
  simp [State.launch]

@[simp] theorem State.aside_routeReq (s : State) (pk : Packet) : (s.routeReq pk).aside = s.aside := by
  unfold State.routeReq
  split
  · simp
  · split
    · simp [State.setTrErr]
    · rfl

@[simp] theorem State.aside_engPend (s : State) (g : Nat) : (s.engPend g).aside = s.aside := by
  simp [State.engPend]

@[simp] theorem State.aside_engRaise (s : State) (g : Nat) (f : Fld) : (s.engRaise g f).aside = s.aside := by
  simp [State.engRaise]

@[simp] theorem State.aside_checkDm (s : State) (g a : Nat) : (s.checkDm g a).aside = s.aside := by
  simp [State.checkDm]

theorem State.eng_congr_aside {s t : State} (h : t.aside = s.aside) : t.eng = s.eng := by
  obtain ⟨hengs, -⟩ := Prod.mk.inj h
  funext k
  rw [State.eng, hengs, State.eng]

/-! ### What one engine leaves of the others -/

theorem State.eng_setEng (s : State) (g k : Nat) (x : EngSt) : (s.setEng g x).eng k = if k = g then x else s.eng k := by
  by_cases h : k = g
  · rw [if_pos h, h]
    exact SMap.get_set_same _ _ _ _
  · rw [if_neg h]
    exact SMap.get_set_other _ _ _ _ _ _ h

/-- From `s` to `t` no engine but g moved, and of the rest nothing that a park of a die speaks of. -/
structure OnlyEngine (g : Nat) (s t : State) : Prop where
  others : ∀ k, k ≠ g → t.eng k = s.eng k
  rest : t.aside.2 = s.aside.2

section
variable {g : Nat} {s t u : State}

theorem OnlyEngine.of_aside (h : t.aside = s.aside) : OnlyEngine g s t where
  others _ _ := by rw [State.eng_congr_aside h]
  rest := by rw [h]

theorem OnlyEngine.refl : OnlyEngine g s s := .of_aside rfl

theorem OnlyEngine.trans (h : OnlyEngine g s t) (h' : OnlyEngine g t u) : OnlyEngine g s u where
  others k hk := (h'.others k hk).trans (h.others k hk)
  rest := h'.rest.trans h.rest

theorem OnlyEngine.setEng (h : OnlyEngine g s t) (x : EngSt) : OnlyEngine g s (t.setEng g x) where
  others k hk := by rw [State.eng_setEng, if_neg hk, h.others k hk]
  rest := h.rest

/-- What port B does for an engine: it moves no other, and takes this one into no other state. -/
def OnlyEngine.Steady (g : Nat) (s t : State) : Prop := OnlyEngine g s t ∧ (t.eng g).state = (s.eng g).state

theorem OnlyEngine.Steady.of_aside (h : t.aside = s.aside) : OnlyEngine.Steady g s t :=
  ⟨.of_aside h, by rw [State.eng_congr_aside h]⟩

theorem OnlyEngine.Steady.trans (h : OnlyEngine.Steady g s t) (h' : OnlyEngine.Steady g t u) : OnlyEngine.Steady g s u :=
  ⟨h.1.trans h'.1, h'.2.trans h.2⟩

theorem OnlyEngine.Steady.setEng (h : OnlyEngine.Steady g s t) {x : EngSt} (hx : x.state = (t.eng g).state) :
    OnlyEngine.Steady g s (t.setEng g x) :=
  ⟨h.1.setEng x, by rw [State.eng_setEng, if_pos rfl, hx, h.2]⟩

end

theorem State.portB_steady (s : State) (g : Nat) : OnlyEngine.Steady g s (s.portB g) := by
  unfold State.portB
  split
  · exact .of_aside rfl
  · extract_lets a e s1 front pk due x s2 s3
    have h1 : OnlyEngine.Steady g s s1 := .of_aside (s.aside_checkDm g a)
    have h2 : OnlyEngine.Steady g s s2 := h1.setEng rfl
    have h3 : OnlyEngine.Steady g s s3 := h2.trans (.of_aside (s2.aside_engRaise g _))
    refine iteInduction (fun _ => h1.setEng rfl) fun _ => iteInduction (fun _ => h2.trans (.of_aside (s2.aside_routeReq pk))) fun _ => ?_
    exact iteInduction (fun _ => h3) fun _ => h3.trans (.of_aside (s3.aside_launch _))

theorem State.portBTimes_steady (s : State) (g n : Nat) : OnlyEngine.Steady g s (s.portBTimes g n) := by
  induction n generalizing s with
  | zero => exact .of_aside rfl
  | succ n ih => exact (s.portB_steady g).trans (ih _)

theorem State.settlePortB_steady (s : State) (g : Nat) : OnlyEngine.Steady g s (s.settlePortB g) :=
  iteInduction (fun _ => .of_aside rfl) fun _ => s.portBTimes_steady g _

theorem State.wdogSettle_onlyEngine (s : State) (g : Nat) : OnlyEngine g s (s.wdogSettle g) := by
  refine iteInduction (fun _ => ?_) fun _ => .refl
  unfold State.wdogExpires
  extract_lets d e x s1
  have h1 : OnlyEngine g s s1 := .of_aside (by simp [s1])
  exact iteInduction (fun _ => h1.setEng _) fun _ => h1.setEng _

/-! ### Engines that stop -/

/-- Engine g is neither in RUN nor in HALT. -/
def State.engRests (s : State) (g : Nat) : Prop := (s.eng g).state ≠ .run ∧ (s.eng g).state ≠ .halt

theorem State.engStop_spec (s : State) (g : Nat) : OnlyEngine g s (s.engStop g) ∧ (s.engStop g).engRests g := by
  unfold State.engStop
  extract_lets s1 x stop left
  have h1 : OnlyEngine g s s1 := s.wdogSettle_onlyEngine g
  have hpend : (s1.setEng g { x with state := .stopped, stall := 0 }).engPend g |>.aside.2 = s1.aside.2 := by rw [State.aside_engPend]; rfl
  have hsteady := ((s1.setEng g { x with state := .stopped, stall := 0 }).engPend g).settlePortB_steady g
  have hstop : OnlyEngine g s stop := ((h1.setEng _).trans (.of_aside (State.aside_engPend _ g))).trans hsteady.1
  have hstopped : (stop.eng g).state = .stopped := by
    rw [hsteady.2, State.eng_congr_aside (State.aside_engPend _ g), State.eng_setEng, if_pos rfl]
  have hrests : stop.engRests g := by simp [State.engRests, hstopped]
  by_cases hrun : x.state = .run
  · rw [if_pos hrun]
    exact ⟨hstop, hrests⟩
  · rw [if_neg hrun]
    by_cases hhalt : x.state = .halt
    · rw [if_pos hhalt]
      have hkpr := (State.aside_setFld _ R.KPR_STAT F.KPR_STAT.NHALT (min 255 left.length)).trans
        (stop.aside_kpr { stop.kpr with halted := left })
      exact ⟨hstop.trans (.of_aside hkpr), by rw [State.engRests, State.eng_congr_aside hkpr]; exact hrests⟩
    · rw [if_neg hhalt]
      exact ⟨h1, hrun, hhalt⟩

theorem State.engRests_engStop (s : State) {g k : Nat} (h : s.engRests k) : (s.engStop g).engRests k := by
  obtain ⟨honly, hrests⟩ := s.engStop_spec g
  by_cases hk : k = g
  · exact hk ▸ hrests
  · rw [State.engRests, honly.others k hk]
    exact h

/-- The stop of some engines of die d. -/
theorem State.stopEngines_spec (s : State) (d : Nat) (es : List Nat) (hes : ∀ e ∈ es, e < 128) :
    let t := es.foldl (fun a e => a.engStop (engId d e)) s
    (∀ e ∈ es, t.engRests (engId d e)) ∧ (∀ k, engDie k ≠ d → t.eng k = s.eng k) ∧ t.aside.2 = s.aside.2 := by
  induction es generalizing s with
  | nil => exact ⟨nofun, fun _ _ => rfl, rfl⟩
  | cons e es ih =>
    intro t
    obtain ⟨honly, hrests⟩ := s.engStop_spec (engId d e)
    obtain ⟨hall, hothers, hrest⟩ := ih (s.engStop (engId d e)) fun i hi => hes i (List.mem_cons_of_mem _ hi)
    refine ⟨List.forall_mem_cons.2 ⟨?_, hall⟩, fun k hk => (hothers k hk).trans (honly.others k ?_), hrest.trans honly.rest⟩
    · exact List.foldlRecOn (motive := fun a : State => a.engRests (engId d e)) es _ hrests fun a ha _ _ => a.engRests_engStop ha
    · rintro rfl
      have := hes e List.mem_cons_self
      exact hk (by unfold engDie engId; omega)

/-! ### A die that is quiesced -/

theorem SMap.get_of_unlisted {α : Type} (x : α) (m : SMap α) (k : Nat) (h : ∀ e ∈ m, e.1 ≠ k) : SMap.get x m k = x := by
  induction m with
  | nil => rfl
  | cons e m ih =>
    obtain ⟨hne, hrest⟩ := List.forall_mem_cons.1 h
    rw [SMap.get, if_neg hne]
    split
    · rfl
    · exact ih hrest

theorem SMap.get_drop {α : Type} (x : α) (m : SMap α) {p : Nat → Bool} {k : Nat} (h : p k = true) : SMap.get x (SMap.drop m p) k = x := by
  refine SMap.get_of_unlisted x _ k fun e he hk => ?_
  have hp := (List.mem_filter.1 he).2
  rw [hk, h] at hp
  cases hp

/-- A host command once a park of die d has begun: the park is noted in one that aims at the die and has not ended. -/
def State.told (s : State) (d : Nat) (c : HCmd) : HCmd := if c.aims d = true ∧ s.cmdResult c = none then { c with gone := d :: c.gone } else c

/-- Die d is quiesced: `t` is what a park that `asked` asks for makes of `s`, but for the host commands. -/
structure Quiesced (s : State) (d : Nat) (asked : Option Nat) (t : State) : Prop where
  park : t.park = some ⟨d, asked⟩
  busy : t.flag R.HUB_PCTL F.HUB_PCTL.BUSY = true
  rests : ∀ e, e < 128 → t.engRests (engId d e)
  engs : ∀ g, engDie g ≠ d → t.eng g = s.eng g
  writes : (SMap.get {} t.dies d).writes = false
  outputs : (SMap.get {} t.dies d).outputs = false
  dies : ∀ x, x ≠ d → SMap.get {} t.dies x = SMap.get {} s.dies x
  pads : ∀ n, n < 48 → t.fpad d n = (false, false)
  paths : t.reg R.HTR_DPATH = dpathWord (fun x => s.parked x || decide (x = d)) 4
  chans : t.chans = s.chans
  arrays : t.arrays = s.arrays
  fm : t.fm = s.fm

theorem State.aside_setReg (s : State) (off : Nat) (v : HWord) : (s.setReg off v).aside = s.aside := by
  simp [State.aside]

theorem State.aside_writePaths (s : State) (off : Nat → Bool) : (s.writePaths off).aside = s.aside :=
  List.foldlRecOn (motive := fun a : State => a.aside = s.aside) _ _ (s.aside_setReg _ _) fun a ha _ _ => (a.aside_setReg _ _).trans ha

theorem State.fpins_writePaths (s : State) (off : Nat → Bool) : (s.writePaths off).fpins = s.fpins :=
  List.foldlRecOn (motive := fun a : State => a.fpins = s.fpins) _ _ (by simp) fun _ ha _ _ => by simp [ha]

/-- User pins at rest drive nothing. -/
theorem State.fpad_at_rest {s : State} {d n : Nat} (hpin : s.fpin d n = {}) (hout : (SMap.get {} s.dies d).outputs = false) :
    s.fpad d n = (false, false) := by
  simp [State.fpad, hpin, hout]

/-- Steps 0 and 1 of Table 8.10 that come before the paths are written. -/
def State.quiesce (s : State) (d : Nat) : State :=
  ((s.fpinsOff d).updDie d fun x => { x with writes := false }).setFld R.HUB_PCTL F.HUB_PCTL.BUSY 1

theorem State.die_quiesce_same (s : State) (d : Nat) :
    SMap.get {} (s.quiesce d).dies d = { SMap.get {} s.dies d with outputs := false, writes := false } := by
  simp [State.quiesce, State.updDie, State.fpinsOff, SMap.upd, SMap.get_set_same]

theorem State.die_quiesce_other (s : State) {d x : Nat} (h : x ≠ d) : SMap.get {} (s.quiesce d).dies x = SMap.get {} s.dies x := by
  simp [State.quiesce, State.updDie, State.fpinsOff, SMap.upd, SMap.get_set_other _ _ _ _ _ _ h]

theorem State.fpin_quiesce (s : State) {d n : Nat} (hn : n < 48) : SMap.get {} (s.quiesce d).fpins (64 * d + n) = {} := by
  have hkey : (decide ((64 * d + n) / 64 = d)) = true := by
    rw [decide_eq_true_eq]
    omega
  exact SMap.get_drop (p := fun k => decide (k / 64 = d)) {} s.fpins hkey

theorem State.aside_quiesce (s : State) (d : Nat) :
    (s.quiesce d).aside = (s.engs, (s.quiesce d).dies, s.chans, s.arrays, s.fm, s.host) := by
  simp [State.quiesce, State.aside, State.updDie, State.fpinsOff]

/-- The host commands are told of the park of die d, and its engines stop. -/
def State.parkStops (s : State) (d : Nat) : State :=
  (List.range 128).foldl (fun a e => a.engStop (engId d e)) { s with host := s.host.map (s.told d) }

theorem State.parkBegin_eq (s : State) (d : Nat) (asked : Option Nat) : s.parkBegin d asked =
    { ((s.parkStops d).quiesce d).writePaths (fun x => s.parked x || decide (x = d)) with park := some ⟨d, asked⟩ } := rfl

theorem State.parkStops_spec (s : State) (d : Nat) :
    (∀ e, e < 128 → (s.parkStops d).engRests (engId d e)) ∧ (∀ g, engDie g ≠ d → (s.parkStops d).eng g = s.eng g) ∧
      (s.parkStops d).aside = ((s.parkStops d).engs, s.dies, s.chans, s.arrays, s.fm, s.host.map (s.told d)) := by
  obtain ⟨hrests, hengs, hrest⟩ := State.stopEngines_spec { s with host := s.host.map (s.told d) } d (List.range 128) fun e he =>
    List.mem_range.1 he
  exact ⟨fun e he => hrests e (List.mem_range.2 he), hengs, Prod.ext rfl hrest⟩

theorem State.parkBegin_quiesced (s : State) (d : Nat) (asked : Option Nat) :
    Quiesced s d asked (s.parkBegin d asked) ∧ (s.parkBegin d asked).host = s.host.map (s.told d) := by
  rw [State.parkBegin_eq]
  obtain ⟨hrests, hengs, hstops⟩ := s.parkStops_spec d
  generalize s.parkStops d = a at *
  have hfpins := (a.quiesce d).fpins_writePaths fun x => s.parked x || decide (x = d)
  have haside := (a.quiesce d).aside_writePaths fun x => s.parked x || decide (x = d)
  have hreg := fun o => (a.quiesce d).reg_writePaths (fun x => s.parked x || decide (x = d)) (o := o)
  generalize (a.quiesce d).writePaths (fun x => s.parked x || decide (x = d)) = t at *
  simp only [State.aside_quiesce] at haside
  simp only [State.aside, Prod.mk.injEq] at haside hstops
  obtain ⟨hengs', hdies', hchans', harrays', hfm', hhost'⟩ := haside
  obtain ⟨-, hdies, hchans, harrays, hfm, hhost⟩ := hstops
  have heng : t.eng = a.eng := by
    funext g
    rw [State.eng, hengs', State.eng]
  have hdie : SMap.get {} t.dies d = { SMap.get {} a.dies d with outputs := false, writes := false } := by
    rw [hdies', a.die_quiesce_same]
  refine ⟨⟨rfl, ?busy, fun e he => ?rests, fun g hg => ?engs, by rw [hdie], by rw [hdie], fun x hx => ?dies, fun n hn => ?pads, ?paths,
    hchans'.trans hchans, harrays'.trans harrays, hfm'.trans hfm⟩, hhost'.trans hhost⟩
  case busy =>
    show t.flag R.HUB_PCTL F.HUB_PCTL.BUSY = true
    rw [State.flag, State.fld, hreg _ (by decide), if_neg (by decide)]
    exact State.flag_setFld_one _ _ _ (by decide) (by decide)
  case rests =>
    show t.engRests (engId d e)
    rw [State.engRests, heng]
    exact hrests e he
  case engs =>
    show t.eng g = s.eng g
    rw [heng, hengs g hg]
  case dies =>
    show SMap.get {} t.dies x = _
    rw [hdies', a.die_quiesce_other hx, hdies]
  case pads =>
    show t.fpad d n = _
    refine State.fpad_at_rest ?_ (by rw [hdie])
    rw [State.fpin, hfpins, a.fpin_quiesce hn]
  case paths =>
    show t.reg R.HTR_DPATH = _
    rw [hreg _ (by decide), if_pos rfl]

end Sys2Proof.Machine
end

section
/-!
PROOF. Park and unpark requests, by HUB_PCTL and by host command (R297, R299).
-/
namespace Sys2Proof.Machine
open Sys2Proof.Claims

/-! ### A write of HUB_PCTL leaves the checks as they were -/

/-- From `s` to `t` no more than HUB_PCTL has changed. -/
structure PctlOnly (s t : State) : Prop where
  frame : t = { s with regs := t.regs }
  regs : RegsBut s t [R.HUB_PCTL]

theorem PctlOnly.setFld {s t : State} (h : PctlOnly s t) (f : Fld) (n : Nat) : PctlOnly s (t.setFld R.HUB_PCTL f n) where
  frame := congrArg (fun a : State => { a with regs := (t.setFld R.HUB_PCTL f n).regs }) h.frame
  regs o ho := (t.reg_setFld_other f n (by simpa using ho)).trans (h.regs o ho)

theorem State.writeReg_pctl (s : State) (v : HWord) : PctlOnly s (s.writeReg R.HUB_PCTL v) := by
  obtain ⟨row, -, hreg, hkind⟩ : ∃ row ∈ regTab, regAt R.HUB_PCTL = some (row, []) ∧ row.kind = .HUB_PCTL := by decide +kernel
  have hm : stMember row.kind [] = none := by rw [hkind]; rfl
  have habs : s.absent R.HUB_PCTL row.kind [] = false := by rw [hkind]; rfl
  rw [writeReg_unstaged hreg habs hm]
  exact ⟨rfl, regsBut_putReg s _ _⟩

section
variable {s t : State} (h : PctlOnly s t)
include h

theorem PctlOnly.reg_above {o : Nat} (ho : R.HUB_PCTL < o) : t.reg o = s.reg o :=
  h.regs o (by simpa using Nat.ne_of_gt ho)

theorem PctlOnly.parked : t.parked = s.parked := State.parked_congr (by rw [h.frame])

theorem PctlOnly.eng : t.eng = s.eng := by rw [h.frame]; rfl

theorem PctlOnly.dieDark : t.dieDark = s.dieDark := by
  funext d
  have hstep : t.reg R.HUB_STEP = s.reg R.HUB_STEP := h.regs _ (by decide)
  have hdies : t.dies = s.dies := by rw [h.frame]
  rw [State.dieDark, hstep, hdies, State.dieDark]

theorem PctlOnly.hingeState : t.hingeState = s.hingeState := by
  funext e
  have hstat : R.HUB_PCTL < R.HNG_STAT e := by
    unfold R.HNG_STAT hngBlock R.HUB_PCTL
    split <;> omega
  rw [State.hingeState, State.fld, h.reg_above hstat, State.hingeState, State.fld]

theorem PctlOnly.armState : t.armState = s.armState := by
  funext k
  rw [State.armState, State.fld, h.reg_above (by unfold R.SHT_STATUS R.HUB_PCTL; omega), State.armState, State.fld]

theorem PctlOnly.setOf : t.setOf = s.setOf := by
  have hin : t.inSet = s.inSet := by
    funext k m
    rw [State.inSet, h.reg_above (by unfold R.SHT_SET R.HUB_PCTL; omega), State.inSet]
  funext k
  rw [State.setOf, hin, State.setOf]

theorem PctlOnly.parkCheck : t.parkCheck = s.parkCheck := by
  funext d
  have hpark : t.park = s.park := by rw [h.frame]
  have hreq : t.unparkReq = s.unparkReq := by rw [h.frame]
  have hload : t.loadTo d = s.loadTo d := by rw [h.frame]; rfl
  have harmed : t.dieArmed d = s.dieArmed d := by rw [State.dieArmed, h.armState, h.setOf, State.dieArmed]
  have hreach : t.hubReach = s.hubReach := by
    funext ok
    rw [State.hubReach, h.hingeState, State.hubReach]
  have hforbidden : t.parkForbidden d = s.parkForbidden d := by
    rw [State.parkForbidden, hreach, h.dieDark, h.parked, State.parkForbidden]
  rw [State.parkCheck, h.dieDark, hpark, hreq, hload, harmed, hforbidden, State.parkCheck]

theorem PctlOnly.engStatusView : t.engStatusView = s.engStatusView := by
  funext g
  have hbank : t.bank = s.bank := by rw [h.frame]
  have htpend : t.engTpend g = s.engTpend g := by rw [h.frame]; rfl
  have hstatus : R.HUB_PCTL < R.ENG_STATUS (engDie g) (engIx g) := by unfold R.ENG_STATUS R.HUB_PCTL; omega
  rw [State.engStatusView, h.eng, hbank, htpend, State.fld, h.reg_above hstatus, State.engStatusView, State.fld]

theorem PctlOnly.told : t.told = s.told := by
  have hres : t.cmdResult = s.cmdResult := by
    funext c
    rw [State.cmdResult, h.eng, h.engStatusView, State.cmdResult]
  funext d c
  rw [State.told, hres, State.told]

/-- Quiescing a die after a write of HUB_PCTL is quiescing it. -/
theorem PctlOnly.quiesced {d : Nat} {asked : Option Nat} {u : State} (hq : Quiesced t d asked u) : Quiesced s d asked u :=
  { hq with
    engs := fun g hg => (hq.engs g hg).trans (by rw [h.eng])
    dies := fun x hx => (hq.dies x hx).trans (by rw [h.frame])
    paths := hq.paths.trans (by rw [h.parked])
    chans := hq.chans.trans (by rw [h.frame])
    arrays := hq.arrays.trans (by rw [h.frame])
    fm := hq.fm.trans (by rw [h.frame]) }

end

/-! ### The requests -/

theorem State.parkCheck_status {s : State} {d st : Nat} (h : s.parkCheck d = some st) : st = 1 ∨ st = 2 := by
  unfold State.parkCheck at h
  split_ifs at h <;> simp_all

theorem State.parkRequest_refused {s : State} {d st : Nat} (h : s.parkCheck d = some st) (asked : Option Nat) :
    s.parkRequest d asked = (some st, s.setFld R.HUB_PCTL F.HUB_PCTL.RESULT st) := by
  rw [State.parkRequest, h]

theorem State.parkRequest_accepted {s : State} {d : Nat} (h : s.parkCheck d = none) (asked : Option Nat) :
    s.parkRequest d asked = (none, s.parkBegin d asked) := by
  rw [State.parkRequest, h]

theorem State.unparkCheck_unparked {s : State} {d : Nat} (h : s.parked d = false) : s.unparkCheck d = some 2 := by
  simp [State.unparkCheck, h]

theorem State.unparkCheck_busy {s : State} {d : Nat} (h : s.parked d = true) (hbusy : s.park.isSome = true ∨ s.unparkReq.isSome = true) :
    s.unparkCheck d = some 1 := by
  rw [State.unparkCheck, if_neg (by simp [h]), if_pos hbusy]

theorem State.unparkCheck_taken {s : State} {d : Nat} (h : s.parked d = true) (hpark : s.park = none) (hreq : s.unparkReq = none) :
    s.unparkCheck d = none := by
  simp [State.unparkCheck, h, hpark, hreq]

theorem State.unparkRequest_refused {s : State} {d st : Nat} (h : s.unparkCheck d = some st) (ups : BitVec 6) (lock : Bool) :
    s.unparkRequest d ups lock = (s.setFld R.HUB_PCTL F.HUB_PCTL.RESULT st, st, 0) := by
  rw [State.unparkRequest, h]

theorem State.unparkRequest_taken {s : State} {d : Nat} (h : s.unparkCheck d = none) (ups : BitVec 6) (lock : Bool) :
    let r := s.unparkSteps d ups lock
    s.unparkRequest d ups lock = (r.1.setFld R.HUB_PCTL F.HUB_PCTL.RESULT r.2.1, r.2) := by
  rw [State.unparkRequest, h]

/-! ### What HUB_PCTL asks for -/

/-- The fields of what PCTL_PARK and PCTL_UNPARK write. -/
theorem pctlPark_fields (d : Fin 4) : let v : HWord := BitVec.ofNat 32 (2 ^ 31 + d)
    v.getLsbD 31 = true ∧ v.getLsbD 4 = false ∧ getF v F.HUB_PCTL.DIE = d := by
  revert d
  decide

theorem pctlUnpark_fields (d : Fin 4) : let v : HWord := BitVec.ofNat 32 (2 ^ 31 + 16 + d)
    v.getLsbD 31 = true ∧ v.getLsbD 4 = true ∧ getF v F.HUB_PCTL.DIE = d := by
  revert d
  decide

theorem exec_pctlPark (s : State) (d : Fin 4) : ∃ a, PctlOnly s a ∧ exec (.pctlPark d) s = .next (a.parkRequest d none).2 := by
  obtain ⟨hgo, hunpark, hdie⟩ := pctlPark_fields d
  refine ⟨_, s.writeReg_pctl (BitVec.ofNat 32 (2 ^ 31 + d)), ?_⟩
  show execPctlPark d s = _
  simp only [execPctlPark, State.pctlWrite, hgo, hunpark, hdie, not_true, if_false, not_false_eq_true, if_true, Bool.false_eq_true]

/-- An unpark of die d waits for its steps. -/
def State.unparkWaits (s : State) (d : Nat) : State := ({ s with unparkReq := some d } : State).setFld R.HUB_PCTL F.HUB_PCTL.BUSY 1

/-- A waiting unpark is no longer asked for once its steps run, and BUSY is clear. -/
def State.unparkStarts (s : State) : State := ({ s with unparkReq := none } : State).setFld R.HUB_PCTL F.HUB_PCTL.BUSY 0

theorem State.setFld_frame (s : State) (off : Nat) (f : Fld) (n : Nat) : s.setFld off f n = { s with regs := (s.setFld off f n).regs } := by
  rw [State.setFld, State.setReg]

theorem State.unparkWaits_frame (s : State) (d : Nat) : s.unparkWaits d = { s with unparkReq := some d, regs := (s.unparkWaits d).regs } :=
  State.setFld_frame _ _ _ _

theorem State.unparkStarts_frame (s : State) : s.unparkStarts = { s with unparkReq := none, regs := s.unparkStarts.regs } :=
  State.setFld_frame _ _ _ _

/-- The write of HUB_PCTL that asks for an unpark. -/
theorem pctlWrite_unpark (s : State) (d : Fin 4) : ∃ a, PctlOnly s a ∧
    s.pctlWrite (BitVec.ofNat 32 (2 ^ 31 + 16 + d)) = (match a.unparkCheck d with
      | some st => a.setFld R.HUB_PCTL F.HUB_PCTL.RESULT st
      | none => a.unparkWaits d) := by
  obtain ⟨hgo, hunpark, hdie⟩ := pctlUnpark_fields d
  refine ⟨_, s.writeReg_pctl (BitVec.ofNat 32 (2 ^ 31 + 16 + d)), ?_⟩
  simp only [State.pctlWrite, hgo, hunpark, hdie, not_true, if_false]
  rfl

theorem exec_pctlUnpark_refused {s : State} {d : Fin 4} (hreq : s.unparkReq = none) {st : Nat} (hst : st < 16)
    (hcheck : ∀ a, PctlOnly s a → a.unparkCheck d = some st) (ups : BitVec 6) (lock : Bool) :
    ∃ t, exec (.pctlUnpark d ups lock) s = .next t ∧ t.fld R.HUB_PCTL F.HUB_PCTL.RESULT = st ∧ PctlOnly s t := by
  obtain ⟨a, ha, hwrite⟩ := pctlWrite_unpark s d
  rw [hcheck a ha] at hwrite
  have ht := ha.setFld F.HUB_PCTL.RESULT st
  have hnone : (a.setFld R.HUB_PCTL F.HUB_PCTL.RESULT st).unparkReq = none := by rw [ht.frame]; exact hreq
  refine ⟨_, ?_, (State.fld_setFld_same a _ F.HUB_PCTL.RESULT st (by decide) (by decide)).trans (Nat.mod_eq_of_lt hst), ht⟩
  show execPctlUnpark d ups lock s = _
  simp only [execPctlUnpark, hreq, hwrite, State.unparkRun, hnone, reduceCtorEq, if_false, ne_eq, not_false_eq_true, if_true]

/-- An unpark of die d that HUB_PCTL asks for, or has asked for before, waits at `w`, and runs its steps from there. -/
theorem exec_pctlUnpark_waits {s : State} {d : Fin 4} (hreq : s.unparkReq = none ∨ s.unparkReq = some d.val) (hp : s.parked d = true)
    (hpark : s.park = none) (ups : BitVec 6) (lock : Bool) : ∃ w : State, w = { s with unparkReq := some d.val, regs := w.regs } ∧
      RegsBut s w [R.HUB_PCTL] ∧ exec (.pctlUnpark d ups lock) s = .next (w.unparkRun d ups lock) := by
  obtain hreq | hreq := hreq
  · obtain ⟨a, ha, hwrite⟩ := pctlWrite_unpark s d
    have hcheck : a.unparkCheck d = none :=
      State.unparkCheck_taken (by rw [ha.parked, hp]) (by rw [ha.frame]; exact hpark) (by rw [ha.frame]; exact hreq)
    rw [hcheck] at hwrite
    refine ⟨a.unparkWaits d, (a.unparkWaits_frame d).trans ?_, (ha.setFld F.HUB_PCTL.BUSY 1).regs, ?_⟩
    · exact congrArg (fun b : State => { b with unparkReq := some d.val, regs := (a.unparkWaits d).regs }) ha.frame
    · show execPctlUnpark d ups lock s = _
      simp only [execPctlUnpark, hreq, hwrite, reduceCtorEq, if_false]
  · refine ⟨s, by rw [← hreq], fun _ _ => rfl, ?_⟩
    show execPctlUnpark d ups lock s = _
    simp only [execPctlUnpark, hreq, if_true]

theorem State.unparkCheck_unparkStarts {s : State} {d : Nat} (hp : s.parked d = true) (hpark : s.park = none) :
    s.unparkStarts.unparkCheck d = none := by
  have hp' : s.unparkStarts.parked d = true := by rw [State.parked_congr (s := s) (by rw [s.unparkStarts_frame]), hp]
  exact State.unparkCheck_taken hp' (by rw [s.unparkStarts_frame]; exact hpark) (by rw [s.unparkStarts_frame])

theorem State.unparkRun_eq {s : State} {d : Nat} (hreq : s.unparkReq = some d) (ups : BitVec 6) (lock : Bool) :
    s.unparkRun d ups lock = (s.unparkStarts.unparkRequest d ups lock).1 :=
  if_neg (not_not_intro hreq)

theorem State.unparkRun_waiting {s : State} {d : Nat} (hreq : s.unparkReq = some d) (hp : s.parked d = true) (hpark : s.park = none)
    (ups : BitVec 6) (lock : Bool) : let r := s.unparkStarts.unparkSteps d ups lock
    s.unparkRun d ups lock = r.1.setFld R.HUB_PCTL F.HUB_PCTL.RESULT r.2.1 := by
  intro r
  rw [State.unparkRun_eq hreq, State.unparkRequest_taken (State.unparkCheck_unparkStarts hp hpark)]

theorem exec_pctlUnpark_taken {s : State} {d : Fin 4} (hreq : s.unparkReq = none ∨ s.unparkReq = some d.val) (hp : s.parked d = true)
    (hpark : s.park = none) (ups : BitVec 6) (lock : Bool) : ∃ s1 : State, s1 = { s with unparkReq := none, regs := s1.regs } ∧
      RegsBut s s1 [R.HUB_PCTL] ∧ s1.flag R.HUB_PCTL F.HUB_PCTL.BUSY = false ∧ exec (.pctlUnpark d ups lock) s =
        .next ((s1.unparkSteps d ups lock).1.setFld R.HUB_PCTL F.HUB_PCTL.RESULT (s1.unparkSteps d ups lock).2.1) := by
  obtain ⟨w, hframe, hregs, hexec⟩ := exec_pctlUnpark_waits hreq hp hpark ups lock
  have hwp : w.parked d = true := by rw [hframe]; exact hp
  refine ⟨w.unparkStarts, w.unparkStarts_frame.trans ?_, fun o ho => ?_, State.flag_setFld_zero _ _ _ (by decide) (by decide), ?_⟩
  · exact congrArg (fun b : State => { b with unparkReq := none, regs := w.unparkStarts.regs }) hframe
  · exact (State.reg_setFld_other _ _ _ (by simpa using ho)).trans (hregs o ho)
  · rw [hexec, State.unparkRun_waiting (by rw [hframe]) hwp (by rw [hframe]; exact hpark)]

/-! ### The host commands -/

theorem exec_unpark {s : State} {q : Fin 64} {c : HCmd} (hc : s.nextCmd q 8 = some c) (ups : BitVec 6) (lock : Bool) :
    exec (.unpark q ups lock) s = .next ((s.unparkRequest (c.w 4) ups lock).1.endCmd c (s.unparkRequest (c.w 4) ups lock).2.1 0
      (s.unparkRequest (c.w 4) ups lock).2.2) := by
  show execUnpark q ups lock s = _
  rw [execUnpark, hc]

theorem exec_unpark_refused {s : State} {q : Fin 64} {c : HCmd} {d : Nat} (hc : s.nextCmd q 8 = some c) (hd : c.w 4 = d) {st : Nat}
    (h : s.unparkCheck d = some st) (ups : BitVec 6) (lock : Bool) :
    exec (.unpark q ups lock) s = .next ((s.setFld R.HUB_PCTL F.HUB_PCTL.RESULT st).endCmd c st 0 0) := by
  rw [exec_unpark hc, hd, State.unparkRequest_refused h]

theorem exec_unpark_taken {s : State} {q : Fin 64} {c : HCmd} {d : Nat} (hc : s.nextCmd q 8 = some c) (hd : c.w 4 = d)
    (h : s.unparkCheck d = none) (ups : BitVec 6) (lock : Bool) : let r := s.unparkSteps d ups lock
    exec (.unpark q ups lock) s = .next ((r.1.setFld R.HUB_PCTL F.HUB_PCTL.RESULT r.2.1).endCmd c r.2.1 0 r.2.2) := by
  rw [exec_unpark hc, hd, State.unparkRequest_taken h]

theorem exec_park_refused {s : State} {q : Fin 64} {c : HCmd} {d : Nat} (hc : s.nextCmd q 7 = some c) (hd : c.w 4 = d) {st : Nat}
    (h : s.parkCheck d = some st) : exec (.park q) s = .next ((s.setFld R.HUB_PCTL F.HUB_PCTL.RESULT st).endCmd c st 0 0) := by
  show execPark q s = _
  simp only [execPark, hc, hd, State.parkRequest_refused h]

theorem exec_park_accepted {s : State} {q : Fin 64} {c : HCmd} {d : Nat} (hc : s.nextCmd q 7 = some c) (hd : c.w 4 = d)
    (h : s.parkCheck d = none) :
    exec (.park q) s = .next ((s.parkBegin d (some c.id)).updCmd c.id fun x => { x with started := true }) := by
  show execPark q s = _
  simp only [execPark, hc, hd, State.parkRequest_accepted h]

/-- What a die's quiescing comes to does not hang on the host commands. -/
theorem Quiesced.updCmd {s t : State} {d : Nat} {asked : Option Nat} (h : Quiesced s d asked t) (id : Nat) (f : HCmd → HCmd) :
    Quiesced s d asked (t.updCmd id f) :=
  ⟨h.park, h.busy, h.rests, h.engs, h.writes, h.outputs, h.dies, h.pads, h.paths, h.chans, h.arrays, h.fm⟩

theorem State.told_id (s : State) (d : Nat) (c : HCmd) : (s.told d c).id = c.id := by
  unfold State.told
  split <;> rfl

theorem State.host_updCmd_parkBegin (s : State) (d id : Nat) (asked : Option Nat) (f : HCmd → HCmd) :
    ((s.parkBegin d asked).updCmd id f).host = s.host.map fun x => if x.id = id then f (s.told d x) else s.told d x := by
  rw [State.updCmd, (s.parkBegin_quiesced d asked).2, List.map_map]
  refine List.map_congr_left fun x _ => ?_
  rw [Function.comp_apply, s.told_id]

/-- Settles O39: the checks are those of `State.parkCheck` and `State.unparkCheck`, which a write of HUB_PCTL leaves as they were; an accepted park
is `State.parkBegin_quiesced`, and what an unpark comes to is `State.unparkSteps_ends` with `State.unparkEnd_spec`. -/
theorem parkAndUnpark : Obligations.ParkAndUnpark := by
  intro s d q ups lock verdict told quiet
  have hquiet : ∀ {t : State} {asked : Option Nat}, Quiesced s d asked t → quiet t asked := fun h =>
    ⟨h.park, h.busy, fun e => h.rests e e.isLt, h.engs, h.writes, h.outputs, h.dies, h.pads, h.paths, h.chans, h.arrays, h.fm⟩
  refine ⟨fun c hc hd => ⟨fun st h => exec_park_refused hc hd h, fun h => ?park⟩, fun st h => ?pctlRefused, fun h => ?pctlAccepted,
    fun hreq hp => ?unparked, fun hreq hp hpark => ?busy, fun hreq hp hpark => exec_pctlUnpark_taken hreq hp hpark ups lock,
    fun c hc hd hp => exec_unpark_refused hc hd (State.unparkCheck_unparked hp) ups lock,
    fun c hc hd hp hbusy => exec_unpark_refused hc hd (State.unparkCheck_busy hp hbusy) ups lock, ?steps⟩
  case park =>
    exact ⟨_, exec_park_accepted hc hd h, hquiet ((s.parkBegin_quiesced d _).1.updCmd _ _), s.host_updCmd_parkBegin _ _ _ _⟩
  case pctlRefused =>
    obtain ⟨a, ha, hexec⟩ := exec_pctlPark s d
    rw [State.parkRequest_refused (by rw [ha.parkCheck]; exact h)] at hexec
    have ht := ha.setFld F.HUB_PCTL.RESULT st
    have hst : st < 16 := by
      have := State.parkCheck_status h
      omega
    exact ⟨_, hexec, (State.fld_setFld_same _ _ _ _ (by decide) (by decide)).trans (Nat.mod_eq_of_lt hst), ht.regs, ht.frame⟩
  case pctlAccepted =>
    obtain ⟨a, ha, hexec⟩ := exec_pctlPark s d
    rw [State.parkRequest_accepted (by rw [ha.parkCheck]; exact h)] at hexec
    obtain ⟨hq, hhost⟩ := a.parkBegin_quiesced d none
    refine ⟨_, hexec, hquiet (ha.quiesced hq), hhost.trans ?_⟩
    rw [ha.told, ha.frame]
    rfl
  case unparked =>
    obtain ⟨t, hexec, hres, ht⟩ := exec_pctlUnpark_refused hreq (st := 2) (by decide)
      (fun a ha => State.unparkCheck_unparked (by rw [ha.parked, hp])) ups lock
    exact ⟨t, hexec, hres, ht.regs, ht.frame⟩
  case busy =>
    obtain ⟨t, hexec, hres, ht⟩ := exec_pctlUnpark_refused hreq (st := 1) (by decide)
      (fun a ha => State.unparkCheck_busy (by rw [ha.parked, hp]) (.inl (by rw [ha.frame]; exact hpark))) ups lock
    exact ⟨t, hexec, hres, ht.regs, ht.frame⟩
  case steps =>
    intro r
    refine ⟨fun c hc hd hp hpark hreq => exec_unpark_taken hc hd (State.unparkCheck_taken hp hpark hreq) ups lock, ?_⟩
    have hr : UnparkEnds s d lock r := s.unparkSteps_ends d ups lock
    generalize r = r at hr
    cases hr with
    | noLink => exact ⟨.inr (.inr rfl), fun _ => rfl, nofun⟩
    | loadError cause => exact ⟨.inr (.inl rfl), fun _ => rfl, nofun⟩
    | up a hlock ha => exact ⟨.inl rfl, fun h => absurd rfl h, fun _ => ⟨hlock, rfl, State.unparkEnd_spec d.isLt ha⟩⟩

end Sys2Proof.Machine
end

section
/-!
PROOF. Lanes of a word (Table 2.1), the five flag positions (R25), two's complement and the clamps (Table 3.8): what `pack`, `flags5`,
`satU` and `satS` make, in the words of the statements.
-/
namespace Sys2Proof.Machine
open Sys2Proof.Claims

/-! ### Digits -/

/-- The number whose `n` digits of `w` bits are those of `f`. -/
def digits (w : Nat) (f : Nat → Nat) (n : Nat) : Nat := ((List.range n).map fun j => f j % 2 ^ w * 2 ^ (w * j)).sum

theorem digits_succ (w : Nat) (f : Nat → Nat) (n : Nat) : digits w f (n + 1) = digits w f n + f n % 2 ^ w * 2 ^ (w * n) := by
  simp [digits, List.range_succ]

theorem digits_lt (w : Nat) (f : Nat → Nat) (n : Nat) : digits w f n < 2 ^ (w * n) := by
  induction n with
  | zero => simp [digits]
  | succ n ih =>
    have hd : (f n % 2 ^ w + 1) * 2 ^ (w * n) ≤ 2 ^ w * 2 ^ (w * n) := Nat.mul_le_mul_right _ (Nat.mod_lt _ (Nat.two_pow_pos w))
    rw [digits_succ, Nat.mul_succ, Nat.pow_add, Nat.mul_comm (2 ^ (w * n))]
    linarith

theorem digit_digits (w : Nat) (f : Nat → Nat) {i n : Nat} (h : i < n) : digits w f n / 2 ^ (w * i) % 2 ^ w = f i % 2 ^ w := by
  induction n with
  | zero => omega
  | succ n ih =>
    rw [digits_succ]
    rcases Nat.lt_succ_iff_lt_or_eq.1 h with h | rfl
    · have hsplit : f n % 2 ^ w * 2 ^ (w * n) = 2 ^ (w * i) * (2 ^ w * (f n % 2 ^ w * 2 ^ (w * (n - i - 1)))) := by
        obtain ⟨k, rfl⟩ : ∃ k, n = i + 1 + k := ⟨n - i - 1, by omega⟩
        rw [show i + 1 + k - i - 1 = k by omega]
        ring
      rw [hsplit, Nat.add_mul_div_left _ _ (Nat.two_pow_pos _), Nat.add_mul_mod_self_left, ih h]
    · rw [Nat.add_mul_div_right _ _ (Nat.two_pow_pos _), Nat.div_eq_of_lt (digits_lt w f i), Nat.zero_add, Nat.mod_mod]

/-! ### Lanes and flags -/

theorem laneW_mul_laneN (m : Nat) : laneW m * laneN m = 40 := by
  unfold laneW laneN
  split <;> rfl

theorem laneN_le_five (m : Nat) : laneN m ≤ 5 := by
  unfold laneN
  split <;> omega

theorem laneW_pos (m : Nat) : 0 < laneW m := by
  unfold laneW
  split <;> omega

theorem lane_lt (m j : Nat) (x : Word) : lane m j x < 2 ^ laneW m := Nat.mod_lt _ (Nat.two_pow_pos _)

theorem lane_zero (x : Word) : lane 0 0 x = x.toNat := by
  simpa [lane, laneW] using x.isLt

theorem lane_pack {m j : Nat} (f : Nat → Nat) (h : j < laneN m) : lane m j (pack m f) = f j % 2 ^ laneW m := by
  have hlt : digits (laneW m) f (laneN m) < 2 ^ 40 := laneW_mul_laneN m ▸ digits_lt _ _ _
  rw [lane, pack, BitVec.toNat_ofNat, ← digits, Nat.mod_eq_of_lt hlt, digit_digits _ _ h]

theorem flags5_eq_digits (m : Nat) (f : Nat → Bool) : flags5 m f = BitVec.ofNat 5 (digits 1 (fun j => (f j).toNat) (laneN m)) := by
  unfold flags5 digits
  congr 3
  funext j
  cases h : f j <;> simp [h]

theorem getLsbD_flags5 (m : Nat) (f : Nat → Bool) {j : Nat} (h : j < 5) : (flags5 m f).getLsbD j = (decide (j < laneN m) && f j) := by
  rw [flags5_eq_digits, BitVec.getLsbD_ofNat]
  simp only [h, decide_true, Bool.true_and]
  by_cases hj : j < laneN m
  · have hd := digit_digits 1 (fun j => (f j).toNat) hj
    simp only [Nat.one_mul, Nat.pow_one] at hd
    rw [Nat.testBit_eq_decide_div_mod_eq, hd]
    cases f j <;> simp [hj]
  · have hlt := digits_lt 1 (fun j => (f j).toNat) (laneN m)
    rw [Nat.one_mul] at hlt
    rw [Nat.testBit_lt_two_pow (hlt.trans_le (Nat.pow_le_pow_right (by decide) (Nat.le_of_not_lt hj)))]
    simp [hj]

/-! ### Two's complement and the clamps -/

theorem two_pow_eq_double {w : Nat} (h : 0 < w) : (2 : Int) ^ w = 2 * 2 ^ (w - 1) := by
  rw [← pow_succ', Nat.sub_add_cancel h]

/-- The top bit of a number of `w` bits. -/
theorem msb_eq_testBit {w x : Nat} (hw : 0 < w) (hx : x < 2 ^ w) : msb w x = x.testBit (w - 1) := by
  have hpow : 2 ^ w = 2 * 2 ^ (w - 1) := by rw [← pow_succ', Nat.sub_add_cancel hw]
  rw [msb, Nat.mod_eq_of_lt hx, Nat.testBit_eq_decide_div_mod_eq]
  by_cases h : 2 ^ (w - 1) ≤ x
  · have : x / 2 ^ (w - 1) = 1 := by
      rw [show x = (x - 2 ^ (w - 1)) + 1 * 2 ^ (w - 1) by omega, Nat.add_mul_div_right _ _ (Nat.two_pow_pos _), Nat.div_eq_of_lt (by omega)]
    simp [h, this]
  · have : x / 2 ^ (w - 1) = 0 := Nat.div_eq_of_lt (by omega)
    simp [h, this]

theorem wrapTo_lt (w : Nat) (x : Int) : wrapTo w x < 2 ^ w := by
  have := Int.emod_lt_of_pos x (b := (2 ^ w : Nat)) (by positivity)
  unfold wrapTo
  omega

theorem cast_wrapTo (w : Nat) (x : Int) : (wrapTo w x : Int) = x % 2 ^ w := by
  rw [wrapTo, Int.toNat_of_nonneg (Int.emod_nonneg _ (by positivity))]
  push_cast
  rfl

/-- A number within the signed bounds reads back from its `w` bits. -/
theorem signedOf_wrapTo {w : Nat} {x : Int} (hw : 0 < w) (hlo : -2 ^ (w - 1) ≤ x) (hhi : x < 2 ^ (w - 1)) : signedOf w (wrapTo w x) = x := by
  have hpow := two_pow_eq_double hw
  have hlt : wrapTo w x % 2 ^ w = wrapTo w x := Nat.mod_eq_of_lt (wrapTo_lt w x)
  have hcast := cast_wrapTo w x
  have hnat : (wrapTo w x < 2 ^ (w - 1)) ↔ ((wrapTo w x : Int) < 2 ^ (w - 1)) := by exact_mod_cast Iff.rfl
  rw [signedOf, hlt]
  simp only [hnat, hcast]
  rcases lt_or_ge x 0 with h | h
  · have : x % 2 ^ w = x + 2 ^ w := by
      rw [← Int.add_emod_right, Int.emod_eq_of_lt (by omega) (by omega)]
    rw [this, if_neg (by omega)]
    omega
  · rw [Int.emod_eq_of_lt h (by omega), if_pos hhi]

theorem satU_eq_clampedU (w : Nat) (x : Int) : satU w x = clampedU w x := by
  have : (0 : Int) < 2 ^ w := by positivity
  unfold satU clampedU
  split_ifs <;> omega

theorem satS_eq_clampedS (w : Nat) (x : Int) : satS w x = clampedS w x := by
  have : (0 : Int) < 2 ^ (w - 1) := by positivity
  unfold satS clampedS
  split_ifs <;> omega

theorem satU_ne_iff (w : Nat) (x : Int) : decide (satU w x ≠ x) = outU w x := by
  have : (0 : Int) < 2 ^ w := by positivity
  unfold outU
  rw [decide_eq_decide, satU_eq_clampedU, clampedU]
  split_ifs <;> omega

theorem satS_ne_iff (w : Nat) (x : Int) : decide (satS w x ≠ x) = outS w x := by
  have : (0 : Int) < 2 ^ (w - 1) := by positivity
  unfold outS
  rw [decide_eq_decide, satS_eq_clampedS, clampedS]
  split_ifs <;> omega

theorem cast_wrapTo_satU (w : Nat) (x : Int) : (wrapTo w (satU w x) : Int) = clampedU w x := by
  have : (0 : Int) < 2 ^ w := by positivity
  rw [cast_wrapTo, satU_eq_clampedU]
  refine Int.emod_eq_of_lt ?_ ?_ <;> (unfold clampedU; split_ifs <;> omega)

theorem signedOf_wrapTo_satS {w : Nat} (hw : 0 < w) (x : Int) : signedOf w (wrapTo w (satS w x)) = clampedS w x := by
  have : (0 : Int) < 2 ^ (w - 1) := by positivity
  rw [satS_eq_clampedS]
  refine signedOf_wrapTo hw ?_ ?_ <;> (unfold clampedS; split_ifs <;> omega)

theorem lane_pack_wrapTo {m j : Nat} (f : Nat → Int) (h : j < laneN m) :
    lane m j (pack m fun j => wrapTo (laneW m) (f j)) = wrapTo (laneW m) (f j) := by
  rw [lane_pack _ h, Nat.mod_eq_of_lt (wrapTo_lt _ _)]

end Sys2Proof.Machine
end

section
/-!
PROOF. The cell commands (Tables 2.5 and 3.7): what a cell reads after one has been written, which of its ways a command takes, and what an
instruction that executes, or whose condition does not hold, leaves behind.
-/
namespace Sys2Proof.Machine
open Sys2Proof.Claims

/-! ### One word cell -/

theorem State.cell_setCell_same (s : State) (k : Nat) (x : CellSt) : (s.setCell k x).cell k = x := SMap.get_set_same _ _ _ _

theorem State.cell_setCell_other (s : State) {k i : Nat} (x : CellSt) (h : i ≠ k) : (s.setCell k x).cell i = s.cell i :=
  SMap.get_set_other _ _ _ _ _ _ h

theorem onlyCell_setCell (s : State) (k : Nat) (x : CellSt) : OnlyCell s (s.setCell k x) k := ⟨rfl, fun _ h => s.cell_setCell_other x h⟩

theorem wrote_none (x : CellSt) (r : Word) : Wrote x x 7 r := by simp [Wrote]

/-- Table 3.3. -/
theorem wrote_writeDst (x : CellSt) {dst : Nat} (r : Word) (h : dst < 8) : Wrote x (x.writeDst dst r) dst r := by
  interval_cases dst <;> simp [Wrote, CellSt.writeDst]

theorem lvDst_lt (l : BitVec 48) : lvDst l < 8 := Nat.mod_lt _ (by decide)

/-! ### Which way a command takes -/

/-- Every cell command is one cell cycle of its opcode. -/
theorem exec_cellCommand : ∀ e ∈ cellCommands, ∀ c dt s, ∃ f act, exec (e.1 c dt) s = .next (s.cellOp e.2 c dt f act) := by
  intro e he c dt s
  fin_cases he <;> exact ⟨_, _, rfl⟩

/-- A legal louvre has a row of Table 3.7. -/
theorem opRow_of_legal {l : BitVec 48} (h : illegalCause l = none) : ∃ row, opRow l = some row := by
  cases hrow : opRow l with
  | some row => exact ⟨row, rfl⟩
  | none =>
    by_cases h0 : lvOp l = 0
    · simp [opRow, h0] at hrow
    · simp [illegalCause, h0, hrow] at h

/-- A legal louvre is in a mode that its row permits. -/
theorem lvLane_of_legal {l : BitVec 48} {row : OpRow} (h : illegalCause l = none) (h0 : lvOp l ≠ 0) (hrow : opRow l = some row) :
    lvLane l ∈ row.modes := by
  by_contra hm
  simp [illegalCause, h0, hrow, hm] at h

section
variable {s : State} {op : Nat} {c : CellId} {dt : Nat} {k : Option Nat} {l : BitVec 48} (f : State → CellEnv → AluRes) (act : QAct)

theorem cellOp_of_legal {row : OpRow} (hi : Issues (s.advance (paneOf c) dt) c k l) (hp : SoundParity (s.advance (paneOf c) dt) c k l)
    (hl : illegalCause l = none) (hop : lvOp l = op) (hrow : opRow l = some row) :
    s.cellOp op c dt f act = (s.advance (paneOf c) dt).cellExec (paneOf c) (tileOf c) (Claims.unitOf c) ⟨k, l⟩ row f act := by
  obtain ⟨htc, hran, hiss⟩ := hi
  have hpar : ¬(k.isSome = true ∧ (s.advance (paneOf c) dt).lvParAt ((s.advance (paneOf c) dt).liveCopy (paneOf c)) (paneOf c) (tileOf c)
      (Claims.unitOf c) (k.getD 0) ≠ louvreParity l) := by
    rintro ⟨hk, hne⟩
    obtain ⟨j, rfl⟩ := Option.isSome_iff_exists.1 hk
    exact hne (hp j rfl)
  unfold State.cellOp
  simp only [paneOf, tileOf, Claims.unitOf, keyOf] at *
  simp [htc, hran, hiss, hpar, hl, hop, hrow]

theorem cellOp_of_parity {j : Nat} (hi : Issues (s.advance (paneOf c) dt) c (some j) l)
    (hp : ¬SoundParity (s.advance (paneOf c) dt) c (some j) l) (hop : lvOp l = op ∨ op = 0) :
    s.cellOp op c dt f act = (s.advance (paneOf c) dt).cellParity (paneOf c) (tileOf c) (Claims.unitOf c) j := by
  obtain ⟨htc, hran, hiss⟩ := hi
  have hpar : (s.advance (paneOf c) dt).lvParAt ((s.advance (paneOf c) dt).liveCopy (paneOf c)) (paneOf c) (tileOf c) (Claims.unitOf c) j ≠
      louvreParity l := fun h => hp fun i hij => by cases hij; exact h
  unfold State.cellOp
  simp only [paneOf, tileOf, Claims.unitOf, keyOf] at *
  rcases hop with hop | hop <;> simp [htc, hran, hiss, hpar, hop]

theorem cellOp_of_illegal {j cause : Nat} (hi : Issues (s.advance (paneOf c) dt) c (some j) l)
    (hp : SoundParity (s.advance (paneOf c) dt) c (some j) l) (hl : illegalCause l = some cause) (hop : lvOp l = op ∨ op = 0) :
    s.cellOp op c dt f act = (s.advance (paneOf c) dt).cellIllegal (paneOf c) (tileOf c) (Claims.unitOf c) j cause := by
  obtain ⟨htc, hran, hiss⟩ := hi
  have hpar := hp j rfl
  unfold State.cellOp
  simp only [paneOf, tileOf, Claims.unitOf, keyOf] at *
  rcases hop with hop | hop <;> simp [htc, hran, hiss, hpar, hl, hop]

end

/-! ### What an instruction leaves -/

/-- What an opcode whose row is `row` finds, its operand fields reading `a`, `b`, `c`: 0 for a field that it does not use. -/
def OpRow.env (row : OpRow) (l : BitVec 48) (a b c : Word) (x : CellSt) : CellEnv :=
  ⟨l, lvLane l, lvImm l, if row.a then a else 0, if row.b then b else 0, if row.c then c else 0, x⟩

/-- A flag after a result: `g` of the flags that it writes, or what it was. -/
def AluRes.flag (res : AluRes) (g : CZNV → BitVec 5) (old : BitVec 5) : BitVec 5 :=
  match res.fl with
  | some fl => g fl
  | none => old

/-- The flags of a cell after a result. -/
structure AluRes.Flags (res : AluRes) (x y : CellSt) : Prop where
  c : y.c = res.flag CZNV.c x.c
  z : y.z = res.flag CZNV.z x.z
  n : y.n = res.flag CZNV.n x.n
  v : y.v = res.flag CZNV.v x.v
  sat : y.sat = (if res.satClr then 0 else x.sat) ||| res.sat

/-- A result of the form `{ r := r }` writes no flag. -/
theorem AluRes.Flags.same {r : Word} {x y : CellSt} (h : AluRes.Flags { r := r } x y) : SameFlags x y :=
  ⟨h.c, h.z, h.n, h.v, by simpa using h.sat⟩

section
variable (s : State) (pane tile c : Nat) (k : Option Nat) (l : BitVec 48) (row : OpRow) (f : State → CellEnv → AluRes)

/-- R38: an instruction whose condition does not hold. -/
theorem cellExec_of_skipped (act : QAct) (h : condHolds (s.cell (cellKey pane tile c)) (lvLane l) (lvCond l) = false) :
    ∃ y, s.cellExec pane tile c ⟨k, l⟩ row f act = s.setCell (cellKey pane tile c) y ∧ SameCell (s.cell (cellKey pane tile c)) y ∧
      y.redir = seqRedir (s.cell (cellKey pane tile c)) (lvSeq l) k := by
  unfold State.cellExec
  simp only [h, Bool.false_eq_true, if_false, false_and, State.cellQueue]
  exact ⟨_, rfl, ⟨by simp [Wrote], ⟨rfl, rfl, rfl, rfl, rfl⟩, rfl, rfl, rfl⟩, rfl⟩

/-- An instruction without a queue effect that executes. -/
theorem cellExec_of_executed (h : condHolds (s.cell (cellKey pane tile c)) (lvLane l) (lvCond l) = true) :
    let x := s.cell (cellKey pane tile c)
    let src := s.source pane tile c (lvLane l) (lvImm l)
    let res := f s (row.env l (src (lvA l)) (src (lvB l)) (src (lvC l)) x)
    ∃ y, s.cellExec pane tile c ⟨k, l⟩ row f .none = s.setCell (cellKey pane tile c) y ∧
      Wrote x y (if row.dst then lvDst l else 7) res.r ∧ res.Flags x y ∧ y.qr = x.qr ∧ y.qt = x.qt ∧
      y.qi = (if (usedCodes l row).contains 23 then !(s.queueHead pane (32 * tile + c)).2.2 else x.qi) := by
  intro x src res
  have hw : Wrote x (if row.dst then x.writeDst (lvDst l) res.r else x) (if row.dst then lvDst l else 7) res.r := by
    cases row.dst
    · exact wrote_none x _
    · exact wrote_writeDst x _ (lvDst_lt l)
  unfold State.cellExec
  simp only [h, if_true, true_and, State.cellQueue, reduceCtorEq, if_false]
  exact ⟨_, rfl, hw, ⟨rfl, rfl, rfl, rfl, rfl⟩, rfl, rfl, rfl⟩

end

end Sys2Proof.Machine
end

section
/-!
PROOF. Add and subtract of the word cell, with their saturating forms (R59, R60, R61; Tables 3.6 to 3.8).
-/
namespace Sys2Proof.Machine
open Sys2Proof.Claims

/-! ### An opcode that computes a result from its operands alone -/

/-- The statement of an opcode from what its result says of its operands and of the flags it leaves. -/
theorem cellClaim_of_alu {cmd : CellId → Nat → Instr} {op : Nat} {dest : Bool}
    {post : Nat → Nat → Word → Word → Word → CellSt → CellSt → Word → Prop} {f : CellEnv → AluRes} (row : OpRow)
    (hexec : ∀ c dt s, exec (cmd c dt) s = .next (s.cellAlu op c dt f)) (hrow : ∀ l, lvOp l = op → opRow l = some row)
    (hdst : row.dst = dest)
    (hpost : ∀ l a b c x y, lvOp l = op → illegalCause l = none → (f (row.env l a b c x)).Flags x y →
      ((usedCodes l row).contains 23 = false → SameQueueFlags x y) → post (lvLane l) (lvImm l) a b c x y (f (row.env l a b c x)).r) :
    CellClaim cmd op dest post := by
  intro s c dt k l row' s1 x hi hp hl hop hrow' hcond
  obtain rfl : row' = row := Option.some.inj (hrow'.symm.trans (hrow l hop))
  obtain ⟨y, hy, hw, hfl, hqr, hqt, hqi⟩ := cellExec_of_executed s1 (paneOf c) (tileOf c) (Claims.unitOf c) k l row' (fun _ => f) hcond
  have hcell : (s1.setCell (keyOf c) y).cell (keyOf c) = y := s1.cell_setCell_same _ _
  refine ⟨s1.setCell (keyOf c) y, (f (row'.env l (operand s1 c l (lvA l)) (operand s1 c l (lvB l)) (operand s1 c l (lvC l)) x)).r,
    (hexec c dt s).trans ?_, onlyCell_setCell _ _ _, ?_⟩
  · rw [State.cellAlu, cellOp_of_legal _ _ hi hp hl hop hrow', hy]
    rfl
  · rw [hcell]
    refine ⟨hdst ▸ hw, hqr, hqt, hqi, hpost _ _ _ _ _ _ hop hl hfl fun h => ⟨?_, hqr, hqt⟩⟩
    rw [hqi, h]
    rfl

/-! ### The flags of a result -/

theorem AluRes.Flags.resultFlags {m : Nat} {r : Word} {c v sat c' v' sat' : Nat → Bool} {x y : CellSt}
    (h : (resFlags m r c v sat).Flags x y) (hc : ∀ j < laneN m, c j = c' j) (hv : ∀ j < laneN m, v j = v' j)
    (hsat : ∀ j < laneN m, sat j = sat' j) : ResultFlags m x y r c' v' sat' := by
  have masked : ∀ {f g : Nat → Bool}, (∀ j < laneN m, f j = g j) → ∀ j < 5,
      (flags5 m f).getLsbD j = (decide (j < laneN m) && g j) := fun hfg j hj => by
    rw [getLsbD_flags5 m _ hj]
    by_cases hjn : j < laneN m
    · rw [hfg j hjn]
    · simp [hjn]
  have hz : y.z = flags5 m fun j => decide (lane m j r = 0) := h.z
  have hn : y.n = flags5 m fun j => msb (laneW m) (lane m j r) := h.n
  have hs : y.sat = x.sat ||| flags5 m sat := h.sat
  intro j hj
  refine ⟨(congrArg (·.getLsbD j) h.c).trans (masked hc j hj), ?_, ?_, (congrArg (·.getLsbD j) h.v).trans (masked hv j hj), ?_⟩
  · rw [hz, masked (fun _ _ => rfl) j hj]
  · rw [hn, masked (fun i _ => msb_eq_testBit (laneW_pos m) (lane_lt m i r)) j hj]
  · rw [hs, BitVec.getLsbD_or, masked hsat j hj]

section
variable {m : Nat} {x y : CellSt}

theorem logicRes_flags {r : Word} (h : (logicRes m r).Flags x y) :
    ResultFlags m x y r (fun _ => false) (fun _ => false) (fun _ => false) :=
  h.resultFlags (fun _ _ => rfl) (fun _ _ => rfl) (fun _ _ => rfl)

variable {a b : Word}

theorem lane_addRes (cin : Nat → Nat) {j : Nat} (hj : j < laneN m) :
    lane m j (addRes m cin a b).r = (lane m j a + lane m j b + cin j) % 2 ^ laneW m := lane_pack _ hj

theorem addRes_flags {cin : Nat → Nat} (h : (addRes m cin a b).Flags x y) :
    ResultFlags m x y (addRes m cin a b).r (fun j => decide (2 ^ laneW m ≤ lane m j a + lane m j b + cin j))
      (fun j => outS (laneW m) (laneS m j a + laneS m j b + cin j)) (fun _ => false) :=
  h.resultFlags (fun _ _ => rfl) (fun _ _ => satS_ne_iff _ _) (fun _ _ => rfl)

theorem lane_subRes (bin : Nat → Nat) {j : Nat} (hj : j < laneN m) :
    (lane m j (subRes m bin a b).r : Int) = ((lane m j a : Int) - lane m j b - bin j) % 2 ^ laneW m := by
  rw [show lane m j (subRes m bin a b).r = _ from lane_pack_wrapTo _ hj, cast_wrapTo]

theorem subRes_flags {bin : Nat → Nat} (h : (subRes m bin a b).Flags x y) :
    ResultFlags m x y (subRes m bin a b).r (fun j => decide (lane m j b + bin j ≤ lane m j a))
      (fun j => outS (laneW m) (laneS m j a - laneS m j b - bin j)) (fun _ => false) :=
  h.resultFlags (fun _ _ => rfl) (fun _ _ => satS_ne_iff _ _) (fun _ _ => rfl)

theorem lane_satRes_satU (t : Nat → Int) (c : Nat → Bool) {j : Nat} (hj : j < laneN m) :
    (lane m j (satRes m satU t c).r : Int) = clampedU (laneW m) (t j) := by
  rw [show lane m j (satRes m satU t c).r = _ from lane_pack_wrapTo _ hj, cast_wrapTo_satU]

theorem laneS_satRes_satS (t : Nat → Int) (c : Nat → Bool) {j : Nat} (hj : j < laneN m) :
    laneS m j (satRes m satS t c).r = clampedS (laneW m) (t j) := by
  rw [laneS, show lane m j (satRes m satS t c).r = _ from lane_pack_wrapTo _ hj, signedOf_wrapTo_satS (laneW_pos m)]

theorem satRes_flags {clamp : Nat → Int → Int} {out : Nat → Int → Bool} (hout : ∀ w t, decide (clamp w t ≠ t) = out w t)
    {t : Nat → Int} {c : Nat → Bool} (h : (satRes m clamp t c).Flags x y) :
    ResultFlags m x y (satRes m clamp t c).r c (fun j => out (laneW m) (t j)) (fun j => out (laneW m) (t j)) :=
  h.resultFlags (fun _ _ => rfl) (fun _ _ => hout _ _) (fun _ _ => hout _ _)

end

theorem CellSt.carry_eq (x : CellSt) (j : Nat) : x.carry j = (x.c.getLsbD j).toNat := by
  unfold CellSt.carry
  cases x.c.getLsbD j <;> rfl

/-- The borrow of SBC, 1 − C[j], as an integer. -/
theorem CellSt.borrow_eq (x : CellSt) (j : Nat) : ((1 - x.carry j : Nat) : Int) = 1 - (x.c.getLsbD j).toNat := by
  rw [CellSt.carry_eq]
  cases x.c.getLsbD j <;> rfl

/-! ### Add, subtract and their saturating forms -/

/-- The row of the opcodes of two operands and a destination in every mode (Table 3.7). -/
def rowAB : OpRow := ⟨[0, 1, 2, 3], true, true, false, false, true⟩

theorem opRow_arith {l : BitVec 48} (h : lvOp l ∈ [0x08, 0x09, 0x0A, 0x0B, 0x0C, 0x0D, 0x0E, 0x0F]) : opRow l = some rowAB := by
  simp only [List.mem_cons, List.not_mem_nil, or_false] at h
  rcases h with h | h | h | h | h | h | h | h <;> (unfold opRow; rw [h]; rfl)

/-- `cellClaim_of_alu` for the opcodes of this group. -/
theorem cellClaim_of_arith {cmd : CellId → Nat → Instr} {op : Nat}
    {post : Nat → Nat → Word → Word → Word → CellSt → CellSt → Word → Prop} {f : CellEnv → AluRes}
    (hexec : ∀ c dt s, exec (cmd c dt) s = .next (s.cellAlu op c dt f)) (hop : op ∈ [0x08, 0x09, 0x0A, 0x0B, 0x0C, 0x0D, 0x0E, 0x0F])
    (hpost : ∀ l a b c x y, (f ⟨l, lvLane l, lvImm l, a, b, 0, x⟩).Flags x y →
      post (lvLane l) (lvImm l) a b c x y (f ⟨l, lvLane l, lvImm l, a, b, 0, x⟩).r) :
    CellClaim cmd op true post :=
  cellClaim_of_alu rowAB hexec (fun _ h => opRow_arith (h ▸ hop)) rfl fun l a b c x y _ _ hfl _ => hpost l a b c x y hfl

/-- Settles O5: each opcode's result is `addRes`, `subRes` or `satRes` of its operands, whose lanes and flags are given once above. -/
theorem cellArithmetic : Obligations.CellArithmetic := by
  refine ⟨⟨?add, ?adc, ?sub, ?sbc⟩, ?addu, ?adds, ?subu, ?subs⟩
  case add =>
    refine cellClaim_of_arith (f := aluAdd) (fun _ _ _ => rfl) (by decide) fun l a b c x y h => ⟨fun j hj => lane_addRes (fun _ => 0) hj, ?_⟩
    simpa [aluAdd] using addRes_flags h
  case adc =>
    refine cellClaim_of_arith (f := aluAdc) (fun _ _ _ => rfl) (by decide) fun l a b c x y h =>
      ⟨fun j hj => (lane_addRes x.carry hj).trans (by rw [x.carry_eq]), ?_⟩
    simpa only [aluAdc, CellSt.carry_eq] using addRes_flags h
  case sub =>
    refine cellClaim_of_arith (f := aluSub) (fun _ _ _ => rfl) (by decide) fun l a b c x y h =>
      ⟨fun j hj => (lane_subRes (fun _ => 0) hj).trans (by simp), ?_⟩
    simpa [aluSub] using subRes_flags h
  case sbc =>
    refine cellClaim_of_arith (f := aluSbc) (fun _ _ _ => rfl) (by decide) fun l a b c x y h =>
      ⟨fun j hj => (lane_subRes (fun j => 1 - x.carry j) hj).trans (by rw [x.borrow_eq, sub_add]), ?_⟩
    have hle : ∀ j, lane (lvLane l) j b + (1 - x.carry j) ≤ lane (lvLane l) j a ↔
        lane (lvLane l) j b + 1 ≤ lane (lvLane l) j a + (x.c.getLsbD j).toNat := fun j => by
      have := x.borrow_eq j
      omega
    simpa only [aluSbc, CellSt.borrow_eq, hle, ← sub_add] using subRes_flags h
  case addu =>
    exact cellClaim_of_arith (f := aluAddu) (fun _ _ _ => rfl) (by decide) fun l a b c x y h =>
      ⟨fun j hj => lane_satRes_satU _ _ hj, satRes_flags satU_ne_iff h⟩
  case adds =>
    exact cellClaim_of_arith (f := aluAdds) (fun _ _ _ => rfl) (by decide) fun l a b c x y h =>
      ⟨fun j hj => laneS_satRes_satS _ _ hj, satRes_flags satS_ne_iff h⟩
  case subu =>
    exact cellClaim_of_arith (f := aluSubu) (fun _ _ _ => rfl) (by decide) fun l a b c x y h =>
      ⟨fun j hj => lane_satRes_satU _ _ hj, satRes_flags satU_ne_iff h⟩
  case subs =>
    exact cellClaim_of_arith (f := aluSubs) (fun _ _ _ => rfl) (by decide) fun l a b c x y h =>
      ⟨fun j hj => laneS_satRes_satS _ _ hj, satRes_flags satS_ne_iff h⟩

end Sys2Proof.Machine
end

section
/-!
PROOF. Moves and flag opcodes of the word cell (R31, R70; Tables 3.7 and 3.10).
-/
namespace Sys2Proof.Machine
open Sys2Proof.Claims

/-- An opcode that uses no operand leaves the queue flags. -/
theorem usedCodes_eq_nil {l : BitVec 48} {row : OpRow} (ha : row.a = false) (hb : row.b = false) (hc : row.c = false) (hop : lvOp l ≠ 0x3C) :
    usedCodes l row = [] := by
  simp [usedCodes, ha, hb, hc, hop]

theorem toNat_flagImage (x : CellSt) : (flagImage x).toNat =
    2 ^ 5 * (2 ^ 5 * (2 ^ 5 * (2 ^ 5 * (2 ^ 5 * (2 ^ 1 * (2 ^ 1 * x.qt.toNat + x.qr.toNat) + x.qi.toNat) + x.c.toNat) + x.z.toNat) +
      x.n.toNat) + x.v.toNat) + x.sat.toNat := by
  have hbit : ∀ (b : Bool) (n : Nat), (if b then 2 ^ n else 0) = b.toNat * 2 ^ n := by
    rintro (_ | _) n <;> simp
  have := Bool.toNat_lt x.qt; have := Bool.toNat_lt x.qr; have := Bool.toNat_lt x.qi
  simp only [flagImage, BitVec.toNat_ofNat, hbit]
  omega

theorem testBit_above_word {w : Nat} (a : Nat) (b : BitVec w) (i : Nat) :
    (2 ^ w * a + b.toNat).testBit i = if i < w then b.getLsbD i else a.testBit (i - w) :=
  Nat.testBit_two_pow_mul_add a b.isLt i

theorem testBit_above_bit (a : Nat) (b : Bool) (i : Nat) :
    (2 ^ 1 * a + b.toNat).testBit i = if i < 1 then b else a.testBit (i - 1) := by
  rw [Nat.testBit_two_pow_mul_add a (Bool.toNat_lt b)]
  refine ite_congr rfl (fun h => ?_) fun _ => rfl
  obtain rfl : i = 0 := by omega
  cases b <;> rfl

/-- Table 3.10. -/
theorem getLsbD_flagImage (x : CellSt) (i : Nat) : (flagImage x).getLsbD i =
    if i < 5 then x.sat.getLsbD i else if i < 10 then x.v.getLsbD (i - 5) else if i < 15 then x.n.getLsbD (i - 10)
    else if i < 20 then x.z.getLsbD (i - 15) else if i < 25 then x.c.getLsbD (i - 20)
    else if i = 25 then x.qi else if i = 26 then x.qr else if i = 27 then x.qt else false := by
  have hsub : ∀ k n, 0 < n → (i - k < n ↔ i < k + n) := fun k n h => by omega
  have htop : x.qt.toNat = 2 ^ 1 * 0 + x.qt.toNat := by simp
  rw [BitVec.getLsbD, toNat_flagImage, htop]
  simp only [testBit_above_word, testBit_above_bit, Nat.sub_sub, hsub _ 5 (by decide), hsub _ 1 (by decide), Nat.reduceAdd]
  by_cases h : i < 25
  · simp only [h, if_true]
  · obtain rfl | rfl | rfl | hgt : i = 25 ∨ i = 26 ∨ i = 27 ∨ 28 ≤ i := by omega
    · rfl
    · rfl
    · rfl
    · have hnot : ∀ k < 28, ¬i < k + 1 ∧ i ≠ k := fun k hk => by omega
      simp [hnot 4, hnot 9, hnot 14, hnot 19, hnot 24, hnot 25, hnot 26, hnot 27]

/-- MOVK appends IMM. -/
theorem toNat_movk (a : Word) {imm : Nat} (h : imm < 2 ^ 12) : ((a <<< 12) ||| BitVec.ofNat 40 imm).toNat = a.toNat % 2 ^ 28 * 2 ^ 12 + imm := by
  have hsplit : (a.toNat <<< 12) % 2 ^ 40 = (a.toNat % 2 ^ 28) <<< 12 := by
    rw [Nat.shiftLeft_eq, Nat.shiftLeft_eq]
    omega
  rw [BitVec.toNat_or, BitVec.toNat_shiftLeft, BitVec.toNat_ofNat, Nat.mod_eq_of_lt (a := imm) (by omega), hsplit,
    ← Nat.shiftLeft_add_eq_or_of_lt h, Nat.shiftLeft_eq]

theorem lvImm_lt (l : BitVec 48) : lvImm l < 2 ^ 12 := Nat.mod_lt _ (by decide)

/-- Settles O7: the result and the flags of each opcode are those of its `AluRes`. -/
theorem cellFlagsAndMoves : Obligations.CellFlagsAndMoves := by
  refine ⟨?nop, ?fclr, ?fget, ?mov, ?movk⟩
  case nop =>
    exact cellClaim_of_alu (f := fun _ => { r := 0 }) ⟨[0, 1, 2, 3], false, false, false, false, false⟩ (fun _ _ _ => rfl)
      (fun l h => by unfold opRow; rw [h]; rfl) rfl fun l a b c x y hop _ h hq =>
      ⟨h.same, hq (by rw [usedCodes_eq_nil rfl rfl rfl (by omega)]; rfl)⟩
  case fclr =>
    refine cellClaim_of_alu (f := aluFclr) ⟨[0, 1, 2, 3], false, false, false, true, false⟩ (fun _ _ _ => rfl)
      (fun l h => by unfold opRow; rw [h]; rfl) rfl fun l a b c x y hop _ h hq =>
      ⟨h.sat.trans (BitVec.or_zero), ?_, hq (by rw [usedCodes_eq_nil rfl rfl rfl (by omega)]; rfl)⟩
    obtain ⟨hc, hz, hn, hv, -⟩ := h
    cases h1 : (lvImm l).testBit 1 <;> simp_all [AluRes.flag, aluFclr, OpRow.env]
  case fget =>
    exact cellClaim_of_alu (f := aluFget) ⟨[0, 1, 2, 3], false, false, false, false, true⟩ (fun _ _ _ => rfl)
      (fun l h => by unfold opRow; rw [h]; rfl) rfl fun l a b c x y _ _ h _ => ⟨fun i _ => getLsbD_flagImage x i, h.same⟩
  case mov =>
    exact cellClaim_of_alu (f := aluMov) ⟨[0, 1, 2, 3], true, false, false, false, true⟩ (fun _ _ _ => rfl)
      (fun l h => by unfold opRow; rw [h]; rfl) rfl fun l a b c x y _ _ h _ => ⟨rfl, h.same⟩
  case movk =>
    exact cellClaim_of_alu (f := aluMovk) ⟨[0], true, false, false, true, true⟩ (fun _ _ _ => rfl)
      (fun l h => by unfold opRow; rw [h]; rfl) rfl fun l a b c x y _ _ h _ => ⟨toNat_movk a (lvImm_lt l), h.same⟩

end Sys2Proof.Machine
end

section
/-!
PROOF. Multiplication (R67) and the cascade (R40, R41, R69) of the word cell.
-/
namespace Sys2Proof.Machine
open Sys2Proof.Claims

/-! ### Multiplication -/

theorem signedOf_mod (w x : Nat) : signedOf w (x % 2 ^ w) = signedOf w x := by
  rw [signedOf, signedOf, Nat.mod_mod]

/-- A half as an operand of a multiplication, in the signedness of IMM[11]. -/
theorem mulVal_half (e : CellEnv) (v : Word) : mulVal e 20 v.toNat = if e.imm.testBit 11 then laneS 1 0 v else (lane 1 0 v : Int) := by
  have hlane : lane 1 0 v = v.toNat % 2 ^ 20 := by simp [lane, laneW]
  rw [laneS, hlane]
  exact ite_congr rfl (fun _ => (signedOf_mod 20 _).symm) fun _ => rfl

/-- A sample as an operand of a multiplication. -/
theorem mulVal_sample (e : CellEnv) (j : Nat) (v : Word) :
    mulVal e 10 (lane 2 j v) = if e.imm.testBit 11 then laneS 2 j v else (lane 2 j v : Int) := by
  unfold mulVal
  exact ite_congr rfl (fun _ => rfl) fun _ => congrArg _ (Nat.mod_eq_of_lt (lane_lt 2 j v))

theorem toNat_mulW (e : CellEnv) : ((mulW e).toNat : Int) = mulVal e 20 e.a.toNat * mulVal e 20 e.b.toNat % 2 ^ 40 := by
  rw [← cast_wrapTo, mulW, BitVec.toNat_ofInt]
  rfl

/-- MACC (Table 3.6): the carry and the overflow of adding the word `w` to the product `p`. -/
theorem maccRes_spec {p w : Word} {x y : CellSt} (h : (maccRes p w).Flags x y) :
    (maccRes p w).r.toNat = (p.toNat + w.toNat) % 2 ^ 40 ∧
      ResultFlags 0 x y (maccRes p w).r (fun _ => decide (2 ^ 40 ≤ p.toNat + w.toNat))
        (fun _ => outS 40 (signedOf 40 p.toNat + laneS 0 0 w)) fun _ => false := by
  have one : ∀ {j}, j < laneN 0 → j = 0 := fun hj => by simpa [laneN] using hj
  have hsigned : laneS 0 0 p = signedOf 40 p.toNat := by rw [laneS, lane_zero]; rfl
  refine ⟨?_, h.resultFlags (fun j hj => ?_) (fun j hj => (satS_ne_iff _ _).trans ?_) fun _ _ => rfl⟩
  · rw [← lane_zero, maccRes, lane_addRes _ (by decide), lane_zero, lane_zero]
    rfl
  · rw [one hj, ← lane_zero p, ← lane_zero w]
    rfl
  · rw [one hj, ← hsigned]
    exact congrArg _ (add_zero _)

section
variable {l : BitVec 48}

/-- The modes of MUL. -/
theorem mul_mode (hop : lvOp l = 0x38) (hl : illegalCause l = none) : lvLane l = 0 ∨ lvLane l = 2 := by
  simpa using lvLane_of_legal hl (by omega) (show opRow l = some ⟨[0, 2], true, true, false, true, true⟩ by unfold opRow; rw [hop]; rfl)

theorem opRow_mula (hop : lvOp l = 0x39) : opRow l = some ⟨[0], true, true, true, true, true⟩ := by
  unfold opRow
  rw [hop]
  rfl

theorem mula_mode (hop : lvOp l = 0x39) (hl : illegalCause l = none) : lvLane l = 0 := by
  simpa using lvLane_of_legal hl (by omega) (opRow_mula hop)

end

/-- MUL in mode S: samples rounded, clamped in the signedness of IMM[11]. -/
theorem aluMul_samples {e : CellEnv} (h : e.mode ≠ 0) : aluMul e = satRes 2 (if e.imm.testBit 11 then satS else satU)
    (fun j => roundBy (e.imm % 32) (mulVal e 10 (lane 2 j e.a) * mulVal e 10 (lane 2 j e.b))) fun _ => false := if_neg h

/-! ### The cascade -/

/-- The cell, and its line, that a participating cell selects (R40). -/
theorem cascadeResult_eq (s : State) (pane tile k imm : Nat) {n : Nat} (hn : n < 8) :
    let g := 2 ^ bitsOf imm 6 5
    let i := (s.outStart pane tile (8 * k + bitsOf imm 4 2)).toNat % 32 % (4 * g)
    s.cascadeResult pane tile (8 * k + n) imm = s.cascadeLine pane tile (8 * k + g * (n / g) + i / 4) (i % 4) := by
  have hdiv : (8 * k + n) / 8 * 8 = 8 * k := by omega
  have hmod : (8 * k + n) % 8 = n := by omega
  simp only [State.cascadeResult, hdiv, hmod]

section
variable {s : State} {pane tile c i : Nat}

theorem cascadeLine_of_ran (h : (s.cell (cellKey pane tile c)).ran = s.cyc pane + 1) :
    s.cascadeLine pane tile c i = (s.cell (cellKey pane tile c)).casc.getD i 0 := if_pos h

variable (h : (s.cell (cellKey pane tile c)).ran ≠ s.cyc pane + 1)
include h

theorem cascadeLine_of_idle (hc : s.cascading pane tile c = none) : s.cascadeLine pane tile c i = 0 := by
  rw [State.cascadeLine, if_neg h, hc]

theorem cascadeLine_of_issued {j : Nat} {w : BitVec 48} (hi : s.issued pane tile c = some ⟨some j, w⟩) (hop : lvOp w = 0x3C)
    (hl : illegalCause w = none) (hp : s.lvParAt (s.liveCopy pane) pane tile c j = louvreParity w) (hi4 : i < 4) :
    s.cascadeLine pane tile c i = s.source pane tile c 0 (lvImm w) (if i = 0 then lvA w else if i = 1 then lvB w else if i = 2 then lvC w
      else bitsOf (lvImm w) 11 7) := by
  have hc : s.cascading pane tile c = some w := by
    simp [State.cascading, hi, hop, hl, hp]
  rw [State.cascadeLine, if_neg h, hc]
  interval_cases i <;> rfl

end

/-- Settles O9: MUL's halves and samples are `mulVal`, MULA adds to `mulW`, and CAS delivers the line that `cascadeResult_eq` names. -/
theorem cellMultiplyCascade : Obligations.CellMultiplyCascade := by
  refine ⟨?mul, ?mula, ?cas⟩
  case mul =>
    refine cellClaim_of_alu (f := aluMul) ⟨[0, 2], true, true, false, true, true⟩ (fun _ _ _ => rfl)
      (fun l h => by unfold opRow; rw [h]; rfl) rfl fun l a b c x y hop hl h _ => ?_
    intro half smp p hit
    rw [OpRow.env] at h ⊢
    refine ⟨fun hm => ?half, fun hm => ?samples⟩
    case half =>
      rw [aluMul, if_pos hm, hm] at h ⊢
      refine ⟨(toNat_mulW _).trans ?_, logicRes_flags h⟩
      rw [mulVal_half, mulVal_half]
      rfl
    case samples =>
      rw [aluMul_samples (show lvLane l ≠ 0 by omega)] at h ⊢
      simp only [mulVal_sample] at h ⊢
      rw [hm]
      cases h11 : (lvImm l).testBit 11
      · simp only [h11, Bool.false_eq_true, if_false, hit, p, smp] at h ⊢
        exact ⟨fun j hj => lane_satRes_satU _ _ hj, satRes_flags satU_ne_iff h⟩
      · simp only [h11, if_true, hit, p, smp] at h ⊢
        exact ⟨fun j hj => laneS_satRes_satS _ _ hj, satRes_flags satS_ne_iff h⟩
  case mula =>
    refine cellClaim_of_alu (f := aluMula) ⟨[0], true, true, true, true, true⟩ (fun _ _ _ => rfl)
      (fun l h => opRow_mula h) rfl fun l a b c x y hop hl h _ => ?_
    intro half p
    have hp : p = (mulW (OpRow.env ⟨[0], true, true, true, true, true⟩ l a b c x)).toNat := by
      rw [← Int.toNat_natCast (mulW _).toNat, toNat_mulW, mulVal_half, mulVal_half]
      rfl
    rw [mula_mode hop hl, hp]
    exact maccRes_spec h
  case cas =>
    intro s c dt k l s1 hi hp hl hop hcond g i other y
    have hrow : opRow l = some ⟨[0], true, true, true, true, true⟩ := by unfold opRow; rw [hop]; rfl
    obtain ⟨z, hz, hw, hfl, -⟩ := cellExec_of_executed s1 (paneOf c) (tileOf c) (Claims.unitOf c) k l ⟨[0], true, true, true, true, true⟩
      (fun s1 e => { r := s1.cascadeResult (paneOf c) (tileOf c) (Claims.unitOf c) e.imm }) hcond
    have hcell : (s1.setCell (keyOf c) z).cell (keyOf c) = z := s1.cell_setCell_same _ _
    have hres : s1.cascadeResult (paneOf c) (tileOf c) (Claims.unitOf c) (lvImm l) = s1.cascadeLine (paneOf c) (tileOf c) other (i % 4) :=
      cascadeResult_eq s1 (paneOf c) (tileOf c) c.k.val (lvImm l) c.n.isLt
    refine ⟨s1.setCell (keyOf c) z, s1.cascadeLine (paneOf c) (tileOf c) other (i % 4), ?_, onlyCell_setCell _ _ _, ?_, ?_,
      fun hran => cascadeLine_of_ran hran, fun hran => ⟨fun hc => cascadeLine_of_idle hran hc, fun j w hi' hop' hl' hp' =>
        cascadeLine_of_issued hran hi' hop' hl' hp' (Nat.mod_lt _ (by decide))⟩⟩
    · exact congrArg _ ((cellOp_of_legal _ _ hi hp hl hop hrow).trans hz)
    · rw [hcell]
      exact hfl.same
    · rw [hcell, ← hres]
      exact hw

end Sys2Proof.Machine
end

section
/-!
PROOF. A push of a queue's binding does not reach the array where the block's log of the present cycle names, for the entry at the write
position, a writer after the queue controller (R162). The log's writer number is a natural number: the model's operations log 0 to 3 only, and
CellQueueOpcodes asks nothing of the log.
-/
namespace Sys2Proof.Machine
open Sys2Proof.Claims

/-- Pane 0 past GSR and WRITES in its first cycle, block 0 in QUEUE mode, its queue 0 of one entry at 0 and empty; the log of the cycle names
a writer 4 of that entry. -/
def loggedByFour : State :=
  { State.reset with
    dies := [(0, { gsr := true, writes := true })]
    stv := [(2 * R.WM_CFG 0 0 0, putF 0 F.WM_CFG.MODE 3)]
    movers := [(0, { wrCyc := 1, wrs := [⟨0, 4, {}⟩] })] }

/-- Refutes O10: in `loggedByFour` queue 0 takes a push of the word 1, and the entry at its write position stays 0, since `State.storeEntry`
lets the later writer's write stand. -/
theorem not_cellQueueOpcodes : ¬ Obligations.CellQueueOpcodes := by
  intro h
  obtain ⟨-, -, hpush⟩ := h.1 loggedByFour 0 0 0 (by decide) (by decide) (by decide +kernel)
  obtain ⟨haccept, -⟩ := hpush 1 false (by decide +kernel) (by decide +kernel)
  obtain ⟨-, -, -, -, hentry, -⟩ := haccept (by decide +kernel) (by decide +kernel)
  have hstays : (loggedByFour.pushBound 0 0 0 1 false).2.entry 0 (loggedByFour.writePos 0 0 0) = {} := by decide +kernel
  exact absurd (hentry.symm.trans hstays) (by decide)

end Sys2Proof.Machine
end

section
/-!
PROOF. The louvres that do not execute (R31, R38, R58, R73, R74), and the capture of a failing cell (R47).
-/
namespace Sys2Proof.Machine
open Sys2Proof.Claims

/-! ### Capture registers -/

theorem getLsbD_eq_getF (v : HWord) (i : Nat) : v.getLsbD i = decide (getF v ⟨i, i⟩ = 1) := by
  simp [BitVec.getLsbD, Nat.testBit_eq_decide_div_mod_eq, getF, bitsOf]

/-- A field is its bits. -/
theorem getF_congr {v w : HWord} {f : Fld} (h : ∀ i, f.lo ≤ i → i ≤ f.hi → v.getLsbD i = w.getLsbD i) : getF v f = getF w f := by
  refine Nat.eq_of_testBit_eq fun i => ?_
  simp only [getF, bitsOf, Nat.testBit_mod_two_pow, Nat.testBit_div_two_pow]
  by_cases hi : i < f.hi + 1 - f.lo
  · rw [show v.toNat.testBit (i + f.lo) = w.toNat.testBit (i + f.lo) from h _ (by omega) (by omega)]
  · simp [hi]

/-- A capture register with COUNT one up, short of saturation. -/
def countUp (v : HWord) : HWord := putF v F.PANE_LVERR.COUNT (min (getF v F.PANE_LVERR.COUNT + 1) 255)

/-- A register with the bits of `mask` taken from `loc`. -/
def located (v : HWord) (mask loc : Nat) : HWord := (v &&& ~~~(BitVec.ofNat 32 mask)) ||| (BitVec.ofNat 32 loc &&& BitVec.ofNat 32 mask)

theorem State.reg_addSat_count (s : State) (off : Nat) : (s.addSat off F.PANE_LVERR.COUNT 1).reg off = countUp (s.reg off) :=
  State.reg_setFld_same _ _ _ _

theorem getLsbD_countUp (v : HWord) {i : Nat} (h : i < 22 ∨ 29 < i) : (countUp v).getLsbD i = v.getLsbD i := by
  rw [getLsbD_eq_getF, getLsbD_eq_getF, countUp, getF_putF_other _ _ _ _ (by decide) (by decide) (Nat.le_refl i) h]

theorem count_countUp {v w : HWord} (h : ∀ i, 22 ≤ i → i ≤ 29 → w.getLsbD i = v.getLsbD i) :
    bitsOf (countUp w).toNat 29 22 = min (bitsOf v.toNat 29 22 + 1) 255 := by
  have hw : getF w F.PANE_LVERR.COUNT = getF v F.PANE_LVERR.COUNT := getF_congr h
  calc bitsOf (countUp w).toNat 29 22 = min (getF w F.PANE_LVERR.COUNT + 1) 255 % 2 ^ 8 := getF_putF_same _ _ _ (by decide) (by decide)
    _ = min (getF v F.PANE_LVERR.COUNT + 1) 255 := by rw [hw]; omega

section
variable {n : Nat} (hn : n ≤ 22)
include hn

theorem getLsbD_ones (i : Nat) : (BitVec.ofNat 32 (2 ^ n - 1)).getLsbD i = decide (i < n) := by
  rw [BitVec.getLsbD_ofNat, Nat.testBit_two_pow_sub_one]
  by_cases h : i < n
  · simp [h, show i < 32 by omega]
  · simp [h]

theorem getLsbD_located (v : HWord) (loc : Nat) {i : Nat} (hi : i < 32) :
    (located v (2 ^ n - 1) loc).getLsbD i = if i < n then loc.testBit i else v.getLsbD i := by
  simp only [located, BitVec.getLsbD_or, BitVec.getLsbD_and, BitVec.getLsbD_not, getLsbD_ones hn, BitVec.getLsbD_ofNat, hi, decide_true,
    Bool.true_and]
  by_cases h : i < n <;> simp [h]

/-- What stands in the bits below `n`. -/
theorem and_ones_eq {v : HWord} {loc : Nat} (h : ∀ i < n, v.getLsbD i = loc.testBit i) :
    v &&& BitVec.ofNat 32 (2 ^ n - 1) = BitVec.ofNat 32 (loc % 2 ^ n) := by
  refine BitVec.eq_of_getLsbD_eq fun i hi => ?_
  rw [BitVec.getLsbD_and, getLsbD_ones hn, BitVec.getLsbD_ofNat, Nat.testBit_mod_two_pow]
  by_cases hin : i < n
  · rw [h i hin]
    simp [hin, hi]
  · simp [hin]

theorem and_ones_congr {v w : HWord} (h : ∀ i < n, v.getLsbD i = w.getLsbD i) :
    v &&& BitVec.ofNat 32 (2 ^ n - 1) = w &&& BitVec.ofNat 32 (2 ^ n - 1) := by
  refine BitVec.eq_of_getLsbD_eq fun i _ => ?_
  rw [BitVec.getLsbD_and, BitVec.getLsbD_and, getLsbD_ones hn]
  by_cases hin : i < n
  · rw [h i hin]
  · simp [hin]

theorem captured_first {v : HWord} (hv : v.getLsbD 31 = false) (loc : Nat) :
    Captured v (countUp (located v (2 ^ n - 1) loc ||| 0x80000000)) (2 ^ n - 1) (loc % 2 ^ n) := by
  have hbit : ∀ i < 31, (located v (2 ^ n - 1) loc ||| 0x80000000).getLsbD i = if i < n then loc.testBit i else v.getLsbD i := fun i hi => by
    have : (0x80000000 : HWord).getLsbD i = false := by interval_cases i <;> rfl
    rw [BitVec.getLsbD_or, this, Bool.or_false, getLsbD_located hn _ _ (by omega)]
  have hhigh : ∀ i < 31, n ≤ i → (located v (2 ^ n - 1) loc ||| 0x80000000).getLsbD i = v.getLsbD i := fun i hi hin => by
    rw [hbit i hi, if_neg (by omega)]
  refine ⟨?_, count_countUp fun i h1 h2 => hhigh i (by omega) (by omega), fun _ => ⟨and_ones_eq hn fun i hi => ?_, ?_⟩, fun h => ?_⟩
  · rw [getLsbD_countUp _ (by decide), BitVec.getLsbD_or, show (0x80000000 : HWord).getLsbD 31 = true by decide, Bool.or_true]
  · rw [getLsbD_countUp _ (by omega), hbit i (by omega), if_pos hi]
  · rw [getLsbD_countUp _ (by decide), hhigh 30 (by decide) (by omega)]
  · rw [hv] at h
    cases h

omit hn in
theorem captured_again {v : HWord} (hv : v.getLsbD 31 = true) (mask loc : Nat) : Captured v (countUp (v ||| 0x40000000)) mask loc := by
  refine ⟨?_, count_countUp fun i h1 h2 => ?_, fun h => ?_, fun _ => ?_⟩
  · rw [getLsbD_countUp _ (by decide), BitVec.getLsbD_or, hv, Bool.true_or]
  · have : (0x40000000 : HWord).getLsbD i = false := by interval_cases i <;> rfl
    rw [BitVec.getLsbD_or, this, Bool.or_false]
  · rw [hv] at h
    cases h
  · rw [getLsbD_countUp _ (by decide), BitVec.getLsbD_or, show (0x40000000 : HWord).getLsbD 30 = true by decide, Bool.or_true]

/-- A cell that fails beside the one captured: the lower coordinate stands. -/
theorem capturedBeside_of_count {v : HWord} (hv : v.getLsbD 31 = true) (h17 : 17 ≤ n) (loc : Nat) :
    CapturedBeside v (if loc % 2 ^ 17 / 2 ^ 6 < v.toNat % 2 ^ 17 / 2 ^ 6 then located (countUp v) (2 ^ n - 1) loc else countUp v)
      (2 ^ n - 1) (loc % 2 ^ n) := by
  have hcoord : ∀ x, bitsOf x 16 6 = x % 2 ^ 17 / 2 ^ 6 := fun x => by
    unfold bitsOf
    omega
  have hloc : bitsOf (loc % 2 ^ n) 16 6 = loc % 2 ^ 17 / 2 ^ 6 := by
    rw [hcoord, Nat.mod_mod_of_dvd _ (Nat.pow_dvd_pow 2 h17)]
  unfold CapturedBeside
  rw [hloc, hcoord v.toNat]
  split
  · have hbit : ∀ i, n ≤ i → i < 32 → (located (countUp v) (2 ^ n - 1) loc).getLsbD i = (countUp v).getLsbD i := fun i hin hi => by
      rw [getLsbD_located hn _ _ hi, if_neg (by omega)]
    refine ⟨?_, ?_, ?_, and_ones_eq hn fun i hi => ?_⟩
    · rw [hbit 31 (by omega) (by decide), getLsbD_countUp _ (by decide), hv]
    · rw [hbit 30 (by omega) (by decide), getLsbD_countUp _ (by decide)]
    · rw [← count_countUp fun _ _ _ => rfl]
      exact getF_congr (f := ⟨29, 22⟩) fun i h1 h2 => hbit i (le_trans hn h1) (by dsimp only at h2; omega)
    · rw [getLsbD_located hn _ _ (by omega), if_pos hi]
  · refine ⟨?_, ?_, count_countUp fun _ _ _ => rfl, and_ones_congr hn fun i hi => ?_⟩
    · rw [getLsbD_countUp _ (by decide), hv]
    · rw [getLsbD_countUp _ (by decide)]
    · rw [getLsbD_countUp _ (by omega)]

end

/-! ### A failing cell -/

section
variable (s : State) (pane off mask loc stamp : Nat)

theorem captureCell_regs : ∃ rs, s.captureCell pane off mask loc stamp = { s with regs := rs } := by
  have hset : ∀ {t : State} (v : HWord), (∃ rs, t = { s with regs := rs }) → ∃ rs, t.setReg off v = { s with regs := rs } := by
    rintro _ v ⟨rs, rfl⟩
    exact ⟨_, rfl⟩
  have hself : ∃ rs, s = { s with regs := rs } := ⟨s.regs, rfl⟩
  unfold State.captureCell
  extract_lets u s1 old
  split
  · split
    · exact hset _ (hset _ hself)
    · exact hset _ hself
  · exact hset _ (hset _ hself)

theorem reg_captureCell_other {o : Nat} (h : o ≠ off) : (s.captureCell pane off mask loc stamp).reg o = s.reg o := by
  dsimp only [State.captureCell, State.capture]
  split_ifs <;> simp only [State.reg_addSat_other _ _ _ h, State.reg_setReg_other _ _ h]

theorem reg_captureCell_beside (hv : (s.reg off).getLsbD 31 = true) (hs : stamp = s.cyc pane + 1) :
    (s.captureCell pane off mask loc stamp).reg off =
      if loc % 2 ^ 17 / 2 ^ 6 < (s.reg off).toNat % 2 ^ 17 / 2 ^ 6 then located (countUp (s.reg off)) mask loc else countUp (s.reg off) := by
  dsimp only [State.captureCell]
  rw [if_pos ⟨hs, hv⟩, ← s.reg_addSat_count, apply_ite (fun t : State => t.reg off), State.reg_setReg_same]
  rfl

theorem reg_captureCell_apart (h : ¬((s.reg off).getLsbD 31 = true ∧ stamp = s.cyc pane + 1)) :
    (s.captureCell pane off mask loc stamp).reg off =
      countUp (if (s.reg off).getLsbD 31 then s.reg off ||| 0x40000000 else located (s.reg off) mask loc ||| 0x80000000) := by
  dsimp only [State.captureCell]
  rw [if_neg fun hc => h hc.symm, State.capture, State.reg_addSat_count, State.reg_setReg_same]
  rfl

/-- R47. -/
theorem captureCell_spec {n : Nat} (h17 : 17 ≤ n) (hn : n ≤ 22) :
    (if (s.reg off).getLsbD 31 = true ∧ stamp = s.cyc pane + 1 then CapturedBeside else Captured) (s.reg off)
      ((s.captureCell pane off (2 ^ n - 1) loc stamp).reg off) (2 ^ n - 1) (loc % 2 ^ n) := by
  split
  case isTrue h =>
    rw [reg_captureCell_beside _ _ _ _ _ _ h.1 h.2]
    exact capturedBeside_of_count hn h.1 h17 loc
  case isFalse h =>
    rw [reg_captureCell_apart _ _ _ _ _ _ h]
    cases hv : (s.reg off).getLsbD 31
    · exact captured_first hn hv loc
    · exact captured_again hv _ _

end

/-- A cell that executes as NOP after a change `a` of registers alone, and, where `fresh` says so, of its pane's state. -/
theorem cellNop_spec {s a : State} (ha : ∃ rs, a = { s with regs := rs }) (pane tile c lv : Nat) (fresh : Bool) (x : PaneSt) :
    let t := (if fresh then a.setPane pane x else a).cellNop pane tile c lv
    let key := cellKey pane tile c
    t = { s with cells := t.cells, panes := t.panes, regs := t.regs } ∧ (∀ i, i ≠ key → t.cell i = s.cell i) ∧
      SameCell (s.cell key) (t.cell key) ∧ (t.cell key).redir = .next ∧ t.reg = a.reg := by
  obtain ⟨ps, hps⟩ : ∃ ps, (if fresh then a.setPane pane x else a) = { a with panes := ps } := by
    cases fresh <;> exact ⟨_, rfl⟩
  obtain ⟨rs, rfl⟩ := ha
  rw [hps]
  intro t key
  have hkey : t.cell key = { s.cell key with
      ran := State.cyc { s with regs := rs, panes := ps } pane + 1, outPrev := (s.cell key).out, redir := .next, lastLv := lv,
      wroteOut := false, casc := [] } :=
    State.cell_setCell_same _ _ _
  refine ⟨rfl, fun i hi => State.cell_setCell_other _ _ hi, ?_, ?_, rfl⟩
  · rw [hkey]
    exact ⟨by simp [Wrote], ⟨rfl, rfl, rfl, rfl, rfl⟩, rfl, rfl, rfl⟩
  · rw [hkey]

/-- A cell whose louvre fails, of parity or as illegal: captured at `off`, with the stamp of a first capture in its pane, it executes as NOP. -/
theorem failedCell_spec (s : State) (pane tile c lv off loc stamp : Nat) (fresh : Bool) (x : PaneSt) {n : Nat} (h17 : 17 ≤ n) (hn : n ≤ 22) :
    let s1 := s.captureCell pane off (2 ^ n - 1) loc stamp
    let t := (if fresh then s1.setPane pane x else s1).cellNop pane tile c lv
    let key := cellKey pane tile c
    t = { s with cells := t.cells, panes := t.panes, regs := t.regs } ∧ (∀ i, i ≠ key → t.cell i = s.cell i) ∧
      SameCell (s.cell key) (t.cell key) ∧ (t.cell key).redir = .next ∧ (∀ o, o ≠ off → t.reg o = s.reg o) ∧
      (if (s.reg off).getLsbD 31 = true ∧ stamp = s.cyc pane + 1 then CapturedBeside else Captured) (s.reg off) (t.reg off) (2 ^ n - 1)
        (loc % 2 ^ n) := by
  intro s1 t key
  obtain ⟨hframe, hcells, hsame, hredir, hregs⟩ := cellNop_spec (captureCell_regs s pane off (2 ^ n - 1) loc stamp) pane tile c lv fresh x
  refine ⟨hframe, hcells, hsame, hredir, fun o ho => ?_, ?_⟩
  · exact (congrFun hregs o).trans (reg_captureCell_other _ _ _ _ _ _ ho)
  · rw [show t.reg off = s1.reg off from congrFun hregs off]
    exact captureCell_spec s pane off loc stamp h17 hn

theorem paneOf_div (c : CellId) : paneOf c / 64 = c.d := by
  have := c.p.isLt
  unfold paneOf paneId
  omega

theorem paneOf_mod (c : CellId) : paneOf c % 64 = c.p := by
  have := c.p.isLt
  unfold paneOf paneId
  omega

/-- Settles O11: a command whose condition does not hold is `cellExec_of_skipped`, and a louvre that fails is `failedCell_spec`. -/
theorem cellsThatDoNotExecute : Obligations.CellsThatDoNotExecute := by
  refine ⟨?skipped, ?failed⟩
  case skipped =>
    intro e he s c dt k l s1 hi hp hl hop hcond
    obtain ⟨f, act, hexec⟩ := exec_cellCommand e he c dt s
    obtain ⟨row, hrow⟩ := opRow_of_legal hl
    obtain ⟨y, hy, hsame, hredir⟩ := cellExec_of_skipped s1 (paneOf c) (tileOf c) (Claims.unitOf c) k l row f act hcond
    have hcell : (s1.setCell (keyOf c) y).cell (keyOf c) = y := s1.cell_setCell_same _ _
    refine ⟨s1.setCell (keyOf c) y, ?_, onlyCell_setCell _ _ _, ?_⟩
    · rw [hexec, cellOp_of_legal f act hi hp hl hop hrow]
      exact congrArg _ hy
    · rw [hcell]
      exact ⟨hsame, hredir⟩
  case failed =>
    intro e he s c dt j l s1 slot beside hi hop
    obtain ⟨f, act, hexec⟩ := exec_cellCommand e he c dt s
    rw [← paneOf_div c, ← paneOf_mod c]
    refine ⟨fun hp => ⟨_, hexec.trans (congrArg _ (cellOp_of_parity f act hi hp hop)), ?_⟩,
      fun cause hp hl => ⟨_, hexec.trans (congrArg _ (cellOp_of_illegal f act hi hp hl hop)), ?_⟩⟩
    · exact failedCell_spec s1 (paneOf c) (tileOf c) (Claims.unitOf c) j _ _ _ _ _ (n := 17) (by decide) (by decide)
    · exact failedCell_spec s1 (paneOf c) (tileOf c) (Claims.unitOf c) j _ _ _ _ _ (n := 20) (by decide) (by decide)

end Sys2Proof.Machine
end

section
/-!
PROOF. Order, clamp, compare, select and logic of the word cell (R59, R61, R68; Tables 3.6 and 3.7).
-/
namespace Sys2Proof.Machine
open Sys2Proof.Claims

/-! ### Lanes as numbers and as signed numbers -/

theorem signedOf_eq_toInt (w x : Nat) : signedOf w x = (BitVec.ofNat w x).toInt := by
  rw [BitVec.toInt_eq_toNat_cond, BitVec.toNat_ofNat, signedOf]
  obtain rfl | hw := Nat.eq_zero_or_pos w
  · simp [Nat.mod_one]
  · have hpow : 2 ^ w = 2 * 2 ^ (w - 1) := by rw [← pow_succ', Nat.sub_add_cancel hw]
    push_cast
    exact ite_congr (propext (by omega)) (fun _ => rfl) fun _ => rfl

theorem neg_two_pow_le_signedOf (w x : Nat) : -2 ^ (w - 1) ≤ signedOf w x := signedOf_eq_toInt w x ▸ BitVec.le_toInt _

theorem signedOf_lt_two_pow (w x : Nat) : signedOf w x < 2 ^ (w - 1) := signedOf_eq_toInt w x ▸ BitVec.toInt_lt

theorem neg_two_pow_le_laneS (m j : Nat) (x : Word) : -2 ^ (laneW m - 1) ≤ laneS m j x := neg_two_pow_le_signedOf _ _

theorem laneS_lt_two_pow (m j : Nat) (x : Word) : laneS m j x < 2 ^ (laneW m - 1) := signedOf_lt_two_pow _ _

section
variable {m j : Nat} (hj : j < laneN m)
include hj

theorem lane_pack_of_lt {f : Nat → Nat} (h : f j < 2 ^ laneW m) : lane m j (pack m f) = f j := by
  rw [lane_pack f hj, Nat.mod_eq_of_lt h]

theorem lane_pack_natCast {f : Nat → Int} {n : Nat} (hf : f j = n) (hn : n < 2 ^ laneW m) :
    lane m j (pack m fun j => wrapTo (laneW m) (f j)) = n := by
  have hcast := cast_wrapTo (laneW m) (f j)
  rw [hf, Int.emod_eq_of_lt (by positivity) (by exact_mod_cast hn)] at hcast
  rw [lane_pack_wrapTo f hj, hf]
  exact_mod_cast hcast

theorem laneS_pack_wrapTo {f : Nat → Int} (hlo : -2 ^ (laneW m - 1) ≤ f j) (hhi : f j < 2 ^ (laneW m - 1)) :
    laneS m j (pack m fun j => wrapTo (laneW m) (f j)) = f j := by
  rw [laneS, lane_pack_wrapTo f hj, signedOf_wrapTo (laneW_pos m) hlo hhi]

end

/-! ### The rows of these opcodes -/

theorem opRow_orderLogic {l : BitVec 48} (h : lvOp l ∈ [0x10, 0x11, 0x12, 0x13, 0x14, 0x20, 0x21, 0x22, 0x23]) : opRow l = some rowAB := by
  simp only [List.mem_cons, List.not_mem_nil, or_false] at h
  rcases h with h | h | h | h | h | h | h | h | h <;> (unfold opRow; rw [h]; rfl)

theorem opRow_clamp {l : BitVec 48} (h : lvOp l = 0x15 ∨ lvOp l = 0x16) : opRow l = some { rowAB with c := true } := by
  rcases h with h | h <;> (unfold opRow; rw [h]; rfl)

theorem opRow_compare {l : BitVec 48} (h : lvOp l = 0x18 ∨ lvOp l = 0x19) : opRow l = some { rowAB with dst := false } := by
  rcases h with h | h <;> (unfold opRow; rw [h]; rfl)

/-- `cellClaim_of_alu` for the opcodes of two operands, no control field and a destination. -/
theorem cellClaim_of_orderLogic {cmd : CellId → Nat → Instr} {op : Nat}
    {post : Nat → Nat → Word → Word → Word → CellSt → CellSt → Word → Prop} (f : CellEnv → AluRes)
    (hexec : ∀ c dt s, exec (cmd c dt) s = .next (s.cellAlu op c dt f))
    (hop : op ∈ [0x10, 0x11, 0x12, 0x13, 0x14, 0x20, 0x21, 0x22, 0x23])
    (hpost : ∀ l a b c x y, (f ⟨l, lvLane l, lvImm l, a, b, 0, x⟩).Flags x y →
      post (lvLane l) (lvImm l) a b c x y (f ⟨l, lvLane l, lvImm l, a, b, 0, x⟩).r) :
    CellClaim cmd op true post :=
  cellClaim_of_alu rowAB hexec (fun _ h => opRow_orderLogic (h ▸ hop)) rfl fun l a b c x y _ _ hfl _ => hpost l a b c x y hfl

/-- R73 cause 4. -/
theorem immIllegal_of_legal {l : BitVec 48} (h : illegalCause l = none) (h0 : lvOp l ≠ 0) : immIllegal l = false := by
  obtain ⟨row, hrow⟩ := opRow_of_legal h
  rw [illegalCause, if_neg h0, hrow] at h
  dsimp only at h
  split_ifs at h with _ _ _ himm
  exact eq_false_of_ne_true himm

theorem sel_imm {l : BitVec 48} (hop : lvOp l = 0x1A) (hl : illegalCause l = none) : lvImm l % 8 ≤ 4 := by
  have himm : immIllegal l = decide (bitsOf (lvImm l) 11 4 ≠ 0 ∨ bitsOf (lvImm l) 2 0 > 4) := by
    unfold immIllegal
    rw [hop]
    rfl
  have h := of_decide_eq_false (himm.symm.trans (immIllegal_of_legal hl (by omega)))
  simp only [bitsOf] at h
  omega

/-! ### Results and flags -/

section
variable {m : Nat} {x y : CellSt} {a b c : Word}

theorem lane_orderRes {j : Nat} (hj : j < laneN m) (ge : Nat → Bool) {r : Nat → Nat} (h : r j < 2 ^ laneW m) :
    lane m j (orderRes m ge r).r = r j := lane_pack_of_lt hj h

theorem laneS_orderRes {j : Nat} (hj : j < laneN m) (ge : Nat → Bool) {r : Nat → Int} (hlo : -2 ^ (laneW m - 1) ≤ r j)
    (hhi : r j < 2 ^ (laneW m - 1)) : laneS m j (orderRes m ge fun j => wrapTo (laneW m) (r j)).r = r j := laneS_pack_wrapTo hj hlo hhi

theorem orderRes_flags {ge : Nat → Bool} {r : Nat → Nat} (h : (orderRes m ge r).Flags x y) :
    ResultFlags m x y (orderRes m ge r).r ge (fun _ => false) (fun _ => false) :=
  h.resultFlags (fun _ _ => rfl) (fun _ _ => rfl) (fun _ _ => rfl)

/-- R61, for either reading of a lane that gives back the clamped value. -/
theorem clampRes_flags {val : Nat → Word → Int}
    (hval : ∀ j < laneN m, val j (clampRes m val a b c).r = min (max (val j a) (val j b)) (val j c)) (h : (clampRes m val a b c).Flags x y) :
    let r := (clampRes m val a b c).r
    ResultFlags m x y r (fun j => decide (val j r = val j c ∧ val j c < val j a)) (fun j => decide (val j r ≠ val j a))
      (fun j => decide (val j r ≠ val j a)) :=
  h.resultFlags (fun j hj => by rw [hval j hj]) (fun j hj => by rw [hval j hj]) (fun j hj => by rw [hval j hj])

theorem lane_clampRes {j : Nat} (hj : j < laneN m) :
    lane m j (clampRes m (laneU m) a b c).r = min (max (lane m j a) (lane m j b)) (lane m j c) :=
  lane_pack_natCast hj (by simp [laneU]) (min_lt_of_right_lt (lane_lt m j c))

theorem clampRes_laneU_flags (h : (clampRes m (laneU m) a b c).Flags x y) :
    let r := (clampRes m (laneU m) a b c).r
    ResultFlags m x y r (fun j => decide (lane m j r = lane m j c ∧ lane m j c < lane m j a)) (fun j => decide (lane m j r ≠ lane m j a))
      (fun j => decide (lane m j r ≠ lane m j a)) := by
  have hval : ∀ j < laneN m, laneU m j (clampRes m (laneU m) a b c).r = min (max (laneU m j a) (laneU m j b)) (laneU m j c) :=
    fun j hj => by
      simp only [laneU, lane_clampRes hj]
      push_cast
      rfl
  simpa only [laneU, Nat.cast_inj, Nat.cast_lt, ne_eq] using clampRes_flags hval h

theorem laneS_clampRes {j : Nat} (hj : j < laneN m) :
    laneS m j (clampRes m (laneS m) a b c).r = min (max (laneS m j a) (laneS m j b)) (laneS m j c) :=
  laneS_pack_wrapTo hj (le_min (le_max_of_le_left (neg_two_pow_le_laneS _ _ _)) (neg_two_pow_le_laneS _ _ _))
    (min_lt_of_right_lt (laneS_lt_two_pow _ _ _))

theorem compareRes_flags {val : Nat → Word → Int} (h : (compareRes m val a b).Flags x y) :
    FlagsAre m x y (fun j => decide (val j b ≤ val j a)) (fun j => decide (val j a = val j b)) (fun j => decide (val j a < val j b))
      (fun _ => false) (fun _ => false) := by
  have hv : y.v = 0 := h.v
  have hs : y.sat = x.sat := h.sat.trans BitVec.or_zero
  intro j hj
  refine ⟨?_, ?_, ?_, by simp [hv], by simp [hs]⟩
  · rw [h.c]
    exact getLsbD_flags5 m _ hj
  · rw [h.z]
    exact getLsbD_flags5 m _ hj
  · rw [h.n]
    exact getLsbD_flags5 m _ hj

theorem compareRes_laneU_flags (h : (compareRes m (laneU m) a b).Flags x y) :
    FlagsAre m x y (fun j => decide (lane m j b ≤ lane m j a)) (fun j => decide (lane m j a = lane m j b))
      (fun j => decide (lane m j a < lane m j b)) (fun _ => false) (fun _ => false) := by
  simpa only [laneU, Nat.cast_le, Nat.cast_inj, Nat.cast_lt] using compareRes_flags h

end

theorem getLsbD_ofNat_bits (p : Nat → Bool) {i n : Nat} (hi : i < n) :
    (BitVec.ofNat n ((List.range n).map fun i => if p i then 2 ^ i else 0).sum).getLsbD i = p i := by
  have hsum : ((List.range n).map fun i => if p i then 2 ^ i else 0).sum = digits 1 (fun i => (p i).toNat) n := by
    unfold digits
    congr 2
    funext i
    cases h : p i <;> simp [h]
  have hd := digit_digits 1 (fun i => (p i).toNat) hi
  simp only [Nat.one_mul, Nat.pow_one] at hd
  rw [hsum, BitVec.getLsbD_ofNat, Nat.testBit_eq_decide_div_mod_eq, hd]
  cases p i <;> simp [hi]

/-- R68: a bit of a truth-table function. -/
theorem getLsbD_log3 (t : Nat) (a b c : Word) {i : Nat} (hi : i < 40) : (log3 t a b c).getLsbD i =
    t.testBit (4 * (a.getLsbD i).toNat + 2 * (b.getLsbD i).toNat + (c.getLsbD i).toNat) := by
  have hbit : ∀ v : Bool, (if v then 1 else 0) = v.toNat := by decide
  simp only [log3, hbit]
  exact getLsbD_ofNat_bits (fun i => t.testBit (4 * (a.getLsbD i).toNat + 2 * (b.getLsbD i).toNat + (c.getLsbD i).toNat)) hi

/-- The flag that a legal SEL tests. -/
theorem selFlag_iff (x : CellSt) {k : Nat} (j : Nat) (hk : k ≤ 4) : selFlag x k j = true ↔
    (k = 0 ∧ x.c.getLsbD j) ∨ (k = 1 ∧ x.z.getLsbD j) ∨ (k = 2 ∧ x.n.getLsbD j) ∨ (k = 3 ∧ x.v.getLsbD j) ∨ (k = 4 ∧ x.sat.getLsbD j) := by
  interval_cases k <;> simp [selFlag]

theorem lane_aluSel (e : CellEnv) {j : Nat} (hj : j < laneN e.mode) :
    lane e.mode j (aluSel e).r = if selFlag e.x (e.imm % 8) j = true ↔ e.imm.testBit 3 = false then lane e.mode j e.a else lane e.mode j e.b := by
  have hlane : lane e.mode j (aluSel e).r =
      if selFlag e.x (e.imm % 8) j ^^ e.imm.testBit 3 then lane e.mode j e.a else lane e.mode j e.b :=
    lane_pack_of_lt hj (by split <;> exact lane_lt _ _ _)
  rw [hlane]
  refine ite_congr (propext ?_) (fun _ => rfl) fun _ => rfl
  cases selFlag e.x (e.imm % 8) j <;> cases e.imm.testBit 3 <;> decide

/-- ABSD, as a number. -/
theorem natAbs_laneU_sub (m j : Nat) (a b : Word) : (laneU m j a - laneU m j b).natAbs =
    if lane m j b ≤ lane m j a then lane m j a - lane m j b else lane m j b - lane m j a := by
  unfold laneU
  split <;> omega

/-- Settles O6: the lanes of each result are read from `orderRes`, `clampRes` and `logicRes`, the flags of a compare from `compareRes`. -/
theorem cellOrderAndLogic : Obligations.CellOrderAndLogic := by
  refine ⟨⟨?minu, ?maxu, ?mins, ?maxs, ?absd, ?clampu, ?clamps, ?cmpu, ?cmps⟩, ?and, ?or, ?xor, ?andn, ?log3, ?sel⟩
  case minu =>
    refine cellClaim_of_orderLogic aluMinu (fun _ _ _ => rfl) (by decide) fun l a b c x y h => ⟨fun j hj => ?_, orderRes_flags h⟩
    rw [← min_def]
    exact lane_orderRes hj _ (by exact min_lt_of_right_lt (lane_lt _ _ _))
  case maxu =>
    refine cellClaim_of_orderLogic aluMaxu (fun _ _ _ => rfl) (by decide) fun l a b c x y h => ⟨fun j hj => ?_, orderRes_flags h⟩
    rw [← max_def]
    exact lane_orderRes hj _ (by exact max_lt (lane_lt _ _ _) (lane_lt _ _ _))
  case mins =>
    refine cellClaim_of_orderLogic aluMins (fun _ _ _ => rfl) (by decide) fun l a b c x y h => ⟨fun j hj => ?_, orderRes_flags h⟩
    rw [← min_def]
    exact laneS_orderRes hj _ (by exact le_min (neg_two_pow_le_laneS _ _ _) (neg_two_pow_le_laneS _ _ _))
      (by exact min_lt_of_right_lt (laneS_lt_two_pow _ _ _))
  case maxs =>
    refine cellClaim_of_orderLogic aluMaxs (fun _ _ _ => rfl) (by decide) fun l a b c x y h => ⟨fun j hj => ?_, orderRes_flags h⟩
    rw [← max_def]
    exact laneS_orderRes hj _ (by exact le_max_of_le_left (neg_two_pow_le_laneS _ _ _))
      (by exact max_lt (laneS_lt_two_pow _ _ _) (laneS_lt_two_pow _ _ _))
  case absd =>
    refine cellClaim_of_orderLogic aluAbsd (fun _ _ _ => rfl) (by decide) fun l a b c x y h => ⟨fun j hj => ?_, orderRes_flags h⟩
    have ha := lane_lt (lvLane l) j a
    have hb := lane_lt (lvLane l) j b
    rw [← natAbs_laneU_sub]
    refine lane_orderRes hj _ ?_
    simp only [natAbs_laneU_sub]
    split <;> omega
  case clampu =>
    exact cellClaim_of_alu (f := aluClampu) { rowAB with c := true } (fun _ _ _ => rfl) (fun _ h => opRow_clamp (.inl h)) rfl
      fun l a b c x y _ _ h _ => ⟨fun j hj => (lane_clampRes hj).trans (min_def _ _), clampRes_laneU_flags h⟩
  case clamps =>
    exact cellClaim_of_alu (f := aluClamps) { rowAB with c := true } (fun _ _ _ => rfl) (fun _ h => opRow_clamp (.inr h)) rfl
      fun l a b c x y _ _ h _ => ⟨fun j hj => (laneS_clampRes hj).trans (min_def _ _), clampRes_flags (fun j hj => laneS_clampRes hj) h⟩
  case cmpu =>
    exact cellClaim_of_alu (f := aluCmpu) { rowAB with dst := false } (fun _ _ _ => rfl) (fun _ h => opRow_compare (.inl h)) rfl
      fun l a b c x y _ _ h _ => compareRes_laneU_flags h
  case cmps =>
    exact cellClaim_of_alu (f := aluCmps) { rowAB with dst := false } (fun _ _ _ => rfl) (fun _ h => opRow_compare (.inr h)) rfl
      fun l a b c x y _ _ h _ => compareRes_flags h
  case and =>
    exact cellClaim_of_orderLogic aluAnd (fun _ _ _ => rfl) (by decide) fun l a b c x y h =>
      ⟨fun i _ => BitVec.getLsbD_and, logicRes_flags h⟩
  case or =>
    exact cellClaim_of_orderLogic aluOr (fun _ _ _ => rfl) (by decide) fun l a b c x y h =>
      ⟨fun i _ => BitVec.getLsbD_or, logicRes_flags h⟩
  case xor =>
    exact cellClaim_of_orderLogic aluXor (fun _ _ _ => rfl) (by decide) fun l a b c x y h =>
      ⟨fun i _ => BitVec.getLsbD_xor, logicRes_flags h⟩
  case andn =>
    refine cellClaim_of_orderLogic aluAndn (fun _ _ _ => rfl) (by decide) fun l a b c x y h => ⟨fun i hi => ?_, logicRes_flags h⟩
    exact BitVec.getLsbD_and.trans (by rw [BitVec.getLsbD_not, decide_eq_true hi, Bool.true_and])
  case log3 =>
    refine cellClaim_of_alu (f := aluLog3) ⟨[0, 1, 2, 3], true, true, true, true, true⟩ (fun _ _ _ => rfl)
      (fun l h => by unfold opRow; rw [h]; rfl) rfl fun l a b c x y _ _ h _ => ⟨fun i hi => (getLsbD_log3 _ a b c hi).trans ?_, logicRes_flags h⟩
    have := Bool.toNat_lt (a.getLsbD i); have := Bool.toNat_lt (b.getLsbD i); have := Bool.toNat_lt (c.getLsbD i)
    exact (Nat.testBit_mod_two_pow (lvImm l) 8 _).trans (by rw [decide_eq_true (by omega), Bool.true_and])
  case sel =>
    refine cellClaim_of_alu (f := aluSel) { rowAB with ctl := true } (fun _ _ _ => rfl) (fun l h => by unfold opRow; rw [h]; rfl) rfl
      fun l a b c x y hop hl h _ => ⟨fun j hj => (lane_aluSel _ hj).trans ?_, h.same⟩
    exact ite_congr (propext (iff_congr (selFlag_iff x j (sel_imm hop hl)) Iff.rfl)) (fun _ => rfl) fun _ => rfl

end Sys2Proof.Machine
end

section
/-!
PROOF. Shifts, the funnel shift, bit fields, unpacking and packing of the word cell (R62 to R66; Table 3.7).
-/
namespace Sys2Proof.Machine
open Sys2Proof.Claims

/-- The statement of an opcode of which operand fields are used as its control field says, so that its row hangs on the word. -/
theorem cellClaim_of_rows {cmd : CellId → Nat → Instr} {op : Nat}
    {post : Nat → Nat → Word → Word → Word → CellSt → CellSt → Word → Prop} (f : CellEnv → AluRes) (row : BitVec 48 → OpRow)
    (hexec : ∀ c dt s, exec (cmd c dt) s = .next (s.cellAlu op c dt f)) (hrow : ∀ l, lvOp l = op → opRow l = some (row l))
    (hdst : ∀ l, (row l).dst = true)
    (hpost : ∀ l a b c x y, lvOp l = op → illegalCause l = none → (f ((row l).env l a b c x)).Flags x y →
      post (lvLane l) (lvImm l) a b c x y (f ((row l).env l a b c x)).r) : CellClaim cmd op true post := by
  intro s c dt k l row' s1 x hi hp hl hop hrow' hcond
  obtain rfl : row' = row l := Option.some.inj (hrow'.symm.trans (hrow l hop))
  obtain ⟨y, hy, hw, hfl, hqr, hqt, hqi⟩ := cellExec_of_executed s1 (paneOf c) (tileOf c) (Claims.unitOf c) k l (row l) (fun _ => f) hcond
  have hcell : (s1.setCell (keyOf c) y).cell (keyOf c) = y := s1.cell_setCell_same _ _
  rw [hdst l, ← hcell] at hw
  rw [← hcell] at hfl hqr hqt hqi
  exact ⟨s1.setCell (keyOf c) y, _, (hexec c dt s).trans (congrArg _ ((cellOp_of_legal _ _ hi hp hl hop hrow').trans hy)),
    onlyCell_setCell _ _ _, hw, hqr, hqt, hqi, hpost _ _ _ _ _ _ hop hl hfl⟩

/-! ### Shifts -/

/-- The row of the shifts: operand b is used in variable mode alone. -/
def shiftRow (l : BitVec 48) : OpRow := ⟨[0, 1, 2, 3], true, (lvImm l).testBit 11, false, true, true⟩

theorem opRow_shift {l : BitVec 48} (h : lvOp l ∈ [0x28, 0x29, 0x2A, 0x2B]) : opRow l = some (shiftRow l) := by
  simp only [List.mem_cons, List.not_mem_nil, or_false] at h
  rcases h with h | h | h | h <;> (unfold opRow; rw [h]; rfl)

theorem shiftAmt_env (l : BitVec 48) (a b c : Word) (x : CellSt) (j : Nat) : shiftAmt ((shiftRow l).env l a b c x) j =
    if (lvImm l).testBit 11 then lane (lvLane l) j b % 64 else lvImm l % 64 :=
  ite_congr rfl (fun h => by simp [OpRow.env, shiftRow, h]) fun _ => rfl

theorem cellClaim_of_shift {cmd : CellId → Nat → Instr} {op : Nat}
    {post : Nat → Nat → Word → Word → Word → CellSt → CellSt → Word → Prop} (f : CellEnv → AluRes)
    (hexec : ∀ c dt s, exec (cmd c dt) s = .next (s.cellAlu op c dt f)) (hop : op ∈ [0x28, 0x29, 0x2A, 0x2B])
    (hpost : ∀ l a b c x y, (f ((shiftRow l).env l a b c x)).Flags x y →
      post (lvLane l) (lvImm l) a b c x y (f ((shiftRow l).env l a b c x)).r) : CellClaim cmd op true post :=
  cellClaim_of_rows f shiftRow hexec (fun _ h => opRow_shift (h ▸ hop)) (fun _ => rfl) fun l a b c x y _ _ h => hpost l a b c x y h

theorem msb_eq_signedOf_neg (w x : Nat) : msb w x = decide (signedOf w x < 0) := by
  have hlt : x % 2 ^ w < 2 ^ w := Nat.mod_lt _ (Nat.two_pow_pos w)
  have hcast : ((x % 2 ^ w : Nat) : Int) < 2 ^ w := by exact_mod_cast hlt
  rw [msb, decide_eq_decide, signedOf]
  split <;> omega

/-- An arithmetic shift keeps a number within the signed bounds. -/
theorem ediv_two_pow_bounds {x P : Int} (k : Nat) (hP : 0 ≤ P) (hlo : -P ≤ x) (hhi : x < P) : -P ≤ x / 2 ^ k ∧ x / 2 ^ k < P := by
  have hle : P ≤ P * 2 ^ k := le_mul_of_one_le_right hP (one_le_pow₀ (by decide))
  exact ⟨Int.le_ediv_of_mul_le (by positivity) (by linarith), Int.ediv_lt_of_lt_mul (by positivity) (by linarith)⟩

/-- An arithmetic shift by the width or more leaves the sign. -/
theorem ediv_two_pow_eq_sign {x : Int} {w k : Nat} (hk : w ≤ k) (hlo : -2 ^ (w - 1) ≤ x) (hhi : x < 2 ^ (w - 1)) :
    x / 2 ^ k = if x < 0 then -1 else 0 := by
  have hpow : (2 : Int) ^ (w - 1) ≤ 2 ^ k := pow_le_pow_right₀ (by decide) (by omega)
  have hdiv := ediv_two_pow_bounds (x := x) k (P := 2 ^ k) (by positivity) (by omega) (by omega)
  split
  case isTrue h => exact (Int.ediv_eq_iff_of_pos (by positivity)).2 (by omega)
  case isFalse h => exact Int.ediv_eq_zero_of_lt (by omega) (by omega)

/-- The two parts of a rotation do not overlap. -/
theorem rotation_lt {v w k : Nat} (hv : v < 2 ^ w) (hk : k ≤ w) : v * 2 ^ k % 2 ^ w + v / 2 ^ (w - k) < 2 ^ w := by
  have hsplit : 2 ^ w = 2 ^ (w - k) * 2 ^ k := by rw [← pow_add, Nat.sub_add_cancel hk]
  have hlow : v / 2 ^ (w - k) < 2 ^ k := Nat.div_lt_of_lt_mul (hsplit ▸ hv)
  have hhigh : v % 2 ^ (w - k) + 1 ≤ 2 ^ (w - k) := Nat.mod_lt _ (Nat.two_pow_pos _)
  calc v * 2 ^ k % 2 ^ w + v / 2 ^ (w - k) < v % 2 ^ (w - k) * 2 ^ k + 2 ^ k := by
        rw [hsplit, Nat.mul_mod_mul_right]
        omega
    _ = (v % 2 ^ (w - k) + 1) * 2 ^ k := by ring
    _ ≤ 2 ^ w := hsplit ▸ Nat.mul_le_mul_right _ hhigh

section
variable {e : CellEnv} {k : Nat → Nat} (hk : ∀ j, shiftAmt e j = k j) {j : Nat} {x y : CellSt}

theorem shiftRes_flags {m : Nat} {r : Nat → Nat} {last last' : Nat → Bool} (h : (shiftRes m r last).Flags x y) (hlast : ∀ j, last j = last' j) :
    ResultFlags m x y (shiftRes m r last).r last' (fun _ => false) (fun _ => false) :=
  h.resultFlags (fun j _ => hlast j) (fun _ _ => rfl) (fun _ _ => rfl)

include hk

theorem lane_aluShl (hj : j < laneN e.mode) : lane e.mode j (aluShl e).r =
    if laneW e.mode ≤ k j then 0 else lane e.mode j e.a * 2 ^ k j % 2 ^ laneW e.mode := by
  refine (lane_pack _ hj).trans ?_
  rw [hk]
  by_cases hw : laneW e.mode ≤ k j
  · rw [if_pos hw, if_neg (not_lt.2 hw), Nat.zero_mod]
  · rw [if_neg hw, if_pos (not_le.1 hw)]

theorem aluShl_flags (h : (aluShl e).Flags x y) : ResultFlags e.mode x y (aluShl e).r
    (fun j => decide (k j ≠ 0) && (decide (k j ≤ laneW e.mode) && (lane e.mode j e.a).testBit (laneW e.mode - k j)))
    (fun _ => false) (fun _ => false) :=
  shiftRes_flags h fun j => by simp only [hk, Bool.decide_and, Nat.pos_iff_ne_zero, Bool.and_assoc]

theorem lane_aluShr (hj : j < laneN e.mode) : lane e.mode j (aluShr e).r =
    if laneW e.mode ≤ k j then 0 else lane e.mode j e.a / 2 ^ k j := by
  have hlt := lane_lt e.mode j e.a
  refine (lane_pack_of_lt (f := fun j => lane e.mode j e.a / 2 ^ shiftAmt e j) hj ((Nat.div_le_self _ _).trans_lt hlt)).trans ?_
  rw [hk]
  split
  case isTrue h => exact Nat.div_eq_of_lt (hlt.trans_le (Nat.pow_le_pow_right (by decide) h))
  case isFalse => rfl

theorem aluShr_flags (h : (aluShr e).Flags x y) : ResultFlags e.mode x y (aluShr e).r
    (fun j => decide (k j ≠ 0) && (decide (k j ≤ laneW e.mode) && (lane e.mode j e.a).testBit (k j - 1)))
    (fun _ => false) (fun _ => false) :=
  shiftRes_flags h fun j => by simp only [hk, Bool.decide_and, Nat.pos_iff_ne_zero, Bool.and_assoc]

theorem laneS_aluSar (hj : j < laneN e.mode) : laneS e.mode j (aluSar e).r =
    if laneW e.mode ≤ k j then (if laneS e.mode j e.a < 0 then -1 else 0) else laneS e.mode j e.a / 2 ^ k j := by
  have hlo := neg_two_pow_le_laneS e.mode j e.a
  have hhi := laneS_lt_two_pow e.mode j e.a
  obtain ⟨hlo', hhi'⟩ := ediv_two_pow_bounds (shiftAmt e j) (by positivity) hlo hhi
  refine (laneS_pack_wrapTo hj hlo' hhi').trans ?_
  rw [hk]
  split
  case isTrue h => exact ediv_two_pow_eq_sign h hlo hhi
  case isFalse => rfl

theorem aluSar_flags (h : (aluSar e).Flags x y) : ResultFlags e.mode x y (aluSar e).r
    (fun j => decide (k j ≠ 0) && if k j ≤ laneW e.mode then (lane e.mode j e.a).testBit (k j - 1) else decide (laneS e.mode j e.a < 0))
    (fun _ => false) (fun _ => false) :=
  shiftRes_flags h fun j => by
    simp only [hk, msb_eq_signedOf_neg]
    by_cases h0 : k j = 0
    · simp [h0]
    · simp only [h0, if_false, ne_eq, not_false_eq_true, decide_true, Bool.true_and]
      rfl

theorem lane_aluRol (hj : j < laneN e.mode) : let n := k j % laneW e.mode
    lane e.mode j (aluRol e).r = lane e.mode j e.a * 2 ^ n % 2 ^ laneW e.mode + lane e.mode j e.a / 2 ^ (laneW e.mode - n) := by
  intro n
  have hlt := lane_lt e.mode j e.a
  have hn : n < laneW e.mode := Nat.mod_lt _ (laneW_pos _)
  refine (lane_pack _ hj).trans ?_
  rw [hk, ← Nat.mod_add_mod, Nat.mod_eq_of_lt (rotation_lt hlt hn.le)]

end

/-! ### Words of one lane mode -/

theorem mode_of_legal {l : BitVec 48} {row : OpRow} {m : Nat} (hl : illegalCause l = none) (h0 : lvOp l ≠ 0) (hrow : opRow l = some row)
    (hm : row.modes = [m]) : lvLane l = m := by
  simpa [hm] using lvLane_of_legal hl h0 hrow

/-- The statement of an opcode of mode W whose result is a word of class LOGIC. -/
theorem cellClaim_of_word {cmd : CellId → Nat → Instr} {op : Nat} {post : Nat → Word → Word → Word → Word → Prop} (row : BitVec 48 → OpRow)
    (r : CellEnv → Word) (hexec : ∀ c dt s, exec (cmd c dt) s = .next (s.cellAlu op c dt fun e => logicRes 0 (r e))) (h0 : op ≠ 0)
    (hrow : ∀ l, lvOp l = op → opRow l = some (row l)) (hW : ∀ l, (row l).modes = [0] ∧ (row l).dst = true)
    (hpost : ∀ l a b c x, lvOp l = op → illegalCause l = none → post (lvImm l) a b c (r ((row l).env l a b c x))) :
    CellClaim cmd op true fun m imm a b c x y r => post imm a b c r ∧ ResultFlags m x y r (fun _ => false) (fun _ => false) (fun _ => false) :=
  cellClaim_of_rows _ row hexec hrow (fun l => (hW l).2) fun l a b c x y hop hl h => by
    rw [mode_of_legal hl (hop ▸ h0) (hrow l hop) (hW l).1]
    exact ⟨hpost l a b c x hop hl, logicRes_flags h⟩

/-- The row of FSH: operand c is used in variable mode alone. -/
def funnelRow (l : BitVec 48) : OpRow := ⟨[0], true, true, (lvImm l).testBit 11, true, true⟩

theorem funnelAmt_env (l : BitVec 48) (a b c : Word) (x : CellSt) : funnelAmt ((funnelRow l).env l a b c x) =
    if (lvImm l).testBit 11 then (if 40 < c.toNat % 64 then 40 else c.toNat % 64) else lvImm l % 64 := by
  refine ite_congr rfl (fun h => ?_) fun _ => rfl
  simp only [OpRow.env, funnelRow, h, if_true]
  split <;> omega

/-! ### Bit fields -/

theorem getLsbD_ofNat_field (a : Word) (q u : Nat) {i : Nat} (hi : i < 40) :
    (BitVec.ofNat 40 (a.toNat / 2 ^ q % 2 ^ u)).getLsbD i = (decide (i < u) && a.getLsbD (q + i)) := by
  rw [BitVec.getLsbD_ofNat, Nat.testBit_mod_two_pow, Nat.testBit_div_two_pow, decide_eq_true hi, Bool.true_and, Nat.add_comm]
  rfl

/-- A sign-extended field: the bits above repeat its top bit. -/
theorem getLsbD_ofInt_signedOf {u n i : Nat} (hu : 0 < u) (hi : i < 40) :
    (BitVec.ofInt 40 (signedOf u n)).getLsbD i = n.testBit (min i (u - 1)) := by
  rw [signedOf_eq_toInt, show BitVec.ofInt 40 (BitVec.ofNat u n).toInt = (BitVec.ofNat u n).signExtend 40 from rfl, BitVec.getLsbD_signExtend,
    decide_eq_true hi, Bool.true_and]
  split
  case isTrue h => rw [BitVec.getLsbD_ofNat, decide_eq_true h, Bool.true_and, show min i (u - 1) = i by omega]
  case isFalse h =>
    rw [BitVec.msb_eq_getLsbD_last, BitVec.getLsbD_ofNat, decide_eq_true (by omega), Bool.true_and, show min i (u - 1) = u - 1 by omega]

theorem getLsbD_ofNat_mul_two_pow (v u q : Nat) {i : Nat} (hi : i < 40) :
    (BitVec.ofNat 40 (v % 2 ^ u * 2 ^ q)).getLsbD i = (decide (q ≤ i ∧ i < q + u) && v.testBit (i - q)) := by
  rw [BitVec.getLsbD_ofNat, Nat.testBit_mul_two_pow, Nat.testBit_mod_two_pow, decide_eq_true hi, Bool.true_and]
  by_cases hq : q ≤ i
  · simp [hq, show i - q < u ↔ i < q + u by omega]
  · simp [hq]

/-- R65: a field of `a` replaced by the low bits of `b`. -/
theorem getLsbD_insert (a b : Word) (q u : Nat) {i : Nat} (hi : i < 40) :
    let mask : Word := BitVec.ofNat 40 ((2 ^ u - 1) * 2 ^ q)
    ((a &&& ~~~mask) ||| BitVec.ofNat 40 (b.toNat % 2 ^ u * 2 ^ q)).getLsbD i =
      if q ≤ i ∧ i < q + u then b.getLsbD (i - q) else a.getLsbD i := by
  intro mask
  have hmask : mask.getLsbD i = decide (q ≤ i ∧ i < q + u) := by
    have := getLsbD_ofNat_mul_two_pow (2 ^ u - 1) u q hi
    rw [Nat.mod_eq_of_lt (Nat.sub_lt (Nat.two_pow_pos u) Nat.one_pos), Nat.testBit_two_pow_sub_one] at this
    rw [this, ← Bool.decide_and, decide_eq_decide]
    omega
  rw [BitVec.getLsbD_or, BitVec.getLsbD_and, BitVec.getLsbD_not, hmask, getLsbD_ofNat_mul_two_pow _ _ _ hi, decide_eq_true hi]
  by_cases h : q ≤ i ∧ i < q + u
  · simp [h, BitVec.getLsbD]
  · simp [h]

/-- The width of a legal EXTS. -/
theorem exts_imm {l : BitVec 48} (hop : lvOp l = 0x31) (hl : illegalCause l = none) : 0 < lvImm l / 64 := by
  have himm : immIllegal l = decide (bitsOf (lvImm l) 11 6 = 0 ∨ bitsOf (lvImm l) 11 6 > 40 ∨
      bitsOf (lvImm l) 5 0 + bitsOf (lvImm l) 11 6 > 40) := by
    unfold immIllegal
    rw [hop]
    rfl
  have h := of_decide_eq_false (himm.symm.trans (immIllegal_of_legal hl (by omega)))
  simp only [bitsOf] at h
  omega

/-! ### Unpacking and packing -/

/-- R66: a sample widened to a half, in either signedness. -/
theorem lane_aluUnpk (e : CellEnv) {h : Nat} (hh : h < 2) : let i := h + if e.imm.testBit 0 then 2 else 0
    if e.imm.testBit 1 then laneS 1 h (aluUnpk e).r = laneS 2 i e.a else lane 1 h (aluUnpk e).r = lane 2 i e.a := by
  intro i
  have hlane : lane 1 h (aluUnpk e).r = _ := lane_pack _ hh
  split
  case isTrue hs =>
    have hlo := neg_two_pow_le_laneS 2 i e.a
    have hhi := laneS_lt_two_pow 2 i e.a
    simp only [hs, if_true] at hlane
    rw [laneS, hlane]
    exact (congrArg (signedOf 20) (Nat.mod_eq_of_lt (wrapTo_lt 20 _))).trans
      (signedOf_wrapTo (by decide) (le_trans (by norm_num [laneW]) hlo) (lt_of_lt_of_le hhi (by norm_num [laneW])))
  case isFalse hs =>
    simp only [hs] at hlane
    exact hlane.trans (Nat.mod_eq_of_lt ((lane_lt 2 i e.a).trans_le (Nat.pow_le_pow_right (by decide) (by decide))))

/-- The value that PKS makes sample `j` of, before rounding. -/
theorem pks_half {j : Nat} (hj : j < laneN 2) (a b : Word) : (if 2 ≤ j then halfS a (j - 2) else halfS b j) =
    if j = 3 then laneS 1 1 a else if j = 2 then laneS 1 0 a else if j = 1 then laneS 1 1 b else laneS 1 0 b := by
  change j < 4 at hj
  interval_cases j <;> simp [halfS]

section
variable {m : Nat} {x y : CellSt} {f v : Nat → Int} (hv : ∀ j < laneN m, f j = v j)
include hv

/-- NARROW, taking the low bits. -/
theorem narrowRes_cut (h : (narrowRes m none f).Flags x y) : let r := (narrowRes m none f).r
    (∀ j < laneN m, (lane m j r : Int) = v j % 2 ^ laneW m) ∧ ResultFlags m x y r (fun _ => false) (fun _ => false) (fun _ => false) :=
  ⟨fun j hj => (congrArg _ (lane_pack_wrapTo f hj)).trans (by rw [cast_wrapTo, hv j hj]), logicRes_flags h⟩

/-- NARROW, saturating unsigned. -/
theorem narrowRes_satU (h : (narrowRes m (some satU) f).Flags x y) : let r := (narrowRes m (some satU) f).r
    (∀ j < laneN m, (lane m j r : Int) = clampedU (laneW m) (v j)) ∧
      ResultFlags m x y r (fun _ => false) (fun j => outU (laneW m) (v j)) (fun j => outU (laneW m) (v j)) :=
  have hhit : ∀ j < laneN m, decide (satU (laneW m) (f j) ≠ f j) = outU (laneW m) (v j) := fun j hj => by rw [satU_ne_iff, hv j hj]
  ⟨fun j hj => hv j hj ▸ lane_satRes_satU f _ hj, AluRes.Flags.resultFlags h (fun _ _ => rfl) hhit hhit⟩

/-- NARROW, saturating signed. -/
theorem narrowRes_satS (h : (narrowRes m (some satS) f).Flags x y) : let r := (narrowRes m (some satS) f).r
    (∀ j < laneN m, laneS m j r = clampedS (laneW m) (v j)) ∧
      ResultFlags m x y r (fun _ => false) (fun j => outS (laneW m) (v j)) (fun j => outS (laneW m) (v j)) :=
  have hhit : ∀ j < laneN m, decide (satS (laneW m) (f j) ≠ f j) = outS (laneW m) (v j) := fun j hj => by rw [satS_ne_iff, hv j hj]
  ⟨fun j hj => hv j hj ▸ laneS_satRes_satS f _ hj, AluRes.Flags.resultFlags h (fun _ _ => rfl) hhit hhit⟩

end

/-- The treatments of a legal PKS. -/
theorem pks_imm {l : BitVec 48} (hop : lvOp l = 0x35) (hl : illegalCause l = none) : lvImm l % 4 = 0 ∨ lvImm l % 4 = 1 ∨ lvImm l % 4 = 2 := by
  have himm : immIllegal l = decide (bitsOf (lvImm l) 11 6 ≠ 0 ∨ bitsOf (lvImm l) 1 0 = 3) := by
    unfold immIllegal
    rw [hop]
    rfl
  have h := of_decide_eq_false (himm.symm.trans (immIllegal_of_legal hl (by omega)))
  simp only [bitsOf] at h
  omega

/-- Settles O8: each shift in terms of its amounts `shiftAmt`, FSH and the bit fields bit by bit, PKS by its treatment of the rounded values. -/
theorem cellShiftsAndFields : Obligations.CellShiftsAndFields := by
  refine ⟨⟨?shl, ?shr, ?sar, ?rol⟩, ?fsh, ?ext, ?exts, ?ins, ?unpk, ?pks⟩
  case shl =>
    exact cellClaim_of_shift aluShl (fun _ _ _ => rfl) (by decide) fun l a b c x y h =>
      ⟨fun j hj => lane_aluShl (shiftAmt_env l a b c x) hj, aluShl_flags (shiftAmt_env l a b c x) h⟩
  case shr =>
    exact cellClaim_of_shift aluShr (fun _ _ _ => rfl) (by decide) fun l a b c x y h =>
      ⟨fun j hj => lane_aluShr (shiftAmt_env l a b c x) hj, aluShr_flags (shiftAmt_env l a b c x) h⟩
  case sar =>
    exact cellClaim_of_shift aluSar (fun _ _ _ => rfl) (by decide) fun l a b c x y h =>
      ⟨fun j hj => laneS_aluSar (shiftAmt_env l a b c x) hj, aluSar_flags (shiftAmt_env l a b c x) h⟩
  case rol =>
    exact cellClaim_of_shift aluRol (fun _ _ _ => rfl) (by decide) fun l a b c x y h =>
      ⟨fun j hj => lane_aluRol (shiftAmt_env l a b c x) hj, shiftRes_flags h fun _ => rfl⟩
  case fsh =>
    refine cellClaim_of_word funnelRow (fun e => funnel e.a e.b (funnelAmt e)) (fun _ _ _ => rfl) (by decide)
      (fun l h => by unfold opRow; rw [h]; rfl) (fun _ => ⟨rfl, rfl⟩) fun l a b c x _ _ => ?_
    rw [funnelAmt_env]
    exact BitVec.toNat_ofNat _ _
  case ext =>
    exact cellClaim_of_word (fun _ => ⟨[0], true, false, false, true, true⟩) _ (fun _ _ _ => rfl) (by decide)
      (fun l h => by unfold opRow; rw [h]; rfl) (fun _ => ⟨rfl, rfl⟩) fun l a b c x _ _ i hi => getLsbD_ofNat_field a _ _ hi
  case exts =>
    refine cellClaim_of_word (fun _ => ⟨[0], true, false, false, true, true⟩) _ (fun _ _ _ => rfl) (by decide)
      (fun l h => by unfold opRow; rw [h]; rfl) (fun _ => ⟨rfl, rfl⟩) fun l a b c x hop hl i hi => ?_
    refine (getLsbD_ofInt_signedOf (exts_imm hop hl) hi).trans ?_
    rw [Nat.testBit_div_two_pow, Nat.add_comm]
    rfl
  case ins =>
    exact cellClaim_of_word (fun _ => ⟨[0], true, true, false, true, true⟩) _ (fun _ _ _ => rfl) (by decide)
      (fun l h => by unfold opRow; rw [h]; rfl) (fun _ => ⟨rfl, rfl⟩) fun l a b c x _ _ i hi => getLsbD_insert a b _ _ hi
  case unpk =>
    have hrow : ∀ l, lvOp l = 0x34 → opRow l = some ⟨[1], true, false, false, true, true⟩ := fun l h => by unfold opRow; rw [h]; rfl
    refine cellClaim_of_alu (f := aluUnpk) _ (fun _ _ _ => rfl) hrow rfl fun l a b c x y hop hl h _ => ?_
    rw [mode_of_legal hl (by omega) (hrow l hop) rfl]
    exact ⟨fun i hi => lane_aluUnpk (OpRow.env _ l a b c x) hi, logicRes_flags h⟩
  case pks =>
    have hrow : ∀ l, lvOp l = 0x35 → opRow l = some ⟨[2], true, true, false, true, true⟩ := fun l h => by unfold opRow; rw [h]; rfl
    refine cellClaim_of_alu (f := aluPks) _ (fun _ _ _ => rfl) hrow rfl fun l a b c x y hop hl h _ => ?_
    intro v hit
    have hv : ∀ j < laneN 2, roundBy (lvImm l / 4 % 16) (if 2 ≤ j then halfS a (j - 2) else halfS b j) = v j := fun j hj => by
      rw [pks_half hj]
    rw [mode_of_legal hl (by omega) (hrow l hop) rfl]
    simp only [aluPks, OpRow.env, if_true] at h ⊢
    obtain h0 | h1 | h2 := pks_imm hop hl
    · simp only [h0, hit, if_true] at h ⊢
      exact narrowRes_cut hv h
    · simp only [h1, hit, one_ne_zero, if_false, if_true] at h ⊢
      exact narrowRes_satU hv h
    · simp only [h2, hit, OfNat.ofNat_ne_zero, OfNat.ofNat_ne_one, if_false] at h ⊢
      exact narrowRes_satS hv h

end Sys2Proof.Machine
end

section
/-!
PROOF. CHANNEL_ENTER and CHANNEL_DELIVER (R86–R101): one item's way into a channel and out of it, what each kind of inlet and outlet makes of it,
and what the queues and RAM ports that serve them leave alone.
-/
namespace Sys2Proof.Machine
open Sys2Proof.Claims

/-! ### What a queue or a RAM port leaves alone -/

/-- Nothing differs but queues, array entries, and what line movers and array writes have noted. -/
def QueuesDiffer (s t : State) : Prop := ∃ qs as ms, t = { s with queues := qs, arrays := as, movers := ms }

theorem QueuesDiffer.refl (s : State) : QueuesDiffer s s := ⟨_, _, _, rfl⟩

theorem QueuesDiffer.trans {a b c : State} (h : QueuesDiffer a b) (g : QueuesDiffer b c) : QueuesDiffer a c := by
  obtain ⟨_, _, _, rfl⟩ := h
  obtain ⟨_, _, _, rfl⟩ := g
  exact ⟨_, _, _, rfl⟩

theorem QueuesDiffer.chans {s t : State} (h : QueuesDiffer s t) : t.chans = s.chans := by
  obtain ⟨_, _, _, rfl⟩ := h
  rfl

theorem QueuesDiffer.regs {s t : State} (h : QueuesDiffer s t) : t.regs = s.regs := by
  obtain ⟨_, _, _, rfl⟩ := h
  rfl

theorem queuesDiffer_setQueue (s : State) (blk q : Nat) (x : QueueSt) : QueuesDiffer s (s.setQueue blk q x) := ⟨_, _, _, rfl⟩

theorem queuesDiffer_storeEntry (s : State) (blk a who : Nat) (x : Entry) : QueuesDiffer s (s.storeEntry blk a who x) := by
  dsimp only [State.storeEntry]
  split
  · split
    · exact .refl s
    · exact ⟨_, _, _, rfl⟩
  · exact ⟨_, _, _, rfl⟩

theorem queuesDiffer_appendWord (s : State) (pane m q : Nat) (w : Word) (tag net : Bool) :
    QueuesDiffer s (s.appendWord pane m q w tag net) :=
  (queuesDiffer_storeEntry s _ _ _ _).trans (queuesDiffer_setQueue _ _ _ _)

theorem queuesDiffer_foldl {α : Type} (f : State → α → State) (l : List α) (s : State) (hf : ∀ a i, QueuesDiffer a (f a i)) :
    QueuesDiffer s (l.foldl f s) := by
  induction l generalizing s with
  | nil => exact .refl s
  | cons i l ih => exact (hf s i).trans (ih _)

theorem queuesDiffer_acceptWord (s : State) (pane m q : Nat) (w : Word) (tag net : Bool) :
    QueuesDiffer s (s.acceptWord pane m q w tag net) := by
  dsimp only [State.acceptWord]
  split
  · exact queuesDiffer_setQueue s _ _ _
  · refine ((queuesDiffer_setQueue s _ _ _).trans (queuesDiffer_appendWord _ pane m q w tag net)).trans
      (queuesDiffer_foldl _ _ _ fun a e => ?_)
    exact queuesDiffer_appendWord a _ _ _ _ _ _

theorem queuesDiffer_refuse (s : State) (pane m q n : Nat) : QueuesDiffer s (s.refuse pane m q n) := by
  dsimp only [State.refuse]
  split
  · exact queuesDiffer_setQueue s _ _ _
  · exact .refl s

theorem queuesDiffer_pushQueue (s : State) (pane m q : Nat) (w : Word) (tag : Bool) :
    QueuesDiffer s (s.pushQueue pane m q w tag).2 := by
  unfold State.pushQueue
  split
  · exact queuesDiffer_refuse s pane m q 1
  · split
    · exact queuesDiffer_acceptWord s pane m q w tag false
    · exact (queuesDiffer_refuse s pane m q 1).trans (queuesDiffer_setQueue _ _ _ _)

theorem pushPort_frame (s : State) (pane m i : Nat) (w : Word) (tag : Bool) :
    ∃ ps, (s.pushPort pane m i w tag).2 = { s with ports := ps } := by
  dsimp only [State.pushPort]
  split
  · exact ⟨_, rfl⟩
  · split
    · exact ⟨_, rfl⟩
    · split
      · exact ⟨_, rfl⟩
      · split <;> exact ⟨_, rfl⟩

theorem chans_checkEntry (s : State) (blk a : Nat) : (s.checkEntry blk a).chans = s.chans := by
  unfold State.checkEntry
  split
  · rfl
  · simp
  · dsimp only
    split <;> simp

theorem chans_popBound (s : State) (pane m q : Nat) : (s.popBound pane m q).2.chans = s.chans := by
  unfold State.popBound
  split
  · dsimp only [State.popQueue, State.takeHead]
    split
    · rfl
    · simp [State.dropHead, chans_checkEntry]
  · dsimp only [State.popPort]
    split
    · split <;> rfl
    · rfl

/-! ### One channel -/

theorem State.chan_congr {s t : State} (h : t.chans = s.chans) (pane k : Nat) : t.chan pane k = s.chan pane k := by
  rw [State.chan, h, State.chan]

theorem State.chan_setChan_same (s : State) (pane k : Nat) (x : ChanSt) : (s.setChan pane k x).chan pane k = x :=
  SMap.get_set_same _ _ _ _

theorem State.reg_setChan (s : State) (pane k : Nat) (x : ChanSt) : (s.setChan pane k x).reg = s.reg := rfl

theorem chansBut_setChan (s : State) (pane k : Nat) (x : ChanSt) : ChansBut s (s.setChan pane k x) [(pane, k)] := fun _ h =>
  SMap.get_set_other _ _ _ _ _ _ (h (pane, k) (List.mem_singleton_self _))

theorem chansBut_trans {a b c : State} {l : List (Nat × Nat)} (h : ChansBut a b l) (g : ChansBut b c l) : ChansBut a c l :=
  fun k hk => (g k hk).trans (h k hk)

theorem chansBut_mono {s t : State} {l l' : List (Nat × Nat)} (h : ChansBut s t l) (hl : l ⊆ l') : ChansBut s t l' :=
  fun k hk => h k fun e he => hk e (hl he)

theorem chansBut_congr {s s' t t' : State} {l : List (Nat × Nat)} (h : ChansBut s t l) (hs : s.chans = s'.chans) (ht : t'.chans = t.chans) :
    ChansBut s' t' l := fun k hk => by rw [ht, h k hk, hs]

theorem chan_eq_of_chansBut {s t : State} {pane k a b : Nat} (h : ChansBut s t [(a, b)]) (hne : pane * 64 + k ≠ a * 64 + b) :
    t.chan pane k = s.chan pane k := h _ fun _ he => List.mem_singleton.mp he ▸ hne

/-! ### Neighbours -/

theorem nbrInDie_ne (p side : Nat) : nbrInDie p side ≠ some p := by
  intro h
  dsimp only [nbrInDie] at h
  split at h <;> rw [Option.ite_none_right_eq_some, Option.some_inj] at h <;> omega

theorem dieFace_ne (d side : Nat) : dieFace d side ≠ some d := by
  unfold dieFace
  split <;> simp

/-- A pane's neighbour is another pane (R86, R253). -/
theorem nbr_ne {pane side np : Nat} {hinge : Bool} (h : nbr pane side = some (np, hinge)) : np ≠ pane := by
  dsimp only [nbr] at h
  split at h
  case h_1 p' hp =>
    have hne : p' ≠ pane % 64 := fun he => nbrInDie_ne _ _ (he ▸ hp)
    cases h
    omega
  case h_2 =>
    obtain ⟨d', hd, hx⟩ := Option.map_eq_some_iff.mp h
    have hne : d' ≠ pane / 64 := fun he => dieFace_ne _ _ (he ▸ hd)
    cases hx
    split <;> omega

/-- A channel that arrives at a pane is none of those the pane sends. -/
theorem inbound_key_ne {pane k sp sk j : Nat} {hinge : Bool} (h : inboundOf pane k = some (sp, sk, hinge)) (hj : j < 64) :
    sp * 64 + sk ≠ pane * 64 + j := by
  obtain ⟨⟨np, hg⟩, hn, hx⟩ := Option.map_eq_some_iff.mp h
  have := nbr_ne hn
  cases hx
  omega

/-! ### Fields -/

theorem getF_lt (v : HWord) (f : Fld) : getF v f < 2 ^ (f.hi + 1 - f.lo) := Nat.mod_lt _ (Nat.two_pow_pos _)

theorem State.fld_addSat_same (s : State) (off : Nat) {f : Fld} (n : Nat) (h1 : f.lo ≤ f.hi) (h2 : f.hi < 32) :
    (s.addSat off f n).fld off f = min (s.fld off f + n) (2 ^ (f.hi + 1 - f.lo) - 1) := by
  have := Nat.two_pow_pos (f.hi + 1 - f.lo)
  rw [State.addSat, State.fld_setFld_same _ _ _ _ h1 h2, Nat.mod_eq_of_lt (by omega)]

/-! ### The way into a channel -/

/-- An item enters outbound channel `k` in cycle `u`, which notes the cycle. -/
def State.acceptItem (s : State) (pane k : Nat) (it : ChanItem) (u : Nat) : State :=
  (s.enterItem pane k it).setChan pane k { (s.enterItem pane k it).chan pane k with inCyc := u + 1 }

section
variable (s : State) (pane k : Nat) (it : ChanItem) (u : Nat)

/-- The item goes into the sending die's stages where a hinge lies between, else into the receiving pane's. -/
theorem State.enterItem_eq : s.enterItem pane k it = s.setChan pane k (if (nbr pane (k / 16)).any (·.2)
    then { s.chan pane k with near := (s.chan pane k).near ++ [it] } else { s.chan pane k with far := (s.chan pane k).far ++ [it] }) := by
  unfold State.enterItem
  obtain - | ⟨np, - | -⟩ := nbr pane (k / 16) <;> rfl

theorem State.chan_acceptItem : (s.acceptItem pane k it u).chan pane k = Entered (s.chan pane k) ((nbr pane (k / 16)).any (·.2)) it u := by
  rw [State.acceptItem, State.chan_setChan_same, State.enterItem_eq, State.chan_setChan_same, Entered]
  cases (nbr pane (k / 16)).any (·.2) <;> rfl

theorem State.acceptItem_frame : s.acceptItem pane k it u = { s with chans := (s.acceptItem pane k it u).chans } := by
  rw [State.acceptItem, State.enterItem_eq, State.setChan, State.setChan]

theorem State.regs_acceptItem : (s.acceptItem pane k it u).regs = s.regs := by rw [State.acceptItem_frame]

theorem chansBut_acceptItem : ChansBut s (s.acceptItem pane k it u) [(pane, k)] := by
  rw [State.acceptItem, State.enterItem_eq]
  exact chansBut_trans (chansBut_setChan s pane k _) (chansBut_setChan _ pane k _)

end

/-- The settings word of the live inlet of outbound channel `k`. -/
def liveInlet (s : State) (pane k : Nat) : HWord := s.chIn (s.liveCopy pane) pane k

theorem newItem_eq (s : State) (pane : Nat) (w : Word) (tag : Bool) :
    s.newItem pane w tag = freshItem w tag (decide (s.liveCopy pane = 1)) := by
  have hbank : SMap.get false s.bank pane = decide (s.liveCopy pane = 1) := by
    unfold State.liveCopy
    cases SMap.get false s.bank pane <;> rfl
  rw [State.newItem, hbank, freshItem]

/-- An inlet that fetched a word by a change `r` of anything but the channels enters it as a fresh item of the live bank (R95). -/
theorem acceptItem_newItem {s r : State} (h : r.chans = s.chans) {pane k np : Nat} {hinge : Bool} (hn : nbr pane (k / 16) = some (np, hinge))
    (w : Word) (tag : Bool) (u : Nat) : let t := r.acceptItem pane k (s.newItem pane w tag) u
    t = { r with chans := t.chans } ∧ ChansBut s t [(pane, k)] ∧
      t.chan pane k = Entered (s.chan pane k) hinge (freshItem w tag (decide (s.liveCopy pane = 1))) u := by
  refine ⟨State.acceptItem_frame _ _ _ _ _, chansBut_congr (chansBut_acceptItem r pane k _ u) h rfl, ?_⟩
  rw [State.chan_acceptItem, State.chan_congr h, newItem_eq, hn]
  rfl

section
variable {s s1 : State} {d : Fin 4} {p k : Fin 64} {dt : Nat}

/-- Nothing enters an outbound channel whose inlet is OFF, or has taken an item in the cycle, or whose pane does not run. -/
theorem exec_channelEnter_idle (hs : s.advance (paneId d p) dt = s1)
    (h : s1.paneRuns (paneId d p) = false ∨ (s1.chan (paneId d p) k).inCyc = s1.cyc (paneId d p) + 1 ∨
      getF (liveInlet s1 (paneId d p) k) F.PANE_CHIN.MODE = 0) :
    exec (.channelEnter d p k dt) s = .next s1 := by
  subst hs
  change execChannelEnter d p k dt s = _
  dsimp only [execChannelEnter]
  obtain h | h | h := h
  · rw [if_pos (by simp [h])]
  · rw [if_pos (Or.inr h)]
  · rw [liveInlet] at h
    rw [h]
    exact congrArg _ (ite_self _)

variable (hs : s.advance (paneId d p) dt = s1) (hrun : s1.paneRuns (paneId d p) = true)
  (hin : (s1.chan (paneId d p) k).inCyc ≠ s1.cyc (paneId d p) + 1)
include hs hrun hin

theorem exec_channelEnter_queue (hmode : getF (liveInlet s1 (paneId d p) k) F.PANE_CHIN.MODE = 1) :
    exec (.channelEnter d p k dt) s =
      let pane := paneId d p
      let m := getF (liveInlet s1 pane k) F.PANE_CHIN.MEM
      let q := getF (liveInlet s1 pane k) F.PANE_CHIN.Q
      let r := s1.popBound pane m q
      .next (if s1.served pane (true, m, q) false (.chan k) ∧ s1.stageFree pane k then
        if r.1.2.2 then r.2.acceptItem pane k (s1.newItem pane r.1.1 r.1.2.1) (s1.cyc pane) else s1 else s1) := by
  subst hs
  change execChannelEnter d p k dt s = _
  dsimp only [execChannelEnter]
  rw [if_neg (by simp [hrun, hin])]
  rw [liveInlet] at hmode ⊢
  rw [hmode]
  rfl

theorem exec_channelEnter_strobe (hmode : getF (liveInlet s1 (paneId d p) k) F.PANE_CHIN.MODE = 2)
    {sc : Nat} (hsc : getF (liveInlet s1 (paneId d p) k) F.PANE_CHIN.SCELL = sc)
    {x : CellSt} (hx : s1.cell (cellKey (paneId d p) (sc / 32) (sc % 32)) = x)
    (htile : sc / 32 % 8 ≠ 4) (hran : x.ran = s1.cyc (paneId d p) + 1) (hout : x.wroteOut = true)
    (hlv : (getF (liveInlet s1 (paneId d p) k) F.PANE_CHIN.LVMASK).testBit x.lastLv = true) :
    exec (.channelEnter d p k dt) s =
      let pane := paneId d p
      let full := s1.addSat (R.PANE_CHSTAT d p k) F.PANE_CHSTAT.OVR 1
      .next (if s1.stageFree pane k then s1.acceptItem pane k (s1.newItem pane x.out false) (s1.cyc pane)
        else full.setChan pane k { full.chan pane k with inCyc := s1.cyc pane + 1 }) := by
  subst hs hsc hx
  change execChannelEnter d p k dt s = _
  dsimp only [execChannelEnter]
  rw [if_neg (by simp [hrun, hin])]
  rw [liveInlet] at hmode htile hran hout hlv ⊢
  rw [hmode]
  exact congrArg _ (if_neg (by simp [htile, hran, hout, hlv]))

end

/-- An inlet whose first stage is taken counts an overrun. -/
theorem overrun_spec (s : State) (pane k off u : Nat) :
    let full := s.addSat off F.PANE_CHSTAT.OVR 1
    let t := full.setChan pane k { full.chan pane k with inCyc := u + 1 }
    t = { s with chans := t.chans, regs := t.regs } ∧ ChansBut s t [(pane, k)] ∧ t.chan pane k = { s.chan pane k with inCyc := u + 1 } ∧
      RegsBut s t [off] ∧ t.fld off F.PANE_CHSTAT.OVR = min (s.fld off F.PANE_CHSTAT.OVR + 1) 255 := by
  intro full t
  have hchans : full.chans = s.chans := by simp [full]
  have hreg : t.reg = full.reg := State.reg_setChan _ _ _ _
  refine ⟨?_, chansBut_congr (chansBut_setChan full pane k _) hchans rfl, ?_, fun o ho => ?_, ?_⟩
  · exact congrArg (fun a : State => { a with chans := t.chans }) (State.setFld_frame s off _ _)
  · rw [State.chan_setChan_same, State.chan_congr hchans]
  · rw [hreg, State.reg_addSat_other _ _ _ (by simpa using ho)]
  · rw [State.fld, hreg]
    exact (s.fld_addSat_same off 1 (by decide) (by decide)).trans (congrArg _ (by decide))

/-! ### The way out of a channel -/

/-- PERR of the status register `off` notes an item whose byte parity fails (R101). -/
def State.noteParity (s : State) (off : Nat) (it : ChanItem) : State :=
  if byteParity it.word = it.par then s else s.setFld off F.PANE_CHSTAT.PERR 1

/-- The head item `it` leaves the channel that pane `sp` sends on index `sk`, in cycle `u` of the receiving pane, whose status register is `off`. -/
def State.headLeaves (s : State) (off sp sk : Nat) (hinge : Bool) (it : ChanItem) (u : Nat) : State :=
  (s.setChan sp sk { s.chan sp sk with
    far := (s.chan sp sk).far.tail, outCyc := u + 1, outBank := it.bank
    ret := if hinge then (s.chan sp sk).ret + 1 else (s.chan sp sk).ret }).noteParity off it

section
variable (s : State) (off sp sk : Nat) (hinge : Bool) (it : ChanItem) (u : Nat)

theorem noteParity_frame : ∃ rs, s.noteParity off it = { s with regs := rs } := by
  unfold State.noteParity
  split <;> exact ⟨_, rfl⟩

theorem regsBut_noteParity : RegsBut s (s.noteParity off it) [off] := by
  intro o ho
  unfold State.noteParity
  split
  · rfl
  · exact State.reg_setFld_other _ _ _ (by simpa using ho)

theorem perr_noteParity : (s.noteParity off it).flag off F.PANE_CHSTAT.PERR =
    (s.flag off F.PANE_CHSTAT.PERR || decide (byteParity it.word ≠ it.par)) := by
  unfold State.noteParity
  split
  case isTrue h => rw [decide_eq_false (not_not_intro h), Bool.or_false]
  case isFalse h => rw [State.flag_setFld_one _ _ _ (by decide) (by decide), decide_eq_true h, Bool.or_true]

theorem headLeaves_frame : ∃ cs rs, s.headLeaves off sp sk hinge it u = { s with chans := cs, regs := rs } :=
  ⟨_, noteParity_frame _ off it⟩

theorem chans_noteParity : (s.noteParity off it).chans = s.chans := by
  obtain ⟨rs, hrs⟩ := noteParity_frame s off it
  rw [hrs]

theorem chansBut_headLeaves : ChansBut s (s.headLeaves off sp sk hinge it u) [(sp, sk)] :=
  chansBut_congr (chansBut_setChan s sp sk _) rfl (chans_noteParity _ off it)

theorem chan_headLeaves {rest : List ChanItem} (h : (s.chan sp sk).far = it :: rest) :
    (s.headLeaves off sp sk hinge it u).chan sp sk = { s.chan sp sk with
      far := rest, outCyc := u + 1, outBank := it.bank, ret := (s.chan sp sk).ret + if hinge then 1 else 0 } := by
  rw [State.chan, State.headLeaves, chans_noteParity, ← State.chan, State.chan_setChan_same, h]
  cases hinge <;> rfl

end

section
variable {s s1 : State} {d : Fin 4} {p k : Fin 64} {dt sp sk : Nat} {hinge : Bool} {it : ChanItem} {rest : List ChanItem}

theorem exec_channelDeliver_done (hs : s.advance (paneId d p) dt = s1) (hin : inboundOf (paneId d p) k = some (sp, sk, hinge))
    (h : (s1.chan sp sk).outCyc = s1.cyc (paneId d p) + 1) : exec (.channelDeliver d p k dt) s = .next s1 := by
  subst hs
  change execChannelDeliver d p k dt s = _
  dsimp only [execChannelDeliver]
  rw [hin]
  dsimp only
  split
  · rfl
  · rw [if_pos (Or.inr h)]

variable (hs : s.advance (paneId d p) dt = s1) (hr : HeadReady s1 (paneId d p) k sp sk hinge it rest)
include hs hr

/-- A head item that its outlet may deliver leaves the channel where the outlet finds a place for it, and stays where it does not. -/
theorem exec_channelDeliver_ready : exec (.channelDeliver d p k dt) s = .next ((s1.deliverItem (paneId d p) k it).elim
    (if s1.mismatched (paneId d p) k it then s1.setFld (R.PANE_CHSTAT d p k) F.PANE_CHSTAT.MISM 1 else s1)
    fun s2 => s2.headLeaves (R.PANE_CHSTAT d p k) sp sk hinge it (s1.cyc (paneId d p))) := by
  subst hs
  obtain ⟨hrun, hin, hfar, hout⟩ := hr
  change execChannelDeliver d p k dt s = _
  dsimp only [execChannelDeliver]
  rw [hin]
  dsimp only
  rw [hfar]
  dsimp only
  rw [if_neg (by simp [hrun, hout])]
  cases (s.advance (paneId d p) dt).deliverItem (paneId d p) k it <;> rfl

theorem exec_channelDeliver_held (h : s1.deliverItem (paneId d p) k it = none) (hm : s1.mismatched (paneId d p) k it ≠ true) :
    exec (.channelDeliver d p k dt) s = .next s1 := by
  rw [exec_channelDeliver_ready hs hr, h]
  exact congrArg _ (if_neg hm)

theorem exec_channelDeliver_mismatched (h : s1.deliverItem (paneId d p) k it = none) (hm : s1.mismatched (paneId d p) k it = true) :
    exec (.channelDeliver d p k dt) s = .next (s1.setFld (R.PANE_CHSTAT d p k) F.PANE_CHSTAT.MISM 1) := by
  rw [exec_channelDeliver_ready hs hr, h]
  exact congrArg _ (if_pos hm)

/-- An item delivered by a change `s2` that leaves its own channel and the registers alone. -/
theorem exec_channelDeliver_delivered {s2 : State} (h : s1.deliverItem (paneId d p) k it = some s2)
    (hchan : s2.chan sp sk = s1.chan sp sk) (hregs : s2.regs = s1.regs) :
    ∃ t, exec (.channelDeliver d p k dt) s = .next t ∧ Delivered s1 t d p k sp sk hinge it rest ∧
      t = { s2 with chans := t.chans, regs := t.regs } ∧ ChansBut s2 t [(sp, sk)] ∧ RegsBut s1 t [R.PANE_CHSTAT d p k] := by
  have hfar : (s2.chan sp sk).far = it :: rest := by
    obtain ⟨-, -, hfar, -⟩ := hr
    rw [hchan, hfar]
  have hreg : s2.reg = s1.reg := funext fun o => by rw [State.reg, hregs, State.reg]
  obtain ⟨cs, rs, hframe⟩ := headLeaves_frame s2 (R.PANE_CHSTAT d p k) sp sk hinge it (s1.cyc (paneId d p))
  refine ⟨_, by rw [exec_channelDeliver_ready hs hr, h]; rfl, ⟨?_, ?_⟩, ?_, chansBut_headLeaves _ _ _ _ _ _ _, fun o ho => ?_⟩
  · rw [chan_headLeaves _ _ _ _ _ _ _ hfar, hchan]
  · rw [State.headLeaves, perr_noteParity, State.flag, State.flag, State.fld, State.fld, ← hreg]
    rfl
  · rw [hframe]
  · rw [State.headLeaves, regsBut_noteParity _ _ _ o ho, ← hreg]
    rfl

end

/-! ### What each outlet makes of its head item -/

section
variable {s : State} {pane k : Nat} {it : ChanItem}

/-- The inlet that the outlet names as its THRU target names the outlet's channel in turn (R92). -/
def ThruPair (s : State) (pane k : Nat) (it : ChanItem) : Prop :=
  let w := s.chIn (if it.bank then 1 else 0) pane (getF (outletOf s pane k it) F.PANE_CHOUT.TDST)
  getF w F.PANE_CHIN.MODE = 3 ∧ getF w F.PANE_CHIN.TSRC = k

theorem mismatched_iff : s.mismatched pane k it = true ↔
    getF (outletOf s pane k it) F.PANE_CHOUT.MODE = 3 ∧ ¬ ThruPair s pane k it := by
  simp only [State.mismatched, Bool.and_eq_true, Bool.not_eq_true', decide_eq_true_eq, decide_eq_false_iff_not]
  rfl

theorem deliverItem_off (h : getF (outletOf s pane k it) F.PANE_CHOUT.MODE = 0) : s.deliverItem pane k it = none := by
  unfold outletOf at h
  dsimp only [State.deliverItem]
  rw [h]
  rfl

theorem deliverItem_queue (h : getF (outletOf s pane k it) F.PANE_CHOUT.MODE = 1) : s.deliverItem pane k it =
    (let m := getF (outletOf s pane k it) F.PANE_CHOUT.MEM
     let q := getF (outletOf s pane k it) F.PANE_CHOUT.Q
     let r := s.pushPort pane m q it.word it.tag
     if s.served pane (true, m, q) true (.chan k) then
       if s.queueMode pane m then
         if s.discards pane m q ∨ s.bindRoom pane m q then some (s.pushQueue pane m q it.word it.tag).2 else none
       else if r.1 then some r.2 else none
     else none) := by
  unfold outletOf at h ⊢
  dsimp only [State.deliverItem]
  rw [h]
  rfl

theorem deliverItem_latch (h : getF (outletOf s pane k it) F.PANE_CHOUT.MODE = 2) : s.deliverItem pane k it =
    (let l := getF (outletOf s pane k it) F.PANE_CHOUT.LATCH
     if s.latchTaken pane k l then none
     else some (s.setPane pane { s.pane pane with latchW := (s.pane pane).latchW ++ [(l, it.word)] })) := by
  unfold outletOf at h ⊢
  dsimp only [State.deliverItem]
  rw [h]
  rfl

theorem deliverItem_thru (h : getF (outletOf s pane k it) F.PANE_CHOUT.MODE = 3) (hp : ThruPair s pane k it) : s.deliverItem pane k it =
    (let j := getF (outletOf s pane k it) F.PANE_CHOUT.TDST
     if s.stageFree pane j ∧ (s.chan pane j).inCyc ≠ s.cyc pane + 1 then some (s.acceptItem pane j it (s.cyc pane)) else none) := by
  unfold outletOf at h ⊢
  dsimp only [State.deliverItem]
  rw [h]
  exact if_congr ⟨fun hc => hc.2.2, fun hc => ⟨hp.1, hp.2, hc⟩⟩ rfl rfl

theorem deliverItem_unpaired (h : getF (outletOf s pane k it) F.PANE_CHOUT.MODE = 3) (hp : ¬ ThruPair s pane k it) :
    s.deliverItem pane k it = none := by
  unfold outletOf at h
  dsimp only [State.deliverItem]
  rw [h]
  exact if_neg fun hc => hp ⟨hc.1, hc.2.1⟩

end

/-! ### The two commands -/

section
variable {s s1 : State} {d : Fin 4} {p k : Fin 64} {dt sp sk : Nat} {hinge : Bool} {it : ChanItem} {rest : List ChanItem}
  (hs : s.advance (paneId d p) dt = s1) (hr : HeadReady s1 (paneId d p) k sp sk hinge it rest)
include hs hr

/-- An outlet other than a THRU one holds its head item and notes nothing. -/
theorem outlet_holds (hmode : getF (outletOf s1 (paneId d p) k it) F.PANE_CHOUT.MODE ≠ 3) (h : s1.deliverItem (paneId d p) k it = none) :
    exec (.channelDeliver d p k dt) s = .next s1 :=
  exec_channelDeliver_held hs hr h fun hm => hmode (mismatched_iff.mp hm).1

/-- An item delivered by a change `s2` that leaves every channel and the registers alone. -/
theorem outlet_delivers {s2 : State} (h : s1.deliverItem (paneId d p) k it = some s2) (hchans : s2.chans = s1.chans)
    (hregs : s2.regs = s1.regs) :
    ∃ t, exec (.channelDeliver d p k dt) s = .next t ∧ Delivered s1 t d p k sp sk hinge it rest ∧
      t = { s2 with chans := t.chans, regs := t.regs } ∧ ChansBut s1 t [(sp, sk)] ∧ RegsBut s1 t [R.PANE_CHSTAT d p k] := by
  obtain ⟨t, hexec, hdel, hframe, hbut, hr⟩ := exec_channelDeliver_delivered hs hr h (State.chan_congr hchans _ _) hregs
  exact ⟨t, hexec, hdel, hframe, chansBut_congr hbut hchans rfl, hr⟩

/-- R91. -/
theorem latch_delivers (hmode : getF (outletOf s1 (paneId d p) k it) F.PANE_CHOUT.MODE = 2)
    (hfree : s1.latchTaken (paneId d p) k (getF (outletOf s1 (paneId d p) k it) F.PANE_CHOUT.LATCH) = false) :
    let pane := paneId d p
    ∃ t, exec (.channelDeliver d p k dt) s = .next t ∧ Delivered s1 t d p k sp sk hinge it rest ∧
      t = { s1 with chans := t.chans, regs := t.regs, panes := t.panes } ∧ ChansBut s1 t [(sp, sk)] ∧ PanesBut s1 t pane ∧
      t.pane pane = { s1.pane pane with
        latchW := (s1.pane pane).latchW ++ [(getF (outletOf s1 pane k it) F.PANE_CHOUT.LATCH, it.word)] } ∧
      RegsBut s1 t [R.PANE_CHSTAT d p k] := by
  obtain ⟨t, hexec, hdel, hframe, hbut, hregs⟩ := outlet_delivers hs hr
    ((deliverItem_latch hmode).trans (if_neg (by rw [hfree]; decide))) rfl rfl
  refine ⟨t, hexec, hdel, ?_, hbut, fun i hi => ?_, ?_, hregs⟩ <;> rw [hframe]
  · rfl
  · exact SMap.get_set_other _ _ _ _ _ _ hi
  · exact SMap.get_set_same _ _ _ _

/-- R92: the channel that the item leaves is none of those that its pane sends. -/
theorem thru_delivers (hmode : getF (outletOf s1 (paneId d p) k it) F.PANE_CHOUT.MODE = 3) (hpair : ThruPair s1 (paneId d p) k it)
    {j : Nat} (hj : getF (outletOf s1 (paneId d p) k it) F.PANE_CHOUT.TDST = j) (hfree : s1.stageFree (paneId d p) j = true)
    (hin : (s1.chan (paneId d p) j).inCyc ≠ s1.cyc (paneId d p) + 1) :
    let pane := paneId d p
    ∃ t, exec (.channelDeliver d p k dt) s = .next t ∧ Delivered s1 t d p k sp sk hinge it rest ∧
      t = { s1 with chans := t.chans, regs := t.regs } ∧ ChansBut s1 t [(sp, sk), (pane, j)] ∧ RegsBut s1 t [R.PANE_CHSTAT d p k] ∧
      t.chan pane j = Entered (s1.chan pane j) ((nbr pane (j / 16)).any (·.2)) it (s1.cyc pane) := by
  intro pane
  subst hj
  have haccept := chansBut_acceptItem s1 pane (getF (outletOf s1 pane k it) F.PANE_CHOUT.TDST) it (s1.cyc pane)
  obtain ⟨-, hinbound, -, -⟩ := id hr
  have hne := inbound_key_ne hinbound (getF_lt (outletOf s1 pane k it) F.PANE_CHOUT.TDST)
  obtain ⟨t, hexec, hdel, hframe, hbut, hregs⟩ := exec_channelDeliver_delivered hs hr
    ((deliverItem_thru hmode hpair).trans (if_pos ⟨hfree, hin⟩)) (chan_eq_of_chansBut haccept hne) (State.regs_acceptItem _ _ _ _ _)
  refine ⟨t, hexec, hdel, ?_, ?_, hregs, ?_⟩
  · rw [State.acceptItem_frame] at hframe
    exact hframe
  · exact chansBut_trans (chansBut_mono haccept (List.subset_cons_self _ _)) (chansBut_mono hbut (by simp))
  · exact (chan_eq_of_chansBut hbut hne.symm).trans (State.chan_acceptItem _ _ _ _ _)

theorem thru_mismatches (hmode : getF (outletOf s1 (paneId d p) k it) F.PANE_CHOUT.MODE = 3) (hpair : ¬ ThruPair s1 (paneId d p) k it) :
    ∃ t, exec (.channelDeliver d p k dt) s = .next t ∧ t = { s1 with regs := t.regs } ∧ RegsBut s1 t [R.PANE_CHSTAT d p k] ∧
      t.flag (R.PANE_CHSTAT d p k) F.PANE_CHSTAT.MISM = true :=
  ⟨_, exec_channelDeliver_mismatched hs hr (deliverItem_unpaired hmode hpair) (mismatched_iff.mpr ⟨hmode, hpair⟩), State.setFld_frame _ _ _ _,
    fun _ ho => State.reg_setFld_other _ _ _ (by simpa using ho), State.flag_setFld_one _ _ _ (by decide) (by decide)⟩

end

/-- Settles O13: an inlet's item is `acceptItem_newItem`; a head item leaves by `exec_channelDeliver_delivered`, whatever its outlet made of it. -/
theorem elasticChannels : Obligations.ElasticChannels := by
  refine ⟨?enter, ?deliver⟩
  case enter =>
    intro s d p k dt np hinge pane s1 v ch u bank m q sc x
    refine ⟨exec_channelEnter_idle rfl, fun hrun hin hn => ⟨fun hmode hserved hfree hreal => ?_, fun hmode hwait => ?_,
      fun hmode htile hran hout hlv => ?_⟩⟩
    · refine ⟨_, (exec_channelEnter_queue rfl hrun hin hmode).trans (congrArg _ ?_), acceptItem_newItem (chans_popBound s1 pane m q) hn _ _ u⟩
      exact (if_pos ⟨hserved, hfree⟩).trans (if_pos hreal)
    · refine (exec_channelEnter_queue rfl hrun hin hmode).trans (congrArg _ ?_)
      obtain h | h | h := hwait
      · exact if_neg fun hc => Bool.false_ne_true (h.symm.trans hc.1)
      · exact if_neg fun hc => Bool.false_ne_true (h.symm.trans hc.2)
      · exact (ite_congr rfl (fun _ => if_neg (Bool.not_eq_true _ ▸ h)) fun _ => rfl).trans (ite_self _)
    · have hexec := exec_channelEnter_strobe rfl hrun hin hmode rfl rfl htile hran hout hlv
      refine ⟨fun hfree => ⟨_, hexec.trans (congrArg _ (if_pos hfree)), acceptItem_newItem rfl hn x.out false u⟩,
        fun hfull => ⟨_, hexec.trans (congrArg _ (if_neg (by rw [hfull]; decide))), overrun_spec s1 pane k _ u⟩⟩
  case deliver =>
    intro s d p k dt sp sk hinge it rest pane s1 v m q l j w pair
    refine ⟨exec_channelDeliver_done rfl, fun hr => ⟨fun hmode hserved hqueue => ⟨fun hroom => ?_, fun hdisc hroom => ?_⟩,
      fun hmode hserved => ?_, fun hmode hserved hqueue hport => ?_, fun hmode hfree => latch_delivers rfl hr hmode hfree,
      fun hmode hpair hfree hin => thru_delivers rfl hr hmode hpair rfl hfree hin, fun hmode hpair hfull => ?_,
      fun hmode hpair => thru_mismatches rfl hr hmode hpair, fun hmode => ?_⟩⟩
    · have hdiff := queuesDiffer_pushQueue s1 pane m q it.word it.tag
      exact outlet_delivers rfl hr ((deliverItem_queue hmode).trans ((if_pos hserved).trans ((if_pos hqueue).trans (if_pos hroom))))
        hdiff.chans hdiff.regs
    · refine outlet_holds rfl hr (by rw [hmode]; decide)
        ((deliverItem_queue hmode).trans ((if_pos hserved).trans ((if_pos hqueue).trans (if_neg ?_))))
      rw [hdisc, hroom]
      decide
    · exact outlet_holds rfl hr (by rw [hmode]; decide) ((deliverItem_queue hmode).trans (if_neg (by rw [hserved]; decide)))
    · obtain ⟨ps, hps⟩ := pushPort_frame s1 pane m q it.word it.tag
      refine outlet_delivers rfl hr ((deliverItem_queue hmode).trans ((if_pos hserved).trans ((if_neg ?_).trans (if_pos hport))))
        (by rw [hps]) (by rw [hps])
      rw [hqueue]
      decide
    · refine exec_channelDeliver_held rfl hr ((deliverItem_thru hmode hpair).trans (if_neg fun hc => ?_)) fun hm =>
        (mismatched_iff.mp hm).2 hpair
      obtain h | h := hfull
      · exact Bool.false_ne_true (h.symm.trans hc.1)
      · exact hc.2 h
    · exact outlet_holds rfl hr (by rw [hmode]; decide) (deliverItem_off hmode)

end Sys2Proof.Machine
end

section
/-!
PROOF. Two things that the model keeps of an arm and three statements of Chapter 5 leave out: a record of the tick network does nothing to an arm that
it is not of (R272), and an arm that ends without a commit is marked as ended (R118).
-/
namespace Sys2Proof.Machine
open Sys2Proof.Claims

/-! ### Records of another arm -/

theorem State.arms_relay (s : State) (e : Nat) (r : TickRec) : (s.relay e r).arms = s.arms := by
  unfold State.relay
  split <;> rfl

theorem State.arms_relays (es : List Nat) (r : TickRec) (s : State) : (es.foldl (fun a e => a.relay e r) s).arms = s.arms := by
  induction es generalizing s with
  | nil => rfl
  | cons e es ih => rw [List.foldl_cons, ih, State.arms_relay]

theorem ArmSt.note_of_not_owns {a : ArmSt} {d kind : Nat} {frame : Fin 16777216} (h : a.owns kind frame = false) :
    a.note d kind frame = a := if_neg fun hc => Bool.false_ne_true (h.symm.trans hc.1)

theorem ArmSt.owns_commit_of_unsent {a : ArmSt} (h : a.sent = false) (frame : Fin 16777216) : a.owns 3 frame = false := by
  rw [ArmSt.owns, h, Bool.false_and]

/-- The record of a commit that reaches a die before the arm's own commit has been sent is of an earlier arm, and is not noted. -/
theorem State.arm_takeTick_of_unsent {s : State} {e d : Nat} {r : TickRec} (he : endDie e = some d) (hkind : r.kind.val = 3)
    (hunsent : (s.arm r.dom).sent = false) : (s.takeTick e r).arm r.dom = s.arm r.dom := by
  have htake : s.takeTick e r = ((s.recAt d r).tickEnds (some d)).foldl (fun a e1 => a.relay e1 r) (s.recAt d r) := by
    rw [State.takeTick, he]
    dsimp only
    rw [if_neg (by omega), if_neg (by omega)]
  have hrec : (s.recAt d r).arm r.dom = (s.arm r.dom).note d r.kind.val r.frame := by
    rw [State.recAt, if_pos (by omega)]
    exact SMap.get_set_same _ _ _ _
  rw [htake, State.arm, State.arms_relays]
  exact hrec.trans (ArmSt.note_of_not_owns (hkind ▸ ArmSt.owns_commit_of_unsent hunsent _))

/-- An acknowledgement that comes to the hub before the member has acknowledged the present arm is of an earlier arm, and does not count. -/
theorem State.takeTick_of_unsaid {s : State} {e : Nat} {r : TickRec} (he : endDie e = none) (hsaid : r.mem.val ∉ (s.arm r.dom).said) :
    s.takeTick e r = s := by
  rw [State.takeTick, he]
  dsimp only
  split
  · exact if_neg fun hc => hsaid (List.contains_iff_mem.mp hc.2)
  · rfl

/-- Domain 0 ARMED for frame 3, with the commit not sent and no acknowledgement given; the arm's record has come to die 0. -/
def armedForThree : State :=
  (State.reset.setFld (R.SHT_STATUS 0) F.SHT_STATUS.STATE 1).setArm 0 { target := 3, reach := [(2, 0)] }

/-- Refutes O15: in `armedForThree` the record of a commit comes to die 0. The statement has it noted, as the arm's own record has come there;
`ArmSt.owns` takes it for that of an earlier arm. -/
theorem not_deviceTimeAndTicks : ¬ Obligations.DeviceTimeAndTicks := by
  intro h
  obtain ⟨-, -, -, htake⟩ := h
  obtain ⟨-, -, -, -, -, hnoted, -⟩ := htake armedForThree 2 0 (recordOf 0 3 3) rfl (by decide) (by decide) (by decide +kernel)
  have hin := (hnoted (by decide)).mpr (.inr (by decide +kernel))
  rw [State.arm_takeTick_of_unsent rfl rfl (by decide +kernel)] at hin
  exact absurd hin (by decide +kernel)

/-- Refutes O17: in `armedForThree` the hub takes an acknowledgement of member 0 with the arm's frame number. The statement has it count;
`State.takeAck` takes it for that of an earlier arm, as member 0 has not acknowledged this one. -/
theorem not_armingACommit : ¬ Obligations.ArmingACommit := by
  intro h
  obtain ⟨-, hmembers⟩ := h
  obtain ⟨-, -, hheard, -⟩ := hmembers armedForThree 0
  obtain ⟨-, hacked, -⟩ := (hheard 12 (recordOf 0 5 3) rfl rfl rfl).1 (by decide +kernel) (by decide +kernel) (by decide +kernel)
  rw [State.takeTick_of_unsaid rfl (by decide +kernel)] at hacked
  exact absurd hacked (by decide +kernel)

/-! ### An arm that an adoption ends -/

/-- `armedForThree` with a group of generation 1 at domain 0 that is complete and valid. -/
def armedWithGroup : State :=
  (((((armedForThree.setFld (R.TB_CFG 0) F.TB_CFG.GEN 1).setFld (R.TB_RATE 0) F.TB_RATE.GEN 1).setFld (R.TB_LINES 0) F.TB_LINES.GEN 1).setFld
    (R.TB_OFFSET 0) F.TB_OFFSET.GEN 1).setFld (R.TB_RATE 0) F.TB_RATE.NUM 1).setFld (R.TB_RATE 0) F.TB_RATE.DEN 1

theorem arm_ended_of_adopt {t : State} (h : exec (.generationAdopt 0 0) armedWithGroup = .next t) : (t.arm 0).ended = true := by
  obtain rfl := Host.Outcome.next.inj h
  decide +kernel

/-- Refutes O16: `armedWithGroup` adopts its group, which ends the arm of domain 0. The statement has the arms as they were but for the dies that
records have reached; `State.endArm` marks the arm as ended. -/
theorem not_generationAdoption : ¬ Obligations.GenerationAdoption := by
  intro h
  obtain ⟨-, -, hvalid⟩ := h armedWithGroup 0 0
  obtain ⟨t, hexec, -, -, -, -, -, -, hsame, -⟩ := hvalid (by decide +kernel) (by decide +kernel)
  have hended : (armedWithGroup.arm 0).ended = true :=
    (congrArg ArmSt.ended (hsame 0)).symm.trans (arm_ended_of_adopt hexec)
  exact absurd hended (by decide +kernel)

end Sys2Proof.Machine
end

section
/-!
PROOF. What the end of a pane's cycle, and a flush of its queues, leave alone: the copies of the shutter's members (R111), and the accesses that wait
at the hub.
-/
namespace Sys2Proof.Machine

/-- Which copy of each member is live, the staged fields of both copies, the configuration frames, and the accesses that wait at the hub. -/
def State.standing (s : State) : SMap Bool × SMap HWord × SMap Word × List HeldAcc := (s.bank, s.stv, s.frames, s.heldAcc)

@[simp] theorem State.standing_ite (c : Prop) [Decidable c] (a b : State) :
    (if c then a else b).standing = if c then a.standing else b.standing := apply_ite State.standing c a b

@[simp] theorem State.standing_foldl {α : Type} (f : State → α → State) (l : List α) (s : State)
    (hf : ∀ a i, (f a i).standing = a.standing) : (l.foldl f s).standing = s.standing := by
  induction l generalizing s with
  | nil => rfl
  | cons i l ih => rw [List.foldl_cons, ih, hf]

@[simp] theorem State.standing_regs (s : State) :
    (∀ off v, (s.setReg off v).standing = s.standing) ∧ (∀ off f n, (s.setFld off f n).standing = s.standing) ∧
    (∀ off f n, (s.addSat off f n).standing = s.standing) := by
  and_intros <;> intros <;> rfl

@[simp] theorem State.standing_pane (s : State) :
    (∀ p x, (s.setPane p x).standing = s.standing) ∧ (∀ blk q x, (s.setQueue blk q x).standing = s.standing) ∧
    (∀ blk a x, (s.setEntry blk a x).standing = s.standing) ∧ (∀ blk x, (s.setMover blk x).standing = s.standing) ∧
    (∀ blk i x, (s.setPort blk i x).standing = s.standing) := by
  and_intros <;> intros <;> rfl

@[simp] theorem State.standing_link (s : State) :
    (∀ l i v, (s.setLed l i v).standing = s.standing) ∧ (∀ l i n, (s.addLed l i n).standing = s.standing) ∧
    (∀ i v x, (s.setSrcq i v x).standing = s.standing) ∧ (∀ i v x, (s.setInq i v x).standing = s.standing) := by
  and_intros <;> intros <;> rfl

theorem QueuesDiffer.standing {s t : State} (h : QueuesDiffer s t) : t.standing = s.standing := by
  obtain ⟨_, _, _, rfl⟩ := h
  rfl

/-! ### Completions that a target sends -/

@[simp] theorem State.standing_enter (s : State) (i v : Nat) (f : TFlit) : (s.enter i v f).standing = s.standing := by
  simp [State.enter, State.takeFlits, State.setIocc, State.setChanFields]

@[simp] theorem State.standing_hasLeft (s : State) (i : Nat) (pk : Packet) : (s.hasLeft i pk).standing = s.standing := by
  unfold State.hasLeft
  split <;> rfl

@[simp] theorem State.standing_fillOne (s : State) (i v : Nat) : (s.fillOne i v).standing = s.standing := by
  dsimp only [State.fillOne]
  split <;> simp

@[simp] theorem State.standing_launch (s : State) (pk : Packet) : (s.launch pk).standing = s.standing := by
  simp [State.launch, State.fill]

@[simp] theorem State.standing_answers (s : State) (pk : Packet) :
    (∀ cpl, (s.answer pk cpl).standing = s.standing) ∧ (∀ e, (s.answerErr pk e).standing = s.standing) ∧
    (∀ ws, (s.answerData pk ws).standing = s.standing) := by
  simp [State.answer, State.answerErr, State.answerData]

/-! ### Locked use, and pushes of the transom -/

@[simp] theorem State.standing_checkEntry (s : State) (blk a : Nat) : (s.checkEntry blk a).standing = s.standing := by
  unfold State.checkEntry
  split <;> simp

@[simp] theorem State.standing_dropHead (s : State) (pane m q : Nat) : (s.dropHead pane m q).standing = s.standing := by
  simp [State.dropHead]

@[simp] theorem State.standing_popMany (s : State) (pane m q n : Nat) : (s.popMany pane m q n).2.2.standing = s.standing := by
  induction n generalizing s with
  | zero => rfl
  | succ n ih =>
    rw [State.popMany]
    split
    · rfl
    · split
      · rfl
      · exact (ih _).trans (by simp)

@[simp] theorem State.standing_storeUnlock (s : State) (pane m q : Nat) (pk : Packet) :
    (s.storeUnlock pane m q pk).standing = s.standing := by
  dsimp only [State.storeUnlock]
  split <;> simp [(queuesDiffer_storeEntry _ _ _ _ _).standing, (queuesDiffer_acceptWord _ _ _ _ _ _ _).standing]

@[simp] theorem State.standing_lockedServe (s : State) (pane m q : Nat) (pk : Packet) :
    (s.lockedServe pane m q pk).standing = s.standing := by
  have htake : (s.takeLock pane m q pk).standing = s.standing := by
    dsimp only [State.takeLock]
    split <;> simp
  simp [State.lockedServe, State.lockedRead, State.waitPush, State.wmXpar, htake]

@[simp] theorem State.standing_serveWaiters (s : State) (pane m q n : Nat) : (s.serveWaiters pane m q n).standing = s.standing := by
  induction n generalizing s with
  | zero => rfl
  | succ n ih =>
    dsimp only [State.serveWaiters]
    split <;> simp [ih]

@[simp] theorem State.standing_pushWords (s : State) (pane m q : Nat) (ws : List Word) :
    (s.pushWords pane m q ws).standing = s.standing := by
  induction ws generalizing s with
  | nil => rfl
  | cons w ws ih => exact (ih _).trans (queuesDiffer_acceptWord _ _ _ _ _ _ _).standing

/-! ### The edge that ends a cycle -/

theorem State.standing_decidePush (s : State) (pane : Nat) (e : LatePush) : (s.decidePush pane e).standing = s.standing := by
  cases e with
  | net m q pk =>
    simp [State.decidePush, State.writeUnlock, State.netPush, State.wmXpar, (queuesDiffer_refuse _ _ _ _ _).standing]
  | lane m q l w tag => simp [State.decidePush, State.laneDrop, (queuesDiffer_pushQueue _ _ _ _ _ _).standing]
  | pin m q n w => simp [State.decidePush, State.fpinErr, (queuesDiffer_pushQueue _ _ _ _ _ _).standing]

theorem State.standing_settleLate (s : State) (pane : Nat) : (s.settleLate pane).standing = s.standing := by
  unfold State.settleLate
  split
  · rfl
  · simp [State.standing_decidePush]

theorem State.standing_capture (s : State) (off : Nat) (mask loc : HWord) (n : Nat) : (s.capture off mask loc n).standing = s.standing := by
  simp [State.capture]

theorem State.standing_recordContention (s : State) (pane : Nat) : (s.recordContention pane).standing = s.standing := by
  obtain h | ⟨off, mask, loc, n, h⟩ := s.recordContention_cases pane
  · rw [h]
  · rw [h, State.standing_capture]

@[simp] theorem State.standing_closeCycle (s : State) (pane : Nat) : (s.closeCycle pane).standing = s.standing := by
  simp [State.closeCycle, State.gate, State.standing_recordContention, State.standing_settleLate]

/-! ### The switching edge of a pane -/

@[simp] theorem State.standing_latchPost (s : State) (pane m : Nat) : (s.latchPost pane m).standing = s.standing := by
  simp [State.latchPost]

@[simp] theorem State.standing_flushQueue (s : State) (pane m q : Nat) : (s.flushQueue pane m q).standing = s.standing := by
  simp [State.flushQueue]

@[simp] theorem State.standing_noteOverlaps (s : State) (pane m : Nat) (old : List (Nat × Nat × (Nat × Nat) × (Nat × Nat))) :
    (s.noteOverlaps pane m old).standing = s.standing := by
  simp [State.noteOverlaps]

@[simp] theorem State.standing_flushBlock (s old : State) (pane m : Nat) : (s.flushBlock old pane m).standing = s.standing := by
  simp [State.flushBlock]

end Sys2Proof.Machine
end

section
/-!
PROOF. The switching edges of the shutter's members, and the end of a commit (R111, R112, R117).
-/
namespace Sys2Proof.Machine
open Sys2Proof.Claims

/-! ### The switching edge of a member -/

theorem State.standing_flip_congr {s t : State} (h : t.standing = s.standing) (m : Nat) : (t.flip m).standing = (s.flip m).standing := by
  simp only [State.standing, Prod.mk.injEq] at h ⊢
  obtain ⟨hbank, hstv, hframes, hheld⟩ := h
  exact ⟨congrArg (SMap.upd false · m not) hbank, hstv, hframes, hheld⟩

theorem State.liveCopy_congr {s t : State} (h : t.standing = s.standing) (m : Nat) : t.liveCopy m = s.liveCopy m :=
  congrArg (fun b => if SMap.get false b m then 1 else 0) (congrArg Prod.fst h)

theorem State.standing_exchangePane (s : State) (pane : Nat) : (s.exchangePane pane).standing = (s.flip pane).standing := by
  dsimp only [State.exchangePane]
  rw [(State.standing_pane _).1, State.standing_foldl _ _ _ fun a m => State.standing_flushBlock a _ pane m]
  exact State.standing_flip_congr ((State.standing_foldl _ _ _ fun a m => State.standing_latchPost a pane m).trans (s.standing_closeCycle pane)) pane

theorem engMember_engId (d : Nat) (e : Fin 128) : engMember (engDie (engId d e)) (engIx (engId d e)) = engMember d e := by
  unfold engMember engDie engIx engId
  omega

theorem State.standing_exchangeEngine (s : State) (d : Nat) (e : Fin 128) :
    (s.exchangeEngine (engId d e)).standing = (s.flip (engMember d e)).standing := by
  rw [← engMember_engId d e]
  dsimp only [State.exchangeEngine]
  split <;> rfl

theorem State.standing_qosExchange (s : State) (c : Nat) : (s.qosExchange c).standing = (s.flip (ddrMember c)).standing := by
  dsimp only [State.qosExchange]
  split <;> rfl

theorem State.standing_setPeak (s : State) (d l : Nat) : (s.setPeak d l).standing = s.standing := by
  simp [State.setPeak]

theorem State.standing_switchBank (s : State) (b : Nat) : (s.switchBank b).standing = (s.flip (pinMember b)).standing := by
  have hpin : ∀ (a : State) k en level old, (a.latchPin k en level old).standing = a.standing := fun a k en level old => by
    unfold State.latchPin
    split <;> rfl
  have hfpin : ∀ (a : State) d n o pull, (a.latchFpin d n o pull).standing = a.standing := fun a d n o pull => by
    unfold State.latchFpin
    split <;> rfl
  simp [State.switchBank, hpin, hfpin]

section
variable {s : State} {m i : Nat} (hfor : s.commitFor m = some i)
include hfor

theorem State.switchMember_of_commitFor (f : State → State) :
    s.switchMember m f = (f s).setArm i { s.arm i with switched := (s.arm i).switched ++ [m] } := by
  rw [State.switchMember, hfor]

theorem State.arm_switchMember (f : State → State) :
    (s.switchMember m f).arm i = { s.arm i with switched := (s.arm i).switched ++ [m] } := by
  rw [State.switchMember_of_commitFor hfor]
  exact SMap.get_set_same _ _ _ _

/-- A member whose copies `f` exchanges, and nothing else of what stands. -/
theorem State.switchMember_exchanges {f : State → State} (hf : (f s).standing = (s.flip m).standing) :
    let t := s.switchMember m f
    t.liveCopy m = 1 - s.liveCopy m ∧ (∀ j, j ≠ m → t.liveCopy j = s.liveCopy j) ∧
      t.arm i = { s.arm i with switched := (s.arm i).switched ++ [m] } ∧ t.stv = s.stv ∧ t.frames = s.frames := by
  intro t
  have ht : t.standing = (s.flip m).standing := (congrArg State.standing (State.switchMember_of_commitFor hfor f)).trans hf
  refine ⟨?_, fun j hj => ?_, State.arm_switchMember hfor f, congrArg (·.2.1) ht, congrArg (·.2.2.1) ht⟩
  · rw [State.liveCopy_congr ht, State.liveCopy_flip_same]
  · rw [State.liveCopy_congr ht, State.liveCopy_flip_other _ hj]

/-- What the commit that a member takes has done before (R112, R272). -/
theorem commit_of_commitFor : s.armState i = 1 ∧ (s.arm i).sent = true ∧ SMap.get 0 s.armedBy m = s.armTag i ∧
    ∀ d, memberDie m = some d → (3, d) ∈ (s.arm i).reach := by
  have h := List.find?_some hfor
  simp only [Bool.and_eq_true, decide_eq_true_eq] at h
  obtain ⟨⟨⟨⟨harmed, htag⟩, hsent⟩, hreached⟩, -⟩ := h
  refine ⟨harmed, hsent, htag, fun d hd => ?_⟩
  rw [State.reached0, hd] at hreached
  exact List.contains_iff_mem.mp hreached

end

theorem exec_paneSwitch_stopped {s s1 : State} {d : Fin 4} {p : Fin 64} {dt i : Nat} (hs : s.advance (paneId d p) dt = s1)
    (hfor : s1.commitFor (paneId d p) = some i) (hstopped : s1.clockStopped (paneId d p) = true) :
    ∃ t, exec (.paneSwitch d p dt) s = .next t ∧ t = { s1 with panes := t.panes, arms := t.arms } ∧ PanesBut s1 t (paneId d p) ∧
      t.pane (paneId d p) = { s1.pane (paneId d p) with switchPend := (s1.pane (paneId d p)).switchPend + 1 } ∧
      t.arm i = { s1.arm i with switched := (s1.arm i).switched ++ [paneId d p] } := by
  subst hs
  have hpane : paneId d p < 0x100 := by unfold paneId; omega
  refine ⟨_, rfl, ?_, ?_, ?_, State.arm_switchMember hfor _⟩ <;>
    rw [State.switchMember_of_commitFor hfor, if_pos hstopped, State.deferSwitch, if_pos hpane]
  · rfl
  · exact fun q hq => SMap.get_set_other _ _ _ _ _ _ hq
  · exact SMap.get_set_same _ _ _ _

theorem exec_paneSwitch_without {s s1 : State} {d : Fin 4} {p : Fin 64} {dt : Nat} (hs : s.advance (paneId d p) dt = s1)
    (hfor : s1.commitFor (paneId d p) = none) : exec (.paneSwitch d p dt) s = .next s1 := by
  subst hs
  refine congrArg Host.Outcome.next ?_
  rw [State.switchMember, hfor]

/-! ### The end of a commit -/

theorem State.reg_foldl_setReg (at_ : Nat → Nat) (v : HWord) (l : List Nat) (s : State) (o : Nat) :
    (l.foldl (fun a i => a.setReg (at_ i) v) s).reg o = if o ∈ l.map at_ then v else s.reg o := by
  induction l generalizing s with
  | nil => rfl
  | cons i l ih =>
    rw [List.foldl_cons, ih, State.reg_setReg, List.map_cons]
    by_cases hl : o ∈ l.map at_
    · rw [if_pos hl, if_pos (List.mem_cons_of_mem _ hl)]
    · rw [if_neg hl]
      exact if_congr (by simp only [List.mem_cons, hl, or_false]) rfl rfl

/-- From `s` to `t` no more than registers have changed. -/
def RegsDiffer (s t : State) : Prop := ∃ rs, t = { s with regs := rs }

theorem RegsDiffer.frame {s t : State} (h : RegsDiffer s t) : t = { s with regs := t.regs } := by
  obtain ⟨rs, rfl⟩ := h
  rfl

theorem RegsDiffer.setReg {s t : State} (h : RegsDiffer s t) (off : Nat) (v : HWord) : RegsDiffer s (t.setReg off v) := by
  obtain ⟨rs, rfl⟩ := h
  exact ⟨_, rfl⟩

theorem RegsDiffer.setRegs {s t : State} (h : RegsDiffer s t) (at_ : Nat → Nat) (v : HWord) (l : List Nat) :
    RegsDiffer s (l.foldl (fun a i => a.setReg (at_ i) v) t) := by
  induction l generalizing t with
  | nil => exact h
  | cons i l ih => exact ih (h.setReg (at_ i) v)

/-- A member holds no arm. -/
def State.disarm (s : State) (m : Nat) : State := { s with armedBy := SMap.set 0 s.armedBy m 0 }

theorem State.armedBy_disarm (s : State) (k m : Nat) :
    SMap.get 0 (s.disarm k).armedBy m = if m = k then 0 else SMap.get 0 s.armedBy m := by
  split
  case isTrue h => exact h ▸ SMap.get_set_same 0 s.armedBy m 0
  case isFalse h => exact SMap.get_set_other 0 0 s.armedBy k m 0 h

theorem State.disarms_frame (ms : List Nat) (s : State) : ms.foldl State.disarm s = { s with armedBy := (ms.foldl State.disarm s).armedBy } := by
  induction ms generalizing s with
  | nil => rfl
  | cons m ms ih => exact ih _

theorem State.armedBy_disarms (ms : List Nat) (s : State) {m : Nat} (h : m ∈ ms ∨ SMap.get 0 s.armedBy m = 0) :
    SMap.get 0 (ms.foldl State.disarm s).armedBy m = 0 := by
  induction ms generalizing s with
  | nil => exact h.resolve_left List.not_mem_nil
  | cons k ms ih =>
    refine ih _ ?_
    rw [State.armedBy_disarm]
    split
    case isTrue => exact .inr rfl
    case isFalse hk => exact h.imp_left fun hm => (List.mem_cons.mp hm).resolve_left hk

/-- The registers of a domain whose commit is complete: the set map is clear, and SHT_STATUS says so with the frame. -/
def State.commitShown (s : State) (i : Nat) (frame : Int) : State :=
  ((((List.range 32).foldl (fun b k => b.setReg (R.SHT_SET i k) 0) s).setFld (R.SHT_STATUS i) F.SHT_STATUS.STATE 2).setFld
    (R.SHT_STATUS i) F.SHT_STATUS.CFRAME (wrapTo 16 frame)).setFld (R.SHT_STATUS i) F.SHT_STATUS.CDONE 1

theorem regsDiffer_commitShown (s : State) (i : Nat) (frame : Int) : RegsDiffer s (s.commitShown i frame) :=
  (((RegsDiffer.setRegs ⟨s.regs, rfl⟩ _ _ _).setReg _ _).setReg _ _).setReg _ _

theorem State.reg_armOver (s : State) (i : Nat) : (s.armOver i).reg = s.reg := rfl

/-- What the registers say where they are those of `State.commitShown`. -/
theorem commitShown_spec {s t : State} {i : Fin 8} {frame : Int} (ht : t.reg = (s.commitShown i frame).reg) :
    let st := R.SHT_STATUS i
    t.armState i = 2 ∧ (t.fld st F.SHT_STATUS.CFRAME : Int) = frame % 65536 ∧ t.fld st F.SHT_STATUS.CDONE = 1 ∧
      (∀ k, k < 32 → t.reg (R.SHT_SET i k) = 0) ∧ RegsBut s t (st :: (List.range 32).map (R.SHT_SET i)) := by
  intro st
  have hother : ∀ o, o ≠ st → t.reg o = if o ∈ (List.range 32).map (R.SHT_SET i) then 0 else s.reg o := fun o ho =>
    (congrFun ht o).trans ((State.reg_setFld_other _ _ _ ho).trans ((State.reg_setFld_other _ _ _ ho).trans
      ((State.reg_setFld_other _ _ _ ho).trans (State.reg_foldl_setReg _ _ _ _ _))))
  have hfld : t.fld st = (s.commitShown i frame).fld st := funext fun f => by rw [State.fld, ht, State.fld]
  refine ⟨?_, ?_, ?_, fun k hk => ?_, fun o ho => ?_⟩
  · rw [State.armState, hfld]
    exact (State.fld_setFld_other _ _ _ _ _ (by decide) (by decide) (by decide) (by decide)).trans
      ((State.fld_setFld_other _ _ _ _ _ (by decide) (by decide) (by decide) (by decide)).trans
        (State.fld_setFld_same _ _ _ _ (by decide) (by decide)))
  · have hcframe : t.fld st F.SHT_STATUS.CFRAME = wrapTo 16 frame % 2 ^ 16 := by
      rw [hfld]
      exact (State.fld_setFld_other _ _ _ _ _ (by decide) (by decide) (by decide) (by decide)).trans
        (State.fld_setFld_same _ _ _ _ (by decide) (by decide))
    rw [hcframe, Nat.mod_eq_of_lt (wrapTo_lt 16 frame), cast_wrapTo]
    rfl
  · rw [hfld]
    exact State.fld_setFld_same _ _ _ _ (by decide) (by decide)
  · refine (hother _ ?_).trans (if_pos (List.mem_map_of_mem (List.mem_range.mpr hk)))
    unfold R.SHT_SET st R.SHT_STATUS
    omega
  · rw [List.mem_cons, not_or] at ho
    exact (hother o ho.1).trans (if_neg ho.2)

theorem exec_commitComplete {s : State} {i : Fin 8} (harmed : s.armState i = 1) (hsent : (s.arm i).sent = true)
    (hall : ∀ m ∈ s.setOf i, m ∈ (s.arm i).switched) :
    exec (.commitComplete i) s = .next ((((s.setOf i).foldl State.disarm s).commitShown i (s.arm i).frame).armOver i) :=
  congrArg Host.Outcome.next (if_pos ⟨harmed, hsent, List.all_eq_true.mpr fun m hm => List.contains_iff_mem.mpr (hall m hm)⟩)

/-- Settles O18: a switch is `State.switchMember_exchanges` where what is exchanged keeps `State.standing` but for the member's copies, and the end
of a commit is `State.commitShown` of the set disarmed. -/
theorem commitSwitches : Obligations.CommitSwitches := by
  refine ⟨fun s m c s1 hc i hfor hruns => ?switch, fun s d p dt => ⟨exec_paneSwitch_without rfl, fun i hfor hstopped => ?stopped⟩,
    fun s m i hfor => commit_of_commitFor hfor, ?complete⟩
  case switch =>
    have hnot : ¬ s1.clockStopped m = true := by rw [hruns]; decide
    obtain ⟨d, p, dt, rfl, rfl, rfl⟩ | ⟨d, e, rfl, rfl, rfl⟩ | ⟨d, l, rfl, rfl, rfl⟩ | ⟨b, rfl, rfl, rfl⟩ | ⟨b, rfl, rfl, rfl⟩ := hc
    · exact ⟨_, rfl, State.switchMember_exchanges hfor
        ((congrArg State.standing (if_neg hnot)).trans (State.standing_exchangePane _ _))⟩
    · exact ⟨_, rfl, State.switchMember_exchanges hfor
        ((congrArg State.standing (if_neg hnot)).trans (State.standing_exchangeEngine _ _ _))⟩
    · exact ⟨_, rfl, State.switchMember_exchanges hfor (State.standing_setPeak _ _ _)⟩
    · exact ⟨_, rfl, State.switchMember_exchanges hfor (State.standing_qosExchange _ _)⟩
    · exact ⟨_, rfl, State.switchMember_exchanges hfor (State.standing_switchBank _ _)⟩
  case stopped => exact exec_paneSwitch_stopped rfl hfor hstopped
  case complete =>
    intro s i st harmed hsent hall
    have hexec := exec_commitComplete harmed hsent hall
    have hdisarmed := State.disarms_frame (s.setOf i) s
    have hfree := fun m hm => State.armedBy_disarms (m := m) (s.setOf i) s (.inl hm)
    generalize (s.setOf i).foldl State.disarm s = a at hexec hdisarmed hfree
    obtain ⟨hstate, hcframe, hdone, hmap, hbut⟩ := commitShown_spec (State.reg_armOver (a.commitShown i (s.arm i).frame) i)
    have hframe := (regsDiffer_commitShown a i (s.arm i).frame).frame
    generalize a.commitShown i (s.arm i).frame = c at hexec hstate hcframe hdone hmap hbut hframe
    refine ⟨_, hexec, ?_, hstate, hcframe, hdone, hmap, fun m hm => ?_, fun o ho => (hbut o ho).trans ?_⟩
    · rw [State.armOver, hframe, hdisarmed]
    · rw [State.armOver, hframe]
      exact hfree m hm
    · rw [hdisarmed]
      rfl

end Sys2Proof.Machine
end

section
/-!
PROOF. A boot attempt that fails, and the one on slot 0 that may follow (R345), leave alone the accesses that wait at the hub.
-/
namespace Sys2Proof.Machine

theorem State.heldAcc_of_standing {s t : State} (h : t.standing = s.standing) : t.heldAcc = s.heldAcc := congrArg (·.2.2.2) h

@[simp] theorem State.heldAcc_ite (c : Prop) [Decidable c] (a b : State) :
    (if c then a else b).heldAcc = if c then a.heldAcc else b.heldAcc := apply_ite State.heldAcc c a b

@[simp] theorem State.heldAcc_foldl {α : Type} (f : State → α → State) (l : List α) (s : State)
    (hf : ∀ a i, (f a i).heldAcc = a.heldAcc) : (l.foldl f s).heldAcc = s.heldAcc := by
  induction l generalizing s with
  | nil => rfl
  | cons i l ih => rw [List.foldl_cons, ih, hf]

/-! ### Lanes -/

@[simp] theorem State.heldAcc_enterSeek (s : State) (d l : Nat) : (s.enterSeek d l).heldAcc = s.heldAcc := by
  simp [State.enterSeek, State.enterStep, State.setNstate, State.setCdr, State.laneErr, State.free]

@[simp] theorem State.heldAcc_laneErr (s : State) (d l : Nat) (f : Fld) : (s.laneErr d l f).heldAcc = s.heldAcc := by
  simp [State.laneErr]

@[simp] theorem State.heldAcc_laneCheck (s : State) (d l : Nat) : (s.laneCheck d l).heldAcc = s.heldAcc := by
  simp [State.laneCheck, State.laneStart, State.heldAcc_of_standing (State.standing_setPeak _ _ _)]

@[simp] theorem State.heldAcc_laneOff (s : State) (d l : Nat) : (s.laneOff d l).heldAcc = s.heldAcc := by
  simp [State.laneOff, State.laneStop, State.setNstate, State.setCdr, State.laneErr]

/-! ### DDR5 controllers -/

@[simp] theorem State.heldAcc_ddrFail (s : State) (c step sc : Nat) : (s.ddrFail c step sc).heldAcc = s.heldAcc := by
  simp [State.ddrFail, State.setDdrState]

@[simp] theorem State.heldAcc_startHl2 (s : State) (rate : Nat) : (s.startHl2 rate).heldAcc = s.heldAcc := by
  simp [State.startHl2, State.lockLoop, State.fbCheck]

@[simp] theorem State.heldAcc_ddrInitNow (s : State) (c : Nat) : (s.ddrInitNow c).heldAcc = s.heldAcc := by
  dsimp only [State.ddrInitNow]
  split
  · simp [State.free, State.setDdrState]
  · split <;> simp [State.free]

/-! ### The companion link -/

@[simp] theorem State.heldAcc_writeReg (s : State) (off : Nat) (v : HWord) : (s.writeReg off v).heldAcc = s.heldAcc := by
  unfold State.writeReg
  split
  · rfl
  · dsimp only
    split
    · rfl
    · split <;> simp [State.writeStaged, State.noteRefused]

@[simp] theorem State.heldAcc_fmAnswer (s : State) (pk : Packet) (done : List FmPart) : (s.fmAnswer pk done).heldAcc = s.heldAcc := by
  refine State.heldAcc_of_standing ?_
  dsimp only [State.fmAnswer]
  split <;> simp

@[simp] theorem State.heldAcc_absorbPiece (s : State) (l : Nat) (pk : Packet) (i : Nat) : (s.absorbPiece l pk i).heldAcc = s.heldAcc := by
  simp [State.absorbPiece]

theorem State.heldAcc_fmCut (s : State) (l : Nat) : (s.fmCut l).heldAcc = s.heldAcc := by
  simp only [State.fmCut, State.fmFinish]
  refine (State.heldAcc_foldl _ _ _ fun a e => State.heldAcc_fmAnswer a _ _).trans (State.heldAcc_foldl _ _ _ fun a v => ?_)
  split <;> simp [State.setFmQueue]

@[simp] theorem State.heldAcc_board (s : State) (l cause : Nat) : (s.board l cause).heldAcc = s.heldAcc := by
  simp [State.board, State.reclaim, State.ownCple, State.setBoarded, State.setTrErr, State.setChanFields, State.heldAcc_fmCut]

@[simp] theorem State.heldAcc_uclCtlWrite (s : State) (v : HWord) : (s.uclCtlWrite v).heldAcc = s.heldAcc := by
  simp [State.uclCtlWrite, State.uclLeave, State.setUclState]

/-! ### The Keeper -/

@[simp] theorem State.heldAcc_resumeTarget (s : State) (t : Nat) : (s.resumeTarget t).heldAcc = s.heldAcc := by
  simp [State.resumeTarget, State.setHalted, State.setMc0, State.mcReload, State.latchLaunch, State.withKpr]

@[simp] theorem State.heldAcc_kprReply (s : State) (r : KReq) (st : Nat) (ws : List HWord) : (s.kprReply r st ws).heldAcc = s.heldAcc := by
  have hsend : ∀ ws, (s.kprSend r ws).heldAcc = s.heldAcc := fun ws => by
    unfold State.kprSend
    split <;> simp [State.kprShow, State.withKpr, State.sendChain]
  simp [State.kprReply, hsend, State.withKpr]

@[simp] theorem State.heldAcc_uenSet (s : State) : s.uenSet.heldAcc = s.heldAcc := by
  have hdrawn : ∀ a : State, a.haltWithdrawn.heldAcc = a.heldAcc := fun a => by
    unfold State.haltWithdrawn
    split <;> simp
  simp [State.uenSet, State.kprLose, State.kprEnd, State.kprClosed, State.setHalted, State.suspEnd, State.wdReload, State.withDb, State.withKpr,
    hdrawn]

/-! ### Entries of an image -/

@[simp] theorem State.heldAcc_entryEffect (s old : State) (row : RegRow) (ix : List Nat) :
    (s.entryEffect old row ix).heldAcc = s.heldAcc := by
  unfold State.entryEffect
  split <;> simp [State.laneOn, State.ddrInit]

@[simp] theorem State.heldAcc_putImage (s : State) (row : RegRow) (off : Nat) (mask v : HWord) :
    (s.putImage row off mask v).heldAcc = s.heldAcc := by
  simp [State.putImage]

@[simp] theorem State.heldAcc_bootEntry (s : State) (off : Nat) (v : HWord) : (s.bootEntry off v).heldAcc = s.heldAcc := by
  unfold State.bootEntry
  split
  · rfl
  · split
    · rfl
    · simp

theorem State.heldAcc_hubEntries (s : State) (h : List HWord) : (s.hubEntries h).1.heldAcc = s.heldAcc := by
  unfold State.hubEntries
  generalize hp : (s, true) = p
  obtain rfl : p.1 = s := hp ▸ rfl
  clear hp
  induction List.range (hNhub h) generalizing p with
  | nil => rfl
  | cons i l ih =>
    rw [List.foldl_cons]
    refine (ih _).trans ?_
    dsimp only
    split
    · rfl
    · split <;> simp

/-! ### The attempts -/

@[simp] theorem State.heldAcc_withCfg (s : State) (f : CfgSt → CfgSt) : (s.withCfg f).heldAcc = s.heldAcc := rfl

@[simp] theorem State.heldAcc_bootState (s : State) (n : Nat) : (s.bootState n).heldAcc = s.heldAcc := by
  simp [State.bootState]

theorem State.heldAcc_undoEntries (s : State) : s.undoEntries.heldAcc = s.heldAcc := by
  refine State.heldAcc_foldl _ _ _ fun a off => ?_
  split <;> simp

theorem State.heldAcc_clearDie (s : State) (d top : Nat) : (s.clearDie d top).heldAcc = s.heldAcc := by
  simp [State.clearDie, State.clearTins, State.settleTin, State.creditBack, State.setAvail, State.setChanFields]

theorem State.heldAcc_fpinsOff (s : State) (d : Nat) : (s.fpinsOff d).heldAcc = s.heldAcc := rfl

theorem State.heldAcc_outputsOff (s : State) : s.outputsOff.heldAcc = s.heldAcc := by
  rw [State.outputsOff, State.heldAcc_foldl _ _ _ State.heldAcc_fpinsOff]
  exact State.heldAcc_foldl _ _ _ fun a k => by simp

@[simp] theorem State.heldAcc_bootClear (s : State) (cause : Nat) (sel : Option Nat) : (s.bootClear cause sel).heldAcc = s.heldAcc := by
  simp [State.bootClear, State.doneLow, State.heldAcc_undoEntries, State.heldAcc_clearDie, State.heldAcc_outputsOff]

@[simp] theorem State.heldAcc_beginLoad (s : State) (h : List HWord) : (s.beginLoad h).1.heldAcc = s.heldAcc := by
  have hentries : (((s.jtagEnds.withCfg fun c => { c with head := h, pos := hLen h }).bootState 2).hubEntries h).1.heldAcc = s.heldAcc := by
    rw [State.heldAcc_hubEntries]
    simp [State.jtagEnds, State.jtagShow]
  dsimp only [State.beginLoad]
  split
  · exact hentries
  · split <;> exact hentries

theorem State.heldAcc_startSlot (s : State) (n : Nat) (second : Bool) : (s.startSlot n second).1.heldAcc = s.heldAcc := by
  have hopen : ∀ feed, (s.attemptOpen feed second).heldAcc = s.heldAcc := fun feed => by
    unfold State.attemptOpen
    exact (State.heldAcc_withCfg _ _).trans (by simp)
  dsimp only [State.startSlot]
  split
  · exact hopen (.slot n)
  · split
    · exact hopen (.slot n)
    · split
      · exact hopen (.slot n)
      · split
        · exact hopen (.slot n)
        · rw [State.heldAcc_beginLoad]
          simp [State.showSec, hopen]

theorem State.heldAcc_bootFailed (s : State) (cause : Nat) (sel : Option Nat) : (s.bootFailed cause sel).heldAcc = s.heldAcc := by
  dsimp only [State.bootFailed]
  split
  · simp
  · have hslot := (((s.bootClear cause sel).setFld R.CFG_BSTAT F.CFG_BSTAT.UCAUSE cause).setFld R.CFG_BSTAT
      F.CFG_BSTAT.FALLBK 1).heldAcc_startSlot 0 true
    split
    all_goals
      next hs =>
        rw [hs] at hslot
        simpa using hslot

end Sys2Proof.Machine
end

section
/-!
PROOF. The idle step (log entry 6): an edge of the timebase clock (R104, R317, R321), the limits of a chain stream (R347), and the end of an access
whose path has stayed away (R422).
-/
namespace Sys2Proof.Machine

/-! ### The edge of the timebase clock -/

theorem State.tbuEdge_stopped {s : State} (h : SMap.get 0 s.clk.mux 4 = 3 ∨ s.db.cool = true) : s.tbuEdge = s := by
  refine if_pos (.inr (h.imp (fun hmux => ?_) id))
  rw [State.hubRuns, State.mux, hmux]
  decide

/-- Device time after an edge that adds `k` units: the setting that waited, or the time advanced. -/
def TbuSt.edged (x : TbuSt) (k : Nat) : TbuSt :=
  { x with time := x.setPend.elim ((x.time + k) % (2 ^ 64 * nsUnit)) (· * nsUnit), run := x.run + k, setPend := none }

theorem TbuSt.time_edged_of_set {x : TbuSt} {v : Nat} (h : x.setPend = some v) (k : Nat) : (x.edged k).time = v * nsUnit := by
  rw [TbuSt.edged, h]
  rfl

theorem TbuSt.time_edged_of_unset {x : TbuSt} (h : x.setPend = none) (k : Nat) : (x.edged k).time = (x.time + k) % (2 ^ 64 * nsUnit) := by
  rw [TbuSt.edged, h]
  rfl

theorem State.tbuEdge_runs {s : State} (hp : s.power = .on) (hmux : SMap.get 0 s.clk.mux 4 ≠ 3) (hcool : s.db.cool = false) :
    s.tbuEdge = { s with tbu := s.tbu.edged s.edgeStep } := by
  have hruns : s.hubRuns = true := decide_eq_true hmux
  rw [State.tbuEdge, if_neg (by simp [hp, hruns, hcool])]
  unfold TbuSt.edged
  cases s.tbu.setPend <;> rfl

theorem State.tbuEdge_frame (s : State) : s.tbuEdge = { s with tbu := s.tbuEdge.tbu } := by
  unfold State.tbuEdge
  split <;> rfl

theorem State.edgeStep_eq (s : State) :
    s.edgeStep = (if SMap.get 0 s.clk.mux 4 = 0 then 5 else 4) * max 0x1C000000 (min (s.reg R.TBU_INCR).toNat 0x24000000) := by
  rw [State.edgeStep, State.tbuFosc, ite_mul]
  exact if_congr decide_eq_true_iff rfl rfl

theorem State.edgeStep_pos (s : State) : 0 < s.edgeStep := by
  rw [State.edgeStep_eq]
  split <;> omega

/-! ### A chain stream that stays away -/

theorem State.chainLate_iff (s : State) : s.chainLate = true ↔ s.cfg.feed = .chain ∧ s.cfg.up = false ∧ s.chainWhole = false ∧
    (s.cfg.octs = [] → 3000000000 * 2 ^ 30 ≤ s.tbu.run) ∧ (s.cfg.octs ≠ [] → 10000000 * 2 ^ 30 < s.tbu.run - s.cfg.chainAt) := by
  unfold State.chainLate nsUnit
  by_cases h : s.cfg.octs = [] <;> simp [h, and_assoc]

/-! ### Accesses that wait at the hub -/

theorem dieOf_of_cutOff {a : State} {off : Nat} (hcut : a.cutOff off = true) : 0x1000000 ≤ off ∧ off < 0x2000000 := by
  rw [State.cutOff, dieOf] at hcut
  split at hcut
  case h_1 heq => exact (Option.ite_none_right_eq_some.mp heq).1
  case h_2 => exact absurd hcut (by decide)

theorem waits_of_away {s : State} {off d : Nat} (hd : dieOf off = some d) (hdark : s.dieDark d = false) (hpath : s.pathUp d = false) :
    s.waitsAt off = true ∧ s.cutOff off = true := by
  have hcut : s.cutOff off = true := by simp [State.cutOff, hd, hpath]
  have hoff := dieOf_of_cutOff hcut
  exact ⟨by simp [State.waitsAt, Nat.mod_eq_of_lt hoff.2, hd, hdark, hpath], hcut⟩

theorem State.settleHeld_none {s : State} (h : s.heldAcc = []) : s.settleHeld = { s with heldAcc := [] } := by
  unfold State.settleHeld
  split
  · rfl
  · rw [h]
    rfl

/-- An access that must wait goes on waiting. -/
theorem State.settleHeld_waits {s : State} {h : HeldAcc} (hp : s.power = .on) (ha : s.heldAcc = [h])
    (hw : ({ s with heldAcc := [] } : State).mustWait h false = true) : s.settleHeld = s := by
  rw [State.settleHeld, if_neg (by simp [hp]), ha, List.foldl_cons, List.foldl_nil]
  refine (if_pos hw).trans ?_
  rw [List.nil_append, ← ha]

section
variable {a : State} {h : HeldAcc}

/-- An access of a word that is away waits for 50 µs. -/
theorem State.mustWait_of_waitsAt {i : Nat} (hi : i < h.words) (hw : a.waitsAt (h.off + 4 * i) = true)
    (hrun : a.tbu.run < h.since + 50000 * 2 ^ 30) : a.mustWait h false = true := by
  have hany : (List.range h.words).any (fun i => a.waitsAt (h.off + 4 * i)) = true := List.any_eq_true.mpr ⟨i, List.mem_range.mpr hi, hw⟩
  rw [State.mustWait, hany, nsUnit, decide_eq_true hrun]
  rfl

/-- An access waits no longer than 50 µs. -/
theorem State.mustWait_of_late (hrun : h.since + 50000 * 2 ^ 30 ≤ a.tbu.run) : a.mustWait h false = false := by
  rw [State.mustWait, nsUnit, decide_eq_false (Nat.not_lt.mpr hrun), Bool.and_false, Bool.and_false]
  rfl

/-- A write of a register whose path is not UP is discarded. -/
theorem State.busWrite_of_cutOff (src : Nat) {off : Nat} (v : HWord) (hcut : a.cutOff off = true) : a.busWrite src off v = a := by
  have hoff := dieOf_of_cutOff hcut
  unfold State.busWrite
  split
  · rfl
  · rw [if_neg (by omega)]
    split
    · rfl
    · rw [hcut, Bool.or_true, if_pos rfl]

theorem State.writeRun_of_cutOff (ws : List HWord) {off : Nat} (hcut : ∀ i < ws.length, a.cutOff (off + 4 * i) = true) :
    a.writeRun h true off ws = a.accAnswer h [] := by
  induction ws generalizing off with
  | nil => rfl
  | cons v vs ih =>
    have hfirst : a.cutOff off = true := hcut 0 (Nat.zero_lt_succ _)
    rw [State.writeRun, Bool.not_true, Bool.false_and, if_neg Bool.false_ne_true, State.busWrite_of_cutOff _ _ hfirst]
    refine ih fun i hi => ?_
    rw [Nat.add_assoc, Nat.add_comm 4, ← Nat.mul_succ]
    exact hcut (i + 1) (Nat.succ_lt_succ hi)

/-- A read of a register whose path is not UP gives all ones and changes nothing. -/
theorem State.busRead_of_cutOff {off : Nat} {row : RegRow} {ix : List Nat} (quiet : Bool) (hreg : regAt off = some (row, ix))
    (habs : a.absent off row.kind ix = false) (hcut : a.cutOff off = true) : a.busRead off quiet = (0xFFFFFFFF, a) := by
  have hoff := dieOf_of_cutOff hcut
  have hvalue : a.busValue off false = 0xFFFFFFFF := by
    rw [State.busValue, if_neg (by omega), hreg]
    dsimp only
    rw [habs, hcut, if_neg Bool.false_ne_true, if_pos rfl]
  have heffect : a.readEffect off = a := by
    rw [State.readEffect, hreg]
    dsimp only
    rw [hcut, Bool.or_true, if_pos rfl]
  rw [State.busRead, if_neg (by omega), hvalue, heffect, ite_self]

theorem State.accMake_write_of_cutOff {ws : List HWord} (hw : h.write = some ws) (hrun : h.since + 50000 * 2 ^ 30 ≤ a.tbu.run)
    (hcut : ∀ i < h.words, a.cutOff (h.off + 4 * i) = true) : a.accMake h = a.accAnswer h [] := by
  rw [HeldAcc.words, hw] at hcut
  rw [State.accMake, hw]
  dsimp only
  rw [nsUnit, decide_eq_true hrun, State.writeRun_of_cutOff ws hcut]

theorem State.accMake_read_of_cutOff {row : RegRow} {ix : List Nat} (hw : h.write = none) (hn : h.n = 1) (hreg : regAt h.off = some (row, ix))
    (habs : a.absent h.off row.kind ix = false) (hcut : a.cutOff h.off = true) : a.accMake h = a.accAnswer h [0xFFFFFFFF] := by
  rw [State.accMake, hw]
  dsimp only
  rw [hn, State.readRun, State.busRead_of_cutOff _ hreg habs hcut]
  rfl

end

/-! ### The step -/

theorem step_idle {s : State} (h : s.pending = []) : step s = .next s.idle := by rw [step, h]

theorem State.idle_late {s : State} (hp : s.power = .on) (hlate : s.tbuEdge.chainLate = true) :
    s.idle = (s.tbuEdge.bootFailed 16 none).settleHeld := congrArg State.settleHeld (if_pos ⟨hp, hlate⟩)

theorem State.idle_inTime {s : State} (hlate : ¬ s.tbuEdge.chainLate = true) : s.idle = s.tbuEdge.settleHeld :=
  congrArg State.settleHeld (if_neg fun hc => hlate hc.2)

/-- Settles O14: the state after the edge is `State.tbuEdge`, which changes the time alone; what has waited too long ends in `State.bootFailed` and
`State.accMake`. -/
theorem idleStepIsTimebaseEdge : Obligations.IdleStepIsTimebaseEdge := by
  intro s hpend hp
  have hframe := s.tbuEdge_frame
  refine ⟨s.tbuEdge, State.tbuEdge_stopped, fun hmux hcool => ?edge, ?_⟩
  case edge =>
    rw [State.tbuEdge_runs hp hmux hcool]
    refine ⟨rfl, rfl, Nat.lt_add_of_pos_right s.edgeStep_pos, fun v hv => TbuSt.time_edged_of_set hv _, fun hnone => ?_⟩
    rw [← State.edgeStep_eq]
    exact TbuSt.time_edged_of_unset hnone _
  intro late
  have hlate : s.tbuEdge.chainLate = true ↔ late := by
    rw [State.chainLate_iff, hframe]
    exact Iff.rfl
  have hpower : s.tbuEdge.power = .on := by rw [hframe]; exact hp
  have hheld : s.tbuEdge.heldAcc = s.heldAcc := by rw [hframe]
  rw [step_idle hpend]
  refine ⟨fun hl hnone => ⟨_, congrArg _ ((State.idle_late hp (hlate.mpr hl)).trans (State.settleHeld_none ?late)), rfl⟩,
    fun hl hnone => congrArg _ ((State.idle_inTime (mt hlate.mp hl)).trans ?none), fun h hl hone => ?held⟩
  case late => rw [State.heldAcc_bootFailed, hheld, hnone]
  case none =>
    have hempty := hheld.trans hnone
    rw [State.settleHeld_none hempty, ← hempty]
  case held =>
    rw [State.idle_inTime (mt hlate.mp hl)]
    intro away
    have hmade : h.since + 50000 * 2 ^ 30 ≤ s.tbuEdge.tbu.run → s.tbuEdge.settleHeld = ({ s.tbuEdge with heldAcc := [] } : State).accMake h :=
      fun hrun => State.settleHeld_single hpower (hheld.trans hone) rfl (State.mustWait_of_late hrun)
    have haway : ∀ i, away i → ({ s.tbuEdge with heldAcc := [] } : State).waitsAt (h.off + 4 * i) = true ∧
        ({ s.tbuEdge with heldAcc := [] } : State).cutOff (h.off + 4 * i) = true := fun i ⟨d, hd, hdark, hpath⟩ => by
      rw [hframe]
      exact waits_of_away hd hdark hpath
    refine ⟨fun i hi hi' hrun => congrArg _ ?waits,
      fun hrun hall => ⟨fun ws hw => congrArg _ ?write, fun row ix hw hn hreg habs => congrArg _ ?read⟩⟩
    case waits => exact State.settleHeld_waits hpower (hheld.trans hone) (State.mustWait_of_waitsAt hi (haway i hi').1 hrun)
    case write => exact (hmade hrun).trans (State.accMake_write_of_cutOff hw hrun fun i hi => (haway i (hall i hi)).2)
    case read =>
      refine (hmade hrun).trans (State.accMake_read_of_cutOff hw hn hreg ?_ (haway 0 (hall 0 ?_)).2)
      · rw [hframe]
        exact habs
      · rw [HeldAcc.words, hw, hn]
        decide

end Sys2Proof.Machine
end

section
/-!
PROOF. A WRUL at a lock that is free is refused (log entry 17), and then the requests that wait at the lock are served, since the model serves them
behind every WRUL that does not itself wait. TransomMemoryAccess asks of such a WRUL that no queue changes, and, other than in its clauses of the
holder's WRUL, does not ask that nothing waits at the lock.
-/
namespace Sys2Proof.Machine
open Sys2Proof.Claims

/-- A WRUL of one word at queue 0 of block 0 of pane 0, from engine 1 of pane 3. -/
def freeLockWrul : Packet := { dst := 4, src := 203, cmd := cWRUL, addr := 0x1004000, tag := 5, len := 1, data := [9] }

/-- An RDLK of that queue from engine 1 of pane 2. -/
def waitingRdlk : Packet := { freeLockWrul with src := 139, cmd := cRDLK, len := 0, data := [] }

/-- Pane 0 runs with block 0 in QUEUE mode and its queue 0 in locked use: the lock is free, the RDLK waits at it, and the WRUL has arrived. -/
def freeLock : State :=
  ({ State.reset with
    dies := [(0, { gsr := true, writes := true })]
    stv := [(2 * R.WM_CFG 0 0 0, putF (putF 0 F.WM_CFG.MODE 3) F.WM_CFG.LOCKED 1)]
    queues := [(0, { waiters := [waitingRdlk] })] } : State).setReg (R.PANE_CLK 0 0) (putF 0 F.PANE_CLK.LOCK 1) |>.setReg R.HUB_STEP 0x4000BBBB |>.setTin
    4 (vcOf freeLockWrul) (flitsFor freeLockWrul)

/-- Refutes O27: in `freeLock` the WRUL is refused and the RDLK behind it is served, which leaves the queue's list of waiting requests empty. -/
theorem not_transomMemoryAccess : ¬ Obligations.TransomMemoryAccess := by
  intro h
  obtain ⟨-, hlocked, -⟩ := h
  have hready : ReadyAt freeLock cWRUL freeLockWrul := ⟨by decide, by decide +kernel, by decide +kernel, by decide +kernel⟩
  obtain ⟨-, -, -, -, -, -, -, -, hfree, -⟩ := hlocked freeLock freeLockWrul 0 0 0 0x4000 ⟨by decide, by decide, by decide, by decide⟩ (by decide)
    (by decide) (by decide +kernel) (by decide +kernel) (by decide +kernel) (by decide +kernel)
  obtain ⟨t, hexec, -, hqueues⟩ := hfree hready (by decide +kernel)
  have hserved : ((freeLock.serve cWRUL freeLockWrul false []).queue 0 0).waiters = [] := by decide +kernel
  have hwaits : (freeLock.queue 0 0).waiters = [waitingRdlk] := by decide +kernel
  have hsame : (t.queue 0 0).waiters = (freeLock.queue 0 0).waiters := by rw [State.queue, hqueues, State.queue]
  rw [← Host.Outcome.next.inj hexec, hserved, hwaits] at hsame
  cases hsame

end Sys2Proof.Machine
end

section
/-!
PROOF. The cycle of a signal engine (Table 6.3): what port B does and what it leaves of all that the issue of a bundle goes by, and when an engine's
command issues its bundle.
-/
namespace Sys2Proof.Machine
open Sys2Proof.Claims

/-! ### What port B leaves alone -/

/-- What the issue of a bundle of engine `g` goes by: the copies that are live, the program and its marks, the dies, the locks of the panes'
clocks, and the engine but for the TWRs in progress. -/
def State.issueView (s : State) (g : Nat) : SMap Bool × SMap Word × SMap (Fin 3) × SMap DieSt × (Nat → Nat → Bool) × EngSt :=
  (s.bank, s.frames, s.pmBad, s.dies, fun d p => s.flag (R.PANE_CLK d p) F.PANE_CLK.LOCK, { s.eng g with twr := [] })

@[simp] theorem State.issueView_ite (g : Nat) (c : Prop) [Decidable c] (a b : State) :
    (if c then a else b).issueView g = if c then a.issueView g else b.issueView g := apply_ite (State.issueView · g) c a b

@[simp] theorem State.issueView_link (s : State) (g : Nat) :
    (∀ l i v, (s.setLed l i v).issueView g = s.issueView g) ∧ (∀ l i n, (s.addLed l i n).issueView g = s.issueView g) ∧
    (∀ i v x, (s.setSrcq i v x).issueView g = s.issueView g) ∧ (∀ i v x, (s.setInq i v x).issueView g = s.issueView g) ∧
    (∀ h a x, (s.setDm h a x).issueView g = s.issueView g) := by
  and_intros <;> intros <;> rfl

@[simp] theorem State.issueView_enter (s : State) (g i v : Nat) (f : TFlit) : (s.enter i v f).issueView g = s.issueView g := by
  simp [State.enter, State.takeFlits, State.setIocc, State.setChanFields]

@[simp] theorem State.issueView_hasLeft (s : State) (g i : Nat) (pk : Packet) : (s.hasLeft i pk).issueView g = s.issueView g := by
  unfold State.hasLeft
  split <;> rfl

theorem State.issueView_fillOne (s : State) (g i v : Nat) : (s.fillOne i v).issueView g = s.issueView g := by
  dsimp only [State.fillOne]
  split <;> simp

@[simp] theorem State.issueView_fill (s : State) (g i v : Nat) : (s.fill i v).issueView g = s.issueView g :=
  List.foldlRecOn (motive := fun a : State => a.issueView g = s.issueView g) _ _ rfl fun a ha _ _ => (a.issueView_fillOne g i v).trans ha

@[simp] theorem State.issueView_launch (s : State) (g : Nat) (pk : Packet) : (s.launch pk).issueView g = s.issueView g := by
  simp [State.launch]

theorem State.issueView_setFld (s : State) (g : Nat) {off : Nat} (f : Fld) (n : Nat) (h : ∀ d p, R.PANE_CLK d p ≠ off) :
    (s.setFld off f n).issueView g = s.issueView g := by
  have hlock : (fun d p => (s.setFld off f n).flag (R.PANE_CLK d p) F.PANE_CLK.LOCK) = fun d p => s.flag (R.PANE_CLK d p) F.PANE_CLK.LOCK :=
    funext fun d => funext fun p => State.flag_setFld_reg s f _ n (h d p)
  rw [State.issueView, hlock]
  rfl

theorem paneClk_ne_engErr (g d p : Nat) : R.PANE_CLK d p ≠ engErr g := by
  unfold R.PANE_CLK engErr R.ENG_ERR
  omega

theorem paneClk_ne_engSig (g d p : Nat) : R.PANE_CLK d p ≠ R.ENG_SIG (engDie g) (engIx g) := by
  unfold R.PANE_CLK R.ENG_SIG
  omega

theorem paneClk_ne_trErr (r d p : Nat) : R.PANE_CLK d p ≠ trErr r := by
  unfold R.PANE_CLK trErr R.HTR_ERR R.TR_ERR
  split <;> omega

@[simp] theorem State.issueView_engRaise (s : State) (g h : Nat) (f : Fld) : (s.engRaise h f).issueView g = s.issueView g := by
  simp [State.engRaise, State.engPend, State.issueView_setFld _ _ _ _ (paneClk_ne_engErr h), State.issueView_setFld _ _ _ _ (paneClk_ne_engSig h)]

@[simp] theorem State.issueView_checkDm (s : State) (g h a : Nat) : (s.checkDm h a).issueView g = s.issueView g := by
  simp [State.checkDm, State.issueView_setFld _ _ _ _ (paneClk_ne_engErr h)]

@[simp] theorem State.issueView_routeReq (s : State) (g : Nat) (pk : Packet) : (s.routeReq pk).issueView g = s.issueView g := by
  unfold State.routeReq
  split
  · simp
  · split
    · exact State.issueView_setFld _ _ _ _ (paneClk_ne_trErr _)
    · rfl

theorem State.issueView_setTwr (s : State) (g : Nat) (ts : List TwrSt) : (s.setEng g { s.eng g with twr := ts }).issueView g = s.issueView g := by
  have heng : ({ (s.setEng g { s.eng g with twr := ts }).eng g with twr := [] } : EngSt) = { s.eng g with twr := [] } := by
    rw [State.eng_setEng, if_pos rfl]
  rw [State.issueView, heng]
  rfl

/-! ### Port B (R137) -/

theorem State.eng_checkDm (s : State) (g h a : Nat) : (s.checkDm h a).eng g = s.eng g := by
  rw [State.eng_congr_aside (State.aside_checkDm s h a)]

/-- A TWR in progress once port B has read the entry `e` for it. -/
def TwrSt.read (b : TwrSt) (e : Entry) : TwrSt :=
  { pk := { b.pk with data := b.pk.data ++ [e.word] }, x := stepX b.x 1, left := b.left - 1, due := b.due || decide (e.bad = 2) }

section
variable {s : State} {g : Nat} {b : TwrSt} {bs : List TwrSt}

theorem State.portB_idle (h : (s.eng g).twr = []) : s.portB g = s := by
  rw [State.portB, h]

theorem State.portB_reads (h : (s.eng g).twr = b :: bs) (hleft : 1 < b.left) : s.portB g =
    (s.checkDm g (addrX b.x)).setEng g { s.eng g with twr := b.read (s.dmWord g (addrX b.x)) :: bs } := by
  rw [State.portB, h]
  dsimp only
  rw [if_pos hleft, State.eng_checkDm]
  rfl

theorem State.portB_sends (h : (s.eng g).twr = b :: bs) (hleft : b.left ≤ 1) (hdue : (b.read (s.dmWord g (addrX b.x))).due = false) :
    s.portB g = ((s.checkDm g (addrX b.x)).setEng g { s.eng g with twr := bs }).routeReq (b.read (s.dmWord g (addrX b.x))).pk := by
  rw [State.portB, h]
  dsimp only
  rw [if_neg (by omega), State.eng_checkDm, if_pos]
  · rfl
  · exact ne_of_eq_of_ne hdue Bool.false_ne_true

/-- What port B does with a TWR of which it has read the last word, one word being uncorrectable. -/
theorem State.portB_gives_up (h : (s.eng g).twr = b :: bs) (hleft : b.left ≤ 1) (hdue : (b.read (s.dmWord g (addrX b.x))).due = true) :
    let told := ((s.checkDm g (addrX b.x)).setEng g { s.eng g with twr := bs }).engRaise g F.ENG_ERR.DUE
    s.portB g = if posted b.pk.cmd then told else told.launch { completion b.pk cCPLE with src := b.pk.src, ecode := eDATA } := by
  intro told
  rw [State.portB, h]
  dsimp only
  rw [if_neg (by omega), State.eng_checkDm, if_neg]
  · rfl
  · exact not_not.2 hdue

end

theorem State.issueView_portB (s : State) (g : Nat) : (s.portB g).issueView g = s.issueView g := by
  cases h : (s.eng g).twr with
  | nil => rw [State.portB_idle h]
  | cons b bs =>
    have hset : ∀ ts, ((s.checkDm g (addrX b.x)).setEng g { s.eng g with twr := ts }).issueView g = s.issueView g := fun ts => by
      rw [← State.eng_checkDm s g g (addrX b.x), State.issueView_setTwr, State.issueView_checkDm]
    rcases Nat.lt_or_ge 1 b.left with hleft | hleft
    · rw [State.portB_reads h hleft, hset]
    · cases hdue : (b.read (s.dmWord g (addrX b.x))).due with
      | false => rw [State.portB_sends h hleft hdue, State.issueView_routeReq, hset]
      | true => rw [State.portB_gives_up h hleft hdue]; simp [hset]

theorem State.eng_portB (s : State) (g : Nat) : (s.portB g).eng g = { s.eng g with twr := ((s.portB g).eng g).twr } :=
  congrArg (fun v => { v.2.2.2.2.2 with twr := ((s.portB g).eng g).twr }) (s.issueView_portB g)

theorem State.engClocked_portB (s : State) (g h : Nat) : (s.portB g).engClocked h = s.engClocked h := by
  have hview := s.issueView_portB g
  simp only [State.issueView, Prod.mk.injEq] at hview
  obtain ⟨-, -, -, hdies, hlock, -⟩ := hview
  have hlock := congrFun (congrFun hlock (engPane h / 64)) (engPane h % 64)
  unfold State.engClocked State.dieRuns
  rw [hdies]
  exact congrArg (_ && ·) hlock

/-- Port B leaves the bundle at the PC of its engine, and what is known of its readability. -/
theorem State.bundle_portB (s : State) (g : Nat) : let c := s.liveCopy (engMember (engDie g) (engIx g))
    bundleOf (s.portB g) g = bundleOf s g ∧ (s.portB g).liveCopy (engMember (engDie g) (engIx g)) = c ∧
    SMap.get 0 (s.portB g).pmBad (pmKey c g ((s.portB g).eng g).pc) = SMap.get 0 s.pmBad (pmKey c g (s.eng g).pc) := by
  intro c
  have hview := s.issueView_portB g
  simp only [State.issueView, Prod.mk.injEq] at hview
  obtain ⟨hbank, hframes, hbad, -, -, -⟩ := hview
  have hpc : ((s.portB g).eng g).pc = (s.eng g).pc := by rw [s.eng_portB g]
  have hcopy : (s.portB g).liveCopy (engMember (engDie g) (engIx g)) = c := by
    unfold State.liveCopy
    rw [hbank]
    rfl
  refine ⟨?_, hcopy, by rw [hbad, hpc]⟩
  rw [bundleOf, bundleOf, hcopy, hpc]
  unfold State.bundleAt State.frameWord
  rw [hframes]

/-! ### The cycle of a command -/

/-- What an engine cycle makes of the state `a` at the edge that begins it, no watchdog being due. -/
def State.engIssue (a : State) (g : Nat) : State :=
  (((a.portB g).issueBundle g (a.engTpend g)).wdogLast g ((a.portB g).eng g)).settlePortB g

theorem State.engCycle_issues {a : State} {g : Nat} (hrun : ((a.portB g).eng g).state = .run)
    (hwdog : ((a.portB g).eng g).wdLoad = 0 ∨ ((a.portB g).eng g).wdog ≠ 0) : a.engCycle g = a.engIssue g := by
  have hload : ((a.portB g).eng g).wdLoad = (a.eng g).wdLoad := by rw [a.eng_portB g]
  have hcount : ((a.portB g).eng g).wdog = (a.eng g).wdog := by rw [a.eng_portB g]
  have hsettle : a.wdogSettle g = a := if_neg fun ⟨_, h⟩ => by
    obtain ⟨h1, h2⟩ := of_decide_eq_true h
    exact hwdog.elim (fun h => h1 (hload ▸ h)) fun h => h (hcount.trans h2)
  rw [State.engCycle, hsettle]
  exact if_pos hrun

/-- An engine command's bundle issues where slot `i` holds the operation, and where the bundle is not to be executed at all. -/
theorem State.engCommand_issues {s : State} {i op : Nat} {d : Fin 4} {e : Fin 128} {dt : Nat}
    (hrun : ((cycleOf s (engId d e) dt).eng (engId d e)).state = .run)
    (hclk : (cycleOf s (engId d e) dt).engClocked (engId d e) = true)
    (hwdog : ((cycleOf s (engId d e) dt).eng (engId d e)).wdLoad = 0 ∨ ((cycleOf s (engId d e) dt).eng (engId d e)).wdog ≠ 0)
    (hmeets : slotOp (slotOf (bundleOf (cycleOf s (engId d e) dt) (engId d e)) i) = op ∨
      illegalSlots (bundleOf (cycleOf s (engId d e) dt) (engId d e)) ≠ [] ∨
      SMap.get 0 (cycleOf s (engId d e) dt).pmBad (pmKey ((cycleOf s (engId d e) dt).liveCopy (engMember d e)) (engId d e)
        ((cycleOf s (engId d e) dt).eng (engId d e)).pc) = 2) :
    s.engCommand i op d e dt = (s.advance (engPane (engId d e)) dt).engIssue (engId d e) := by
  rw [← State.engCycle_issues hrun hwdog]
  unfold cycleOf at hrun hclk hmeets
  obtain ⟨hbundle, hcopy, hbad⟩ := (s.advance (engPane (engId d e)) dt).bundle_portB (engId d e)
  rw [hbundle, ← engMember_engId d e, hcopy, hbad] at hmeets
  rw [State.engClocked_portB] at hclk
  rw [((s.advance (engPane (engId d e)) dt).portB_steady (engId d e)).2] at hrun
  dsimp only [State.engCommand]
  rw [if_neg (by simp [hrun, hclk]), ← engMember_engId d e]
  exact if_pos hmeets
end Sys2Proof.Machine
end

section
/-!
PROOF. What a bundle comes to (Table 6.3): the checks before it, and the effects of a bundle of which one slot alone executes.
-/
namespace Sys2Proof.Machine
open Sys2Proof.Claims

/-! ### The end of a cycle in RUN -/

theorem State.settled_of_run {t : State} {g : Nat} (x : EngSt) (h : (t.eng g).state = .run) : (t.wdogLast g x).settlePortB g = t := by
  have hlast : t.wdogLast g x = t := if_neg fun hn => hn.1 h
  rw [hlast]
  exact if_pos h

/-! ### The bundle at the PC (R123, R125, R142) -/

theorem illegalSlots_eq_nil {b : Nat} (h : ∀ j, j < 4 → slotLegal j (slotOf b j) = true) : illegalSlots b = [] := by
  simpa [illegalSlots] using h

/-- Does the ALU slot hold an MTC of an illegal value to RRB (R127)? -/
def mtcIllegal (x : EngSt) (w : Nat) : Prop :=
  slotRuns x w = true ∧ slotOp w = 0x21 ∧ bitsOf w 17 12 = 2 ∧ rrbIllegal (x.vr (bitsOf w 11 6)).toNat = true

section
variable {s : State} {g pend : Nat}

theorem State.issueBundle_ready (h : BundleReady s g) (hmtc : ¬ mtcIllegal (s.eng g) (slotOf (bundleOf s g) 2)) : s.issueBundle g pend =
    if s.engStall g (s.eng g) (bundleOf s g) pend ≠ 0 then
      (s.addSat (R.ENG_STALLS (engDie g) (engIx g)) F.ENG_STALLS.COUNT 1).setEng g
        { s.eng g with stall := s.engStall g (s.eng g) (bundleOf s g) pend, wdog := (s.eng g).wdog - 1 }
    else if slotRuns (s.eng g) (slotOf (bundleOf s g) 3) ∧ loopFault (s.eng g) (slotOf (bundleOf s g) 3) then s.engFault g F.ENG_ERR.LOOPF none
    else s.engEffects g (bundleOf s g) := by
  obtain ⟨-, -, -, hread, hlegal⟩ := h
  have hnil := illegalSlots_eq_nil hlegal
  unfold bundleOf at hnil
  unfold mtcIllegal bundleOf at hmtc
  simp only [State.issueBundle, hread, hnil, hmtc, if_false]
  rfl

theorem State.issueBundle_effects (h : BundleReady s g) (hmtc : ¬ mtcIllegal (s.eng g) (slotOf (bundleOf s g) 2))
    (hstall : s.engStall g (s.eng g) (bundleOf s g) pend = 0)
    (hloop : slotRuns (s.eng g) (slotOf (bundleOf s g) 3) = true → loopFault (s.eng g) (slotOf (bundleOf s g) 3) = false) :
    s.issueBundle g pend = s.engEffects g (bundleOf s g) := by
  rw [State.issueBundle_ready h hmtc, if_neg (not_not.2 hstall), if_neg]
  exact fun ⟨hruns, hfault⟩ => Bool.false_ne_true ((hloop hruns).symm.trans hfault)

theorem State.engStall_of_idle {x : EngSt} {b : Nat} (h : slotRuns x (slotOf b 0) = false) : s.engStall g x b pend =
    if slotRuns x (slotOf b 3) ∧ slotOp (slotOf b 3) = 0x10 ∧ bitsOf (slotOf b 3) 4 0 < pend then 4 else 0 := by
  simp [State.engStall, h]

theorem not_mtcIllegal_of_idle {x : EngSt} {w : Nat} (h : slotRuns x w = false) : ¬ mtcIllegal x w := fun hw =>
  Bool.false_ne_true (h.symm.trans hw.1)

end

/-! ### A bundle of which one slot executes (Table 6.3) -/

/-- What a slot that works on the engine alone makes of it in its turn. -/
def slotPart (f : EngW → EngW) (runs : Bool) (x : EngSt) : EngW := if runs then f ⟨x, []⟩ else ⟨x, []⟩

theorem slotPart_idle (f : EngW → EngW) (x : EngSt) : slotPart f false x = ⟨x, []⟩ := rfl

theorem slotPart_runs (f : EngW → EngW) (x : EngSt) : slotPart f true x = f ⟨x, []⟩ := rfl

/-- Do two slots write one register: the LS, MAC and ALU slots, which wrote those listed, and the BR slot (R126)? -/
def slotsCollide (x0 : EngSt) (br : Nat) (ls mac alu : List Nat) : Bool :=
  mac.any (fun n => ls.contains n) || alu.any (fun n => ls.contains n || mac.contains n) ||
    (brWrites x0 br).any fun n => ls.contains n || alu.contains n

/-- The end of a bundle whose BR slot has come to `r`. -/
def bundleTail (g : Nat) (x0 : EngSt) (br : Nat) (due : Bool) (r : State × EngSt) : State :=
  if due then ((r.1.setEng g { r.2 with state := .fault }).engRaise g F.ENG_ERR.DUE).setFld (engErr g) F.ENG_ERR.FPC x0.pc
  else if brGap x0 br then ((r.1.setEng g r.2).gapCycle g).gapCycle g
  else r.1.setEng g r.2

/-- The effects of a bundle of the slots `ls`, `mac`, `alu` and `br`. -/
def State.fourSlots (s : State) (g : Nat) (x0 : EngSt) (ls mac alu br : Nat) : State :=
  let r := if slotRuns x0 ls then s.lsSlot g x0 ls ⟨x0, []⟩ else (s, ⟨x0, []⟩)
  let a1 := slotPart (macSlot x0 mac) (slotRuns x0 mac) r.2.x
  let a2 := slotPart (aluSlot x0 alu) (slotRuns x0 alu) a1.x
  bundleTail g x0 br (slotRuns x0 ls && s.portADue g x0 ls)
    ((if slotsCollide x0 br r.2.w a1.w a2.w then r.1.setFld (engErr g) F.ENG_ERR.WCOL 1 else r.1).brSlot g x0 br (slotRuns x0 br)
      { a2.x with wdog := x0.wdog - 1, stall := 0 })

theorem State.engEffects_eq (s : State) (g b : Nat) :
    s.engEffects g b = s.fourSlots g (s.eng g) (slotOf b 0) (slotOf b 1) (slotOf b 2) (slotOf b 3) := rfl

section
variable {s : State} {g w : Nat}

theorem brWrites_of_idle {x : EngSt} (h : slotRuns x w = false) : brWrites x w = [] :=
  if_neg fun hw => Bool.false_ne_true (h.symm.trans hw.1)

theorem brGap_of_idle {x : EngSt} (h : slotRuns x w = false) : brGap x w = false := by rw [brGap, h, Bool.false_and]

theorem State.brSlot_idle (x0 x : EngSt) : s.brSlot g x0 w false x = (s, x.loopEnd x0.pc) := by
  unfold State.brSlot
  exact if_pos Bool.false_ne_true

theorem bundleTail_idle {x0 x : EngSt} {due : Bool} (h : slotRuns x0 w = false) : bundleTail g x0 w due (s, x) =
    if due then ((s.setEng g { x with state := .fault }).engRaise g F.ENG_ERR.DUE).setFld (engErr g) F.ENG_ERR.FPC x0.pc
    else s.setEng g x := by
  rw [bundleTail, brGap_of_idle h]
  rfl

theorem slotsCollide_mac {x0 : EngSt} (ws : List Nat) (h : slotRuns x0 w = false) : slotsCollide x0 w [] ws [] = false := by
  simp [slotsCollide, brWrites_of_idle h]

theorem slotsCollide_alu {x0 : EngSt} (ws : List Nat) (h : slotRuns x0 w = false) : slotsCollide x0 w [] [] ws = false := by
  simp [slotsCollide, brWrites_of_idle h]

theorem slotsCollide_ls {x0 : EngSt} (ws : List Nat) (h : slotRuns x0 w = false) : slotsCollide x0 w ws [] [] = false := by
  simp [slotsCollide, brWrites_of_idle h]

theorem slotsCollide_br (x0 : EngSt) (w : Nat) : slotsCollide x0 w [] [] [] = false := by
  simp [slotsCollide]

variable {x0 : EngSt} {ls mac alu br : Nat}

theorem State.fourSlots_mac (h0 : slotRuns x0 ls = false) (h1 : slotRuns x0 mac = true) (h2 : slotRuns x0 alu = false)
    (h3 : slotRuns x0 br = false) : s.fourSlots g x0 ls mac alu br = s.setEng g (bundleEnd x0 (macSlot x0 mac ⟨x0, []⟩).x) := by
  unfold State.fourSlots
  simp only [h0, h1, h2, h3, slotPart_idle, slotPart_runs, slotsCollide_mac _ h3, State.brSlot_idle, bundleTail_idle h3, Bool.false_and,
    Bool.false_eq_true, if_false]
  rfl

theorem State.fourSlots_alu (h0 : slotRuns x0 ls = false) (h1 : slotRuns x0 mac = false) (h2 : slotRuns x0 alu = true)
    (h3 : slotRuns x0 br = false) : s.fourSlots g x0 ls mac alu br = s.setEng g (bundleEnd x0 (aluSlot x0 alu ⟨x0, []⟩).x) := by
  unfold State.fourSlots
  simp only [h0, h1, h2, h3, slotPart_idle, slotPart_runs, slotsCollide_alu _ h3, State.brSlot_idle, bundleTail_idle h3, Bool.false_and,
    Bool.false_eq_true, if_false]
  rfl

theorem State.fourSlots_ls (h0 : slotRuns x0 ls = true) (h1 : slotRuns x0 mac = false) (h2 : slotRuns x0 alu = false)
    (h3 : slotRuns x0 br = false) : s.fourSlots g x0 ls mac alu br =
      let r := s.lsSlot g x0 ls ⟨x0, []⟩
      if s.portADue g x0 ls then
        ((r.1.setEng g { bundleEnd x0 r.2.x with state := .fault }).engRaise g F.ENG_ERR.DUE).setFld (engErr g) F.ENG_ERR.FPC x0.pc
      else r.1.setEng g (bundleEnd x0 r.2.x) := by
  unfold State.fourSlots
  simp only [h0, h1, h2, h3, slotPart_idle, slotsCollide_ls _ h3, State.brSlot_idle, bundleTail_idle h3, Bool.true_and, Bool.false_eq_true,
    if_false, if_true]
  rfl

theorem State.fourSlots_br (h0 : slotRuns x0 ls = false) (h1 : slotRuns x0 mac = false) (h2 : slotRuns x0 alu = false)
    (h3 : slotRuns x0 br = true) : s.fourSlots g x0 ls mac alu br =
      let r := s.brSlot g x0 br true { x0 with wdog := x0.wdog - 1, stall := 0 }
      if brGap x0 br then ((r.1.setEng g r.2).gapCycle g).gapCycle g else r.1.setEng g r.2 := by
  unfold State.fourSlots
  simp only [h0, h1, h2, h3, slotPart_idle, slotsCollide_br, Bool.false_and, Bool.false_eq_true, if_false]
  rfl

theorem State.fourSlots_idle (h0 : slotRuns x0 ls = false) (h1 : slotRuns x0 mac = false) (h2 : slotRuns x0 alu = false)
    (h3 : slotRuns x0 br = false) : s.fourSlots g x0 ls mac alu br = s.setEng g (bundleEnd x0 x0) := by
  unfold State.fourSlots
  simp only [h0, h1, h2, h3, slotPart_idle, slotsCollide_br, State.brSlot_idle, bundleTail_idle h3, Bool.false_and, Bool.false_eq_true, if_false]
  rfl

theorem State.engEffects_mac (hw : SlotExecutes s g 1 w) (hidle : OthersIdle s g 1) :
    s.engEffects g (bundleOf s g) = s.setEng g (bundleEnd (s.eng g) (macSlot (s.eng g) w ⟨s.eng g, []⟩).x) := by
  rw [State.engEffects_eq, State.fourSlots_mac (hidle 0 (by decide) (by decide)) (hw.1 ▸ hw.2) (hidle 2 (by decide) (by decide))
    (hidle 3 (by decide) (by decide)), hw.1]

theorem State.engEffects_alu (hw : SlotExecutes s g 2 w) (hidle : OthersIdle s g 2) :
    s.engEffects g (bundleOf s g) = s.setEng g (bundleEnd (s.eng g) (aluSlot (s.eng g) w ⟨s.eng g, []⟩).x) := by
  rw [State.engEffects_eq, State.fourSlots_alu (hidle 0 (by decide) (by decide)) (hidle 1 (by decide) (by decide)) (hw.1 ▸ hw.2)
    (hidle 3 (by decide) (by decide)), hw.1]

theorem State.engEffects_ls (hw : SlotExecutes s g 0 w) (hidle : OthersIdle s g 0) : s.engEffects g (bundleOf s g) =
    let r := s.lsSlot g (s.eng g) w ⟨s.eng g, []⟩
    if s.portADue g (s.eng g) w then
      ((r.1.setEng g { bundleEnd (s.eng g) r.2.x with state := .fault }).engRaise g F.ENG_ERR.DUE).setFld (engErr g) F.ENG_ERR.FPC (s.eng g).pc
    else r.1.setEng g (bundleEnd (s.eng g) r.2.x) := by
  rw [State.engEffects_eq, State.fourSlots_ls (hw.1 ▸ hw.2) (hidle 1 (by decide) (by decide)) (hidle 2 (by decide) (by decide))
    (hidle 3 (by decide) (by decide)), hw.1]

theorem State.engEffects_br (hw : SlotExecutes s g 3 w) (hidle : OthersIdle s g 3) : s.engEffects g (bundleOf s g) =
    let r := s.brSlot g (s.eng g) w true { s.eng g with wdog := (s.eng g).wdog - 1, stall := 0 }
    if brGap (s.eng g) w then ((r.1.setEng g r.2).gapCycle g).gapCycle g else r.1.setEng g r.2 := by
  rw [State.engEffects_eq, State.fourSlots_br (hidle 0 (by decide) (by decide)) (hidle 1 (by decide) (by decide))
    (hidle 2 (by decide) (by decide)) (hw.1 ▸ hw.2), hw.1]

theorem State.engEffects_idle (h : ∀ j, j < 4 → slotRuns (s.eng g) (slotOf (bundleOf s g) j) = false) :
    s.engEffects g (bundleOf s g) = s.setEng g (bundleEnd (s.eng g) (s.eng g)) := by
  rw [State.engEffects_eq, State.fourSlots_idle (h 0 (by decide)) (h 1 (by decide)) (h 2 (by decide)) (h 3 (by decide))]

end

theorem bundleEnd_state (x y : EngSt) : (bundleEnd x y).state = y.state := by
  unfold bundleEnd EngSt.loopEnd EngSt.rotate
  split
  · rfl
  · dsimp only
    split_ifs <;> rfl

/-! ### Operations that change their engine alone -/

section
variable {s s1 : State} {d : Fin 4} {e : Fin 128} {dt g w i op : Nat}

/-- The command of an operation of slot `i`, in a bundle that is ready and has no illegal MTC. -/
theorem State.engCommand_of_ready (hg : engId d e = g) (hs : cycleOf s g dt = s1) (hready : BundleReady s1 g)
    (hmeets : slotOp (slotOf (bundleOf s1 g) i) = op) : s.engCommand i op d e dt =
      ((s1.issueBundle g ((s.advance (engPane g) dt).engTpend g)).wdogLast g (s1.eng g)).settlePortB g := by
  subst hg hs
  obtain ⟨hrun, hclk, hwdog, -, -⟩ := hready
  rw [State.engCommand_issues hrun hclk hwdog (.inl hmeets), State.engIssue, ← cycleOf]

/-- The same where the engine stays in RUN. -/
theorem State.engCommand_of_run {t : State} (hg : engId d e = g) (hs : cycleOf s g dt = s1) (hready : BundleReady s1 g)
    (hw : SlotExecutes s1 g i w) (hop : slotOp w = op) (hissue : s1.issueBundle g ((s.advance (engPane g) dt).engTpend g) = t)
    (hrun : (t.eng g).state = .run) : s.engCommand i op d e dt = t := by
  rw [State.engCommand_of_ready hg hs hready (by rw [hw.1, hop]), hissue, State.settled_of_run _ hrun]

/-- The command of an operation of the MAC or the ALU slot, where its slot alone executes. -/
theorem State.engCommand_computes {y : EngSt} (hi : i ≠ 0 ∧ i ≠ 3) (hg : engId d e = g) (hs : cycleOf s g dt = s1) (hready : BundleReady s1 g)
    (hw : SlotExecutes s1 g i w) (hidle : OthersIdle s1 g i) (hop : slotOp w = op) (hmtc : ¬ mtcIllegal (s1.eng g) (slotOf (bundleOf s1 g) 2))
    (heffects : s1.engEffects g (bundleOf s1 g) = s1.setEng g (bundleEnd (s1.eng g) y)) (hy : y.state = (s1.eng g).state) :
    s.engCommand i op d e dt = s1.setEng g (bundleEnd (s1.eng g) y) := by
  have h0 := hidle 0 (by decide) hi.1.symm
  have h3 := hidle 3 (by decide) hi.2.symm
  have hstall : ∀ pend, s1.engStall g (s1.eng g) (bundleOf s1 g) pend = 0 := fun pend => by rw [State.engStall_of_idle h0, if_neg (by simp [h3])]
  refine State.engCommand_of_run hg hs hready hw hop ((State.issueBundle_effects hready hmtc (hstall _) fun h => by simp [h3] at h).trans heffects) ?_
  rw [State.eng_setEng, if_pos rfl, bundleEnd_state, hy, hready.1]

end

/-! ### What works on the engine alone leaves its state -/

section
variable (a : EngW)

@[simp] theorem EngW.state_ite (c : Prop) [Decidable c] (b : EngW) : (if c then a else b).x.state = if c then a.x.state else b.x.state :=
  apply_ite (fun a : EngW => a.x.state) c a b

@[simp] theorem EngW.state_sets : (∀ x0 r v, (a.setV x0 r v).x.state = a.x.state) ∧ (∀ k v, (a.setX k v).x.state = a.x.state) ∧
    (∀ k re im, (a.setAcc k re im).x.state = a.x.state) ∧ (∀ v, (a.feed v).x.state = a.x.state) := by
  and_intros <;> intros <;> rfl

@[simp] theorem EngW.state_setP (n : Nat) (b : Bool) : (a.setP n b).x.state = a.x.state := by simp [EngW.setP]

@[simp] theorem EngW.state_alu (x0 : EngSt) (m d : Nat) (sat : Bool) (f : Nat → Int) : (a.alu x0 m d sat f).x.state = a.x.state := by simp [EngW.alu]

@[simp] theorem EngW.state_setControl (k : Nat) (v : Word) : (a.setControl k v).x.state = a.x.state := by
  unfold EngW.setControl
  split <;> simp

theorem aluSlot_state (x0 : EngSt) (w : Nat) : (aluSlot x0 w a).x.state = a.x.state := by
  unfold aluSlot
  split <;> simp

end

section
variable {cmd : Fin 4 → Fin 128 → Nat → Instr} {op : Nat} {post : EngSt → Nat → EngSt → Prop}

theorem engClaim_of_mac (hcmd : ∀ d e dt s, exec (cmd d e dt) s = .next (s.engCommand 1 op d e dt))
    (hpost : ∀ x w, slotOp w = op → post x w (macSlot x w ⟨x, []⟩).x ∧ (macSlot x w ⟨x, []⟩).x.state = x.state) : EngClaim cmd 1 op post := by
  intro s d e dt w g s1 x hready hw hidle hop _
  obtain ⟨hx, hstate⟩ := hpost x w hop
  refine ⟨_, hx, (hcmd d e dt s).trans (congrArg _ ?_)⟩
  exact State.engCommand_computes (by decide) rfl rfl hready hw hidle hop (not_mtcIllegal_of_idle (hidle 2 (by decide) (by decide)))
    (State.engEffects_mac hw hidle) hstate

theorem engClaim_of_alu (hcmd : ∀ d e dt s, exec (cmd d e dt) s = .next (s.engCommand 2 op d e dt))
    (hpost : ∀ x w, slotOp w = op → slotLegal 2 w = true → post x w (aluSlot x w ⟨x, []⟩).x) : EngClaim cmd 2 op post := by
  intro s d e dt w g s1 x hready hw hidle hop hrrb
  obtain ⟨-, -, -, -, hlegal⟩ := id hready
  refine ⟨_, hpost x w hop (hw.1 ▸ hlegal 2 (by decide)), (hcmd d e dt s).trans (congrArg _ ?_)⟩
  refine State.engCommand_computes (by decide) rfl rfl hready hw hidle hop ?_ (State.engEffects_alu hw hidle) (aluSlot_state _ _ _)
  rw [hw.1]
  exact fun ⟨_, h21, h2, hill⟩ => Bool.false_ne_true ((hrrb (hop.symm.trans h21) h2).symm.trans hill)

end

end Sys2Proof.Machine
end

section
/-!
PROOF. The MAC slot's products and sums (Table 6.5, R128).
-/
namespace Sys2Proof.Machine
open Sys2Proof.Claims

theorem satS_eq_clampTo (n : Nat) (v : Int) : satS n v = clampTo n v := satS_eq_clampedS n v

/-- An operation of the MAC slot that sets the accumulator of its word to `f` of the operands' halves and the accumulator. -/
theorem engClaim_of_setAcc {cmd : Fin 4 → Fin 128 → Nat → Instr} {op : Nat} {f : Int → Int → Int → Int → Int → Int → Int × Int}
    (hcmd : ∀ d e dt s, exec (cmd d e dt) s = .next (s.engCommand 1 op d e dt))
    (hf : ∀ x w, slotOp w = op →
      let r := f (reOf (x.vr (bitsOf w 17 12))) (imOf (x.vr (bitsOf w 17 12))) (reOf (x.vr (bitsOf w 11 6))) (imOf (x.vr (bitsOf w 11 6)))
        (SMap.get 0 x.aRe (bitsOf w 19 18)) (SMap.get 0 x.aIm (bitsOf w 19 18))
      macSlot x w ⟨x, []⟩ = EngW.setAcc ⟨x, []⟩ (bitsOf w 19 18) r.1 r.2) : EngClaim cmd 1 op (MacPost f) := by
  refine engClaim_of_mac hcmd fun x w hop => ?_
  rw [hf x w hop]
  refine ⟨?_, rfl⟩
  rw [MacPost, AccBecomes]
  dsimp only [EngW.setAcc, accClamp]
  simp only [satS_eq_clampTo]

/-- Settles O19: each operation sets the accumulator by `EngW.setAcc`, to the sums that the table gives. -/
theorem engineAccumulates : Obligations.EngineAccumulates := by
  refine ⟨engClaim_of_setAcc (fun _ _ _ _ => rfl) fun x w h => ?cmul, engClaim_of_setAcc (fun _ _ _ _ => rfl) fun x w h => ?cmac,
    engClaim_of_setAcc (fun _ _ _ _ => rfl) fun x w h => ?cmsu, engClaim_of_setAcc (fun _ _ _ _ => rfl) fun x w h => ?cmacj,
    engClaim_of_setAcc (fun _ _ _ _ => rfl) fun x w h => ?dmul, engClaim_of_setAcc (fun _ _ _ _ => rfl) fun x w h => ?dmac,
    engClaim_of_setAcc (fun _ _ _ _ => rfl) fun x w h => ?pwr, engClaim_of_setAcc (fun _ _ _ _ => rfl) fun x w h => ?ald,
    engClaim_of_setAcc (fun _ _ _ _ => rfl) fun x w h => ?aclr⟩
  case cmacj =>
    rw [macSlot, h]
    exact congrArg₂ (EngW.setAcc _ _) (add_assoc _ _ _) (add_sub_assoc _ _ _)
  case pwr =>
    rw [macSlot, h]
    exact congrArg (EngW.setAcc _ _ · _) (add_assoc _ _ _)
  all_goals
    rw [macSlot, h]
    rfl
end Sys2Proof.Machine
end

section
/-!
PROOF. The arithmetic and logic of the ALU slot (Table 6.7, R131): what one slot makes of the engine's registers, and the lanes of the results.
-/
namespace Sys2Proof.Machine
open Sys2Proof.Claims

/-! ### What a slot's writes come to -/

theorem EngW.x_alu_sat (x : EngSt) (m d : Nat) (f : Nat → Int) : (EngW.alu ⟨x, []⟩ x m d true f).x =
    { x with v := SMap.set 0 x.v (x.phys d) (pack m fun j => wrapTo (laneW m) (satS (laneW m) (f j))),
             estat := if decide (∃ j, j < laneN m ∧ clampTo (laneW m) (f j) ≠ f j) then x.estat ||| 4 else x.estat } := by
  have hany : ((List.range (laneN m)).any fun j => decide (satS (laneW m) (f j) ≠ f j)) =
      decide (∃ j, j < laneN m ∧ clampTo (laneW m) (f j) ≠ f j) := by
    rw [Bool.eq_iff_iff]
    simp [satS_eq_clampTo]
  unfold EngW.alu
  simp only [if_true, hany, true_and]
  split <;> rfl

section
variable {cmd : Fin 4 → Fin 128 → Nat → Instr} {op : Nat}

/-- An operation of the ALU slot that works lane by lane modulo 2^w. -/
theorem engClaim_of_lanes {f : Nat → Nat → Nat → Word → Word → Int} (hcmd : ∀ d e dt s, exec (cmd d e dt) s = .next (s.engCommand 2 op d e dt))
    (hf : ∀ x w, slotOp w = op → let m := bitsOf w 19 18
      ∃ g : Nat → Int, aluSlot x w ⟨x, []⟩ = EngW.alu ⟨x, []⟩ x m (bitsOf w 17 12) false g ∧
        ∀ j, g j = f m (bitsOf w 5 0) j (x.vr (bitsOf w 11 6)) (x.vr (bitsOf w 5 0))) : EngClaim cmd 2 op (LanePost f) := by
  refine engClaim_of_alu hcmd fun x w hop _ => ?_
  obtain ⟨g, halu, hg⟩ := hf x w hop
  rw [halu]
  refine ⟨_, rfl, fun j hj => ?_⟩
  rw [← hg]
  exact (congrArg Nat.cast (lane_pack_wrapTo _ hj)).trans (cast_wrapTo _ _)

/-- An operation of the ALU slot that saturates each lane. -/
theorem engClaim_of_satLanes {f : Nat → Nat → Word → Word → Int} (hcmd : ∀ d e dt s, exec (cmd d e dt) s = .next (s.engCommand 2 op d e dt))
    (hf : ∀ x w, slotOp w = op → slotLegal 2 w = true → let m := bitsOf w 19 18
      ∃ g : Nat → Int, aluSlot x w ⟨x, []⟩ = EngW.alu ⟨x, []⟩ x m (bitsOf w 17 12) true g ∧
        ∀ j, g j = f m j (x.vr (bitsOf w 11 6)) (x.vr (bitsOf w 5 0))) : EngClaim cmd 2 op (SatPost f) := by
  refine engClaim_of_alu hcmd fun x w hop hlegal => ?_
  obtain ⟨g, halu, hg⟩ := hf x w hop hlegal
  rw [halu, EngW.x_alu_sat]
  have hfun : (fun j => f (bitsOf w 19 18) j (x.vr (bitsOf w 11 6)) (x.vr (bitsOf w 5 0))) = g := funext fun j => (hg j).symm
  unfold SatPost
  extract_lets m h
  have hh : h = g := hfun
  rw [hh]
  refine ⟨_, rfl, fun j hj => ?_⟩
  rw [laneS, lane_pack_wrapTo _ hj, signedOf_wrapTo_satS (laneW_pos m)]
  rfl

/-- An operation of the ALU slot whose result is a word. -/
theorem engClaim_of_word {f : EngSt → Nat → Word} (hcmd : ∀ d e dt s, exec (cmd d e dt) s = .next (s.engCommand 2 op d e dt))
    (hf : ∀ x w, slotOp w = op → ∃ r, aluSlot x w ⟨x, []⟩ = EngW.setV ⟨x, []⟩ x (bitsOf w 17 12) r ∧ r = f x w) :
    EngClaim cmd 2 op (WordPost f) := by
  refine engClaim_of_alu hcmd fun x w hop _ => ?_
  obtain ⟨r, halu, rfl⟩ := hf x w hop
  rw [halu]
  rfl

end

/-! ### Lanes -/

theorem shr_lane (m j k : Nat) (a : Word) : (lane m j a : Int) / 2 ^ k = if k < laneW m then (lane m j a : Int) / 2 ^ k else 0 := by
  split
  case isTrue => rfl
  case isFalse h =>
    have hlt : lane m j a < 2 ^ k := (lane_lt m j a).trans_le (Nat.pow_le_pow_right (by decide) (Nat.le_of_not_lt h))
    exact_mod_cast Nat.div_eq_of_lt hlt

theorem sar_lane (m j k : Nat) (a : Word) :
    laneS m j a / 2 ^ k = if k < laneW m then laneS m j a / 2 ^ k else if laneS m j a < 0 then -1 else 0 := by
  split
  case isTrue => rfl
  case isFalse h => exact ediv_two_pow_eq_sign (Nat.le_of_not_lt h) (neg_two_pow_le_laneS m j a) (laneS_lt_two_pow m j a)

theorem abs_eq_ite (v : Int) : |v| = if v < 0 then -v else v := by
  split
  case isTrue h => exact abs_of_neg h
  case isFalse h => exact abs_of_nonneg (Int.not_lt.1 h)

theorem pack_swap (a : Word) : pack 1 (fun j => lane 1 (1 - j) a) = (a <<< 20) ||| (a >>> 20) := by
  have hhigh : a.toNat / 2 ^ 20 < 2 ^ 20 := Nat.div_lt_of_lt_mul a.isLt
  have hpack : (pack 1 fun j => lane 1 (1 - j) a).toNat = (a.toNat % 2 ^ 20) <<< 20 + a.toNat / 2 ^ 20 := by
    rw [pack, ← digits, laneN, laneW, digits_succ, digits_succ, Nat.shiftLeft_eq, BitVec.toNat_ofNat]
    simp only [digits, lane, laneW, List.range_zero, List.map_nil, List.sum_nil, Nat.mul_zero, Nat.pow_zero, Nat.mul_one, Nat.div_one, Nat.zero_add,
      Nat.mod_mod, Nat.sub_zero, Nat.sub_self, Nat.mod_eq_of_lt hhigh]
    omega
  have hlow : (a <<< 20).toNat = (a.toNat % 2 ^ 20) <<< 20 := by
    rw [BitVec.toNat_shiftLeft, Nat.shiftLeft_eq, Nat.shiftLeft_eq]
    omega
  refine BitVec.eq_of_toNat_eq ?_
  rw [hpack, Nat.shiftLeft_add_eq_or_of_lt hhigh, BitVec.toNat_or, hlow, BitVec.toNat_ushiftRight, Nat.shiftRight_eq_div_pow]

theorem mode_of_conj {w : Nat} (hop : slotOp w = 0x18) (hlegal : slotLegal 2 w = true) : bitsOf w 19 18 = 1 := by
  unfold slotLegal at hlegal
  rw [hop] at hlegal
  exact of_decide_eq_true (Bool.and_eq_true_iff.1 hlegal).1

/-- Settles O21: the lanes of each result are those of `EngW.alu`, and the words those of `EngW.setV`. -/
theorem engineArithmetic : Obligations.EngineArithmetic := by
  refine ⟨engClaim_of_lanes (fun _ _ _ _ => rfl) fun x w h => ⟨_, by rw [aluSlot, h]; rfl, fun j => ?add⟩,
    engClaim_of_lanes (fun _ _ _ _ => rfl) fun x w h => ⟨_, by rw [aluSlot, h]; rfl, fun j => ?sub⟩,
    engClaim_of_satLanes (fun _ _ _ _ => rfl) fun x w h _ => ⟨_, by rw [aluSlot, h]; rfl, fun j => ?adds⟩,
    engClaim_of_satLanes (fun _ _ _ _ => rfl) fun x w h _ => ⟨_, by rw [aluSlot, h]; rfl, fun j => ?subs⟩,
    engClaim_of_lanes (fun _ _ _ _ => rfl) fun x w h => ⟨_, by rw [aluSlot, h]; rfl, fun j => ?min⟩,
    engClaim_of_lanes (fun _ _ _ _ => rfl) fun x w h => ⟨_, by rw [aluSlot, h]; rfl, fun j => ?max⟩,
    engClaim_of_satLanes (fun _ _ _ _ => rfl) fun x w h _ => ⟨_, by rw [aluSlot, h]; rfl, fun j => ?abs⟩,
    engClaim_of_satLanes (fun _ _ _ _ => rfl) fun x w h _ => ⟨_, by rw [aluSlot, h]; rfl, fun j => ?neg⟩,
    engClaim_of_word (fun _ _ _ _ => rfl) fun x w h => ⟨_, by rw [aluSlot, h]; rfl, ?and⟩,
    engClaim_of_word (fun _ _ _ _ => rfl) fun x w h => ⟨_, by rw [aluSlot, h]; rfl, ?or⟩,
    engClaim_of_word (fun _ _ _ _ => rfl) fun x w h => ⟨_, by rw [aluSlot, h]; rfl, ?xor⟩,
    engClaim_of_lanes (fun _ _ _ _ => rfl) fun x w h => ⟨_, by rw [aluSlot, h]; rfl, fun j => ?shl⟩,
    engClaim_of_lanes (fun _ _ _ _ => rfl) fun x w h => ⟨_, by rw [aluSlot, h]; rfl, fun j => ?shr⟩,
    engClaim_of_lanes (fun _ _ _ _ => rfl) fun x w h => ⟨_, by rw [aluSlot, h]; rfl, fun j => ?sar⟩,
    engClaim_of_satLanes (fun _ _ _ _ => rfl) fun x w h hlegal => ⟨_, by rw [aluSlot, h, mode_of_conj h hlegal]; rfl, fun j => ?conj⟩,
    engClaim_of_word (fun _ _ _ _ => rfl) fun x w h => ⟨_, by rw [aluSlot, h]; rfl, ?swaph⟩⟩
  case min => exact min_def _ _
  case max => exact max_def _ _
  case abs => exact abs_eq_ite _
  case shr => exact shr_lane _ _ _ _
  case sar => exact sar_lane _ _ _ _
  case swaph => exact pack_swap _
  case conj => rw [mode_of_conj h hlegal]
  all_goals rfl
end Sys2Proof.Machine
end

section
/-!
PROOF. The moves from the accumulator with the rounding and the block-exponent tracker (R129, R130), and the ALU slot's moves, compares, control
registers and index registers (Tables 6.7 and 6.8).
-/
namespace Sys2Proof.Machine
open Sys2Proof.Claims

/-! ### Rounding and the tracker -/

theorem roundEven_nearest (k : Nat) (h : Int) : Nearest k h (roundEven k h) := by
  have hpos : (0 : Int) < 2 ^ k := by positivity
  have hlo := Int.ediv_mul_le h hpos.ne'
  have hhi := Int.lt_ediv_add_one_mul_self h hpos
  have hnext := add_one_mul (h / 2 ^ k) ((2 : Int) ^ k)
  dsimp only [Nearest, roundEven]
  split_ifs
  all_goals omega

theorem bitsNeeded_isM {v : Int} (hlo : -2 ^ 19 ≤ v) (hhi : v < 2 ^ 19) : IsM v (bitsNeeded v) := by
  have hfind : ((List.range 20).find? fun n => decide (-(2 ^ n) ≤ v ∧ v < 2 ^ n)).isSome = true := by
    rw [List.find?_isSome]
    exact ⟨19, by decide, decide_eq_true ⟨hlo, hhi⟩⟩
  obtain ⟨n, hn⟩ := Option.isSome_iff_exists.1 hfind
  rw [bitsNeeded, hn]
  obtain ⟨hfits, hlt, hleast⟩ := List.find?_range_eq_some.1 hn
  obtain ⟨h1, h2⟩ := of_decide_eq_true hfits
  refine ⟨Nat.le_of_lt_succ (List.mem_range.1 hlt), h1, h2, fun k hk => ?_⟩
  have := hleast k hk
  simp only [Bool.not_eq_true', decide_eq_false_iff_not, not_and, not_lt] at this
  by_cases hk : v < -(2 ^ k)
  · exact .inl hk
  · exact .inr (this (not_lt.1 hk))

theorem bitsNeeded_half (j : Nat) (v : Word) : IsM (laneS 1 j v) (bitsNeeded (laneS 1 j v)) :=
  bitsNeeded_isM (neg_two_pow_le_laneS 1 j v) (laneS_lt_two_pow 1 j v)

theorem EngW.feed_eq (a : EngW) (v : Word) :
    a.feed v = { a with x := { a.x with bexp := tracked a.x.bexp (max (bitsNeeded (reOf v)) (bitsNeeded (imOf v))) } } := by
  rw [max_comm (bitsNeeded (reOf v))]
  rfl

theorem EngSt.shift_eq (x : EngSt) : x.shift = moveShift x := by
  unfold EngSt.shift moveShift
  refine if_congr ?_ rfl rfl
  rw [BitVec.getLsbD, Nat.testBit_eq_decide_div_mod_eq, decide_eq_true_eq]
  rfl

theorem cleared_setAcc (w : Nat) (a : EngW) : (if w.testBit 6 then a.setAcc (bitsOf w 19 18) 0 0 else a).x = Cleared w a.x := by
  unfold Cleared
  split <;> rfl

theorem laneS_pack_satS {j : Nat} (hj : j < laneN 1) (f : Nat → Int) :
    laneS 1 j (pack 1 fun h => wrapTo 20 (satS 20 (f h))) = clampTo 20 (f j) := by
  rw [laneS]
  exact (congrArg _ (lane_pack_wrapTo (m := 1) (fun h => satS 20 (f h)) hj)).trans (signedOf_wrapTo_satS (by decide) _)

theorem toInt_ofInt_satS (q : Int) : (BitVec.ofInt 40 (satS 40 q)).toInt = clampTo 40 q := by
  rw [← satS_eq_clampTo, BitVec.toInt_ofInt_eq_self (by decide)]
  · exact le_max_left _ _
  · exact max_lt (by decide) ((min_le_right _ _).trans_lt (by decide))

/-- A slot's writes with MSAT noted where `hit` holds. -/
def EngW.noteMsat (a : EngW) (hit : Bool) : EngW := if hit then { a with x := { a.x with estat := a.x.estat ||| 1 } } else a

theorem EngW.x_noteMsat (a : EngW) (hit : Prop) [Decidable hit] :
    (a.noteMsat (decide hit)).x = { a.x with estat := if hit then a.x.estat ||| 1 else a.x.estat } := by
  unfold EngW.noteMsat
  by_cases h : hit
  · rw [if_pos h, if_pos (decide_eq_true h)]
  · rw [if_neg h, if_neg (by simpa using h)]

theorem EngW.x_moves (x : EngSt) (n : Nat) (r : Word) (hit : Prop) [Decidable hit] :
    (((EngW.setV ⟨x, []⟩ x n r).noteMsat (decide hit)).feed r).x = { x with
      v := SMap.set 0 x.v (x.phys n) r, bexp := tracked x.bexp (max (bitsNeeded (reOf r)) (bitsNeeded (imOf r))),
      estat := if hit then x.estat ||| 1 else x.estat } := by
  rw [EngW.feed_eq]
  dsimp only
  rw [EngW.x_noteMsat]
  rfl

/-- The word that MOVA writes: the halves of accumulator `k`, rounded and clamped. -/
def movedHalves (x : EngSt) (k : Nat) : Word :=
  pack 1 fun h => wrapTo 20 (satS 20 (if h = 1 then roundEven (19 + x.shift) (SMap.get 0 x.aRe k) else roundEven (19 + x.shift) (SMap.get 0 x.aIm k)))

theorem macSlot_mova {w : Nat} (x : EngSt) (h : slotOp w = 0x18) :
    let k := bitsOf w 19 18
    let qr := roundEven (19 + x.shift) (SMap.get 0 x.aRe k)
    let qi := roundEven (19 + x.shift) (SMap.get 0 x.aIm k)
    let r := movedHalves x k
    (macSlot x w ⟨x, []⟩).x = Cleared w { x with
      v := SMap.set 0 x.v (x.phys (bitsOf w 5 0)) r, bexp := tracked x.bexp (max (bitsNeeded (reOf r)) (bitsNeeded (imOf r))),
      estat := if clampTo 20 qr ≠ qr ∨ clampTo 20 qi ≠ qi then x.estat ||| 1 else x.estat } := by
  intro k qr qi r
  have hslot : macSlot x w ⟨x, []⟩ =
      let a := ((EngW.setV ⟨x, []⟩ x (bitsOf w 5 0) r).noteMsat (decide (satS 20 qr ≠ qr ∨ satS 20 qi ≠ qi))).feed r
      if w.testBit 6 then a.setAcc k 0 0 else a := by
    rw [macSlot, h]
    rfl
  rw [hslot, cleared_setAcc, EngW.x_moves, satS_eq_clampTo, satS_eq_clampTo]

theorem macSlot_movaw_eq {w : Nat} (x : EngSt) (h : slotOp w = 0x19) : macSlot x w ⟨x, []⟩ =
    let q := roundEven x.shift (SMap.get 0 x.aRe (bitsOf w 19 18))
    let a := (EngW.setV ⟨x, []⟩ x (bitsOf w 5 0) (BitVec.ofInt 40 (satS 40 q))).noteMsat (decide (satS 40 q ≠ q))
    if w.testBit 6 then a.setAcc (bitsOf w 19 18) 0 0 else a := by
  rw [macSlot, h]
  rfl

theorem macSlot_movaw {w : Nat} (x : EngSt) (h : slotOp w = 0x19) :
    let q := roundEven x.shift (SMap.get 0 x.aRe (bitsOf w 19 18))
    (macSlot x w ⟨x, []⟩).x = Cleared w { x with
      v := SMap.set 0 x.v (x.phys (bitsOf w 5 0)) (BitVec.ofInt 40 (satS 40 q)), estat := if clampTo 40 q ≠ q then x.estat ||| 1 else x.estat } := by
  intro q
  rw [macSlot_movaw_eq x h, cleared_setAcc, EngW.x_noteMsat, satS_eq_clampTo]
  rfl

theorem cleared_state (w : Nat) (x : EngSt) : (Cleared w x).state = x.state := by
  unfold Cleared
  split <;> rfl

theorem nearest_shift (x : EngSt) (k : Nat) (h : Int) : Nearest (k + moveShift x) h (roundEven (k + x.shift) h) := by
  rw [← EngSt.shift_eq]
  exact roundEven_nearest _ _

/-! ### Control, predicate and index registers -/

theorem EngSt.control_eq (x : EngSt) (k : Nat) : x.control k =
    if k = 0 then x.scl else if k = 1 then x.bexp else if k = 2 then x.rrb else if k ≤ 5 then BitVec.ofNat 40 (SMap.get 0 x.lc (k - 3))
    else if k = 6 then x.estat.setWidth 40 else if k = 7 then x.p.setWidth 40 else (SMap.get 0 x.x (k - 8)).setWidth 40 := by
  match k with
  | 0 | 1 | 2 | 3 | 4 | 5 | 6 | 7 => rfl
  | k + 8 => simp [EngSt.control, EngSt.xr]

theorem EngW.x_setControl (x : EngSt) {k : Nat} (v : Word) (h : k ≤ 2 ∨ 6 ≤ k) : (EngW.setControl ⟨x, []⟩ k v).x =
    if k = 0 then { x with scl := v &&& 0x7F }
    else if k = 1 then { x with bexp := v &&& 0xFF0F1F }
    else if k = 2 then { x with rrb := BitVec.ofNat 40 (bitsOf v.toNat 6 0 + 2 ^ 7 * (bitsOf v.toNat 12 7 % (8 * (bitsOf v.toNat 5 3 + 1)))) }
    else if k = 6 then { x with estat := v.setWidth 3 }
    else if k = 7 then { x with p := v.setWidth 8 ||| 1 }
    else { x with x := SMap.set 0 x.x (k - 8) (v.setWidth 20 &&& 0xF7FFF) } := by
  match k with
  | 0 | 1 | 6 | 7 => rfl
  | 2 => simp [EngW.setControl, bitsOf, rrbZ, Nat.mul_comm]
  | 3 | 4 | 5 => omega
  | k + 8 => simp [EngW.setControl]

theorem EngW.x_setP (a : EngW) (n : Nat) (b : Bool) : (a.setP n b).x = { a.x with p := withPred a.x.p n b } := by
  unfold EngW.setP withPred
  split <;> rfl

theorem getLsbD_withPred (p : BitVec 8) {n j : Nat} (b : Bool) (hn : n < 8) (hj : j < 8) :
    (withPred p n b).getLsbD j = if j = n ∧ j ≠ 0 then b else p.getLsbD j := by
  obtain rfl | hpos := Nat.eq_zero_or_pos n
  · rw [withPred, if_pos rfl, if_neg (by omega)]
  · rw [withPred, if_neg hpos.ne']
    rcases lt_trichotomy j n with hlt | rfl | hgt
    · cases b <;> simp [hj, hlt, hlt.ne]
    · cases b <;> simp [hj, hpos.ne']
    · cases b <;> simp [hj, hgt.ne', hgt.not_gt, Nat.sub_ne_zero_of_lt hgt]

theorem laneS_zero (v : Word) : laneS 0 0 v = v.toInt := by
  rw [laneS, lane_zero, signedOf_eq_toInt]
  exact congrArg _ (BitVec.ofNat_toNat _ _ |>.trans (BitVec.setWidth_eq _))

/-- The address part of a step stays below 2^15. -/
theorem wrapped_address_lt {a n m : Nat} (ha : a < 2 ^ 15) (hn : n ≤ 15) (hm : m < 2 ^ n) : a / 2 ^ n * 2 ^ n + m < 2 ^ 15 := by
  have hsplit : 2 ^ 15 = 2 ^ (15 - n) * 2 ^ n := by rw [← Nat.pow_add, Nat.sub_add_cancel hn]
  have hhigh : a / 2 ^ n < 2 ^ (15 - n) := Nat.div_lt_of_lt_mul (by rwa [Nat.mul_comm, ← hsplit])
  calc a / 2 ^ n * 2 ^ n + m < (a / 2 ^ n + 1) * 2 ^ n := by rw [Nat.add_one_mul]; omega
    _ ≤ 2 ^ (15 - n) * 2 ^ n := Nat.mul_le_mul_right _ hhigh
    _ = 2 ^ 15 := hsplit.symm

theorem addrX_eq_bitsOf (v : BitVec 20) : addrX v = bitsOf v.toNat 14 0 := (congrArg (· % 2 ^ 15) (Nat.div_one _)).symm

theorem stepX_eq_stepped (v : BitVec 20) (d : Int) : stepX v d = stepped v d := by
  have hmod : bitsOf v.toNat 19 16 = v.toNat / 2 ^ 16 := Nat.mod_eq_of_lt (by have := v.isLt; omega)
  have hlow : ∀ a n : Nat, ((((a % 2 ^ n : Nat) : Int) + d) % 2 ^ n).toNat = wrapTo n (a + d) := fun a n => by
    rw [wrapTo]
    push_cast
    rw [Int.emod_add_emod]
  dsimp only [stepX, stepped]
  rw [hmod, hlow, ← addrX_eq_bitsOf, addrX]
  have ha : v.toNat % 2 ^ 15 < 2 ^ 15 := Nat.mod_lt _ (by decide)
  by_cases hm : v.toNat / 2 ^ 16 = 0
  · rw [if_pos hm, if_pos hm, Nat.mod_eq_of_lt (wrapTo_lt 15 _), Nat.div_eq_of_lt ha, Nat.zero_mul, Nat.zero_add]
    rfl
  · rw [if_neg hm, if_neg hm, Nat.mod_eq_of_lt (wrapped_address_lt ha (by have := v.isLt; omega) (wrapTo_lt _ _))]
    rfl

theorem mtc_code {w : Nat} (hop : slotOp w = 0x21) (hlegal : slotLegal 2 w = true) : bitsOf w 17 12 ≤ 2 ∨ 6 ≤ bitsOf w 17 12 := by
  unfold slotLegal at hlegal
  rw [hop] at hlegal
  exact (of_decide_eq_true (Bool.and_eq_true_iff.1 hlegal).2).imp_right And.left

section
variable {cmd : Fin 4 → Fin 128 → Nat → Instr} {op : Nat}

/-- A compare or PSET: an operation of the ALU slot that writes predicate PD. -/
theorem engClaim_of_setP {f : Nat → Word → Word → Bool} (hcmd : ∀ d e dt s, exec (cmd d e dt) s = .next (s.engCommand 2 op d e dt))
    (hf : ∀ x w, slotOp w = op → ∃ b, aluSlot x w ⟨x, []⟩ = EngW.setP ⟨x, []⟩ (bitsOf w 14 12) b ∧
      b = f w (x.vr (bitsOf w 11 6)) (x.vr (bitsOf w 5 0))) : EngClaim cmd 2 op (PredPost f) := by
  refine engClaim_of_alu hcmd fun x w hop _ => ?_
  obtain ⟨b, halu, rfl⟩ := hf x w hop
  rw [halu, EngW.x_setP]
  refine ⟨_, rfl, fun n hn => ?_⟩
  exact getLsbD_withPred _ _ (Nat.mod_lt _ (by decide)) hn

end

/-- Settles O20: each slot's writes are those of its row, the moves by `roundEven` and the tracker by `bitsNeeded`. -/
theorem engineMovesAndControl : Obligations.EngineMovesAndControl := by
  refine ⟨⟨engClaim_of_mac (fun _ _ _ _ => rfl) fun x w h => ⟨?mova, ?movaState⟩,
    engClaim_of_mac (fun _ _ _ _ => rfl) fun x w h => ⟨?movaw, ?movawState⟩⟩,
    engClaim_of_word (fun _ _ _ _ => rfl) fun x w h => ⟨_, by rw [aluSlot, h]; rfl, ?mov⟩,
    engClaim_of_word (fun _ _ _ _ => rfl) fun x w h => ⟨_, by rw [aluSlot, h]; rfl, ?movi⟩,
    engClaim_of_word (fun _ _ _ _ => rfl) fun x w h => ⟨_, by rw [aluSlot, h]; rfl, ?movk⟩,
    engClaim_of_setP (fun _ _ _ _ => rfl) fun x w h => ⟨_, by rw [aluSlot, h]; rfl, ?cmpeq⟩,
    engClaim_of_setP (fun _ _ _ _ => rfl) fun x w h => ⟨_, by rw [aluSlot, h]; rfl, ?cmplt⟩,
    engClaim_of_setP (fun _ _ _ _ => rfl) fun x w h => ⟨_, by rw [aluSlot, h]; rfl, ?cmpltu⟩,
    engClaim_of_setP (fun _ _ _ _ => rfl) fun x w h => ⟨_, by rw [aluSlot, h]; rfl, ?pset⟩,
    engClaim_of_word (fun _ _ _ _ => rfl) fun x w h => ⟨_, by rw [aluSlot, h]; rfl, ?mfc⟩,
    engClaim_of_alu (fun _ _ _ _ => rfl) fun x w h hlegal => ?mtc,
    engClaim_of_alu (fun _ _ _ _ => rfl) fun x w h _ => ?xadd,
    engClaim_of_alu (fun _ _ _ _ => rfl) fun x w h _ => ?xcp,
    engClaim_of_alu (fun _ _ _ _ => rfl) fun x w h _ => ?bxt⟩
  case mova =>
    exact ⟨_, _, movedHalves x (bitsOf w 19 18), _, _, nearest_shift x 19 _, nearest_shift x 19 _, laneS_pack_satS (j := 1) (by decide) _,
      laneS_pack_satS (j := 0) (by decide) _, bitsNeeded_half 1 _, bitsNeeded_half 0 _, macSlot_mova x h⟩
  case movaState =>
    rw [macSlot_mova x h, cleared_state]
  case movaw =>
    have hnear := nearest_shift x 0 (SMap.get 0 x.aRe (bitsOf w 19 18))
    simp only [Nat.zero_add] at hnear
    exact ⟨_, _, hnear, toInt_ofInt_satS _, macSlot_movaw x h⟩
  case movawState =>
    rw [macSlot_movaw x h, cleared_state]
  case mov => rfl
  case movi => exact congrArg _ (signedOf_eq_toInt 12 _)
  case movk =>
    refine BitVec.eq_of_toNat_eq ((BitVec.toNat_ofNat _ _).trans ?_)
    have himm : bitsOf w 11 0 < 2 ^ 12 := Nat.mod_lt _ (by decide)
    rw [toNat_movk _ himm]
    omega
  case cmpeq => rfl
  case cmplt => rw [laneS_zero, laneS_zero]
  case cmpltu => rfl
  case pset => rfl
  case mfc => exact x.control_eq _
  case mtc =>
    rw [aluSlot, h]
    exact EngW.x_setControl x _ (mtc_code h hlegal)
  case xadd =>
    intro k
    rw [← stepX_eq_stepped, ← signedOf_eq_toInt, aluSlot, h]
    rfl
  case xcp =>
    rw [aluSlot, h]
    rfl
  case bxt =>
    refine ⟨_, _, bitsNeeded_half 1 _, bitsNeeded_half 0 _, ?_⟩
    rw [aluSlot, h]
    exact congrArg EngW.x (EngW.feed_eq _ _)
end Sys2Proof.Machine
end

section
/-!
PROOF. What an engine that errs shows (R134, R142–R144): the error bits of ENG_ERR, an entry into FAULT, and a watchdog that expires.
-/
namespace Sys2Proof.Machine
open Sys2Proof.Claims

/-! ### The registers of an engine -/

theorem engErr_ne_engSig (g d e : Nat) : engErr g ≠ R.ENG_SIG d e := by
  unfold engErr R.ENG_ERR R.ENG_SIG
  omega

theorem engErr_ne_engWdt (g d e : Nat) : engErr g ≠ R.ENG_WDT d e := by
  unfold engErr R.ENG_ERR R.ENG_WDT
  omega

theorem engWdt_ne_engSig (d e d' e' : Nat) : R.ENG_WDT d e ≠ R.ENG_SIG d' e' := by
  unfold R.ENG_SIG R.ENG_WDT
  omega

/-- From `s` to `t` only engines and registers have changed. -/
def EngsRegsDiffer (s t : State) : Prop := ∃ es rs, t = { s with engs := es, regs := rs }

namespace EngsRegsDiffer

variable {s t : State}

theorem refl (s : State) : EngsRegsDiffer s s := ⟨_, _, rfl⟩

theorem setEng (h : EngsRegsDiffer s t) (g : Nat) (x : EngSt) : EngsRegsDiffer s (t.setEng g x) := by
  obtain ⟨_, _, rfl⟩ := h
  exact ⟨_, _, rfl⟩

theorem setFld (h : EngsRegsDiffer s t) (off : Nat) (f : Fld) (n : Nat) : EngsRegsDiffer s (t.setFld off f n) := by
  obtain ⟨_, _, rfl⟩ := h
  exact ⟨_, _, rfl⟩

theorem frame (h : EngsRegsDiffer s t) : t = { s with engs := t.engs, regs := t.regs } := by
  obtain ⟨_, _, rfl⟩ := h
  rfl

theorem dm (h : EngsRegsDiffer s t) : t.dm = s.dm := by
  obtain ⟨_, _, rfl⟩ := h
  rfl

end EngsRegsDiffer

theorem regsBut_setFld {s t : State} {offs : List Nat} (h : RegsBut s t offs) {off : Nat} (hoff : off ∈ offs) (f : Fld) (n : Nat) :
    RegsBut s (t.setFld off f n) offs := fun o ho =>
  (State.reg_setFld_other t f n fun heq : o = off => ho (heq ▸ hoff)).trans (h o ho)

theorem regsBut_setEng {s t : State} {offs : List Nat} (h : RegsBut s t offs) (g : Nat) (x : EngSt) : RegsBut s (t.setEng g x) offs :=
  fun o ho => h o ho

theorem regsBut_mono {s t : State} {offs offs' : List Nat} (h : RegsBut s t offs) (hsub : offs ⊆ offs') : RegsBut s t offs' :=
  fun o ho => h o fun hm => ho (hsub hm)

theorem State.flag_eq_of_fld_eq {s t : State} {off off' : Nat} {f f' : Fld} (h : t.fld off f = s.fld off' f') : t.flag off f = s.flag off' f' := by
  rw [State.flag, h, State.flag]

/-! ### Error bits -/

/-- An error bit of ENG_ERR lies above SLOT and FPC. -/
abbrev EngErrBit (f : Fld) : Prop := f.lo = f.hi ∧ 23 ≤ f.lo ∧ f.hi < 32

section
variable (s : State) (g : Nat) {f f' : Fld}

theorem State.eng_setFld (off : Nat) (f : Fld) (n : Nat) : (s.setFld off f n).eng = s.eng := State.eng_congr_aside (s.aside_setFld off f n)

theorem State.eng_engRaise (f : Fld) : (s.engRaise g f).eng = s.eng := State.eng_congr_aside (s.aside_engRaise g f)

theorem engsRegsDiffer_engRaise (f : Fld) : EngsRegsDiffer s (s.engRaise g f) :=
  iteInduction (fun _ => .refl s) fun _ => ((EngsRegsDiffer.refl s).setFld _ _ _).setFld _ _ _

theorem regsBut_engRaise (f : Fld) : RegsBut s (s.engRaise g f) [engErr g, R.ENG_SIG (engDie g) (engIx g)] :=
  iteInduction (motive := (RegsBut s · _)) (fun _ _ _ => rfl) fun _ =>
    regsBut_setFld (regsBut_setFld (fun _ _ => rfl) List.mem_cons_self _ _) (List.mem_cons_of_mem _ List.mem_cons_self) _ _

theorem State.fld_engPend_engErr (f : Fld) : (s.engPend g).fld (engErr g) f = s.fld (engErr g) f :=
  State.fld_setFld_reg s _ _ _ (engErr_ne_engSig _ _ _)

theorem State.flag_engRaise_same (h : EngErrBit f) : (s.engRaise g f).flag (engErr g) f = true := by
  obtain ⟨hlo, -, hhi⟩ := h
  refine iteInduction (motive := fun t : State => t.flag (engErr g) f = true) id fun _ => ?_
  exact (State.flag_eq_of_fld_eq (State.fld_engPend_engErr _ g f)).trans (State.flag_setFld_one s _ f hlo.le hhi)

theorem State.fld_engRaise_other (h : EngErrBit f) (h' : f'.lo ≤ f'.hi) (hne : f'.hi < f.lo ∨ f.hi < f'.lo) :
    (s.engRaise g f).fld (engErr g) f' = s.fld (engErr g) f' := by
  obtain ⟨hlo, -, hhi⟩ := h
  refine iteInduction (motive := fun t : State => t.fld (engErr g) f' = s.fld (engErr g) f') (fun _ => rfl) fun _ => ?_
  exact (State.fld_engPend_engErr _ g f').trans (State.fld_setFld_other s _ f f' _ hlo.le hhi h' hne)

end

/-! ### Entry into FAULT (R143) -/

section
variable (s : State) (g : Nat) {f : Fld}

/-- What a fault that leaves its bundle without effect shows. -/
structure FaultShown (s t : State) (g : Nat) (f : Fld) : Prop where
  eng : t.eng g = { s.eng g with state := .fault, stall := 0, wdog := (s.eng g).wdog - 1 }
  others : ∀ h, h ≠ g → t.eng h = s.eng h
  fpc : t.fld (engErr g) F.ENG_ERR.FPC = (s.eng g).pc % 4096
  regs : RegsBut s t [engErr g, R.ENG_SIG (engDie g) (engIx g)]
  frame : EngsRegsDiffer s t
  raised : t.flag (engErr g) f = true

/-- The state in which a fault has set its bit and FPC. -/
theorem fault_noted (h : EngErrBit f) (pc : Nat) : let t := (s.engRaise g f).setFld (engErr g) F.ENG_ERR.FPC pc
    t.fld (engErr g) F.ENG_ERR.FPC = pc % 4096 ∧ t.flag (engErr g) f = true ∧
    RegsBut s t [engErr g, R.ENG_SIG (engDie g) (engIx g)] ∧ EngsRegsDiffer s t ∧ t.eng = s.eng := by
  obtain ⟨hlo, hge, hhi⟩ := id h
  refine ⟨State.fld_setFld_same _ _ _ _ (by decide) (by decide), ?_, regsBut_setFld (regsBut_engRaise s g f) List.mem_cons_self _ _,
    (engsRegsDiffer_engRaise s g f).setFld _ _ _, by rw [State.eng_setFld, State.eng_engRaise]⟩
  rw [State.flag_setFld_other _ _ _ _ _ (by decide) (by decide) hlo.le (.inr (lt_of_lt_of_le (by decide) hge)), State.flag_engRaise_same _ _ h]

/-- The registers and the SLOT that a fault notes. -/
def State.faultNotes (s : State) (g : Nat) (f : Fld) (slot : Option Nat) : State :=
  slot.elim ((s.engRaise g f).setFld (engErr g) F.ENG_ERR.FPC (s.eng g).pc)
    (((s.engRaise g f).setFld (engErr g) F.ENG_ERR.FPC (s.eng g).pc).setFld (engErr g) F.ENG_ERR.SLOT ·)

theorem State.engFault_eq (slot : Option Nat) : s.engFault g f slot =
    (s.faultNotes g f slot).setEng g { s.eng g with state := .fault, stall := 0, wdog := (s.eng g).wdog - 1 } := by
  cases slot <;> rfl

theorem State.fld_setEng (x : EngSt) (off : Nat) (f : Fld) : (s.setEng g x).fld off f = s.fld off f := rfl

theorem State.flag_setEng (x : EngSt) (off : Nat) (f : Fld) : (s.setEng g x).flag off f = s.flag off f := rfl

theorem faultNotes_shows (h : EngErrBit f) (slot : Option Nat) : let t := s.faultNotes g f slot
    t.fld (engErr g) F.ENG_ERR.FPC = (s.eng g).pc % 4096 ∧ t.flag (engErr g) f = true ∧
    RegsBut s t [engErr g, R.ENG_SIG (engDie g) (engIx g)] ∧ EngsRegsDiffer s t ∧ t.eng = s.eng := by
  obtain ⟨hfpc, hflag, hregs, hframe, heng⟩ := fault_noted s g h (s.eng g).pc
  cases slot with
  | none => exact ⟨hfpc, hflag, hregs, hframe, heng⟩
  | some i =>
    obtain ⟨hlo, hge, hhi⟩ := h
    refine ⟨?_, ?_, regsBut_setFld hregs List.mem_cons_self _ _, hframe.setFld _ _ _, (State.eng_setFld _ _ _ _).trans heng⟩
    · exact (State.fld_setFld_other _ _ _ _ _ (by decide) (by decide) (by decide) (by decide)).trans hfpc
    · exact (State.flag_setFld_other _ _ _ _ _ (by decide) (by decide) hlo.le (.inr (lt_of_lt_of_le (by decide) hge))).trans hflag

theorem faultShown_engFault (h : EngErrBit f) (slot : Option Nat) : FaultShown s (s.engFault g f slot) g f := by
  obtain ⟨hfpc, hflag, hregs, hframe, heng⟩ := faultNotes_shows s g h slot
  rw [State.engFault_eq]
  refine ⟨by rw [State.eng_setEng, if_pos rfl], fun k hk => by rw [State.eng_setEng, if_neg hk, heng], ?_, hregs, hframe.setEng _ _, ?_⟩
  · rw [State.fld_setEng, hfpc]
  · rw [State.flag_setEng, hflag]

theorem fld_slot_engFault (f : Fld) {i : Nat} (hi : i < 4) : (s.engFault g f (some i)).fld (engErr g) F.ENG_ERR.SLOT = i := by
  rw [State.engFault_eq, State.fld_setEng]
  exact (State.fld_setFld_same _ _ _ _ (by decide) (by decide)).trans (Nat.mod_eq_of_lt hi)

end

/-! ### The watchdog (R144) -/

/-- What a watchdog that expires shows. -/
structure Expired (s t : State) (g : Nat) : Prop where
  wdx : t.flag (engErr g) F.ENG_ERR.WDX = true
  expd : t.flag (R.ENG_WDT (engDie g) (engIx g)) F.ENG_WDT.EXPD = true
  others : ∀ h, h ≠ g → t.eng h = s.eng h
  regs : RegsBut s t [engErr g, R.ENG_SIG (engDie g) (engIx g), R.ENG_WDT (engDie g) (engIx g)]
  frame : EngsRegsDiffer s t
  kept : ∀ f, f.lo ≤ f.hi → f.hi < F.ENG_ERR.WDX.lo ∨ F.ENG_ERR.WDX.hi < f.lo → t.fld (engErr g) f = s.fld (engErr g) f
  eng : let w := R.ENG_WDT (engDie g) (engIx g)
    t.eng g = if s.fld w F.ENG_WDT.ACT = 0 then
      { s.eng g with wdog := s.fld w F.ENG_WDT.PERIOD * 1024, wdLoad := s.fld w F.ENG_WDT.PERIOD }
    else { s.eng g with state := .fault, stall := 0, wdog := 0 }

/-- The registers that an expiry notes. -/
def State.expiryNotes (s : State) (g : Nat) : State :=
  (s.engRaise g F.ENG_ERR.WDX).setFld (R.ENG_WDT (engDie g) (engIx g)) F.ENG_WDT.EXPD 1

theorem State.wdogExpires_eq (s : State) (g : Nat) : s.wdogExpires g = (s.expiryNotes g).setEng g
    (if s.fld (R.ENG_WDT (engDie g) (engIx g)) F.ENG_WDT.ACT = 0 then (s.expiryNotes g).reloadWdog g (s.eng g)
      else { s.eng g with state := .fault, stall := 0, wdog := 0 }) := by
  rw [State.wdogExpires, State.expiryNotes, apply_ite (State.setEng _ g)]

theorem State.fld_expiryNotes_engErr (s : State) (g : Nat) (f : Fld) :
    (s.expiryNotes g).fld (engErr g) f = (s.engRaise g F.ENG_ERR.WDX).fld (engErr g) f := State.fld_setFld_reg _ _ _ _ (engErr_ne_engWdt _ _ _)

theorem State.fld_expiryNotes_period (s : State) (g : Nat) : (s.expiryNotes g).fld (R.ENG_WDT (engDie g) (engIx g)) F.ENG_WDT.PERIOD =
    s.fld (R.ENG_WDT (engDie g) (engIx g)) F.ENG_WDT.PERIOD := by
  rw [State.expiryNotes, State.fld_setFld_other _ _ _ _ _ (by decide) (by decide) (by decide) (by decide), State.fld, State.fld, regsBut_engRaise]
  simp [(engErr_ne_engWdt _ _ _).symm, engWdt_ne_engSig]

theorem expiryNotes_shows (s : State) (g : Nat) : let t := s.expiryNotes g
    t.flag (engErr g) F.ENG_ERR.WDX = true ∧ t.flag (R.ENG_WDT (engDie g) (engIx g)) F.ENG_WDT.EXPD = true ∧
    RegsBut s t [engErr g, R.ENG_SIG (engDie g) (engIx g), R.ENG_WDT (engDie g) (engIx g)] ∧ EngsRegsDiffer s t ∧ t.eng = s.eng ∧
    ∀ f, f.lo ≤ f.hi → f.hi < F.ENG_ERR.WDX.lo ∨ F.ENG_ERR.WDX.hi < f.lo → t.fld (engErr g) f = s.fld (engErr g) f := by
  refine ⟨?_, State.flag_setFld_one _ _ _ (by decide) (by decide), ?_, (engsRegsDiffer_engRaise s g _).setFld _ _ _,
    (State.eng_setFld _ _ _ _).trans (State.eng_engRaise _ _ _), fun f h1 h2 => ?_⟩
  · exact (State.flag_eq_of_fld_eq (s.fld_expiryNotes_engErr g _)).trans (State.flag_engRaise_same s g (by decide))
  · exact regsBut_setFld (regsBut_mono (regsBut_engRaise s g _) (by simp)) (by simp) _ _
  · rw [s.fld_expiryNotes_engErr g f]
    exact State.fld_engRaise_other s g (f := F.ENG_ERR.WDX) (by decide) h1 h2

theorem expired_wdogExpires (s : State) (g : Nat) : Expired s (s.wdogExpires g) g := by
  obtain ⟨hwdx, hexpd, hregs, hframe, heng, hkept⟩ := expiryNotes_shows s g
  rw [State.wdogExpires_eq]
  refine ⟨(State.flag_setEng _ _ _ _ _).trans hwdx, (State.flag_setEng _ _ _ _ _).trans hexpd, fun h hh => ?_, regsBut_setEng hregs g _,
    hframe.setEng _ _, fun f h1 h2 => (State.fld_setEng _ _ _ _ _).trans (hkept f h1 h2), ?_⟩
  · rw [State.eng_setEng, if_neg hh, heng]
  · rw [State.eng_setEng, if_pos rfl, State.reloadWdog, State.fld_expiryNotes_period]

section
variable {s : State} {g : Nat} {was : EngSt}

theorem State.wdogLast_stays (h : (s.eng g).wdLoad = 0 ∨ (s.eng g).wdog ≠ 0) : s.wdogLast g was = s := if_neg fun ⟨_, _, hdue⟩ => by
  obtain ⟨h1, h2⟩ := of_decide_eq_true hdue
  exact h.elim h1 fun h => h h2

theorem State.wdogLast_expires (hstate : (s.eng g).state ≠ .run) (hwas : was.wdog ≠ 0) (hload : (s.eng g).wdLoad ≠ 0) (hzero : (s.eng g).wdog = 0) :
    s.wdogLast g was = s.wdogExpires g := if_pos ⟨hstate, hwas, decide_eq_true ⟨hload, hzero⟩⟩

/-- An engine in FAULT stays there where its last cycle brought the watchdog to 0, and its error bits stay set. -/
theorem State.wdogLast_faulted (hfault : (s.eng g).state = .fault) : ((s.wdogLast g was).eng g).state = .fault ∧ (s.wdogLast g was).dm = s.dm ∧
    ∀ f, f.lo ≤ f.hi → f.hi < F.ENG_ERR.WDX.lo ∨ F.ENG_ERR.WDX.hi < f.lo →
      (s.wdogLast g was).flag (engErr g) f = s.flag (engErr g) f := by
  unfold State.wdogLast
  split
  case isFalse => exact ⟨hfault, rfl, fun _ _ _ => rfl⟩
  have h := expired_wdogExpires s g
  refine ⟨?_, h.frame.dm, fun f h1 h2 => State.flag_eq_of_fld_eq (h.kept f h1 h2)⟩
  rw [h.eng]
  split
  · exact hfault
  · rfl

end

end Sys2Proof.Machine
end

section
/-!
PROOF. The LS slot (Table 6.9): loads and stores of data memory, the streams, and the transom requests (R133–R137).
-/
namespace Sys2Proof.Machine
open Sys2Proof.Claims

/-! ### Commands of the LS slot -/

theorem engDie_engId (d : Fin 4) (e : Fin 128) : engDie (engId d e) = d := by
  unfold engDie engId
  omega

theorem engIx_engId (d : Fin 4) (e : Fin 128) : engIx (engId d e) = e := by
  unfold engIx engId
  omega

theorem State.lsSlot_state (s : State) (g : Nat) (x0 : EngSt) (w : Nat) (a : EngW) : (s.lsSlot g x0 w a).2.x.state = a.x.state := by
  unfold State.lsSlot
  split <;> simp

/-- The stall that a word of the LS slot meets, no other slot executing. -/
def State.lsStall (s : State) (g : Nat) (x : EngSt) (w pend : Nat) : Nat :=
  let i := bitsOf w 13 13
  if slotOp w = 0x08 ∧ w.testBit 6 ∧ s.engServed g i false ∧ ¬ (s.popEngine (engPane g) (s.engBinding g i false).2.1 (s.engBinding g i false).2.2).1.2.2
  then 1
  else if slotOp w = 0x09 ∧ w.testBit 6 ∧ s.engServed g i true ∧
      ¬ s.canPush (engPane g) (s.engBinding g i true).2.1 (s.engBinding g i true).2.2 (x.vr (bitsOf w 19 14)) (w.testBit 12) then 2
  else if (slotOp w = 0x10 ∨ slotOp w = 0x11) ∧ (16 ≤ pend ∨ (s.freeTag (engPort g) 16 = none ∧ ¬ (slotOp w = 0x11 ∧ w.testBit 5))) then 3
  else 0

theorem State.engStall_ls {s : State} {g w b pend : Nat} {x : EngSt} (hslot : slotOf b 0 = w) (hruns : slotRuns x w = true)
    (hidle : slotRuns x (slotOf b 3) = false) : s.engStall g x b pend = s.lsStall g x w pend := by
  subst hslot
  simp [State.engStall, State.lsStall, hruns, hidle]

section
variable {s s1 t : State} {d : Fin 4} {e : Fin 128} {dt g w op c : Nat} {y : EngW}

theorem State.engCommand_ls (hg : engId d e = g) (hs : cycleOf s g dt = s1) (hready : BundleReady s1 g) (hw : SlotExecutes s1 g 0 w)
    (hidle : OthersIdle s1 g 0) (hop : slotOp w = op) (hstall : s1.lsStall g (s1.eng g) w ((s.advance (engPane g) dt).engTpend g) = 0)
    (hdue : s1.portADue g (s1.eng g) w = false) (hslot : s1.lsSlot g (s1.eng g) w ⟨s1.eng g, []⟩ = (t, y)) :
    s.engCommand 0 op d e dt = t.setEng g (bundleEnd (s1.eng g) y.x) := by
  have h3 := hidle 3 (by decide) (by decide)
  refine State.engCommand_of_run hg hs hready hw hop ?_ ?_
  · rw [State.issueBundle_effects hready (not_mtcIllegal_of_idle (hidle 2 (by decide) (by decide))) ?_ fun h => by simp [h3] at h,
      State.engEffects_ls hw hidle, if_neg (by simp [hdue]), hslot]
    rw [State.engStall_ls hw.1 hw.2 h3, hstall]
  · have hstate := s1.lsSlot_state g (s1.eng g) w ⟨s1.eng g, []⟩
    rw [hslot] at hstate
    rw [State.eng_setEng, if_pos rfl, bundleEnd_state, hstate, hready.1]

theorem State.engCommand_lsStalls (hg : engId d e = g) (hs : cycleOf s g dt = s1) (hready : BundleReady s1 g) (hw : SlotExecutes s1 g 0 w)
    (hidle : OthersIdle s1 g 0) (hop : slotOp w = op) (hc : c ≠ 0)
    (hstall : s1.lsStall g (s1.eng g) w ((s.advance (engPane g) dt).engTpend g) = c) : s.engCommand 0 op d e dt =
      (s1.addSat (R.ENG_STALLS d e) F.ENG_STALLS.COUNT 1).setEng g { s1.eng g with stall := c, wdog := (s1.eng g).wdog - 1 } := by
  refine State.engCommand_of_run hg hs hready hw hop ?_ ?_
  · rw [State.issueBundle_ready hready (not_mtcIllegal_of_idle (hidle 2 (by decide) (by decide))),
      State.engStall_ls hw.1 hw.2 (hidle 3 (by decide) (by decide)), hstall, if_pos hc, ← hg, engDie_engId, engIx_engId]
  · rw [State.eng_setEng, if_pos rfl, hready.1]

/-- An uncorrectable word that port A reads faults the engine after the bundle (R134). -/
theorem State.engCommand_lsDue (hg : engId d e = g) (hs : cycleOf s g dt = s1) (hready : BundleReady s1 g) (hw : SlotExecutes s1 g 0 w)
    (hidle : OthersIdle s1 g 0) (hop : slotOp w = op) (hstall : s1.lsStall g (s1.eng g) w ((s.advance (engPane g) dt).engTpend g) = 0)
    (hdue : s1.portADue g (s1.eng g) w = true) (hdm : (s1.lsSlot g (s1.eng g) w ⟨s1.eng g, []⟩).1.dm = s1.dm) :
    ∃ t : State, s.engCommand 0 op d e dt = t.settlePortB g ∧ (t.eng g).state = .fault ∧ t.flag (engErr g) F.ENG_ERR.DUE = true ∧ t.dm = s1.dm := by
  have h3 := hidle 3 (by decide) (by decide)
  have heffects := State.issueBundle_effects (pend := (s.advance (engPane g) dt).engTpend g) hready
    (not_mtcIllegal_of_idle (hidle 2 (by decide) (by decide))) (by rw [State.engStall_ls hw.1 hw.2 h3, hstall]) fun h => by simp [h3] at h
  rw [State.engEffects_ls hw hidle, if_pos hdue] at heffects
  refine ⟨_, (State.engCommand_of_ready hg hs hready (by rw [hw.1, hop])).trans (by rw [heffects]), ?_⟩
  generalize hr : s1.lsSlot g (s1.eng g) w ⟨s1.eng g, []⟩ = r at hdm ⊢
  obtain ⟨-, hflag, -, hframe, heng⟩ := fault_noted (r.1.setEng g { bundleEnd (s1.eng g) r.2.x with state := .fault }) g
    (f := F.ENG_ERR.DUE) (by decide) (s1.eng g).pc
  have hfault := congrArg EngSt.state ((congrFun heng g).trans (State.eng_setEng _ _ _ _))
  rw [if_pos rfl] at hfault
  obtain ⟨hstate, hdmLast, hflags⟩ := State.wdogLast_faulted (was := s1.eng g) hfault
  exact ⟨hstate, (hflags _ (by decide) (by decide)).trans hflag, hdmLast.trans (hframe.dm.trans hdm)⟩

end

/-! ### The operations -/

section
variable {w : Nat} (s : State) (g : Nat) (x : EngSt)

/-- The index register after the step that an LS slot's word asks for. -/
def lsNext (x : EngSt) (w : Nat) : BitVec 20 := stepped (SMap.get 0 x.x (bitsOf w 13 11)) (BitVec.ofNat 11 (bitsOf w 10 0)).toInt

theorem stepX_eq_lsNext (w : Nat) : stepX (x.xr (bitsOf w 13 11)) (signedOf 11 (bitsOf w 10 0)) = lsNext x w := by
  rw [stepX_eq_stepped, signedOf_eq_toInt]
  rfl

theorem State.lsSlot_ld (h : slotOp w = 0x01) : let a := bitsOf (SMap.get 0 x.x (bitsOf w 13 11)).toNat 14 0
    s.lsSlot g x w ⟨x, []⟩ = (s.checkDm g a, (EngW.setX ⟨x, []⟩ (bitsOf w 13 11) (lsNext x w)).setV x (bitsOf w 19 14) (s.dmWord g a).word) := by
  intro a
  rw [State.lsSlot, h, ← stepX_eq_lsNext, show a = _ from (addrX_eq_bitsOf _).symm]
  rfl

theorem State.lsSlot_ldo (h : slotOp w = 0x02) : let a := bitsOf (lsNext x w).toNat 14 0
    s.lsSlot g x w ⟨x, []⟩ = (s.checkDm g a, EngW.setV ⟨x, []⟩ x (bitsOf w 19 14) (s.dmWord g a).word) := by
  intro a
  rw [State.lsSlot, h, show a = _ from (addrX_eq_bitsOf _).symm, ← stepX_eq_lsNext]
  rfl

theorem State.lsSlot_st (h : slotOp w = 0x03) : s.lsSlot g x w ⟨x, []⟩ =
    (s.setDm g (bitsOf (SMap.get 0 x.x (bitsOf w 13 11)).toNat 14 0) { word := x.vr (bitsOf w 19 14) },
      EngW.setX ⟨x, []⟩ (bitsOf w 13 11) (lsNext x w)) := by
  rw [State.lsSlot, h, ← stepX_eq_lsNext, ← addrX_eq_bitsOf]
  rfl

theorem State.lsSlot_sto (h : slotOp w = 0x04) : s.lsSlot g x w ⟨x, []⟩ =
    (s.setDm g (bitsOf (lsNext x w).toNat 14 0) { word := x.vr (bitsOf w 19 14) }, ⟨x, []⟩) := by
  rw [State.lsSlot, h, ← addrX_eq_bitsOf, ← stepX_eq_lsNext]
  rfl

theorem State.portADue_ld (h : slotOp w = 0x01) :
    s.portADue g x w = decide ((s.dmWord g (bitsOf (SMap.get 0 x.x (bitsOf w 13 11)).toNat 14 0)).bad = 2) := by
  rw [State.portADue, h, ← addrX_eq_bitsOf]
  rfl

theorem State.portADue_ldo (h : slotOp w = 0x02) : s.portADue g x w = decide ((s.dmWord g (bitsOf (lsNext x w).toNat 14 0)).bad = 2) := by
  rw [State.portADue, h, ← addrX_eq_bitsOf, ← stepX_eq_lsNext]
  rfl

theorem State.portADue_of_no_load (h1 : slotOp w ≠ 0x01) (h2 : slotOp w ≠ 0x02) : s.portADue g x w = false := by
  unfold State.portADue
  split
  case h_1 h => exact absurd h h1
  case h_2 h => exact absurd h h2
  case h_3 => rfl

theorem State.lsStall_of_memory {pend : Nat} (h : slotOp w ≤ 4) : s.lsStall g x w pend = 0 := by
  have h8 : slotOp w ≠ 0x08 ∧ slotOp w ≠ 0x09 ∧ slotOp w ≠ 0x10 ∧ slotOp w ≠ 0x11 := by omega
  simp [State.lsStall, h8]

theorem State.checkDm_of_due {a : Nat} (h : (s.dmWord g a).bad = 2) : s.checkDm g a = s := if_neg (by rw [h]; decide)

/-! ### Streams and requests -/

section
variable (pend : Nat)

theorem State.lsStall_spop (h : slotOp w = 0x08) : s.lsStall g x w pend =
    if w.testBit 6 ∧ s.engServed g (bitsOf w 13 13) false ∧
      ¬ (s.popEngine (engPane g) (s.engBinding g (bitsOf w 13 13) false).2.1 (s.engBinding g (bitsOf w 13 13) false).2.2).1.2.2 then 1 else 0 := by
  simp [State.lsStall, h]

theorem State.lsStall_spush (h : slotOp w = 0x09) : s.lsStall g x w pend =
    if w.testBit 6 ∧ s.engServed g (bitsOf w 13 13) true ∧
      ¬ (s.pushBound (engPane g) (s.engBinding g (bitsOf w 13 13) true).2.1 (s.engBinding g (bitsOf w 13 13) true).2.2
        (x.vr (bitsOf w 19 14)) (w.testBit 12)).1 then 2 else 0 := by
  simp [State.lsStall, h, State.canPush]

theorem State.lsStall_sslam (h : slotOp w = 0x0A) : s.lsStall g x w pend = 0 := by
  simp [State.lsStall, h]

theorem State.lsStall_trd (h : slotOp w = 0x10) : s.lsStall g x w pend = if 16 ≤ pend ∨ s.freeTag (engPort g) 16 = none then 3 else 0 := by
  simp [State.lsStall, h]

theorem State.lsStall_twr (h : slotOp w = 0x11) : s.lsStall g x w pend =
    if 16 ≤ pend ∨ (s.freeTag (engPort g) 16 = none ∧ w.testBit 5 = false) then 3 else 0 := by
  simp [State.lsStall, h]

end

theorem State.lsSlot_spop {r : (Word × Bool × Bool) × State} (h : slotOp w = 0x08)
    (hr : (if s.engServed g (bitsOf w 13 13) false then s.popEngine (engPane g) (s.engBinding g (bitsOf w 13 13) false).2.1
      (s.engBinding g (bitsOf w 13 13) false).2.2 else ((0, false, false), s.setFld (engErr g) F.ENG_ERR.UNB 1)) = r) : s.lsSlot g x w ⟨x, []⟩ =
      (r.2, ((EngW.setV ⟨x, []⟩ x (bitsOf w 19 14) r.1.1).setP (bitsOf w 12 10) r.1.2.1).setP (bitsOf w 9 7) r.1.2.2) := by
  rw [State.lsSlot, h, ← hr]
  rfl

theorem State.pushPort_refused {pane m q : Nat} {v : Word} {tag : Bool} (h : (s.pushPort pane m q v tag).1 = false) :
    (s.pushPort pane m q v tag).2 = s := by
  dsimp only [State.pushPort] at h ⊢
  split
  case isTrue => rfl
  case isFalse hopen =>
    rw [if_neg hopen] at h
    split at h
    case h_1 => cases h
    case h_2 =>
      split at h
      case isTrue => cases h
      case isFalse htag =>
        rw [if_neg htag]
        split at h
        case isTrue hfull => rw [if_pos hfull]
        case isFalse => cases h

/-- A push that the bound queue or port does not take changes nothing but a queue's counts. -/
theorem State.pushBound_refused {pane m q : Nat} {v : Word} {tag : Bool} (h : (s.pushBound pane m q v tag).1 = false) :
    s.pushBound pane m q v tag = (false, if s.queueMode pane m then (s.pushQueue pane m q v tag).2 else s) := by
  refine Prod.ext h ?_
  unfold State.pushBound at h ⊢
  split
  case isTrue => rfl
  case isFalse hmode =>
    rw [if_neg hmode] at h
    exact s.pushPort_refused h

/-- Whether an SPUSH's word is taken, and the state after it. -/
def State.spushFinds (s : State) (g : Nat) (x : EngSt) (w : Nat) : Bool × State :=
  let pane := engPane g
  let b := s.engBinding g (bitsOf w 13 13) true
  if s.engServed g (bitsOf w 13 13) true then s.pushBound pane b.2.1 b.2.2 (x.vr (bitsOf w 19 14)) (w.testBit 12)
  else (false, (if s.bound pane b.1 b.2.1 b.2.2 ∧ s.queueMode pane b.2.1 then s.refuse pane b.2.1 b.2.2 1 else s).setFld (engErr g) F.ENG_ERR.UNB 1)

theorem State.lsSlot_spush (h : slotOp w = 0x09) : s.lsSlot g x w ⟨x, []⟩ = ((s.spushFinds g x w).2,
    let a := EngW.setP ⟨x, []⟩ (bitsOf w 9 7) (s.spushFinds g x w).1
    if s.engServed g (bitsOf w 13 13) true ∧ s.queueMode (engPane g) (s.engBinding g (bitsOf w 13 13) true).2.1 ∧ ¬ (s.spushFinds g x w).1 then
      { a with x := { a.x with refCyc := s.cyc (engPane g) + 1, refP := bitsOf w 9 7 } } else a) := by
  have hfinds : s.spushFinds g x w = if s.engServed g (bitsOf w 13 13) true then
        (if s.canPush (engPane g) (s.engBinding g (bitsOf w 13 13) true).2.1 (s.engBinding g (bitsOf w 13 13) true).2.2
            (x.vr (bitsOf w 19 14)) (w.testBit 12) then
          s.pushBound (engPane g) (s.engBinding g (bitsOf w 13 13) true).2.1 (s.engBinding g (bitsOf w 13 13) true).2.2
            (x.vr (bitsOf w 19 14)) (w.testBit 12)
        else (false, if s.queueMode (engPane g) (s.engBinding g (bitsOf w 13 13) true).2.1 then
            (s.pushQueue (engPane g) (s.engBinding g (bitsOf w 13 13) true).2.1 (s.engBinding g (bitsOf w 13 13) true).2.2
              (x.vr (bitsOf w 19 14)) (w.testBit 12)).2 else s))
      else (false, (if s.bound (engPane g) (s.engBinding g (bitsOf w 13 13) true).1 (s.engBinding g (bitsOf w 13 13) true).2.1
          (s.engBinding g (bitsOf w 13 13) true).2.2 ∧ s.queueMode (engPane g) (s.engBinding g (bitsOf w 13 13) true).2.1 then
            s.refuse (engPane g) (s.engBinding g (bitsOf w 13 13) true).2.1 (s.engBinding g (bitsOf w 13 13) true).2.2 1 else s).setFld
        (engErr g) F.ENG_ERR.UNB 1) := by
    refine if_congr Iff.rfl ?_ rfl
    split
    case isTrue => rfl
    case isFalse hfull => exact s.pushBound_refused (Bool.eq_false_iff.2 hfull)
  rw [State.lsSlot, h, hfinds]
  rfl

theorem State.lsSlot_sslam (h : slotOp w = 0x0A) : s.lsSlot g x w ⟨x, []⟩ =
    (if s.engServed g (bitsOf w 13 13) false ∧ s.queueMode (engPane g) (s.engBinding g (bitsOf w 13 13) false).2.1 then
      s.slamBound (engPane g) (s.engBinding g (bitsOf w 13 13) false).2.1 (s.engBinding g (bitsOf w 13 13) false).2.2 else s, ⟨x, []⟩) := by
  rw [State.lsSlot, h]
  rfl

/-- The index register after a request of the word's length (R137). -/
theorem stepX_past (w : Nat) : stepX (x.xr (bitsOf w 13 11)) (bitsOf w 10 6 + 1 : Nat) =
    stepped (SMap.get 0 x.x (bitsOf w 13 11)) (bitsOf w 10 6 + 1 : Nat) := stepX_eq_stepped _ _

/-- The tag that a transom request of the engine takes. -/
def State.reqTag (s : State) (g : Nat) : Fin 1024 := Fin.ofNat 1024 ((s.freeTag (engPort g) 16).getD 0)

theorem State.lsSlot_trd (h : slotOp w = 0x10) : s.lsSlot g x w ⟨x, []⟩ =
    (s.sendReq { src := engPort g, cmd := cRD, prio := s.portPrio (engPane g) (10 + g % 2), tag := s.reqTag g,
                 len := Fin.ofNat 65 (bitsOf w 10 6 + 1), addr := x.vr (bitsOf w 19 14) }
       (.engRead g (SMap.get 0 x.x (bitsOf w 13 11)) (bitsOf w 10 6 + 1)),
     EngW.setX ⟨x, []⟩ (bitsOf w 13 11) (stepped (SMap.get 0 x.x (bitsOf w 13 11)) (bitsOf w 10 6 + 1 : Nat))) := by
  rw [State.lsSlot, h, ← stepX_past]
  rfl

/-- The packet that a TWR begins. -/
def State.twrPacket (s : State) (g : Nat) (x : EngSt) (w : Nat) : Packet :=
  { src := engPort g, cmd := if w.testBit 5 then cWRP else cWR, prio := s.portPrio (engPane g) (10 + g % 2), tag := s.reqTag g,
    len := Fin.ofNat 65 (bitsOf w 10 6 + 1), addr := x.vr (bitsOf w 19 14) }

theorem State.lsSlot_twr (h : slotOp w = 0x11) : s.lsSlot g x w ⟨x, []⟩ =
    (s.holdTag (s.twrPacket g x w) (.engWrite g),
     let a := EngW.setX ⟨x, []⟩ (bitsOf w 13 11) (stepped (SMap.get 0 x.x (bitsOf w 13 11)) (bitsOf w 10 6 + 1 : Nat))
     { a with x := { a.x with twr := x.twr ++
        [{ pk := s.twrPacket g x w, x := SMap.get 0 x.x (bitsOf w 13 11), left := bitsOf w 10 6 + 1 }] } }) := by
  rw [State.lsSlot, h, ← stepX_past]
  rfl

theorem State.spushFinds_served (h : s.engServed g (bitsOf w 13 13) true = true) : s.spushFinds g x w =
    s.pushBound (engPane g) (s.engBinding g (bitsOf w 13 13) true).2.1 (s.engBinding g (bitsOf w 13 13) true).2.2
      (x.vr (bitsOf w 19 14)) (w.testBit 12) := if_pos h

theorem State.spushFinds_unserved (h : s.engServed g (bitsOf w 13 13) true = false) : s.spushFinds g x w =
    (false, (if s.bound (engPane g) (s.engBinding g (bitsOf w 13 13) true).1 (s.engBinding g (bitsOf w 13 13) true).2.1
        (s.engBinding g (bitsOf w 13 13) true).2.2 ∧ s.queueMode (engPane g) (s.engBinding g (bitsOf w 13 13) true).2.1 then
        s.refuse (engPane g) (s.engBinding g (bitsOf w 13 13) true).2.1 (s.engBinding g (bitsOf w 13 13) true).2.2 1 else s).setFld
      (engErr g) F.ENG_ERR.UNB 1) := if_neg (by rw [h]; decide)

end

/-! ### An engine's pop (R135) -/

section
variable {s : State} {pane m q : Nat}

theorem State.popEngine_idle (hmode : s.queueMode pane m = true)
    (h : ∀ e ∈ (s.queue (pane * 6 + m) q).slots.head?, e.filled = false ∨ s.cyc pane < e.acc) :
    s.popEngine pane m q = ((s.idleWord pane m q, false, false), s) := by
  have hnone : (s.queue (pane * 6 + m) q).present (s.cyc pane) = none := by
    unfold QueueSt.present
    split
    case h_1 e rest hslots =>
      rw [hslots] at h
      exact if_neg fun ⟨hfilled, hacc⟩ => (h e rfl).elim (fun hf => Bool.false_ne_true (hf.symm.trans hfilled)) fun hlt => absurd hacc hlt.not_ge
    case h_2 => rfl
  rw [State.popEngine, if_pos hmode, hnone, State.takeHead]

theorem State.checkEntry_of_good {blk a : Nat} (h : (s.entry blk a).bad = 0) : s.checkEntry blk a = s := by
  rw [State.checkEntry, h]
  rfl

theorem State.popEngine_head {e : QSlot} {rest : List QSlot} (hmode : s.queueMode pane m = true)
    (hslots : (s.queue (pane * 6 + m) q).slots = e :: rest) (hfilled : e.filled = true) (hacc : e.acc ≤ s.cyc pane)
    (hgood : (s.entry (pane * 6 + m) e.pos).bad = 0) : s.popEngine pane m q =
      (((s.entry (pane * 6 + m) e.pos).word, (s.entry (pane * 6 + m) e.pos).tag, true), s.dropHead pane m q) := by
  have hsome : (s.queue (pane * 6 + m) q).present (s.cyc pane) = some e.pos := by
    rw [QueueSt.present, hslots]
    exact if_pos ⟨hfilled, hacc⟩
  rw [State.popEngine, if_pos hmode, hsome, State.takeHead, State.checkEntry_of_good hgood]

theorem State.queue_setQueue_same (s : State) (blk i : Nat) (x : QueueSt) : (s.setQueue blk i x).queue blk i = x := SMap.get_set_same _ _ _ _

theorem State.queue_setQueue_other (s : State) {blk i b j : Nat} (x : QueueSt) (h : b * 4 + j ≠ blk * 4 + i) :
    (s.setQueue blk i x).queue b j = s.queue b j := SMap.get_set_other _ _ _ _ _ _ h

end

end Sys2Proof.Machine
end

section
/-!
PROOF. What the LS slot, the streams and port B do, assembled (R133–R137).
-/
namespace Sys2Proof.Machine
open Sys2Proof.Claims

theorem State.checkDm_of_good {s : State} {g a : Nat} (h : (s.dmWord g a).bad = 0) : s.checkDm g a = s := if_neg (by rw [h]; decide)

theorem TwrSt.read_of_good (b : TwrSt) {e : Entry} (h : e.bad = 0) :
    b.read e = { b with pk := { b.pk with data := b.pk.data ++ [e.word] }, x := stepped b.x 1, left := b.left - 1 } := by
  rw [TwrSt.read, stepX_eq_stepped, h, Bool.or_eq_left_iff_imp.2 fun h => absurd (of_decide_eq_true h) (by decide)]

theorem TwrSt.read_of_bad (b : TwrSt) {e : Entry} (h : e.bad = 2) :
    b.read e = { pk := { b.pk with data := b.pk.data ++ [e.word] }, x := stepped b.x 1, left := b.left - 1, due := true } := by
  rw [TwrSt.read, stepX_eq_stepped, h, decide_eq_true rfl, Bool.or_true]

/-- Settles O22: each operation by the slot's equation, its stall and port A's check; a pop by what it finds at the head; port B by its cases. -/
theorem engineMemoryAndStreams : Obligations.EngineMemoryAndStreams := by
  refine ⟨?memory, ?streams, ?pop, ?portB⟩
  case memory =>
    intro s d e dt w g s1 x v k xk next here there loaded fixed hready hw hidle
    have hstall : ∀ {op pend}, slotOp w = op → op ≤ 4 → s1.lsStall g x w pend = 0 := fun h h4 => State.lsStall_of_memory _ _ _ (h ▸ h4)
    have hstore : ∀ {op}, slotOp w = op → 3 ≤ op → s1.portADue g x w = false := fun h h3 =>
      State.portADue_of_no_load _ _ _ (by omega) (by omega)
    refine ⟨fun h hok => ?ld, fun h hok => ?ldo, fun h => ?st, fun h => ?sto, fun h hdue => ?ldDue, fun h hdue => ?ldoDue⟩
    case ld =>
      exact congrArg _ (State.engCommand_ls rfl rfl hready hw hidle h (hstall h (by decide))
        ((s1.portADue_ld g x h).trans (decide_eq_false hok)) (s1.lsSlot_ld g x h))
    case ldo =>
      exact congrArg _ (State.engCommand_ls rfl rfl hready hw hidle h (hstall h (by decide))
        ((s1.portADue_ldo g x h).trans (decide_eq_false hok)) (s1.lsSlot_ldo g x h))
    case st =>
      exact congrArg _ (State.engCommand_ls rfl rfl hready hw hidle h (hstall h (by decide)) (hstore h (by decide)) (s1.lsSlot_st g x h))
    case sto =>
      exact congrArg _ (State.engCommand_ls rfl rfl hready hw hidle h (hstall h (by decide)) (hstore h (by decide)) (s1.lsSlot_sto g x h))
    case ldDue =>
      have hdm := (congrArg (fun r => r.1.dm) (s1.lsSlot_ld g x h)).trans (congrArg State.dm (s1.checkDm_of_due g hdue))
      obtain ⟨t, ht, hfault⟩ := State.engCommand_lsDue rfl rfl hready hw hidle h (hstall h (by decide))
        ((s1.portADue_ld g x h).trans (decide_eq_true hdue)) hdm
      exact ⟨t, congrArg _ ht, hfault⟩
    case ldoDue =>
      have hdm := (congrArg (fun r => r.1.dm) (s1.lsSlot_ldo g x h)).trans (congrArg State.dm (s1.checkDm_of_due g hdue))
      obtain ⟨t, ht, hfault⟩ := State.engCommand_lsDue rfl rfl hready hw hidle h (hstall h (by decide))
        ((s1.portADue_ldo g x h).trans (decide_eq_true hdue)) hdm
      exact ⟨t, congrArg _ ht, hfault⟩
  case streams =>
    intro s d e dt w g s1 x v k n pane cq pq p u free pend tag xk writes stall hready hw hidle
    have hdue : ∀ {op}, slotOp w = op → 3 ≤ op → s1.portADue g x w = false := fun h h3 =>
      State.portADue_of_no_load _ _ _ (by omega) (by omega)
    refine ⟨fun h hserved hpop => ?spop, fun h hserved hwait hpop => ?spopStalls, fun h hserved => ?spopUnbound, fun h hserved hroom => ?spush,
      fun h hserved hroom hwait => ?spushStalls, fun h hserved hroom hwait => ?spushRefused, fun h hserved hmode => ?sslam,
      fun h hserved => ?spushUnbound, fun h hnone => ?sslamNone, fun h hpend hfree => ?trd, fun h hpend hfree => ?twr, fun h hfull => ?trdStalls,
      fun h hfull => ?twrStalls⟩
    case spop =>
      have hstall : ∀ pend, s1.lsStall g x w pend = 0 := fun pend => (s1.lsStall_spop g x pend h).trans (if_neg fun ⟨hwait, _, hnone⟩ =>
        hpop.elim (fun h6 => Bool.false_ne_true (h6.symm.trans hwait)) hnone)
      refine congrArg _ ((State.engCommand_ls rfl rfl hready hw hidle h (hstall _) (hdue h (by decide))
        (s1.lsSlot_spop g x h (if_pos hserved))).trans ?_)
      rw [EngW.x_setP, EngW.x_setP]
      rfl
    case spopStalls =>
      refine congrArg _ (State.engCommand_lsStalls rfl rfl hready hw hidle h (by decide) ((s1.lsStall_spop g x _ h).trans (if_pos ?_)))
      exact ⟨hwait, hserved, fun hreal => Bool.false_ne_true (hpop.symm.trans hreal)⟩
    case spopUnbound =>
      have hunserved : ¬ s1.engServed g (bitsOf w 13 13) false = true := fun hs => Bool.false_ne_true (hserved.symm.trans hs)
      have hissue := State.engCommand_ls rfl rfl hready hw hidle h ((s1.lsStall_spop g x _ h).trans (if_neg fun hs => hunserved hs.2.1))
        (hdue h (by decide)) (s1.lsSlot_spop g x h (if_neg hunserved))
      rw [EngW.x_setP, EngW.x_setP] at hissue
      exact congrArg Host.Outcome.next hissue
    case spush =>
      have hslot := s1.lsSlot_spush g x h
      dsimp only at hslot
      rw [show s1.spushFinds g x w = u from s1.spushFinds_served g x hserved, hroom, if_neg fun hs => hs.2.2 rfl] at hslot
      have hissue := State.engCommand_ls rfl rfl hready hw hidle h ((s1.lsStall_spush g x _ h).trans (if_neg fun hs => hs.2.2 hroom))
        (hdue h (by decide)) hslot
      rw [EngW.x_setP] at hissue
      exact congrArg Host.Outcome.next hissue
    case spushStalls =>
      refine congrArg _ (State.engCommand_lsStalls rfl rfl hready hw hidle h (by decide) ((s1.lsStall_spush g x _ h).trans (if_pos ?_)))
      exact ⟨hwait, hserved, fun htaken => Bool.false_ne_true (hroom.symm.trans htaken)⟩
    case spushRefused =>
      have hslot := s1.lsSlot_spush g x h
      dsimp only at hslot
      rw [show s1.spushFinds g x w = u from s1.spushFinds_served g x hserved, hroom] at hslot
      have hissue := State.engCommand_ls rfl rfl hready hw hidle h
        ((s1.lsStall_spush g x _ h).trans (if_neg fun hs => Bool.false_ne_true (hwait.symm.trans hs.1))) (hdue h (by decide)) hslot
      refine congrArg Host.Outcome.next (hissue.trans (congrArg (fun y => u.2.setEng g (bundleEnd x y)) ?_))
      by_cases hmode : s1.queueMode pane pq.2.1 = true
      · rw [if_pos ⟨hserved, hmode, Bool.false_ne_true⟩, if_pos hmode, if_pos hmode, EngW.x_setP]
      · rw [if_neg fun hs => hmode hs.2.1, if_neg hmode, if_neg hmode, EngW.x_setP]
    case sslam =>
      exact congrArg _ (State.engCommand_ls rfl rfl hready hw hidle h (s1.lsStall_sslam g x _ h) (hdue h (by decide))
        ((s1.lsSlot_sslam g x h).trans (congrArg (·, _) (if_pos ⟨hserved, hmode⟩))))
    case spushUnbound =>
      intro b turned
      have hunserved : ¬ s1.engServed g (bitsOf w 13 13) true = true := fun hs => Bool.false_ne_true (hserved.symm.trans hs)
      have hslot := s1.lsSlot_spush g x h
      dsimp only at hslot
      rw [if_neg fun hs => hunserved hs.1, State.spushFinds_unserved s1 g x hserved] at hslot
      have hissue := State.engCommand_ls rfl rfl hready hw hidle h ((s1.lsStall_spush g x _ h).trans (if_neg fun hs => hunserved hs.2.1))
        (hdue h (by decide)) hslot
      rw [EngW.x_setP] at hissue
      exact congrArg Host.Outcome.next hissue
    case sslamNone =>
      have hneg : ¬ (s1.engServed g (bitsOf w 13 13) false = true ∧ s1.queueMode pane cq.2.1 = true) := fun ⟨hs, hm⟩ =>
        hnone.elim (fun hn => Bool.false_ne_true (hn.symm.trans hs)) fun hn => Bool.false_ne_true (hn.symm.trans hm)
      exact congrArg _ (State.engCommand_ls rfl rfl hready hw hidle h (s1.lsStall_sslam g x _ h) (hdue h (by decide))
        ((s1.lsSlot_sslam g x h).trans (congrArg (·, _) (if_neg hneg))))
    case trd =>
      exact congrArg _ (State.engCommand_ls rfl rfl hready hw hidle h ((s1.lsStall_trd g x _ h).trans (if_neg fun hs =>
        hs.elim hpend.not_ge hfree)) (hdue h (by decide)) (s1.lsSlot_trd g x h))
    case twr =>
      exact congrArg _ (State.engCommand_ls rfl rfl hready hw hidle h ((s1.lsStall_twr g x _ h).trans (if_neg fun hs =>
        hs.elim hpend.not_ge fun ⟨hnone, h5⟩ => hfree.elim (· hnone) fun hposted => Bool.false_ne_true (h5.symm.trans hposted)))
        (hdue h (by decide)) (s1.lsSlot_twr g x h))
    case trdStalls =>
      exact congrArg _ (State.engCommand_lsStalls rfl rfl hready hw hidle h (by decide) ((s1.lsStall_trd g x _ h).trans (if_pos hfull)))
    case twrStalls =>
      exact congrArg _ (State.engCommand_lsStalls rfl rfl hready hw hidle h (by decide) ((s1.lsStall_twr g x _ h).trans (if_pos hfull)))
  case pop =>
    intro s pane m q _ _ hmode blk x r
    refine ⟨State.popEngine_idle hmode, fun e rest hslots hfilled hacc hgood => ?_⟩
    have hr : r = _ := State.popEngine_head hmode hslots hfilled hacc hgood
    have hqueue : r.2.queue blk q = _ := (congrArg (fun r => r.2.queue blk q) hr).trans (State.queue_setQueue_same _ _ _ _)
    refine ⟨congrArg Prod.fst hr, by rw [hr]; rfl, fun b i hne => ?_, ?_, ?_, ?_⟩
    · rw [hr]
      exact State.queue_setQueue_other _ _ hne
    all_goals rw [hqueue]
    exact congrArg List.tail hslots
  case portB =>
    intro s g b bs x read pk
    have hread : s.dmWord g (addrX b.x) = read := by rw [addrX_eq_bitsOf]
    have hsame : read.bad = 0 ∨ read.bad = 2 → s.checkDm g (addrX b.x) = s := fun h =>
      h.elim (fun h => State.checkDm_of_good (hread ▸ h)) fun h => s.checkDm_of_due g (hread ▸ h)
    refine ⟨State.portB_idle, fun htwr hgood => ⟨fun hleft => ?_, fun hleft hdue => ?_⟩, fun htwr hbad hleft => ?_, fun htwr hleft hbad => ?_⟩
    · rw [State.portB_reads htwr hleft, hread, hsame (.inl hgood), b.read_of_good hgood]
    · rw [State.portB_sends htwr hleft (by rw [hread, b.read_of_good hgood, hdue]), hread, hsame (.inl hgood), b.read_of_good hgood]
    · rw [State.portB_reads htwr hleft, hread, hsame (.inr hbad), b.read_of_bad hbad]
    · intro told
      have hdue : (b.read read).due = true := hbad.elim (fun h => by rw [b.read_of_bad h]) fun ⟨h, hdue⟩ => by rw [b.read_of_good h, hdue]
      refine ⟨State.flag_engRaise_same _ _ (by decide), ?_, ?_⟩
      · exact (State.fld_engRaise_other _ _ (by decide) (by decide) (by decide)).trans (State.fld_setEng _ _ _ _ _)
      · rw [State.portB_gives_up htwr hleft (by rw [hread, hdue]), hsame (hbad.symm.imp_left And.left)]
        rfl
end Sys2Proof.Machine
end

section
/-!
PROOF. The BR slot (Table 6.10): what its word makes of the engine, and the gap behind a taken branch (R139–R142).
-/
namespace Sys2Proof.Machine
open Sys2Proof.Claims

/-! ### The operations of the BR slot -/

section
variable {w : Nat} (s : State) (g : Nat) (x0 x : EngSt)

theorem State.brSlot_br (h : slotOp w = 0x01) :
    s.brSlot g x0 w true x = (s, { x.cancelLoops (fun l => !l.has (bitsOf w 11 0)) with pc := bitsOf w 11 0 }) := by
  rw [State.brSlot, h]
  rfl

theorem State.brSlot_call (h : slotOp w = 0x02) :
    s.brSlot g x0 w true x = (s, { x with pc := bitsOf w 11 0, ret := ((x0.pc + 1) % 4096) :: x.ret }) := by
  rw [State.brSlot, h]
  rfl

theorem State.brSlot_ret (h : slotOp w = 0x03) : s.brSlot g x0 w true x = (s, { x with pc := x.ret.headD 0, ret := x.ret.tail }) := by
  rw [State.brSlot, h]
  rfl

theorem State.brSlot_skips (h : slotOp w = 0x08 ∨ slotOp w = 0x09 ∨ slotOp w = 0x0A) (hzero : (loopAsked x0 w).2 = 0) :
    s.brSlot g x0 w true x = (s, { x with pc := (x0.pc + (loopAsked x0 w).1.len + 1) % 4096 }) := by
  obtain h | h | h := h <;>
  · rw [State.brSlot, h]
    exact if_pos hzero

/-- The stage predicates as a LOOPP sets them (R141). -/
def stagesBegun (p : BitVec 8) (stages : Nat) : BitVec 8 :=
  BitVec.ofNat 8 (((List.range 8).map fun j => if (if j = 1 then true else if 2 ≤ j ∧ j ≤ stages then false else p.getLsbD j) then 2 ^ j else 0).sum)

/-- An engine that enters the loop `r`, its counter at `n`. -/
def EngSt.enterLoop (x : EngSt) (r : LoopRec) (n : Nat) : EngSt :=
  { x with loops := r :: x.loops, lc := SMap.set 0 x.lc r.k n, pc := r.first, p := if r.stages = 0 then x.p else stagesBegun x.p r.stages }

theorem State.brSlot_loops (h : slotOp w = 0x08 ∨ slotOp w = 0x09 ∨ slotOp w = 0x0A) (hsome : (loopAsked x0 w).2 ≠ 0) :
    s.brSlot g x0 w true x = (s, x.enterLoop (loopAsked x0 w).1 (loopAsked x0 w).2) := by
  have henter : ∀ r n, x.enterLoop r n = let x1 := { x with loops := r :: x.loops, lc := SMap.set 0 x.lc r.k n, pc := r.first }
      if r.stages = 0 then x1 else { x1 with p := stagesBegun x1.p r.stages } := fun r n => by
    unfold EngSt.enterLoop
    split <;> rfl
  rw [henter]
  obtain h | h | h := h <;>
  · rw [State.brSlot, h]
    exact if_neg hsome

theorem State.brSlot_wdog (h : slotOp w = 0x11) : s.brSlot g x0 w true x = (s, (s.reloadWdog g x).loopEnd x0.pc) := by
  rw [State.brSlot, h]
  rfl

theorem State.brSlot_blk (h : slotOp w = 0x12) : s.brSlot g x0 w true x = (s, x.block.loopEnd x0.pc) := by
  rw [State.brSlot, h]
  rfl

theorem State.brSlot_sig (h : slotOp w = 0x13) : s.brSlot g x0 w true x =
    ((s.setFld (R.ENG_SIG (engDie g) (engIx g)) F.ENG_SIG.CODE (bitsOf w 7 0)).engPend g, x.loopEnd x0.pc) := by
  rw [State.brSlot, h]
  rfl

theorem State.brSlot_stop (h : slotOp w = 0x14) : s.brSlot g x0 w true x = (s.engPend g, { x.loopEnd x0.pc with state := .stopped }) := by
  rw [State.brSlot, h]
  rfl

theorem State.brSlot_twait (h : slotOp w = 0x10) : s.brSlot g x0 w true x = (s, x.loopEnd x0.pc) := by
  rw [State.brSlot, h]
  rfl

end

/-! ### Loops asked for -/

section
variable {w : Nat} {x : EngSt}

theorem loopAsked_loop (h : slotOp w = 0x08) : loopAsked x w =
    (⟨bitsOf w 19 18, (x.pc + 1) % 4096, bitsOf w 17 12 + 1, w.testBit 11, 0, 0, 1⟩, bitsOf w 10 0) := by
  rw [loopAsked, h]
  rfl

theorem loopAsked_loopv (h : slotOp w = 0x09) : loopAsked x w =
    (⟨bitsOf w 19 18, (x.pc + 1) % 4096, bitsOf w 17 12 + 1, w.testBit 11, 0, 0, 1⟩, (x.vr (bitsOf w 10 5)).toNat % 65536) := by
  rw [loopAsked, h]
  rfl

theorem loopAsked_loopp (h : slotOp w = 0x0A) : loopAsked x w =
    (⟨bitsOf w 19 18, (x.pc + 1) % 4096, bitsOf w 17 12 + 1, true, bitsOf w 11 9, (x.vr (bitsOf w 8 3)).toNat % 65536, 1⟩,
      if (x.vr (bitsOf w 8 3)).toNat % 65536 = 0 then 0 else (x.vr (bitsOf w 8 3)).toNat % 65536 + bitsOf w 11 9 - 1) := by
  rw [loopAsked, h]
  rfl

theorem loopAsked_len (x : EngSt) (w : Nat) : (loopAsked x w).1.len = bitsOf w 17 12 + 1 := by
  unfold loopAsked
  split <;> rfl

theorem brGap_of_branch (hruns : slotRuns x w = true) (h : slotOp w = 0x01 ∨ slotOp w = 0x02 ∨ slotOp w = 0x03) : brGap x w = true := by
  simp [brGap, hruns, h]

theorem brGap_of_skip (hruns : slotRuns x w = true) (h : slotOp w = 0x08 ∨ slotOp w = 0x09 ∨ slotOp w = 0x0A) (hzero : (loopAsked x w).2 = 0) :
    brGap x w = true := by
  simp [brGap, hruns, h, hzero]

theorem brGap_of_loop (h : slotOp w = 0x08 ∨ slotOp w = 0x09 ∨ slotOp w = 0x0A) (hsome : (loopAsked x w).2 ≠ 0) : brGap x w = false := by
  have hbranch : ¬ (slotOp w = 0x01 ∨ slotOp w = 0x02 ∨ slotOp w = 0x03) := by omega
  simp [brGap, hbranch, hsome]

theorem brGap_of_other (h : 0x10 ≤ slotOp w) : brGap x w = false := by
  have hbranch : ¬ (slotOp w = 0x01 ∨ slotOp w = 0x02 ∨ slotOp w = 0x03) := by omega
  have hloop : ¬ (slotOp w = 0x08 ∨ slotOp w = 0x09 ∨ slotOp w = 0x0A) := by omega
  simp [brGap, hbranch, hloop]

end

/-! ### The two gap cycles (R139, R144) -/

/-- A gap cycle in which the watchdog does not expire. -/
def State.gapCounts (s : State) (g : Nat) : State := (s.portB g).setEng g { (s.portB g).eng g with wdog := (s.eng g).wdog - 1 }

section
variable {s : State} {g : Nat}

theorem State.eng_gapCounts (s : State) (g : Nat) :
    (s.gapCounts g).eng g = { s.eng g with wdog := (s.eng g).wdog - 1, twr := ((s.portB g).eng g).twr } := by
  rw [State.gapCounts, State.eng_setEng, if_pos rfl, s.eng_portB g]

theorem State.wdogSettle_stays (h : (s.eng g).wdLoad = 0 ∨ (s.eng g).wdog ≠ 0) : s.wdogSettle g = s := if_neg fun ⟨_, hdue⟩ => by
  obtain ⟨h1, h2⟩ := of_decide_eq_true hdue
  exact h.elim h1 fun h => h h2

theorem State.gapCycle_counts (hrun : (s.eng g).state = .run) (h : (s.eng g).wdLoad = 0 ∨ (s.eng g).wdog ≠ 0) : s.gapCycle g = s.gapCounts g := by
  rw [State.gapCycle, State.wdogSettle_stays h]
  exact if_neg (not_not.2 hrun)

theorem State.gapCycles_count (hrun : (s.eng g).state = .run) (h : (s.eng g).wdLoad = 0 ∨ 2 ≤ (s.eng g).wdog) :
    (s.gapCycle g).gapCycle g = (s.gapCounts g).gapCounts g := by
  rw [State.gapCycle_counts hrun (by omega)]
  refine State.gapCycle_counts (by rw [State.eng_gapCounts]; exact hrun) ?_
  rw [State.eng_gapCounts]
  dsimp only
  omega

theorem State.state_gapCounts (s : State) (g : Nat) : ((s.gapCounts g).eng g).state = (s.eng g).state := by rw [State.eng_gapCounts]

end

/-! ### Commands of the BR slot -/

section
variable {s s1 t : State} {d : Fin 4} {e : Fin 128} {dt g w op : Nat} {y : EngSt}

/-- Is the BR slot's word free to issue, `pend` requests being pending: no wait for them, and no fault of a loop or of the return stack? -/
structure BrFree (x : EngSt) (w pend : Nat) : Prop where
  waits : slotOp w = 0x10 → pend ≤ bitsOf w 4 0
  fault : loopFault x w = false

theorem State.issueBundle_br {pend : Nat} (hready : BundleReady s1 g) (hw : SlotExecutes s1 g 3 w) (hidle : OthersIdle s1 g 3)
    (hfree : BrFree (s1.eng g) w pend)
    (hslot : s1.brSlot g (s1.eng g) w true { s1.eng g with wdog := (s1.eng g).wdog - 1, stall := 0 } = (t, y)) : s1.issueBundle g pend =
      if brGap (s1.eng g) w then ((t.setEng g y).gapCycle g).gapCycle g else t.setEng g y := by
  rw [State.issueBundle_effects hready (not_mtcIllegal_of_idle (hidle 2 (by decide) (by decide))) ?_ (fun _ => hw.1 ▸ hfree.fault),
    State.engEffects_br hw hidle, hslot]
  rw [State.engStall_of_idle (hidle 0 (by decide) (by decide)), hw.1]
  exact if_neg fun ⟨_, hop, hmany⟩ => hmany.not_ge (hfree.waits hop)

/-- A BR operation that passes on to the next bundle, the engine staying in RUN. -/
theorem State.engCommand_br_passes (hg : engId d e = g) (hs : cycleOf s g dt = s1) (hready : BundleReady s1 g) (hw : SlotExecutes s1 g 3 w)
    (hidle : OthersIdle s1 g 3) (hop : slotOp w = op) (hfree : BrFree (s1.eng g) w ((s.advance (engPane g) dt).engTpend g))
    (hgap : brGap (s1.eng g) w = false)
    (hslot : s1.brSlot g (s1.eng g) w true { s1.eng g with wdog := (s1.eng g).wdog - 1, stall := 0 } = (t, y)) (hrun : y.state = .run) :
    s.engCommand 3 op d e dt = t.setEng g y := by
  refine State.engCommand_of_run hg hs hready hw hop ((State.issueBundle_br hready hw hidle hfree hslot).trans (if_neg (by simp [hgap]))) ?_
  rw [State.eng_setEng, if_pos rfl, hrun]

/-- A BR operation with a gap behind it, in which the watchdog does not expire. -/
theorem State.engCommand_br_goes (hg : engId d e = g) (hs : cycleOf s g dt = s1) (hready : BundleReady s1 g) (hw : SlotExecutes s1 g 3 w)
    (hidle : OthersIdle s1 g 3) (hop : slotOp w = op) (hfree : BrFree (s1.eng g) w ((s.advance (engPane g) dt).engTpend g))
    (hgap : brGap (s1.eng g) w = true)
    (hslot : s1.brSlot g (s1.eng g) w true { s1.eng g with wdog := (s1.eng g).wdog - 1, stall := 0 } = (t, y)) (hrun : y.state = .run)
    (hlasts : y.wdLoad = 0 ∨ 2 ≤ y.wdog) : s.engCommand 3 op d e dt = ((t.setEng g y).gapCounts g).gapCounts g := by
  have heng : (t.setEng g y).eng g = y := by rw [State.eng_setEng, if_pos rfl]
  refine State.engCommand_of_run hg hs hready hw hop ((State.issueBundle_br hready hw hidle hfree hslot).trans ((if_pos hgap).trans ?_)) ?_
  · exact State.gapCycles_count (by rw [heng, hrun]) (by rw [heng]; exact hlasts)
  · rw [State.state_gapCounts, State.state_gapCounts, heng, hrun]

end

/-! ### What the end of a bundle leaves -/

theorem loopEnd_keeps (x : EngSt) (pc : Nat) : (x.loopEnd pc).state = x.state ∧ (x.loopEnd pc).wdog = x.wdog ∧ (x.loopEnd pc).wdLoad = x.wdLoad ∧
    (x.loopEnd pc).v = x.v := by
  unfold EngSt.loopEnd EngSt.rotate
  split
  · exact ⟨rfl, rfl, rfl, rfl⟩
  · dsimp only
    split_ifs <;> exact ⟨rfl, rfl, rfl, rfl⟩

theorem loopEnd_passes {x : EngSt} {pc : Nat} (h : ∀ l ∈ x.loops, l.last ≠ pc) : x.loopEnd pc = { x with pc := (pc + 1) % 4096 } := by
  have hnone : x.loops.find? (fun l => decide (l.last = pc)) = none := List.find?_eq_none.2 fun l hl => by simpa using h l hl
  rw [EngSt.loopEnd, hnone]

section
variable {x : EngSt} {l : LoopRec} {pc : Nat} (hloops : x.loops = [l]) (hlast : l.last = pc) (hstages : l.stages = 0) (hrot : l.rot = false)
include hloops hlast hstages hrot

theorem loopEnd_counts : x.loopEnd pc = let c := SMap.get 0 x.lc l.k - 1
    if c = 0 then { x with lc := SMap.set 0 x.lc l.k c, loops := [], pc := (pc + 1) % 4096 }
    else { x with lc := SMap.set 0 x.lc l.k c, pc := l.first, loops := [{ l with iter := l.iter + 1 }] } := by
  have hfind : x.loops.find? (fun l => decide (l.last = pc)) = some l := by simp [hloops, hlast]
  rw [EngSt.loopEnd, hfind]
  simp [hloops, hstages, hrot]

end

end Sys2Proof.Machine
end

section
/-!
PROOF. The ends that a bundle can come to besides its effects: an expiry in the gap, a stop, a fault, and two slots that write one register
(R123, R126, R127, R139–R144).
-/
namespace Sys2Proof.Machine
open Sys2Proof.Claims

/-! ### The watchdog in the gap (R144) -/

section
variable {s : State} {g : Nat}

theorem State.gapCounts_idle (h : (s.eng g).twr = []) : s.gapCounts g = s.setEng g { s.eng g with wdog := (s.eng g).wdog - 1 } := by
  rw [State.gapCounts, State.portB_idle h]

theorem State.gapCycle_expires (hrun : (s.eng g).state = .run) (hload : (s.eng g).wdLoad ≠ 0) (hzero : (s.eng g).wdog = 0)
    (hstays : ((s.wdogExpires g).eng g).state = .run) : s.gapCycle g = (s.wdogExpires g).gapCounts g := by
  have hsettle : s.wdogSettle g = s.wdogExpires g := if_pos ⟨hrun, decide_eq_true ⟨hload, hzero⟩⟩
  rw [State.gapCycle, hsettle]
  exact if_neg (not_not.2 hstays)

/-- A gap whose first cycle finds the watchdog at 0, ACT asking for the reload. -/
theorem State.gapCycles_expire (hrun : (s.eng g).state = .run) (hload : (s.eng g).wdLoad ≠ 0) (hzero : (s.eng g).wdog = 0)
    (htwr : (s.eng g).twr = []) (hact : s.fld (R.ENG_WDT (engDie g) (engIx g)) F.ENG_WDT.ACT = 0) :
    let t := (s.gapCycle g).gapCycle g
    let p := s.fld (R.ENG_WDT (engDie g) (engIx g)) F.ENG_WDT.PERIOD
    t.eng g = { s.eng g with wdog := p * 1024 - 2, wdLoad := p } ∧ t.flag (engErr g) F.ENG_ERR.WDX = true ∧
    t.flag (R.ENG_WDT (engDie g) (engIx g)) F.ENG_WDT.EXPD = true := by
  intro t p
  have hexp := expired_wdogExpires s g
  have heng : (s.wdogExpires g).eng g = { s.eng g with wdog := p * 1024, wdLoad := p } := hexp.eng.trans (if_pos hact)
  have hidle : ((s.wdogExpires g).eng g).twr = [] := by rw [heng]; exact htwr
  have hfirst : s.gapCycle g = (s.wdogExpires g).setEng g { s.eng g with wdog := p * 1024 - 1, wdLoad := p } := by
    rw [State.gapCycle_expires hrun hload hzero (by rw [heng]; exact hrun), State.gapCounts_idle hidle, heng]
  have hengFirst : (s.gapCycle g).eng g = { s.eng g with wdog := p * 1024 - 1, wdLoad := p } := by
    rw [hfirst, State.eng_setEng, if_pos rfl]
  have ht : t = (s.gapCycle g).setEng g { s.eng g with wdog := p * 1024 - 2, wdLoad := p } := by
    have hcounts : t = (s.gapCycle g).gapCounts g := State.gapCycle_counts (by rw [hengFirst]; exact hrun) (by rw [hengFirst]; dsimp only; omega)
    rw [hcounts, State.gapCounts_idle (by rw [hengFirst]; exact htwr), hengFirst]
    rfl
  refine ⟨by rw [ht, State.eng_setEng, if_pos rfl], ?_, ?_⟩
  · rw [ht, State.flag_setEng, hfirst, State.flag_setEng, hexp.wdx]
  · rw [ht, State.flag_setEng, hfirst, State.flag_setEng, hexp.expd]

end

/-! ### BLK (R130) -/

/-- The value of BEXP that BLK leaves: its fields, and nothing beside them. -/
theorem block_fields {a b : Nat} (ha : a ≤ 255) (hb : b ≤ 15) : let v : BitVec 40 := BitVec.ofNat 40 (a * 2 ^ 16 + b * 2 ^ 8)
    bitsOf v.toNat 23 16 = a ∧ bitsOf v.toNat 11 8 = b ∧ bitsOf v.toNat 4 0 = 0 ∧ v &&& 0xFF0F1F = v := by
  intro v
  have hv : v.toNat = a * 2 ^ 16 + b * 2 ^ 8 := (BitVec.toNat_ofNat _ _).trans (Nat.mod_eq_of_lt (by omega))
  have hmask : ∀ i < 40, (0xFF0F1F : BitVec 40).getLsbD i = false → (5 ≤ i ∧ i < 8) ∨ (12 ≤ i ∧ i < 16) ∨ 24 ≤ i := by decide
  refine ⟨by rw [bitsOf, hv]; omega, by rw [bitsOf, hv]; omega, by rw [bitsOf, hv]; omega, BitVec.eq_of_getLsbD_eq fun i hi => ?_⟩
  rw [BitVec.getLsbD_and]
  cases hm : (0xFF0F1F : BitVec 40).getLsbD i with
  | true => rw [Bool.and_true]
  | false =>
    rw [Bool.and_false, eq_comm, BitVec.getLsbD, hv]
    obtain ⟨h1, h2⟩ | ⟨h1, h2⟩ | h := hmask i hi hm
    · rw [Nat.testBit_eq_decide_div_mod_eq, decide_eq_false_iff_not]
      interval_cases i <;> omega
    · rw [Nat.testBit_eq_decide_div_mod_eq, decide_eq_false_iff_not]
      interval_cases i <;> omega
    · exact Nat.testBit_lt_two_pow (lt_of_lt_of_le (by omega) (Nat.pow_le_pow_right (by decide) h))

/-! ### Bundles without effect (R123, R127, R142, R143) -/

theorem illegalSlots_lowest {b i : Nat} (hi : i < 4) (hill : slotLegal i (slotOf b i) = false)
    (hlegal : ∀ j, j < i → slotLegal j (slotOf b j) = true) : ∃ l, illegalSlots b = i :: l := by
  have hrange : List.range 4 = [0, 1, 2, 3] := rfl
  interval_cases i <;> simp [illegalSlots, hrange, hill, hlegal]

section
variable {s : State} {g pend : Nat}

theorem State.issueBundle_unreadable (h : SMap.get 0 s.pmBad (pmKey (s.liveCopy (engMember (engDie g) (engIx g))) g (s.eng g).pc) = 2) :
    s.issueBundle g pend = s.engFault g F.ENG_ERR.PUE none := if_pos h

theorem State.issueBundle_illegal {i : Nat} {l : List Nat}
    (hread : SMap.get 0 s.pmBad (pmKey (s.liveCopy (engMember (engDie g) (engIx g))) g (s.eng g).pc) ≠ 2)
    (hill : illegalSlots (bundleOf s g) = i :: l) : s.issueBundle g pend = s.engFault g F.ENG_ERR.ILL (some i) := by
  unfold bundleOf at hill
  rw [State.issueBundle, if_neg hread, hill]

theorem State.issueBundle_mtcIllegal (hready : BundleReady s g) (h : mtcIllegal (s.eng g) (slotOf (bundleOf s g) 2)) :
    s.issueBundle g pend = s.engFault g F.ENG_ERR.ILL (some 2) := by
  obtain ⟨-, -, -, hread, hlegal⟩ := hready
  have hnil := illegalSlots_eq_nil hlegal
  unfold bundleOf at hnil
  unfold mtcIllegal bundleOf at h
  rw [State.issueBundle, if_neg hread, hnil]
  exact if_pos h

theorem State.issueBundle_loopFault (hready : BundleReady s g) (hidle : OthersIdle s g 3) {w : Nat} (hw : SlotExecutes s g 3 w)
    (hop : slotOp w ≠ 0x10) (hfault : loopFault (s.eng g) w = true) : s.issueBundle g pend = s.engFault g F.ENG_ERR.LOOPF none := by
  have hstall : s.engStall g (s.eng g) (bundleOf s g) pend = 0 :=
    (State.engStall_of_idle (hidle 0 (by decide) (by decide))).trans (if_neg fun hs => hop (hw.1 ▸ hs.2.1))
  rw [State.issueBundle_ready hready (not_mtcIllegal_of_idle (hidle 2 (by decide) (by decide))), if_neg (not_not.2 hstall), hw.1]
  exact if_pos ⟨hw.2, hfault⟩

end

section
variable {s s1 t : State} {d : Fin 4} {e : Fin 128} {dt g i op : Nat} {f : Fld} {slot : Option Nat}

/-- The command of a bundle that faults, its cycle not bringing the watchdog to 0. -/
theorem State.engCommand_faults (hs : cycleOf s (engId d e) dt = s1)
    (hcmd : s.engCommand i op d e dt = (s.advance (engPane (engId d e)) dt).engIssue (engId d e))
    (hissue : ∀ pend, s1.issueBundle (engId d e) pend = s1.engFault (engId d e) f slot) (hf : EngErrBit f)
    (hlasts : (s1.eng (engId d e)).wdLoad = 0 ∨ 2 ≤ (s1.eng (engId d e)).wdog) :
    s.engCommand i op d e dt = (s1.engFault (engId d e) f slot).settlePortB (engId d e) := by
  rw [hcmd, State.engIssue, ← cycleOf, hs, hissue, State.wdogLast_stays]
  rw [(faultShown_engFault s1 _ hf slot).eng]
  dsimp only
  omega

/-- The same where the cycle brings the watchdog to 0. -/
theorem State.engCommand_faults_expires (hs : cycleOf s (engId d e) dt = s1)
    (hcmd : s.engCommand i op d e dt = (s.advance (engPane (engId d e)) dt).engIssue (engId d e))
    (hissue : ∀ pend, s1.issueBundle (engId d e) pend = s1.engFault (engId d e) f slot) (hf : EngErrBit f)
    (hload : (s1.eng (engId d e)).wdLoad ≠ 0) (hone : (s1.eng (engId d e)).wdog = 1) :
    s.engCommand i op d e dt = ((s1.engFault (engId d e) f slot).wdogExpires (engId d e)).settlePortB (engId d e) := by
  have heng := (faultShown_engFault s1 (engId d e) hf slot).eng
  rw [hcmd, State.engIssue, ← cycleOf, hs, hissue, State.wdogLast_expires]
  · rw [heng]; exact nofun
  · rw [hone]; decide
  · rw [heng]; exact hload
  · rw [heng, hone]

end

/-! ### Two slots that write one register (R126) -/

section
variable {s : State} {g ls mac alu br : Nat} {x0 : EngSt}

theorem State.fourSlots_mac_alu (h0 : slotRuns x0 ls = false) (h1 : slotRuns x0 mac = true) (h2 : slotRuns x0 alu = true)
    (h3 : slotRuns x0 br = false) : s.fourSlots g x0 ls mac alu br =
      let a1 := macSlot x0 mac ⟨x0, []⟩
      let a2 := aluSlot x0 alu ⟨a1.x, []⟩
      (if slotsCollide x0 br [] a1.w a2.w then s.setFld (engErr g) F.ENG_ERR.WCOL 1 else s).setEng g (bundleEnd x0 a2.x) := by
  unfold State.fourSlots
  simp only [h0, h1, h2, h3, slotPart_runs, State.brSlot_idle, bundleTail_idle h3, Bool.false_and, Bool.false_eq_true, if_false]
  rfl

theorem EngW.w_noteMsat (a : EngW) (hit : Bool) : (a.noteMsat hit).w = a.w := by
  unfold EngW.noteMsat
  split <;> rfl

theorem macSlot_movaw_writes {w : Nat} (x : EngSt) (h : slotOp w = 0x19) : (macSlot x w ⟨x, []⟩).w = [x.phys (bitsOf w 5 0)] := by
  have hclr : ∀ a : EngW, (if w.testBit 6 then a.setAcc (bitsOf w 19 18) 0 0 else a).w = a.w := fun a => by split <;> rfl
  rw [macSlot_movaw_eq x h, hclr, EngW.w_noteMsat]
  rfl

theorem aluSlot_mov {w : Nat} (x : EngSt) (a : EngW) (h : slotOp w = 0x01) :
    aluSlot x w a = a.setV x (bitsOf w 17 12) (x.vr (bitsOf w 11 6)) := by
  rw [aluSlot, h]
  rfl

/-- A MOVAW and a MOV that name one V register: the later slot's write stands, and WCOL notes it. -/
theorem State.fourSlots_movaw_mov (h0 : slotRuns x0 ls = false) (h1 : slotRuns x0 mac = true) (h2 : slotRuns x0 alu = true)
    (h3 : slotRuns x0 br = false) (hmac : slotOp mac = 0x19) (halu : slotOp alu = 0x01) (hsame : bitsOf mac 5 0 = bitsOf alu 17 12) :
    let y := (macSlot x0 mac ⟨x0, []⟩).x
    s.fourSlots g x0 ls mac alu br = (s.setFld (engErr g) F.ENG_ERR.WCOL 1).setEng g
      (bundleEnd x0 { y with v := SMap.set 0 y.v (x0.phys (bitsOf alu 17 12)) (x0.vr (bitsOf alu 11 6)) }) := by
  intro y
  have hcollide : slotsCollide x0 br [] (macSlot x0 mac ⟨x0, []⟩).w (aluSlot x0 alu ⟨y, []⟩).w = true := by
    rw [aluSlot_mov x0 _ halu, macSlot_movaw_writes x0 hmac, hsame]
    simp [slotsCollide, EngW.setV]
  rw [State.fourSlots_mac_alu h0 h1 h2 h3]
  dsimp only
  rw [if_pos hcollide, aluSlot_mov x0 _ halu]
  rfl

end

/-- The command of a bundle of which a MOVAW and a MOV that name one V register execute. -/
theorem State.engCommand_movaw_mov {s s1 : State} {d : Fin 4} {e : Fin 128} {dt g u w : Nat} (hg : engId d e = g) (hs : cycleOf s g dt = s1)
    (hready : BundleReady s1 g) (hu : SlotExecutes s1 g 1 u) (hw : SlotExecutes s1 g 2 w) (hmac : slotOp u = 0x19) (halu : slotOp w = 0x01)
    (hsame : bitsOf u 5 0 = bitsOf w 17 12) (hidle : ∀ j, j = 0 ∨ j = 3 → slotRuns (s1.eng g) (slotOf (bundleOf s1 g) j) = false) :
    ∃ y, s.engCommand 1 0x19 d e dt = (s1.setFld (engErr g) F.ENG_ERR.WCOL 1).setEng g (bundleEnd (s1.eng g) y) ∧
      SMap.get 0 y.v ((s1.eng g).phys (bitsOf w 17 12)) = (s1.eng g).vr (bitsOf w 11 6) := by
  have h0 := hidle 0 (.inl rfl)
  have h3 := hidle 3 (.inr rfl)
  have hmtc : ¬ mtcIllegal (s1.eng g) (slotOf (bundleOf s1 g) 2) := fun ⟨_, hop, _⟩ => by
    rw [hw.1, halu] at hop
    exact absurd hop (by decide)
  have hstall : s1.engStall g (s1.eng g) (bundleOf s1 g) ((s.advance (engPane g) dt).engTpend g) = 0 :=
    (State.engStall_of_idle h0).trans (if_neg fun hs => Bool.false_ne_true (h3.symm.trans hs.1))
  have hissue := State.issueBundle_effects hready hmtc hstall fun hs => absurd (h3.symm.trans hs) Bool.false_ne_true
  rw [State.engEffects_eq, hu.1, hw.1, State.fourSlots_movaw_mov h0 hu.2 hw.2 h3 hmac halu hsame] at hissue
  refine ⟨_, State.engCommand_of_run hg hs hready hu hmac hissue ?_, SMap.get_set_same _ _ _ _⟩
  rw [State.eng_setEng, if_pos rfl, bundleEnd_state, macSlot_movaw _ hmac]
  exact (cleared_state _ _).trans hready.1


/-! ### Slot NOPs (R123) -/

theorem slotRuns_of_nop {x : EngSt} {w : Nat} (h : slotOp w = 0) : slotRuns x w = false := by
  simp [slotRuns, h]

theorem exec_slotNop {s : State} {d : Fin 4} {e : Fin 128} {dt : Nat} (hready : BundleReady (cycleOf s (engId d e) dt) (engId d e))
    (hnop : ∀ j, j < 4 → slotOp (slotOf (bundleOf (cycleOf s (engId d e) dt) (engId d e)) j) = 0) :
    exec (.slotNop d e dt) s = .next ((s.advance (engPane (engId d e)) dt).engIssue (engId d e)) := by
  obtain ⟨hrun, hclk, hwdog, -, -⟩ := hready
  rw [← State.engCycle_issues hrun hwdog]
  unfold cycleOf at hrun hclk hnop
  rw [((s.advance (engPane (engId d e)) dt).bundle_portB (engId d e)).1] at hnop
  rw [State.engClocked_portB] at hclk
  rw [((s.advance (engPane (engId d e)) dt).portB_steady (engId d e)).2] at hrun
  unfold bundleOf at hnop
  rw [engMember_engId d e] at hnop
  refine congrArg Host.Outcome.next (if_pos ⟨hrun, hclk, List.all_eq_true.2 fun j hj => ?_⟩)
  exact decide_eq_true (hnop j (List.mem_range.1 hj))

end Sys2Proof.Machine
end

section
/-!
PROOF. The program flow of an engine, assembled (R123–R144, R298).
-/
namespace Sys2Proof.Machine
open Sys2Proof.Claims

theorem State.engPend_engId (s : State) (d : Fin 4) (e : Fin 128) : s.engPend (engId d e) = s.setFld (R.ENG_SIG d e) F.ENG_SIG.PEND 1 := by
  rw [State.engPend, engDie_engId, engIx_engId]

theorem bundleEnd_run {x : EngSt} (y : EngSt) (h : y.state = .run) : (bundleEnd x y).state = .run := by
  rw [bundleEnd_state, h]

/-- What a fault of engine `e` of die `d` shows, in the order of the obligation. -/
theorem FaultShown.of_engId {s t : State} {d : Fin 4} {e : Fin 128} {f : Fld} (h : FaultShown s t (engId d e) f) :
    let g := engId d e
    let x := s.eng g
    (t.eng g = { x with state := .fault, stall := 0, wdog := x.wdog - 1 } ∧ (∀ h, h ≠ g → t.eng h = s.eng h) ∧
      t.fld (engErr g) F.ENG_ERR.FPC = x.pc % 4096 ∧ RegsBut s t [engErr g, R.ENG_SIG d e] ∧ t = { s with engs := t.engs, regs := t.regs }) ∧
    t.flag (engErr g) f = true := by
  obtain ⟨heng, hothers, hfpc, hregs, hframe, hflag⟩ := h
  rw [engDie_engId, engIx_engId] at hregs
  exact ⟨⟨heng, hothers, hfpc, hregs, hframe.frame⟩, hflag⟩

theorem settlePortB_of_steady {s : State} {g : Nat} (h : (s.eng g).state = .run ∨ (s.eng g).twr = []) : s.settlePortB g = s := by
  unfold State.settlePortB
  split
  case isTrue => rfl
  case isFalse hrun => rw [h.resolve_left hrun]; rfl

theorem stages_of_legal {w : Nat} (hop : slotOp w = 0x0A) (hlegal : slotLegal 3 w = true) : bitsOf w 11 9 ≠ 0 := by
  unfold slotLegal at hlegal
  rw [hop] at hlegal
  exact (of_decide_eq_true (Bool.and_eq_true_iff.1 hlegal).1).2

theorem wdog_two_le {s : State} {g : Nat} (hready : BundleReady s g) (hone : (s.eng g).wdog ≠ 1) : (s.eng g).wdLoad = 0 ∨ 2 ≤ (s.eng g).wdog :=
  hready.2.2.1.imp_right fun h0 => Nat.lt_of_le_of_ne (Nat.one_le_iff_ne_zero.2 h0) hone.symm

theorem loopFault_ret {x : EngSt} {w : Nat} (hop : slotOp w = 0x03) (hret : x.ret = []) : loopFault x w = true := by
  rw [loopFault, hop]
  exact decide_eq_true hret

/-- A BR operation with a gap behind it that finds the watchdog at 0, ACT asking for the reload. -/
theorem State.engCommand_br_expires {s s1 : State} {d : Fin 4} {e : Fin 128} {dt g w op : Nat} {y : EngSt} (hg : engId d e = g)
    (hs : cycleOf s g dt = s1) (hready : BundleReady s1 g) (hw : SlotExecutes s1 g 3 w) (hidle : OthersIdle s1 g 3) (hop : slotOp w = op)
    (hfree : BrFree (s1.eng g) w ((s.advance (engPane g) dt).engTpend g)) (hgap : brGap (s1.eng g) w = true)
    (hslot : s1.brSlot g (s1.eng g) w true { s1.eng g with wdog := (s1.eng g).wdog - 1, stall := 0 } = (s1, y)) (hrun : y.state = .run)
    (hload : y.wdLoad ≠ 0) (hzero : y.wdog = 0) (htwr : y.twr = []) (hact : s1.fld (R.ENG_WDT d e) F.ENG_WDT.ACT = 0) :
    let p := s1.fld (R.ENG_WDT d e) F.ENG_WDT.PERIOD
    ∃ t, s.engCommand 3 op d e dt = t ∧ t.eng g = { y with wdog := p * 1024 - 2, wdLoad := p } ∧ t.flag (engErr g) F.ENG_ERR.WDX = true ∧
      t.flag (R.ENG_WDT d e) F.ENG_WDT.EXPD = true := by
  have heng : (s1.setEng g y).eng g = y := by rw [State.eng_setEng, if_pos rfl]
  have hgapped := State.gapCycles_expire (s := s1.setEng g y) (g := g) (by rw [heng, hrun]) (by rw [heng]; exact hload) (by rw [heng, hzero])
    (by rw [heng, htwr]) (by rw [State.fld_setEng, ← hg, engDie_engId, engIx_engId, hact])
  rw [heng, State.fld_setEng] at hgapped
  subst hg
  rw [engDie_engId, engIx_engId] at hgapped
  obtain ⟨hgone, hwdx, hexpd⟩ := hgapped
  refine ⟨_, State.engCommand_of_run rfl hs hready hw hop ((State.issueBundle_br hready hw hidle hfree hslot).trans (if_pos hgap)) ?_,
    hgone, hwdx, hexpd⟩
  rw [hgone]
  exact hrun

theorem bundleEnd_keeps (x y : EngSt) : (bundleEnd x y).wdog = x.wdog - 1 ∧ (bundleEnd x y).wdLoad = y.wdLoad := by
  obtain ⟨-, hwdog, hload, -⟩ := loopEnd_keeps { y with wdog := x.wdog - 1, stall := 0 } x.pc
  exact ⟨hwdog, hload⟩

/-- A STOP in the cycle that brings the watchdog to 0 (log entry 146). -/
theorem stopped_expires {t : State} {g : Nat} {x : EngSt} (hload : x.wdLoad ≠ 0) (hone : x.wdog = 1) :
    let stopped := t.setEng g { bundleEnd x x with state := .stopped }
    stopped.wdogLast g x = stopped.wdogExpires g ∧ (stopped.wdogExpires g).flag (engErr g) F.ENG_ERR.WDX = true ∧
    (stopped.wdogExpires g).flag (R.ENG_WDT (engDie g) (engIx g)) F.ENG_WDT.EXPD = true ∧
    ((stopped.wdogExpires g).eng g).state = if t.fld (R.ENG_WDT (engDie g) (engIx g)) F.ENG_WDT.ACT = 0 then .stopped else .fault := by
  intro stopped
  have heng : stopped.eng g = { bundleEnd x x with state := .stopped } := by rw [State.eng_setEng, if_pos rfl]
  obtain ⟨hwdog, hkept⟩ := bundleEnd_keeps x x
  have hexp := expired_wdogExpires stopped g
  refine ⟨State.wdogLast_expires ?_ ?_ ?_ ?_, hexp.wdx, hexp.expd, ?_⟩
  · rw [heng]; exact nofun
  · rw [hone]; decide
  · rw [heng]; exact hkept.symm ▸ hload
  · rw [heng]; exact hwdog.trans (congrArg (· - 1) hone)
  · rw [hexp.eng, heng, State.fld_setEng]
    split <;> rfl

/-! ### START, STOP and expiry (R143, R144) -/

theorem State.reach_of_reached {s : State} {d off : Nat} {v : HWord} {f : State → State} (h : DieReached s d) : s.reach d off v f = f s := by
  rw [State.reach, h.1, h.2]
  rfl

/-- Cancelled counters read 0. -/
theorem get_cancelled {k : Nat} (ls : List LoopRec) (m : SMap Nat) (h : SMap.get 0 m k = 0 ∨ ∃ l ∈ ls, l.k = k) :
    SMap.get 0 (ls.foldl (fun m l => SMap.set 0 m l.k 0) m) k = 0 := by
  induction ls generalizing m with
  | nil => exact h.elim id fun ⟨l, hl, _⟩ => absurd hl List.not_mem_nil
  | cons a ls ih =>
    refine ih _ ?_
    by_cases hk : k = a.k
    · exact .inl (hk ▸ SMap.get_set_same _ _ _ _)
    · rw [SMap.get_set_other _ _ _ _ _ _ hk]
      refine h.imp_right fun ⟨l, hl, hlk⟩ => ⟨l, (List.mem_cons.1 hl).resolve_left ?_, hlk⟩
      rintro rfl
      exact hk hlk.symm

theorem cancelLoops_all (x : EngSt) :
    x.cancelLoops (fun _ => true) = { x with loops := [], lc := x.loops.foldl (fun m l => SMap.set 0 m l.k 0) x.lc } := by
  simp [EngSt.cancelLoops]

/-- May engine `g` start (R143, R298)? -/
def State.mayStart (s : State) (g : Nat) : Prop :=
  ((s.eng g).state = .idle ∨ (s.eng g).state = .stopped ∨ (s.eng g).state = .fault) ∧ (s.pane (engPane g)).shut = false ∧
    s.quiesces (engDie g) = false

theorem State.engStart_starts {s : State} {g : Nat} (h : s.mayStart g) : s.engStart g = (s.latchLaunch g).setEng g (s.reloadWdog g
    { (s.eng g).cancelLoops (fun _ => true) with
      pc := s.liveF (engMember (engDie g) (engIx g)) (R.ENG_CFG (engDie g) (engIx g)) F.ENG_CFG.ENTRY, ret := [], state := .run, stall := 0 }) := by
  obtain ⟨hstate, hshut, hpark⟩ := h
  exact if_pos ⟨hstate, by rw [hshut]; exact Bool.false_ne_true, by rw [hpark]; exact Bool.false_ne_true⟩

theorem State.engStart_refused {s : State} {g : Nat} (h : ¬ s.mayStart g) :
    s.engStart g = s.setFld (R.ENG_STATUS (engDie g) (engIx g)) F.ENG_STATUS.SREJ 1 :=
  if_neg fun ⟨hstate, hshut, hpark⟩ => h ⟨hstate, Bool.eq_false_iff.2 hshut, Bool.eq_false_iff.2 hpark⟩

/-- Settles O23: the BR slot by its operations' equations, a fault by what `engFault` shows, and expiry by what `wdogExpires` shows. -/
theorem engineProgramFlow : Obligations.EngineProgramFlow := by
  refine ⟨?slot, ?bundles, ?commands, fun s g h => settlePortB_of_steady h⟩
  case slot =>
    intro s d e dt w g s1 x y pend gap goes lasts period nv np st begun plain skipped hready hw hidle hnofault
    have hfree : slotOp w ≠ 0x10 → BrFree x w pend := fun hop => ⟨fun h => absurd h hop, hnofault⟩
    have hrun : x.state = .run := hready.1
    have hlasts : lasts → x.wdLoad = 0 ∨ 2 ≤ x.wdog - 1 := fun h => h.imp_right fun h => by omega
    have hskip : (slotOp w = 0x08 ∨ slotOp w = 0x09 ∨ slotOp w = 0x0A) → (loopAsked x w).2 = 0 → lasts → s.engCommand 3 (slotOp w) d e dt = skipped :=
      fun hop hzero hl => by
        have hslot := s1.brSlot_skips g x y hop hzero
        rw [loopAsked_len] at hslot
        exact State.engCommand_br_goes rfl rfl hready hw hidle rfl (hfree (by omega)) (brGap_of_skip hw.2 hop hzero) hslot hrun (hlasts hl)
    have hloop : (slotOp w = 0x08 ∨ slotOp w = 0x09 ∨ slotOp w = 0x0A) → (loopAsked x w).2 ≠ 0 →
        s.engCommand 3 (slotOp w) d e dt = s1.setEng g (y.enterLoop (loopAsked x w).1 (loopAsked x w).2) := fun hop hsome =>
      State.engCommand_br_passes rfl rfl hready hw hidle rfl (hfree (by omega)) (brGap_of_loop hop hsome) (s1.brSlot_loops g x y hop hsome) hrun
    have hstopped : slotOp w = 0x14 → s1.issueBundle g pend = (s1.engPend g).setEng g { bundleEnd x x with state := .stopped } := fun hop =>
      (State.issueBundle_br hready hw hidle (hfree (by omega)) (s1.brSlot_stop g x y hop)).trans (if_neg (by simp [brGap_of_other, hop]))
    refine ⟨fun h hl => ?br, fun h hload hone htwr hact => ?brExpires, fun h hl => ?call, fun h hl => ?ret, fun h hzero hl => ?loopSkips,
      fun h hsome => ?loop, fun h hzero hl => ?loopvSkips, fun h hsome => ?loopv, fun h hzero hl => ?looppSkips, fun h hsome => ?loopp,
      fun h hfew => ?twait, fun h hmany => ?twaitStalls, fun h => ?wdog, fun h => ?blk, fun h => ?sig, fun h hstays => ?stop,
      fun h hload hone => ?stopExpires⟩
    case br =>
      exact congrArg _ (State.engCommand_br_goes rfl rfl hready hw hidle h (hfree (by omega)) (brGap_of_branch hw.2 (.inl h))
        (s1.brSlot_br g x y h) hrun (hlasts hl))
    case brExpires =>
      obtain ⟨t, ht, heng, hwdx, hexpd⟩ := State.engCommand_br_expires rfl rfl hready hw hidle h (hfree (by omega))
        (brGap_of_branch hw.2 (.inl h)) (s1.brSlot_br g x y h) hrun hload (congrArg (· - 1) hone) htwr hact
      exact ⟨t, congrArg Host.Outcome.next ht, (congrArg EngSt.state heng).trans hrun, congrArg EngSt.pc heng, congrArg EngSt.wdog heng, hwdx, hexpd⟩
    case call =>
      exact congrArg _ (State.engCommand_br_goes rfl rfl hready hw hidle h (hfree (by omega)) (brGap_of_branch hw.2 (.inr (.inl h)))
        (s1.brSlot_call g x y h) hrun (hlasts hl))
    case ret =>
      exact congrArg _ (State.engCommand_br_goes rfl rfl hready hw hidle h (hfree (by omega)) (brGap_of_branch hw.2 (.inr (.inr h)))
        (s1.brSlot_ret g x y h) hrun (hlasts hl))
    case loopSkips =>
      exact congrArg Host.Outcome.next (h ▸ hskip (.inl h) (by rw [loopAsked_loop h, hzero]) hl)
    case loop =>
      have hn := hloop (.inl h) (by rw [loopAsked_loop h]; exact hsome)
      rw [h, loopAsked_loop h] at hn
      exact congrArg Host.Outcome.next hn
    case loopvSkips =>
      exact congrArg Host.Outcome.next (h ▸ hskip (.inr (.inl h)) (by rw [loopAsked_loopv h]; exact hzero) hl)
    case loopv =>
      have hn := hloop (.inr (.inl h)) (by rw [loopAsked_loopv h]; exact hsome)
      rw [h, loopAsked_loopv h] at hn
      exact congrArg Host.Outcome.next hn
    case looppSkips =>
      exact congrArg Host.Outcome.next (h ▸ hskip (.inr (.inr h)) (by rw [loopAsked_loopp h]; exact if_pos hzero) hl)
    case loopp =>
      have hst : st ≠ 0 := stages_of_legal h (hw.1 ▸ hready.2.2.2.2 3 (by decide))
      have hasked := loopAsked_loopp (x := x) h
      rw [if_neg hsome] at hasked
      have hn := hloop (.inr (.inr h)) (by rw [hasked]; dsimp only; omega)
      rw [h, hasked, EngSt.enterLoop, if_neg hst] at hn
      exact ⟨_, fun j hj => getLsbD_ofNat_bits _ hj, congrArg Host.Outcome.next hn⟩
    case twait =>
      exact congrArg _ (State.engCommand_br_passes rfl rfl hready hw hidle h ⟨fun _ => hfew, hnofault⟩ (brGap_of_other (by omega))
        (s1.brSlot_twait g x y h) (bundleEnd_run x hrun))
    case twaitStalls =>
      have hstall : s1.engStall g x (bundleOf s1 g) pend = 4 := by
        rw [State.engStall_of_idle (hidle 0 (by decide) (by decide)), hw.1]
        exact if_pos ⟨hw.2, h, hmany⟩
      refine congrArg _ (State.engCommand_of_run rfl rfl hready hw h (t := (s1.addSat (R.ENG_STALLS d e) F.ENG_STALLS.COUNT 1).setEng g
        { x with stall := 4, wdog := x.wdog - 1 }) ?_ ?_)
      · rw [State.issueBundle_ready hready (not_mtcIllegal_of_idle (hidle 2 (by decide) (by decide))), hstall, if_pos (by decide),
          engDie_engId, engIx_engId]
      · rw [State.eng_setEng, if_pos rfl, hrun]
    case wdog =>
      have hload : s1.reloadWdog g y = { x with
          stall := 0, wdog := s1.fld (R.ENG_WDT d e) F.ENG_WDT.PERIOD * 1024, wdLoad := s1.fld (R.ENG_WDT d e) F.ENG_WDT.PERIOD } := by
        rw [State.reloadWdog, engDie_engId, engIx_engId]
      have hslot := s1.brSlot_wdog g x y h
      rw [hload] at hslot
      exact congrArg _ (State.engCommand_br_passes rfl rfl hready hw hidle h (hfree (by omega)) (brGap_of_other (by omega)) hslot
        ((loopEnd_keeps _ _).1.trans hrun))
    case blk =>
      obtain ⟨hexp, hapl, htrk, hmask⟩ := block_fields (min_le_left 255 (bitsOf x.bexp.toNat 23 16 + bitsOf x.bexp.toNat 11 8))
        (min_le_left 15 (bitsOf x.bexp.toNat 4 0 + bitsOf x.scl.toNat 6 5 - 19))
      exact ⟨_, hexp, hapl, htrk, hmask, congrArg _ (State.engCommand_br_passes rfl rfl hready hw hidle h (hfree (by omega))
        (brGap_of_other (by omega)) (s1.brSlot_blk g x y h) ((loopEnd_keeps _ _).1.trans hrun))⟩
    case sig =>
      have hn := State.engCommand_br_passes rfl rfl hready hw hidle h (hfree (by omega)) (brGap_of_other (by omega))
        (s1.brSlot_sig g x y h) (bundleEnd_run x hrun)
      rw [State.engPend_engId, engDie_engId, engIx_engId] at hn
      exact congrArg Host.Outcome.next hn
    case stop =>
      have hn := (State.engCommand_of_ready rfl rfl hready (by rw [hw.1, h])).trans
        (congrArg (fun t => State.settlePortB (State.wdogLast t g x) g) (hstopped h))
      rw [State.wdogLast_stays] at hn
      · rw [State.engPend_engId] at hn
        exact congrArg Host.Outcome.next hn
      · rw [State.eng_setEng, if_pos rfl]
        obtain ⟨hwdog, hload⟩ := bundleEnd_keeps x x
        exact hready.2.2.1.elim (fun h0 => .inl (hload.trans h0)) fun h0 => hstays.imp hload.trans fun h1 =>
          ne_of_eq_of_ne hwdog (Nat.sub_ne_zero_of_lt (lt_of_le_of_ne (Nat.one_le_iff_ne_zero.2 h0) h1.symm))
    case stopExpires =>
      have hn := (State.engCommand_of_ready rfl rfl hready (by rw [hw.1, h])).trans
        (congrArg (fun t => State.settlePortB (State.wdogLast t g x) g) (hstopped h))
      obtain ⟨hlast, hwdx, hexpd, hstate⟩ := stopped_expires (t := s1.engPend g) (g := g) hload hone
      rw [hlast] at hn
      refine ⟨_, congrArg Host.Outcome.next hn, hwdx, ?_, ?_⟩
      · rw [engDie_engId, engIx_engId] at hexpd
        exact hexpd
      · rw [hstate, engDie_engId, engIx_engId, State.engPend_engId, State.fld_setFld_reg _ _ _ _ (engWdt_ne_engSig _ _ _ _)]
  case bundles =>
    intro s d e dt g s1 x fault
    refine ⟨fun hready hnop => ?nop, fun y hloops => ?passes, fun y l hloops hlast hstages hrot => ?loopEnd,
      fun hrun hclk hlasts hbad => ?unreadable, fun i hrun hclk hlasts hread hi hill hlegal => ?illegal,
      fun hrun hclk hload hone hbad => ?unreadableExpires, fun w hready hone hw hop h2 h6 h64 => ?mtc,
      fun w hready hone hw hidle hop hret => ?ret, fun u w hready hu hw hmac halu hsame hidle => ?collide⟩
    case nop =>
      have hidle : ∀ j, j < 4 → slotRuns x (slotOf (bundleOf s1 g) j) = false := fun j hj => slotRuns_of_nop (hnop j hj)
      have hissue : ∀ pend, s1.issueBundle g pend = s1.setEng g (bundleEnd x x) := fun pend => by
        rw [State.issueBundle_effects hready (not_mtcIllegal_of_idle (hidle 2 (by decide)))
          ((State.engStall_of_idle (hidle 0 (by decide))).trans (if_neg fun hs => Bool.false_ne_true ((hidle 3 (by decide)).symm.trans hs.1)))
          (fun hs => absurd ((hidle 3 (by decide)).symm.trans hs) Bool.false_ne_true), State.engEffects_idle hidle]
      refine (exec_slotNop hready hnop).trans (congrArg _ ?_)
      rw [State.engIssue, show State.portB _ _ = s1 from rfl, hissue, State.settled_of_run]
      rw [State.eng_setEng, if_pos rfl, bundleEnd_run x hready.1]
    case passes => exact loopEnd_passes hloops
    case loopEnd =>
      have hends := loopEnd_counts (x := { y with wdog := x.wdog - 1, stall := 0 }) hloops hlast hstages hrot
      refine ⟨fun hc => hends.trans ?_, fun hc => hends.trans ?_⟩
      · dsimp only
        rw [if_pos (by rw [hc]), hc]
      · dsimp only
        rw [if_neg (by omega)]
    case unreadable =>
      have hcmd := State.engCommand_issues (i := 1) (op := 0x01) hrun hclk (hlasts.imp_right fun h => (Nat.zero_lt_of_lt h).ne') (.inr (.inr hbad))
      rw [← engMember_engId d e] at hbad
      have hshown := faultShown_engFault s1 g (f := F.ENG_ERR.PUE) (by decide) none
      exact ⟨_, congrArg _ (State.engCommand_faults rfl hcmd (fun _ => State.issueBundle_unreadable hbad) (by decide) hlasts), hshown.of_engId⟩
    case illegal =>
      obtain ⟨l, hslots⟩ := illegalSlots_lowest hi hill hlegal
      have hcmd := State.engCommand_issues (i := 1) (op := 0x01) hrun hclk (hlasts.imp_right fun h => (Nat.zero_lt_of_lt h).ne') (.inr (.inl (by rw [hslots]; exact List.cons_ne_nil _ _)))
      rw [← engMember_engId d e] at hread
      have hshown := faultShown_engFault s1 g (f := F.ENG_ERR.ILL) (by decide) (some i)
      obtain ⟨hfault, hflag⟩ := hshown.of_engId
      exact ⟨_, congrArg _ (State.engCommand_faults rfl hcmd (fun _ => State.issueBundle_illegal hread hslots) (by decide) hlasts), hfault, hflag,
        fld_slot_engFault s1 g _ hi⟩
    case unreadableExpires =>
      have hcmd := State.engCommand_issues (i := 1) (op := 0x01) hrun hclk (.inr (by rw [hone]; decide)) (.inr (.inr hbad))
      rw [← engMember_engId d e] at hbad
      have hshown := faultShown_engFault s1 g (f := F.ENG_ERR.PUE) (by decide) none
      have hexp := expired_wdogExpires (s1.engFault g F.ENG_ERR.PUE none) g
      refine ⟨_, congrArg _ (State.engCommand_faults_expires rfl hcmd (fun _ => State.issueBundle_unreadable hbad) (by decide) hload hone),
        ?_, ?_, hexp.wdx, ?_⟩
      · rw [hexp.eng, hshown.eng]
        split <;> rfl
      · exact (State.flag_eq_of_fld_eq (hexp.kept _ (by decide) (by decide))).trans hshown.raised
      · have hexpd := hexp.expd
        rw [engDie_engId, engIx_engId] at hexpd
        exact hexpd
    case mtc =>
      have hill : mtcIllegal x (slotOf (bundleOf s1 g) 2) := by
        rw [hw.1]
        exact ⟨hw.2, hop, h2, Bool.and_eq_true_iff.2 ⟨h6, decide_eq_true h64⟩⟩
      have hcmd := State.engCommand_issues (i := 2) (op := 0x21) hready.1 hready.2.1 hready.2.2.1 (.inl (by rw [hw.1, hop]))
      have hshown := faultShown_engFault s1 g (f := F.ENG_ERR.ILL) (by decide) (some 2)
      obtain ⟨hfault, hflag⟩ := hshown.of_engId
      exact ⟨_, congrArg _ (State.engCommand_faults rfl hcmd (fun _ => State.issueBundle_mtcIllegal hready hill) (by decide)
        (wdog_two_le hready hone)), hfault, hflag, fld_slot_engFault s1 g _ (by decide)⟩
    case ret =>
      have hcmd := State.engCommand_issues (i := 3) (op := 0x03) hready.1 hready.2.1 hready.2.2.1 (.inl (by rw [hw.1, hop]))
      have hshown := faultShown_engFault s1 g (f := F.ENG_ERR.LOOPF) (by decide) none
      exact ⟨_, congrArg _ (State.engCommand_faults rfl hcmd (fun _ => State.issueBundle_loopFault hready hidle hw (by omega) (loopFault_ret hop hret))
        (by decide) (wdog_two_le hready hone)), hshown.of_engId⟩
    case collide =>
      obtain ⟨y, hcmd, hread⟩ := State.engCommand_movaw_mov rfl rfl hready hu hw hmac halu hsame hidle
      refine ⟨_, congrArg Host.Outcome.next hcmd, ?_, ?_⟩
      · rw [State.eng_setEng, if_pos rfl, bundleEnd, (loopEnd_keeps _ _).2.2.2]
        exact hread
      · rw [State.flag_setEng]
        exact State.flag_setFld_one _ _ _ (by decide) (by decide)
  case commands =>
    intro s d e g x entry period mayStart
    have hmay : s.mayStart g ↔ mayStart := by
      unfold State.mayStart
      rw [engDie_engId]
    refine ⟨fun hd h => ?start, fun hd h => ?refused, fun hd hrun hwdog => ?stop, fun hd hrun hhalt => ?rests, fun hwdog => ?counts,
      fun hrun hload hzero hclk => ?expires⟩
    case start =>
      have hstart := State.engStart_starts (hmay.2 h)
      rw [cancelLoops_all, State.reloadWdog, engDie_engId, engIx_engId] at hstart
      exact ⟨_, congrArg Host.Outcome.next ((State.reach_of_reached hd).trans hstart), rfl, rfl, rfl, rfl,
        fun l hl => get_cancelled _ _ (.inr ⟨l, hl, rfl⟩), rfl, rfl⟩
    case refused =>
      have hstart := State.engStart_refused (mt hmay.1 h)
      rw [engDie_engId, engIx_engId] at hstart
      exact congrArg Host.Outcome.next ((State.reach_of_reached hd).trans hstart)
    case stop =>
      have hstop : s.engStop g = (((s.setEng g { x with state := .stopped, stall := 0 }).engPend g).settlePortB g) := by
        rw [State.engStop, State.wdogSettle_stays hwdog]
        exact if_pos hrun
      rw [State.engPend_engId] at hstop
      exact congrArg Host.Outcome.next ((State.reach_of_reached hd).trans hstop)
    case rests =>
      have hstop : s.engStop g = s := by
        have hsettle : s.wdogSettle g = s := if_neg fun hs => hrun hs.1
        rw [State.engStop, hsettle]
        exact (if_neg hrun).trans (if_neg hhalt)
      exact congrArg Host.Outcome.next ((State.reach_of_reached hd).trans hstop)
    case counts =>
      refine congrArg Host.Outcome.next (if_neg fun hs => ?_)
      obtain ⟨h1, h2⟩ := of_decide_eq_true hs.2.1
      exact hwdog.elim h1 fun h => h h2
    case expires =>
      obtain ⟨hwdx, hexpd, hothers, hregs, hframe, -, heng⟩ := expired_wdogExpires s g
      rw [engDie_engId, engIx_engId] at hexpd hregs heng
      exact ⟨_, congrArg Host.Outcome.next (if_pos ⟨hrun, decide_eq_true ⟨hload, hzero⟩, hclk⟩), hwdx, hexpd, hregs, hframe.frame, hothers, heng⟩
end Sys2Proof.Machine
end

section
/-! PROOF. What leaves the word memory queues as they are, function by function of the model. -/
namespace Sys2Proof.Machine
open Sys2Proof.Claims

@[simp] theorem State.queues_ite (c : Prop) [Decidable c] (a b : State) : (if c then a else b).queues = if c then a.queues else b.queues :=
  apply_ite State.queues c a b

@[simp] theorem State.queues_foldl {α : Type} (f : State → α → State) (l : List α) (s : State)
    (hf : ∀ a i, (f a i).queues = a.queues) : (l.foldl f s).queues = s.queues := by
  induction l generalizing s with
  | nil => rfl
  | cons i l ih => rw [List.foldl_cons, ih, hf]

@[simp] theorem State.queues_foldl_fst {α β : Type} (f : State × β → α → State × β) (l : List α) (p : State × β)
    (hf : ∀ a i, (f a i).1.queues = a.1.queues) : (l.foldl f p).1.queues = p.1.queues := by
  induction l generalizing p with
  | nil => rfl
  | cons i l ih => rw [List.foldl_cons, ih, hf]

@[simp] theorem State.queues_foldl_snd {α β : Type} (f : β × State → α → β × State) (l : List α) (p : β × State)
    (hf : ∀ a i, (f a i).2.queues = a.2.queues) : (l.foldl f p).2.queues = p.2.queues := by
  induction l generalizing p with
  | nil => rfl
  | cons i l ih => rw [List.foldl_cons, ih, hf]

/-! ### Ops -/

@[simp] theorem State.queues_reach {s : State} {f : State → State} (hf : (f s).queues = s.queues) (d off : Nat) (v : HWord) :
    (s.reach d off v f).queues = s.queues := by
  simp [State.reach, hf]

/-! ### Loops -/

@[simp] theorem State.queues_clockSelection (s : State) :
    (∀ id v, (s.askMux id v).queues = s.queues) ∧ (∀ n, (s.fbCheck n).queues = s.queues) ∧ (∀ n, (s.lockLoop n).queues = s.queues) := by
  simp [State.askMux, State.fbCheck, State.lockLoop]

/-! ### Queues -/

@[simp] theorem State.queues_storeEntry (s : State) (blk a who : Nat) (x : Entry) : (s.storeEntry blk a who x).queues = s.queues := by
  dsimp only [State.storeEntry]
  split <;> simp

@[simp] theorem State.queues_checkEntry (s : State) (blk a : Nat) : (s.checkEntry blk a).queues = s.queues := by
  dsimp only [State.checkEntry]
  split <;> simp

@[simp] theorem State.queues_checkRead (s : State) (blk a : Nat) (e : Entry) : (s.checkRead blk a e).queues = s.queues := by
  dsimp only [State.checkRead]
  repeat' split
  all_goals simp

@[simp] theorem State.queues_pushPort (s : State) (pane m i : Nat) (w : Word) (tag : Bool) :
    (s.pushPort pane m i w tag).2.queues = s.queues := by
  dsimp only [State.pushPort]
  repeat' split
  all_goals simp

@[simp] theorem State.queues_popPort (s : State) (pane m i : Nat) : (s.popPort pane m i).2.queues = s.queues := by
  dsimp only [State.popPort]
  repeat' split
  all_goals simp

@[simp] theorem State.queues_restore (s : State) (blk : Nat) (as : List Nat) : (s.restore blk as).queues = s.queues := by
  simp [State.restore]

/-! ### Panes -/

@[simp] theorem State.queues_capture (s : State) (off : Nat) (mask loc : HWord) (n : Nat) :
    (s.capture off mask loc n).queues = s.queues := by
  simp [State.capture]

@[simp] theorem State.queues_recordContention (s : State) (pane : Nat) : (s.recordContention pane).queues = s.queues := by
  obtain h | ⟨off, mask, loc, n, h⟩ := s.recordContention_cases pane <;> rw [h]
  exact s.queues_capture off mask loc n

@[simp] theorem State.queues_gate (s : State) (pane : Nat) : (s.gate pane).queues = s.queues := by
  simp [State.gate]

/-! ### Access -/

@[simp] theorem State.queues_stagedWrites (s : State) :
    (∀ m, (s.noteRefused m).queues = s.queues) ∧ (∀ m off mask v, (s.writeStaged m off mask v).queues = s.queues) := by
  simp [State.noteRefused, State.writeStaged]

@[simp] theorem State.queues_writeReg (s : State) (off : Nat) (v : HWord) : (s.writeReg off v).queues = s.queues := by
  dsimp only [State.writeReg]
  repeat' split
  all_goals simp

/-! ### Transom -/

@[simp] theorem State.queues_transomLedgers (s : State) :
    (∀ l i j n, (s.setChanFields l i j n).queues = s.queues) ∧ (∀ l v n, (s.setAvail l v n).queues = s.queues) ∧
    (∀ l v n, (s.setIocc l v n).queues = s.queues) ∧ (∀ l v n, (s.sendFlits l v n).queues = s.queues) ∧
    (∀ l v n, (s.creditBack l v n).queues = s.queues) ∧ (∀ l v n, (s.takeFlits l v n).queues = s.queues) ∧
    (∀ l v n, (s.freeFlits l v n).queues = s.queues) := by
  simp [State.setChanFields, State.setAvail, State.setIocc, State.sendFlits, State.creditBack, State.takeFlits, State.freeFlits]

@[simp] theorem State.queues_transomEntry (s : State) :
    (∀ r pane hub n, (s.setTrErr r pane hub n).queues = s.queues) ∧ (∀ l b, (s.setBoarded l b).queues = s.queues) ∧
    (∀ i v f, (s.enter i v f).queues = s.queues) ∧ (∀ i pk, (s.hasLeft i pk).queues = s.queues) := by
  simp [State.setTrErr, State.setBoarded, State.enter, State.hasLeft]

@[simp] theorem State.queues_fillOne (s : State) (i v : Nat) : (s.fillOne i v).queues = s.queues := by
  dsimp only [State.fillOne]
  split <;> simp

@[simp] theorem State.queues_fill (s : State) (i v : Nat) : (s.fill i v).queues = s.queues := by
  simp [State.fill]

@[simp] theorem State.queues_settleTin (s : State) (l v : Nat) : (s.settleTin l v).queues = s.queues := by
  simp [State.settleTin]

@[simp] theorem State.queues_popTin (s : State) (l v : Nat) : (s.popTin l v).queues = s.queues := by
  dsimp only [State.popTin]
  split <;> simp

@[simp] theorem State.queues_transomRequests (s : State) :
    (∀ pk, (s.launch pk).queues = s.queues) ∧ (∀ pk why, (s.holdTag pk why).queues = s.queues) := by
  simp [State.launch, State.holdTag]

@[simp] theorem State.queues_routeReq (s : State) (pk : Packet) : (s.routeReq pk).queues = s.queues := by
  dsimp only [State.routeReq]
  split <;> simp

@[simp] theorem State.queues_transomAnswers (s : State) :
    (∀ pk why, (s.sendReq pk why).queues = s.queues) ∧ (∀ pk cpl, (s.answer pk cpl).queues = s.queues) ∧
    (∀ pk e, (s.answerErr pk e).queues = s.queues) ∧ (∀ pk ws, (s.answerData pk ws).queues = s.queues) := by
  simp [State.sendReq, State.answer, State.answerErr, State.answerData]

@[simp] theorem State.queues_fmAnswer (s : State) (pk : Packet) (done : List FmPart) : (s.fmAnswer pk done).queues = s.queues := by
  dsimp only [State.fmAnswer]
  split <;> simp

@[simp] theorem State.queues_absorbed (s : State) :
    (∀ l dst prio tag e, (s.ownCple l dst prio tag e).queues = s.queues) ∧ (∀ l f, (s.absorb l f).queues = s.queues) := by
  simp [State.ownCple, State.absorb]

@[simp] theorem State.queues_fmFinish (s : State) : s.fmFinish.queues = s.queues := by
  simp [State.fmFinish]

@[simp] theorem State.queues_fmEnd (s : State) (e : FmReq) (p : Piece) (r : FmPart) : (s.fmEnd e p r).queues = s.queues := by
  simp [State.fmEnd]

@[simp] theorem State.queues_absorbPiece (s : State) (l : Nat) (pk : Packet) (i : Nat) : (s.absorbPiece l pk i).queues = s.queues := by
  simp [State.absorbPiece]

@[simp] theorem State.queues_fmCut (s : State) (l : Nat) : (s.fmCut l).queues = s.queues := by
  simp only [State.fmCut, State.queues_fmFinish]
  refine State.queues_foldl _ _ _ fun a v => ?_
  split
  · rfl
  · simp

@[simp] theorem State.queues_boarding (s : State) :
    (∀ l recl, (s.reclaim l recl).queues = s.queues) ∧ (∀ l cause, (s.board l cause).queues = s.queues) ∧
    (∀ l, (s.unboard l).queues = s.queues) := by
  simp [State.reclaim, State.board, State.unboard]

/-! ### Cycle -/

@[simp] theorem State.queues_cycleNotes (s : State) :
    (∀ blk bad, (s.wmXpar blk bad).queues = s.queues) ∧ (∀ pane e, (s.waitPush pane e).queues = s.queues) ∧
    (∀ d n, (s.fpinErr d n).queues = s.queues) ∧ (∀ d l, (s.laneDrop d l).queues = s.queues) := by
  simp [State.wmXpar, State.waitPush, State.fpinErr, State.laneDrop]

/-! ### Channels -/

@[simp] theorem State.queues_enterItem (s : State) (pane k : Nat) (it : ChanItem) : (s.enterItem pane k it).queues = s.queues := by
  dsimp only [State.enterItem]
  split <;> simp

@[simp] theorem State.queues_paneLoses (s : State) (pane : Nat) : (s.paneLoses pane).queues = s.queues := by
  simp [State.paneLoses]

/-! ### WordMem -/

@[simp] theorem State.queues_writeEntries (s : State) (blk a : Nat) (ws : List Word) : (s.writeEntries blk a ws).queues = s.queues := by
  induction ws generalizing s a with
  | nil => rfl
  | cons w ws ih => exact (ih _ _).trans (State.queues_storeEntry _ _ _ _ _)

@[simp] theorem State.queues_readEntries (s : State) (blk a n : Nat) : (s.readEntries blk a n).2.2.queues = s.queues := by
  induction n generalizing s a with
  | zero => rfl
  | succ n ih => exact (ih _ _).trans (State.queues_checkRead _ _ _ _)

@[simp] theorem State.queues_wmEntries (s : State) (pane m a : Nat) (pk : Packet) : (s.wmEntries pane m a pk).queues = s.queues := by
  simp [State.wmEntries]

@[simp] theorem State.queues_moverPosts (s : State) :
    (∀ pane m, (s.moverPost pane m).queues = s.queues) ∧ (∀ pane m old, (s.noteOverlaps pane m old).queues = s.queues) ∧
    (∀ pane m, (s.latchPost pane m).queues = s.queues) := by
  simp [State.moverPost, State.noteOverlaps, State.latchPost]

@[simp] theorem State.queues_snapBlock (s : State) (d p m : Nat) : (s.snapBlock d p m).queues = s.queues := by
  simp [State.snapBlock]

@[simp] theorem State.queues_snapTimes (s : State) (d p m n : Nat) : (s.snapTimes d p m n).queues = s.queues := by
  induction n generalizing s with
  | zero => rfl
  | succ n ih => exact (ih _).trans (by simp)

@[simp] theorem State.queues_lctlSnap (s : State) (d p m : Nat) : (s.lctlSnap d p m).queues = s.queues := by
  simp [State.lctlSnap]

/-! ### Engines -/

@[simp] theorem State.queues_engineFaults (s : State) :
    (∀ g, (s.engPend g).queues = s.queues) ∧ (∀ g f, (s.engRaise g f).queues = s.queues) ∧ (∀ g a, (s.checkDm g a).queues = s.queues) ∧
    (∀ g, (s.latchLaunch g).queues = s.queues) := by
  simp [State.engPend, State.engRaise, State.checkDm, State.latchLaunch]

@[simp] theorem State.queues_portB (s : State) (g : Nat) : (s.portB g).queues = s.queues := by
  dsimp only [State.portB]
  split <;> simp

@[simp] theorem State.queues_portBTimes (s : State) (g n : Nat) : (s.portBTimes g n).queues = s.queues := by
  induction n generalizing s with
  | zero => rfl
  | succ n ih => exact (ih _).trans (State.queues_portB _ _)

@[simp] theorem State.queues_brSlot (s : State) (g : Nat) (x0 : EngSt) (w : Nat) (run : Bool) (x : EngSt) :
    (s.brSlot g x0 w run x).1.queues = s.queues := by
  dsimp only [State.brSlot]
  repeat' split
  all_goals simp

@[simp] theorem State.queues_engineWatchdog (s : State) :
    (∀ g, (s.settlePortB g).queues = s.queues) ∧ (∀ g, (s.wdogExpires g).queues = s.queues) := by
  simp [State.settlePortB, State.wdogExpires]

@[simp] theorem State.queues_wdogSettle (s : State) (g : Nat) : (s.wdogSettle g).queues = s.queues := by
  simp [State.wdogSettle]

@[simp] theorem State.queues_engFault (s : State) (g : Nat) (f : Fld) (slot : Option Nat) : (s.engFault g f slot).queues = s.queues := by
  dsimp only [State.engFault]
  split <;> simp

@[simp] theorem State.queues_gapCycle (s : State) (g : Nat) : (s.gapCycle g).queues = s.queues := by
  simp [State.gapCycle]

@[simp] theorem State.queues_engineRuns (s : State) :
    (∀ g was, (s.wdogLast g was).queues = s.queues) ∧ (∀ g, (s.engStart g).queues = s.queues) ∧ (∀ g, (s.engStop g).queues = s.queues) ∧
    (∀ g, (s.engLeaveOff g).queues = s.queues) := by
  simp [State.wdogLast, State.engStart, State.engStop, State.engLeaveOff]

@[simp] theorem State.queues_writeDm (s : State) (g a : Nat) (ws : List Word) : (s.writeDm g a ws).queues = s.queues := by
  induction ws generalizing s a with
  | nil => rfl
  | cons w ws ih => exact ih _ _

@[simp] theorem State.queues_readDm (s : State) (g a n : Nat) : (s.readDm g a n).2.2.queues = s.queues := by
  induction n generalizing s a with
  | zero => rfl
  | succ n ih => exact (ih _ _).trans (by simp)

@[simp] theorem State.queues_engTarget (s : State) (g a : Nat) (pk : Packet) : (s.engTarget g a pk).queues = s.queues := by
  simp [State.engTarget]

@[simp] theorem State.queues_landDm (s : State) (g : Nat) (x : BitVec 20) (ws : List Word) : (s.landDm g x ws).queues = s.queues := by
  induction ws generalizing s x with
  | nil => rfl
  | cons w ws ih => exact ih _ _

@[simp] theorem State.queues_exchangeEngine (s : State) (g : Nat) : (s.exchangeEngine g).queues = s.queues := by
  simp [State.exchangeEngine]

/-! ### Shutter -/

@[simp] theorem State.queues_tbuEdge (s : State) : s.tbuEdge.queues = s.queues := by
  simp [State.tbuEdge]

@[simp] theorem State.queues_tbuEdges (s : State) (n : Nat) : (s.tbuEdges n).queues = s.queues := by
  induction n generalizing s with
  | zero => rfl
  | succ n ih => exact (ih _).trans (by simp)

@[simp] theorem State.queues_generationRecords (s : State) :
    (∀ t, (s.newFrame t).queues = s.queues) ∧ (∀ e r, (s.relay e r).queues = s.queues) ∧ (∀ d r, (s.recAt d r).queues = s.queues) ∧
    (∀ t kind frame, (s.sendRec t kind frame).queues = s.queues) := by
  simp [State.newFrame, State.relay, State.recAt, State.sendRec]

@[simp] theorem State.queues_switchMember {s : State} {f : State → State} (hf : (f s).queues = s.queues) (m : Nat) :
    (s.switchMember m f).queues = s.queues := by
  unfold State.switchMember
  split <;> simp [hf]

@[simp] theorem State.queues_arms (s : State) :
    (∀ t ms, (s.recordMiss t ms).queues = s.queues) ∧ (∀ t, (s.armOver t).queues = s.queues) ∧
    (∀ t state cause, (s.endArm t state cause).queues = s.queues) ∧ (∀ t v, (s.armGo t v).queues = s.queues) ∧
    (∀ t v, (s.shtArmWrite t v).queues = s.queues) ∧ (∀ m, (s.deferSwitch m).queues = s.queues) ∧
    (∀ t n, (s.decideTick t n).queues = s.queues) := by
  simp [State.recordMiss, State.armOver, State.endArm, State.armGo, State.shtArmWrite, State.deferSwitch, State.decideTick]

@[simp] theorem State.queues_receiveArm (s : State) (m : Nat) : (s.receiveArm m).queues = s.queues := by
  dsimp only [State.receiveArm]
  split <;> simp

@[simp] theorem State.queues_timebase (s : State) :
    (∀ v, (s.tbuSetWrite v).queues = s.queues) ∧ s.readNowL.2.queues = s.queues ∧ (∀ t, (s.readFrameL t).2.queues = s.queues) ∧
    (∀ t, (s.refEdge t).queues = s.queues) ∧ (∀ t, (s.steerQuads t).queues = s.queues) ∧ (∀ t m, (s.heard t m).queues = s.queues) := by
  simp [State.tbuSetWrite, State.readNowL, State.readFrameL, State.refEdge, State.steerQuads, State.heard]

@[simp] theorem State.queues_acknowledge (s : State) (m : Nat) : (s.acknowledge m).queues = s.queues := by
  dsimp only [State.acknowledge]
  repeat' split
  all_goals simp

@[simp] theorem State.queues_exchangeTimes {f : State → State} (hf : ∀ a, (f a).queues = a.queues) (s : State) (n : Nat) :
    (s.exchangeTimes f n).queues = s.queues := by
  induction n generalizing s with
  | zero => rfl
  | succ n ih => exact (ih _).trans (hf _)

@[simp] theorem State.queues_armAcks (s : State) :
    (∀ r, (s.takeAck r).queues = s.queues) ∧ (∀ m, (s.receiveDisarm m).queues = s.queues) := by
  simp [State.takeAck, State.receiveDisarm]

/-! ### FrameMem -/

@[simp] theorem State.queues_blockWrites (s : State) :
    s.free.2.queues = s.queues ∧ (∀ sc bl write, (s.burst sc bl write).queues = s.queues) ∧
    (∀ sc bl, (s.injectBlk sc bl).queues = s.queues) ∧ (∀ sc bl, (s.wroteBlk sc bl).queues = s.queues) := by
  simp [State.free, State.burst, State.injectBlk, State.wroteBlk]

@[simp] theorem State.queues_putWords (s : State) (sc bl k : Nat) (ws : List Word) : (s.putWords sc bl k ws).queues = s.queues := by
  induction ws generalizing s k with
  | nil => rfl
  | cons w ws ih => exact ih _ _

@[simp] theorem State.queues_freeBlk (s : State) (n : Nat) : (s.freeBlk n).2.queues = s.queues := by
  induction n generalizing s with
  | zero => rfl
  | succ n ih => exact (ih _).trans (by simp)

@[simp] theorem State.queues_blockErrors (s : State) :
    (∀ sc bl, (s.noteUe sc bl).queues = s.queues) ∧ (∀ sc bl dev, (s.noteCe sc bl dev).queues = s.queues) := by
  simp [State.noteUe, State.noteCe]

@[simp] theorem State.queues_readWild (s : State) (sc bl : Nat) : (s.readWild sc bl).2.queues = s.queues := by
  dsimp only [State.readWild]
  repeat' split
  all_goals simp

@[simp] theorem State.queues_readBlk (s : State) (sc asked got : Nat) : (s.readBlk sc asked got).2.queues = s.queues := by
  dsimp only [State.readBlk]
  repeat' split
  all_goals simp

@[simp] theorem State.queues_checkBlk (s : State) (sc bl : Nat) : (s.checkBlk sc bl).2.queues = s.queues := by
  simp [State.checkBlk]

@[simp] theorem State.queues_readPiece (s : State) (p : Piece) : (s.readPiece p).2.queues = s.queues := by
  dsimp only [State.readPiece]
  split <;> simp

@[simp] theorem State.queues_writePiece (s : State) (p : Piece) (pk : Packet) : (s.writePiece p pk).2.queues = s.queues := by
  dsimp only [State.writePiece]
  repeat' split
  all_goals simp

@[simp] theorem State.queues_atomicPiece (s : State) (p : Piece) (pk : Packet) : (s.atomicPiece p pk).2.queues = s.queues := by
  dsimp only [State.atomicPiece]
  repeat' split
  all_goals simp

@[simp] theorem State.queues_doPiece (s : State) (p : Piece) (pk : Packet) : (s.doPiece p pk).2.queues = s.queues := by
  dsimp only [State.doPiece]
  repeat' split
  all_goals simp

@[simp] theorem State.queues_fmTake (s : State) (pk : Packet) : (s.fmTake pk).queues = s.queues := by
  simp [State.fmTake]

@[simp] theorem State.queues_fmPerform (s : State) (pk : Packet) : (s.fmPerform pk).queues = s.queues := by
  dsimp only [State.fmPerform]
  split <;> simp

@[simp] theorem State.queues_fmRefuseAt (s : State) (l v n : Nat) : (s.fmRefuseAt l v n).queues = s.queues := by
  induction n generalizing s with
  | zero => rfl
  | succ n ih =>
    unfold State.fmRefuseAt
    split
    · exact (ih _).trans (State.queues_fmPerform _ _)
    · rfl

@[simp] theorem State.queues_spoil (s : State) (l : Nat) (f : TFlit) : (s.spoil l f).2.queues = s.queues := by
  dsimp only [State.spoil]
  split <;> simp

@[simp] theorem State.queues_flitTracks (s : State) :
    (∀ c, (s.fmRefuse c).queues = s.queues) ∧ (∀ l v f, (s.track l v f).queues = s.queues) ∧
    (∀ l v f, (s.sendLocal l v f).queues = s.queues) := by
  simp [State.fmRefuse, State.track, State.sendLocal]

@[simp] theorem State.queues_fmArrive (s : State) (pk : Packet) : (s.fmArrive pk).queues = s.queues := by
  dsimp only [State.fmArrive]
  split <;> simp

@[simp] theorem State.queues_fmPumpOne (s : State) (l v : Nat) : (s.fmPumpOne l v).queues = s.queues := by
  dsimp only [State.fmPumpOne]
  split <;> simp

@[simp] theorem State.queues_splitterPumps (s : State) :
    (∀ l v, (s.fmPump l v).queues = s.queues) ∧ (∀ c, (s.fmPumpAll c).queues = s.queues) := by
  simp [State.fmPump, State.fmPumpAll]

@[simp] theorem State.queues_fmSend (s : State) (pk : Packet) (p : Piece) : (s.fmSend pk p).queues = s.queues := by
  dsimp only [State.fmSend]
  repeat' split
  all_goals simp

@[simp] theorem State.queues_fmSplit (s : State) (v : Nat) : (s.fmSplit v).queues = s.queues := by
  dsimp only [State.fmSplit]
  split <;> simp

@[simp] theorem State.queues_ddrQos (s : State) :
    (∀ c q, (s.qosCharge c q).queues = s.queues) ∧ (∀ c, (s.qosFresh c).queues = s.queues) ∧
    (∀ c st, (s.setDdrState c st).queues = s.queues) ∧ (∀ c step sc, (s.ddrFail c step sc).queues = s.queues) := by
  simp [State.qosCharge, State.qosFresh, State.setDdrState, State.ddrFail]

@[simp] theorem State.queues_startHl2 (s : State) (rate : Nat) : (s.startHl2 rate).queues = s.queues := by
  simp [State.startHl2]

@[simp] theorem State.queues_ddrInitNow (s0 : State) (c : Nat) : (s0.ddrInitNow c).queues = s0.queues := by
  dsimp only [State.ddrInitNow]
  repeat' split
  all_goals simp

@[simp] theorem State.queues_ddrStates (s : State) :
    (∀ c, (s.ddrInit c).queues = s.queues) ∧ (∀ c st, (s.ddrLeaves c st).queues = s.queues) ∧ (∀ c, (s.ddrRetrainNow c).queues = s.queues) ∧
    (∀ c, (s.ddrRetrain c).queues = s.queues) ∧ (∀ c, (s.ddrOffline c).queues = s.queues) ∧ (∀ c, (s.ddrSettle c).queues = s.queues) ∧
    (∀ c, (s.ddrToOnline c).queues = s.queues) := by
  simp [State.ddrInit, State.ddrLeaves, State.ddrRetrainNow, State.ddrRetrain, State.ddrOffline, State.ddrSettle, State.ddrToOnline]

@[simp] theorem State.queues_ddrCtlWrite (s : State) (c : Nat) (v : HWord) : (s.ddrCtlWrite c v).queues = s.queues := by
  dsimp only [State.ddrCtlWrite]
  split <;> simp

@[simp] theorem State.queues_ddrExchange (s : State) :
    (∀ c, (s.ddrZero c).queues = s.queues) ∧ (∀ c, (s.qosExchange c).queues = s.queues) ∧ (∀ v, (s.fshWrite v).queues = s.queues) := by
  simp [State.ddrZero, State.qosExchange, State.fshWrite]

/-! ### Lanes -/

@[simp] theorem State.queues_laneSteps (s : State) :
    (∀ d l f, (s.laneErr d l f).queues = s.queues) ∧ (∀ d l n, (s.setNstate d l n).queues = s.queues) ∧
    (∀ d l b, (s.setCdr d l b).queues = s.queues) ∧ (∀ d l step x, (s.enterStep d l step x).queues = s.queues) := by
  simp [State.laneErr, State.setNstate, State.setCdr, State.enterStep]

@[simp] theorem State.queues_laneRuns (s : State) :
    (∀ d l, (s.enterSeek d l).queues = s.queues) ∧ (∀ d l, (s.setPeak d l).queues = s.queues) ∧
    (∀ d l, (s.adaptPeak d l).queues = s.queues) ∧ (∀ d l, (s.laneStart d l).queues = s.queues) ∧
    (∀ d l, (s.laneStop d l).queues = s.queues) ∧ (∀ d l, (s.laneCheck d l).queues = s.queues) ∧ (∀ d l, (s.laneOn d l).queues = s.queues) ∧
    (∀ d l, (s.laneOff d l).queues = s.queues) ∧ (∀ off d ls v, (s.laneCfgWrite off d ls v).queues = s.queues) ∧
    (∀ d l, (s.eyeGo d l).queues = s.queues) := by
  simp [State.enterSeek, State.setPeak, State.adaptPeak, State.laneStart, State.laneStop, State.laneCheck, State.laneOn, State.laneOff,
    State.laneCfgWrite, State.eyeGo]

@[simp] theorem State.queues_laneStates (s : State) :
    (∀ d l v, (s.laneCtlWrite d l v).queues = s.queues) ∧ (∀ d q, (s.quadLoses d q).queues = s.queues) ∧
    (∀ d l, (s.laneEval d l).queues = s.queues) ∧ (∀ d l, (s.markerLost d l).queues = s.queues) := by
  simp [State.laneCtlWrite, State.quadLoses, State.laneEval, State.markerLost]

/-! ### Hinges -/

@[simp] theorem State.queues_hingeFlits (s : State) :
    (∀ e f, (s.hngErr e f).queues = s.queues) ∧ (∀ e st, (s.setHingeState e st).queues = s.queues) ∧
    (∀ e, (s.injDone e).queues = s.queues) ∧ (∀ e j body nak, (s.putFlit e j body nak).queues = s.queues) := by
  simp [State.hngErr, State.setHingeState, State.injDone, State.putFlit]

@[simp] theorem State.queues_edgeFlits (s : State) :
    (∀ e j, (s.idleFlit e j).queues = s.queues) ∧ (∀ e j half ch, (s.sendEdge e j half ch).queues = s.queues) := by
  simp [State.idleFlit, State.sendEdge]

@[simp] theorem State.queues_edgeSlot (s : State) (e j half : Nat) : (s.edgeSlot e j half).queues = s.queues := by
  dsimp only [State.edgeSlot]
  split <;> simp

@[simp] theorem State.queues_sendTransom (s : State) (e j x v : Nat) : (s.sendTransom e j x v).queues = s.queues := by
  dsimp only [State.sendTransom]
  split <;> simp

@[simp] theorem State.queues_transomSlot (s : State) (e j x v : Nat) : (s.transomSlot e j x v).queues = s.queues := by
  dsimp only [State.transomSlot]
  split <;> simp

@[simp] theorem State.queues_edgeCredits (s : State) :
    (∀ e half, (s.takeEcred e half).2.queues = s.queues) ∧ (∀ e, (s.takeTcred e).2.queues = s.queues) ∧
    (∀ e j, (s.sendTicks e j).queues = s.queues) ∧ (∀ e j x v, (s.dataSlot e j x v).queues = s.queues) := by
  simp [State.takeEcred, State.takeTcred, State.sendTicks, State.dataSlot]

@[simp] theorem State.queues_newFlit (s : State) (e j : Nat) (sel : FlitSel) : (s.newFlit e j sel).queues = s.queues := by
  dsimp only [State.newFlit]
  split <;> simp

@[simp] theorem State.queues_replayFlit (s : State) (e j r : Nat) : (s.replayFlit e j r).queues = s.queues := by
  dsimp only [State.replayFlit]
  split <;> simp

@[simp] theorem State.queues_recallLeaf (s : State) (e j : Nat) : (s.recallLeaf e j).queues = s.queues := by
  refine State.queues_foldl _ _ (s.setLeaf e j _) fun a f => ?_
  cases f.body <;> simp

@[simp] theorem State.queues_sendWidth (s : State) (e : Nat) : (s.sendWidth e).queues = s.queues := by
  dsimp only [State.sendWidth]
  split <;> simp

@[simp] theorem State.queues_hingeTraining (s : State) :
    (∀ e, (s.recallChans e).queues = s.queues) ∧ s.prefLost.queues = s.queues ∧ (∀ k, (s.hingeFail k).queues = s.queues) ∧
    (∀ k, (s.trainBegin k).queues = s.queues) ∧ (∀ k, (s.trainRun k).queues = s.queues) := by
  simp [State.recallChans, State.prefLost, State.hingeFail, State.trainBegin, State.trainRun]

@[simp] theorem State.queues_trainOn (s : State) : s.trainOn.queues = s.queues := by
  simp [State.trainOn]

@[simp] theorem State.queues_trainHinge (s : State) (k : Nat) : (s.trainHinge k).queues = s.queues := by
  simp [State.trainHinge]

@[simp] theorem State.queues_leafFail (s : State) (e j : Nat) : (s.leafFail e j).queues = s.queues := by
  dsimp only [State.leafFail]
  split <;> simp

@[simp] theorem State.queues_linkDiscovery (s : State) :
    s.discover.queues = s.queues ∧ s.fixLevel.queues = s.queues ∧ (∀ r, (s.captureRouter r).queues = s.queues) := by
  simp [State.discover, State.fixLevel, State.captureRouter]

@[simp] theorem State.queues_fillStageOne (s : State) (e x v : Nat) : (s.fillStageOne e x v).queues = s.queues := by
  dsimp only [State.fillStageOne]
  split <;> simp

@[simp] theorem State.queues_hingeCaptures (s : State) :
    (∀ e, (s.snapEnd e).queues = s.queues) ∧ (∀ d, (s.captureDie d).queues = s.queues) ∧ (∀ d, (s.captureLater d).queues = s.queues) ∧
    (∀ pane, (s.routerResume pane).queues = s.queues) := by
  simp [State.snapEnd, State.captureDie, State.captureLater, State.routerResume]

@[simp] theorem State.queues_takeTick (s : State) (e : Nat) (r : TickRec) : (s.takeTick e r).queues = s.queues := by
  dsimp only [State.takeTick]
  split <;> simp

@[simp] theorem State.queues_takeWidth (s : State) (e step wcode : Nat) (mask : BitVec 32) :
    (s.takeWidth e step wcode mask).queues = s.queues := by
  dsimp only [State.takeWidth]
  split <;> simp

@[simp] theorem State.queues_leafStages (s : State) :
    (∀ e x v, (s.fillStage e x v).queues = s.queues) ∧ (∀ e j q, (s.releaseLeaf e j q).queues = s.queues) := by
  simp [State.fillStage, State.releaseLeaf]

@[simp] theorem State.queues_takeBody (s : State) (e : Nat) (n : FlitBody) : (s.takeBody e n).queues = s.queues := by
  dsimp only [State.takeBody]
  split <;> simp

@[simp] theorem State.queues_landed (s : State) (e : Nat) (n : FlitBody) : (s.landed e n).queues = s.queues := by
  dsimp only [State.landed]
  split <;> simp

@[simp] theorem State.queues_replays (s : State) :
    (∀ e j q, (s.startReplay e j q).queues = s.queues) ∧ (∀ e j q, (s.takeNak e j q).queues = s.queues) := by
  simp [State.startReplay, State.takeNak]

@[simp] theorem State.queues_acceptFlit (s : State) (e j : Nat) (f : HFlit) (bs : List (BitVec 48)) :
    (s.acceptFlit e j f bs).queues = s.queues := by
  unfold State.acceptFlit
  extract_lets s1 split s2 nak
  have hs2 : s2.queues = s.queues := by simp [s2, s1]
  have hnak (a : State) : (nak a).queues = a.queues := by
    dsimp only [nak]
    split <;> simp
  split <;> simp [hnak, hs2]

@[simp] theorem State.queues_receive (s : State) (e j : Nat) (noise : List (BitVec 48)) (kind : FlitBody → Bool) :
    (s.receive e j noise kind).queues = s.queues := by
  dsimp only [State.receive]
  split <;> simp

@[simp] theorem State.queues_clockStops (s : State) (e j : Nat) : (s.clockStops e j).queues = s.queues := by
  dsimp only [State.clockStops]
  split <;> simp

@[simp] theorem State.queues_hngRetrain (s : State) (e : Nat) (good : BitVec 32) : (s.hngRetrain e good).queues = s.queues := by
  dsimp only [State.hngRetrain]
  split <;> simp

@[simp] theorem State.queues_reachEnd {s : State} {f : State → State} (hf : (f s).queues = s.queues) (e : Nat) (v : HWord) :
    (s.reachEnd e v f).queues = s.queues := by
  unfold State.reachEnd
  split <;> simp [hf]

@[simp] theorem State.queues_hingeControl (s : State) :
    (∀ e, (s.hngSnap e).queues = s.queues) ∧ (∀ e v, (s.hngCtlWrite e v).queues = s.queues) ∧
    (∀ pane k count, (s.discardChan pane k count).queues = s.queues) ∧ (∀ d, (s.parkHinges d).queues = s.queues) := by
  simp [State.hngSnap, State.hngCtlWrite, State.discardChan, State.parkHinges]

@[simp] theorem State.queues_unboardNow (s : State) (l : Nat) : (s.unboardNow l).queues = s.queues := by
  dsimp only [State.unboardNow]
  repeat' split
  all_goals simp

@[simp] theorem State.queues_boardingCommands (s : State) :
    (∀ l, (s.boardNow l).queues = s.queues) ∧ (∀ l board, (s.brdCmd l board).queues = s.queues) ∧ (∀ l, (s.boardCmd l).queues = s.queues) ∧
    (∀ l, (s.unboardCmd l).queues = s.queues) ∧ (∀ r, (s.brdResume r).queues = s.queues) := by
  simp [State.boardNow, State.brdCmd, State.boardCmd, State.unboardCmd, State.brdResume]

/-! ### Links -/

@[simp] theorem State.queues_uclLink (s : State) :
    (∀ n, (s.setUclState n).queues = s.queues) ∧ (∀ v, (s.uclCredits v).queues = s.queues) ∧ (∀ n, (s.uclLeave n).queues = s.queues) ∧
    s.uclError.queues = s.queues ∧ (∀ v, (s.uclCtlWrite v).queues = s.queues) ∧ (∀ v f, (s.uclFlit v f).queues = s.queues) := by
  simp [State.setUclState, State.uclCredits, State.uclLeave, State.uclError, State.uclCtlWrite, State.uclFlit]

/-! ### Clocks -/

@[simp] theorem State.queues_loopLost (s : State) (n : Nat) : (s.loopLost n).queues = s.queues := by
  dsimp only [State.loopLost]
  split <;> simp

@[simp] theorem State.queues_clockMultiplexers (s : State) :
    (∀ id v, (s.muxDone id v).queues = s.queues) ∧ (∀ i, (s.refFailed i).queues = s.queues) ∧ (∀ n, (s.srcWritten n).queues = s.queues) ∧
    (∀ v, (s.hlcfgWrite v).queues = s.queues) := by
  simp [State.muxDone, State.refFailed, State.srcWritten, State.hlcfgWrite]

@[simp] theorem State.queues_clockMeters (s : State) :
    (∀ v, (s.fmCtlWrite v).queues = s.queues) ∧ (∀ f i b, (s.setCm f i b).queues = s.queues) ∧
    (∀ i out, (s.scClearsFail i out).queues = s.queues) := by
  simp [State.fmCtlWrite, State.setCm, State.scClearsFail]

/-! ### Directory -/

@[simp] theorem State.queues_sdLookup (s : State) (klen : Bool) (k1 k0 : Word) : (s.sdLookup klen k1 k0).2.queues = s.queues := by
  dsimp only [State.sdLookup]
  split <;> simp

@[simp] theorem State.queues_sdResult (s : State) (r : Nat) (i : Option Nat) : (s.sdResult r i).queues = s.queues := by
  dsimp only [State.sdResult]
  split <;> simp

@[simp] theorem State.queues_sdExec (s : State) (op : Nat) (klen : Bool) : (s.sdExec op klen).queues = s.queues := by
  dsimp only [State.sdExec]
  repeat' split
  all_goals simp

@[simp] theorem State.queues_sdCommands (s : State) :
    (∀ v, (s.sdCmdWrite v).queues = s.queues) ∧ (∀ op klen, (s.sdRun op klen).queues = s.queues) ∧
    (∀ op klen, (s.sdCommand op klen).queues = s.queues) ∧ (∀ lp pk, (s.lkTarget lp pk).queues = s.queues) := by
  simp [State.sdCmdWrite, State.sdRun, State.sdCommand, State.lkTarget]

/-! ### Pins -/

@[simp] theorem State.queues_pinConflict (s : State) : s.pinConflict.queues = s.queues := by
  dsimp only [State.pinConflict]
  split <;> simp

@[simp] theorem State.queues_pinLevels (s : State) :
    (∀ k, (s.showPin k).queues = s.queues) ∧ (∀ k, (s.pinInt k).queues = s.queues) ∧ (∀ k, (s.levelInt k).queues = s.queues) ∧
    (∀ c, (s.stamp c).queues = s.queues) ∧ (∀ k l, (s.pinLevel k l).queues = s.queues) ∧ (∀ k l, (s.filtered k l).queues = s.queues) := by
  simp [State.showPin, State.pinInt, State.levelInt, State.stamp, State.pinLevel, State.filtered]

@[simp] theorem State.queues_pinLatches (s : State) :
    (∀ k en level old, (s.latchPin k en level old).queues = s.queues) ∧ (∀ d n o pull, (s.latchFpin d n o pull).queues = s.queues) ∧
    (∀ b, (s.switchBank b).queues = s.queues) ∧ (∀ b, (s.handover b).queues = s.queues) ∧ s.outputsOn.queues = s.queues ∧
    (∀ d, (s.fpinsOn d).queues = s.queues) ∧ (∀ d, (s.fpinsOff d).queues = s.queues) := by
  simp [State.latchPin, State.latchFpin, State.switchBank, State.handover, State.outputsOn, State.fpinsOn, State.fpinsOff]

@[simp] theorem State.queues_outputsOff (s : State) : s.outputsOff.queues = s.queues := by
  simp [State.outputsOff]

/-! ### Message -/

@[simp] theorem State.queues_chainSends (s : State) :
    (∀ down pk, (s.sendChain down pk).queues = s.queues) ∧ s.kprShow.queues = s.queues := by
  simp [State.sendChain, State.kprShow]

@[simp] theorem State.queues_kprSend (s : State) (r : KReq) (ws : List HWord) : (s.kprSend r ws).queues = s.queues := by
  dsimp only [State.kprSend]
  split <;> simp

@[simp] theorem State.queues_kprReply (s : State) (r : KReq) (st : Nat) (ws : List HWord) : (s.kprReply r st ws).queues = s.queues := by
  simp [State.kprReply]

/-! ### Serial -/

@[simp] theorem State.queues_uarts (s : State) :
    (∀ u x, (s.setUart u x).queues = s.queues) ∧ (∀ u v, (s.uartTxWrite u v).queues = s.queues) ∧
    (∀ u x, (s.uartTake u x).queues = s.queues) ∧ (∀ u v, (s.uartCtlWrite u v).queues = s.queues) := by
  simp [State.setUart, State.uartTxWrite, State.uartTake, State.uartCtlWrite]

@[simp] theorem State.queues_serialCommands (s : State) :
    (∀ i v, (s.i2cCmdWrite i v).queues = s.queues) ∧ (∀ i v, (s.spiXferWrite i v).queues = s.queues) := by
  simp [State.i2cCmdWrite, State.spiXferWrite]

/-! ### Session -/

@[simp] theorem State.queues_watchdogReloads (s : State) :
    s.wdReload.queues = s.queues ∧ s.suspEnd.queues = s.queues ∧ (∀ l, (s.setHalted l).queues = s.queues) ∧
    (∀ c, (s.mcReload c).queues = s.queues) := by
  simp [State.wdReload, State.suspEnd, State.setHalted, State.mcReload]

@[simp] theorem State.queues_targetControl (s : State) :
    (∀ c v, (s.mcWdtWrite c v).queues = s.queues) ∧ (∀ halted pend held, (s.setMc0 halted pend held).queues = s.queues) ∧
    (∀ t, (s.resumeTarget t).queues = s.queues) ∧ s.kprClosed.queues = s.queues := by
  simp [State.mcWdtWrite, State.setMc0, State.resumeTarget, State.kprClosed]

@[simp] theorem State.queues_haltWithdrawn (s : State) : s.haltWithdrawn.queues = s.queues := by
  dsimp only [State.haltWithdrawn]
  split <;> simp

@[simp] theorem State.queues_keeperEnds (s : State) :
    s.kprEnd.queues = s.queues ∧ (∀ c, (s.kprLose c).queues = s.queues) ∧ s.uenSet.queues = s.queues ∧
    (∀ v, (s.kprCfgWrite v).queues = s.queues) := by
  simp [State.kprEnd, State.kprLose, State.uenSet, State.kprCfgWrite]

/-! ### Config -/

@[simp] theorem State.queues_entryEffect (s old : State) (row : RegRow) (ix : List Nat) : (s.entryEffect old row ix).queues = s.queues := by
  dsimp only [State.entryEffect]
  split <;> simp

@[simp] theorem State.queues_frameStores (s : State) :
    (∀ c f ws, (s.putFrame c f ws).queues = s.queues) ∧ (∀ f ws, (s.putMemory f ws).queues = s.queues) ∧
    (∀ row off mask v, (s.putImage row off mask v).queues = s.queues) := by
  simp [State.putFrame, State.putMemory, State.putImage]

@[simp] theorem State.queues_bootEntry (s : State) (off : Nat) (v : HWord) : (s.bootEntry off v).queues = s.queues := by
  dsimp only [State.bootEntry]
  split <;> simp

theorem State.queues_paneEntries {w : State → Nat → HWord → State} (hw : ∀ a off v, (w a off v).queues = a.queues) (s : State)
    (f : Nat) (ws : List Word) : (s.paneEntries f ws w).1.queues = s.queues := by
  unfold State.paneEntries
  generalize List.range 49 = es
  refine State.queues_foldl_fst _ _ (s, true) fun a e => ?_
  dsimp only
  split
  · rfl
  · split
    · rfl
    · exact hw _ _ _

theorem State.queues_bootFrame {s t : State} {f : Nat} {ws : List Word} (h : s.bootFrame f ws = some t) : t.queues = s.queues := by
  unfold State.bootFrame at h
  split at h
  · cases h
    simp
  · dsimp only at h
    split at h
    · rw [← Option.some.inj h]
      exact State.queues_paneEntries State.queues_bootEntry _ _ _
    · cases h
  · cases h
    simp

@[simp] theorem State.queues_rtEntry (s : State) (off : Nat) (v : HWord) : (s.rtEntry off v).queues = s.queues := by
  dsimp only [State.rtEntry]
  repeat' split
  all_goals simp

@[simp] theorem State.queues_configWrites (s : State) :
    (∀ v, (s.rbselWrite v).queues = s.queues) ∧ (∀ v, (s.scmdWrite v).queues = s.queues) := by
  simp [State.rbselWrite, State.scmdWrite]

/-! ### Otp -/

@[simp] theorem State.queues_otpFields (s : State) :
    (∀ f g x, (s.setOtpGen f g x).queues = s.queues) ∧ (∀ f, (s.showOtp f).queues = s.queues) ∧ (∀ v, (s.otpCmdWrite v).queues = s.queues) ∧
    (∀ r, (s.otpApply r).queues = s.queues) := by
  simp [State.setOtpGen, State.showOtp, State.otpCmdWrite, State.otpApply]

@[simp] theorem State.queues_otpCut (s : State) : s.otpCut.queues = s.queues := by
  dsimp only [State.otpCut]
  split <;> simp

@[simp] theorem State.queues_jtagShow (s : State) : s.jtagShow.queues = s.queues := by
  simp [State.jtagShow]

/-! ### Load -/

theorem State.queues_nextPacket {s t : State} {r : Nat} {ws : List HWord} (h : s.nextPacket = some (r, ws, t)) :
    t.queues = s.queues := by
  unfold State.nextPacket at h
  split at h
  · obtain ⟨w, -, h⟩ := Option.bind_eq_some_iff.1 h
    dsimp only at h
    split at h
    · cases h
      rfl
    · cases h
  · split at h
    · cases h
    · split at h
      · cases h
        rfl
      · cases h

theorem State.queues_bootFrames {s t : State} {bad : Bool} {n : Nat} {hs : List HWord} (h : s.bootFrames bad n hs = .ok t) :
    t.queues = s.queues := by
  induction n generalizing s bad hs with
  | zero =>
    cases h
    rfl
  | succ n ih =>
    rw [State.bootFrames] at h
    split at h
    · cases h
    · split at h
      · cases h
      · split at h
        · cases h
        · split at h
          · cases h
          · next s1 hs1 => exact (ih h).trans ((by simp [State.frameDone] : _ = s1.queues).trans (State.queues_bootFrame hs1))

theorem State.queues_bootPacket {s t : State} {reg : Nat} {ws : List HWord} {bad : Bool} (h : s.bootPacket reg ws bad = .ok t) :
    t.queues = s.queues := by
  dsimp only [State.bootPacket] at h
  repeat' split at h
  all_goals first
    | exact State.queues_bootFrames (s := s.withCfg _) h
    | (cases h; simp)
    | cases h

@[simp] theorem State.queues_frameLoads (s : State) :
    (∀ ws, (s.frameDone ws).queues = s.queues) ∧ (∀ pane, (s.shutPane pane).queues = s.queues) ∧
    (∀ pane, (s.openPane pane).queues = s.queues) ∧ (∀ load, (s.rtOpen load).queues = s.queues) := by
  simp [State.frameDone, State.shutPane, State.openPane, State.rtOpen]

@[simp] theorem State.queues_loadEnds (s : State) :
    (∀ rej n, (s.loadOver rej n).queues = s.queues) ∧ (∀ n, (s.loadGone n).queues = s.queues) := by
  simp [State.loadOver, State.loadGone]

@[simp] theorem State.queues_rtClose (s : State) (rej : Option Nat) (left : Nat) : (s.rtClose rej left).queues = s.queues := by
  dsimp only [State.rtClose]
  repeat' split
  all_goals simp

/-- The state that a packet of a run-time stream leaves, however the packet ends. -/
def RtEnd.state : RtEnd → State
  | .done s | .busy s | .fail s _ | .gone s => s

theorem State.queues_rtFrame (s : State) (f : Nat) (ws : List Word) : (s.rtFrame f ws).state.queues = s.queues := by
  have hentries := State.queues_paneEntries State.queues_rtEntry s f ws
  dsimp only [State.rtFrame]
  repeat' split
  all_goals simp [RtEnd.state, hentries]

theorem State.queues_rtFrames (s : State) (n : Nat) (hs : List HWord) : (s.rtFrames n hs).state.queues = s.queues := by
  induction n generalizing s hs with
  | zero => rfl
  | succ n ih =>
    rw [State.rtFrames]
    split
    · rfl
    · split
      · rfl
      · have hframe := s.queues_rtFrame s.cfg.fsel (packedWords ((hs.take 125).flatMap hwOctets))
        split
        · next h =>
          rw [h] at hframe
          exact (ih _ _).trans hframe
        · exact hframe

@[simp] theorem State.queues_rtPacket (s : State) (reg : Nat) (ws : List HWord) : (s.rtPacket reg ws).state.queues = s.queues := by
  dsimp only [State.rtPacket]
  split
  case h_4 => exact State.queues_rtFrames _ _ _
  all_goals
    repeat' split
    all_goals simp [RtEnd.state]

@[simp] theorem State.queues_rtTake (s : State) (reg : Nat) (ws : List HWord) (left : Nat) : (s.rtTake reg ws left).queues = s.queues := by
  have hpacket := s.queues_rtPacket reg ws
  unfold State.rtTake
  split
  all_goals
    next h =>
      rw [h, RtEnd.state] at hpacket
      simpa using hpacket

@[simp] theorem State.queues_rtAhead (s : State) : s.rtAhead.queues = s.queues := by
  dsimp only [State.rtAhead]
  split <;> simp

@[simp] theorem State.queues_rtpktWrite (s : State) (v : HWord) : (s.rtpktWrite v).queues = s.queues := by
  simp [State.rtpktWrite]

/-! ### Boot -/

@[simp] theorem State.queues_sendImage (s : State) : s.sendImage.queues = s.queues := by
  dsimp only [State.sendImage]
  split <;> simp

@[simp] theorem State.queues_undoEntries (s : State) : s.undoEntries.queues = s.queues := by
  refine State.queues_foldl _ _ _ fun a off => ?_
  split <;> simp

@[simp] theorem State.queues_bootStates (s : State) :
    (∀ d, (s.clearTins d).queues = s.queues) ∧ s.doneLow.queues = s.queues ∧ s.doneRelease.queues = s.queues ∧
    (∀ n, (s.bootState n).queues = s.queues) := by
  simp [State.clearTins, State.doneLow, State.doneRelease, State.bootState]

@[simp] theorem State.queues_hubEntries (s : State) (h : List HWord) : (s.hubEntries h).1.queues = s.queues := by
  refine State.queues_foldl_fst _ _ (s, true) fun a i => ?_
  dsimp only
  split
  · rfl
  · split <;> simp

@[simp] theorem State.queues_attemptOpen (s : State) (feed : Feed) (second : Bool) : (s.attemptOpen feed second).queues = s.queues := by
  unfold State.attemptOpen
  dsimp only
  simp only [State.withCfg_fields, State.setFld_fields]
  simp

@[simp] theorem State.queues_jtagEnds (s : State) : s.jtagEnds.queues = s.queues := by
  simp [State.jtagEnds]

@[simp] theorem State.queues_beginLoad (s : State) (h : List HWord) : (s.beginLoad h).1.queues = s.queues := by
  dsimp only [State.beginLoad]
  repeat' split
  all_goals simp

@[simp] theorem State.queues_showSec (s : State) (i : Image) : (s.showSec i).queues = s.queues := by
  simp [State.showSec]

@[simp] theorem State.queues_startSlot (s : State) (n : Nat) (second : Bool) : (s.startSlot n second).1.queues = s.queues := by
  dsimp only [State.startSlot]
  repeat' split
  all_goals simp

@[simp] theorem State.queues_dieStart (s : State) :
    (∀ d, (s.dieStarts d).queues = s.queues) ∧ (∀ d, (s.relockDie d).queues = s.queues) ∧ (∀ d, (s.dieOverlaps d).queues = s.queues) ∧
    s.loadOtp.queues = s.queues := by
  simp [State.dieStarts, State.relockDie, State.dieOverlaps, State.loadOtp]

@[simp] theorem State.queues_loopLocks (s : State) :
    s.lockLoops.queues = s.queues ∧ s.resetGoes.queues = s.queues := by
  simp [State.lockLoops, State.resetGoes]

/-! ### Deadbolt -/

@[simp] theorem State.queues_deadbolt (s : State) :
    s.coolCheck.queues = s.queues ∧ (∀ v, (s.heartbeat v).queues = s.queues) ∧ (∀ src, (s.denyWrite src).queues = s.queues) := by
  simp [State.coolCheck, State.heartbeat, State.denyWrite]

/-! ### Host -/

@[simp] theorem State.queues_b2Check (s : State) (id : Nat) : (s.b2Check id).queues = s.queues := by
  dsimp only [State.b2Check]
  split <;> simp

@[simp] theorem State.queues_msix (s : State) :
    (∀ fn x, (s.setMsix fn x).queues = s.queues) ∧ (∀ fn v, (s.vector fn v).queues = s.queues) ∧
    (∀ fn, (s.msixRelease fn).queues = s.queues) ∧ (∀ fn off v, (s.msixWrite fn off v).queues = s.queues) := by
  simp [State.setMsix, State.vector, State.msixRelease, State.msixWrite]

@[simp] theorem State.queues_dmaCpl (s : State) (id part len e : Nat) (ws : List Word) : (s.dmaCpl id part len e ws).queues = s.queues := by
  dsimp only [State.dmaCpl]
  split <;> simp

@[simp] theorem State.queues_dmaPiece (s : State) (c : HCmd) (bytes : List Octet) (ok : Bool) :
    (s.dmaPiece c bytes ok).queues = s.queues := by
  dsimp only [State.dmaPiece]
  repeat' split
  all_goals simp

@[simp] theorem State.queues_dmaStep (s : State) (q i opc : Nat) (bytes : List Octet) (ok : Bool) :
    (s.dmaStep q i opc bytes ok).queues = s.queues := by
  dsimp only [State.dmaStep]
  split <;> simp

@[simp] theorem State.queues_hostQueues (s : State) :
    (∀ id part len ws, (s.b2Cpl id part len ws).queues = s.queues) ∧ (∀ q, (s.hcqRun q).queues = s.queues) ∧
    (∀ q v, (s.hcqCfgWrite q v).queues = s.queues) ∧ (∀ c st info ce3, (s.endCmd c st info ce3).queues = s.queues) := by
  simp [State.b2Cpl, State.hcqRun, State.hcqCfgWrite, State.endCmd]

@[simp] theorem State.queues_diePaths (s : State) :
    (∀ off, (s.writePaths off).queues = s.queues) ∧ (∀ d cmd, (s.parkBegin d cmd).queues = s.queues) := by
  simp [State.writePaths, State.parkBegin]

@[simp] theorem State.queues_parkRequest (s : State) (d : Nat) (cmd : Option Nat) : (s.parkRequest d cmd).2.queues = s.queues := by
  dsimp only [State.parkRequest]
  split <;> simp

@[simp] theorem State.queues_widthArrives (s : State) (e : Nat) : (s.widthArrives e).queues = s.queues := by
  dsimp only [State.widthArrives]
  split <;> simp

@[simp] theorem State.queues_pctlWrite (s : State) (v : HWord) : (s.pctlWrite v).queues = s.queues := by
  dsimp only [State.pctlWrite]
  repeat' split
  all_goals simp

@[simp] theorem State.queues_messageRings (s : State) :
    (∀ k up, (s.bringUp k up).queues = s.queues) ∧ (∀ d, (s.openPaths d).queues = s.queues) ∧
    (∀ i a ws, (s.msgStore i a ws).queues = s.queues) ∧ (∀ i pk, (s.msgTake i pk).queues = s.queues) := by
  simp [State.bringUp, State.openPaths, State.msgStore, State.msgTake]

@[simp] theorem State.queues_messageWrites (s : State) :
    (∀ i v, (s.msgCfgWrite i v).queues = s.queues) ∧ (∀ pk ok data, (s.hostWindow pk ok data).queues = s.queues) := by
  simp [State.msgCfgWrite, State.hostWindow]

/-! ### Net -/

@[simp] theorem State.queues_leave (s : State) (i v : Nat) : (s.leave i v).queues = s.queues := by
  dsimp only [State.leave]
  repeat' split
  all_goals simp

@[simp] theorem State.queues_sendOut (s : State) (l v : Nat) (f : TFlit) : (s.sendOut l v f).queues = s.queues := by
  dsimp only [State.sendOut]
  repeat' split
  all_goals simp

@[simp] theorem State.queues_noteDrop (s : State) (r i : Nat) (pk : Packet) (fate : Fate) : (s.noteDrop r i pk fate).queues = s.queues := by
  cases fate <;> simp [State.noteDrop]

@[simp] theorem State.queues_sendFlit (s : State) (l v : Nat) (f : TFlit) : (s.sendFlit l v f).queues = s.queues := by
  simp [State.sendFlit]

@[simp] theorem State.queues_moveFlit (s : State) (r i v : Nat) (f : TFlit) : (s.moveFlit r i v f).queues = s.queues := by
  dsimp only [State.moveFlit]
  split <;> simp

@[simp] theorem State.queues_outCycle (s : State) (r l : Nat) (cs : List (Nat × Nat)) (c : Nat × Nat) :
    (s.outCycle r l cs c).queues = s.queues := by
  dsimp only [State.outCycle]
  split <;> simp

@[simp] theorem State.queues_forwardRun (s : State) (r i v n : Nat) : (s.forwardRun r i v n).queues = s.queues := by
  induction n generalizing s with
  | zero => rfl
  | succ n ih =>
    dsimp only [State.forwardRun]
    repeat' split
    all_goals simp [ih]

@[simp] theorem State.queues_coreIssue (s : State) (i : Nat) (pk : Packet) : (s.coreIssue i pk).queues = s.queues := by
  simp [State.coreIssue]

@[simp] theorem State.queues_forward (s : State) (i : Nat) (pk : Packet) : (s.forward i pk).queues = s.queues := by
  dsimp only [State.forward]
  repeat' split
  all_goals simp

@[simp] theorem State.queues_fmServe (s : State) (pk : Packet) : (s.fmServe pk).queues = s.queues := by
  dsimp only [State.fmServe]
  split <;> simp

@[simp] theorem State.queues_reachPort {s : State} {f : State → State} (hf : (f s).queues = s.queues) (l b : Nat) :
    (s.reachPort l b f).queues = s.queues := by
  simp [State.reachPort, hf]

@[simp] theorem State.queues_netCaptures (s : State) :
    (∀ pk, (s.takeWhole pk).queues = s.queues) ∧ (∀ r, (s.snapCmd r).queues = s.queues) ∧ (∀ r v, (s.trCmdWrite r v).queues = s.queues) ∧
    (∀ base board v, (s.hubBoardWrite base board v).queues = s.queues) := by
  simp [State.takeWhole, State.snapCmd, State.trCmdWrite, State.hubBoardWrite]

@[simp] theorem State.queues_gsnapWrite (s : State) (v : HWord) : (s.gsnapWrite v).queues = s.queues := by
  simp [State.gsnapWrite]

/-! ### Chain -/

@[simp] theorem State.queues_chainTake {s : State} {f : State → State} (hf : (f s).queues = s.queues) (t : Nat) (pk : ChainPkt) :
    (s.chainTake t pk f).queues = s.queues := by
  simp [State.chainTake, hf]

@[simp] theorem State.queues_chainRounds (s : State) :
    (∀ down pk, (s.chainPass down pk).queues = s.queues) ∧ s.startRound.queues = s.queues ∧ s.knockAsked.queues = s.queues ∧
    (∀ out lock, (s.chainLock out lock).queues = s.queues) := by
  simp [State.chainPass, State.startRound, State.knockAsked, State.chainLock]

@[simp] theorem State.queues_chainControl (s : State) :
    (∀ out c, (s.chainChar out c).queues = s.queues) ∧ s.chnSnap.queues = s.queues ∧ s.mreqSend.queues = s.queues ∧
    (∀ v, (s.chnCtlWrite v).queues = s.queues) := by
  simp [State.chainChar, State.chnSnap, State.mreqSend, State.chnCtlWrite]

@[simp] theorem State.queues_mreqEnd (s : State) (st : Nat) : (s.mreqEnd st).queues = s.queues := by
  simp [State.mreqEnd]

/-! ### Keeper -/

@[simp] theorem State.queues_keeperDrops (s : State) :
    (∀ c m, (s.kprDrop c m).queues = s.queues) ∧ s.badMsg.queues = s.queues := by
  simp [State.kprDrop, State.badMsg]

@[simp] theorem State.queues_kprTooLong (s : State) : s.kprTooLong.queues = s.queues := by
  dsimp only [State.kprTooLong]
  split <;> simp

@[simp] theorem State.queues_kprSift (s : State) (c n : Nat) : (s.kprSift c n).queues = s.queues := by
  induction n generalizing s with
  | zero => rfl
  | succ n ih =>
    dsimp only [State.kprSift]
    repeat' split
    all_goals simp [ih]

@[simp] theorem State.queues_keeperMessages (s : State) :
    (∀ c, (s.kprLook c).queues = s.queues) ∧ (∀ c ws, (s.kprArrive c ws).queues = s.queues) ∧ (∀ v, (s.txdWrite v).queues = s.queues) ∧
    (∀ v, (s.rxpopWrite v).queues = s.queues) := by
  simp [State.kprLook, State.kprArrive, State.txdWrite, State.rxpopWrite]

@[simp] theorem State.queues_kprOctet (s : State) (o : Octet) : (s.kprOctet o).queues = s.queues := by
  dsimp only [State.kprOctet]
  split <;> simp

@[simp] theorem State.queues_kprRow {f : State → KReq → List HWord → State} (hf : ∀ a r ws, (f a r ws).queues = a.queues) (s : State)
    (c t : Nat) : (s.kprRow c t f).queues = s.queues := by
  dsimp only [State.kprRow]
  repeat' split
  all_goals simp [hf]

@[simp] theorem State.queues_kprAsk {f : State → KReq → List HWord → State} (hf : ∀ a r ws, (f a r ws).queues = a.queues) (s : State)
    (c t level : Nat) : (s.kprAsk c t level f).queues = s.queues :=
  State.queues_kprRow (fun a r ws => by simp [hf]) s c t

@[simp] theorem State.queues_freeWords (s : State) (n : Nat) : (s.freeWords n).2.queues = s.queues := by
  induction n generalizing s with
  | zero => rfl
  | succ n ih => exact (ih _).trans (by simp)

@[simp] theorem State.queues_kprOdd (s : State) (r : KReq) : (s.kprOdd r).queues = s.queues := by
  simp [State.kprOdd]

@[simp] theorem State.queues_openStep {f : State → List HWord → State} (hf : ∀ a ws, (f a ws).queues = a.queues) (s : State)
    (c t n : Nat) (ok : State → List HWord → Bool) : (s.openStep c t n ok f).queues = s.queues :=
  State.queues_kprRow (fun a r ws => by simp [hf]) s c t

@[simp] theorem State.queues_noteHalted (s : State) (t : Nat) : (s.noteHalted t).queues = s.queues := by
  simp [State.noteHalted]

@[simp] theorem State.queues_haltComes (s : State) (held : Bool) : (s.haltComes held).queues = s.queues := by
  dsimp only [State.haltComes]
  repeat' split
  all_goals simp

@[simp] theorem State.queues_mc0Step (s : State) : s.mc0Step.queues = s.queues := by
  simp [State.mc0Step]

/-! ### Complete -/

theorem State.queues_takeCpl {s t : State} {pk : Packet} (h : s.takeCpl pk = some t) : t.queues = s.queues := by
  unfold State.takeCpl at h
  split at h
  · cases h
    simp
  · split at h
    · cases h
      rfl
    · cases h

/-! ### Cells -/

@[simp] theorem State.queues_cellCaptures (s : State) :
    (∀ pane off mask loc stamp, (s.captureCell pane off mask loc stamp).queues = s.queues) ∧
    (∀ pane tile c lv, (s.cellNop pane tile c lv).queues = s.queues) ∧ (∀ pane tile c lv, (s.cellParity pane tile c lv).queues = s.queues) ∧
    (∀ pane tile c lv cause, (s.cellIllegal pane tile c lv cause).queues = s.queues) := by
  simp [State.captureCell, State.cellNop, State.cellParity, State.cellIllegal]

/-! ### Scrub -/

@[simp] theorem State.queues_scrubErrors (s : State) :
    s.scrubCe.queues = s.queues ∧ (∀ f, (s.beginReload f).queues = s.queues) ∧ (∀ c f, (s.scrubUe c f).queues = s.queues) ∧
    (∀ c f, (s.scrubFrame c f).queues = s.queues) ∧ s.passEnds.queues = s.queues := by
  simp [State.scrubCe, State.beginReload, State.scrubUe, State.scrubFrame, State.passEnds]

@[simp] theorem State.queues_checkSpareLouvres (s : State) (pane : Nat) : (s.checkSpareLouvres pane).queues = s.queues := by
  unfold State.checkSpareLouvres
  generalize List.filterMap _ _ = l
  cases l <;> simp

@[simp] theorem State.queues_regionReloads (s : State) :
    (∀ c f ws, (s.reloadFrame c f ws).queues = s.queues) ∧ s.endReloads.queues = s.queues ∧ (∀ v, (s.scrubWrite v).queues = s.queues) ∧
    (∀ off i, (s.setBit off i).queues = s.queues) := by
  simp [State.reloadFrame, State.endReloads, State.scrubWrite, State.setBit]

/-! ### Events -/

@[simp] theorem State.queues_eventVectors (s : State) :
    (∀ g, (s.sendVec g).queues = s.queues) ∧ (∀ old g, (s.sendTurns old g).queues = s.queues) ∧ (∀ n, (s.follow n).queues = s.queues) ∧
    (∀ n v, (s.evtSrcWrite n v).queues = s.queues) := by
  simp [State.sendVec, State.sendTurns, State.follow, State.evtSrcWrite]

@[simp] theorem State.queues_eventWrites (s : State) :
    (∀ hi v, (s.gackWrite hi v).queues = s.queues) ∧ s.swFollow.queues = s.queues ∧ (∀ v, (s.swsetWrite v).queues = s.queues) ∧
    (∀ v, (s.swclrWrite v).queues = s.queues) := by
  simp [State.gackWrite, State.swFollow, State.swsetWrite, State.swclrWrite]

/-! ### Diag -/

@[simp] theorem State.queues_diagWrites (s : State) :
    s.diagWritten.queues = s.queues ∧ (∀ tgt n, (s.injectDdr tgt n).queues = s.queues) := by
  simp [State.diagWritten, State.injectDdr]

@[simp] theorem State.queues_diagInjWrite (s : State) (v : HWord) : (s.diagInjWrite v).queues = s.queues := by
  dsimp only [State.diagInjWrite]
  repeat' split
  all_goals simp

@[simp] theorem State.queues_diagCredWrite (s : State) (v : HWord) : (s.diagCredWrite v).queues = s.queues := by
  simp [State.diagCredWrite]

/-! ### Tap -/

@[simp] theorem State.queues_tapRuns {s : State} {f : State → State} (hf : (f s).queues = s.queues) : (s.tapRuns f).queues = s.queues := by
  simp [State.tapRuns, hf]

@[simp] theorem State.queues_tapBoundary (s : State) (code : Nat) (done : Bool) (data : Option (BitVec 194)) :
    (s.tapBoundary code done data).queues = s.queues := by
  dsimp only [State.tapBoundary]
  split <;> simp

@[simp] theorem State.queues_tapBypass (s : State) (code : Nat) : (s.tapBypass code).queues = s.queues := by
  simp [State.tapBypass]

/-! ### Bus -/

@[simp] theorem State.queues_readEffect (s : State) (off : Nat) : (s.readEffect off).queues = s.queues := by
  dsimp only [State.readEffect]
  repeat' split
  all_goals simp

/-! ### BusRows -/

@[simp] theorem State.queues_accAnswer (s : State) (h : HeldAcc) (ws : List HWord) : (s.accAnswer h ws).queues = s.queues := by
  dsimp only [State.accAnswer]
  split <;> simp

@[simp] theorem State.queues_kprIssue (s : State) (r : KReq) (t : Nat) (pk : Packet) : (s.kprIssue r t pk).queues = s.queues := by
  simp [State.kprIssue]

end Sys2Proof.Machine
end

section
/-! PROOF. The ledgers of the word memory queues (R171): every function that touches a queue keeps their identity. -/
namespace Sys2Proof.Machine
open Sys2Proof.Claims

/-- Every queue of a queue file balances (R171). -/
def Ledgers (qs : SMap QueueSt) : Prop := qs.all (fun e => e.2.balances) = true

/-- The ledgers balance in whatever state an outcome goes on to. -/
def NextLedgers : Host.Outcome State Fault Refusal → Prop
  | .next t => Ledgers t.queues
  | _ => True

@[simp] theorem nextLedgers_next (t : State) : NextLedgers (.next t) ↔ Ledgers t.queues := Iff.rfl

section
variable {s : State}

theorem Ledgers.set (h : Ledgers s.queues) {blk q : Nat} {x : QueueSt} (hx : (s.queue blk q).balances = true → x.balances = true) :
    Ledgers (s.setQueue blk q x).queues := (kept_setQueue blk q x hx (.refl s)).queues h

theorem Ledgers.drop {qs : SMap QueueSt} (h : Ledgers qs) (p : Nat → Bool) : Ledgers (SMap.drop qs p) := all_filter _ _ _ h

theorem Ledgers.ite {qs rs : SMap QueueSt} {c : Prop} [Decidable c] (h : Ledgers qs) (g : Ledgers rs) : Ledgers (if c then qs else rs) := by
  split <;> assumption

@[simp] theorem ledgers_ite {qs rs : SMap QueueSt} {c : Prop} [Decidable c] : Ledgers (if c then qs else rs) ↔ if c then Ledgers qs else Ledgers rs :=
  iff_of_eq (apply_ite Ledgers c qs rs)

theorem Ledgers.foldl {α : Type} {f : State → α → State} (hf : ∀ a i, Ledgers a.queues → Ledgers (f a i).queues) (l : List α)
    (h : Ledgers s.queues) : Ledgers (l.foldl f s).queues := by
  induction l generalizing s with
  | nil => exact h
  | cons i l ih => exact ih (hf s i h)

theorem QueueSt.balances_iff (x : QueueSt) : x.balances = true ↔ x.cIn = x.cOut + x.cSlam + x.cFlush + BitVec.ofNat 32 x.occ :=
  decide_eq_true_iff

/-- The first position of a queue holds an entry. -/
def QueueSt.HeadFilled (x : QueueSt) : Prop := ∃ e es, x.slots = e :: es ∧ e.filled = true

theorem QueueSt.headFilled_of_visible {x : QueueSt} {u pos : Nat} (h : x.visible u = some pos) : x.HeadFilled := by
  unfold QueueSt.visible at h
  split at h
  · next e es hslots =>
    split at h
    · next hfilled => exact ⟨e, es, hslots, hfilled.1⟩
    · cases h
  · cases h

theorem QueueSt.headFilled_of_present {x : QueueSt} {u pos : Nat} (h : x.present u = some pos) : x.HeadFilled := by
  unfold QueueSt.present at h
  split at h
  · next e es hslots =>
    split at h
    · next hfilled => exact ⟨e, es, hslots, hfilled.1⟩
    · cases h
  · cases h

theorem State.headFilled_of_presentHead {pane m q : Nat} {e : QSlot} {es : List QSlot} (h : s.presentHead pane m q = e :: es) :
    (s.queue (pane * 6 + m) q).HeadFilled := by
  unfold State.presentHead at h
  cases hslots : (s.queue (pane * 6 + m) q).slots with
  | nil => simp [hslots] at h
  | cons f fs =>
    rw [hslots, List.takeWhile_cons] at h
    split at h
    · next hfilled => exact ⟨f, fs, hslots, (Bool.and_eq_true_iff.1 hfilled).1⟩
    · cases h

theorem State.queue_congr {s t : State} (h : t.queues = s.queues) (blk q : Nat) : t.queue blk q = s.queue blk q := by
  rw [State.queue, State.queue, h]

theorem Ledgers.dropHead (h : Ledgers s.queues) {pane m q : Nat} (hhead : (s.queue (pane * 6 + m) q).HeadFilled) :
    Ledgers (s.dropHead pane m q).queues := by
  refine h.set fun hx => ?_
  obtain ⟨e, es, hslots, hfilled⟩ := hhead
  rw [QueueSt.balances_iff] at hx ⊢
  simp only [QueueSt.occ, hslots, List.filter_cons, hfilled, if_true, List.length_cons, List.tail_cons, BitVec.ofNat_add] at hx ⊢
  rw [hx]
  ac_rfl

theorem Ledgers.takeHead (h : Ledgers s.queues) {pane m q : Nat} {head : Option Nat}
    (hhead : ∀ pos, head = some pos → (s.queue (pane * 6 + m) q).HeadFilled) : Ledgers (s.takeHead pane m q head).2.queues := by
  cases head with
  | none => exact h
  | some pos =>
    have hq := s.queues_checkEntry (pane * 6 + m) pos
    refine Ledgers.dropHead (hq.symm ▸ h) ?_
    rw [State.queue_congr hq]
    exact hhead pos rfl

/-! ### A word stored -/

/-- A predicate holds of every listed value but, it may be, the one that key `k` reads as. -/
def SMap.AllElse {α : Type} (P : α → Bool) (k : Nat) : SMap α → Prop
  | [] => True
  | (j, u) :: m => if j = k then m.all (fun e => P e.2) = true else
      if k < j then ((j, u) :: m).all (fun e => P e.2) = true else P u = true ∧ SMap.AllElse P k m

theorem SMap.allElse_of_all {α : Type} {P : α → Bool} {k : Nat} {m : SMap α} (h : m.all (fun e => P e.2) = true) : SMap.AllElse P k m := by
  induction m with
  | nil => trivial
  | cons e m ih =>
    have hcons := h
    rw [List.all_cons, Bool.and_eq_true] at hcons
    rw [SMap.AllElse]
    split
    · exact hcons.2
    · split
      · exact h
      · exact ⟨hcons.1, ih hcons.2⟩

theorem SMap.AllElse.put {α : Type} {P : α → Bool} {k : Nat} {m : SMap α} (h : SMap.AllElse P k m) (v : α) :
    SMap.AllElse P k (SMap.put m k v) := by
  induction m with
  | nil => simp [SMap.put, SMap.AllElse]
  | cons e m ih =>
    obtain ⟨j, u⟩ := e
    rw [SMap.AllElse] at h
    rw [SMap.put]
    split at h
    · next hj =>
      rw [if_pos hj, SMap.AllElse, if_pos rfl]
      exact h
    · next hj =>
      rw [if_neg hj]
      split at h
      · next hk =>
        rw [if_pos hk, SMap.AllElse, if_pos rfl]
        exact h
      · next hk =>
        rw [if_neg hk, SMap.AllElse, if_neg hj, if_neg hk]
        exact ⟨h.1, ih h.2⟩

theorem SMap.AllElse.del {α : Type} {P : α → Bool} {k : Nat} {m : SMap α} (h : SMap.AllElse P k m) :
    SMap.AllElse P k (SMap.del m k) := by
  induction m with
  | nil => trivial
  | cons e m ih =>
    obtain ⟨j, u⟩ := e
    have hcons := h
    rw [SMap.AllElse] at hcons
    rw [SMap.del]
    split at hcons
    · next hj =>
      rw [if_pos hj]
      refine SMap.allElse_of_all (List.all_eq_true.2 fun e he => ?_)
      exact List.all_eq_true.1 hcons e (List.dropWhile_subset _ he)
    · next hj =>
      rw [if_neg hj]
      split at hcons
      · next hk =>
        rw [if_pos hk]
        exact h
      · next hk =>
        rw [if_neg hk, SMap.AllElse, if_neg hj, if_neg hk]
        exact ⟨hcons.1, ih hcons.2⟩

theorem SMap.AllElse.set {α : Type} [DecidableEq α] {P : α → Bool} {k : Nat} {m : SMap α} (h : SMap.AllElse P k m) (d v : α) :
    SMap.AllElse P k (SMap.set d m k v) := by
  unfold SMap.set
  split
  · exact h.del
  · exact h.put v

theorem SMap.AllElse.all {α : Type} {P : α → Bool} {k : Nat} {m : SMap α} {d : α} (h : SMap.AllElse P k m)
    (hk : P (SMap.get d m k) = true) : m.all (fun e => P e.2) = true := by
  induction m with
  | nil => rfl
  | cons e m ih =>
    obtain ⟨j, u⟩ := e
    rw [SMap.AllElse] at h
    rw [SMap.get] at hk
    rw [List.all_cons, Bool.and_eq_true]
    split at h
    · next hj =>
      rw [if_pos hj] at hk
      exact ⟨hk, h⟩
    · next hj =>
      rw [if_neg hj] at hk
      split at h
      · exact Bool.and_eq_true_iff.1 (by rwa [List.all_cons] at h)
      · next hlt =>
        rw [if_neg hlt] at hk
        exact ⟨h.1, ih h.2 hk⟩

/-- Every other queue balances; the ledger of queue `q` counts `n` entries more than it holds. -/
def State.Owes (s : State) (blk q n : Nat) : Prop :=
  SMap.AllElse QueueSt.balances (blk * 4 + q) s.queues ∧
  (s.queue blk q).cIn = (s.queue blk q).cOut + (s.queue blk q).cSlam + (s.queue blk q).cFlush + BitVec.ofNat 32 ((s.queue blk q).occ + n)

theorem Ledgers.queue (h : Ledgers s.queues) (blk q : Nat) : (s.queue blk q).balances = true :=
  SMap.all_get _ QueueSt.balances _ _ rfl h

theorem State.Owes.ledgers {blk q : Nat} (h : s.Owes blk q 0) : Ledgers s.queues :=
  h.1.all ((QueueSt.balances_iff _).2 h.2)

theorem State.owes_setQueue {blk q n : Nat} {x : QueueSt} (h : SMap.AllElse QueueSt.balances (blk * 4 + q) s.queues)
    (hx : x.cIn = x.cOut + x.cSlam + x.cFlush + BitVec.ofNat 32 (x.occ + n)) : (s.setQueue blk q x).Owes blk q n := by
  refine ⟨h.set _ _, ?_⟩
  rw [State.queue_setQueue_same]
  exact hx

theorem State.Owes.appendWord {pane m q n : Nat} (h : s.Owes (pane * 6 + m) q (n + 1)) (w : Word) (tag net : Bool) :
    (s.appendWord pane m q w tag net).Owes (pane * 6 + m) q n := by
  have hq := s.queues_storeEntry (pane * 6 + m) (s.writePos pane m q) 3 { word := w, tag := tag }
  obtain ⟨hall, hx⟩ := h
  rw [← State.queue_congr hq] at hx
  rw [← hq] at hall
  unfold State.appendWord
  refine State.owes_setQueue hall ?_
  simp only [hx, QueueSt.occ, List.filter_append, List.length_append]
  simp [Nat.add_assoc, Nat.add_comm 1 n]

theorem State.Owes.appendWords {pane m q : Nat} {tag net : QSlot → Bool} {w : QSlot → Word} (l : List QSlot)
    (h : s.Owes (pane * 6 + m) q l.length) :
    (l.foldl (fun a e => a.appendWord pane m q (w e) (tag e) (net e)) s).Owes (pane * 6 + m) q 0 := by
  induction l generalizing s with
  | nil => exact h
  | cons e l ih => exact ih (h.appendWord _ _ _)

theorem QueueSt.netNow_suffix (x : QueueSt) (u : Nat) : x.netNow u <:+ x.slots := List.rtakeWhile_suffix _ _

theorem QueueSt.filled_of_mem_netNow {x : QueueSt} {u : Nat} {e : QSlot} (h : e ∈ x.netNow u) : e.filled = true := by
  have hp := List.mem_rtakeWhile_imp h
  simp only [Bool.and_eq_true] at hp
  exact hp.1.2

/-- Taking filled positions off a queue's end takes as many entries. -/
theorem QueueSt.occ_take {x : QueueSt} {l : List QSlot} (h : l <:+ x.slots) (hfilled : ∀ e ∈ l, e.filled = true) :
    ((x.slots.take (x.slots.length - l.length)).filter fun e => e.filled).length + l.length = x.occ := by
  have hl : (l.filter fun e => e.filled) = l := List.filter_eq_self.2 hfilled
  rw [QueueSt.occ]
  conv_rhs => rw [← List.suffix_iff_eq_append.1 h]
  rw [List.filter_append, List.length_append, hl]

theorem Ledgers.acceptWord (h : Ledgers s.queues) (pane m q : Nat) (w : Word) (tag net : Bool) :
    Ledgers (s.acceptWord pane m q w tag net).queues := by
  unfold State.acceptWord
  extract_lets blk x u behind s1 s2
  have hx : x.cIn = x.cOut + x.cSlam + x.cFlush + BitVec.ofNat 32 x.occ := (QueueSt.balances_iff _).1 (h.queue blk q)
  split
  · refine h.set fun _ => (QueueSt.balances_iff _).2 ?_
    show x.cIn + 1 = x.cOut + (x.cSlam + 1) + x.cFlush + BitVec.ofNat 32 x.occ
    rw [hx]
    ac_rfl
  · refine State.Owes.ledgers (State.Owes.appendWords behind (State.Owes.appendWord (State.owes_setQueue (SMap.allElse_of_all h) ?_) w tag net))
    have hocc : ((x.slots.take (x.slots.length - behind.length)).filter fun e => e.filled).length + behind.length = x.occ := by
      dsimp only [behind]
      split
      · exact QueueSt.occ_take List.nil_suffix (by simp)
      · exact QueueSt.occ_take (x.netNow_suffix u) fun e => QueueSt.filled_of_mem_netNow
    rw [QueueSt.occ, ← Nat.add_assoc, hocc, BitVec.ofNat_add]
    show x.cIn + 1 = x.cOut + x.cSlam + x.cFlush + (BitVec.ofNat 32 x.occ + 1)
    rw [hx]
    ac_rfl

/-! ### The queues' other operations -/

theorem Ledgers.popQueue (h : Ledgers s.queues) (pane m q : Nat) : Ledgers (s.popQueue pane m q).2.queues :=
  h.takeHead fun _ => QueueSt.headFilled_of_visible

@[simp] theorem Ledgers.popEngine (h : Ledgers s.queues) (pane m q : Nat) : Ledgers (s.popEngine pane m q).2.queues := by
  unfold State.popEngine
  split
  · exact h.takeHead fun _ => QueueSt.headFilled_of_present
  · simpa using h

@[simp] theorem Ledgers.popBound (h : Ledgers s.queues) (pane m q : Nat) : Ledgers (s.popBound pane m q).2.queues := by
  unfold State.popBound
  split
  · exact h.popQueue pane m q
  · simpa using h

@[simp] theorem Ledgers.refuse (h : Ledgers s.queues) (pane m q n : Nat) : Ledgers (s.refuse pane m q n).queues := by
  unfold State.refuse
  split
  · exact h.set id
  · exact h

@[simp] theorem Ledgers.pushQueue (h : Ledgers s.queues) (pane m q : Nat) (w : Word) (tag : Bool) :
    Ledgers (s.pushQueue pane m q w tag).2.queues := by
  unfold State.pushQueue
  split
  · exact h.refuse pane m q 1
  · split
    · exact h.acceptWord pane m q w tag false
    · exact (h.refuse pane m q 1).set id

@[simp] theorem Ledgers.pushBound (h : Ledgers s.queues) (pane m q : Nat) (w : Word) (tag : Bool) :
    Ledgers (s.pushBound pane m q w tag).2.queues := by
  unfold State.pushBound
  split
  · exact h.pushQueue pane m q w tag
  · simpa using h

/-! ### SLAM -/

theorem State.length_uptoTag_le (s : State) (blk : Nat) (es : List QSlot) : (s.uptoTag blk es).length ≤ es.length := by
  induction es with
  | nil => exact Nat.le_refl 0
  | cons e es ih =>
    rw [State.uptoTag]
    split
    · simp
    · simpa using ih

/-- Dropping the first `n` elements that `p` names takes `n` off what a weaker predicate counts. -/
theorem countP_dropFirst {α : Type} {p f : α → Bool} (hpf : ∀ a, p a = true → f a = true) {n : Nat} {l : List α} (h : n ≤ l.countP p) :
    (dropFirst p n l).countP f + n = l.countP f := by
  induction l generalizing n with
  | nil =>
    rw [List.countP_nil, Nat.le_zero] at h
    rw [h]
    rfl
  | cons e l ih =>
    cases n with
    | zero => rfl
    | succ n =>
      rw [dropFirst]
      split
      · next hp =>
        rw [List.countP_cons_of_pos hp] at h
        rw [List.countP_cons_of_pos (hpf e hp), ← Nat.add_assoc, ih (Nat.le_of_succ_le_succ h)]
      · next hp =>
        rw [List.countP_cons_of_neg hp] at h
        rw [List.countP_cons, List.countP_cons, Nat.add_right_comm, ih h]

/-- It leaves what a predicate counts that shares no element with `p`. -/
theorem countP_dropFirst_of_disjoint {α : Type} {p f : α → Bool} (hpf : ∀ a, p a = true → f a = false) (n : Nat) (l : List α) :
    (dropFirst p n l).countP f = l.countP f := by
  induction l generalizing n with
  | nil => cases n <;> rfl
  | cons e l ih =>
    cases n with
    | zero => rfl
    | succ n =>
      rw [dropFirst]
      split
      · next hp => rw [ih, List.countP_cons_of_neg (by simp [hpf e hp])]
      · rw [List.countP_cons, List.countP_cons, ih]

@[simp] theorem Ledgers.slamQueue (h : Ledgers s.queues) (pane m q : Nat) : Ledgers (s.slamQueue pane m q).queues := by
  unfold State.slamQueue
  extract_lets blk x u pres packet cut whole sets now late full left ends
  have hx : x.cIn = x.cOut + x.cSlam + x.cFlush + BitVec.ofNat 32 x.occ := (QueueSt.balances_iff _).1 (h.queue blk q)
  have hcut : cut.length ≤ x.slots.countP fun e => e.filled && decide (e.acc ≤ u) := by
    have hpres : pres.length = x.slots.countP fun e => e.filled && decide (e.acc ≤ u) := List.countP_eq_length_filter.symm
    rw [← hpres]
    dsimp only [cut]
    split
    · exact s.length_uptoTag_le blk pres
    · exact Nat.le_refl _
  have hleft : left.countP (fun e => e.filled) + cut.length = x.occ := by
    rw [QueueSt.occ, ← List.countP_eq_length_filter]
    exact countP_dropFirst (fun e he => (Bool.and_eq_true_iff.1 he).1) hcut
  have hocc : ((if sets then left.filter fun e => !now e else left).filter fun e => e.filled).length + cut.length + late.length = x.occ := by
    have hnow : left.countP now = x.slots.countP now :=
      countP_dropFirst_of_disjoint (fun e he => by
        simp only [Bool.and_eq_true, decide_eq_true_eq] at he
        simp [now, Nat.not_lt.2 he.2]) _ _
    have hsplit : (left.filter fun e => !now e).countP (fun e => e.filled) + left.countP now = left.countP fun e => e.filled := by
      have hand : (left.filter now).countP (fun e => e.filled) = left.countP now := by
        rw [List.countP_filter]
        exact List.countP_congr fun e _ => by
          simp only [now, Bool.and_eq_true]
          tauto
      rw [List.countP_eq_countP_filter_add left (fun e => e.filled) now, hand, Nat.add_comm]
    rw [← List.countP_eq_length_filter, ← hleft]
    dsimp only [late]
    split
    · rw [← List.countP_eq_length_filter, ← hnow, ← hsplit]
      omega
    · rfl
  refine Ledgers.set (by simpa using h) fun _ => (QueueSt.balances_iff _).2 ?_
  show x.cIn + BitVec.ofNat 32 full = x.cOut + (x.cSlam + BitVec.ofNat 32 (cut.length + late.length + full)) + x.cFlush + BitVec.ofNat 32 _
  rw [hx, ← hocc]
  simp only [QueueSt.occ, BitVec.ofNat_add]
  ac_rfl

@[simp] theorem Ledgers.slamBound (h : Ledgers s.queues) (pane m q : Nat) : Ledgers (s.slamBound pane m q).queues := by
  have hslam := h.slamQueue pane m q
  dsimp only [State.slamBound]
  repeat' split
  all_goals exact hslam

/-! ### Locked use, and pushes of the transom -/

theorem Ledgers.popMany (h : Ledgers s.queues) (pane m q n : Nat) : Ledgers (s.popMany pane m q n).2.2.queues := by
  induction n generalizing s with
  | zero => exact h
  | succ n ih =>
    rw [State.popMany]
    split
    · exact h
    · next e es hslots =>
      split
      · exact h
      · next hfilled =>
        have hq := s.queues_checkEntry (pane * 6 + m) e.pos
        refine ih (Ledgers.dropHead (hq.symm ▸ h) ?_)
        rw [State.queue_congr hq]
        exact ⟨e, es, hslots, not_not.1 hfilled⟩

theorem Ledgers.lockedRead (h : Ledgers s.queues) (pane m q : Nat) (pk : Packet) : Ledgers (s.lockedRead pane m q pk).queues := by
  simp [State.lockedRead, h, h.popMany]

theorem Ledgers.takeLock (h : Ledgers s.queues) (pane m q : Nat) (pk : Packet) : Ledgers (s.takeLock pane m q pk).queues := by
  have hlock : Ledgers (s.setQueue (pane * 6 + m) q { s.queue (pane * 6 + m) q with lock := some pk.src }).queues := h.set id
  unfold State.takeLock
  split
  · simpa using hlock
  · simpa using hlock

theorem Ledgers.pushWords (h : Ledgers s.queues) (pane m q : Nat) (ws : List Word) : Ledgers (s.pushWords pane m q ws).queues := by
  induction ws generalizing s with
  | nil => exact h
  | cons w ws ih => exact ih (h.acceptWord _ _ _ _ _ _)

theorem Ledgers.storeUnlock (h : Ledgers s.queues) (pane m q : Nat) (pk : Packet) : Ledgers (s.storeUnlock pane m q pk).queues := by
  unfold State.storeUnlock
  extract_lets blk tag s1
  refine Ledgers.set (x := { s1.queue blk q with lock := none }) ?_ id
  dsimp only [s1]
  split
  · simpa using h
  · split
    · simpa using h.acceptWord pane m q _ _ true
    · simpa using h
  · next hhead => simpa using h.dropHead (s.headFilled_of_presentHead hhead)
  · simpa using h

theorem Ledgers.lockedServe (h : Ledgers s.queues) (pane m q : Nat) (pk : Packet) : Ledgers (s.lockedServe pane m q pk).queues := by
  have hpar : Ledgers (s.wmXpar (pane * 6 + m) (anyFails pk)).queues := by simpa using h
  simp [State.lockedServe, h, h.lockedRead, h.takeLock, hpar.storeUnlock]

@[simp] theorem Ledgers.serveWaiters (h : Ledgers s.queues) (pane m q n : Nat) : Ledgers (s.serveWaiters pane m q n).queues := by
  induction n generalizing s with
  | zero => exact h
  | succ n ih =>
    dsimp only [State.serveWaiters]
    split
    · next pk _ =>
      split
      · exact h
      · have hleft : Ledgers (s.setQueue (pane * 6 + m) q { s.queue (pane * 6 + m) q with
            waiters := (s.queue (pane * 6 + m) q).waiters.erase pk }).queues := h.set id
        exact ih (hleft.lockedServe pane m q pk)
    · exact h

theorem Ledgers.unlock (h : Ledgers s.queues) (pane m q : Nat) : Ledgers (s.unlock pane m q).queues := by
  have hfree : Ledgers (s.setQueue (pane * 6 + m) q { s.queue (pane * 6 + m) q with lock := none }).queues := h.set id
  exact hfree.serveWaiters pane m q 5

theorem Ledgers.netPush (h : Ledgers s.queues) (pane m q : Nat) (pk : Packet) : Ledgers (s.netPush pane m q pk).queues := by
  simp [State.netPush, h, h.pushWords]

theorem Ledgers.decidePush (h : Ledgers s.queues) (pane : Nat) (e : LatePush) : Ledgers (s.decidePush pane e).queues := by
  cases e with
  | net m q pk =>
    have hpar : Ledgers (s.wmXpar (pane * 6 + m) (anyFails pk)).queues := by simpa using h
    simp [State.decidePush, State.writeUnlock, hpar.storeUnlock, h.netPush]
  | lane m q l w tag => simp [State.decidePush, h]
  | pin m q n w => simp [State.decidePush, h]

theorem Ledgers.settleLate (h : Ledgers s.queues) (pane : Nat) : Ledgers (s.settleLate pane).queues := by
  unfold State.settleLate
  split
  · exact h
  · exact Ledgers.foldl (fun _ e ha => ha.decidePush pane e) _ h

/-! ### The end of a cycle, and the switching edge -/

@[simp] theorem Ledgers.closeCycle (h : Ledgers s.queues) (pane : Nat) : Ledgers (s.closeCycle pane).queues := by
  simp [State.closeCycle, h, h.settleLate]

@[simp] theorem Ledgers.advance (h : Ledgers s.queues) (pane n : Nat) : Ledgers (s.advance pane n).queues := by
  induction n generalizing s with
  | zero => exact h
  | succ n ih => exact ih (h.closeCycle pane)

theorem Ledgers.flushQueue (h : Ledgers s.queues) (pane m q : Nat) : Ledgers (s.flushQueue pane m q).queues := by
  have hrefused : ∀ l : List Packet, (l.foldl (fun a pk => a.answerErr pk eREFUSED) s).queues = s.queues := fun l => by simp
  unfold State.flushQueue
  extract_lets blk x mv s1 s2
  have hq := hrefused x.waiters
  refine Ledgers.set (s := s1) (hq.symm ▸ h) fun hx => ?_
  rw [State.queue_congr hq, QueueSt.balances_iff] at hx
  rw [QueueSt.balances_iff]
  show x.cIn = x.cOut + x.cSlam + (x.cFlush + BitVec.ofNat 32 x.occ) + BitVec.ofNat 32 0
  rw [show x.cIn = _ from hx]
  simp [x, BitVec.add_assoc]

theorem Ledgers.flushBlock (h : Ledgers s.queues) (old : State) (pane m : Nat) : Ledgers (s.flushBlock old pane m).queues := by
  have hflush : Ledgers ((List.range 4).foldl (fun a q =>
      if s.qSettings pane m q = old.qSettings pane m q then a else a.flushQueue pane m q) s).queues :=
    Ledgers.foldl (fun a q ha => by simp [ha, ha.flushQueue]) _ h
  simp [State.flushBlock, hflush]

@[simp] theorem Ledgers.exchangePane (h : Ledgers s.queues) (pane : Nat) : Ledgers (s.exchangePane pane).queues := by
  unfold State.exchangePane
  extract_lets s1 s2 s3
  have h1 : Ledgers s1.queues := by simp [s1, h]
  have h2 : Ledgers s2.queues := by simpa [s2] using h1
  have h3 : Ledgers s3.queues := Ledgers.foldl (fun a m ha => ha.flushBlock s1 pane m) (List.range 6) h2
  simpa using h3

@[simp] theorem Ledgers.gateWrite (h : Ledgers s.queues) (pane : Nat) (v : HWord) (edge : Bool) :
    Ledgers (s.gateWrite pane v edge).queues := by
  simp [State.gateWrite, h]

/-! ### Accesses of the transom, and what a line mover reserves and fills -/

theorem Ledgers.wmQueuePort (h : Ledgers s.queues) (pane m q : Nat) (pk : Packet) : Ledgers (s.wmQueuePort pane m q pk).queues := by
  have hwait : Ledgers (s.setQueue (pane * 6 + m) q { s.queue (pane * 6 + m) q with
      waiters := (s.queue (pane * 6 + m) q).waiters ++ [pk] }).queues := h.set id
  simp [State.wmQueuePort, h, h.netPush, h.lockedServe, hwait]

@[simp] theorem Ledgers.wmTarget (h : Ledgers s.queues) (pane m o : Nat) (pk : Packet) : Ledgers (s.wmTarget pane m o pk).queues := by
  simp [State.wmTarget, h, h.wmQueuePort]

/-- A reservation that is filled is one entry more. -/
theorem fillFirst_occ {pos acc : Nat} {es sl : List QSlot} (h : fillFirst pos acc es = some sl) :
    (sl.filter fun e => e.filled).length = (es.filter fun e => e.filled).length + 1 := by
  induction es generalizing sl with
  | nil => cases h
  | cons e es ih =>
    rw [fillFirst] at h
    split at h
    · next hfree =>
      rw [← Option.some.inj h, List.filter_cons_of_pos rfl, List.filter_cons_of_neg hfree.2, List.length_cons]
    · obtain ⟨fs, hfs, rfl⟩ := Option.map_eq_some_iff.1 h
      rw [List.filter_cons, List.filter_cons]
      split
      · rw [List.length_cons, List.length_cons, ih hfs]
      · exact ih hfs

theorem Ledgers.fillSlots (h : Ledgers s.queues) (pane m q : Nat) (last : Bool) (ps : List Nat) (ws : List Word) :
    Ledgers (s.fillSlots pane m q last ps ws).queues := by
  induction ps generalizing s ws with
  | nil => exact h
  | cons pos ps ih =>
    cases ws with
    | nil => exact h
    | cons w ws =>
      rw [State.fillSlots]
      refine ih ?_ ws
      have hx := (QueueSt.balances_iff _).1 (h.queue (pane * 6 + m) q)
      split
      · next sl hsl =>
        refine Ledgers.set (by simpa using h) fun _ => (QueueSt.balances_iff _).2 ?_
        simp only [QueueSt.occ, fillFirst_occ hsl, hx, BitVec.ofNat_add]
        ac_rfl
      · refine h.set fun _ => (QueueSt.balances_iff _).2 ?_
        simp only [hx, QueueSt.occ]
        ac_rfl

theorem Ledgers.moverDone (h : Ledgers s.queues) (blk tag : Nat) (ws : Option (List Word)) (xpar : Bool) :
    Ledgers (s.moverDone blk tag ws xpar).queues := by
  unfold State.moverDone
  extract_lets pane m mv s1 st
  split
  · exact h
  · next r _ =>
    extract_lets n words x s2 s3
    have h1 : Ledgers s1.queues := h
    have h2 : Ledgers s2.queues := by
      dsimp only [s2]
      split
      · have hx : x.cIn = x.cOut + x.cSlam + x.cFlush + BitVec.ofNat 32 x.occ := (QueueSt.balances_iff x).1 (h1.queue blk r.q)
        refine h1.set fun _ => (QueueSt.balances_iff _).2 ?_
        simp only [hx, QueueSt.occ]
        ac_rfl
      · exact h1.fillSlots _ _ _ _ _ _
    simp [s3, h2]

/-! ### Channels and lanes -/

theorem Ledgers.deliverItem (h : Ledgers s.queues) {pane k : Nat} {it : ChanItem} {t : State} (ht : s.deliverItem pane k it = some t) :
    Ledgers t.queues := by
  dsimp only [State.deliverItem] at ht
  repeat' split at ht
  all_goals cases ht
  all_goals simp [h]

@[simp] theorem Ledgers.lanePush (h : Ledgers s.queues) (d l : Nat) (w : Word) (tag : Bool) : Ledgers (s.lanePush d l w tag).queues := by
  simp [State.lanePush, h]

@[simp] theorem Ledgers.lanePop (h : Ledgers s.queues) (d l : Nat) : Ledgers (s.lanePop d l).2.queues := by
  dsimp only [State.lanePop]
  repeat' split
  all_goals simp [h]

theorem Ledgers.nextItem (h : Ledgers s.queues) (d l : Nat) : Ledgers (s.nextItem d l).2.queues := by
  have hpop : Ledgers (if s.nstate d l = 3 then s.lanePop d l else (none, s)).2.queues := by split <;> simp [h]
  dsimp only [State.nextItem]
  split
  · exact hpop
  · split
    · simpa using hpop
    · exact hpop

@[simp] theorem Ledgers.frameItems (h : Ledgers s.queues) (d l n : Nat) : Ledgers (s.frameItems d l n).2.queues := by
  induction n generalizing s with
  | zero => exact h
  | succ n ih => exact ih (h.nextItem d l)

@[simp] theorem Ledgers.takeItem (h : Ledgers s.queues) (d l : Nat) (i : BitVec 42) : Ledgers (s.takeItem d l i).queues := by
  simp [State.takeItem, h]

/-! ### Engines and cells -/

theorem Ledgers.lsSlot (h : Ledgers s.queues) (g : Nat) (x : EngSt) (w : Nat) (a : EngW) : Ledgers (s.lsSlot g x w a).1.queues := by
  dsimp only [State.lsSlot]
  repeat' split
  all_goals simp [h]

@[simp] theorem Ledgers.engEffects (h : Ledgers s.queues) (g b : Nat) : Ledgers (s.engEffects g b).queues := by
  unfold State.engEffects
  extract_lets x ls mac alu br due r a1 a2 col s1 src x1 r2
  have hr : Ledgers r.1.queues := by
    dsimp only [r]
    split
    · exact h.lsSlot _ _ _ _
    · exact h
  have h2 : Ledgers r2.1.queues := by simp [r2, s1, hr]
  simp [h2]

@[simp] theorem Ledgers.issueBundle (h : Ledgers s.queues) (g pend : Nat) : Ledgers (s.issueBundle g pend).queues := by
  have hfault : ∀ f slot, Ledgers (s.engFault g f slot).queues := by simp [h]
  by_cases hread : SMap.get 0 s.pmBad (pmKey (s.liveCopy (engMember (engDie g) (engIx g))) g (s.eng g).pc) = 2
  · rw [State.issueBundle_unreadable hread]
    exact hfault _ _
  · cases hill : illegalSlots (bundleOf s g) with
    | cons i l =>
      rw [State.issueBundle_illegal hread hill]
      exact hfault _ _
    | nil =>
      unfold bundleOf at hill
      rw [State.issueBundle, if_neg hread, hill]
      generalize s.bundleAt _ _ _ = b
      dsimp only
      repeat' split
      · exact hfault _ _
      · simpa using h
      · exact hfault _ _
      · exact h.engEffects g b

@[simp] theorem Ledgers.engCycle (h : Ledgers s.queues) (g : Nat) : Ledgers (s.engCycle g).queues := by
  simp [State.engCycle, h]

@[simp] theorem Ledgers.engCommand (h : Ledgers s.queues) (i op : Nat) (d : Fin 4) (e : Fin 128) (dt : Nat) :
    Ledgers (s.engCommand i op d e dt).queues := by
  simp [State.engCommand, h]

@[simp] theorem Ledgers.engStep (h : Ledgers s.queues) (g : Nat) : Ledgers (s.engStep g).queues := by
  simp [State.engStep, h]

theorem Ledgers.cellQueue (h : Ledgers s.queues) (pane tc : Nat) (act : QAct) (a : Word) : Ledgers (s.cellQueue pane tc act a).2.2.queues := by
  cases act <;> dsimp only [State.cellQueue]
  all_goals
    repeat' split
    all_goals simp [h]

@[simp] theorem Ledgers.cellOp (h : Ledgers s.queues) (op : Nat) (c : CellId) (dt : Nat) (f : State → CellEnv → AluRes) (act : QAct) :
    Ledgers (s.cellOp op c dt f act).queues := by
  dsimp only [State.cellOp]
  repeat' split
  all_goals simp [h, State.cellExec, Ledgers.cellQueue]

@[simp] theorem Ledgers.cellAlu (h : Ledgers s.queues) (op : Nat) (c : CellId) (dt : Nat) (f : CellEnv → AluRes) :
    Ledgers (s.cellAlu op c dt f).queues := h.cellOp _ _ _ _ _

/-! ### Starting, parking and resetting dies -/

theorem Ledgers.exchangeTimes {f : State → State} (hf : ∀ a : State, Ledgers a.queues → Ledgers (f a).queues) (h : Ledgers s.queues)
    (n : Nat) : Ledgers (s.exchangeTimes f n).queues := by
  induction n generalizing s with
  | zero => exact h
  | succ n ih => exact ih (hf s h)

@[simp] theorem Ledgers.clocksResume (h : Ledgers s.queues) (pane : Nat) : Ledgers (s.clocksResume pane).queues := by
  unfold State.clocksResume
  extract_lets x s1 s2
  have h1 : Ledgers s1.queues := by
    dsimp only [s1]
    split
    · exact h
    · exact Ledgers.exchangeTimes (fun _ ha => ha.exchangePane pane) (by simpa using h) _
  have h2 : s2.queues = s1.queues := by simp [s2]
  simp [h2, h1]

@[simp] theorem Ledgers.clearDie (h : Ledgers s.queues) (d top : Nat) : Ledgers (s.clearDie d top).queues := by
  have htins : Ledgers (s.clearTins d).queues := by simpa using h
  unfold State.clearDie
  exact htins.drop fun k => decide (k / 4 / 6 / 64 = d)

theorem Ledgers.bootClear (h : Ledgers s.queues) (cause : Nat) (sel : Option Nat) : Ledgers (s.bootClear cause sel).queues := by
  unfold State.bootClear
  extract_lets s1 ds s2 s3 s4 s5
  have h1 : Ledgers s1.undoEntries.queues := by simp [s1, h]
  have h2 : Ledgers s2.queues := Ledgers.foldl (fun a d ha => ha.clearDie d 0x180000) ds h1
  simp [s5, s4, s3, h2]

@[simp] theorem Ledgers.bootFailed (h : Ledgers s.queues) (cause : Nat) (sel : Option Nat) : Ledgers (s.bootFailed cause sel).queues := by
  unfold State.bootFailed
  extract_lets slot0 s1 s2
  have h1 : Ledgers s1.queues := h.bootClear cause sel
  have h3 : Ledgers (s2.startSlot 0 true).1.queues := by simp [s2, h1]
  split
  · simpa using h1
  · split
    · next hslot => rwa [hslot] at h3
    · next hslot =>
      rw [hslot] at h3
      simpa using Ledgers.bootClear h3 _ _

theorem Ledgers.bootNext {r : State × BootFail} (h : Ledgers r.1.queues) : Ledgers (State.bootNext r).queues := by
  unfold State.bootNext
  split
  · exact h
  · exact h.bootFailed _ _

@[simp] theorem Ledgers.dieEvent (h : Ledgers s.queues) (d code : Nat) : Ledgers (s.dieEvent d code).queues := by
  unfold State.dieEvent
  split
  · simpa using h
  · simpa using h.drop _
  · simpa using h

theorem Ledgers.advanceOrder (h : Ledgers s.queues) (n : Nat) : Ledgers (s.advanceOrder n).queues := by
  induction n generalizing s with
  | zero => exact h
  | succ n ih =>
    have hstep (a : State) (ha : Ledgers a.queues) : Ledgers ((a.withCfg fun c => { c with place := c.place + 1 }).advanceOrder n).queues :=
      ih (by simpa using ha)
    have hevent (code : Nat) : Ledgers (s.loadedDies.foldl (fun a d => a.dieEvent d code) s).queues :=
      Ledgers.foldl (fun a d ha => ha.dieEvent d code) _ h
    have hon : Ledgers (s.loadedDies.foldl (fun a d => a.dieEvent d 2) s.outputsOn).queues :=
      Ledgers.foldl (fun a d ha => ha.dieEvent d 2) _ (by simpa using h)
    have hs1 : Ledgers (if (s.outputs && s.loadedDies.all fun d => (SMap.get {} s.dies d).outputs) = true then s else
        s.loadedDies.foldl (fun a d => a.dieEvent d 2) s.outputsOn).queues := by simp [h, hon]
    dsimp only [State.advanceOrder]
    generalize (if (s.outputs && s.loadedDies.all fun d => (SMap.get {} s.dies d).outputs) = true then s else
      s.loadedDies.foldl (fun a d => a.dieEvent d 2) s.outputsOn) = s1 at hs1 ⊢
    split
    · simpa using h
    · split
      · split
        · exact hstep _ h
        · exact h
      · split
        · simpa using h
        · exact h
      · split
        · exact hs1
        · exact hstep s1 hs1
      · exact hstep _ (hevent _)

@[simp] theorem Ledgers.orderOn (h : Ledgers s.queues) : Ledgers s.orderOn.queues := by
  simp [State.orderOn, h, h.advanceOrder]

/-- One loaded die at the start of an image: its overlaps and its clocks are taken up. -/
def State.startDie (s : State) (d : Nat) : State := ((s.updDie d fun x => { x with loaded := true }).dieOverlaps d).relockDie d

@[simp] theorem State.queues_startDie (s : State) (d : Nat) : (s.startDie d).queues = s.queues := by
  simp [State.startDie]

@[simp] theorem Ledgers.startUp (h : Ledgers s.queues) : Ledgers s.startUp.queues := by
  have hs : s.startUp = ((((List.range 4).filter (hDmask s.cfg.head).testBit).foldl State.startDie
      (((s.bootState 3).setFld R.CFG_BSTAT F.CFG_BSTAT.LOADED (hDmask s.cfg.head)).setReg R.CFG_SORDER (BitVec.ofNat 32 s.cfg.order))).withCfg
        fun c => { c with up := true, place := 0 }).orderOn := rfl
  have hds : Ledgers (((List.range 4).filter (hDmask s.cfg.head).testBit).foldl State.startDie
      (((s.bootState 3).setFld R.CFG_BSTAT F.CFG_BSTAT.LOADED (hDmask s.cfg.head)).setReg R.CFG_SORDER (BitVec.ofNat 32 s.cfg.order))).queues :=
    Ledgers.foldl (fun a d ha => by simpa using ha) _ (by simpa using h)
  rw [hs]
  exact Ledgers.orderOn hds

@[simp] theorem Ledgers.paneRelocked (h : Ledgers s.queues) (pane : Nat) : Ledgers (s.paneRelocked pane).queues := by
  simp [State.paneRelocked, h]

@[simp] theorem Ledgers.loadEnded (h : Ledgers s.queues) : Ledgers s.loadEnded.1.queues := by
  unfold State.loadEnded
  split
  · dsimp only
    repeat' split
    all_goals simp [h]
  · exact h.startUp

@[simp] theorem Ledgers.takeReg (h : Ledgers s.queues) (reg : Nat) (bad : Bool) : Ledgers (s.takeReg reg bad).queues := by
  unfold State.takeReg
  split
  · exact h
  · next r ws s1 hnext =>
    have h1 : Ledgers s1.queues := State.queues_nextPacket hnext ▸ h
    split
    · exact h
    · split
      · split
        · exact h1.bootFailed _ _
        · next s2 hs2 =>
          have h2 : Ledgers s2.queues := State.queues_bootPacket hs2 ▸ h1
          refine Ledgers.bootNext ?_
          split
          · exact h2.loadEnded
          · exact h2
      · simpa using h1

@[simp] theorem Ledgers.chainOctets (h : Ledgers s.queues) : Ledgers s.chainOctets.1.queues := by
  dsimp only [State.chainOctets]
  repeat' split
  all_goals simp [h]

@[simp] theorem State.queues_resetBlocks (s : State) : s.resetBlocks.queues = [] := by
  simp [State.resetBlocks]

@[simp] theorem ledgers_nil : Ledgers [] := rfl

/-- The pin `k` as a reset of the device leaves it: settled at its raw level. -/
def State.restPin (s : State) (k : Nat) : State := (s.setPin k { s.pin k with filt := (s.pin k).raw }).showPin k

@[simp] theorem State.queues_restPin (s : State) (k : Nat) : (s.restPin k).queues = s.queues := by
  simp [State.restPin]

theorem State.queues_resetGoes (s : State) : s.resetGoes.queues = s.queues := by simp

@[simp] theorem State.queues_deviceReset (s : State) (cause : Nat) (wake : Option Nat) : (s.deviceReset cause wake).queues = [] := by
  unfold State.deviceReset
  extract_lets b s1 s2 s3 db s4 db4 s5
  have h1 : s1.queues = [] := by simp [s1, b]
  have h2 : s2.queues = [] := by
    dsimp only [s2]
    split
    · rw [State.queues_foldl _ _ _ fun b k => by simp]
      simpa using h1
    · exact h1
  have h3 : s3.queues = [] := (State.queues_foldl _ _ s2 State.queues_restPin).trans h2
  have h4 : s4.queues = [] := h3
  have h5 : s5.queues = [] := h4
  rw [apply_ite State.queues]
  split
  · exact h5
  · exact s5.queues_resetGoes.trans h5

@[simp] theorem Ledgers.clkRstWrite (h : Ledgers s.queues) (v : HWord) : Ledgers (s.clkRstWrite v).queues := by
  simp [State.clkRstWrite, h]

@[simp] theorem Ledgers.holdWrite (h : Ledgers s.queues) (v : HWord) : Ledgers (s.holdWrite v).queues := by
  simp [State.holdWrite, h]

@[simp] theorem Ledgers.bellLevels (h : Ledgers s.queues) (ks levels : BitVec 4) : Ledgers (s.bellLevels ks levels).queues := by
  simp [State.bellLevels, h]

@[simp] theorem Ledgers.bootBegin (h : Ledgers s.queues) : Ledgers s.bootBegin.queues := by
  simp [State.bootBegin, h, Ledgers.bootNext]

@[simp] theorem Ledgers.parkEnd (h : Ledgers s.queues) (p : ParkSt) (late : Bool) : Ledgers (s.parkEnd p late).queues := by
  have hclear : Ledgers ((((s.facing p.die).foldl (fun a l => a.board l 3) s).parkHinges p.die).clearDie p.die 0x400000).queues := by
    simp [h]
  dsimp only [State.parkEnd]
  split <;> simpa using hclear

@[simp] theorem Ledgers.dieUp (h : Ledgers s.queues) (d : Nat) : Ledgers (s.dieUp d).queues := by
  have hup : Ledgers ((List.range 64).foldl (fun a p => a.paneRelocked (paneId d p))
      (((s.updDie d fun x => { x with loaded := true }).dieOverlaps d).relockDie d)).queues :=
    Ledgers.foldl (fun a p ha => ha.paneRelocked _) _ (by simpa using h)
  have hgsr := (hup.dieEvent d 3).dieEvent d 2
  exact Ledgers.dieEvent (by simpa using hgsr) d 4

/-- What each good frame of a walk keeps, the walk keeps. -/
theorem State.walkImage_keeps {α : Type} {P : α → Prop} {g : α → Nat → List Word → Except Nat α}
    (hg : ∀ a f ws b, P a → g a f ws = .ok b → P b) (s : State) (n : Nat) (h : List HWord) (fuel pos fsel : Nat) {a : α} (ha : P a) :
    P (s.walkImage n h g fuel pos fsel a).1 := by
  induction fuel generalizing pos fsel a with
  | zero => exact ha
  | succ fuel ih =>
    rw [State.walkImage]
    split
    · exact ha
    · split
      · exact ha
      · extract_lets hd ws next r
        have hr : P r.1 := by
          refine List.foldlRecOn (motive := fun b : α × Nat => P b.1) _ _ ha fun b hb k _ => ?_
          dsimp only
          repeat' split
          case h_1 hok => exact hg _ _ _ _ hb hok
          all_goals exact hb
        split
        · exact ha
        · split
          · exact ih _ _ ha
          · split
            · exact hr
            · exact ih _ _ hr
          · exact ha
          · exact ih _ _ ha

theorem State.walkRunning_keeps {α : Type} {P : α → Prop} {g : α → Nat → List Word → Except Nat α}
    (hg : ∀ a f ws b, P a → g a f ws = .ok b → P b) (s : State) {a : α} (ha : P a) : P (s.walkRunning g a).1 := by
  unfold State.walkRunning
  split
  · exact ha
  · exact State.walkImage_keeps hg _ _ _ _ _ _ ha

theorem Ledgers.unparkSteps (h : Ledgers s.queues) (d : Nat) (ups : BitVec 6) (lock : Bool) : Ledgers (s.unparkSteps d ups lock).1.queues := by
  unfold State.unparkSteps
  extract_lets s0 ks s1 r s3
  have h1 : Ledgers s1.queues := by simp [s1, s0, h]
  have hr : Ledgers r.1.queues := by
    refine State.walkRunning_keeps (P := fun a : State => Ledgers a.queues) (fun a f ws b ha hb => ?_) s1 h1
    split at hb
    · split at hb
      · next t ht =>
        cases hb
        rwa [State.queues_bootFrame ht]
      · cases hb
    · cases hb
      exact ha
  have h3 : Ledgers s3.queues := by simpa [s3] using hr.dieUp d
  repeat' split
  all_goals simp [h, h3]

@[simp] theorem Ledgers.unparkRequest (h : Ledgers s.queues) (d : Nat) (ups : BitVec 6) (lock : Bool) :
    Ledgers (s.unparkRequest d ups lock).1.queues := by
  dsimp only [State.unparkRequest]
  split <;> simp [h, h.unparkSteps]

@[simp] theorem Ledgers.unparkRun (h : Ledgers s.queues) (d : Nat) (ups : BitVec 6) (lock : Bool) : Ledgers (s.unparkRun d ups lock).queues := by
  simp [State.unparkRun, h]

/-! ### Packets -/

theorem Ledgers.atTarget (h : Ledgers s.queues) (pk : Packet) (ok : Bool) (data : List Word) : Ledgers (s.atTarget pk ok data).queues := by
  simp [State.atTarget, h]

@[simp] theorem Ledgers.serve (h : Ledgers s.queues) (c : Fin 16) (pk : Packet) (ok : Bool) (data : List Word) :
    Ledgers (s.serve c pk ok data).queues := by
  simp [State.serve, h, Ledgers.atTarget]

theorem Ledgers.settle (h : Ledgers s.queues) (o : Outst) (ws : Option (List Word)) (e : Nat) (xpar : Bool) :
    Ledgers (s.settle o ws e xpar).queues := by
  unfold State.settle
  split
  case h_3 => exact h.moverDone _ _ _ _
  all_goals
    repeat' split
    all_goals simp [h]

theorem Ledgers.complete (h : Ledgers s.queues) (pk : Packet) : Ledgers (s.complete pk).queues := by
  dsimp only [State.complete]
  split
  · refine Ledgers.settle ?_ _ _ _ _
    exact h
  · simpa using h

@[simp] theorem Ledgers.deliver (h : Ledgers s.queues) (c : Fin 16) (pk : Packet) : Ledgers (s.deliver c pk).queues := by
  unfold State.deliver
  split
  · exact h
  · split
    · next s1 hs1 => exact Ledgers.complete (State.queues_takeCpl hs1 ▸ h) pk
    · exact h

/-! ### Accesses -/

theorem Ledgers.regWrite (h : Ledgers s.queues) (k : RegKind) (ix : List Nat) (off : Nat) (v : HWord) :
    Ledgers (s.regWrite k ix off v).queues := by
  unfold State.regWrite
  split
  case h_46 =>
    have hset (blk q : Nat) : Ledgers (s.setQueue blk q { s.queue blk q with dpend := false, dpEnd := 0 }).queues := h.set id
    split
    · exact hset _ _
    · exact h
  all_goals simp [h]

@[simp] theorem Ledgers.busWrite (h : Ledgers s.queues) (src off : Nat) (v : HWord) : Ledgers (s.busWrite src off v).queues := by
  unfold State.busWrite
  repeat' split
  all_goals simp [h, h.regWrite]

@[simp] theorem State.queues_busRead (s : State) (off : Nat) (quiet : Bool) : (s.busRead off quiet).2.queues = s.queues := by
  unfold State.busRead
  repeat' split
  all_goals simp

@[simp] theorem State.queues_readRun (s : State) (off : Nat) (quiet : Bool) (n : Nat) : (s.readRun off quiet n).2.queues = s.queues := by
  induction n generalizing s off with
  | zero => rfl
  | succ n ih => exact (ih _ _).trans (State.queues_busRead _ _ _)

theorem Ledgers.writeRun (h : Ledgers s.queues) (acc : HeldAcc) (late : Bool) (off : Nat) (vs : List HWord) :
    Ledgers (s.writeRun acc late off vs).queues := by
  induction vs generalizing s off with
  | nil => simpa [State.writeRun] using h
  | cons v vs ih =>
    rw [State.writeRun]
    split
    · exact h
    · exact ih (h.busWrite _ _ _) _

theorem Ledgers.accMake (h : Ledgers s.queues) (acc : HeldAcc) : Ledgers (s.accMake acc).queues := by
  unfold State.accMake
  split
  · exact h.writeRun _ _ _ _
  · simpa using h

@[simp] theorem Ledgers.settleHeld (h : Ledgers s.queues) : Ledgers s.settleHeld.queues := by
  unfold State.settleHeld
  split
  · exact h
  · refine Ledgers.foldl (fun a acc ha => ?_) _ h
    split
    · exact ha
    · exact ha.accMake acc

@[simp] theorem Ledgers.access (h : Ledgers s.queues) (acc : HeldAcc) : Ledgers (s.access acc).queues := Ledgers.settleHeld h

theorem Ledgers.idle (h : Ledgers s.queues) : Ledgers s.idle.queues := by
  simp [State.idle, h]

/-! ### What goes on with a step of its own -/

theorem Ledgers.switchMember {f : State → State} (h : Ledgers s.queues) (hf : Ledgers (f s).queues) (m : Nat) :
    Ledgers (s.switchMember m f).queues := by
  unfold State.switchMember
  split
  · exact h
  · simpa using hf

theorem Ledgers.chainTake {f : State → State} (h : Ledgers s.queues) (hf : Ledgers (f s).queues) (t : Nat) (pk : ChainPkt) :
    Ledgers (s.chainTake t pk f).queues := by
  simp [State.chainTake, h, hf]

theorem Ledgers.kprAsk {f : State → KReq → List HWord → State} (h : Ledgers s.queues)
    (hf : ∀ a r ws, Ledgers a.queues → Ledgers (f a r ws).queues) (c t level : Nat) : Ledgers (s.kprAsk c t level f).queues := by
  have hlook : Ledgers (s.kprLook c).queues := by simpa using h
  unfold State.kprAsk
  dsimp only [State.kprRow]
  split
  · exact hlook
  · split
    · exact hlook
    · simp [h, hf]

/-! ### Commands whose meaning is not one call -/

theorem Ledgers.execChannelDeliver (h : Ledgers s.queues) (d : Fin 4) (p k : Fin 64) (dt : Nat) :
    NextLedgers (execChannelDeliver d p k dt s) := by
  have h1 := h.advance (paneId d p) dt
  dsimp only [Machine.execChannelDeliver]
  generalize s.advance (paneId d p) dt = s1 at h1 ⊢
  simp only [nextLedgers_next]
  split
  · exact h1
  · split
    · exact h1
    · split
      · exact h1
      · split
        · simp [h1]
        · next s2 hs2 =>
          have h2 := h1.deliverItem hs2
          simp [h2]

theorem Ledgers.execRamPortServe (h : Ledgers s.queues) (d : Fin 4) (p : Fin 64) (m : Fin 6) (i : Fin 2) (dt : Nat) :
    NextLedgers (execRamPortServe d p m i dt s) := by
  dsimp only [Machine.execRamPortServe]
  simp only [nextLedgers_next]
  split <;> simp [h]

theorem Ledgers.execLockBreak (h : Ledgers s.queues) (d : Fin 4) (p : Fin 64) (m : Fin 6) (q : Fin 4) :
    NextLedgers (execLockBreak d p m q s) := by
  have hbreak : Ledgers ((s.setFld (wmErr (blkId d p m)) F.WM_ERR.LKBRK 1).unlock (paneId d p) m q).queues :=
    Ledgers.unlock (by simpa using h) _ _ _
  dsimp only [Machine.execLockBreak, nextLedgers_next]
  split
  · exact hbreak
  · exact h

theorem Ledgers.execMoverFetchLine (h : Ledgers s.queues) (d : Fin 4) (p : Fin 64) (m : Fin 6) (dt : Nat) :
    NextLedgers (execMoverFetchLine d p m dt s) := by
  have h1 := h.advance (paneId d p) dt
  dsimp only [Machine.execMoverFetchLine]
  simp [h1, h1.popQueue]

theorem Ledgers.execMoverPostEntry (h : Ledgers s.queues) (d : Fin 4) (p : Fin 64) (m : Fin 6) (dt : Nat) :
    NextLedgers (execMoverPostEntry d p m dt s) := by
  have h1 := h.advance (paneId d p) dt
  dsimp only [Machine.execMoverPostEntry]
  generalize s.advance (paneId d p) dt = s1 at h1 ⊢
  simp only [nextLedgers_next]
  repeat' split
  all_goals simp [h1, h1.popQueue]

/-- The entries that a line mover reserves in its data queue are not words yet. -/
theorem QueueSt.occ_append_reserved (x : QueueSt) (l : List Nat) (cyc : Nat) :
    ((x.slots ++ l.map fun a => (⟨a, false, cyc, 0, true, false⟩ : QSlot)).filter fun e => e.filled).length = x.occ := by
  have hnone : (l.map fun a => (⟨a, false, cyc, 0, true, false⟩ : QSlot)).filter (fun e => e.filled) = [] := by
    simp [List.filter_eq_nil_iff]
  rw [List.filter_append, hnone, List.append_nil, QueueSt.occ]

theorem Ledgers.execMoverFetchIssue (h : Ledgers s.queues) (d : Fin 4) (p : Fin 64) (m : Fin 6) (dt : Nat) :
    NextLedgers (execMoverFetchIssue d p m dt s) := by
  have h1 := h.advance (paneId d p) dt
  dsimp only [Machine.execMoverFetchIssue]
  generalize s.advance (paneId d p) dt = s1 at h1 ⊢
  have hres (q n : Nat) (l : List Nat) (cyc : Nat) : Ledgers (s1.setQueue (blkId d p m) q { s1.queue (blkId d p m) q with
      slots := (s1.queue (blkId d p m) q).slots ++ l.map fun a => ⟨a, false, cyc, 0, true, false⟩,
      wpos := (s1.queue (blkId d p m) q).wpos + n }).queues := by
    refine h1.set fun hx => ?_
    rw [QueueSt.balances_iff] at hx ⊢
    rw [QueueSt.occ, QueueSt.occ_append_reserved]
    exact hx
  simp only [nextLedgers_next]
  split
  · exact h1
  · split
    · exact h1
    · simp [hres, -List.map_map]

theorem Ledgers.execRequestTimeout (h : Ledgers s.queues) (port : Fin 16448) (tag : Fin 1024) :
    NextLedgers (execRequestTimeout port tag s) := by
  unfold Machine.execRequestTimeout
  simp only [nextLedgers_next]
  split
  · exact h
  · split
    · exact h
    · next o _ =>
      have hset : Ledgers (({ s with outst := s.outst.erase o, quar := s.quar ++ [(port.val, tag.val)] } : State).settle o none 6 false).queues := by
        refine Ledgers.settle ?_ _ _ _ _
        exact h
      simpa using hset

theorem Ledgers.execNativeFrameReceive (h : Ledgers s.queues) (d : Fin 4) (l : Fin 32) (bits : List Bool) (dt : Nat) :
    NextLedgers (execNativeFrameReceive d l bits dt s) := by
  have h1 := h.advance (lanePane d l) dt
  have hitems (t : State) (is : List (BitVec 42)) (ht : Ledgers t.queues) : Ledgers (is.foldl (fun a i => a.takeItem d l i) t).queues :=
    Ledgers.foldl (fun a i ha => ha.takeItem d l i) is ht
  dsimp only [Machine.execNativeFrameReceive]
  generalize s.advance (lanePane d l) dt = s1 at h1 ⊢
  simp only [nextLedgers_next]
  split
  · exact h1
  · split
    · simp [h1, hitems]
    · simp [h1]

theorem Ledgers.execBar2Read (h : Ledgers s.queues) (b : BitVec 36) (len id : Nat) : NextLedgers (execBar2Read b len id s) := by
  have hcheck (a : State) : (a.b2Check id).queues = a.queues := by simp
  unfold Machine.execBar2Read
  simp only [nextLedgers_next]
  split
  · exact h
  · rw [hcheck, State.queues_foldl]
    · exact h
    · intro a r
      repeat' split
      all_goals simp

theorem Ledgers.execPark (h : Ledgers s.queues) (q : Fin 64) : NextLedgers (execPark q s) := by
  have hreq (d : Nat) (cmd : Option Nat) : Ledgers (s.parkRequest d cmd).2.queues := by
    simp [h]
  unfold Machine.execPark
  simp only [nextLedgers_next]
  split
  · exact h
  · next c _ =>
    have hc := hreq (c.w 4) (some c.id)
    split
    · next hs1 => simpa [hs1] using hc
    · next hs1 => simpa [hs1] using hc

theorem Ledgers.execCfg (h : Ledgers s.queues) (pk : ChainPkt) (late : Bool) : NextLedgers (execCfg pk late s) := by
  unfold Machine.execCfg
  simp only [nextLedgers_next]
  refine h.chainTake ?_ _ _
  simp [h, Ledgers.bootNext]

theorem Ledgers.execMreq (h : Ledgers s.queues) (pk : ChainPkt) (down : Bool) : NextLedgers (execMreq pk down s) := by
  unfold Machine.execMreq
  simp only [nextLedgers_next]
  refine h.chainTake ?_ _ _
  simp [h]

theorem Ledgers.execRegionReload (h : Ledgers s.queues) : NextLedgers (execRegionReload s) := by
  dsimp only [Machine.execRegionReload]
  simp only [nextLedgers_next]
  split
  · exact h
  · split
    · exact h
    · split
      · simp [h]
      · have hwalk (go : List (Nat × Nat)) : Ledgers (s.walkRunning (fun (a : State) f ws =>
            .ok (([0, 1] : List Nat).foldl (fun b c => if go.contains (c, f) then b.reloadFrame c f ws else b) a)) s).1.queues := by
          refine State.walkRunning_keeps (P := fun a : State => Ledgers a.queues) (fun a f ws b ha hb => ?_) s h
          cases hb
          exact Ledgers.foldl (fun b c hb => by simp [hb]) _ ha
        have hend (t : State) (f : CfgSt → CfgSt) : (t.endReloads.withCfg f).queues = t.queues := by simp
        rw [hend]
        exact hwalk _

theorem Ledgers.matchOption {o : Option Nat} {f : Nat → State} {t : State} (hf : ∀ a, Ledgers (f a).queues) (ht : Ledgers t.queues) :
    Ledgers (match o with | some a => f a | none => t).queues := by
  cases o
  · exact ht
  · exact hf _

theorem Ledgers.execKnock (h : Ledgers s.queues) (pk : ChainPkt) : NextLedgers (execKnock pk s) := by
  refine h.chainTake ?_ 1 pk
  extract_lets sticky present r s1 s2 map smap next s3 s4 os
  have h2 : Ledgers s2.queues := by simp [s2, s1, h]
  have h3 : Ledgers s3.queues := by
    clear_value s2 r
    refine Ledgers.matchOption (fun a => ?_) ?_ <;> simpa using h2
  have h4 : Ledgers s4.queues := by simpa [s4] using h3
  simp [h, h4]

theorem Ledgers.execCommandComplete (h : Ledgers s.queues) (q : Fin 64) (i : Fin 4096) : NextLedgers (execCommandComplete q i s) := by
  dsimp only [Machine.execCommandComplete]
  simp only [nextLedgers_next]
  repeat' split
  all_goals simp [h]

theorem Ledgers.execKeeperRd (h : Ledgers s.queues) (c : Fin 3) : NextLedgers (execKeeperRd c s) := by
  refine h.kprAsk (fun a r ws ha => ?_) _ _ _
  simp [ha]

theorem Ledgers.execKeeperWr (h : Ledgers s.queues) (c : Fin 3) : NextLedgers (execKeeperWr c s) := by
  refine h.kprAsk (fun a r ws ha => ?_) _ _ _
  simp [ha]

theorem Ledgers.execHalt (h : Ledgers s.queues) (c : Fin 3) : NextLedgers (execHalt c s) := by
  refine h.kprAsk (fun a r ws ha => ?_) _ _ _
  split
  all_goals simp [ha]

theorem Ledgers.execResume (h : Ledgers s.queues) (c : Fin 3) : NextLedgers (execResume c s) := by
  refine h.kprAsk (fun a r ws ha => ?_) _ _ _
  split <;> simp [ha]

theorem Ledgers.execStep (h : Ledgers s.queues) (c : Fin 3) : NextLedgers (execStep c s) := by
  refine h.kprAsk (fun a r ws ha => ?_) _ _ _
  split <;> simp [ha]

theorem Ledgers.execTstat (h : Ledgers s.queues) (c : Fin 3) : NextLedgers (execTstat c s) := by
  refine h.kprAsk (fun a r ws ha => ?_) _ _ _
  split <;> simp [ha]

theorem Ledgers.execRreg (h : Ledgers s.queues) (c : Fin 3) : NextLedgers (execRreg c s) := by
  refine h.kprAsk (fun a r ws ha => ?_) _ _ _
  dsimp only
  repeat' split
  all_goals simp [ha]

theorem Ledgers.execWreg (h : Ledgers s.queues) (c : Fin 3) : NextLedgers (execWreg c s) := by
  refine h.kprAsk (fun a r ws ha => ?_) _ _ _
  dsimp only
  repeat' split
  all_goals simp [ha]

/-! ### Every command, and every step -/

/-- Cells and engines have one operation each; a command with more to say has its lemma above; the others only call what keeps the ledgers. -/
theorem nextLedgers_exec (h : Ledgers s.queues) (c : Instr) : NextLedgers (exec c s) := by
  cases c
  case nop | fclr | fget | mov | movk | add | adc | addu | adds | sub | sbc | subu | subs | minu | maxu | mins | maxs | absd | clampu | clamps | cmpu
      | cmps | sel | and | or | xor | andn | log3 | shl | shr | sar | rol | fsh | ext | exts | ins | unpk | pks | mul | mula =>
    exact h.cellAlu _ _ _ _
  case cas | pop | push | pushe | slam =>
    exact h.cellOp _ _ _ _ _
  case cmul | cmac | cmsu | cmacj | dmul | dmac | pwr | ald | aclr | mova | movaw | engMov | movi | engMovk | engAdd | engSub | engAdds | engSubs |
      min | max | abs | neg | engAnd | engOr | engXor | engShl | engShr | engSar | conj | swaph | cmpeq | cmplt | cmpltu | pset | mfc | mtc | xadd |
      xcp | bxt | ld | ldo | st | sto | spop | spush | sslam | engTrd | engTwr | br | call | ret | loop | loopv | loopp | twait | wdog | blk | sig |
      stop =>
    exact h.engCommand _ _ _ _ _
  case channelDeliver => exact h.execChannelDeliver _ _ _ _
  case ramPortServe => exact h.execRamPortServe _ _ _ _ _
  case lockBreak => exact h.execLockBreak _ _ _ _
  case moverFetchLine => exact h.execMoverFetchLine _ _ _ _
  case moverFetchIssue => exact h.execMoverFetchIssue _ _ _ _
  case moverPostEntry => exact h.execMoverPostEntry _ _ _ _
  case requestTimeout => exact h.execRequestTimeout _ _
  case nativeFrameReceive => exact h.execNativeFrameReceive _ _ _ _
  case bar2Read => exact h.execBar2Read _ _ _
  case commandComplete => exact h.execCommandComplete _ _
  case park => exact h.execPark _
  case knock => exact h.execKnock _
  case cfg => exact h.execCfg _ _
  case mreq => exact h.execMreq _ _
  case regionReload => exact h.execRegionReload
  case keeperRd => exact h.execKeeperRd _
  case keeperWr => exact h.execKeeperWr _
  case halt => exact h.execHalt _
  case resume => exact h.execResume _
  case step => exact h.execStep _
  case tstat => exact h.execTstat _
  case rreg => exact h.execRreg _
  case wreg => exact h.execWreg _
  case paneGate => simp [exec, execPaneGate, State.reach, h]
  case paneSwitch d p dt =>
    have h1 := h.advance (paneId d p) dt
    exact h1.switchMember (by simp [h1]) _
  case paneRelock | pinHandover | featureLevelFixed | hubLoopRelock | powerOn | hreset | clkRstDev | lockTimeout | doneNHigh | doneTimeout | clkHoldGo
      | bellWake | skipPacket | cfgIdcode | cfgFsel | cfgFload | cfgCtl | cfgCrc | cfgStartOrder | cfgShut | cfgEnd | pinInputEdge | pwrgoodFall =>
    simp [exec, execPaneRelock, execPinHandover, execFeatureLevelFixed, execHubLoopRelock, execPowerOn, execHreset, execClkRstDev, execLockTimeout,
      execDoneNHigh, execDoneTimeout, execClkHoldGo, execBellWake, execSkipPacket, execCfgIdcode, execCfgFsel, execCfgFload, execCfgCtl, execCfgCrc,
      execCfgStartOrder, execCfgShut, execCfgEnd, execPinInputEdge, execPwrgoodFall, h]
  case paneLossOfLock =>
    simp [exec, execPaneLossOfLock, h]
  case tbuSetHWrite | tbuNowLRead | tbFramelRead | generationAdopt | tbRefLost | frameTick | lineTick | shtArmGo | abort | armReceive |
      memberAcknowledge | disarm | engineSwitch | commitComplete =>
    simp [exec, execTbuSetHWrite, execTbuNowLRead, execTbFramelRead, execGenerationAdopt, execTbRefLost, execFrameTick, execLineTick, execShtArmGo,
      execAbort, execArmReceive, execMemberAcknowledge, execDisarm, execEngineSwitch, execCommitComplete, h]
  case tbRefEdge | pinBankSwitch | pinGpoutWrite | fpinWordOut | fpinWordIn =>
    simp [exec, execTbRefEdge, execPinBankSwitch, execPinGpoutWrite, execFpinWordOut, execFpinWordIn, h]
  case laneSwitch | laneEnable | quadLock | quadLossOfLock | cdrLockChange | laneReceiveWord | nativeFrameSend | stepSwitch | stepFallback |
      seekRestart | downToSeek | laneRetrain | eyego | eyeDone =>
    simp [exec, execLaneSwitch, execLaneEnable, execQuadLock, execQuadLossOfLock, execCdrLockChange, execLaneReceiveWord, execNativeFrameSend,
      execStepSwitch, execStepFallback, execSeekRestart, execDownToSeek, execLaneRetrain, execEyego, execEyeDone, h]
  case ddrQosSwitch | ddrInit | ddrRetrain | ddrOffline | ddrOnline | deferredRetrain | ddrRefresh | dqsDriftTrack | ddrPatrolScrub | frameStoreHelper
      | ddrTrainingDone =>
    simp [exec, execDdrQosSwitch, execDdrInit, execDdrRetrain, execDdrOffline, execDdrOnline, execDeferredRetrain, execDdrRefresh, execDqsDriftTrack,
      execDdrPatrolScrub, execFrameStoreHelper, execDdrTrainingDone, h]
  case engCtlStart | engCtlStop | engineWatchdogExpiry | slotNop =>
    simp [exec, execEngCtlStart, execEngCtlStop, execEngineWatchdogExpiry, execSlotNop, h]
  case moverPostIssue | moverPostIdleTimeout | ledgerSnap | wmPatrolRead =>
    simp [exec, execMoverPostIssue, execMoverPostIdleTimeout, execLedgerSnap, execWmPatrolRead, h]
  case rd | wr | wrp | rdlk | wrul | transomAdd | swap | msg | lkup | creditTimeout | completionTimeout | trCmdBoard | trCmdUnboard | trCmdSnap |
      trGsnapGo | globalCapture =>
    simp [exec, execRd, execWr, execWrp, execRdlk, execWrul, execTransomAdd, execSwap, execMsg, execLkup, execCreditTimeout, execCompletionTimeout,
      execTrCmdBoard, execTrCmdUnboard, execTrCmdSnap, execTrGsnapGo, execGlobalCapture, h]
  case cpl | cple | packetForward | quarantineEnd =>
    simp [exec, execCpl, execCple, execPacketForward, execQuarantineEnd, h]
  case setmiss | upsert | delete | find =>
    simp [exec, execSetmiss, execUpsert, execDelete, execFind, h]
  case plainFlit | markedFlit | flitOne | flitTwo | ack | ecred | tcred | tick | leafClockLoss | hngRetrain | trainingStepTimeout | hngSnap =>
    simp [exec, execPlainFlit, execMarkedFlit, execFlitOne, execFlitTwo, execAck, execEcred, execTcred, execTick, execLeafClockLoss, execHngRetrain,
      execTrainingStepTimeout, execHngSnap, h]
  case width =>
    simp [exec, execWidth, h]
  case uclUnit | uclRetrain | ucieLinkError | ucieLinkActive =>
    simp [exec, execUclUnit, execUclRetrain, execUcieLinkError, execUcieLinkActive, h]
  case pcieReset | bar2Write | hcqDoorbell | hcqCqhWrite | hcqEnable | commandFetch | dmaTo | dmaFrom | pctlPark | pctlUnpark | pcieLinkUp =>
    simp [exec, execPcieReset, execBar2Write, execHcqDoorbell, execHcqCqhWrite, execHcqEnable, execCommandFetch, execDmaTo, execDmaFrom, execPctlPark,
      execPctlUnpark, execPcieLinkUp, h]
  case chainLockChange | headElection | knockRoundStart | knockEnd | knockReq | knockTimeout | mrsp | chnCtlKnock | chnCtlMgo | chnCtlSnap |
      mreqTimeout =>
    simp [exec, execChainLockChange, execHeadElection, execKnockRoundStart, execKnockEnd, execKnockReq, execKnockTimeout, execMrsp, execChnCtlKnock,
      execChnCtlMgo, execChnCtlSnap, execMreqTimeout, h]
  case kpr | uartRxOctet | kprTxdWrite | kprRxpopWrite | mailboxGapTimeout | ident | hello | ownk | cred | prove | openingTimeout | sessionIdleTimeout
      | bye | wdsusp | wdres | dbclr | mc0HaltDeferExpiry =>
    simp [exec, execKpr, execUartRxOctet, execKprTxdWrite, execKprRxpopWrite, execMailboxGapTimeout, execIdent, execHello, execOwnk, execCred,
      execProve, execOpeningTimeout, execSessionIdleTimeout, execBye, execWdsusp, execWdres, execDbclr, execMc0HaltDeferExpiry, h]
  case clkHlcfgWrite | fmGo | fmDone | monitorWindow | hubLoopLossOfLock =>
    simp [exec, execClkHlcfgWrite, execFmGo, execFmDone, execMonitorWindow, execHubLoopLossOfLock, h]
  case foscCheckWindow | lockstepDisagreement | voltageSample | temperatureSample | thermalTripReset | deadboltWatchdogExpiry | heartbeat |
      scWatchdogReload | watchdogSuspensionEnd =>
    simp [exec, execFoscCheckWindow, execLockstepDisagreement, execVoltageSample, execTemperatureSample, execThermalTripReset,
      execDeadboltWatchdogExpiry, execHeartbeat, execScWatchdogReload, execWatchdogSuspensionEnd, h]
  case storeRead | storeProgram | storeErase | readback =>
    simp [exec, execStoreRead, execStoreProgram, execStoreErase, execReadback, h]
  case cfgRtpktWrite | rtpktStreamTimeout =>
    simp [exec, execCfgRtpktWrite, execRtpktStreamTimeout, h]
  case scrubFrame | scrubSelfFault | cfgScrubWrite | istCellSignature | istEngineTest | istSpareLeafBlock =>
    simp [exec, execScrubFrame, execScrubSelfFault, execCfgScrubWrite, execIstCellSignature, execIstEngineTest, execIstSpareLeafBlock, h]
  case otpProgram | otpVoid =>
    simp [exec, execOtpProgram, execOtpVoid, h]
  case extest | jtagIdcode | samplePreload | highz | clamp | bypass =>
    simp [exec, execExtest, execJtagIdcode, execSamplePreload, execHighz, execClamp, execBypass, h]
  case uartTxWrite | uartPop | i2cStart | i2cWriteData | i2cReadWithAck | i2cReadWithNack | i2cStop | i2cOpDone | spiXferGo | spiXferDone |
      fanCountUpdate =>
    simp [exec, execUartTxWrite, execUartPop, execI2cStart, execI2cWriteData, execI2cReadWithAck, execI2cReadWithNack, execI2cStop, execI2cOpDone,
      execSpiXferGo, execSpiXferDone, execFanCountUpdate, h]
  case eventSourceChange | evtSrcWrite | evtGackWrite | evtSwsetWrite | evtSwclrWrite =>
    simp [exec, execEventSourceChange, execEvtSrcWrite, execEvtGackWrite, execEvtSwsetWrite, execEvtSwclrWrite, h]
  case mcWdtKick | mcWatchdogExpiry =>
    simp [exec, execMcWdtKick, execMcWatchdogExpiry, h]
  case diagInjDataBit | diagInjTwoSymbols | diagInjParity | diagInjFlitCrc | diagCredAdd | diagCredRemove =>
    simp [exec, execDiagInjDataBit, execDiagInjTwoSymbols, execDiagInjParity, execDiagInjFlitCrc, execDiagCredAdd, execDiagCredRemove, h]
  case registerWrite | readClear | channelEnter | lookupRecord | drainEnd | drainTimeout | laneTransmitWord | replayTimeout | hcqNop | arm | load |
      launch | unpark | muxSwitch | muxForcedSwitch | muxSwitchAbandon | storeCommandEnd | otpCommandEnd | keeperTrd | keeperTwr | uartTxOctetSent |
      leafFlitSend =>
    simp only [exec, execRegisterWrite, execReadClear, execChannelEnter, execLookupRecord, execDrainEnd, execDrainTimeout, execLaneTransmitWord, execReplayTimeout, execHcqNop, execArm, execLoad, execLaunch, execUnpark, execMuxSwitch, execMuxForcedSwitch, execMuxSwitchAbandon, execStoreCommandEnd, execOtpCommandEnd, execKeeperTrd, execKeeperTwr, execUartTxOctetSent, execLeafFlitSend, nextLedgers_next]
    repeat' split
    all_goals simp [h]

end

theorem nextLedgers_step {s : State} (h : Ledgers s.queues) : NextLedgers (step s) := by
  unfold step
  split
  · refine nextLedgers_exec ?_ _
    exact h
  · exact h.idle

/-- Settles O58: every function of the model that touches a queue keeps the identity, and so does every command. -/
theorem stepKeepsQueueLedgers : Obligations.StepKeepsQueueLedgers := by
  intro s t hs ht
  have hnext : NextLedgers (step s) := nextLedgers_step hs
  rw [ht] at hnext
  exact hnext

end Sys2Proof.Machine
end

section
/-! PROOF. The line movers (R167–R169). -/
namespace Sys2Proof.Machine
open Sys2Proof.Claims

@[simp] theorem State.standing_popQueue (s : State) (pane m q : Nat) : (s.popQueue pane m q).2.standing = s.standing := by
  unfold State.popQueue State.takeHead
  split <;> simp

/-- A line mover's settings are staged ones (R167): what leaves the copies alone leaves them alone. -/
theorem State.mvLive_congr {s t : State} (h : t.standing = s.standing) (pane m : Nat) : t.mvLive pane m = s.mvLive pane m := by
  have hbank : t.bank = s.bank := congrArg Prod.fst h
  have hstv : t.stv = s.stv := congrArg (fun x => x.2.1) h
  have hlive (off : Nat) : t.live pane off = s.live pane off := State.live_congr ⟨hstv, hbank⟩ pane off
  simp only [State.mvLive, State.liveF, hlive]

/-- Settles O25: no condition holds a command back, so each takes its own branch in the state that its pane's cycles have led to. -/
theorem lineMovers : Obligations.LineMovers := by
  refine ⟨fun s d p m dt => ⟨?fetchLine, ?fetchIssue⟩, fun s d p m dt => ⟨?postEntry, ?postIssue, ?postIdle⟩⟩
  case fetchLine =>
    intro e cq r hhold hctl hdir hruns hserved hpop
    dsimp only [exec, execMoverFetchLine]
    rw [if_neg (by simp [hhold, hctl, e, hdir, hruns, hserved, hpop, cq])]
    exact ⟨fun hr => congrArg _ (if_pos hr), fun hr => congrArg _ (if_neg (Bool.eq_false_iff.1 hr))⟩
  case fetchIssue =>
    intro e n x reg hhold hdir hpend hruns hserved hroom hiss hnet tag htag
    dsimp only [exec, execMoverFetchIssue]
    rw [if_neg (by simp_all [e, n, x]), htag]
    refine ⟨(List.range n).map fun j => (reg.1 + (x.wpos + j) % reg.2) % 16384, _, rfl, by simp, fun j hj => ?_, rfl⟩
    simp [hj]
  case postEntry =>
    intro pos hdir hfull hruns hserved hpop hvis
    dsimp only [exec, execMoverPostEntry]
    rw [if_neg (by simp [hdir, hfull, hruns, hserved, hpop]), hvis]
    refine ⟨fun htag hbuf => ?_, fun htag hbuf => ?_, fun htag hline => ?_, fun htag hline => ?_⟩
    · simp only [htag, hbuf, ne_eq, not_false_eq_true, if_true]
    · simp only [htag, hbuf, ne_eq, not_true_eq_false, if_true, if_false, State.mvLive_congr (State.standing_popQueue _ _ _ _)]
    · simp [htag, hline, mvAddr]
    · simp [htag, hline, mvAddr]
  case postIssue =>
    intro hfull hbuf hruns
    exact congrArg Host.Outcome.next (if_pos ⟨hfull, hbuf, hruns⟩)
  case postIdle =>
    intro hbuf hruns hvis
    exact congrArg Host.Outcome.next (if_pos ⟨hbuf, hruns, hvis⟩)

end Sys2Proof.Machine
end

section
/-! PROOF. Locks of a word memory queue, and the capture of its ledger (R166, R171, R172). -/
namespace Sys2Proof.Machine
open Sys2Proof.Claims

section
variable {s : State} {pane m q : Nat} {pk : Packet}

/-! ### Answers leave the registers alone -/

@[simp] theorem State.regs_fillOne (s : State) (i v : Nat) : (s.fillOne i v).regs = s.regs := by
  have hleft (a : State) (pk : Packet) : (a.hasLeft i pk).regs = a.regs := by
    unfold State.hasLeft
    split <;> rfl
  unfold State.fillOne
  extract_lets q
  split
  · rfl
  · split
    · rfl
    · extract_lets s1
      have h1 : s1.regs = s.regs := by simp [s1, State.enter, State.takeFlits, State.setIocc, State.setChanFields, apply_ite State.regs]
      split
      · simpa [hleft] using h1
      · simpa using h1

@[simp] theorem State.regs_launch (s : State) (pk : Packet) : (s.launch pk).regs = s.regs := by
  unfold State.launch State.fill
  exact List.foldlRecOn (motive := fun a : State => a.regs = s.regs) _ _ rfl fun a ha _ _ => (a.regs_fillOne _ _).trans ha

theorem State.regs_answers (s : State) (pk : Packet) :
    (∀ e, (s.answerErr pk e).regs = s.regs) ∧ (∀ ws, (s.answerData pk ws).regs = s.regs) := by
  simp [State.answerErr, State.answerData, State.answer, apply_ite State.regs]

theorem State.flag_congr {s t : State} (h : t.regs = s.regs) (off : Nat) (f : Fld) : t.flag off f = s.flag off f := by
  rw [State.flag, State.fld, State.reg, h, State.flag, State.fld, State.reg]

/-- The check of an array read leaves the mark of a broken lock alone. -/
theorem State.lkbrk_checkEntry (s : State) (blk a : Nat) :
    (s.checkEntry blk a).flag (wmErr blk) F.WM_ERR.LKBRK = s.flag (wmErr blk) F.WM_ERR.LKBRK := by
  have hother (t : State) (f : Fld) (n : Nat) (hf : f = F.WM_ERR.CE ∨ f = F.WM_ERR.UE ∨ f = F.WM_ERR.CECNT ∨ f = F.WM_ERR.UEADR) :
      (t.setFld (wmErr blk) f n).flag (wmErr blk) F.WM_ERR.LKBRK = t.flag (wmErr blk) F.WM_ERR.LKBRK := by
    refine t.flag_setFld_other _ _ _ _ ?_ ?_ ?_ ?_ <;> obtain rfl | rfl | rfl | rfl := hf <;> decide
  unfold State.checkEntry
  split
  · rfl
  · rw [State.addSat, hother _ _ _ (by simp), hother _ _ _ (by simp)]
    rfl
  · rw [hother _ _ _ (by simp), apply_ite (fun t : State => t.flag _ _), hother _ _ _ (by simp), ite_self]

/-! ### The lock's next holder -/

theorem State.queue_takeLock (s : State) (pane m q : Nat) (pk : Packet) :
    (s.takeLock pane m q pk).queue (pane * 6 + m) q = { s.queue (pane * 6 + m) q with lock := some pk.src } := by
  have hqueues : (s.takeLock pane m q pk).queues =
      (s.setQueue (pane * 6 + m) q { s.queue (pane * 6 + m) q with lock := some pk.src }).queues := by
    unfold State.takeLock
    split <;> simp
  rw [State.queue_congr hqueues, State.queue_setQueue_same]

theorem State.lkbrk_takeLock (s : State) (pane m q : Nat) (pk : Packet) :
    (s.takeLock pane m q pk).flag (wmErr (pane * 6 + m)) F.WM_ERR.LKBRK = s.flag (wmErr (pane * 6 + m)) F.WM_ERR.LKBRK := by
  unfold State.takeLock
  split
  · next e _ _ =>
    rw [apply_ite (fun t : State => t.flag _ _), State.flag_congr ((State.regs_answers _ _).1 _), State.flag_congr ((State.regs_answers _ _).2 _),
      ite_self, State.lkbrk_checkEntry]
    rfl
  · exact State.flag_congr ((State.regs_answers _ _).2 _) _ _

/-- While another holds the lock, no waiter is served. -/
theorem State.serveWaiters_of_held (h : ∀ w ∈ (s.queue (pane * 6 + m) q).waiters,
    ¬((s.queue (pane * 6 + m) q).lock = none ∨ (s.queue (pane * 6 + m) q).lock = some w.src)) (n : Nat) : s.serveWaiters pane m q n = s := by
  cases n with
  | zero => rfl
  | succ n =>
    have hnone : (s.queue (pane * 6 + m) q).waiters.find?
        (fun w => decide ((s.queue (pane * 6 + m) q).lock = none ∨ (s.queue (pane * 6 + m) q).lock = some w.src)) = none :=
      List.find?_eq_none.2 fun w hw => by simpa using h w hw
    rw [State.serveWaiters, hnone]

/-- A free lock goes to the first waiter, whose RDLK is served; the others wait on. -/
theorem State.serveWaiters_rdlk {rest : List Packet} (hlock : (s.queue (pane * 6 + m) q).lock = none)
    (hwaiters : (s.queue (pane * 6 + m) q).waiters = pk :: rest) (hcmd : pk.cmd = cRDLK) (hothers : ∀ w ∈ rest, w.src ≠ pk.src)
    (hlate : s.lateOf pane m pk = false) (n : Nat) : s.serveWaiters pane m q (n + 1) =
      (s.setQueue (pane * 6 + m) q { s.queue (pane * 6 + m) q with waiters := rest }).takeLock pane m q pk := by
  have hfirst : (s.queue (pane * 6 + m) q).waiters.find?
      (fun w => decide ((s.queue (pane * 6 + m) q).lock = none ∨ (s.queue (pane * 6 + m) q).lock = some w.src)) = some pk := by
    rw [hwaiters]
    exact List.find?_cons_of_pos (decide_eq_true (.inl hlock))
  have hserve (a : State) : a.lockedServe pane m q pk = a.takeLock pane m q pk := by
    rw [State.lockedServe, hcmd, if_neg (by decide), if_pos rfl]
  rw [State.serveWaiters, hfirst]
  dsimp only
  rw [hlate, if_neg Bool.false_ne_true, hserve, hwaiters, List.erase_cons_head, State.serveWaiters_of_held]
  intro w hw
  rw [State.queue_takeLock, State.queue_setQueue_same] at hw ⊢
  simpa using (hothers w hw).symm

theorem State.unlock_of_alone (hwaiters : (s.queue (pane * 6 + m) q).waiters = []) :
    s.unlock pane m q = s.setQueue (pane * 6 + m) q { s.queue (pane * 6 + m) q with lock := none } := by
  refine State.serveWaiters_of_held (fun w hw => ?_) 5
  rw [State.queue_setQueue_same] at hw
  exact absurd (hwaiters ▸ hw) List.not_mem_nil

theorem State.unlock_rdlk {rest : List Packet} (hwaiters : (s.queue (pane * 6 + m) q).waiters = pk :: rest) (hcmd : pk.cmd = cRDLK)
    (hothers : ∀ w ∈ rest, w.src ≠ pk.src) (hlate : s.lateOf pane m pk = false) :
    (s.unlock pane m q).queue (pane * 6 + m) q = { s.queue (pane * 6 + m) q with lock := some pk.src, waiters := rest } ∧
    (s.unlock pane m q).flag (wmErr (pane * 6 + m)) F.WM_ERR.LKBRK = s.flag (wmErr (pane * 6 + m)) F.WM_ERR.LKBRK := by
  have hqueue : (s.setQueue (pane * 6 + m) q { s.queue (pane * 6 + m) q with lock := none }).queue (pane * 6 + m) q =
      { s.queue (pane * 6 + m) q with lock := none } := State.queue_setQueue_same _ _ _ _
  have hserve := State.serveWaiters_rdlk (s := s.setQueue (pane * 6 + m) q { s.queue (pane * 6 + m) q with lock := none })
    (congrArg QueueSt.lock hqueue) ((congrArg QueueSt.waiters hqueue).trans hwaiters) hcmd hothers hlate 4
  rw [State.unlock, hserve, State.queue_takeLock, State.queue_setQueue_same, State.lkbrk_takeLock, hqueue]
  exact ⟨rfl, rfl⟩

end

/-! ### The capture of the ledger -/

theorem qledger_eq_iff {d p m q k q' k' : Nat} : R.WM_QLEDGER d p m q k = R.WM_QLEDGER d p m q' k' ↔ q * 8 + k = q' * 8 + k' := by
  simp only [R.WM_QLEDGER]
  omega

theorem lctl_ne_qledger {d p m q k : Nat} : R.WM_LCTL d p m ≠ R.WM_QLEDGER d p m q k := by
  simp only [R.WM_LCTL, R.WM_QLEDGER]
  omega

/-- The six counts of a queue (R171), in the order of their registers. -/
def QueueSt.counts (x : QueueSt) : List HWord := [x.cIn, x.cOut, x.cSlam, x.cFlush, BitVec.ofNat 32 x.occ, x.cRef]

theorem QueueSt.counts_getD (x : QueueSt) : x.counts.getD 0 0 = x.cIn ∧ x.counts.getD 1 0 = x.cOut ∧ x.counts.getD 2 0 = x.cSlam ∧
    x.counts.getD 3 0 = x.cFlush ∧ x.counts.getD 4 0 = BitVec.ofNat 32 x.occ ∧ x.counts.getD 5 0 = x.cRef :=
  ⟨rfl, rfl, rfl, rfl, rfl, rfl⟩

/-- The registers of a queue's ledger take the counts of `x`. -/
def State.showCounts (s : State) (d p m q : Nat) (x : QueueSt) : State :=
  ((((((s.setReg (R.WM_QLEDGER d p m q 0) x.cIn).setReg (R.WM_QLEDGER d p m q 1) x.cOut).setReg
    (R.WM_QLEDGER d p m q 2) x.cSlam).setReg (R.WM_QLEDGER d p m q 3) x.cFlush).setReg
    (R.WM_QLEDGER d p m q 4) (BitVec.ofNat 32 x.occ)).setReg (R.WM_QLEDGER d p m q 5) x.cRef)

theorem State.snapBlock_eq (s : State) (d p m : Nat) : s.snapBlock d p m =
    (let s1 := (List.range 4).foldl (fun a q => a.showCounts d p m q (s.queue (blkId d p m) q)) s
     (s1.setFld (R.WM_LCTL d p m) F.WM_LCTL.SEQ (s.fld (R.WM_LCTL d p m) F.WM_LCTL.SEQ + 1)).setMover (blkId d p m)
       { s1.mover (blkId d p m) with snaps := 0 }) := rfl

theorem State.reg_showCounts (s : State) (d p m q : Nat) (x : QueueSt) (o : Nat) : (s.showCounts d p m q x).reg o =
    if o = R.WM_QLEDGER d p m q 5 then x.cRef else if o = R.WM_QLEDGER d p m q 4 then BitVec.ofNat 32 x.occ
    else if o = R.WM_QLEDGER d p m q 3 then x.cFlush else if o = R.WM_QLEDGER d p m q 2 then x.cSlam
    else if o = R.WM_QLEDGER d p m q 1 then x.cOut else if o = R.WM_QLEDGER d p m q 0 then x.cIn else s.reg o := by
  simp only [State.showCounts, State.reg_setReg]

/-- Captures of the queues `qs` touch no register outside their ledgers. -/
theorem State.reg_showLedgers_other (s : State) (d p m : Nat) (f : Nat → QueueSt) {o : Nat} (qs : List Nat)
    (ho : ∀ q ∈ qs, ∀ k, k < 6 → o ≠ R.WM_QLEDGER d p m q k) :
    (qs.foldl (fun a q => a.showCounts d p m q (f q)) s).reg o = s.reg o := by
  refine List.foldlRecOn (motive := fun a : State => a.reg o = s.reg o) _ _ rfl fun a ha q hq => ?_
  rw [State.reg_showCounts]
  simp [ho q hq, ha]

theorem State.reg_showLedgers (s : State) (d p m : Nat) (f : Nat → QueueSt) {q k : Nat} {qs : List Nat} (hq : q ∈ qs) (hk : k < 6) :
    (qs.foldl (fun a q => a.showCounts d p m q (f q)) s).reg (R.WM_QLEDGER d p m q k) = (f q).counts.getD k 0 := by
  induction qs generalizing s with
  | nil => cases hq
  | cons a qs ih =>
    by_cases hmem : q ∈ qs
    · exact ih _ hmem
    · obtain rfl : q = a := (List.mem_cons.1 hq).resolve_right hmem
      have hlater (r : Nat) (hr : r ∈ qs) (j : Nat) (hj : j < 6) : R.WM_QLEDGER d p m q k ≠ R.WM_QLEDGER d p m r j := fun h => by
        have hqr : q = r := by
          have := qledger_eq_iff.1 h
          omega
        exact hmem (hqr ▸ hr)
      rw [List.foldl_cons, State.reg_showLedgers_other _ _ _ _ _ _ hlater, State.reg_showCounts]
      simp only [qledger_eq_iff, Nat.add_left_cancel_iff]
      interval_cases k <;> rfl

theorem RegsDiffer.showLedgers {s t : State} (h : RegsDiffer s t) (d p m : Nat) (f : Nat → QueueSt) (qs : List Nat) :
    RegsDiffer s (qs.foldl (fun a q => a.showCounts d p m q (f q)) t) :=
  List.foldlRecOn (motive := RegsDiffer s) _ _ h fun _ ha _ _ =>
    (((((ha.setReg _ _).setReg _ _).setReg _ _).setReg _ _).setReg _ _).setReg _ _

theorem RegsDiffer.setMover_frame {s t : State} (h : RegsDiffer s t) (blk : Nat) (x : MoverSt) :
    t.setMover blk x = { s with regs := (t.setMover blk x).regs, movers := (t.setMover blk x).movers } := by
  obtain ⟨rs, rfl⟩ := h
  rfl

theorem RegsDiffer.setFld {s t : State} (h : RegsDiffer s t) (off : Nat) (f : Fld) (n : Nat) : RegsDiffer s (t.setFld off f n) :=
  h.setReg _ _

theorem State.reg_setMover (s : State) (blk : Nat) (x : MoverSt) (o : Nat) : (s.setMover blk x).reg o = s.reg o := rfl

theorem State.fld_setMover (s : State) (blk : Nat) (x : MoverSt) (o : Nat) (f : Fld) : (s.setMover blk x).fld o f = s.fld o f := rfl

/-- Settles O26: a broken lock goes to its first waiter, and SNAP writes the registers of the ledger. -/
theorem locksAndLedger : Obligations.LocksAndLedger := by
  refine fun s d p m => ⟨fun q => ?lock, ?snap, ?waits⟩
  case lock =>
    intro x hlkto hheld hdark hclk
    have hbreak : exec (.lockBreak d p m q) s = .next ((s.setFld (wmErr (blkId d p m)) F.WM_ERR.LKBRK 1).unlock (paneId d p) m q) :=
      congrArg Host.Outcome.next (if_pos ⟨hlkto, hheld, by simp [hdark], hclk⟩)
    have hmark : (s.setFld (wmErr (blkId d p m)) F.WM_ERR.LKBRK 1).flag (wmErr (blkId d p m)) F.WM_ERR.LKBRK = true :=
      s.flag_setFld_one _ _ (by decide) (by decide)
    have hqueue : (s.setFld (wmErr (blkId d p m)) F.WM_ERR.LKBRK 1).queue (paneId d p * 6 + m) q = x := State.queue_congr (by simp) _ _
    have hlateOf (pk : Packet) : (s.setFld (wmErr (blkId d p m)) F.WM_ERR.LKBRK 1).lateOf (paneId d p) m pk = s.lateOf (paneId d p) m pk := by
      simp [State.lateOf, State.pane]
    rw [hbreak]
    generalize s.setFld (wmErr (blkId d p m)) F.WM_ERR.LKBRK 1 = t at hmark hqueue hlateOf ⊢
    refine ⟨fun hnone => ?_, fun pk rest hwaiters hcmd hothers hlate => ?_⟩
    · rw [State.unlock_of_alone (hqueue ▸ hnone), hqueue]
      rfl
    · obtain ⟨hnext, hflag⟩ := State.unlock_rdlk (s := t) (hqueue ▸ hwaiters) hcmd hothers ((hlateOf pk).trans hlate)
      rw [hqueue] at hnext
      have hslots := congrArg QueueSt.slots hnext
      exact ⟨_, rfl, hflag.trans hmark, congrArg QueueSt.lock hnext, congrArg QueueSt.waiters hnext, hslots⟩
  case snap =>
    intro hd hclk
    have hsnap : exec (.ledgerSnap d p m) s = .next (s.snapBlock d p m) := by
      refine congrArg Host.Outcome.next ((State.reach_of_reached hd).trans ?_)
      rw [State.lctlSnap, if_neg (by simp [hd.1]), if_pos hclk]
    have hcounts (q : Fin 4) (k : Nat) (hk : k < 6) := s.reg_showLedgers d p m (fun q => s.queue (blkId d p m) q) (List.mem_range.2 q.isLt) hk
    have hothers (o : Nat) := s.reg_showLedgers_other d p m (fun q => s.queue (blkId d p m) q) (o := o) (List.range 4)
    have hregs : RegsDiffer s _ := (RegsDiffer.showLedgers ⟨s.regs, rfl⟩ d p m (fun q => s.queue (blkId d p m) q) (List.range 4))
    rw [State.snapBlock_eq] at hsnap
    dsimp only at hsnap hcounts hothers hregs
    generalize (List.range 4).foldl (fun a q => a.showCounts d p m q (s.queue (blkId d p m) q)) s = t at hsnap hcounts hothers hregs
    refine ⟨_, hsnap, (hregs.setFld _ _ _).setMover_frame _ _, ?_, fun q => ?_, fun o hledger hlctl => ?_⟩
    · have hwidth : 2 ^ (F.WM_LCTL.SEQ.hi + 1 - F.WM_LCTL.SEQ.lo) = 256 := rfl
      rw [State.fld_setMover, State.fld_setFld_same _ _ _ _ (by decide) (by decide), hwidth]
    · have hreg (k : Nat) (hk : k < 6) (n : Nat) (mv : MoverSt) :
          ((t.setFld (R.WM_LCTL d p m) F.WM_LCTL.SEQ n).setMover (blkId d p m) mv).reg (R.WM_QLEDGER d p m q k) =
            (s.queue (blkId d p m) q).counts.getD k 0 := by
        rw [State.reg_setMover, State.reg_setFld_other _ _ _ lctl_ne_qledger.symm, hcounts q k hk]
      obtain ⟨hin, hout, hslam, hflush, hocc, href⟩ := (s.queue (blkId d p m) q).counts_getD
      exact ⟨(hreg 0 (by decide) _ _).trans hin, (hreg 1 (by decide) _ _).trans hout, (hreg 2 (by decide) _ _).trans hslam,
        (hreg 3 (by decide) _ _).trans hflush, (hreg 4 (by decide) _ _).trans hocc, (hreg 5 (by decide) _ _).trans href⟩
    · rw [State.reg_setMover, State.reg_setFld_other _ _ _ hlctl]
      exact hothers o fun q hq k hk => hledger q k (List.mem_range.1 hq) hk
  case waits =>
    intro hd hclk
    refine congrArg Host.Outcome.next ((State.reach_of_reached hd).trans ?_)
    rw [State.lctlSnap, if_neg (by simp [hd.1]), if_neg (by simp [hclk])]

end Sys2Proof.Machine
end

section
/-! PROOF. The RAM ports of a word memory block (R160–R162), and its patrol (R177). -/
namespace Sys2Proof.Machine
open Sys2Proof.Claims

section
variable {s : State} {blk a who : Nat}

/-! ### Writes of an entry within one cycle (R162) -/

/-- A write that no later one of the cycle precedes is stored; the cycle's notes keep the entry as it stood at the cycle's start. -/
theorem State.storeEntry_of_allowed (h : ∀ w, s.arrWrite blk a = some w → w.who ≤ who) (x : Entry) : s.storeEntry blk a who x =
    (s.setMover blk { s.mover blk with
      wrCyc := (s.pane (blk / 6)).cycle + 1
      wrs := ⟨a, who, s.entryStart blk a⟩ :: ((s.mover blk).writes (s.pane (blk / 6)).cycle).filter fun w => !decide (w.addr = a) }).setEntry
        blk a x := by
  unfold State.storeEntry State.entryStart
  cases hw : s.arrWrite blk a with
  | none => rfl
  | some w => exact if_neg (Nat.not_lt.2 (h w hw))

/-- A write that a later one of the cycle precedes leaves everything as it is. -/
theorem State.storeEntry_of_later {w : ArrWrite} (hw : s.arrWrite blk a = some w) (h : who < w.who) (x : Entry) :
    s.storeEntry blk a who x = s := by
  unfold State.storeEntry
  rw [hw]
  exact if_pos h

theorem State.arrWrite_allowed_or_later (s : State) (blk a who : Nat) :
    (∀ w, s.arrWrite blk a = some w → w.who ≤ who) ∨ ∃ w, s.arrWrite blk a = some w ∧ who < w.who := by
  cases hw : s.arrWrite blk a with
  | none => exact .inl nofun
  | some w => exact (Nat.lt_or_ge who w.who).symm.imp (fun h v hv => Option.some.inj hv ▸ h) fun h => ⟨w, rfl, h⟩

theorem State.storeEntry_frame (s : State) (blk a who : Nat) (x : Entry) : s.storeEntry blk a who x =
    { s with arrays := (s.storeEntry blk a who x).arrays, movers := (s.storeEntry blk a who x).movers } := by
  obtain h | ⟨w, hw, h⟩ := s.arrWrite_allowed_or_later blk a who
  · rw [State.storeEntry_of_allowed h]
    rfl
  · rw [State.storeEntry_of_later hw h]

theorem State.mover_storeEntry_other (s : State) (blk a who : Nat) (x : Entry) {b : Nat} (hb : b ≠ blk) :
    (s.storeEntry blk a who x).mover b = s.mover b := by
  obtain h | ⟨w, hw, h⟩ := s.arrWrite_allowed_or_later blk a who
  · rw [State.storeEntry_of_allowed h]
    exact SMap.get_set_other _ _ _ _ _ _ hb
  · rw [State.storeEntry_of_later hw h]

theorem State.mover_setMover_same (s : State) (blk : Nat) (x : MoverSt) : (s.setMover blk x).mover blk = x := SMap.get_set_same _ _ _ _

theorem State.mover_storeEntry_same (s : State) (blk a who : Nat) (x : Entry) : (s.storeEntry blk a who x).mover blk =
    { s.mover blk with wrCyc := ((s.storeEntry blk a who x).mover blk).wrCyc, wrs := ((s.storeEntry blk a who x).mover blk).wrs } := by
  obtain h | ⟨w, hw, h⟩ := s.arrWrite_allowed_or_later blk a who
  · have hmover : ((s.storeEntry blk a who x).mover blk) = _ :=
      (congrArg (State.mover · blk) (State.storeEntry_of_allowed h x)).trans (s.mover_setMover_same blk _)
    rw [hmover]
  · rw [State.storeEntry_of_later hw h]

theorem State.entry_storeEntry (h : ∀ w, s.arrWrite blk a = some w → w.who ≤ who) (x : Entry) (b c : Nat) :
    (s.storeEntry blk a who x).entry b c = if b * 16384 + c = blk * 16384 + a then x else s.entry b c := by
  rw [State.storeEntry_of_allowed h]
  split
  · next heq => exact (congrArg (SMap.get ({} : Entry) _) heq).trans (SMap.get_set_same _ _ _ _)
  · next hne => exact SMap.get_set_other _ _ _ _ _ _ hne

/-- What an entry held at the cycle's start does not change within the cycle. -/
theorem State.entryStart_storeEntry (s : State) (blk a who : Nat) (x : Entry) :
    (s.storeEntry blk a who x).entryStart blk a = s.entryStart blk a := by
  obtain h | ⟨w, hw, h⟩ := s.arrWrite_allowed_or_later blk a who
  · have hmover := (congrArg (State.mover · blk) (State.storeEntry_of_allowed h x)).trans (s.mover_setMover_same blk _)
    have hpane : (s.storeEntry blk a who x).pane (blk / 6) = s.pane (blk / 6) := by
      rw [State.storeEntry_of_allowed h]
      rfl
    have hwrite : (s.storeEntry blk a who x).arrWrite blk a = some ⟨a, who, s.entryStart blk a⟩ := by
      simp only at hmover
      rw [State.arrWrite, hpane, hmover]
      simp [MoverSt.writes]
    rw [State.entryStart, hwrite]
    rfl
  · rw [State.storeEntry_of_later hw h]

/-! ### The check of a read (R176) -/

/-- An uncorrectable entry sets UE, and the first one its address. -/
def State.markUe (s : State) (blk a : Nat) : State :=
  (if s.flag (wmErr blk) F.WM_ERR.UE then s else s.setFld (wmErr blk) F.WM_ERR.UEADR a).setFld (wmErr blk) F.WM_ERR.UE 1

theorem State.checkEntry_of_uncorrectable (h : (s.entry blk a).bad = 2) : s.checkEntry blk a = s.markUe blk a := by
  rw [State.checkEntry, h]
  rfl

theorem State.checkEntry_of_correctable (h : (s.entry blk a).bad = 1) : s.checkEntry blk a =
    ((s.setEntry blk a { s.entry blk a with bad := 0 }).setFld (wmErr blk) F.WM_ERR.CE 1).addSat (wmErr blk) F.WM_ERR.CECNT 1 := by
  unfold State.checkEntry
  split
  case h_1 h0 => exact absurd (h.symm.trans h0) (by decide)
  case h_2 => rfl
  case h_3 _ h1 => exact absurd h h1

theorem State.entryStart_of_unwritten (h : s.arrWrite blk a = none) : s.entryStart blk a = s.entry blk a := by
  rw [State.entryStart, h]
  rfl

theorem State.checkRead_of_uncorrectable (h : (s.entryStart blk a).bad = 2) : s.checkRead blk a (s.entryStart blk a) = s.markUe blk a := by
  rw [State.checkRead, h]
  cases hw : s.arrWrite blk a with
  | none => exact (if_pos rfl).trans (State.checkEntry_of_uncorrectable (s.entryStart_of_unwritten hw ▸ h))
  | some w => rfl

theorem State.checkRead_of_good (h : (s.entryStart blk a).bad = 0) : s.checkRead blk a (s.entryStart blk a) = s := by
  rw [State.checkRead, h]
  cases hw : s.arrWrite blk a with
  | none => exact (if_pos rfl).trans (State.checkEntry_of_good (s.entryStart_of_unwritten hw ▸ h))
  | some w => rfl

theorem State.flag_markUe (s : State) (blk a : Nat) : (s.markUe blk a).flag (wmErr blk) F.WM_ERR.UE = true :=
  State.flag_setFld_one _ _ _ (by decide) (by decide)

theorem regsBut_markUe (s : State) (blk a : Nat) : RegsBut s (s.markUe blk a) [wmErr blk] := by
  refine regsBut_setFld ?_ (List.mem_singleton.2 rfl) _ _
  split
  · exact fun _ _ => rfl
  · exact regsBut_setFld (fun _ _ => rfl) (List.mem_singleton.2 rfl) _ _

theorem regsDiffer_markUe (s : State) (blk a : Nat) : RegsDiffer s (s.markUe blk a) := by
  refine RegsDiffer.setFld ?_ _ _ _
  split
  · exact ⟨s.regs, rfl⟩
  · exact RegsDiffer.setFld ⟨s.regs, rfl⟩ _ _ _

end

theorem State.flag_setMover (s : State) (b : Nat) (x : MoverSt) (off : Nat) (f : Fld) : (s.setMover b x).flag off f = s.flag off f := rfl

theorem regsBut_setMover {s t : State} {offs : List Nat} (h : RegsBut s t offs) (b : Nat) (x : MoverSt) : RegsBut s (t.setMover b x) offs :=
  fun o ho => h o ho

/-! ### A port that has served its request -/

theorem State.flag_setPort (s : State) (b i : Nat) (x : PortSt) (off : Nat) (f : Fld) : (s.setPort b i x).flag off f = s.flag off f := rfl

theorem State.entry_setPort (s : State) (b i : Nat) (x : PortSt) (c a : Nat) : (s.setPort b i x).entry c a = s.entry c a := rfl

theorem State.entryStart_setPort (s : State) (b i : Nat) (x : PortSt) (c a : Nat) : (s.setPort b i x).entryStart c a = s.entryStart c a := rfl

theorem State.mover_setPort (s : State) (b i : Nat) (x : PortSt) (c : Nat) : (s.setPort b i x).mover c = s.mover c := rfl

theorem regsBut_setPort {s t : State} {offs : List Nat} (h : RegsBut s t offs) (b i : Nat) (x : PortSt) : RegsBut s (t.setPort b i x) offs :=
  fun o ho => h o ho

theorem RegsDiffer.setPort_frame {s t : State} (h : RegsDiffer s t) (b i : Nat) (x : PortSt) :
    t.setPort b i x = { s with ports := (t.setPort b i x).ports, regs := (t.setPort b i x).regs } := by
  obtain ⟨rs, rfl⟩ := h
  rfl

theorem State.setPort_frame {s t : State} (h : t = { s with arrays := t.arrays, movers := t.movers }) (b i : Nat) (x : PortSt) :
    t.setPort b i x = { s with arrays := (t.setPort b i x).arrays, ports := (t.setPort b i x).ports, movers := (t.setPort b i x).movers } := by
  rw [h]
  rfl

theorem State.port_congr {s t : State} (h : t.ports = s.ports) (b i : Nat) : t.port b i = s.port b i := by rw [State.port, h, State.port]

theorem State.port_setPort_same (s : State) (blk i : Nat) (x : PortSt) : (s.setPort blk i x).port blk i = x := SMap.get_set_same _ _ _ _

theorem State.port_setPort_other (s : State) (blk : Nat) {i j : Nat} (x : PortSt) (h : j ≠ i) : (s.setPort blk i x).port blk j = s.port blk j :=
  SMap.get_set_other _ _ _ _ _ _ fun heq => h (Nat.add_left_cancel heq)

/-- Settles O24: what the port serves in the state that its pane's cycles have led to, and the four readings of the patrol. -/
theorem ramPortsAndPatrol : Obligations.RamPortsAndPatrol := by
  refine fun s d p m => ⟨fun i dt r rs => ⟨?early, ?serve⟩, ?patrol⟩
  case early =>
    intro hreqs hearly
    dsimp only [exec, execRamPortServe]
    rw [hreqs]
    exact congrArg Host.Outcome.next (if_pos (hearly.imp_right .inl))
  case serve =>
    intro hreqs hcyc hgone hport hruns
    dsimp only [exec, execRamPortServe]
    generalize s.advance (paneId d p) dt = s1 at hreqs hcyc hgone hport hruns ⊢
    rw [hreqs]
    have hgo : ¬(s1.cyc (paneId d p) ≤ r.cyc ∨ (s1.port (blkId d p m) i).goneCyc = s1.cyc (paneId d p) + 1 ∨
        s1.numPorts (paneId d p) m ≤ i.val ∨ ¬s1.paneRuns (paneId d p) = true) := by
      simp only [hruns, not_true_eq_false, or_false, not_or, Nat.not_le]
      exact ⟨hcyc, hgone, hport⟩
    dsimp only
    rw [if_neg hgo]
    refine ⟨fun hwrite => ?_, fun hread hbad => ?_, fun hread hgood => ?_⟩
    · rw [if_pos hwrite]
      refine ⟨_, rfl, State.setPort_frame (s1.storeEntry_frame _ _ _ _) _ _ _, fun j hj _ => ?_, fun b hb => ?_, ?_, ?_, ?_, ?_, ?_,
        fun hfirst b a => ?_, fun w hw hlater => ?_⟩
      · rw [State.port_setPort_other _ _ _ hj]
        exact State.port_congr (congrArg State.ports (s1.storeEntry_frame _ _ _ _)) _ _
      · rw [State.mover_setPort, State.mover_storeEntry_other _ _ _ _ _ hb]
      · rw [State.mover_setPort, ← State.mover_storeEntry_same]
      · rw [State.port_setPort_same]
      · rw [State.port_setPort_same]
      · rw [State.port_setPort_same]
      · rw [State.entryStart_setPort, State.entryStart_storeEntry]
      · rw [State.entry_setPort, State.entry_storeEntry hfirst]
      · rw [State.storeEntry_of_later hw hlater]
        rfl
    · rw [if_neg (by simp [hread]), State.checkRead_of_uncorrectable hbad]
      refine ⟨_, rfl, (State.flag_setPort _ _ _ _ _ _).trans (s1.flag_markUe _ _), regsBut_setPort (regsBut_markUe s1 _ _) _ _ _,
        (regsDiffer_markUe s1 _ _).setPort_frame _ _ _, ?_⟩
      rw [State.port_setPort_same]
    · rw [if_neg (by simp [hread]), State.checkRead_of_good hgood]
      refine ⟨_, rfl, rfl, fun j hj _ => s1.port_setPort_other _ _ hj, ?_, ?_, ?_⟩ <;> rw [State.port_setPort_same]
  case patrol =>
    intro mv e moved hpen hruns
    have hread : exec (.wmPatrolRead d p m) s = .next (((if e.bad = 2 ∧ ¬ s.liveEntry (paneId d p) m mv.patrol then
        (s.setEntry (blkId d p m) mv.patrol {}).addSat (wmErr (blkId d p m)) F.WM_ERR.CECNT 1
      else s.checkEntry (blkId d p m) mv.patrol)).setMover (blkId d p m) moved) := congrArg Host.Outcome.next (if_pos ⟨hpen, hruns⟩)
    refine ⟨fun hgood => ?_, fun hcorr => ?_, fun hbad hdead => ?_, fun hbad hlive => ?_⟩
    · rw [hread, if_neg (by simp [hgood]), State.checkEntry_of_good hgood]
    · rw [hread, if_neg (by simp [hcorr]), State.checkEntry_of_correctable hcorr]
    · rw [hread, if_pos ⟨hbad, by simp [hdead]⟩]
    · rw [hread, if_neg (by simp [hlive]), State.checkEntry_of_uncorrectable hbad]
      exact ⟨_, rfl, (State.flag_setMover _ _ _ _ _).trans (s.flag_markUe _ _), State.mover_setMover_same _ _ _,
        regsBut_setMover (regsBut_markUe s _ _) _ _, (regsDiffer_markUe s _ _).setMover_frame _ _⟩

end Sys2Proof.Machine
end

section
/-!
PROOF. What the ports of the transom network change when a packet sets out or is taken (R187, R190, R198): their queues, the ledgers of their links
and the packets they track.
-/
namespace Sys2Proof.Machine
open Sys2Proof.Claims

/-! ### All but the ports -/

/-- The state without what stands at the network's ports: the queues that send and receive, the ledgers, and the packets tracked. -/
def State.offPorts (s : State) : State := { s with srcs := [], inqs := [], tins := [], ledger := [], tracked := [] }

@[simp] theorem State.offPorts_ite (c : Prop) [Decidable c] (a b : State) :
    (if c then a else b).offPorts = if c then a.offPorts else b.offPorts := apply_ite State.offPorts c a b

theorem State.offPorts_foldl {α : Type} (f : State → α → State) (l : List α) (s : State) (hf : ∀ a i, (f a i).offPorts = a.offPorts) :
    (l.foldl f s).offPorts = s.offPorts := by
  induction l generalizing s with
  | nil => rfl
  | cons i l ih => rw [List.foldl_cons, ih, hf]

@[simp] theorem State.offPorts_set (s : State) :
    (∀ l i v, (s.setLed l i v).offPorts = s.offPorts) ∧ (∀ l i n, (s.addLed l i n).offPorts = s.offPorts) ∧
    (∀ i v x, (s.setSrcq i v x).offPorts = s.offPorts) ∧ (∀ i v x, (s.setInq i v x).offPorts = s.offPorts) ∧
    (∀ l v x, (s.setTin l v x).offPorts = s.offPorts) := by
  and_intros <;> intros <;> rfl

theorem State.offPorts_tracked (s : State) (ts : List Tracked) : ({ s with tracked := ts } : State).offPorts = s.offPorts := rfl

@[simp] theorem State.offPorts_fields (s : State) :
    (∀ l i j n, (s.setChanFields l i j n).offPorts = s.offPorts) ∧ (∀ l v n, (s.setAvail l v n).offPorts = s.offPorts) ∧
    (∀ l v n, (s.setIocc l v n).offPorts = s.offPorts) := by
  simp [State.setChanFields, State.setAvail, State.setIocc]

theorem State.offPorts_creditBack (s : State) (l v n : Nat) : (s.creditBack l v n).offPorts = s.offPorts :=
  (State.offPorts_tracked _ _).trans (by simp)

@[simp] theorem State.offPorts_flits (s : State) :
    (∀ l v n, (s.sendFlits l v n).offPorts = s.offPorts) ∧ (∀ l v n, (s.creditBack l v n).offPorts = s.offPorts) ∧
    (∀ l v n, (s.takeFlits l v n).offPorts = s.offPorts) ∧ (∀ l v n, (s.freeFlits l v n).offPorts = s.offPorts) := by
  simp [State.sendFlits, State.offPorts_creditBack, State.takeFlits, State.freeFlits]

@[simp] theorem State.offPorts_enter (s : State) (i v : Nat) (f : TFlit) : (s.enter i v f).offPorts = s.offPorts := by
  simp [State.enter]

@[simp] theorem State.offPorts_hasLeft (s : State) (i : Nat) (pk : Packet) : (s.hasLeft i pk).offPorts = s.offPorts := by
  simp [State.hasLeft, State.offPorts_tracked]

@[simp] theorem State.offPorts_fillOne (s : State) (i v : Nat) : (s.fillOne i v).offPorts = s.offPorts := by
  dsimp only [State.fillOne]
  split <;> simp

@[simp] theorem State.offPorts_fill (s : State) (i v : Nat) : (s.fill i v).offPorts = s.offPorts :=
  State.offPorts_foldl _ _ _ fun a _ => a.offPorts_fillOne i v

@[simp] theorem State.offPorts_launch (s : State) (pk : Packet) : (s.launch pk).offPorts = s.offPorts := by
  simp [State.launch]

@[simp] theorem State.offPorts_popTin (s : State) (l v : Nat) : (s.popTin l v).offPorts = s.offPorts := by
  dsimp only [State.popTin]
  split <;> simp [State.settleTin]

@[simp] theorem State.offPorts_takeWhole (s : State) (pk : Packet) : (s.takeWhole pk).offPorts = s.offPorts := s.offPorts_popTin _ _

/-! ### The ports and the registers -/

/-- The state with another register file. -/
def State.withRegs (s : State) (rs : SMap HWord) : State := { s with regs := rs }

theorem RegsDiffer.withRegs {s t : State} (h : RegsDiffer s t) : t = s.withRegs t.regs := h.frame

section
variable {s : State} {i v : Nat}

theorem State.fillOne_of_nil (h : (s.srcq i v).pks = []) : s.fillOne i v = s := by
  simp only [State.fillOne, h]

/-- The next flit of the packet that a source port sends first enters the router's input, if there is room. -/
theorem State.fillOne_of_cons {pk : Packet} {rest : List Packet} (h : (s.srcq i v).pks = pk :: rest) : s.fillOne i v =
    if linkDepth i ≤ s.iocc i v then s
    else if flitsOf pk ≤ (s.srcq i v).done + 1 then
      ((s.enter i v (flitAt pk (s.srcq i v).done)).setSrcq i v ⟨rest, 0⟩).hasLeft i pk
    else (s.enter i v (flitAt pk (s.srcq i v).done)).setSrcq i v { s.srcq i v with done := (s.srcq i v).done + 1 } := by
  simp only [State.fillOne, h]

end

section
variable (s : State) (rs : SMap HWord) (i v : Nat)

theorem State.enter_withRegs (f : TFlit) : (s.withRegs rs).enter i v f = (s.enter i v f).withRegs rs := by
  dsimp only [State.enter, State.takeFlits, State.setIocc, State.setChanFields]
  split <;> rfl

theorem State.hasLeft_withRegs (pk : Packet) : (s.withRegs rs).hasLeft i pk = (s.hasLeft i pk).withRegs rs := by
  unfold State.hasLeft
  split <;> rfl

theorem State.setSrcq_withRegs (x : SrcQ) : (s.withRegs rs).setSrcq i v x = (s.setSrcq i v x).withRegs rs := rfl

theorem State.fillOne_withRegs : (s.withRegs rs).fillOne i v = (s.fillOne i v).withRegs rs := by
  have hq : (s.withRegs rs).srcq i v = s.srcq i v := rfl
  have hocc : (s.withRegs rs).iocc i v = s.iocc i v := rfl
  cases hpks : (s.srcq i v).pks with
  | nil => rw [State.fillOne_of_nil hpks, State.fillOne_of_nil (hq ▸ hpks)]
  | cons pk rest =>
    rw [State.fillOne_of_cons hpks, State.fillOne_of_cons (hq ▸ hpks), hq, hocc, State.enter_withRegs, State.setSrcq_withRegs,
      State.setSrcq_withRegs, State.hasLeft_withRegs, apply_ite (State.withRegs · rs), apply_ite (State.withRegs · rs)]

theorem State.fill_withRegs : (s.withRegs rs).fill i v = (s.fill i v).withRegs rs :=
  List.foldl_hom (State.withRegs · rs) fun a _ => (a.fillOne_withRegs rs i v)

/-- A packet sets out as it does beside any other register file. -/
theorem State.launch_withRegs (pk : Packet) : (s.withRegs rs).launch pk = (s.launch pk).withRegs rs :=
  (State.setSrcq s pk.src (vcOf pk) { s.srcq pk.src (vcOf pk) with pks := (s.srcq pk.src (vcOf pk)).pks ++ [pk] }).fill_withRegs rs pk.src (vcOf pk)

end

end Sys2Proof.Machine
end

section
/-!
PROOF. Messages and lookups at the hub (R207, R300), and completions at their initiators (R184, R186, R189).
-/
namespace Sys2Proof.Machine
open Sys2Proof.Claims

/-! ### A request at a hub port -/

/-- A request whose turn has come is taken and served. -/
theorem State.serve_of_readyAt {s : State} {c : Fin 16} {pk : Packet} (h : ReadyAt s c pk) (hport : fmPort pk.dst = false) (ok : Bool)
    (data : List Word) : s.serve c pk ok data = (s.takeWhole pk).atTarget pk ok data := by
  refine (if_pos h).trans ?_
  rw [hport]
  rfl

theorem length_assemble_le (h : TFlit) (ds : List TFlit) : (assemble h ds).data.length ≤ 64 := by
  refine (List.length_take_le _ _).trans ?_
  split
  · exact Nat.zero_le _
  · exact Nat.lt_succ_iff.1 (headerOf h.w).len.isLt

/-- A packet that has come whole carries at most 64 words. -/
theorem State.length_data_of_headAt {s : State} {l v : Nat} {pk : Packet} (h : s.headAt l v = some pk) : pk.data.length ≤ 64 := by
  obtain ⟨p, hp, rfl⟩ := Option.map_eq_some_iff.1 h
  unfold frontPacket at hp
  split at hp
  · cases hp
  · dsimp only at hp
    split at hp
    · exact (Option.some.inj hp) ▸ length_assemble_le _ _
    · cases hp

/-! ### Message rings (R300) -/

theorem SMap.get_foldl_set_other {α : Type} [DecidableEq α] (d : α) (key : Nat → Nat) (val : Nat → α) (l : List Nat) (m : SMap α) {x : Nat}
    (h : ∀ k ∈ l, x ≠ key k) : SMap.get d (l.foldl (fun a k => SMap.set d a (key k) (val k)) m) x = SMap.get d m x := by
  induction l generalizing m with
  | nil => rfl
  | cons k l ih =>
    rw [List.foldl_cons, ih _ fun j hj => h j (List.mem_cons_of_mem _ hj), SMap.get_set_other _ _ _ _ _ _ (h k List.mem_cons_self)]

theorem SMap.get_foldl_set_range {α : Type} [DecidableEq α] (d : α) (key : Nat → Nat) (val : Nat → α) (m : SMap α) (n : Nat)
    (hinj : ∀ i j, i < j → j < n → key i ≠ key j) {k : Nat} (hk : k < n) :
    SMap.get d ((List.range n).foldl (fun a k => SMap.set d a (key k) (val k)) m) (key k) = val k := by
  induction n with
  | zero => exact absurd hk (Nat.not_lt_zero k)
  | succ n ih =>
    rw [List.range_succ, List.foldl_append, List.foldl_cons, List.foldl_nil]
    obtain hlt | rfl := Nat.lt_succ_iff_lt_or_eq.1 hk
    · rw [SMap.get_set_other _ _ _ _ _ _ (hinj k n hlt n.lt_succ_self), ih (fun i j hij hj => hinj i j hij (hj.trans n.lt_succ_self)) hlt]
    · rw [SMap.get_set_same]

/-- What a request comes to at port `x` of the hub switch. -/
theorem State.atTarget_hub (s : State) {pk : Packet} {x : Nat} (hx : x < 64) (hdst : pk.dst = portId 256 x) (ok : Bool) (data : List Word) :
    s.atTarget pk ok data =
      if 24 ≤ x ∧ x < 28 then s.lkTarget (x - 24) pk
      else if decide (0x10000 ≤ pk.addr.toNat ∧ pk.addr.toNat < 0x10003) then (if pk.cmd = cMSG then s.msgTake (x - 28) pk else s.answerErr pk eUNSUP)
      else if x = 28 then s.hostWindow pk ok data
      else s.answerErr pk eUNSUP := by
  have hhub : ¬ pk.dst < 16384 := by rw [hdst, portId]; omega
  have hport : pk.dst % 64 = x := by rw [hdst, portId]; omega
  unfold State.atTarget
  rw [if_neg hhub, hport]

theorem fmPort_hub {x : Nat} (hx : 24 ≤ x) (hx' : x < 64) : fmPort (portId 256 x) = false :=
  decide_eq_false fun h => absurd h.2.2 (by rw [portOf, portId]; omega)

/-- A message in its ring's window is taken by the ring. -/
theorem State.exec_msg {s : State} {pk : Packet} {i : Nat} (h : ReadyAt s cMSG pk) (hi : i < 3) (hdst : pk.dst = portId 256 (28 + i))
    (hwin : 0x10000 ≤ pk.addr.toNat ∧ pk.addr.toNat < 0x10003) : exec (.msg pk) s = .next ((s.takeWhole pk).msgTake i pk) := by
  have hserve := State.serve_of_readyAt h (hdst ▸ fmPort_hub (by omega) (by omega)) false []
  rw [State.atTarget_hub _ (by omega) hdst, if_neg (by omega), if_pos (decide_eq_true hwin), if_pos h.1, Nat.add_sub_cancel_left] at hserve
  exact congrArg Host.Outcome.next hserve

/-- The entries of a ring, and the one that its next message goes to. -/
def State.ringSize (s : State) (i : Nat) : Nat := 2 ^ max 1 (min 10 (s.fld (R.MSG_CFG i) F.MSG_CFG.LOG2N))
def State.ringTail (s : State) (i : Nat) : Nat := s.fld (R.MSG_TAIL i) F.MSG_TAIL.MTAIL % s.ringSize i

/-- A ring without room, or disabled. -/
def State.ringShut (s : State) (i : Nat) : Prop :=
  s.flag (R.MSG_CFG i) F.MSG_CFG.EN = false ∨ (s.ringTail i + 1) % s.ringSize i = s.fld (R.MSG_HEAD i) F.MSG_HEAD.MHEAD % s.ringSize i

/-- What a ring's entry holds of a message. -/
def messageWords (pk : Packet) : List Word :=
  BitVec.ofNat 40 (srcFields pk.src * 128 + pk.data.length) :: pk.data ++ List.replicate (64 - pk.data.length) 0

theorem State.ringSize_le (s : State) (i : Nat) : s.ringSize i ≤ 1024 :=
  Nat.pow_le_pow_right (i := max 1 (min 10 (s.fld (R.MSG_CFG i) F.MSG_CFG.LOG2N))) (j := 10) Nat.two_pos (by omega)

theorem State.ringSize_pos (s : State) (i : Nat) : 0 < s.ringSize i := Nat.two_pow_pos _

theorem State.msgTake_shut {s : State} {i : Nat} (h : s.ringShut i) (pk : Packet) :
    s.msgTake i pk = s.addSat (R.MSG_DROP i) F.MSG_DROP.MDROP 1 :=
  if_pos (h.imp (by simp [·]) id)

theorem State.msgTake_open {s : State} {i : Nat} (h : ¬ s.ringShut i) (pk : Packet) : s.msgTake i pk =
    (let s1 := (s.msgStore i (s.msgAddr i (s.ringTail i)) (messageWords pk)).setFld (R.MSG_TAIL i) F.MSG_TAIL.MTAIL
      ((s.ringTail i + 1) % s.ringSize i)
    if i = 0 then s1.vector 0 (s.fld (R.MSG_CFG 0) F.MSG_CFG.VEC) else s1.emit (.coreIrq (i - 1))) :=
  if_neg fun hc => h (hc.imp (by simp) id)

/-- A vector changes no more than the messages sent and what is pending. -/
theorem State.vector_frame (s : State) (fn v : Nat) : s.vector fn v = { s with out := s.vectorOut fn v ++ s.out, msixs := (s.vector fn v).msixs } := by
  unfold State.vectorOut
  by_cases hon : (s.msixOf fn).on = true
  · by_cases hm : (s.msixOf fn).masked v = true
    · have hpends : s.vector fn v = s.setMsix fn _ := (if_neg (not_not_intro hon)).trans (if_pos hm)
      simp [hpends, hm, State.setMsix]
    · have hsends : s.vector fn v = s.emit (msixEv fn v) := (if_neg (not_not_intro hon)).trans (if_neg hm)
      simp [hsends, hon, hm, State.emit]
  · have hoff : s.vector fn v = s := if_pos hon
    simp [hoff, hon]

theorem State.vector_after_emit (s : State) (e : OutEv) (off : Nat) (f : Fld) (n v : Nat) : ∃ ms, ((s.emit e).setFld off f n).vector 0 v =
    { s with regs := (s.setFld off f n).regs, msixs := ms, out := s.vectorOut 0 v ++ e :: s.out } :=
  ⟨_, State.vector_frame _ _ _⟩

section
variable {s : State} {i : Nat} (pk : Packet) (hroom : ¬ s.ringShut i)
include hroom

/-- A message enters the host's ring. -/
theorem State.msgTake_host (hi : i = 0) : ∃ ms, s.msgTake i pk = { s with
    regs := (s.setFld (R.MSG_TAIL i) F.MSG_TAIL.MTAIL ((s.ringTail i + 1) % s.ringSize i)).regs
    msixs := ms
    out := s.vectorOut 0 (s.fld (R.MSG_CFG 0) F.MSG_CFG.VEC) ++
      .hostWrite (s.msgAddr i (s.ringTail i)) ((messageWords pk).flatMap slotOctets) :: s.out } := by
  subst hi
  rw [State.msgTake_open hroom, State.msgStore]
  exact State.vector_after_emit s _ _ _ _ _

/-- A message enters the ring of a core. -/
theorem State.msgTake_core (hi : i ≠ 0) : s.msgTake i pk = { s with
      regs := (s.setFld (R.MSG_TAIL i) F.MSG_TAIL.MTAIL ((s.ringTail i + 1) % s.ringSize i)).regs
      out := .coreIrq (i - 1) :: s.out
      mcMem := (List.range (messageWords pk).length).foldl (fun m k =>
        SMap.set 0 m ((i - 1) * 2 ^ 61 + (s.msgAddr i (s.ringTail i) / 8 + k) % 2 ^ 61) ((messageWords pk).getD k 0)) s.mcMem } := by
  rw [State.msgTake_open hroom, if_neg hi, State.msgStore, if_neg hi]
  rfl

end

theorem length_messageWords {pk : Packet} (h : pk.data.length ≤ 64) : (messageWords pk).length = 65 := by
  rw [messageWords, List.length_append, List.length_cons, List.length_replicate]
  omega

theorem State.reg_congr {s t : State} (h : t.regs = s.regs) : t.reg = s.reg := by
  funext off
  rw [State.reg, h, State.reg]

section
variable {s a : State} (h : a.offPorts = s.offPorts) (i : Nat)
include h

theorem State.reg_of_offPorts : a.reg = s.reg := State.reg_congr (congrArg State.regs h :)

theorem State.fld_of_offPorts (off : Nat) (f : Fld) : a.fld off f = s.fld off f := by
  rw [State.fld, State.reg_of_offPorts h, State.fld]

theorem State.ring_of_offPorts : a.ringSize i = s.ringSize i ∧ a.ringTail i = s.ringTail i ∧ (a.ringShut i ↔ s.ringShut i) ∧
    a.msgAddr i = s.msgAddr i := by
  have hsize : a.ringSize i = s.ringSize i := by rw [State.ringSize, State.fld_of_offPorts h, State.ringSize]
  have htail : a.ringTail i = s.ringTail i := by rw [State.ringTail, hsize, State.fld_of_offPorts h, State.ringTail]
  refine ⟨hsize, htail, ?_, ?_⟩
  · rw [State.ringShut, hsize, htail, State.fld_of_offPorts h, State.flag, State.fld_of_offPorts h, State.ringShut, State.flag]
  · funext t
    rw [State.msgAddr, State.reg_of_offPorts h, State.msgAddr]

end

section
variable {s : State} {pk : Packet} {i : Nat} (hready : ReadyAt s cMSG pk) (hi : i < 3) (hdst : pk.dst = portId 256 (28 + i))
  (hwin : 0x10000 ≤ pk.addr.toNat ∧ pk.addr.toNat < 0x10003)
include hready hi hdst hwin

/-- R300: a ring without room, or disabled, drops the message and counts it. -/
theorem message_dropped (hshut : s.ringShut i) : ∃ t, exec (.msg pk) s = .next t ∧ t = { s.takeWhole pk with regs := t.regs } ∧
    RegsBut s t [R.MSG_DROP i] ∧ t.fld (R.MSG_DROP i) F.MSG_DROP.MDROP = min (s.fld (R.MSG_DROP i) F.MSG_DROP.MDROP + 1) 65535 := by
  have hoff := s.offPorts_takeWhole pk
  have hexec := State.exec_msg hready hi hdst hwin
  rw [State.msgTake_shut ((State.ring_of_offPorts hoff i).2.2.1.2 hshut)] at hexec
  refine ⟨_, hexec, rfl, regsBut_setFld (fun o _ => congrFun (State.reg_of_offPorts hoff) o) (List.mem_singleton.2 rfl) _ _, ?_⟩
  rw [State.fld_addSat_same _ _ _ (by decide) (by decide), State.fld_of_offPorts hoff]
  rfl

omit hready hi hdst hwin in
theorem State.vectorOut_congr {s t : State} (h : t.msixs = s.msixs) : t.vectorOut = s.vectorOut := by
  funext fn v
  rw [State.vectorOut, State.msixOf, h, State.vectorOut, State.msixOf]

/-- R300: a message enters a ring that has room. -/
theorem message_taken (hroom : ¬ s.ringShut i) : ∃ t, exec (.msg pk) s = .next t ∧
    t = { s.takeWhole pk with regs := t.regs, out := t.out, mcMem := t.mcMem, msixs := t.msixs } ∧ RegsBut s t [R.MSG_TAIL i] ∧
    t.fld (R.MSG_TAIL i) F.MSG_TAIL.MTAIL = (s.ringTail i + 1) % s.ringSize i ∧
    (i = 0 → t.mcMem = s.mcMem ∧ t.out = s.vectorOut 0 (s.fld (R.MSG_CFG 0) F.MSG_CFG.VEC) ++
      .hostWrite (s.msgAddr i (s.ringTail i)) ((messageWords pk).flatMap slotOctets) :: s.out) ∧
    (1 ≤ i → t.msixs = s.msixs ∧ t.out = .coreIrq (i - 1) :: s.out ∧
      t.mcMem = (List.range (messageWords pk).length).foldl (fun m k =>
        SMap.set 0 m ((i - 1) * 2 ^ 61 + (s.msgAddr i (s.ringTail i) / 8 + k) % 2 ^ 61) ((messageWords pk).getD k 0)) s.mcMem) := by
  have hoff := s.offPorts_takeWhole pk
  have hmem : (s.takeWhole pk).mcMem = s.mcMem := (congrArg State.mcMem hoff :)
  have hout : (s.takeWhole pk).out = s.out := (congrArg State.out hoff :)
  have hmsixs : (s.takeWhole pk).msixs = s.msixs := (congrArg State.msixs hoff :)
  obtain ⟨hsize, htail, hshut, haddr⟩ := State.ring_of_offPorts hoff i
  have hexec := State.exec_msg hready hi hdst hwin
  have hregs (t : State) (ht : t.regs = ((s.takeWhole pk).setFld (R.MSG_TAIL i) F.MSG_TAIL.MTAIL ((s.ringTail i + 1) % s.ringSize i)).regs) :
      RegsBut s t [R.MSG_TAIL i] ∧ t.fld (R.MSG_TAIL i) F.MSG_TAIL.MTAIL = (s.ringTail i + 1) % s.ringSize i := by
    rw [RegsBut, State.fld, State.reg_congr ht]
    refine ⟨regsBut_setFld (fun o _ => congrFun (State.reg_of_offPorts hoff) o) (List.mem_singleton.2 rfl) _ _, ?_⟩
    refine (State.fld_setFld_same _ _ _ _ (by decide) (by decide)).trans (Nat.mod_eq_of_lt ?_)
    exact (Nat.mod_lt _ (s.ringSize_pos i)).trans_le (s.ringSize_le i)
  by_cases h0 : i = 0
  · obtain ⟨ms, hms⟩ := State.msgTake_host pk (mt hshut.1 hroom) h0
    rw [hms, hsize, htail, haddr, State.fld_of_offPorts hoff] at hexec
    obtain ⟨hbut, hfld⟩ := hregs _ rfl
    refine ⟨_, hexec, rfl, hbut, hfld, fun _ => ⟨hmem, ?_⟩, fun h1 => absurd h0 (by omega)⟩
    rw [State.vectorOut_congr hmsixs, hout]
  · have hcore := State.msgTake_core pk (mt hshut.1 hroom) h0
    rw [hsize, htail, haddr, hmem, hout] at hcore
    rw [hcore] at hexec
    obtain ⟨hbut, hfld⟩ := hregs _ rfl
    exact ⟨_, hexec, rfl, hbut, hfld, fun h => absurd h h0, fun _ => ⟨hmsixs, rfl, rfl⟩⟩

end

/-- The words of a message stand in its entry's slots, and every other slot holds what it held. -/
theorem messageSlots {pk : Packet} (hlen : pk.data.length ≤ 64) (base at_ : Nat) (m : SMap Word) :
    let slot := fun k => base + (at_ + k) % 2 ^ 61
    let m' := (List.range (messageWords pk).length).foldl (fun a k => SMap.set 0 a (slot k) ((messageWords pk).getD k 0)) m
    (∀ k, k < (messageWords pk).length → SMap.get 0 m' (slot k) = (messageWords pk).getD k 0) ∧
    ∀ x, (∀ k, k < (messageWords pk).length → x ≠ slot k) → SMap.get 0 m' x = SMap.get 0 m x := by
  intro slot m'
  have hw := length_messageWords hlen
  refine ⟨fun k hk => SMap.get_foldl_set_range 0 slot _ m _ (fun i j hij hj => ?_) hk,
    fun x hx => SMap.get_foldl_set_other 0 slot _ _ m fun k hk => hx k (List.mem_range.1 hk)⟩
  simp only [slot]
  omega

/-! ### Lookups (R207) -/

/-- Initiators' records that wait before a lookup hold it back. -/
theorem State.exec_lkup_waits {s : State} {pk : Packet} {lp : Fin 4} {r : LkRec} (hdst : pk.dst = portId 256 (24 + lp))
    (hr : r ∈ SMap.get [] s.lkRecs lp.val) (hsrc : r.src = pk.src) (hprio : r.prio = pk.prio) : exec (.lkup pk) s = .next s := by
  refine congrArg Host.Outcome.next (if_neg fun ⟨hcmd, _, hturn, _⟩ => ?_)
  have hport : portOf pk.dst = 24 + lp.val := by rw [hdst, portOf, portId]; omega
  have hrouter : routerOf pk.dst = 256 := by rw [hdst, routerOf, portId]; omega
  unfold State.inTurn at hturn
  rw [if_pos ⟨hrouter, by omega, by omega, by rw [hcmd]; decide⟩, hport, Nat.add_sub_cancel_left, Bool.not_eq_true', List.any_eq_false] at hturn
  exact hturn r hr (decide_eq_true ⟨hsrc, hprio⟩)

/-- A lookup whose turn has come. -/
theorem State.exec_lkup {s : State} {pk : Packet} {lp : Fin 4} (h : ReadyAt s cLKUP pk) (hdst : pk.dst = portId 256 (24 + lp)) :
    exec (.lkup pk) s = .next (((s.takeWhole pk).sdLookup pk.klen pk.addr pk.opnd).2.launch
      { cplOf pk with
        opnd := ((s.takeWhole pk).sdLookup pk.klen pk.addr pk.opnd).1.1, hit := ((s.takeWhole pk).sdLookup pk.klen pk.addr pk.opnd).1.2 }) := by
  have hserve := State.serve_of_readyAt h (hdst ▸ fmPort_hub (by omega) (by omega)) false []
  have hposted : ¬ posted pk.cmd = true := by rw [h.1]; decide
  rw [State.atTarget_hub _ (by omega) hdst, if_pos ⟨by omega, by omega⟩, State.lkTarget, if_pos h.1] at hserve
  exact congrArg Host.Outcome.next (hserve.trans (if_neg hposted))

theorem State.sdFind_of_offPorts {s a : State} (h : a.offPorts = s.offPorts) : a.sdFind = s.sdFind ∧ a.sdEnt = s.sdEnt ∧ a.sdMiss = s.sdMiss := by
  have hsd : a.sd = s.sd := (congrArg State.sd h :)
  have hent : a.sdEnt = s.sdEnt := by
    funext i
    rw [State.sdEnt, hsd, State.sdEnt]
  refine ⟨?_, hent, (congrArg State.sdMiss h :)⟩
  funext klen k1 k0
  rw [State.sdFind, hent, State.sdFind]

theorem State.memories_eq {s t : State} (ha : t.arrays = s.arrays) (hd : t.dm = s.dm) (hq : t.queues = s.queues) (hm : t.movers = s.movers) :
    t = { t with arrays := s.arrays, dm := s.dm, queues := s.queues, movers := s.movers } := by
  rw [← ha, ← hd, ← hq, ← hm]

theorem took_withRegs (s : State) (pk cpl : Packet) (rs : SMap HWord) : Took s (((s.takeWhole pk).launch cpl).withRegs rs) pk [cpl] := by
  rw [Took, List.foldl_cons, List.foldl_nil]
  generalize (s.takeWhole pk).launch cpl = a
  rfl

/-- A count in a register, and then an answer. -/
theorem took_launch_addSat {s t : State} {pk cpl : Packet} {off : Nat} {f : Fld} (ht : t = ((s.takeWhole pk).addSat off f 1).launch cpl) :
    Took s t pk [cpl] ∧ RegsBut s t [off] ∧ t = { t with arrays := s.arrays, dm := s.dm, queues := s.queues, movers := s.movers } ∧
      t.fld off f = ((s.takeWhole pk).addSat off f 1).fld off f := by
  have hreg : t.reg = ((s.takeWhole pk).addSat off f 1).reg := by rw [ht, State.reg_congr (State.regs_launch _ _)]
  have hoff : ((s.takeWhole pk).launch cpl).offPorts = s.offPorts := (State.offPorts_launch _ _).trans (s.offPorts_takeWhole pk)
  have hcount : (s.takeWhole pk).addSat off f 1 = (s.takeWhole pk).withRegs ((s.takeWhole pk).addSat off f 1).regs := rfl
  rw [hcount, State.launch_withRegs] at ht
  refine ⟨ht ▸ took_withRegs s pk cpl _, fun o ho => ?_, ?_, by rw [State.fld, hreg, State.fld]⟩
  · rw [hreg, State.reg_addSat_other _ _ _ (by simpa using ho), State.reg_of_offPorts (s.offPorts_takeWhole pk)]
  · rw [ht]
    exact State.memories_eq (congrArg State.arrays hoff :) (congrArg State.dm hoff :) (congrArg State.queues hoff :) (congrArg State.movers hoff :)

/-- A lookup that finds its key, and one that does not, count in a register each. -/
theorem lookup_answers {s : State} {pk : Packet} {lp : Fin 4} (h : ReadyAt s cLKUP pk) (hdst : pk.dst = portId 256 (24 + lp)) :
    (∀ i, s.sdFind pk.klen pk.addr pk.opnd = some i → ∃ t, exec (.lkup pk) s = .next t ∧
      Took s t pk [{ cplOf pk with opnd := (s.sdEnt i).act, hit := true }] ∧ RegsBut s t [R.SD_HITS] ∧
      t = { t with arrays := s.arrays, dm := s.dm, queues := s.queues, movers := s.movers } ∧
      t.fld R.SD_HITS F.SD_HITS.COUNT = min (s.fld R.SD_HITS F.SD_HITS.COUNT + 1) (2 ^ (F.SD_HITS.COUNT.hi + 1 - F.SD_HITS.COUNT.lo) - 1)) ∧
    (s.sdFind pk.klen pk.addr pk.opnd = none → ∃ t, exec (.lkup pk) s = .next t ∧
      Took s t pk [{ cplOf pk with opnd := s.sdMiss, hit := false }] ∧ RegsBut s t [R.SD_MISSES]) := by
  have hoff := s.offPorts_takeWhole pk
  obtain ⟨hfind, hent, hmiss⟩ := State.sdFind_of_offPorts hoff
  have hexec := State.exec_lkup h hdst
  refine ⟨fun i hi => ?_, fun hnone => ?_⟩
  · have hlook : (s.takeWhole pk).sdLookup pk.klen pk.addr pk.opnd =
        (((s.sdEnt i).act, true), (s.takeWhole pk).addSat R.SD_HITS F.SD_HITS.COUNT 1) := by
      rw [State.sdLookup, hfind, hi, hent]
    rw [hlook] at hexec
    obtain ⟨htook, hregs, hmem, hcount⟩ := took_launch_addSat (s := s) (pk := pk) rfl
    refine ⟨_, hexec, htook, hregs, hmem, hcount.trans ?_⟩
    rw [State.fld_addSat_same _ _ _ (by decide) (by decide), State.fld_of_offPorts hoff]
  · have hlook : (s.takeWhole pk).sdLookup pk.klen pk.addr pk.opnd =
        ((s.sdMiss, false), (s.takeWhole pk).addSat R.SD_MISSES F.SD_MISSES.COUNT 1) := by
      rw [State.sdLookup, hfind, hnone, hmiss]
    rw [hlook] at hexec
    obtain ⟨htook, hregs, -⟩ := took_launch_addSat (s := s) (pk := pk) rfl
    exact ⟨_, hexec, htook, hregs⟩

/-- A lookup port performs its oldest record. -/
theorem lookupRecord_answers {s : State} {lp : Fin 4} {r : LkRec} {rs : List LkRec} (h : SMap.get [] s.lkRecs lp.val = r :: rs) :
    ∃ s2, (s2 = { s with lkRecs := SMap.set [] s.lkRecs lp.val rs, regs := s2.regs } ∧ RegsBut s s2 [R.SD_HITS, R.SD_MISSES]) ∧
      exec (.lookupRecord lp) s = .next (s2.sendReq {
        src := portId 256 (24 + lp), cmd := cWRP, prio := r.prio, len := 1, addr := r.reply,
        data := [match s.sdFind r.klen r.k1 r.k0 with | some i => (s.sdEnt i).act | none => s.sdMiss] } .extern) := by
  let s1 : State := { s with lkRecs := SMap.set [] s.lkRecs lp.val rs }
  have hexec : exec (.lookupRecord lp) s = .next ((s1.sdLookup r.klen r.k1 r.k0).2.sendReq {
      src := lkPort lp, cmd := cWRP, prio := r.prio, len := 1, addr := r.reply, data := [(s1.sdLookup r.klen r.k1 r.k0).1.1] } .extern) := by
    dsimp only [exec, execLookupRecord]
    rw [h]
  have hfind : s1.sdFind = s.sdFind := rfl
  rw [State.sdLookup, hfind] at hexec
  cases hkey : s.sdFind r.klen r.k1 r.k0 with
  | some i =>
    rw [hkey] at hexec
    exact ⟨_, ⟨rfl, regsBut_setFld (s := s) (t := s1) (fun _ _ => rfl) (by decide) _ _⟩, hexec⟩
  | none =>
    rw [hkey] at hexec
    exact ⟨_, ⟨rfl, regsBut_setFld (s := s) (t := s1) (fun _ _ => rfl) (by decide) _ _⟩, hexec⟩

/-! ### Completions (R184, R186, R189) -/

section
variable {s s0 : State} {pk : Packet} (h : Arrived s pk s0)
include h

theorem State.takeCpl_of_arrived : s.takeCpl pk = some s0 := by
  obtain ⟨hhead, rfl⟩ | ⟨hhead, hself, rfl⟩ := h
  · exact if_pos hhead
  · exact (if_neg hhead).trans (if_pos hself)

theorem State.outst_of_arrived : s0.outst = s.outst := by
  obtain ⟨-, rfl⟩ | ⟨-, -, rfl⟩ := h
  · exact (congrArg State.outst (s.offPorts_popTin _ _) :)
  · rfl

theorem State.deliver_of_arrived : s.deliver pk.cmd pk = s0.complete pk := by
  rw [State.deliver, if_neg (not_not_intro rfl), State.takeCpl_of_arrived h]

/-- A completion that has come is delivered, by the row of its command. -/
theorem exec_completion : (pk.cmd = cCPL → exec (.cpl pk) s = .next (s0.complete pk)) ∧
    (pk.cmd = cCPLE → exec (.cple pk) s = .next (s0.complete pk)) :=
  ⟨fun hc => congrArg Host.Outcome.next (hc ▸ State.deliver_of_arrived h :), fun hc => congrArg Host.Outcome.next (hc ▸ State.deliver_of_arrived h :)⟩

/-- It ends the outstanding request of its port and tag. -/
theorem State.complete_of_outstanding {o : Outst} (ho : s.outst.find? (fun o => decide (o.port = pk.dst ∧ o.tag = pk.tag.val)) = some o) :
    s0.complete pk =
      State.settle { s0 with outst := s0.outst.erase o } o (if pk.cmd = cCPL then some pk.data else none) pk.ecode (anyFails pk) := by
  rw [State.complete, State.outst_of_arrived h, ho]

/-- Without such a request it is late. -/
theorem State.complete_of_late (ho : s.outst.find? (fun o => decide (o.port = pk.dst ∧ o.tag = pk.tag.val)) = none) :
    s0.complete pk = State.addSat { s0 with quar := s0.quar.filter fun x => !decide (x = (pk.dst, pk.tag.val)) } (trErr (routerOf pk.dst))
      (if routerOf pk.dst = 256 then F.HTR_ERR.LATE else F.TR_ERR.LATE) 1 := by
  rw [State.complete, State.outst_of_arrived h, ho]

end

/-- One that has not come changes nothing. -/
theorem exec_completion_absent {s : State} {pk : Packet} (hhead : s.headAt pk.dst (vcOf pk) ≠ some pk) (hself : pk ∉ s.selfCpl) :
    exec (.cpl pk) s = .next s ∧ exec (.cple pk) s = .next s := by
  have hnone : s.takeCpl pk = none := (if_neg hhead).trans (if_neg hself)
  have hdeliver (c : Fin 16) : s.deliver c pk = s := by
    rw [State.deliver, hnone]
    exact ite_self s
  exact ⟨congrArg Host.Outcome.next (hdeliver cCPL), congrArg Host.Outcome.next (hdeliver cCPLE)⟩

section
variable {s : State} {o : Outst} {ws : Option (List Word)} {e : Nat} {xpar : Bool}

theorem State.settle_engRead_answered {g n : Nat} {x : BitVec 20} {l : List Word} (h : o.why = .engRead g x n) :
    s.settle o (some l) e xpar = s.landDm g x (l.take n) := by
  unfold State.settle
  rw [h]

theorem State.settle_engRead_failed {g n : Nat} {x : BitVec 20} (h : o.why = .engRead g x n) :
    s.settle o none e xpar = s.engRaise g F.ENG_ERR.TERR := by
  unfold State.settle
  rw [h]

theorem State.settle_engWrite_answered {g : Nat} {l : List Word} (h : o.why = .engWrite g) : s.settle o (some l) e xpar = s := by
  unfold State.settle
  rw [h]
  exact if_neg (by simp)

theorem State.settle_engWrite_failed {g : Nat} (h : o.why = .engWrite g) : s.settle o none e xpar = s.engRaise g F.ENG_ERR.TERR := by
  unfold State.settle
  rw [h]
  exact if_pos rfl

theorem State.settle_mover {blk : Nat} (h : o.why = .mover blk) : s.settle o ws e xpar = s.moverDone blk o.tag ws xpar := by
  unfold State.settle
  rw [h]

theorem State.settle_extern (h : o.why = .extern) : s.settle o ws e xpar = s := by
  unfold State.settle
  rw [h]

end

/-- R189: a request without an answer ends as its engine's error, and its tag is quarantined. -/
theorem exec_requestTimeout {s : State} {port : Fin 16448} {tag : Fin 1024} {o : Outst} {g : Nat}
    (ho : s.outst.find? (fun o => decide (o.port = port.val ∧ o.tag = tag.val)) = some o) (hrq : s.fld (trCtl (routerOf port)) F.TR_CTL.RQTO ≠ 0)
    (hruns : s.routerRuns (routerOf port) = true) (hwhy : o.why = .engWrite g) :
    exec (.requestTimeout port tag) s = .next ((State.engRaise { s with outst := s.outst.erase o, quar := s.quar ++ [(port.val, tag.val)] } g
      F.ENG_ERR.TERR).addSat (trErr (routerOf port)) (if routerOf port = 256 then F.HTR_ERR.TOUT else F.TR_ERR.TOUT) 1) := by
  refine congrArg Host.Outcome.next ((if_neg (by simp [hrq, hruns])).trans ?_)
  rw [ho]
  dsimp only
  rw [State.settle_engWrite_failed hwhy]

/-- Settles O28: a message by what its ring has room for, a lookup by what it finds, and a completion by the request it answers. -/
theorem messagesAndCompletions : Obligations.MessagesAndCompletions := by
  refine ⟨fun s => ⟨fun pk i hready hi hdst hlo hhi => ?_, fun pk lp hready hdst => lookup_answers hready hdst,
    fun pk lp r => State.exec_lkup_waits, fun pk hcmd => ?_, fun lp r rs => lookupRecord_answers⟩, fun s pk => ?_⟩
  · refine ⟨message_dropped hready hi hdst ⟨hlo, hhi⟩, fun hen hroom => ?_⟩
    have hopen : ¬ s.ringShut i := fun h => h.elim (by simp [hen]) hroom
    obtain ⟨t, hexec, hframe, hregs, htail, hhost, hcore⟩ := message_taken hready hi hdst ⟨hlo, hhi⟩ hopen
    refine ⟨t, hexec, hframe, hregs, htail, hhost, fun h1 => ?_⟩
    obtain ⟨hmsixs, hout, hmem⟩ := hcore h1
    rw [hmem]
    exact ⟨hmsixs, hout, messageSlots (State.length_data_of_headAt hready.2.1) _ _ _⟩
  · rw [State.routeReq, State.routeFor, if_pos hcmd]
    rfl
  · intro r late tout mine
    refine ⟨fun o s0 hcome ho => ?_, fun s0 hcome ho => ?_, exec_completion_absent, fun port o g hport ho hrq hruns hwhy => ?_, fun _ _ => rfl⟩
    · intro s1
      obtain ⟨hcpl, hcple⟩ := exec_completion hcome
      have hend := State.complete_of_outstanding hcome ho
      have hgood (hc : pk.cmd = cCPL) : exec (.cpl pk) s = .next (s1.settle o (some pk.data) pk.ecode (anyFails pk)) := by
        rw [hcpl hc, hend, if_pos hc]
      have hfails (hc : pk.cmd = cCPLE) : exec (.cple pk) s = .next (s1.settle o none pk.ecode (anyFails pk)) := by
        rw [hcple hc, hend, if_neg (by rw [hc]; decide)]
      refine ⟨hgood, hfails, fun g x n hwhy hc => ?_, fun g hwhy hc => ?_, fun g hwhy hc => ?_, fun g x n hwhy hc => ?_, fun blk hwhy hc => ?_,
        fun blk hwhy hc => ?_, fun hwhy hc => ?_⟩
      · rw [hgood hc, State.settle_engRead_answered hwhy]
      · rw [hgood hc, State.settle_engWrite_answered hwhy]
      · rw [hfails hc, State.settle_engWrite_failed hwhy]
      · rw [hfails hc, State.settle_engRead_failed hwhy]
      · rw [hgood hc, State.settle_mover hwhy]
      · rw [hfails hc, State.settle_mover hwhy]
      · rw [hgood hc, State.settle_extern hwhy]
    · obtain ⟨hcpl, hcple⟩ := exec_completion hcome
      rw [State.complete_of_late hcome ho] at hcpl hcple
      exact ⟨hcpl, hcple⟩
    · rw [exec_requestTimeout ho (hport ▸ hrq) (hport ▸ hruns) hwhy, hport]

end Sys2Proof.Machine
end

section
/-!
PROOF. What a flit on its way through a router leaves alone (R190, R217): the state of MC0, and the packets that cross the router's other channels.
-/
namespace Sys2Proof.Machine
open Sys2Proof.Claims

/-- The parts of the state that no flit changes as it goes out or in: MC0, and which packet each input channel is passing on. -/
def State.beside (s : State) : CoreSt × SMap Worm := (s.core0, s.worms)

@[simp] theorem State.beside_ite (c : Prop) [Decidable c] (a b : State) : (if c then a else b).beside = if c then a.beside else b.beside :=
  apply_ite State.beside c a b

theorem State.beside_foldl {α : Type} (f : State → α → State) (l : List α) (s : State) (hf : ∀ a i, (f a i).beside = a.beside) :
    (l.foldl f s).beside = s.beside := by
  induction l generalizing s with
  | nil => rfl
  | cons i l ih => rw [List.foldl_cons, ih, hf]

/-- What changes only the ports leaves it alone. -/
theorem State.beside_of_offPorts {s t : State} (h : t.offPorts = s.offPorts) : t.beside = s.beside :=
  Prod.ext (congrArg State.core0 h :) (congrArg State.worms h :)

@[simp] theorem State.beside_regs (s : State) :
    (∀ off v, (s.setReg off v).beside = s.beside) ∧ (∀ off f n, (s.setFld off f n).beside = s.beside) ∧
    (∀ off f n, (s.addSat off f n).beside = s.beside) ∧ (∀ r pane hub n, (s.setTrErr r pane hub n).beside = s.beside) := by
  and_intros <;> intros <;> rfl

@[simp] theorem State.beside_set (s : State) :
    (∀ c x, (s.setDdr c x).beside = s.beside) ∧ (∀ sc bl k w, (s.setFmWord sc bl k w).beside = s.beside) ∧
    (∀ sc bl x, (s.setBlkErr sc bl x).beside = s.beside) ∧ (∀ e x v y, (s.setStage e x v y).beside = s.beside) ∧
    (∀ l v x, (s.setFmQueue l v x).beside = s.beside) ∧ (∀ e, (s.emit e).beside = s.beside) := by
  and_intros <;> intros <;> rfl

@[simp] theorem State.beside_ports (s : State) :
    (∀ l i n, (s.addLed l i n).beside = s.beside) ∧ (∀ l v x, (s.setTin l v x).beside = s.beside) ∧
    (∀ l v n, (s.sendFlits l v n).beside = s.beside) ∧ (∀ i v f, (s.enter i v f).beside = s.beside) ∧
    (∀ l v n, (s.creditBack l v n).beside = s.beside) ∧ (∀ l v, (s.popTin l v).beside = s.beside) ∧
    (∀ pk, (s.launch pk).beside = s.beside) := by
  and_intros <;> intros <;> exact State.beside_of_offPorts (by simp)

theorem State.beside_tracked (s : State) (ts : List Tracked) : ({ s with tracked := ts } : State).beside = s.beside := rfl

theorem State.beside_fmSeq (s : State) (es : List FmReq) : ({ s with fmSeq := es } : State).beside = s.beside := rfl

@[simp] theorem State.beside_track (s : State) (l v : Nat) (f : TFlit) : (s.track l v f).beside = s.beside := by
  simp [State.track, State.beside_tracked]

@[simp] theorem State.beside_sendLocal (s : State) (l v : Nat) (f : TFlit) : (s.sendLocal l v f).beside = s.beside := by
  simp [State.sendLocal, State.settleTin]

@[simp] theorem State.beside_answers (s : State) :
    (∀ pk cpl, (s.answer pk cpl).beside = s.beside) ∧ (∀ pk e, (s.answerErr pk e).beside = s.beside) ∧
    (∀ pk ws, (s.answerData pk ws).beside = s.beside) := by
  simp [State.answer, State.answerErr, State.answerData]

/-! ### The splitter's answers -/

@[simp] theorem State.beside_fmAnswer (s : State) (pk : Packet) (done : List FmPart) : (s.fmAnswer pk done).beside = s.beside := by
  dsimp only [State.fmAnswer]
  split <;> simp

@[simp] theorem State.beside_fmFinish (s : State) : s.fmFinish.beside = s.beside :=
  State.beside_foldl _ _ _ fun a e => a.beside_fmAnswer e.pk e.done

@[simp] theorem State.beside_fmEnd (s : State) (e : FmReq) (p : Piece) (r : FmPart) : (s.fmEnd e p r).beside = s.beside :=
  (State.beside_fmFinish _).trans (s.beside_fmSeq _)

/-! ### The frame memory -/

@[simp] theorem State.beside_free (s : State) : s.free.2.beside = s.beside := rfl

@[simp] theorem State.beside_injectBlk (s : State) (sc bl : Nat) : (s.injectBlk sc bl).beside = s.beside := by
  simp [State.injectBlk]

@[simp] theorem State.beside_bursts (s : State) :
    (∀ sc bl write, (s.burst sc bl write).beside = s.beside) ∧ (∀ sc bl, (s.wroteBlk sc bl).beside = s.beside) := by
  simp [State.burst, State.wroteBlk]

@[simp] theorem State.beside_putWords (s : State) (sc bl k : Nat) (ws : List Word) : (s.putWords sc bl k ws).beside = s.beside := by
  induction ws generalizing s k with
  | nil => rfl
  | cons w ws ih => exact ih _ _

@[simp] theorem State.beside_freeBlk (s : State) (n : Nat) : (s.freeBlk n).2.beside = s.beside := by
  induction n generalizing s with
  | zero => rfl
  | succ n ih => exact ih _

@[simp] theorem State.beside_blockErrors (s : State) :
    (∀ sc bl, (s.noteUe sc bl).beside = s.beside) ∧ (∀ sc bl dev, (s.noteCe sc bl dev).beside = s.beside) := by
  simp [State.noteUe, State.noteCe]

@[simp] theorem State.beside_readWild (s : State) (sc bl : Nat) : (s.readWild sc bl).2.beside = s.beside := by
  dsimp only [State.readWild]
  split
  · simp
  · split <;> simp

@[simp] theorem State.beside_checkBlk (s : State) (sc bl : Nat) : (s.checkBlk sc bl).2.beside = s.beside := by
  dsimp only [State.checkBlk, State.readBlk]
  split
  · simp
  · split <;> simp

@[simp] theorem State.beside_readPiece (s : State) (p : Piece) : (s.readPiece p).2.beside = s.beside := by
  dsimp only [State.readPiece]
  split <;> simp

@[simp] theorem State.beside_writePiece (s : State) (p : Piece) (pk : Packet) : (s.writePiece p pk).2.beside = s.beside := by
  dsimp only [State.writePiece]
  repeat' split
  all_goals simp

@[simp] theorem State.beside_atomicPiece (s : State) (p : Piece) (pk : Packet) : (s.atomicPiece p pk).2.beside = s.beside := by
  dsimp only [State.atomicPiece]
  repeat' split
  all_goals simp

@[simp] theorem State.beside_doPiece (s : State) (p : Piece) (pk : Packet) : (s.doPiece p pk).2.beside = s.beside := by
  dsimp only [State.doPiece]
  repeat' split
  all_goals simp

/-! ### The requests in the splitter -/

@[simp] theorem State.beside_fmTake (s : State) (pk : Packet) : (s.fmTake pk).beside = s.beside :=
  (State.beside_tracked _ _).trans (by simp)

@[simp] theorem State.beside_fmPerform (s : State) (pk : Packet) : (s.fmPerform pk).beside = s.beside := by
  dsimp only [State.fmPerform]
  split <;> simp

@[simp] theorem State.beside_fmRefuseAt (s : State) (l v n : Nat) : (s.fmRefuseAt l v n).beside = s.beside := by
  induction n generalizing s with
  | zero => rfl
  | succ n ih =>
    unfold State.fmRefuseAt
    split
    · exact (ih _).trans (State.beside_fmPerform _ _)
    · rfl

@[simp] theorem State.beside_fmRefuse (s : State) (c : Nat) : (s.fmRefuse c).beside = s.beside := by
  simp [State.fmRefuse, State.beside_foldl]

@[simp] theorem State.beside_spoil (s : State) (l : Nat) (f : TFlit) : (s.spoil l f).2.beside = s.beside := by
  dsimp only [State.spoil]
  split <;> rfl

@[simp] theorem State.beside_fmArrive (s : State) (pk : Packet) : (s.fmArrive pk).beside = s.beside := by
  dsimp only [State.fmArrive]
  split <;> simp [State.beside_fmSeq]

@[simp] theorem State.beside_fmPumpOne (s : State) (l v : Nat) : (s.fmPumpOne l v).beside = s.beside := by
  dsimp only [State.fmPumpOne]
  split <;> simp

@[simp] theorem State.beside_fmPump (s : State) (l v : Nat) : (s.fmPump l v).beside = s.beside :=
  State.beside_foldl _ _ _ fun a _ => a.beside_fmPumpOne l v

@[simp] theorem State.beside_fmSend (s : State) (pk : Packet) (p : Piece) : (s.fmSend pk p).beside = s.beside := by
  dsimp only [State.fmSend, State.absorbPiece]
  repeat' split
  all_goals simp

@[simp] theorem State.beside_fmSplit (s : State) (v : Nat) : (s.fmSplit v).beside = s.beside := by
  dsimp only [State.fmSplit]
  split
  · rfl
  · split
    · simp
    · exact (State.beside_foldl _ _ _ fun a p => a.beside_fmSend _ p).trans ((State.beside_fmSeq _ _).trans (by simp))

/-! ### A flit at its output -/

@[simp] theorem State.beside_sendFlit (s : State) (l v : Nat) (f : TFlit) : (s.sendFlit l v f).beside = s.beside := by
  dsimp only [State.sendFlit, State.sendOut]
  repeat' split
  all_goals simp

@[simp] theorem State.beside_absorb (s : State) (l : Nat) (f : TFlit) : (s.absorb l f).beside = s.beside := by
  have hown : ∀ (a : State) dst prio tag e, (a.ownCple l dst prio tag e).beside = a.beside := fun _ _ _ _ _ => rfl
  simp [State.absorb, hown]

end Sys2Proof.Machine
end

section
/-!
PROOF. A router's cycle (R190, R192): what a flit that goes leaves alone, and the packet of one flit that nothing contends with.
-/
namespace Sys2Proof.Machine
open Sys2Proof.Claims

/-! ### A flit leaves its input -/

/-- The state without what changes at an input when a flit leaves it: the ports, the units of the companion link, the hinge stages. -/
def State.offInputs (s : State) : State := { s.offPorts with owns := [], uclOwed := [], out := [], stages := [] }

@[simp] theorem State.offInputs_ite (c : Prop) [Decidable c] (a b : State) :
    (if c then a else b).offInputs = if c then a.offInputs else b.offInputs := apply_ite State.offInputs c a b

theorem State.offInputs_foldl {α : Type} (f : State → α → State) (l : List α) (s : State) (hf : ∀ a i, (f a i).offInputs = a.offInputs) :
    (l.foldl f s).offInputs = s.offInputs := by
  induction l generalizing s with
  | nil => rfl
  | cons i l ih => rw [List.foldl_cons, ih, hf]

theorem State.offInputs_of_offPorts {s t : State} (h : t.offPorts = s.offPorts) : t.offInputs = s.offInputs :=
  congrArg (fun a : State => { a with owns := [], uclOwed := [], out := [], stages := [] }) h

@[simp] theorem State.offInputs_ports (s : State) :
    (∀ i v x, (s.setInq i v x).offInputs = s.offInputs) ∧ (∀ l v n, (s.freeFlits l v n).offInputs = s.offInputs) ∧
    (∀ l v n, (s.creditBack l v n).offInputs = s.offInputs) ∧ (∀ i v f, (s.enter i v f).offInputs = s.offInputs) ∧
    (∀ i v, (s.fill i v).offInputs = s.offInputs) := by
  and_intros <;> intros <;> exact State.offInputs_of_offPorts (by simp)

@[simp] theorem State.offInputs_set (s : State) :
    (∀ e x v y, (s.setStage e x v y).offInputs = s.offInputs) ∧ (∀ e, (s.emit e).offInputs = s.offInputs) := by
  and_intros <;> intros <;> rfl

theorem State.offInputs_uclOwed (s : State) (m : SMap Nat) : ({ s with uclOwed := m } : State).offInputs = s.offInputs := rfl

@[simp] theorem State.offInputs_fillStageOne (s : State) (e x v : Nat) : (s.fillStageOne e x v).offInputs = s.offInputs := by
  dsimp only [State.fillStageOne]
  split <;> simp

@[simp] theorem State.offInputs_fillStage (s : State) (e x v : Nat) : (s.fillStage e x v).offInputs = s.offInputs :=
  State.offInputs_foldl _ _ _ fun a _ => a.offInputs_fillStageOne e x v

@[simp] theorem State.offInputs_uclCredits (s : State) (v : Nat) : (s.uclCredits v).offInputs = s.offInputs := by
  simp [State.uclCredits, State.offInputs_uclOwed]

/-- A flit that leaves an input changes nothing else. -/
@[simp] theorem State.offInputs_leave (s : State) (i v : Nat) : (s.leave i v).offInputs = s.offInputs := by
  unfold State.leave
  split
  · split <;> rfl
  · split
    · exact (State.offInputs_uclCredits _ _).trans ((State.offInputs_uclOwed _ _).trans (by simp))
    · split
      · simp
      · split <;> simp

@[simp] theorem State.beside_leave (s : State) (i v : Nat) : (s.leave i v).beside = s.beside :=
  Prod.ext (congrArg State.core0 (s.offInputs_leave i v) :) (congrArg State.worms (s.offInputs_leave i v) :)

/-- Whether a port is boarded up stands in two registers or in the stage's mark. -/
theorem State.boarded_congr {s t : State} (hregs : t.regs = s.regs) (hstage : t.stageBrd = s.stageBrd) (l : Nat) : t.boarded l = s.boarded l := by
  simp only [State.boarded, State.reg, hregs, hstage]

@[simp] theorem State.boarded_leave (s : State) (i v l : Nat) : (s.leave i v).boarded l = s.boarded l :=
  State.boarded_congr (congrArg State.regs (s.offInputs_leave i v) :) (congrArg State.stageBrd (s.offInputs_leave i v) :) l

/-! ### MC0 beside a router's cycles -/

@[simp] theorem State.core0_leave (s : State) (i v : Nat) : (s.leave i v).core0 = s.core0 := congrArg Prod.fst (s.beside_leave i v)

@[simp] theorem State.core0_sendFlit (s : State) (l v : Nat) (f : TFlit) : (s.sendFlit l v f).core0 = s.core0 :=
  congrArg Prod.fst (s.beside_sendFlit l v f)

@[simp] theorem State.core0_spoil (s : State) (l : Nat) (f : TFlit) : (s.spoil l f).2.core0 = s.core0 := congrArg Prod.fst (s.beside_spoil l f)

@[simp] theorem State.core0_absorb (s : State) (l : Nat) (f : TFlit) : (s.absorb l f).core0 = s.core0 := congrArg Prod.fst (s.beside_absorb l f)

@[simp] theorem State.core0_setTrErr (s : State) (r : Nat) (pane hub : Fld) (n : Nat) : (s.setTrErr r pane hub n).core0 = s.core0 := rfl

@[simp] theorem State.core0_setWorm (s : State) (i v : Nat) (w : Worm) : (s.setWorm i v w).core0 = s.core0 := rfl

@[simp] theorem State.core0_noteDrop (s : State) (r i : Nat) (pk : Packet) (d : Fate) : (s.noteDrop r i pk d).core0 = s.core0 := by
  cases d <;> simp [State.noteDrop, State.ownCple, apply_ite State.core0]

@[simp] theorem State.core0_moveFlit (s : State) (r i v : Nat) (f : TFlit) : (s.moveFlit r i v f).core0 = s.core0 := by
  dsimp only [State.moveFlit]
  split <;> simp [apply_ite State.core0]

@[simp] theorem State.core0_outCycle (s : State) (r l : Nat) (cs : List (Nat × Nat)) (c : Nat × Nat) :
    (s.outCycle r l cs c).core0 = s.core0 := by
  dsimp only [State.outCycle]
  split
  · rfl
  · exact State.core0_moveFlit _ _ _ _ _

/-- A router's cycles do not touch MC0. -/
theorem State.core0_forwardRun (s : State) (r i v n : Nat) : (s.forwardRun r i v n).core0 = s.core0 := by
  induction n generalizing s with
  | zero => rfl
  | succ n ih =>
    dsimp only [State.forwardRun]
    repeat' split
    all_goals simp [ih]

/-! ### The command -/

/-- A forward after which MC0 still holds a word of its locked sequence, if it did, does not let its halt come. -/
theorem exec_packetForward {s t : State} {i : Fin 16448} {pk : Packet} (h : s.forward i pk = t)
    (hlocks : s.core0.locks ≠ [] → t.core0.locks ≠ []) : exec (.packetForward i pk) s = .next t := by
  subst h
  exact congrArg Host.Outcome.next (if_neg fun hl => hlocks hl.1 hl.2)

theorem exec_packetForward_of_core0 {s t : State} {i : Fin 16448} {pk : Packet} (h : s.forward i pk = t) (hcore : t.core0 = s.core0) :
    exec (.packetForward i pk) s = .next t :=
  exec_packetForward h (by rw [hcore]; exact id)

section
variable {s : State} {i : Fin 16448} {pk : Packet} (hruns : s.routerRuns (routerOf i) = true)
include hruns

theorem State.forward_of_wayOf {j : Nat} (hway : s.wayOf i pk = some j) :
    s.forward i pk = s.forwardRun (routerOf i) j (vcOf pk) 17408 := by
  simp [State.forward, hruns, hway]

theorem State.forward_of_no_way (hway : s.wayOf i pk = none) : s.forward i pk = s.coreIssue i pk := by
  simp [State.forward, hruns, hway]

end

theorem exec_packetForward_of_wayOf {s : State} {i : Fin 16448} {pk : Packet} {j : Nat} (hruns : s.routerRuns (routerOf i) = true)
    (hway : s.wayOf i pk = some j) : exec (.packetForward i pk) s = .next (s.forwardRun (routerOf i) j (vcOf pk) 17408) :=
  exec_packetForward_of_core0 (State.forward_of_wayOf hruns hway) (s.core0_forwardRun _ _ _ _)

theorem exec_packetForward_of_stopped {s : State} {i : Fin 16448} {pk : Packet} (h : s.routerRuns (routerOf i) = false) :
    exec (.packetForward i pk) s = .next s :=
  exec_packetForward_of_core0 (by simp [State.forward, h]) rfl

/-! ### One cycle -/

/-- The only input whose flit is ready at an output wins it. -/
theorem State.winner_of_alone (s : State) (l : Nat) (c : Nat × Nat) : s.winner l [c] = some c := by
  dsimp only [State.winner]
  have hpool : (if ([c].filter fun c => decide (512 ≤ s.losses c)) = [] then [c] else [c].filter fun c => decide (512 ≤ s.losses c)) = [c] := by
    by_cases h : 512 ≤ s.losses c <;> simp [h]
  rw [hpool]
  by_cases h : SMap.get 0 s.turns l ≤ c.1 <;> simp [h]

theorem State.worm_setWorm_same (s : State) (i v : Nat) (w : Worm) : (s.setWorm i v w).worm i v = w := SMap.get_set_same _ _ _ _

/-- Which packet an input passes on is read from the states of the inputs alone. -/
theorem State.worm_congr {s t : State} (h : t.beside = s.beside) (i v : Nat) : t.worm i v = s.worm i v :=
  congrArg (fun x : CoreSt × SMap Worm => SMap.get ({} : Worm) x.2 (vcKey i v)) h

section
variable {s : State} {r j v l n : Nat} {f : TFlit}

/-- A flit that is not ready stays where it is. -/
theorem State.forwardRun_of_not_ready (hfront : s.front j v = some f) (hfate : s.fate r j v f = .send l)
    (hready : s.ready r j l v f = false) : s.forwardRun r j v n = s := by
  cases n with
  | zero => rfl
  | succ n => simp [State.forwardRun, hfront, hfate, hready]

/-- Where the input's own flit is the only one ready and ends its packet, its going ends the run. -/
theorem State.forwardRun_of_alone {t : State} (hfront : s.front j v = some f) (hfate : s.fate r j v f = .send l)
    (hready : s.ready r j l v f = true) (halone : s.contenders r l = [(j, v)]) (hgoes : s.outCycle r l [(j, v)] (j, v) = t)
    (hends : (t.worm j v).left = 0) : s.forwardRun r j v (n + 1) = t := by
  simp [State.forwardRun, hfront, hfate, hready, halone, State.winner_of_alone, hgoes, hends]

/-- Likewise one that its fate lets nowhere out. -/
theorem State.forwardRun_of_parity {t : State} (hfront : s.front j v = some f) (hfate : s.fate r j v f = .parity)
    (hgoes : s.moveFlit r j v f = t) (hends : (t.worm j v).left = 0) : s.forwardRun r j v (n + 1) = t := by
  simp [State.forwardRun, hfront, hfate, hgoes, hends]

/-- Alone at its output, a flit loses to none and leaves the turn to the next input. -/
theorem State.outCycle_of_alone (hfront : s.front j v = some f) : s.outCycle r l [(j, v)] (j, v) =
    ({ s with lost := SMap.set 0 s.lost (vcKey j v) 0, turns := SMap.set 0 s.turns l (j + 1) } : State).moveFlit r j v f := by
  simp [State.outCycle, hfront]

/-- The head of a packet of one flit goes as its output decides. -/
theorem State.moveFlit_of_send (hhead : f.head = true) (hone : flitsOf (headerOf f.w) = 1) (hfate : s.fate r j v f = .send l)
    (hgood : f.fails = false) : s.moveFlit r j v f =
      (let s2 := (s.setWorm j v ⟨headerOf f.w, some l, 0⟩).leave j v
       if s.boarded l then s2.absorb l f else s2.sendFlit l v f) := by
  have hb : ∀ w, ((s.setWorm j v w).leave j v).boarded l = s.boarded l := fun w => State.boarded_leave _ _ _ _
  simp [State.moveFlit, hhead, hone, hfate, hgood, hb, State.spoil]

theorem State.moveFlit_of_parity (hhead : f.head = true) (hone : flitsOf (headerOf f.w) = 1) (hfate : s.fate r j v f = .parity) :
    s.moveFlit r j v f = ((s.setWorm j v ⟨headerOf f.w, none, 0⟩).leave j v).setFld (trErr r)
      (if r = 256 then F.HTR_ERR.HPAR else F.TR_ERR.HPAR) 1 := by
  simp [State.moveFlit, hhead, hone, hfate, State.noteDrop, State.setTrErr]

end

/-! ### The packet of one flit -/

section
variable {s : State} {r j v l n : Nat} {f : TFlit} (hfront : s.front j v = some f) (hhead : f.head = true)
  (hone : flitsOf (headerOf f.w) = 1)
include hfront hhead hone

/-- A packet of one flit that nothing contends with goes in one run (log entry 112). -/
theorem State.forwardRun_single (hfate : s.fate r j v f = .send l) (hready : s.ready r j l v f = true)
    (halone : s.contenders r l = [(j, v)]) (hgood : f.fails = false) :
    s.forwardRun r j v (n + 1) =
      (let s1 := { s with lost := SMap.set 0 s.lost (vcKey j v) 0, turns := SMap.set 0 s.turns l (j + 1) }
       let s2 := (s1.setWorm j v ⟨headerOf f.w, some l, 0⟩).leave j v
       if s.boarded l then s2.absorb l f else s2.sendFlit l v f) := by
  refine State.forwardRun_of_alone hfront hfate hready halone
    ((State.outCycle_of_alone hfront).trans (State.moveFlit_of_send hhead hone hfate hgood)) ?_
  dsimp only
  split
  · rw [State.worm_congr (State.beside_absorb _ _ _), State.worm_congr (State.beside_leave _ _ _), State.worm_setWorm_same]
  · rw [State.worm_congr (State.beside_sendFlit _ _ _ _), State.worm_congr (State.beside_leave _ _ _), State.worm_setWorm_same]

/-- A header whose parity fails is discarded. -/
theorem State.forwardRun_bad_header (hfate : s.fate r j v f = .parity) :
    s.forwardRun r j v (n + 1) = ((s.setWorm j v ⟨headerOf f.w, none, 0⟩).leave j v).setFld (trErr r)
      (if r = 256 then F.HTR_ERR.HPAR else F.TR_ERR.HPAR) 1 := by
  refine State.forwardRun_of_parity hfront hfate (State.moveFlit_of_parity hhead hone hfate) ?_
  rw [State.worm_congr (s := (s.setWorm j v ⟨headerOf f.w, none, 0⟩)) (by simp), State.worm_setWorm_same]

end

/-! ### A core's request at its hub port -/

theorem State.core0_sendReq (s : State) (pk : Packet) (why : Purpose) : (s.sendReq pk why).core0 = s.core0 := by
  have hroute : ∀ a : State, (a.routeReq pk).core0 = a.core0 := fun a => by
    dsimp only [State.routeReq]
    split
    · exact (congrArg State.core0 (State.offPorts_launch a _) :)
    · split <;> rfl
  refine (hroute _).trans ?_
  unfold State.holdTag
  split <;> rfl

section
variable {s : State} {i : Fin 16448} {c : Fin 3} {pk : Packet}

/-- The three hub ports of the cores (R183) name what the tag is held for. -/
theorem corePort_purpose (hi : i.val = portId 256 (29 + c)) :
    (if i.val = portId 256 31 then Purpose.extern else .core (portOf i - 29)) = if c = 2 then Purpose.extern else .core c := by
  rw [hi]
  fin_cases c <;> rfl

theorem corePort_mc0_iff (hi : i.val = portId 256 (29 + c)) : i.val = portId 256 29 ↔ c = 0 := by
  rw [hi]
  fin_cases c <;> decide

/-- A request that its hub port can send is issued; a WRUL of MC0 ends the locked sequence at its word (R408). -/
theorem State.coreIssue_of_shapeOk (hi : i.val = portId 256 (29 + c)) (hsrc : pk.src = i) (hcmd : pk.cmd.val < 9) (hpar : pk.par = [])
    (htag : c = 1 → pk.tag.val < 896) (hfree : ∀ o ∈ s.outst, ¬ (o.port = i ∧ o.tag = pk.tag.val)) (hquar : (i.val, pk.tag.val) ∉ s.quar)
    (hshape : shapeOk pk = true) : s.coreIssue i pk =
      (let sent := s.sendReq pk (if c = 2 then .extern else .core c)
       if c = 0 ∧ pk.cmd = cWRUL then
         { sent with core0 := { sent.core0 with locks := sent.core0.locks.filter fun a => !decide (a = pk.addr.toNat) } }
       else sent) := by
  have hrange : portId 256 29 ≤ i.val ∧ i.val ≤ portId 256 31 := by
    simp only [hi, portId]
    omega
  have hmc1 : i.val ≠ portId 256 30 ∨ pk.tag.val < 896 := by
    simp only [hi, portId]
    by_cases hc : c = 1
    · exact .inr (htag hc)
    · exact .inl (by omega)
  have hnone : s.outst.any (fun o => decide (o.port = i ∧ o.tag = pk.tag.val)) = false := by
    simpa using hfree
  have hallowed : ¬ posted pk.cmd = true → ¬ s.outst.any (fun o => decide (o.port = i ∧ o.tag = pk.tag.val)) = true ∧
      ¬ s.quar.contains (i.val, pk.tag.val) = true := fun _ => ⟨ne_true_of_eq_false hnone, by simpa using hquar⟩
  unfold State.coreIssue
  rw [if_pos ⟨hrange.1, hrange.2, hsrc, hcmd, hpar, hshape, hmc1, Classical.or_iff_not_imp_left.mpr hallowed⟩]
  simp only [corePort_purpose hi, corePort_mc0_iff hi]

theorem State.coreIssue_of_not_shapeOk (hshape : shapeOk pk = false) : s.coreIssue i pk = s := by
  simp [State.coreIssue, hshape]

end

end Sys2Proof.Machine
end

section
/-!
PROOF. Arbitration at an output (R190, R191): which of the flits ready there goes, and which flits are not ready (R192).
-/
namespace Sys2Proof.Machine
open Sys2Proof.Claims

/-! ### Which flit wins -/

/-- The contenders among which an output chooses: those that have lost 512 arbitrations, or all where none has. -/
def State.pool (s : State) (cs : List (Nat × Nat)) : List (Nat × Nat) :=
  let old := cs.filter fun c => decide (512 ≤ s.losses c)
  if old = [] then cs else old

theorem State.mem_pool {s : State} {cs : List (Nat × Nat)} {x : Nat × Nat} :
    x ∈ s.pool cs ↔ x ∈ cs ∧ (512 ≤ s.losses x ∨ ∀ y ∈ cs, ¬ 512 ≤ s.losses y) := by
  unfold State.pool
  by_cases h : (cs.filter fun c => decide (512 ≤ s.losses c)) = []
  · have hnone : ∀ y ∈ cs, ¬ 512 ≤ s.losses y := by simpa [List.filter_eq_nil_iff] using h
    simp only [h, if_true]
    exact ⟨fun hx => ⟨hx, .inr hnone⟩, And.left⟩
  · obtain ⟨y, hy⟩ := List.exists_mem_of_ne_nil _ h
    have hy' : y ∈ cs ∧ 512 ≤ s.losses y := by simpa using hy
    simp only [h, if_false, List.mem_filter, decide_eq_true_eq]
    exact ⟨fun hx => ⟨hx.1, .inl hx.2⟩, fun hx => ⟨hx.1, hx.2.resolve_right fun hno => hno y hy'.1 hy'.2⟩⟩

/-- The highest rank in a list of contenders. -/
def bestRank (cs : List (Nat × Nat)) : Nat := (cs.map fun c => vcRank c.2).foldl max 0

theorem le_foldl_max {l : List Nat} {a n : Nat} (h : n = a ∨ n ∈ l) : n ≤ l.foldl max a := by
  induction l generalizing a n with
  | nil =>
    obtain rfl : n = a := by simpa using h
    exact Nat.le_refl _
  | cons b l ih =>
    have hor : n ≤ max a b ∨ n ∈ l := by
      rcases h with rfl | h
      · exact .inl (Nat.le_max_left _ _)
      · exact (List.mem_cons.mp h).imp (fun e => e.le.trans (Nat.le_max_right _ _)) id
    rcases hor with hle | hmem
    · exact hle.trans (ih (.inl rfl))
    · exact ih (.inr hmem)

theorem vcRank_le_bestRank {cs : List (Nat × Nat)} {x : Nat × Nat} (h : x ∈ cs) : vcRank x.2 ≤ bestRank cs :=
  le_foldl_max (.inr (List.mem_map.mpr ⟨x, h, rfl⟩))

/-- The contenders among equals: of the pool, those of its highest rank. -/
def State.ties (s : State) (cs : List (Nat × Nat)) : List (Nat × Nat) :=
  (s.pool cs).filter fun c => decide (vcRank c.2 = bestRank (s.pool cs))

theorem State.mem_ties {s : State} {cs : List (Nat × Nat)} {x : Nat × Nat} :
    x ∈ s.ties cs ↔ x ∈ s.pool cs ∧ vcRank x.2 = bestRank (s.pool cs) := by
  simp [State.ties]

/-- The winner: of the equals the first from the turn on, or the first of all. -/
theorem State.winner_eq (s : State) (l : Nat) (cs : List (Nat × Nat)) : s.winner l cs =
    ((s.ties cs).find? fun c => decide (SMap.get 0 s.turns l ≤ c.1)).or (s.ties cs).head? := by
  change (match (s.ties cs).find? fun c => decide (SMap.get 0 s.turns l ≤ c.1) with | some c => some c | none => (s.ties cs).head?) = _
  cases (s.ties cs).find? fun c => decide (SMap.get 0 s.turns l ≤ c.1) <;> rfl

/-! ### The turn -/

/-- The inputs of a router, in the order of their numbers, all below 2^17. -/
theorem pairwise_inputsOf {r : Nat} (h : r ≤ 256) : (inputsOf r).Pairwise (· ≤ ·) := by
  refine List.pairwise_append.mpr ⟨?_, List.pairwise_singleton _ _, ?_⟩
  · refine List.pairwise_map.mpr (List.pairwise_lt_range.imp fun hlt => ?_)
    simp only [portId]
    omega
  · intro i hi j hj
    obtain ⟨x, hx, rfl⟩ := List.mem_map.mp hi
    have hx33 : x < 33 := (List.mem_range.mp hx).trans_le (by split <;> omega)
    simp only [List.mem_singleton.mp hj, portId, ownInput]
    omega

theorem lt_of_mem_inputsOf {r i : Nat} (h : r ≤ 256) (hi : i ∈ inputsOf r) : i < 131072 := by
  rcases List.mem_append.mp hi with hi | hi
  · obtain ⟨x, hx, rfl⟩ := List.mem_map.mp hi
    have hx33 : x < 33 := (List.mem_range.mp hx).trans_le (by split <;> omega)
    simp only [portId]
    omega
  · simp only [List.mem_singleton.mp hi, ownInput]
    omega

/-- The contenders that stand at one input. -/
def State.contendersAt (s : State) (r l i : Nat) : List (Nat × Nat) :=
  (List.range 8).filterMap fun v =>
    match s.front i v with
    | none => none
    | some f => if s.fate r i v f = .send l ∧ s.ready r i l v f then some (i, v) else none

theorem State.contenders_eq (s : State) (r l : Nat) : s.contenders r l = (inputsOf r).flatMap (s.contendersAt r l) := rfl

theorem State.fst_of_mem_contendersAt {s : State} {r l i : Nat} {c : Nat × Nat} (h : c ∈ s.contendersAt r l i) : c.1 = i := by
  obtain ⟨v, -, hv⟩ := List.mem_filterMap.mp h
  split at hv
  · cases hv
  · split at hv
    · cases hv
      rfl
    · cases hv

section
variable {s : State} {r l : Nat} (hr : r ≤ 256)
include hr

theorem State.pairwise_contenders : (s.contenders r l).Pairwise fun x y => x.1 ≤ y.1 := by
  rw [State.contenders_eq, List.pairwise_flatMap]
  refine ⟨fun i _ => List.pairwise_of_forall_mem_list fun x hx y hy => ?_, (pairwise_inputsOf hr).imp fun hle x hx y hy => ?_⟩
  · rw [State.fst_of_mem_contendersAt hx, State.fst_of_mem_contendersAt hy]
  · rwa [State.fst_of_mem_contendersAt hx, State.fst_of_mem_contendersAt hy]

theorem State.fst_lt_of_mem_contenders {c : Nat × Nat} (h : c ∈ s.contenders r l) : c.1 < 131072 := by
  obtain ⟨i, hi, hc⟩ := List.mem_flatMap.mp h
  rw [State.fst_of_mem_contendersAt hc]
  exact lt_of_mem_inputsOf hr hi

end

theorem State.pairwise_ties {s : State} {cs : List (Nat × Nat)} (h : cs.Pairwise fun x y => x.1 ≤ y.1) :
    (s.ties cs).Pairwise fun x y => x.1 ≤ y.1 := by
  refine List.Pairwise.filter _ ?_
  unfold State.pool
  dsimp only
  split
  · exact h
  · exact h.filter _

/-- Among inputs in order, the first from `k` on comes first after `k - 1` in the cyclic order. -/
theorem turn_le_of_first {cs : List (Nat × Nat)} {k : Nat} {c x : Nat × Nat} (hsorted : cs.Pairwise fun x y => x.1 ≤ y.1)
    (hk : k ≤ 131072) (hlt : ∀ y ∈ cs, y.1 < 131072) (hc : ((cs.find? fun c => decide (k ≤ c.1)).or cs.head?) = some c) (hx : x ∈ cs) :
    (c.1 + 131072 - k) % 131072 ≤ (x.1 + 131072 - k) % 131072 := by
  have hxlt := hlt x hx
  cases hfind : cs.find? fun c => decide (k ≤ c.1) with
  | some d =>
    obtain rfl : d = c := by simpa [hfind] using hc
    have hle : k ≤ d.1 := by simpa using List.find?_some hfind
    have hdlt := hlt d (List.mem_of_find?_eq_some hfind)
    by_cases hkx : k ≤ x.1
    · have hdx : d.1 ≤ x.1 := by
        obtain ⟨-, as, bs, rfl, hbefore⟩ := List.find?_eq_some_iff_append.mp hfind
        have hnot : x ∉ as := fun hmem => by simpa [hkx] using hbefore x hmem
        rcases List.mem_cons.mp ((List.mem_append.mp hx).resolve_left hnot) with rfl | hafter
        · exact Nat.le_refl _
        · exact (List.pairwise_cons.mp (List.pairwise_append.mp hsorted).2.1).1 x hafter
      omega
    · omega
  | none =>
    have hbelow : ∀ y ∈ cs, y.1 < k := by simpa using hfind
    have hcx : c.1 ≤ x.1 := by
      cases cs with
      | nil => cases hx
      | cons d ds =>
        obtain rfl : d = c := by simpa [hfind] using hc
        rcases List.mem_cons.mp hx with rfl | hmem
        · exact Nat.le_refl _
        · exact (List.pairwise_cons.mp hsorted).1 x hmem
    have := hbelow x hx
    omega

/-- R190, R191: the flit that wins an output. -/
theorem State.winner_fair {s : State} {r l : Nat} {c : Nat × Nat} (hturn : SMap.get 0 s.turns l ≤ 131072)
    (hwins : s.winner l (s.contenders r l) = some c) :
    c ∈ s.pool (s.contenders r l) ∧ (∀ x ∈ s.pool (s.contenders r l), vcRank x.2 ≤ vcRank c.2) ∧
    (r ≤ 256 → ∀ x ∈ s.pool (s.contenders r l), vcRank x.2 = vcRank c.2 →
      (c.1 + 131072 - SMap.get 0 s.turns l) % 131072 ≤ (x.1 + 131072 - SMap.get 0 s.turns l) % 131072) := by
  rw [State.winner_eq] at hwins
  have hc : c ∈ s.ties (s.contenders r l) := by
    rcases Option.or_eq_some_iff.mp hwins with h | ⟨-, h⟩
    · exact List.mem_of_find?_eq_some h
    · exact List.mem_of_head? h
  obtain ⟨hpool, hbest⟩ := State.mem_ties.mp hc
  refine ⟨hpool, fun x hx => hbest ▸ vcRank_le_bestRank hx, fun hr x hx hrank => ?_⟩
  refine turn_le_of_first (State.pairwise_ties (State.pairwise_contenders hr)) hturn (fun y hy => ?_) hwins
    (State.mem_ties.mpr ⟨hx, hrank.trans hbest⟩)
  exact State.fst_lt_of_mem_contenders hr (State.mem_pool.mp (State.mem_ties.mp hy).1).1

/-! ### Which flits are not ready -/

section
variable {s : State} {r i l v : Nat} {f : TFlit} (hopen : s.boarded l = false)

theorem State.ready_memLink_of_queued {c : Nat} (hc : c < 8) (h : (s.fmQueue (fmPortOf c) v).pks ≠ []) : s.ready r i memLink v f = false := by
  have hbusy : s.fmIdle v = false := List.all_eq_false.mpr ⟨c, List.mem_range.mpr hc, by simpa using h⟩
  simp [State.ready, hbusy]

include hopen

theorem State.ready_of_no_credit (hl : l ≠ memLink) (h : s.avail l v = 0) : s.ready r i l v f = false := by
  have hno : s.noCredit l v f = true := by simp [State.noCredit, h]
  simp [State.ready, hl, hopen, hno]

theorem State.ready_of_taken {j : Nat} (hj : j ∈ inputsOf r) (hne : j ≠ i) (hleft : (s.worm j v).left ≠ 0) (hout : (s.worm j v).out = some l)
    (hhead : f.head = true) : s.ready r i l v f = false := by
  have htaken : s.vcTaken r i l v = true := List.any_eq_true.mpr ⟨j, hj, by simp [hne, hleft, hout]⟩
  unfold State.ready
  split <;> simp [hhead, htaken, hopen]

theorem State.ready_of_raw (hl : l = uclPort) (h : s.flag R.UCL_CTL F.UCL_CTL.RAW = true) : s.ready r i l v f = false := by
  subst hl
  simp [State.ready, hopen, h, show uclPort ≠ memLink by decide]

end

/-! ### What a boarded output absorbs -/

section
variable {s : State} {l : Nat} {f : TFlit} (hhead : f.head = true)
include hhead

theorem State.absorb_completion (h : (headerOf f.w).cmd = cCPL ∨ (headerOf f.w).cmd = cCPLE) :
    s.absorb l f = (s.addLed l 10 1).addLed l 9 1 := by
  simp [State.absorb, hhead, isCompletion, h]

theorem State.absorb_posted (h : (headerOf f.w).cmd = cWRP ∨ (headerOf f.w).cmd = cMSG) :
    s.absorb l f = (s.addLed l 10 1).addLed l 7 1 := by
  have hnot : isCompletion (headerOf f.w).cmd = false := by rcases h with h | h <;> rw [h] <;> rfl
  simp [State.absorb, hhead, hnot, posted, h]

/-- A non-posted request draws CPLE BOARDED. -/
theorem State.absorb_request (hc : (headerOf f.w).cmd ≠ cCPL) (he : (headerOf f.w).cmd ≠ cCPLE) (hw : (headerOf f.w).cmd ≠ cWRP)
    (hm : (headerOf f.w).cmd ≠ cMSG) : s.absorb l f =
      ((s.addLed l 10 1).addLed l 8 1).ownCple l (headerOf f.w).src (headerOf f.w).prio (headerOf f.w).tag eBOARDED := by
  simp [State.absorb, hhead, isCompletion, posted, hc, he, hw, hm]

end

end Sys2Proof.Machine
end

section
/-!
PROOF. The flits of a packet spell that packet again (Table 8.3, R182).
-/
namespace Sys2Proof.Machine
open Sys2Proof.Claims

/-! ### Fields side by side -/

/-- The number in which fields stand side by side, the lowest first, each given by its width and its value. -/
def packed : List (Nat × Nat) → Nat
  | [] => 0
  | (n, d) :: ds => packed ds * 2 ^ n + d

/-- Each field is read back where it stands. -/
theorem packed_field {ds : List (Nat × Nat)} (hfit : ∀ x ∈ ds, x.2 < 2 ^ x.1) (k : Nat) {a n d : Nat} (hd : ds[k]? = some (n, d))
    (ha : ((ds.take k).map Prod.fst).sum = a) : packed ds / 2 ^ a % 2 ^ n = d := by
  subst ha
  induction ds generalizing k with
  | nil => cases hd
  | cons x ds ih =>
    obtain ⟨m, e⟩ := x
    have he : e < 2 ^ m := hfit (m, e) List.mem_cons_self
    have hrest : packed ((m, e) :: ds) / 2 ^ m = packed ds := by
      rw [packed, Nat.add_comm, Nat.add_mul_div_right _ _ (Nat.two_pow_pos m), Nat.div_eq_of_lt he, Nat.zero_add]
    cases k with
    | zero =>
      cases hd
      simp [packed, Nat.mod_eq_of_lt he]
    | succ k =>
      rw [List.take_succ_cons, List.map_cons, List.sum_cons, Nat.pow_add, ← Nat.div_div_eq_div_mul, hrest]
      exact ih (fun y hy => hfit y (List.mem_cons_of_mem _ hy)) k hd

theorem packed_lt {ds : List (Nat × Nat)} (hfit : ∀ x ∈ ds, x.2 < 2 ^ x.1) : packed ds < 2 ^ (ds.map Prod.fst).sum := by
  induction ds with
  | nil => exact Nat.one_pos
  | cons x ds ih =>
    have hx := hfit x List.mem_cons_self
    have hle : (packed ds + 1) * 2 ^ x.1 ≤ 2 ^ (ds.map Prod.fst).sum * 2 ^ x.1 :=
      Nat.mul_le_mul_right _ (ih fun y hy => hfit y (List.mem_cons_of_mem _ hy))
    calc packed (x :: ds) < (packed ds + 1) * 2 ^ x.1 := by rw [packed, Nat.succ_mul]; omega
      _ ≤ 2 ^ ((x :: ds).map Prod.fst).sum := by rwa [List.map_cons, List.sum_cons, Nat.pow_add, Nat.mul_comm (2 ^ x.1)]

/-! ### The header -/

/-- The fields of a header unit (Table 8.3), the lowest first. -/
def headerFields (pk : Packet) : List (Nat × Nat) :=
  [(40, pk.opnd.toNat), (40, pk.addr.toNat), (20, 0), (1, pk.hit.toNat), (1, pk.klen.toNat), (3, pk.ecode), (15, pk.src), (2, 0),
   (7, pk.len), (10, pk.tag), (2, pk.prio), (4, pk.cmd), (15, pk.dst)]

section
variable {pk : Packet} (hdst : pk.dst < 2 ^ 15) (hsrc : pk.src < 2 ^ 15)
include hdst hsrc

theorem headerFields_fit : ∀ x ∈ headerFields pk, x.2 < 2 ^ x.1 := by
  have hhit := pk.hit.toNat_lt
  have hklen := pk.klen.toNat_lt
  have hlen := pk.len.isLt
  simp only [headerFields, List.forall_mem_cons]
  refine ⟨pk.opnd.isLt, pk.addr.isLt, by decide, hhit, hklen, pk.ecode.isLt, hsrc, by decide, ?_, pk.tag.isLt, pk.prio.isLt, pk.cmd.isLt, hdst,
    List.forall_mem_nil _⟩
  omega

theorem toNat_headerUnit : (headerUnit pk).toNat = packed (headerFields pk) := by
  have hklen : (if pk.klen then 2 ^ 101 else 0) = pk.klen.toNat * 2 ^ 101 := by cases pk.klen <;> rfl
  have hhit : (if pk.hit then 2 ^ 100 else 0) = pk.hit.toNat * 2 ^ 100 := by cases pk.hit <;> rfl
  have hlt : packed (headerFields pk) < 2 ^ 160 := packed_lt (headerFields_fit hdst hsrc)
  have hsum : packed (headerFields pk) = pk.dst * 2 ^ 145 + pk.cmd.val * 2 ^ 141 + pk.prio.val * 2 ^ 139 + pk.tag.val * 2 ^ 129 +
      pk.len.val * 2 ^ 122 + pk.src * 2 ^ 105 + pk.ecode.val * 2 ^ 102 + pk.klen.toNat * 2 ^ 101 + pk.hit.toNat * 2 ^ 100 +
      pk.addr.toNat * 2 ^ 40 + pk.opnd.toNat := by
    simp only [headerFields, packed]
    ring
  unfold headerUnit
  rw [BitVec.toNat_ofNat, Nat.mod_eq_of_lt hdst, Nat.mod_eq_of_lt hsrc, hklen, hhit, ← hsum, Nat.mod_eq_of_lt hlt]

/-- A header unit spells the packet without its payload. -/
theorem headerOf_headerUnit : headerOf (headerUnit pk) = { pk with data := [], par := [] } := by
  have hfit := headerFields_fit hdst hsrc
  have hbit : ∀ (b : Bool) (x i : Nat), x / 2 ^ i % 2 ^ 1 = b.toNat → x.testBit i = b := by
    intro b x i h
    rw [Nat.testBit_eq_decide_div_mod_eq, show x / 2 ^ i % 2 = b.toNat from h]
    cases b <;> rfl
  have hword : ∀ (w : Word) (x : Nat), x % 2 ^ 40 = w.toNat → BitVec.ofNat 40 x = w :=
    fun w x h => BitVec.eq_of_toNat_eq ((BitVec.toNat_ofNat _ _).trans h)
  have hlow : packed (headerFields pk) / 2 ^ 0 % 2 ^ 40 = pk.opnd.toNat := packed_field hfit 0 rfl rfl
  have hopnd := hword pk.opnd (packed (headerFields pk)) (by rwa [Nat.pow_zero, Nat.div_one] at hlow)
  have haddr : bitsOf (packed (headerFields pk)) 79 40 = _ := packed_field hfit 1 rfl rfl
  have hhit := hbit pk.hit _ 100 (packed_field hfit 3 rfl rfl)
  have hklen := hbit pk.klen _ 101 (packed_field hfit 4 rfl rfl)
  have hecode : bitsOf (packed (headerFields pk)) 104 102 = _ := packed_field hfit 5 rfl rfl
  have hsrc' : bitsOf (packed (headerFields pk)) 119 105 = _ := packed_field hfit 6 rfl rfl
  have hlen : bitsOf (packed (headerFields pk)) 128 122 = _ := packed_field hfit 8 rfl rfl
  have htag : bitsOf (packed (headerFields pk)) 138 129 = _ := packed_field hfit 9 rfl rfl
  have hprio : bitsOf (packed (headerFields pk)) 140 139 = _ := packed_field hfit 10 rfl rfl
  have hcmd : bitsOf (packed (headerFields pk)) 144 141 = _ := packed_field hfit 11 rfl rfl
  have hdst' : bitsOf (packed (headerFields pk)) 159 145 = _ := packed_field hfit 12 rfl rfl
  have hfin : ∀ (n : Nat) [NeZero n] (x : Fin n), Fin.ofNat n x.val = x := fun n _ x => Fin.ext (Nat.mod_eq_of_lt x.isLt)
  simp only [headerOf, toNat_headerUnit hdst hsrc, haddr, hhit, hklen, hecode, hsrc', hlen, htag, hprio, hcmd, hdst',
    Nat.min_eq_right (Nat.le_of_lt_succ pk.len.isLt), hword pk.addr _ (Nat.mod_eq_of_lt pk.addr.isLt), hopnd, hfin]

end

/-! ### The payload -/

/-- The four words of a data unit, W0 first. -/
def unitFields (n : Nat) (g : Nat → BitVec n) : List (Nat × Nat) := [(n, (g 3).toNat), (n, (g 2).toNat), (n, (g 1).toNat), (n, (g 0).toNat)]

theorem unitFields_fit (n : Nat) (g : Nat → BitVec n) : ∀ x ∈ unitFields n g, x.2 < 2 ^ x.1 := by
  simp only [unitFields, List.forall_mem_cons]
  exact ⟨(g 3).isLt, (g 2).isLt, (g 1).isLt, (g 0).isLt, List.forall_mem_nil _⟩

theorem sum_of_four {n : Nat} (g : Nat → BitVec n) (e : Nat → Nat) :
    ((List.range 4).map fun b => (((List.range 4).map g).getD b 0).toNat * e b).sum =
      (g 0).toNat * e 0 + ((g 1).toNat * e 1 + ((g 2).toNat * e 2 + (g 3).toNat * e 3)) := rfl

theorem toNat_flitBits (g : Nat → Word) : (flitBits ((List.range 4).map g)).toNat = packed (unitFields 40 g) := by
  have hsum : packed (unitFields 40 g) = (g 0).toNat * 2 ^ (120 - 40 * 0) + ((g 1).toNat * 2 ^ (120 - 40 * 1) +
      ((g 2).toNat * 2 ^ (120 - 40 * 2) + (g 3).toNat * 2 ^ (120 - 40 * 3))) := by
    simp only [unitFields, packed]
    ring
  have hlt : packed (unitFields 40 g) < 2 ^ 160 := packed_lt (unitFields_fit 40 g)
  unfold flitBits
  rw [sum_of_four g fun b => 2 ^ (120 - 40 * b), BitVec.toNat_ofNat, ← hsum, Nat.mod_eq_of_lt hlt]

theorem toNat_flitPars (g : Nat → BitVec 5) : (flitPars ((List.range 4).map g)).toNat = packed (unitFields 5 g) := by
  have hsum : packed (unitFields 5 g) = (g 0).toNat * 2 ^ (15 - 5 * 0) + ((g 1).toNat * 2 ^ (15 - 5 * 1) +
      ((g 2).toNat * 2 ^ (15 - 5 * 2) + (g 3).toNat * 2 ^ (15 - 5 * 3))) := by
    simp only [unitFields, packed]
    ring
  have hlt : packed (unitFields 5 g) < 2 ^ 20 := packed_lt (unitFields_fit 5 g)
  unfold flitPars
  rw [sum_of_four g fun b => 2 ^ (15 - 5 * b), BitVec.toNat_ofNat, ← hsum, Nat.mod_eq_of_lt hlt]

/-- Word W(3 - b) of a data unit, and its parity bits, are the ones put there. -/
theorem TFlit.word_of_flitBits (g : Nat → Word) (par : BitVec 20) (head : Bool) (pos : Nat) {b : Nat} (hb : b < 4) :
    TFlit.word ⟨flitBits ((List.range 4).map g), par, head, pos⟩ b = g b := by
  have hfield : packed (unitFields 40 g) / 2 ^ (120 - 40 * b) % 2 ^ 40 = (g b).toNat := by
    interval_cases b
    · exact packed_field (unitFields_fit 40 g) 3 rfl rfl
    · exact packed_field (unitFields_fit 40 g) 2 rfl rfl
    · exact packed_field (unitFields_fit 40 g) 1 rfl rfl
    · exact packed_field (unitFields_fit 40 g) 0 rfl rfl
  refine BitVec.eq_of_toNat_eq ((BitVec.toNat_ofNat _ _).trans ?_)
  rw [toNat_flitBits, hfield]

theorem TFlit.parAt_of_flitPars (g : Nat → BitVec 5) (w : BitVec 160) (head : Bool) (pos : Nat) {b : Nat} (hb : b < 4) :
    TFlit.parAt ⟨w, flitPars ((List.range 4).map g), head, pos⟩ b = g b := by
  have hfield : packed (unitFields 5 g) / 2 ^ (15 - 5 * b) % 2 ^ 5 = (g b).toNat := by
    interval_cases b
    · exact packed_field (unitFields_fit 5 g) 3 rfl rfl
    · exact packed_field (unitFields_fit 5 g) 2 rfl rfl
    · exact packed_field (unitFields_fit 5 g) 1 rfl rfl
    · exact packed_field (unitFields_fit 5 g) 0 rfl rfl
  refine BitVec.eq_of_toNat_eq ((BitVec.toNat_ofNat _ _).trans ?_)
  rw [toNat_flitPars, hfield]

/-- Groups of four in order are all in order. -/
theorem flatMap_range_four {α : Type} (g : Nat → α) (m : Nat) :
    ((List.range m).flatMap fun i => (List.range 4).map fun b => g (4 * i + b)) = (List.range (4 * m)).map g := by
  induction m with
  | zero => rfl
  | succ m ih =>
    rw [List.range_succ (n := m), List.flatMap_append, ih, Nat.mul_succ, List.range_add, List.map_append, List.flatMap_singleton, List.map_map]
    rfl

/-- The words and parity bits of the data units of a packet, those beyond its payload 0. -/
theorem words_of_dataFlits (pk : Packet) (m : Nat) :
    (((List.range m).map fun i => flitAt pk (i + 1)).flatMap fun f => (List.range 4).map f.word) =
      (List.range (4 * m)).map fun k => pk.data.getD k 0 := by
  rw [List.flatMap_map, ← flatMap_range_four]
  refine List.flatMap_congr fun i _ => List.map_congr_left fun b hb => ?_
  exact TFlit.word_of_flitBits (fun b => pk.data.getD (4 * i + b) 0) _ _ _ (List.mem_range.mp hb)

theorem pars_of_dataFlits (pk : Packet) (m : Nat) :
    (((List.range m).map fun i => flitAt pk (i + 1)).flatMap fun f => (List.range 4).map f.parAt) =
      (List.range (4 * m)).map fun k => parOf pk k := by
  rw [List.flatMap_map, ← flatMap_range_four]
  refine List.flatMap_congr fun i _ => List.map_congr_left fun b hb => ?_
  exact TFlit.parAt_of_flitPars (fun b => parOf pk (4 * i + b)) _ _ _ (List.mem_range.mp hb)

/-- The first places of a list, read one by one, are the list. -/
theorem take_map_getD_range {α : Type} (xs : List α) (d : α) {n : Nat} (h : xs.length ≤ n) :
    ((List.range n).map fun k => xs.getD k d).take xs.length = xs := by
  refine List.ext_getElem (by simpa using h) fun k hk hk' => ?_
  simp [hk']

section
variable {pk : Packet} (hdst : pk.dst < 2 ^ 15) (hsrc : pk.src < 2 ^ 15)
include hdst hsrc

theorem headerOf_flitAt_zero : headerOf (flitAt pk 0).w = { pk with data := [], par := [] } := headerOf_headerUnit hdst hsrc

/-- The header of a packet and enough of its data units spell the packet. -/
theorem assemble_flits {m : Nat} (hpar : pk.par = []) (hlen : pk.data.length = if m = 0 then 0 else pk.len.val) (hm : pk.data.length ≤ 4 * m) :
    assemble (flitAt pk 0) ((List.range m).map fun i => flitAt pk (i + 1)) = pk := by
  have hn : (if ((List.range m).map fun i => flitAt pk (i + 1)) = [] then 0 else pk.len.val) = pk.data.length := by
    rw [hlen]
    simp
  have hpars : (fun k => parOf pk k) = fun k => byteParity (pk.data.getD k 0) := by
    funext k
    simp [parOf, hpar]
  have hps : (((List.range (4 * m)).map fun k => byteParity (pk.data.getD k 0)).take pk.data.length) = pk.data.map byteParity := by
    rw [show ((List.range (4 * m)).map fun k => byteParity (pk.data.getD k 0)) =
      ((List.range (4 * m)).map fun k => pk.data.getD k 0).map byteParity by simp, ← List.map_take, take_map_getD_range _ _ hm]
  simp only [assemble, headerOf_flitAt_zero hdst hsrc, words_of_dataFlits, pars_of_dataFlits, hn, hpars, hps, take_map_getD_range _ _ hm, if_true]
  rw [← hpar]

/-- The flits of a packet whose payload has its length spell it, whatever follows them. -/
theorem frontPacket_flitsFor (rest : List TFlit) (hpar : pk.par = [])
    (hlen : pk.data.length = (if pk.cmd = cWR ∨ pk.cmd = cWRP ∨ pk.cmd = cMSG ∨ pk.cmd = cWRUL ∨ pk.cmd = cCPL then pk.len.val else 0)) :
    frontPacket (flitsFor pk ++ rest) = some pk := by
  obtain ⟨m, hm⟩ : ∃ m, flitsOf pk = m + 1 := ⟨flitsOf pk - 1, by unfold flitsOf; omega⟩
  have hflits : flitsFor pk = flitAt pk 0 :: (List.range m).map fun i => flitAt pk (i + 1) := by
    rw [flitsFor, hm, List.range_succ_eq_map, List.map_cons, List.map_map]
    rfl
  have hhdr : flitsOf (headerOf (flitAt pk 0).w) = m + 1 := by rw [headerOf_flitAt_zero hdst hsrc, ← hm]; rfl
  have hdata : pk.data.length = (if m = 0 then 0 else pk.len.val) ∧ pk.data.length ≤ 4 * m := by
    unfold flitsOf at hm
    split at hm <;> rename_i hc
    · rw [if_pos hc] at hlen
      split <;> omega
    · rw [if_neg hc] at hlen
      split <;> omega
  rw [hflits, List.cons_append]
  simp only [frontPacket, hhdr]
  rw [if_pos (by simp), show m + 1 - 1 = ((List.range m).map fun i => flitAt pk (i + 1)).length by simp, List.take_left,
    assemble_flits hdst hsrc hpar hdata.1 hdata.2]

end

end Sys2Proof.Machine
end

section
/-!
PROOF. Packets through a router (R181, R182, R190-R192, R198, R201).
-/
namespace Sys2Proof.Machine
open Sys2Proof.Claims

/-- Settles O29: a router's cycles never touch MC0, so its halt does not come by a forward; a packet of one flit that is alone at its output is gone
after one cycle, the state of its input showing nothing left; the winner is read off the pool of its output's contenders, which stand in the order
of their inputs; and a packet's flits hold its fields side by side. -/
theorem packetForwarding : Obligations.PacketForwarding := by
  unfold Obligations.PacketForwarding
  refine ⟨?_, ?_, ?_, ?_, ?_⟩
  · intro s i pk
    refine ⟨exec_packetForward_of_stopped, fun j hruns hway => ⟨exec_packetForward_of_wayOf hruns hway, ?_, ?_, ?_⟩, ?_⟩
    · intro f l hfront hfate hready
      rw [exec_packetForward_of_wayOf hruns hway, State.forwardRun_of_not_ready hfront hfate hready]
    · intro f l hfront hhead hone hfate hready halone
      refine ⟨fun hb hgood => ?_, fun hb hgood => ?_⟩ <;>
        rw [exec_packetForward_of_wayOf hruns hway, State.forwardRun_single hfront hhead hone hfate hready halone hgood] <;> simp [hb]
    · intro f hfront hhead hone hfate
      rw [exec_packetForward_of_wayOf hruns hway, State.forwardRun_bad_header hfront hhead hone hfate]
    · intro c hruns hway hi hsrc hcmd hpar htag hfree hquar
      have hissue := fun hshape => (State.forward_of_no_way hruns hway).trans
        (State.coreIssue_of_shapeOk hi hsrc hcmd hpar htag hfree hquar hshape)
      refine ⟨fun hshape hother => ?_, fun hshape hc hwrul hlocks => ?_, fun hshape => ?_⟩
      · exact exec_packetForward_of_core0 ((hissue hshape).trans (if_neg hother)) (State.core0_sendReq _ _ _)
      · refine ⟨_, exec_packetForward ((hissue hshape).trans (if_pos ⟨hc, hwrul⟩)) fun hheld => ?_, rfl, ?_⟩
        · obtain ⟨a, ha, hne⟩ := hlocks.resolve_left hheld
          exact List.ne_nil_of_mem (List.mem_filter.mpr ⟨by rwa [State.core0_sendReq], by simpa using hne⟩)
        · simp [State.core0_sendReq]
      · exact exec_packetForward_of_core0 ((State.forward_of_no_way hruns hway).trans (State.coreIssue_of_not_shapeOk hshape)) rfl
  · intro s r l c hturn hwins
    obtain ⟨hc, hbest, hnext⟩ := State.winner_fair hturn hwins
    obtain ⟨hmem, hfair⟩ := State.mem_pool.mp hc
    refine ⟨hmem, hfair, fun x hx hf => hbest x (State.mem_pool.mpr ⟨hx, hf⟩), fun hr x hx hf => hnext hr x (State.mem_pool.mpr ⟨hx, hf⟩), ?_⟩
    decide
  · intro s r i l v f hopen
    exact ⟨State.ready_of_no_credit hopen, fun _ => State.ready_memLink_of_queued, fun _ => State.ready_of_taken hopen, State.ready_of_raw hopen⟩
  · intro s l f hhead
    exact ⟨State.absorb_completion hhead, State.absorb_posted hhead, State.absorb_request hhead⟩
  · intro pk rest hdst hsrc
    exact ⟨headerOf_headerUnit hdst hsrc, frontPacket_flitsFor hdst hsrc rest⟩

end Sys2Proof.Machine
end

section
/-!
PROOF. Ports that are boarded up (R198, R199): where they show it, and what leaves that alone.
-/
namespace Sys2Proof.Machine
open Sys2Proof.Claims

/-! ### The mark of a boarded port -/

/-- The register in which a port of a router shows that it is boarded up, and the bit. -/
def markReg (l : Nat) : Nat :=
  if routerOf l = 256 then (if portOf l < 32 then R.TR_HBRD_L else R.TR_HBRD_H) else R.TR_STAT (routerOf l / 64) (routerOf l % 64)
def markBit (l : Nat) : Nat := if routerOf l = 256 then (if portOf l < 32 then portOf l else portOf l - 32) else 20 + portOf l
def markFld (l : Nat) : Fld := ⟨markBit l, markBit l⟩

theorem State.reg_bit (s : State) (off i : Nat) : (s.reg off).getLsbD i = s.flag off ⟨i, i⟩ := by
  have hmod : ∀ x : Nat, decide (x % 2 = 1) = decide (x % 2 ≠ 0) := fun x => by
    rcases Nat.mod_two_eq_zero_or_one x with h | h <;> simp [h]
  show (s.reg off).toNat.testBit i = decide ((s.reg off).toNat / 2 ^ i % 2 ^ (i + 1 - i) ≠ 0)
  rw [Nat.testBit_eq_decide_div_mod_eq, Nat.add_sub_cancel_left, Nat.pow_one, hmod]

theorem State.boarded_eq (s : State) (l : Nat) :
    s.boarded l = if 32768 ≤ l then SMap.get false s.stageBrd l else s.flag (markReg l) (markFld l) := by
  simp only [State.boarded, State.reg_bit, markReg, markFld, markBit]
  split_ifs <;> rfl

theorem State.setBoarded_eq (s : State) (l : Nat) (b : Bool) : s.setBoarded l b =
    if 32768 ≤ l then { s with stageBrd := SMap.set false s.stageBrd l b } else s.setFld (markReg l) (markFld l) (if b then 1 else 0) := by
  simp only [State.setBoarded, markReg, markFld, markBit]
  split_ifs <;> rfl

/-- The mark of a port that exists is a bit of its register. -/
theorem State.markBit_lt {s : State} {l : Nat} (h : s.portExists l = true) : markBit l < 32 := by
  have hport : portOf l < 64 := Nat.mod_lt _ (by decide)
  unfold State.portExists at h
  unfold markBit
  dsimp only at h
  split at h <;> rename_i hr
  · simp only [hr, if_true]
    split <;> omega
  · have hlt : portOf l < 12 := by
      simp only [Bool.or_eq_true, Bool.and_eq_true, decide_eq_true_eq] at h
      omega
    simp only [hr, if_false]
    omega

section
variable {s : State} {l : Nat} (hmark : 32768 ≤ l ∨ markBit l < 32)
include hmark

theorem State.boarded_setBoarded_same (b : Bool) : (s.setBoarded l b).boarded l = b := by
  rw [State.setBoarded_eq, State.boarded_eq]
  by_cases hl : 32768 ≤ l
  · rw [if_pos hl, if_pos hl]
    exact SMap.get_set_same _ _ _ _
  · have hbit : markBit l < 32 := hmark.resolve_left hl
    rw [if_neg hl, if_neg hl]
    cases b
    · exact State.flag_setFld_zero _ _ _ (Nat.le_refl _) hbit
    · exact State.flag_setFld_one _ _ _ (Nat.le_refl _) hbit

/-- Boarding a port up opens no other. -/
theorem State.boarded_setBoarded_true {k : Nat} (hk : s.boarded k = true) : (s.setBoarded l true).boarded k = true := by
  rw [State.setBoarded_eq, State.boarded_eq]
  rw [State.boarded_eq] at hk
  by_cases hl : 32768 ≤ l
  · rw [if_pos hl]
    split <;> rename_i hk'
    · show SMap.get false (SMap.set false s.stageBrd l true) k = true
      by_cases hkl : k = l
      · rw [hkl, SMap.get_set_same]
      · rw [if_pos hk'] at hk
        rw [SMap.get_set_other _ _ _ _ _ _ hkl, hk]
    · rwa [if_neg hk'] at hk
  · have hbit : markBit l < 32 := hmark.resolve_left hl
    rw [if_neg hl]
    split <;> rename_i hk'
    · rwa [if_pos hk'] at hk
    · rw [if_neg hk'] at hk
      by_cases hreg : markReg k = markReg l
      · by_cases hsame : markBit k = markBit l
        · rw [hreg, show markFld k = markFld l by rw [markFld, markFld, hsame]]
          exact State.flag_setFld_one _ _ _ (Nat.le_refl _) hbit
        · rw [hreg] at hk ⊢
          rw [State.flag_setFld_other _ _ _ _ _ (Nat.le_refl _) hbit (Nat.le_refl _) (Nat.lt_or_gt_of_ne hsame)]
          exact hk
      · rw [State.flag_setFld_reg _ _ _ _ hreg]
        exact hk

end

/-! ### What leaves the marks alone -/

/-- Is this the address of a register of marks, or of the one that notes how a park ended? -/
def markAt (off : Nat) : Bool :=
  decide (off = 0x400004 ∨ off = 0x400008 ∨ off = 0x400020 ∨ (0x11c0000 ≤ off ∧ 0x1c0000 ≤ off % 0x400000 ∧ off % 0x400000 < 0x1e0000 ∧ off % 0x800 = 4))

theorem markAt_markReg (l : Nat) : markAt (markReg l) = true := by
  unfold markAt markReg R.TR_HBRD_L R.TR_HBRD_H R.TR_STAT
  split_ifs <;> rw [decide_eq_true_eq] <;> omega

/-- The marks of all ports, and how the last park ended. -/
def State.marks (s : State) : SMap Bool × (Nat → HWord) := (s.stageBrd, fun off => if markAt off then s.reg off else 0)

theorem State.reg_of_marks {s t : State} (h : t.marks = s.marks) {off : Nat} (hoff : markAt off = true) : t.reg off = s.reg off := by
  simpa [State.marks, hoff] using congrFun (congrArg Prod.snd h) off

theorem State.boarded_of_marks {s t : State} (h : t.marks = s.marks) (l : Nat) : t.boarded l = s.boarded l := by
  rw [State.boarded_eq, State.boarded_eq, State.flag, State.flag, State.fld, State.fld, State.reg_of_marks h (markAt_markReg l),
    show t.stageBrd = s.stageBrd from congrArg Prod.fst h]

theorem State.marks_of_regs {s t : State} (hstage : t.stageBrd = s.stageBrd) (hregs : t.regs = s.regs) : t.marks = s.marks := by
  simp only [State.marks, State.reg, hstage, hregs]

@[simp] theorem State.marks_ite (c : Prop) [Decidable c] (a b : State) : (if c then a else b).marks = if c then a.marks else b.marks :=
  apply_ite State.marks c a b

theorem State.marks_foldl {α : Type} (f : State → α → State) (l : List α) (s : State) (hf : ∀ a, ∀ i ∈ l, (f a i).marks = a.marks) :
    (l.foldl f s).marks = s.marks :=
  List.foldlRecOn (motive := fun a : State => a.marks = s.marks) l f rfl fun a ha i hi => (hf a i hi).trans ha

theorem State.marks_setReg (s : State) {off : Nat} (v : HWord) (h : markAt off = false) : (s.setReg off v).marks = s.marks := by
  refine Prod.ext rfl (funext fun o => ?_)
  by_cases ho : o = off
  · simp [State.marks, ho, h]
  · simp [State.marks, State.reg_setReg_other _ _ ho]

theorem State.marks_setFld (s : State) {off : Nat} (f : Fld) (n : Nat) (h : markAt off = false) : (s.setFld off f n).marks = s.marks :=
  s.marks_setReg _ h

theorem State.marks_addSat (s : State) {off : Nat} (f : Fld) (n : Nat) (h : markAt off = false) : (s.addSat off f n).marks = s.marks :=
  s.marks_setReg _ h

theorem markAt_trErr (r : Nat) : markAt (trErr r) = false := by
  unfold markAt trErr R.HTR_ERR R.TR_ERR
  split_ifs <;> rw [decide_eq_false_iff_not] <;> omega

@[simp] theorem State.marks_setTrErr (s : State) (r : Nat) (pane hub : Fld) (n : Nat) : (s.setTrErr r pane hub n).marks = s.marks :=
  s.marks_setReg _ (markAt_trErr r)

theorem State.marks_of_offPorts {s t : State} (h : t.offPorts = s.offPorts) : t.marks = s.marks :=
  State.marks_of_regs (congrArg State.stageBrd h :) (congrArg State.regs h :)

@[simp] theorem State.marks_ports (s : State) :
    (∀ l i n, (s.addLed l i n).marks = s.marks) ∧ (∀ l v x, (s.setTin l v x).marks = s.marks) ∧ (∀ i v x, (s.setInq i v x).marks = s.marks) ∧
    (∀ l v n, (s.creditBack l v n).marks = s.marks) ∧ (∀ l v n, (s.freeFlits l v n).marks = s.marks) ∧
    (∀ pk, (s.launch pk).marks = s.marks) := by
  and_intros <;> intros <;> exact State.marks_of_offPorts (by simp)

end Sys2Proof.Machine
end

section
/-!
PROOF. What a port loses as it is boarded up (R198, R199, R217).
-/
namespace Sys2Proof.Machine
open Sys2Proof.Claims

/-! ### Credits given back -/

theorem State.reclaim_frame (s : State) (l : Nat) (recl : Bool) :
    s.reclaim l recl = { s with ledger := (s.reclaim l recl).ledger, credOff := (s.reclaim l recl).credOff } := by
  simp only [State.reclaim, State.setChanFields, State.setLed]
  split_ifs <;> rfl

/-- The credits of a link that has all of them. -/
theorem chanField_fullAvail (l : Nat) {v : Nat} (hv : v < 8) : chanField l (fullAvail l) v = linkDepth l := by
  unfold chanField fullAvail linkDepth fieldW
  cases wideLink l
  · have hall : ∀ v < 8, ((List.range 8).map fun v => 4 * 2 ^ (4 * v)).sum / 2 ^ (4 * v) % 2 ^ 4 = 4 := by decide
    exact hall v hv
  · have hall : ∀ v < 8, ((List.range 8).map fun v => 16 * 2 ^ (5 * v)).sum / 2 ^ (5 * v) % 2 ^ 5 = 16 := by decide
    exact hall v hv

theorem fullAvail_lt (l : Nat) : fullAvail l < 2 ^ chanBits l := by
  unfold fullAvail linkDepth fieldW chanBits
  cases wideLink l <;> decide

theorem State.avail_of_ledger {s t : State} (h : t.ledger = s.ledger) (l v : Nat) : t.avail l v = s.avail l v := by
  have hled : t.led l = s.led l := funext fun i => by rw [State.led, h, State.led]
  rw [State.avail, State.avail, State.chanFields, State.chanFields, hled]

theorem State.avail_reclaim (s : State) (l : Nat) (recl : Bool) {v : Nat} (hv : v < 8) : (s.reclaim l recl).avail l v = linkDepth l := by
  have hset : ∀ a : State, (a.setChanFields l 2 11 (fullAvail l)).avail l v = linkDepth l := fun a => by
    rw [State.avail, a.chanFields_setChanFields (by decide) (fullAvail_lt l), chanField_fullAvail l hv]
  exact (State.avail_of_ledger rfl l v).trans (hset _)

/-! ### Before the mark is set -/

/-- The non-posted requests that a port's target tracks. -/
def State.reqsAt (s : State) (l : Nat) : List Tracked := s.tracked.filter fun u => decide (u.link = l ∧ u.posted = false ∧ u.cpl = false)

/-- The CPLE BOARDED that answers a tracked request. -/
def boardedCple (l : Nat) (u : Tracked) : Packet :=
  { dst := u.src, src := l, cmd := cCPLE, prio := Fin.ofNat 4 u.prio, tag := Fin.ofNat 1024 u.tag, ecode := eBOARDED }

theorem foldl_ownCple (l : Nat) (us : List Tracked) (s : State) :
    us.foldl (fun a u => a.ownCple l u.src (Fin.ofNat 4 u.prio) (Fin.ofNat 1024 u.tag) eBOARDED) s =
      { s with owns := s.owns ++ us.map (boardedCple l) } := by
  induction us generalizing s with
  | nil => simp
  | cons u us ih =>
    rw [List.foldl_cons, ih, List.map_cons]
    simp [State.ownCple, boardedCple]

/-- Those that the router answers itself: none at a controller's port (R217). -/
def State.owedAt (s : State) (l : Nat) : List Tracked := if fmPort l then [] else s.reqsAt l

/-- The state of a port about to be marked as boarded up: its credits are back, what its target tracks is answered. -/
def State.closed (s : State) (l cause : Nat) : State :=
  let mine := s.tracked.filter fun t => decide (t.link = l)
  let s1 := ((s.addLed l 8 (s.reqsAt l).length).addLed l 7 (mine.filter (·.posted)).length).reclaim l true
  { s1 with
    owns := s.owns ++ (s.owedAt l).map (boardedCple l)
    tracked := s.tracked.filter fun t => !decide (t.link = l)
    answered := s.answered ++ (s.owedAt l).map fun (t : Tracked) => (l, t.src, t.tag)
    parkBrd := if cause = 3 then l :: s.parkBrd else s.parkBrd }

/-- What a router notes of the port. -/
def State.noteBoarded (s : State) (l cause : Nat) : State :=
  let r := routerOf l
  ((s.setTrErr r F.TR_ERR.BRDEV F.HTR_ERR.BRDEV 1).setTrErr r F.TR_ERR.BCAUSE F.HTR_ERR.BCAUSE cause).setTrErr r
    F.TR_ERR.BPORT F.HTR_ERR.BPORT (portOf l)

theorem State.board_of_boarded {s : State} {l : Nat} (h : s.boarded l = true) (cause : Nat) : s.board l cause = s := if_pos h

theorem State.board_of_open {s : State} {l : Nat} (h : s.boarded l = false) (cause : Nat) : s.board l cause =
    (let s4 := if fmPort l then ((s.closed l cause).setBoarded l true).fmCut l else (s.closed l cause).setBoarded l true
     if 32768 ≤ l then s4 else s4.noteBoarded l cause) := by
  unfold State.board
  rw [if_neg (ne_true_of_eq_false h)]
  extract_lets mine reqs owed s1 s2 s3 s4 r t4
  have hreqs : reqs = s.reqsAt l := by
    refine (List.filter_filter ..).trans (List.filter_congr fun t _ => ?_)
    by_cases hl : t.link = l <;> cases t.posted <;> cases t.cpl <;> simp [hl]
  have howed : owed = s.owedAt l := by simp only [owed, hreqs, State.owedAt]
  have hs2 : s2 = { s1 with owns := s1.owns ++ (s.owedAt l).map (boardedCple l) } := by
    simp only [s2, howed]
    exact foldl_ownCple _ _ _
  have hs1 : s1.tracked = s.tracked ∧ s1.owns = s.owns ∧ s1.answered = s.answered ∧ s1.parkBrd = s.parkBrd := by
    simp only [s1]
    rw [State.reclaim_frame]
    exact ⟨rfl, rfl, rfl, rfl⟩
  obtain ⟨htracked, howns, hanswered, hpark⟩ := hs1
  have hs3 : s3 = s.closed l cause := by
    simp only [s3, hs2, htracked, howns, hanswered, hpark, howed]
    simp only [s1, hreqs, State.closed, mine]
  have hs4 : s4 = t4 := by simp only [s4, t4, hs3]
  rw [hs4]
  rfl

/-! ### A port that is no controller's -/

/-- A state that differs in its ledgers alone, with the lists of a boarded port. -/
theorem State.withLists_frame {s a : State} (h : a = { s with ledger := a.ledger, credOff := a.credOff }) (ps : List Packet) (us : List Tracked)
    (xs : List (Nat × Nat × Nat)) (ls : List Nat) : { a with owns := ps, tracked := us, answered := xs, parkBrd := ls } =
      { s with ledger := a.ledger, credOff := a.credOff, owns := ps, tracked := us, answered := xs, parkBrd := ls } := by
  rw [h]

theorem State.addLed_frame (s : State) (l i n : Nat) : s.addLed l i n = { s with ledger := (s.addLed l i n).ledger } := rfl

theorem State.closed_frame (s : State) (l cause : Nat) : s.closed l cause = { s with
    ledger := (s.closed l cause).ledger, credOff := (s.closed l cause).credOff, owns := s.owns ++ (s.owedAt l).map (boardedCple l)
    tracked := s.tracked.filter fun t => !decide (t.link = l), answered := (s.closed l cause).answered
    parkBrd := (s.closed l cause).parkBrd } := by
  refine State.withLists_frame ?_ _ _ _ _
  rw [State.reclaim_frame, State.addLed_frame, State.addLed_frame s]

theorem State.avail_closed (s : State) (l cause : Nat) {v : Nat} (hv : v < 8) : (s.closed l cause).avail l v = linkDepth l :=
  (State.avail_of_ledger rfl l v).trans (State.avail_reclaim _ l true hv)

theorem RegsDiffer.refl (s : State) : RegsDiffer s s := ⟨s.regs, rfl⟩

theorem State.noteBoarded_regsDiffer (s : State) (l cause : Nat) : RegsDiffer s (s.noteBoarded l cause) :=
  (((RegsDiffer.refl s).setFld _ _ _).setFld _ _ _).setFld _ _ _

@[simp] theorem State.marks_noteBoarded (s : State) (l cause : Nat) : (s.noteBoarded l cause).marks = s.marks := by
  simp [State.noteBoarded]

/-- The cause that a router notes is the one given. -/
theorem State.bcause_noteBoarded (s : State) (l : Nat) {cause : Nat} (h : cause < 4) :
    (s.noteBoarded l cause).fld (trErr (routerOf l)) (if routerOf l = 256 then F.HTR_ERR.BCAUSE else F.TR_ERR.BCAUSE) = cause := by
  unfold State.noteBoarded State.setTrErr
  by_cases hr : routerOf l = 256
  · simp only [hr, if_true]
    rw [State.fld_setFld_other _ _ _ _ _ (by decide) (by decide) (by decide) (by decide), State.fld_setFld_same _ _ _ _ (by decide) (by decide)]
    exact Nat.mod_eq_of_lt h
  · simp only [hr, if_false]
    rw [State.fld_setFld_other _ _ _ _ _ (by decide) (by decide) (by decide) (by decide), State.fld_setFld_same _ _ _ _ (by decide) (by decide)]
    exact Nat.mod_eq_of_lt h

section
variable {s : State} {l cause : Nat} (hl : l < 32768) (hopen : s.boarded l = false)

theorem State.setBoarded_regsDiffer (hl : l < 32768) (b : Bool) : RegsDiffer s (s.setBoarded l b) := by
  rw [State.setBoarded_eq, if_neg (Nat.not_le.mpr hl)]
  exact (RegsDiffer.refl s).setFld _ _ _

include hl hopen

theorem State.board_of_plain (hport : fmPort l = false) : s.board l cause = ((s.closed l cause).setBoarded l true).noteBoarded l cause := by
  have hnot : ¬ 32768 ≤ l := Nat.not_le.mpr hl
  simp only [State.board_of_open hopen, hport, hnot, if_false, Bool.false_eq_true]

/-- Beside what its target tracks and its credits, only registers tell that a port of a router is boarded up. -/
theorem State.board_plain_regsDiffer (hport : fmPort l = false) : RegsDiffer (s.closed l cause) (s.board l cause) := by
  rw [State.board_of_plain hl hopen hport]
  obtain ⟨rs, hrs⟩ := State.setBoarded_regsDiffer (s := s.closed l cause) hl true
  obtain ⟨rs', hrs'⟩ := State.noteBoarded_regsDiffer ((s.closed l cause).setBoarded l true) l cause
  rw [hrs', hrs]
  exact ⟨rs', rfl⟩

theorem State.boarded_board_plain (hport : fmPort l = false) (hbit : markBit l < 32) : (s.board l cause).boarded l = true := by
  rw [State.board_of_plain hl hopen hport, State.boarded_of_marks (State.marks_noteBoarded _ l cause), State.boarded_setBoarded_same (.inr hbit)]

theorem State.bcause_board_plain (hport : fmPort l = false) (h : cause < 4) :
    (s.board l cause).fld (trErr (routerOf l)) (if routerOf l = 256 then F.HTR_ERR.BCAUSE else F.TR_ERR.BCAUSE) = cause := by
  rw [State.board_of_plain hl hopen hport, State.bcause_noteBoarded _ l h]

/-- A port that is boarded up, its controller's port apart: it has its credits back, and each non-posted request tracked draws CPLE BOARDED. -/
theorem board_plain_clause (hport : fmPort l = false) (hbit : markBit l < 32) (hcause : cause < 4) :
    let t := s.board l cause
    let reqs := s.tracked.filter fun u => decide (u.link = l ∧ u.posted = false ∧ u.cpl = false)
    t.boarded l = true ∧ (∀ v, v < 8 → t.avail l v = linkDepth l) ∧ t.srcs = s.srcs ∧ t.inqs = s.inqs ∧ t.tins = s.tins ∧
    t.tracked = s.tracked.filter (fun u => decide (u.link ≠ l)) ∧
    t.owns = s.owns ++ reqs.map (fun u =>
      { dst := u.src, src := l, cmd := cCPLE, prio := Fin.ofNat 4 u.prio, tag := Fin.ofNat 1024 u.tag, ecode := eBOARDED }) ∧
    t.fld (trErr (routerOf l)) (if routerOf l = 256 then F.HTR_ERR.BCAUSE else F.TR_ERR.BCAUSE) = cause := by
  intro t reqs
  obtain ⟨rs, ht⟩ : RegsDiffer (s.closed l cause) t := State.board_plain_regsDiffer hl hopen hport
  have hclosed := s.closed_frame l cause
  have howed : s.owedAt l = reqs := by rw [State.owedAt, hport]; rfl
  have htracked : t.tracked = (s.closed l cause).tracked := (congrArg State.tracked ht :)
  refine ⟨State.boarded_board_plain hl hopen hport hbit, fun v hv => ?_, ?_, ?_, ?_, ?_, ?_, State.bcause_board_plain hl hopen hport hcause⟩
  · exact (State.avail_of_ledger (congrArg State.ledger ht :) l v).trans (s.avail_closed l cause hv)
  · exact (congrArg State.srcs ht :).trans (congrArg State.srcs hclosed :)
  · exact (congrArg State.inqs ht :).trans (congrArg State.inqs hclosed :)
  · exact (congrArg State.tins ht :).trans (congrArg State.tins hclosed :)
  · rw [htracked, (congrArg State.tracked hclosed :)]
    simp
  · rw [← howed]
    exact (congrArg State.owns ht :).trans (congrArg State.owns hclosed :)

end

end Sys2Proof.Machine
end

section
/-!
PROOF. A controller's port that is boarded up (R217): its queues and its pieces of requests in the splitter end, and the splitter answers.
-/
namespace Sys2Proof.Machine
open Sys2Proof.Claims

/-! ### What a packet that sets out leaves of the target queues -/

@[simp] theorem State.tins_enter (s : State) (i v : Nat) (f : TFlit) : (s.enter i v f).tins = s.tins := by
  simp [State.enter, State.takeFlits, State.setIocc, State.setChanFields, apply_ite State.tins]

@[simp] theorem State.tins_hasLeft (s : State) (i : Nat) (pk : Packet) : (s.hasLeft i pk).tins = s.tins := by
  simp [State.hasLeft, apply_ite State.tins]

@[simp] theorem State.tins_fillOne (s : State) (i v : Nat) : (s.fillOne i v).tins = s.tins := by
  dsimp only [State.fillOne]
  split <;> simp [apply_ite State.tins]

@[simp] theorem State.tins_launch (s : State) (pk : Packet) : (s.launch pk).tins = s.tins :=
  List.foldlRecOn (motive := fun a : State => a.tins = s.tins) _ _ rfl fun a ha _ _ => (a.tins_fillOne _ _).trans ha

/-! ### What the splitter's cut leaves alone -/

/-- The state but for the sources of packets, the ledgers and the splitter. -/
def State.offSplitter (s : State) : State × SMap (List TFlit) := ({ s.offPorts with fmOut := [], fmSeq := [] }, s.tins)

@[simp] theorem State.offSplitter_ite (c : Prop) [Decidable c] (a b : State) :
    (if c then a else b).offSplitter = if c then a.offSplitter else b.offSplitter := apply_ite State.offSplitter c a b

theorem State.offSplitter_foldl {α : Type} (f : State → α → State) (l : List α) (s : State) (hf : ∀ a i, (f a i).offSplitter = a.offSplitter) :
    (l.foldl f s).offSplitter = s.offSplitter :=
  List.foldlRecOn (motive := fun a : State => a.offSplitter = s.offSplitter) l f rfl fun a ha i _ => (hf a i).trans ha

theorem State.offSplitter_of_offPorts {s t : State} (h : t.offPorts = s.offPorts) (htins : t.tins = s.tins) : t.offSplitter = s.offSplitter :=
  Prod.ext (congrArg (fun a : State => { a with fmOut := [], fmSeq := [] }) h) htins

@[simp] theorem State.offSplitter_launch (s : State) (pk : Packet) : (s.launch pk).offSplitter = s.offSplitter :=
  State.offSplitter_of_offPorts (s.offPorts_launch pk) (s.tins_launch pk)

@[simp] theorem State.offSplitter_addLed (s : State) (l i n : Nat) : (s.addLed l i n).offSplitter = s.offSplitter :=
  State.offSplitter_of_offPorts (by simp) (by simp)

@[simp] theorem State.offSplitter_setFmQueue (s : State) (l v : Nat) (x : SrcQ) : (s.setFmQueue l v x).offSplitter = s.offSplitter := rfl

@[simp] theorem State.offSplitter_fmAnswer (s : State) (pk : Packet) (done : List FmPart) : (s.fmAnswer pk done).offSplitter = s.offSplitter := by
  dsimp only [State.fmAnswer]
  split <;> simp [State.answerErr, State.answerData, State.answer]

@[simp] theorem State.offSplitter_absorbPiece (s : State) (l : Nat) (pk : Packet) (i : Nat) :
    (s.absorbPiece l pk i).offSplitter = s.offSplitter := by
  simp [State.absorbPiece]

/-- Channel v of a boarded controller's port loses the packets that wait for it. -/
def State.cutQueue (s : State) (l v : Nat) : State :=
  let q := s.fmQueue l v
  match q.pks with
  | [] => s
  | pk :: rest => rest.foldl (fun b p => b.absorbPiece l p 0) ((s.setFmQueue l v {}).absorbPiece l pk q.done)

/-- What of a request the splitter has left once a controller's port is boarded up. -/
def FmReq.without (l : Nat) (e : FmReq) : FmReq :=
  { e with
    left := e.left.filter fun p => !decide (fmPortOf (p.sc / 2) = l)
    done := e.done ++ (e.left.filter fun p => decide (fmPortOf (p.sc / 2) = l)).map fun p => ⟨p.at_, [], eBOARDED⟩ }

theorem State.fmCut_eq (s : State) (l : Nat) : s.fmCut l =
    (let s1 := (List.range 4).foldl (fun a v => a.cutQueue l v) s
     ({ s1 with fmSeq := s1.fmSeq.map (FmReq.without l) } : State).fmFinish) := rfl

@[simp] theorem State.offSplitter_cutQueue (s : State) (l v : Nat) : (s.cutQueue l v).offSplitter = s.offSplitter := by
  unfold State.cutQueue
  dsimp only
  split
  · rfl
  · exact (State.offSplitter_foldl _ _ _ fun a p => a.offSplitter_absorbPiece l p 0).trans (by simp)

theorem State.offSplitter_fmSeq (s : State) (es : List FmReq) : ({ s with fmSeq := es } : State).offSplitter = s.offSplitter := rfl

@[simp] theorem State.offSplitter_fmFinish (s : State) : s.fmFinish.offSplitter = s.offSplitter :=
  (State.offSplitter_foldl (fun a (e : FmReq) => a.fmAnswer e.pk e.done) _ _ fun a e => a.offSplitter_fmAnswer e.pk e.done).trans
    (s.offSplitter_fmSeq _)

@[simp] theorem State.offSplitter_fmCut (s : State) (l : Nat) : (s.fmCut l).offSplitter = s.offSplitter := by
  rw [State.fmCut_eq]
  exact (State.offSplitter_fmFinish _).trans ((State.offSplitter_fmSeq _ _).trans (State.offSplitter_foldl _ _ _ fun a v => a.offSplitter_cutQueue l v))

theorem State.kept_of_offSplitter {s t : State} (h : t.offSplitter = s.offSplitter) : t.marks = s.marks ∧ t.owns = s.owns ∧ t.tins = s.tins :=
  have hrest : ({ t.offPorts with fmOut := [], fmSeq := [] } : State) = { s.offPorts with fmOut := [], fmSeq := [] } := congrArg Prod.fst h
  ⟨State.marks_of_regs (congrArg State.stageBrd hrest :) (congrArg State.regs hrest :), (congrArg State.owns hrest :), congrArg Prod.snd h⟩

theorem State.marks_fmCut (s : State) (l : Nat) : (s.fmCut l).marks = s.marks := (State.kept_of_offSplitter (s.offSplitter_fmCut l)).1

theorem State.owns_fmCut (s : State) (l : Nat) : (s.fmCut l).owns = s.owns ∧ (s.fmCut l).tins = s.tins :=
  (State.kept_of_offSplitter (s.offSplitter_fmCut l)).2

/-! ### The queues and the requests of the splitter -/

/-- The splitter's queues and requests. -/
def State.splitter (s : State) : SMap SrcQ × List FmReq := (s.fmOut, s.fmSeq)

theorem State.splitter_of_offPorts {s t : State} (h : t.offPorts = s.offPorts) : t.splitter = s.splitter :=
  Prod.ext (congrArg State.fmOut h :) (congrArg State.fmSeq h :)

theorem State.offPorts_absorbPiece (s : State) (l : Nat) (pk : Packet) (i : Nat) : (s.absorbPiece l pk i).offPorts = s.offPorts := by
  simp [State.absorbPiece]

theorem State.offPorts_fmAnswer (s : State) (pk : Packet) (done : List FmPart) : (s.fmAnswer pk done).offPorts = s.offPorts := by
  dsimp only [State.fmAnswer]
  split <;> simp [State.answerErr, State.answerData, State.answer]

theorem State.fmSeq_launch (s : State) (pk : Packet) : (s.launch pk).fmSeq = s.fmSeq :=
  congrArg Prod.snd (State.splitter_of_offPorts (s.offPorts_launch pk))

theorem State.splitter_fmFinish (s : State) : s.fmFinish.splitter = (s.fmOut, s.fmSeq.filter fun e => !decide (e.left = [])) :=
  State.splitter_of_offPorts (s := { s with fmSeq := s.fmSeq.filter fun e => !decide (e.left = []) })
    (State.offPorts_foldl _ _ _ fun a e => a.offPorts_fmAnswer e.pk e.done)

theorem State.splitter_cutQueue (s : State) (l v : Nat) : (s.cutQueue l v).splitter =
    if (s.fmQueue l v).pks = [] then s.splitter else (SMap.set {} s.fmOut (vcKey l v) {}, s.fmSeq) := by
  unfold State.cutQueue
  dsimp only
  cases hq : (s.fmQueue l v).pks with
  | nil => rfl
  | cons pk rest =>
    rw [if_neg (List.cons_ne_nil _ _)]
    exact State.splitter_of_offPorts (s := s.setFmQueue l v {})
      ((State.offPorts_foldl _ _ _ fun a p => a.offPorts_absorbPiece l p 0).trans (State.offPorts_absorbPiece _ _ _ _))

theorem State.fmQueue_of_splitter {t : State} {m : SMap SrcQ} {es : List FmReq} (h : t.splitter = (m, es)) (l v : Nat) :
    t.fmQueue l v = SMap.get {} m (vcKey l v) := congrArg (fun x : SMap SrcQ × List FmReq => SMap.get ({} : SrcQ) x.1 (vcKey l v)) h

theorem State.fmQueue_cutQueue_same (s : State) (l v : Nat) : ((s.cutQueue l v).fmQueue l v).pks = [] := by
  have h := s.splitter_cutQueue l v
  by_cases hq : (s.fmQueue l v).pks = []
  · rw [if_pos hq] at h
    rw [State.fmQueue_of_splitter h]
    exact hq
  · rw [if_neg hq] at h
    rw [State.fmQueue_of_splitter h, SMap.get_set_same]

theorem State.fmQueue_cutQueue_other (s : State) (l : Nat) {v w : Nat} (hw : w ≠ v) : (s.cutQueue l v).fmQueue l w = s.fmQueue l w := by
  have h := s.splitter_cutQueue l v
  by_cases hq : (s.fmQueue l v).pks = []
  · rw [if_pos hq] at h
    exact State.fmQueue_of_splitter h l w
  · rw [if_neg hq] at h
    rw [State.fmQueue_of_splitter h, SMap.get_set_other]
    · rfl
    · simpa [vcKey] using hw

theorem State.fmSeq_cutQueue (s : State) (l v : Nat) : (s.cutQueue l v).fmSeq = s.fmSeq := by
  refine (congrArg Prod.snd (s.splitter_cutQueue l v) :).trans ?_
  split <;> rfl

theorem State.fmQueue_cutQueues (s : State) (l : Nat) {v n : Nat} (hv : v < n) :
    (((List.range n).foldl (fun a v => a.cutQueue l v) s).fmQueue l v).pks = [] := by
  induction n with
  | zero => exact absurd hv (Nat.not_lt_zero v)
  | succ n ih =>
    rw [List.range_succ, List.foldl_append, List.foldl_cons, List.foldl_nil]
    obtain hlt | rfl := Nat.lt_succ_iff_lt_or_eq.1 hv
    · rw [State.fmQueue_cutQueue_other _ _ (Nat.ne_of_lt hlt), ih hlt]
    · exact State.fmQueue_cutQueue_same _ _ _

theorem State.fmSeq_cutQueues (s : State) (l : Nat) (vs : List Nat) : (vs.foldl (fun a v => a.cutQueue l v) s).fmSeq = s.fmSeq :=
  List.foldlRecOn (motive := fun a : State => a.fmSeq = s.fmSeq) vs _ rfl fun a ha v _ => (a.fmSeq_cutQueue l v).trans ha

theorem State.splitter_fmCut (s : State) (l : Nat) : (s.fmCut l).splitter =
    (((List.range 4).foldl (fun a v => a.cutQueue l v) s).fmOut, (s.fmSeq.map (FmReq.without l)).filter fun e => !decide (e.left = [])) := by
  rw [State.fmCut_eq]
  dsimp only
  rw [State.splitter_fmFinish, State.fmSeq_cutQueues]

theorem State.fmQueue_fmCut (s : State) (l : Nat) {v : Nat} (hv : v < 4) : ((s.fmCut l).fmQueue l v).pks = [] := by
  rw [State.fmQueue_of_splitter (s.splitter_fmCut l)]
  exact s.fmQueue_cutQueues l hv

theorem State.fmSeq_fmCut (s : State) (l : Nat) :
    (s.fmCut l).fmSeq = (s.fmSeq.map (FmReq.without l)).filter fun e => !decide (e.left = []) := congrArg Prod.snd (s.splitter_fmCut l)

/-- No request in the splitter has a piece left at the port. -/
theorem State.left_fmCut {s : State} {l : Nat} {e : FmReq} (he : e ∈ (s.fmCut l).fmSeq) {p : Piece} (hp : p ∈ e.left) :
    fmPortOf (p.sc / 2) ≠ l := by
  rw [State.fmSeq_fmCut] at he
  obtain ⟨e0, -, rfl⟩ := List.mem_map.mp (List.mem_filter.mp he).1
  simpa using (List.mem_filter.mp hp).2

/-! ### What a packet enters with -/

/-- Two states in which a packet sets out from port i alike: the same packets wait to be sent, and as much stands at the router's input. -/
structure SetsOutAlike (i : Nat) (s t : State) : Prop where
  srcs : t.srcs = s.srcs
  low : t.led i 5 = s.led i 5
  high : t.led i 12 = s.led i 12

section
variable {i : Nat} {s t : State}

theorem SetsOutAlike.setSrcq (h : SetsOutAlike i s t) (v : Nat) (x : SrcQ) : SetsOutAlike i (s.setSrcq i v x) (t.setSrcq i v x) where
  srcs := congrArg (fun m => SMap.set ({} : SrcQ) m (vcKey i v) x) h.srcs
  low := h.low
  high := h.high

theorem SetsOutAlike.hasLeft (h : SetsOutAlike i s t) (pk : Packet) : SetsOutAlike i (s.hasLeft i pk) (t.hasLeft i pk) := by
  unfold State.hasLeft
  split
  · exact ⟨h.srcs, h.low, h.high⟩
  · exact h

theorem SetsOutAlike.chanFields (h : SetsOutAlike i s t) : t.chanFields i 5 12 = s.chanFields i 5 12 := by
  rw [State.chanFields, State.chanFields, h.low, h.high]

theorem SetsOutAlike.addLed (h : SetsOutAlike i s t) {j : Nat} (m n : Nat) (h5 : 5 ≠ j) (h12 : 12 ≠ j) :
    SetsOutAlike i (s.addLed i j m) (t.addLed i j n) where
  srcs := h.srcs
  low := by rw [State.addLed, State.addLed, State.led_setLed_other _ _ h5, State.led_setLed_other _ _ h5, h.low]
  high := by rw [State.addLed, State.addLed, State.led_setLed_other _ _ h12, State.led_setLed_other _ _ h12, h.high]

theorem SetsOutAlike.setLed (h : SetsOutAlike i s t) (j : Nat) (x : HWord) : SetsOutAlike i (s.setLed i j x) (t.setLed i j x) where
  srcs := h.srcs
  low := by
    by_cases hj : 5 = j
    · rw [← hj, State.led_setLed_same, State.led_setLed_same]
    · rw [State.led_setLed_other _ _ hj, State.led_setLed_other _ _ hj, h.low]
  high := by
    by_cases hj : 12 = j
    · rw [← hj, State.led_setLed_same, State.led_setLed_same]
    · rw [State.led_setLed_other _ _ hj, State.led_setLed_other _ _ hj, h.high]

theorem SetsOutAlike.setChanFields (h : SetsOutAlike i s t) (j k n : Nat) : SetsOutAlike i (s.setChanFields i j k n) (t.setChanFields i j k n) := by
  unfold State.setChanFields
  dsimp only
  split
  · exact (h.setLed _ _).setLed _ _
  · exact h.setLed _ _

theorem SetsOutAlike.enter (h : SetsOutAlike i s t) (v : Nat) (f : TFlit) : SetsOutAlike i (s.enter i v f) (t.enter i v f) := by
  have hin : SetsOutAlike i (s.setInq i v (s.inq i v ++ [f])) (t.setInq i v (t.inq i v ++ [f])) := ⟨h.srcs, h.low, h.high⟩
  unfold State.enter
  generalize s.setInq i v (s.inq i v ++ [f]) = a at hin ⊢
  generalize t.setInq i v (t.inq i v ++ [f]) = b at hin ⊢
  have hocc : b.iocc i v = a.iocc i v := by rw [State.iocc, State.iocc, hin.chanFields]
  have hadd := fun m => hin.addLed (j := 3) m m (by decide) (by decide)
  unfold State.takeFlits State.setIocc
  rw [hocc]
  dsimp only
  rw [(hadd _).chanFields]
  exact (hadd _).setChanFields _ _ _

theorem SetsOutAlike.fillOne (h : SetsOutAlike i s t) (v : Nat) : SetsOutAlike i (s.fillOne i v) (t.fillOne i v) := by
  have hq : t.srcq i v = s.srcq i v := by rw [State.srcq, State.srcq, h.srcs]
  have hocc : t.iocc i v = s.iocc i v := by rw [State.iocc, State.iocc, h.chanFields]
  cases hpks : (s.srcq i v).pks with
  | nil =>
    rw [State.fillOne_of_nil hpks, State.fillOne_of_nil (hq ▸ hpks)]
    exact h
  | cons pk rest =>
    rw [State.fillOne_of_cons hpks, State.fillOne_of_cons (hq ▸ hpks), hq, hocc]
    split_ifs
    · exact h
    · exact ((h.enter v _).setSrcq v _).hasLeft pk
    · exact (h.enter v _).setSrcq v _

theorem SetsOutAlike.fill (h : SetsOutAlike i s t) (v : Nat) : SetsOutAlike i (s.fill i v) (t.fill i v) := by
  unfold State.fill
  induction List.range 4 generalizing s t with
  | nil => exact h
  | cons k ks ih => exact ih (h.fillOne v)

theorem SetsOutAlike.launch {pk : Packet} (h : SetsOutAlike pk.src s t) : SetsOutAlike pk.src (s.launch pk) (t.launch pk) := by
  have hq : t.srcq pk.src (vcOf pk) = s.srcq pk.src (vcOf pk) := by rw [State.srcq, State.srcq, h.srcs]
  unfold State.launch
  dsimp only
  rw [hq]
  exact (h.setSrcq _ _).fill _

theorem SetsOutAlike.refl (i : Nat) (s : State) : SetsOutAlike i s s := ⟨rfl, rfl, rfl⟩

theorem SetsOutAlike.trans {u : State} (h : SetsOutAlike i s t) (h' : SetsOutAlike i t u) : SetsOutAlike i s u :=
  ⟨h'.srcs.trans h.srcs, h'.low.trans h.low, h'.high.trans h.high⟩

theorem SetsOutAlike.withLists (h : SetsOutAlike i s t) (ps : List Packet) (us : List Tracked) (xs : List (Nat × Nat × Nat)) (ls : List Nat) :
    SetsOutAlike i s { t with owns := ps, tracked := us, answered := xs, parkBrd := ls } := ⟨h.srcs, h.low, h.high⟩

theorem SetsOutAlike.noRequests (h : SetsOutAlike i s t) : SetsOutAlike i s { t with fmSeq := [] } := ⟨h.srcs, h.low, h.high⟩

/-- What a boarded port adds to its ledger does not change what sets out from it. -/
theorem SetsOutAlike.of_led (h : SetsOutAlike i s t) {j : Nat} (x : HWord) (h5 : 5 ≠ j) (h12 : 12 ≠ j) : SetsOutAlike i s (t.setLed i j x) where
  srcs := h.srcs
  low := (State.led_setLed_other _ _ h5).trans h.low
  high := (State.led_setLed_other _ _ h12).trans h.high

end

theorem setsOutAlike_reclaim (s : State) (l : Nat) (recl : Bool) : SetsOutAlike l s (s.reclaim l recl) := by
  have hset : ∀ a : State, SetsOutAlike l s a → SetsOutAlike l s (a.setChanFields l 2 11 (fullAvail l)) := fun a h => by
    unfold State.setChanFields
    dsimp only
    split
    · exact (h.of_led _ (by decide) (by decide)).of_led _ (by decide) (by decide)
    · exact h.of_led _ (by decide) (by decide)
  have h1 := (SetsOutAlike.refl l s).of_led (j := 1) (s.led l 1 + BitVec.ofInt 32
    (((List.range 8).map fun v => (linkDepth l : Int) - s.avail l v).sum)) (by decide) (by decide)
  unfold State.reclaim
  dsimp only
  generalize s.setLed l 1 _ = a at h1 ⊢
  have h2 : SetsOutAlike l s (if recl = true then a.setLed l 6 (a.led l 6 + BitVec.ofInt 32
      (((List.range 8).map fun v => (linkDepth l : Int) - s.avail l v).sum)) else a) := by
    split
    · exact h1.of_led _ (by decide) (by decide)
    · exact h1
  generalize (if recl = true then a.setLed l 6 _ else a) = b at h2 ⊢
  have h3 := hset b h2
  exact ⟨h3.srcs, h3.low, h3.high⟩

theorem setsOutAlike_closed (s : State) (l cause : Nat) : SetsOutAlike l s (s.closed l cause) := by
  have h1 := (((SetsOutAlike.refl l s).of_led (j := 8) (s.led l 8 + BitVec.ofNat 32 (s.reqsAt l).length) (by decide) (by decide)))
  have h2 := h1.of_led (j := 7) ((s.addLed l 8 (s.reqsAt l).length).led l 7 +
    BitVec.ofNat 32 ((s.tracked.filter fun t => decide (t.link = l)).filter (·.posted)).length) (by decide) (by decide)
  exact (h2.trans (setsOutAlike_reclaim _ l true)).withLists _ _ _ _

theorem setsOutAlike_absorbPiece (s : State) (l : Nat) (pk : Packet) (k : Nat) : SetsOutAlike l s (s.absorbPiece l pk k) := by
  have h1 : ∀ n, SetsOutAlike l s (s.addLed l 10 n) := fun n => (SetsOutAlike.refl l s).of_led _ (by decide) (by decide)
  unfold State.absorbPiece
  dsimp only
  split
  · split
    · exact (h1 _).of_led _ (by decide) (by decide)
    · exact (h1 _).of_led _ (by decide) (by decide)
  · exact h1 _

theorem setsOutAlike_cutQueue (s : State) (l v : Nat) : SetsOutAlike l s (s.cutQueue l v) := by
  unfold State.cutQueue
  dsimp only
  split
  · exact .refl l s
  · have h0 : SetsOutAlike l s (s.setFmQueue l v {}) := ⟨rfl, rfl, rfl⟩
    exact List.foldlRecOn (motive := SetsOutAlike l s) _ _ (h0.trans (setsOutAlike_absorbPiece _ _ _ _)) fun a ha p _ =>
      ha.trans (setsOutAlike_absorbPiece a l p 0)

/-! ### The splitter's answer -/

/-- A request whose only piece failed is answered with its cause. -/
theorem State.fmAnswer_failed (s : State) (pk : Packet) {r : FmPart} (hat : r.at_ < 64) (hcause : r.cause ≠ 0) :
    s.fmAnswer pk [r] = s.answerErr pk r.cause := by
  have honly : ∀ i q, ([r].find? fun p => decide (p.at_ = i)) = some q → q = r := fun i q hq => by
    simpa using List.mem_of_find?_eq_some hq
  have hmem : r ∈ (List.range 64).filterMap fun i => [r].find? fun p => decide (p.at_ = i) :=
    List.mem_filterMap.mpr ⟨r.at_, List.mem_range.mpr hat, by simp⟩
  have hfind : (((List.range 64).filterMap fun i => [r].find? fun p => decide (p.at_ = i)).find? fun p => decide (p.cause ≠ 0)) = some r := by
    obtain ⟨q, hq⟩ := Option.isSome_iff_exists.mp ((List.find?_isSome (p := fun p : FmPart => decide (p.cause ≠ 0))).mpr ⟨r, hmem, decide_eq_true hcause⟩)
    obtain ⟨i, -, hi⟩ := List.mem_filterMap.mp (List.mem_of_find?_eq_some hq)
    rw [hq, honly i q hi]
  unfold State.fmAnswer
  dsimp only
  rw [hfind]

/-- A read of one piece at the port is answered at once. -/
theorem State.fmCut_single {s : State} {l : Nat} {e : FmReq} {p : Piece} (hseq : s.fmSeq = [e]) (hleft : e.left = [p])
    (hhere : fmPortOf (p.sc / 2) = l) (hdone : e.done = []) (hat : p.at_ < 64) (hcmd : e.pk.cmd = cRD) :
    s.fmCut l = (({ (List.range 4).foldl (fun a v => a.cutQueue l v) s with fmSeq := [] } : State).launch (cpleOf e.pk eBOARDED)) := by
  have hwithout : e.without l = { e with left := [], done := [⟨p.at_, [], eBOARDED⟩] } := by
    simp [FmReq.without, hleft, hhere, hdone]
  have hanswer : ∀ a : State, a.fmAnswer e.pk [⟨p.at_, [], eBOARDED⟩] = a.launch (cpleOf e.pk eBOARDED) := fun a => by
    rw [State.fmAnswer_failed a e.pk (r := ⟨p.at_, [], eBOARDED⟩) hat (show eBOARDED ≠ 0 by decide)]
    exact if_neg (by rw [hcmd]; decide)
  rw [State.fmCut_eq]
  dsimp only
  rw [State.fmSeq_cutQueues, hseq, List.map_cons, List.map_nil, hwithout]
  exact hanswer _

/-! ### A controller's port -/

theorem markBit_lt_of_fmPort {l : Nat} (h : fmPort l = true) : markBit l < 32 ∧ l < 32768 := by
  simp only [fmPort, decide_eq_true_eq] at h
  obtain ⟨hr, -, hx⟩ := h
  have hlt : l < 32768 := by
    unfold routerOf at hr
    omega
  refine ⟨?_, hlt⟩
  rw [markBit, if_pos hr]
  split <;> omega

section
variable {s : State} {l cause : Nat} (hopen : s.boarded l = false) (hport : fmPort l = true)
include hopen hport

theorem State.board_of_fmPort : s.board l cause = (((s.closed l cause).setBoarded l true).fmCut l).noteBoarded l cause := by
  have hnot : ¬ 32768 ≤ l := Nat.not_le.mpr (markBit_lt_of_fmPort hport).2
  simp only [State.board_of_open hopen, hport, hnot, if_false, if_true]

theorem State.boarded_board_fmPort : (s.board l cause).boarded l = true := by
  rw [State.board_of_fmPort hopen hport, State.boarded_of_marks (State.marks_noteBoarded _ l cause),
    State.boarded_of_marks (State.marks_fmCut _ l), State.boarded_setBoarded_same (.inr (markBit_lt_of_fmPort hport).1)]

/-- Beside its registers, a controller's port that is boarded up is one whose splitter has been cut. -/
theorem State.board_fmPort_regsDiffer : ∃ u, RegsDiffer (s.closed l cause) u ∧ RegsDiffer (u.fmCut l) (s.board l cause) := by
  rw [State.board_of_fmPort hopen hport]
  exact ⟨_, State.setBoarded_regsDiffer (markBit_lt_of_fmPort hport).2 true, State.noteBoarded_regsDiffer _ l cause⟩

omit hopen in
theorem State.owns_closed_of_fmPort : (s.closed l cause).owns = s.owns := by
  have howed : s.owedAt l = [] := if_pos hport
  rw [(congrArg State.owns (s.closed_frame l cause) :), howed]
  exact List.append_nil _

end

theorem RegsDiffer.splitter {s t : State} (h : RegsDiffer s t) : t.fmOut = s.fmOut ∧ t.fmSeq = s.fmSeq := by
  obtain ⟨rs, rfl⟩ := h
  exact ⟨rfl, rfl⟩

theorem RegsDiffer.ports {s t : State} (h : RegsDiffer s t) : t.owns = s.owns ∧ t.tins = s.tins ∧ t.srcs = s.srcs ∧ t.ledger = s.ledger := by
  obtain ⟨rs, rfl⟩ := h
  exact ⟨rfl, rfl, rfl, rfl⟩

theorem RegsDiffer.setsOutAlike {s t u : State} {i : Nat} (h : RegsDiffer t u) (hs : SetsOutAlike i s t) : SetsOutAlike i s u := by
  obtain ⟨rs, rfl⟩ := h
  exact ⟨hs.srcs, hs.low, hs.high⟩

/-- A port with one read of one piece: once it is boarded up, the read is answered and the splitter is empty. -/
theorem State.fmCut_answers {s u : State} {l : Nat} {e : FmReq} {p : Piece} (halike : SetsOutAlike l s u) (hseq : u.fmSeq = [e])
    (hleft : e.left = [p]) (hhere : fmPortOf (p.sc / 2) = l) (hdone : e.done = []) (hat : p.at_ < 64) (hdst : e.pk.dst = l)
    (hcmd : e.pk.cmd = cRD) : (u.fmCut l).fmSeq = [] ∧ (u.fmCut l).srcs = (s.launch (cpleOf e.pk eBOARDED)).srcs := by
  have hqueues : SetsOutAlike l s ((List.range 4).foldl (fun a v => a.cutQueue l v) u) :=
    List.foldlRecOn (motive := SetsOutAlike l s) _ _ halike fun a ha v _ => ha.trans (setsOutAlike_cutQueue a l v)
  have hsrc : (cpleOf e.pk eBOARDED).src = l := hdst
  rw [State.fmCut_single hseq hleft hhere hdone hat hcmd]
  generalize (List.range 4).foldl (fun a v => a.cutQueue l v) u = a at hqueues
  generalize cpleOf e.pk eBOARDED = pk at hsrc
  subst hsrc
  exact ⟨State.fmSeq_launch _ pk, hqueues.noRequests.launch.srcs⟩

/-- A controller's port that is boarded up: its queues at the splitter and the pieces there are gone, and the splitter answers. -/
theorem board_fmPort_clause {s : State} {l cause : Nat} (hopen : s.boarded l = false) (hport : fmPort l = true) :
    let t := s.board l cause
    t.boarded l = true ∧ t.owns = s.owns ∧ t.tins = s.tins ∧ (∀ v, v < 4 → (t.fmQueue l v).pks = []) ∧
    (∀ e ∈ t.fmSeq, ∀ p ∈ e.left, fmPortOf (p.sc / 2) ≠ l) ∧
    (∀ e p, s.fmSeq = [e] → e.left = [p] → fmPortOf (p.sc / 2) = l → e.done = [] → p.at_ < 64 → e.pk.dst = l → e.pk.cmd = cRD →
      t.fmSeq = [] ∧ t.srcs = (s.launch (cpleOf e.pk eBOARDED)).srcs) := by
  dsimp only
  refine ⟨State.boarded_board_fmPort hopen hport, ?_⟩
  obtain ⟨u, hu, ht⟩ := State.board_fmPort_regsDiffer (cause := cause) hopen hport
  have hclosed : (s.closed l cause).owns = s.owns := State.owns_closed_of_fmPort hport
  have htins : (s.closed l cause).tins = s.tins := (congrArg State.tins (s.closed_frame l cause) :)
  have hseq : (s.closed l cause).fmSeq = s.fmSeq := (congrArg State.fmSeq (s.closed_frame l cause) :)
  have halike := hu.setsOutAlike (setsOutAlike_closed s l cause)
  generalize s.board l cause = t at ht ⊢
  generalize s.closed l cause = c at hu hclosed htins hseq
  obtain ⟨howns, htinsu, -, -⟩ := hu.ports
  obtain ⟨howns', htins', hsrcs', -⟩ := ht.ports
  obtain ⟨hout', hseq'⟩ := ht.splitter
  refine ⟨?_, ?_, fun v hv => ?_, fun e he p hp => ?_, fun e p hse hleft hhere hdone hat hdst hcmd => ?_⟩
  · rw [howns', (u.owns_fmCut l).1, howns, hclosed]
  · rw [htins', (u.owns_fmCut l).2, htinsu, htins]
  · rw [State.fmQueue, hout']
    exact u.fmQueue_fmCut l hv
  · rw [hseq'] at he
    exact State.left_fmCut he hp
  · rw [hseq', hsrcs']
    exact State.fmCut_answers halike (hu.splitter.2.trans (hseq.trans hse)) hleft hhere hdone hat hdst hcmd

end Sys2Proof.Machine
end

section
/-!
PROOF. A port that is unboarded (R200).
-/
namespace Sys2Proof.Machine
open Sys2Proof.Claims

/-! ### What stands at the other end of the link -/

/-- The state without what an unboarded port's peer holds for it: inputs, packets crossing, stages. The target queues stand beside it. -/
def State.offPeer (s : State) : State × SMap (List TFlit) := ({ s with inqs := [], ledger := [], worms := [], stages := [], tins := [] }, s.tins)

theorem State.offPeer_foldl {α : Type} (f : State → α → State) (l : List α) (s : State) (hf : ∀ a i, (f a i).offPeer = a.offPeer) :
    (l.foldl f s).offPeer = s.offPeer :=
  List.foldlRecOn (motive := fun a : State => a.offPeer = s.offPeer) l f rfl fun a ha i _ => (hf a i).trans ha

theorem State.offPeer_setLed (s : State) (l i : Nat) (x : HWord) : (s.setLed l i x).offPeer = s.offPeer := rfl

theorem State.offPeer_freeFlits (s : State) (j v n : Nat) : (s.freeFlits j v n).offPeer = s.offPeer := by
  unfold State.freeFlits State.setIocc State.setChanFields
  dsimp only
  split
  · exact (State.offPeer_setLed _ _ _ _).trans ((State.offPeer_setLed _ _ _ _).trans (State.offPeer_setLed _ _ _ _))
  · exact (State.offPeer_setLed _ _ _ _).trans (State.offPeer_setLed _ _ _ _)

/-- What the router and the hinge at the other end of a link hold is given up when the port opens. -/
def State.clearPeer (s : State) (l : Nat) : State :=
  match peerPort l with
  | some j => (List.range 8).foldl (fun (a : State) v => ((a.freeFlits j v 4).setInq j v []).setWorm j v {}) s
  | none => match stageOf l with
    | some (e, x) => (List.range 8).foldl (fun a v => a.setStage e x v { a.stage e x v with out := [] }) s
    | none => s

theorem State.offPeer_clearPeer (s : State) (l : Nat) : (s.clearPeer l).offPeer = s.offPeer := by
  have hinq : ∀ (a : State) i v x, (a.setInq i v x).offPeer = a.offPeer := fun _ _ _ _ => rfl
  have hworm : ∀ (a : State) i v w, (a.setWorm i v w).offPeer = a.offPeer := fun _ _ _ _ => rfl
  have hstage : ∀ (a : State) e x v y, (a.setStage e x v y).offPeer = a.offPeer := fun _ _ _ _ _ => rfl
  unfold State.clearPeer
  split
  · exact State.offPeer_foldl _ _ _ fun a v => by rw [hworm, hinq, State.offPeer_freeFlits]
  · split
    · exact State.offPeer_foldl _ _ _ fun a v => hstage _ _ _ _ _
    · rfl

theorem State.kept_of_offPeer {s t : State} (h : t.offPeer = s.offPeer) :
    t.marks = s.marks ∧ t.owns = s.owns ∧ t.tins = s.tins ∧ t.srcs = s.srcs :=
  have hrest : ({ t with inqs := [], ledger := [], worms := [], stages := [], tins := [] } : State) =
    { s with inqs := [], ledger := [], worms := [], stages := [], tins := [] } := congrArg Prod.fst h
  ⟨State.marks_of_regs (congrArg State.stageBrd hrest :) (congrArg State.regs hrest :), (congrArg State.owns hrest :), congrArg Prod.snd h,
    (congrArg State.srcs hrest :)⟩

/-! ### The controllers that waited -/

/-- The state without the controllers and the registers; the marks stand beside it. -/
def State.offDdr (s : State) : State × (SMap Bool × (Nat → HWord)) := ({ s with regs := [], ddrs := [] }, s.marks)

theorem State.offDdr_setFld (s : State) {off : Nat} (f : Fld) (n : Nat) (h : markAt off = false) : (s.setFld off f n).offDdr = s.offDdr :=
  Prod.ext rfl (s.marks_setFld f n h)

theorem State.offDdr_setDdrState (s : State) {c : Nat} (hc : c < 8) (st : Nat) : (s.setDdrState c st).offDdr = s.offDdr := by
  have hstatus : markAt (R.DDR_STATUS c) = false := by
    unfold markAt R.DDR_STATUS
    rw [decide_eq_false_iff_not]
    omega
  unfold State.setDdrState
  extract_lets s0 s1
  have h0 : s0.offDdr = s.offDdr := (State.offDdr_setFld _ _ _ hstatus).trans (State.offDdr_setFld _ _ _ hstatus)
  have h1 : s1.offDdr = s.offDdr := by
    simp only [s1]
    split
    · exact (State.offDdr_setFld _ _ _ hstatus).trans h0
    · exact h0
  exact (State.offDdr_setFld _ _ _ (by decide)).trans h1

theorem State.offDdr_ddrSettle (s : State) {c : Nat} (hc : c < 8) : (s.ddrSettle c).offDdr = s.offDdr := by
  have hset : ∀ x, (s.setDdr c x).offDdr = s.offDdr := fun _ => rfl
  unfold State.ddrSettle
  split
  · dsimp only
    split
    · exact (State.offDdr_setDdrState _ hc 3).trans (hset _)
    · exact hset _
  · rfl

theorem State.offDdr_ddrSettles (s : State) : ((List.range 8).foldl State.ddrSettle s).offDdr = s.offDdr :=
  List.foldlRecOn (motive := fun a : State => a.offDdr = s.offDdr) _ _ rfl fun a ha _ hc => (a.offDdr_ddrSettle (List.mem_range.mp hc)).trans ha

theorem State.kept_of_offDdr {s t : State} (h : t.offDdr = s.offDdr) :
    t.marks = s.marks ∧ t.owns = s.owns ∧ t.tins = s.tins ∧ t.srcs = s.srcs ∧ t.ledger = s.ledger ∧ t.tracked = s.tracked :=
  have hrest : ({ t with regs := [], ddrs := [] } : State) = { s with regs := [], ddrs := [] } := congrArg Prod.fst h
  ⟨congrArg Prod.snd h, (congrArg State.owns hrest :), (congrArg State.tins hrest :), (congrArg State.srcs hrest :),
    (congrArg State.ledger hrest :), (congrArg State.tracked hrest :)⟩

/-! ### The port -/

theorem State.unboardNow_of_boarded {s : State} {l : Nat} (hex : s.portExists l = true) (hb : s.boarded l = true)
    (hpark : s.parkBrd.contains l = false) : s.unboardNow l = (List.range 8).foldl State.ddrSettle ((s.clearPeer l).unboard l) := by
  unfold State.unboardNow
  rw [if_neg (by simp only [hex, hb, hpark]; decide)]
  rfl

theorem State.tin_setTin (s : State) (l v w : Nat) (x : List TFlit) : (s.setTin l v x).tin l w = if w = v then x else s.tin l w := by
  by_cases h : w = v
  · rw [if_pos h, h]
    exact SMap.get_set_same _ _ _ _
  · rw [if_neg h]
    exact SMap.get_set_other _ _ _ _ _ _ (by simpa [vcKey] using h)

/-- The request queues at a port emptied, n channels of them. -/
theorem State.tin_emptied (s : State) (l n w : Nat) :
    ((List.range n).foldl (fun (a : State) v => a.setTin l v []) s).tin l w = if w < n then [] else s.tin l w := by
  induction n with
  | zero => rfl
  | succ n ih =>
    rw [List.range_succ, List.foldl_append, List.foldl_cons, List.foldl_nil, State.tin_setTin, ih]
    by_cases h : w = n
    · rw [if_pos h, if_pos (by omega)]
    · rw [if_neg h]
      exact if_congr (by omega) rfl rfl

theorem State.emptied_frame (s : State) (l : Nat) (vs : List Nat) : ∃ m, vs.foldl (fun (a : State) v => a.setTin l v []) s = { s with tins := m } :=
  List.foldlRecOn (motive := fun a : State => ∃ m, a = { s with tins := m }) vs _ ⟨s.tins, rfl⟩ fun _ ⟨m, hm⟩ v _ =>
    ⟨SMap.set [] m (vcKey l v) [], hm ▸ rfl⟩

/-- The port of an unboarded link: open, with full credits, empty request queues, and nothing tracked. -/
structure Unboarded (l : Nat) (s t : State) : Prop where
  opened : t.boarded l = false
  credits : ∀ v, v < 8 → t.avail l v = linkDepth l
  queues : ∀ v, t.tin l v = if v < 4 then [] else s.tin l v
  tracked : ∀ u ∈ t.tracked, u.link ≠ l
  srcs : t.srcs = s.srcs
  owns : t.owns = s.owns

/-- What a port's opening changes beside its own mark and its ledger. -/
theorem State.unboard_unboarded {s : State} {l : Nat} (hl : l < 32768) (hbit : markBit l < 32) (hb : s.boarded l = true) :
    Unboarded l s (s.unboard l) := by
  have hfill := s.reclaim_frame l false
  have havail := fun v (hv : v < 8) => s.avail_reclaim l false hv
  unfold State.unboard
  rw [if_pos hb]
  generalize s.reclaim l false = a at hfill havail
  obtain ⟨m, hm⟩ := a.emptied_frame l (List.range 4)
  have htin := fun v => a.tin_emptied l 4 v
  generalize (List.range 4).foldl (fun (a : State) v => a.setTin l v []) a = b at hm htin
  have hopen := State.boarded_setBoarded_same (s := b) (.inr hbit) false
  obtain ⟨rs, hrs⟩ := State.setBoarded_regsDiffer (s := b) hl false
  dsimp only
  generalize b.setBoarded l false = c at hopen hrs
  have hatins : a.tins = s.tins := (congrArg State.tins hfill :)
  constructor
  · exact (State.boarded_of_marks (State.marks_of_regs rfl rfl) l).trans hopen
  · intro v hv
    refine (State.avail_of_ledger ?_ l v).trans (havail v hv)
    exact (congrArg State.ledger hrs :).trans (congrArg State.ledger hm :)
  · intro v
    have hc : c.tins = b.tins := (congrArg State.tins hrs :)
    show SMap.get [] c.tins (vcKey l v) = _
    rw [hc]
    refine (htin v).trans ?_
    rw [State.tin, State.tin, hatins]
  · intro u hu
    simpa using (List.mem_filter.mp hu).2
  · exact (congrArg State.srcs hrs :).trans ((congrArg State.srcs hm :).trans (congrArg State.srcs hfill :))
  · exact (congrArg State.owns hrs :).trans ((congrArg State.owns hm :).trans (congrArg State.owns hfill :))

theorem State.unboardNow_unboarded {s : State} {l : Nat} (hl : l < 32768) (hex : s.portExists l = true) (hb : s.boarded l = true)
    (hpark : s.parkBrd.contains l = false) : Unboarded l s (s.unboardNow l) := by
  obtain ⟨hmarks, howns, htins, hsrcs⟩ := State.kept_of_offPeer (s.offPeer_clearPeer l)
  have hopen := State.unboard_unboarded hl (State.markBit_lt hex) ((State.boarded_of_marks hmarks l).trans hb)
  obtain ⟨hmarks', howns', htins', hsrcs', hledger, htracked⟩ := State.kept_of_offDdr ((s.clearPeer l).unboard l).offDdr_ddrSettles
  rw [State.unboardNow_of_boarded hex hb hpark]
  generalize (s.clearPeer l).unboard l = a at *
  generalize (List.range 8).foldl State.ddrSettle a = t at *
  refine ⟨(State.boarded_of_marks hmarks' l).trans hopen.opened, fun v hv => (State.avail_of_ledger hledger l v).trans (hopen.credits v hv),
    fun v => ?_, fun u hu => hopen.tracked u (htracked ▸ hu), hsrcs'.trans (hopen.srcs.trans hsrcs), howns'.trans (hopen.owns.trans howns)⟩
  have h := hopen.queues v
  rw [State.tin, State.tin, htins] at h
  rw [State.tin, State.tin, htins', h]

end Sys2Proof.Machine
end

section
/-!
PROOF. The commands of a router's port, its timers, and the capture of its counters (R197-R200, R203).
-/
namespace Sys2Proof.Machine
open Sys2Proof.Claims

/-! ### A command reaches a port -/

section
variable {s : State} {l : Nat}

theorem State.dieDark_of_routerRuns {r : Nat} (hr : r ≠ 256) (hruns : s.routerRuns r = true) : s.dieDark (r / 64) = false := by
  simp only [State.routerRuns, if_neg hr, Bool.and_eq_true, Bool.not_eq_true'] at hruns
  exact hruns.1

theorem State.reachPort_of_path (hruns : s.routerRuns (routerOf l) = true) (hpath : routerOf l = 256 ∨ s.pathUp (routerOf l / 64) = true)
    (b : Nat) (f : State → State) : s.reachPort l b f = f s := by
  unfold State.reachPort
  dsimp only
  split <;> rename_i hr
  · rfl
  · exact State.reach_of_reached ⟨State.dieDark_of_routerRuns hr hruns, hpath.resolve_left hr⟩

theorem State.brdCmd_of_runs (hruns : s.routerRuns (routerOf l) = true) (b : Bool) :
    s.brdCmd l b = if b then s.boardNow l else s.unboardNow l := if_pos hruns

/-- A command for a port whose router's clock stands waits. -/
theorem State.brdCmd_waits (hstands : s.routerRuns (routerOf l) = false) (hr : routerOf l < 256) (hreached : DieReached s (routerOf l / 64))
    (b : Bool) : s.brdCmd l b =
      s.setPane (routerOf l) { s.pane (routerOf l) with brds := (s.pane (routerOf l)).brds ++ [(l, b)] } := by
  have hnot : ¬ (routerOf l = 256 ∨ s.dieDark (routerOf l / 64) = true) := by
    rw [hreached.1]
    rintro (h | h)
    · exact Nat.ne_of_lt hr h
    · cases h
  unfold State.brdCmd
  dsimp only
  rw [if_neg (ne_true_of_eq_false hstands), if_neg hnot]

theorem State.reachPort_of_reached (hr : routerOf l < 256) (hreached : DieReached s (routerOf l / 64)) (b : Nat) (f : State → State) :
    s.reachPort l b f = f s := by
  unfold State.reachPort
  dsimp only
  rw [if_neg (Nat.ne_of_lt hr), State.reach_of_reached hreached]

end

section
variable {s : State} {l : Fin 16448} (hruns : s.routerRuns (routerOf l) = true)
include hruns

theorem exec_trCmdBoard (hex : s.portExists l = true) (hpath : routerOf l = 256 ∨ s.pathUp (routerOf l / 64) = true) :
    exec (.trCmdBoard l) s = .next (s.board l 0) := by
  refine congrArg Host.Outcome.next ((State.reachPort_of_path hruns hpath 16 _).trans ((State.brdCmd_of_runs hruns true).trans ?_))
  exact if_pos hex

theorem exec_trCmdUnboard (hpath : routerOf l = 256 ∨ s.pathUp (routerOf l / 64) = true) :
    exec (.trCmdUnboard l) s = .next (s.unboardNow l) :=
  congrArg Host.Outcome.next ((State.reachPort_of_path hruns hpath 0 _).trans (State.brdCmd_of_runs hruns false))

theorem exec_trCmdUnboard_open (hpath : routerOf l = 256 ∨ s.pathUp (routerOf l / 64) = true)
    (h : s.boarded l = false ∨ s.parkBrd.contains l.val = true) : exec (.trCmdUnboard l) s = .next s := by
  rw [exec_trCmdUnboard hruns hpath, State.unboardNow, if_pos]
  rcases h with h | h
  · exact .inr (.inl (ne_true_of_eq_false h))
  · exact .inr (.inr h)

/-! ### The timers of a port -/

/-- A credit timer boards the port up, once. -/
theorem exec_creditTimeout_of_lack {v : Fin 8} (hex : s.portExists l = true) (htocr : s.fld (trCtl (routerOf l)) F.TR_CTL.TOCR ≠ 0)
    (hlacks : ((inputsOf (routerOf l)).any fun i => match s.front i v with
        | some f => decide (s.fate (routerOf l) i v f = .send l.val) && s.noCredit l v f
        | none => false) = true ∨ s.fmLacks l v = true) :
    exec (.creditTimeout l v) s = .next (s.board l 1) := by
  refine congrArg Host.Outcome.next ?_
  by_cases hb : s.boarded l = true
  · rw [State.board_of_boarded hb]
    exact ite_self s
  · exact if_pos ⟨htocr, hex, hruns, hb, hlacks⟩

theorem exec_creditTimeout_of_flit {v : Fin 8} {i : Nat} {f : TFlit} (hex : s.portExists l = true)
    (htocr : s.fld (trCtl (routerOf l)) F.TR_CTL.TOCR ≠ 0) (hi : i ∈ inputsOf (routerOf l)) (hfront : s.front i v = some f)
    (hfate : s.fate (routerOf l) i v f = .send l) (hno : s.noCredit l v f = true) :
    exec (.creditTimeout l v) s = .next (s.board l 1) :=
  exec_creditTimeout_of_lack hruns hex htocr (.inl (List.any_eq_true.mpr ⟨i, hi, by simp [hfront, hfate, hno]⟩))

theorem exec_creditTimeout_of_queue {v : Fin 8} {pk : Packet} {rest : List Packet} (hex : s.portExists l = true)
    (htocr : s.fld (trCtl (routerOf l)) F.TR_CTL.TOCR ≠ 0) (hq : (s.fmQueue l v).pks = pk :: rest)
    (hno : s.noCredit l v (flitAt pk (s.fmQueue l v).done) = true) : exec (.creditTimeout l v) s = .next (s.board l 1) := by
  refine exec_creditTimeout_of_lack hruns hex htocr (.inr ?_)
  simp only [State.fmLacks, hq, hno]

theorem exec_completionTimeout {u : Tracked} (hex : s.portExists l = true) (htocp : s.fld (trCtl (routerOf l)) F.TR_CTL.TOCP ≠ 0)
    (hlocal : localPort l = true) (hu : u ∈ s.tracked) (hlink : u.link = l.val) (hposted : u.posted = false) (hcpl : u.cpl = false) :
    exec (.completionTimeout l) s = .next (s.board l 2) := by
  refine congrArg Host.Outcome.next (if_pos ⟨htocp, hlocal, hex, hruns, List.any_eq_true.mpr ⟨u, hu, ?_⟩⟩)
  simp [hlink, hposted, hcpl]

end

/-! ### Counters captured -/

/-- The registers that show a list of values, where each has an address of its own. -/
theorem State.reg_foldl_setReg_range (at_ : Nat → Nat) (val : Nat → HWord) (s : State) {n i : Nat}
    (hinj : ∀ i j, i < n → j < n → at_ i = at_ j → i = j) (hi : i < n) :
    ((List.range n).foldl (fun a k => a.setReg (at_ k) (val k)) s).reg (at_ i) = val i := by
  induction n with
  | zero => exact absurd hi (Nat.not_lt_zero i)
  | succ n ih =>
    rw [List.range_succ, List.foldl_append, List.foldl_cons, List.foldl_nil]
    obtain hlt | rfl := Nat.lt_succ_iff_lt_or_eq.1 hi
    · rw [State.reg_setReg_other _ _ fun h => Nat.ne_of_lt hlt (hinj i n hi n.lt_succ_self h)]
      exact ih (fun i j hi hj => hinj i j (hi.trans n.lt_succ_self) (hj.trans n.lt_succ_self)) hlt
    · rw [State.reg_setReg_same]

theorem RegsDiffer.foldl_setReg {s t : State} (h : RegsDiffer s t) (at_ : Nat → Nat) (val : Nat → HWord) (l : List Nat) :
    RegsDiffer s (l.foldl (fun a i => a.setReg (at_ i) (val i)) t) :=
  List.foldlRecOn (motive := RegsDiffer s) l _ h fun _ ha _ _ => ha.setReg _ _

theorem State.captureRouter_regsDiffer (s : State) (r : Nat) : RegsDiffer s (s.captureRouter r) := by
  unfold State.captureRouter
  split
  · exact (RegsDiffer.refl s).foldl_setReg (fun i => R.HTR_LEDGER (i / 16) (i % 16)) _ _
  · exact (RegsDiffer.refl s).foldl_setReg (fun i => R.TR_LEDGER (r / 64) (r % 64) (i / 16) (i % 16)) _ _

theorem State.captureRouter_pane (s : State) {r : Nat} (hr : r ≠ 256) : s.captureRouter r =
    (List.range 192).foldl (fun a i =>
      a.setReg (R.TR_LEDGER (r / 64) (r % 64) (i / 16) (i % 16)) (s.ledShown (portId r (i / 16)) (i % 16))) s := if_neg hr

theorem State.captureRouter_hub (s : State) : s.captureRouter 256 =
    (List.range 528).foldl (fun a i => a.setReg (R.HTR_LEDGER (i / 16) (i % 16)) (s.ledShown (portId 256 (i / 16)) (i % 16))) s := rfl

/-- The counters of a router in a die, as its capture shows them. -/
theorem State.reg_captureRouter_pane (s : State) {r x k : Nat} (hr : r ≠ 256) (hx : x < 12) (hk : k < 16) :
    (s.captureRouter r).reg (R.TR_LEDGER (r / 64) (r % 64) x k) = s.ledShown (portId r x) k := by
  have hinj : ∀ i j, i < 192 → j < 192 → R.TR_LEDGER (r / 64) (r % 64) (i / 16) (i % 16) = R.TR_LEDGER (r / 64) (r % 64) (j / 16) (j % 16) →
      i = j := by
    intro i j _ _ h
    unfold R.TR_LEDGER at h
    omega
  have hreg := State.reg_foldl_setReg_range (fun i => R.TR_LEDGER (r / 64) (r % 64) (i / 16) (i % 16))
    (fun i => s.ledShown (portId r (i / 16)) (i % 16)) s hinj (show 16 * x + k < 192 by omega)
  have hdiv : (16 * x + k) / 16 = x := by omega
  have hmod : (16 * x + k) % 16 = k := by omega
  rw [hdiv, hmod] at hreg
  rw [s.captureRouter_pane hr]
  exact hreg

theorem State.reg_captureRouter_hub (s : State) {x k : Nat} (hx : x < 33) (hk : k < 16) :
    (s.captureRouter 256).reg (R.HTR_LEDGER x k) = s.ledShown (portId 256 x) k := by
  have hinj : ∀ i j, i < 528 → j < 528 → R.HTR_LEDGER (i / 16) (i % 16) = R.HTR_LEDGER (j / 16) (j % 16) → i = j := by
    intro i j _ _ h
    unfold R.HTR_LEDGER at h
    omega
  have hreg := State.reg_foldl_setReg_range (fun i => R.HTR_LEDGER (i / 16) (i % 16)) (fun i => s.ledShown (portId 256 (i / 16)) (i % 16)) s hinj
    (show 16 * x + k < 528 by omega)
  have hdiv : (16 * x + k) / 16 = x := by omega
  have hmod : (16 * x + k) % 16 = k := by omega
  rw [hdiv, hmod] at hreg
  rw [s.captureRouter_hub]
  exact hreg

/-- Where a router's capture writes. -/
theorem State.reg_captureRouter_other (s : State) {r off : Nat}
    (hhub : r = 256 → ∀ x k, x < 33 → k < 16 → off ≠ R.HTR_LEDGER x k)
    (hpane : r ≠ 256 → ∀ x k, x < 12 → k < 16 → off ≠ R.TR_LEDGER (r / 64) (r % 64) x k) : (s.captureRouter r).reg off = s.reg off := by
  have hfold : ∀ (n : Nat) (at_ : Nat → Nat) (val : Nat → HWord), (∀ i, i < n → off ≠ at_ i) →
      ((List.range n).foldl (fun a i => a.setReg (at_ i) (val i)) s).reg off = s.reg off := fun n at_ val h =>
    List.foldlRecOn (motive := fun a : State => a.reg off = s.reg off) _ _ rfl fun a ha i hi =>
      (State.reg_setReg_other a _ (h i (List.mem_range.mp hi))).trans ha
  by_cases hr : r = 256
  · subst hr
    rw [s.captureRouter_hub]
    exact hfold 528 _ _ fun i hi => hhub rfl _ _ (by omega) (by omega)
  · rw [s.captureRouter_pane hr]
    exact hfold 192 _ _ fun i hi => hpane hr _ _ (by omega) (by omega)

/-! ### The capture of one router -/

section
variable {s : State} {d : Fin 4} {p : Fin 64}

theorem paneId_div (d : Fin 4) (p : Fin 64) : paneId d p / 64 = d.val ∧ paneId d p % 64 = p.val ∧ paneId d p ≠ 256 := by
  unfold paneId
  omega

/-- A router's capture writes its counters and counts in SEQ. -/
theorem exec_trCmdSnap (hruns : s.routerRuns (paneId d p) = true) (hup : s.pathUp d = true) : exec (.trCmdSnap d p) s =
    .next ((s.captureRouter (paneId d p)).setFld (R.TR_STAT d p) F.TR_STAT.SEQ (s.fld (R.TR_STAT d p) F.TR_STAT.SEQ + 1)) := by
  obtain ⟨hdiv, hmod, hne⟩ := paneId_div d p
  have hdark := State.dieDark_of_routerRuns hne hruns
  rw [hdiv] at hdark
  refine congrArg Host.Outcome.next ((State.reach_of_reached ⟨hdark, hup⟩).trans ?_)
  unfold State.snapCmd
  rw [if_pos hruns, hdiv, hmod]

theorem trCmdSnap_clause (hruns : s.routerRuns (paneId d p) = true) (hup : s.pathUp d = true) : ∃ t, exec (.trCmdSnap d p) s = .next t ∧
    t = { s with regs := t.regs } ∧
    (∀ x k, x < 12 → k < 16 → t.reg (R.TR_LEDGER d p x k) = if s.portExists (portId (paneId d p) x) then s.led (portId (paneId d p) x) k else 0) ∧
    t.fld (R.TR_STAT d p) F.TR_STAT.SEQ = (s.fld (R.TR_STAT d p) F.TR_STAT.SEQ + 1) % 2 ^ (F.TR_STAT.SEQ.hi + 1 - F.TR_STAT.SEQ.lo) := by
  obtain ⟨hdiv, hmod, hne⟩ := paneId_div d p
  refine ⟨_, exec_trCmdSnap hruns hup, ?_, fun x k hx hk => ?_, State.fld_setFld_same _ _ _ _ (by decide) (by decide)⟩
  · exact ((s.captureRouter_regsDiffer (paneId d p)).setFld _ _ _).frame
  · rw [State.reg_setFld_other _ _ _ (by unfold R.TR_LEDGER R.TR_STAT; omega)]
    have hreg := s.reg_captureRouter_pane hne hx hk
    rw [hdiv, hmod] at hreg
    exact hreg

/-- A router whose clock stands is captured at its first edge. -/
theorem exec_trCmdSnap_waits (hstands : s.routerRuns (paneId d p) = false) (hreached : DieReached s d) :
    exec (.trCmdSnap d p) s =
      .next (s.setPane (paneId d p) { s.pane (paneId d p) with snaps := (s.pane (paneId d p)).snaps + 1 }) := by
  obtain ⟨hdiv, -, -⟩ := paneId_div d p
  refine congrArg Host.Outcome.next ((State.reach_of_reached hreached).trans ?_)
  unfold State.snapCmd
  rw [if_neg (ne_true_of_eq_false hstands), if_neg (by rw [hdiv, hreached.1]; exact Bool.false_ne_true)]

end

theorem exec_trGsnapGo (s : State) (v : BitVec 32) :
    exec (.trGsnapGo v) s = .next { s.writeReg R.TR_GSNAP (v ||| 0x80000000) with gsnap := true } := by
  have hbit : (v ||| 0x80000000#32).getLsbD 31 = true := by
    rw [BitVec.getLsbD_or]
    exact Bool.or_eq_true_iff.mpr (.inr (by decide))
  exact congrArg Host.Outcome.next (if_pos hbit)

end Sys2Proof.Machine
end

section
/-!
PROOF. The global capture (R203): the counters of the hub, of the hinge ends and of every router.
-/
namespace Sys2Proof.Machine
open Sys2Proof.Claims

/-- What one step of a fold brings about, and the others leave, holds after it. -/
theorem foldl_establishes {σ α : Type} {f : σ → α → σ} {I Q : σ → Prop} {l : List α} {i : α} {s : σ} (hi : i ∈ l) (hs : I s)
    (hinv : ∀ a, ∀ j ∈ l, I a → I (f a j)) (hdoes : ∀ a, I a → Q (f a i)) (hkeeps : ∀ a, ∀ j ∈ l, j ≠ i → I a → Q a → Q (f a j)) :
    Q (l.foldl f s) := by
  induction l generalizing s with
  | nil => cases hi
  | cons j l ih =>
    by_cases hmem : i ∈ l
    · exact ih hmem (hinv s j List.mem_cons_self hs) (fun a k hk => hinv a k (List.mem_cons_of_mem _ hk)) fun a k hk =>
        hkeeps a k (List.mem_cons_of_mem _ hk)
    · obtain rfl : i = j := (List.mem_cons.mp hi).resolve_right hmem
      have hlast : I (l.foldl f (f s i)) ∧ Q (l.foldl f (f s i)) :=
        List.foldlRecOn (motive := fun a => I a ∧ Q a) l f ⟨hinv s i List.mem_cons_self hs, hdoes s hs⟩ fun a ⟨ha, hq⟩ k hk =>
          ⟨hinv a k (List.mem_cons_of_mem _ hk) ha, hkeeps a k (List.mem_cons_of_mem _ hk) (fun h => hmem (h ▸ hk)) ha hq⟩
      exact hlast.2

/-! ### What a capture leaves alone -/

/-- Is this an address of the part of a register block in which captures stand? -/
def captureAt (off : Nat) : Bool := decide (0x401000 ≤ off ∧ (off < 0x1000000 ∨ 0x180000 ≤ off % 0x400000))

/-- From `s` to `t` there have been captures: of the registers only those that show them, of the panes and dies only the notes of captures. -/
structure Captures (s t : State) : Prop where
  frame : t = { s with regs := t.regs, panes := t.panes, dies := t.dies }
  regs : ∀ off, captureAt off = false → t.reg off = s.reg off
  off : ∀ d, (SMap.get {} t.dies d).off = (SMap.get {} s.dies d).off

section
variable {s t u : State}

theorem Captures.refl (s : State) : Captures s s := ⟨rfl, fun _ _ => rfl, fun _ => rfl⟩

theorem Captures.led (h : Captures s t) : t.led = s.led := by
  have hl : t.ledger = s.ledger := (congrArg State.ledger h.frame :)
  funext l i
  rw [State.led, State.led, hl]

theorem Captures.leaf (h : Captures s t) : t.leaf = s.leaf := by
  have hl : t.leaves = s.leaves := (congrArg State.leaves h.frame :)
  funext e j
  rw [State.leaf, State.leaf, hl]

theorem Captures.ledShown (h : Captures s t) : t.ledShown = s.ledShown := by
  have hcomp : t.hasCompanion = s.hasCompanion := by rw [State.hasCompanion, State.hasCompanion, State.fld, State.fld, h.regs _ (by decide)]
  funext l i
  rw [State.ledShown, State.ledShown, State.portExists, State.portExists, h.led, hcomp]

theorem Captures.routerRuns (h : Captures s t) {r : Nat} (hr : r ≠ 256) : t.routerRuns r = s.routerRuns r := by
  have hclk : captureAt (R.PANE_CLK (r / 64) (r % 64)) = false := by
    unfold captureAt R.PANE_CLK
    rw [decide_eq_false_iff_not]
    omega
  have hstep : t.reg R.HUB_STEP = s.reg R.HUB_STEP := h.regs _ (by decide)
  rw [State.routerRuns, State.routerRuns, if_neg hr, if_neg hr, State.dieDark, State.dieDark, h.off, hstep, State.flag, State.flag, State.fld,
    State.fld, h.regs _ hclk]

theorem Captures.setReg (h : Captures s t) {off : Nat} (v : HWord) (hoff : captureAt off = true) : Captures s (t.setReg off v) where
  frame := congrArg (fun a : State => { a with regs := (t.setReg off v).regs }) h.frame
  regs o ho := by
    have hne : o ≠ off := fun he => by
      rw [he, hoff] at ho
      cases ho
    rw [State.reg_setReg_other _ _ hne, h.regs o ho]
  off := h.off

theorem Captures.setPane (h : Captures s t) (r : Nat) (x : PaneSt) : Captures s (t.setPane r x) where
  frame := congrArg (fun a : State => { a with panes := (t.setPane r x).panes }) h.frame
  regs := h.regs
  off := h.off

/-- A note in a die whose power it does not touch. -/
theorem Captures.noteDie (h : Captures s t) (d : Nat) (b : Bool) :
    Captures s { t with dies := SMap.upd {} t.dies d fun x => { x with gcap := b } } where
  frame := congrArg (fun a : State => { a with dies := SMap.upd {} t.dies d fun x => { x with gcap := b } }) h.frame
  regs := h.regs
  off k := by
    refine Eq.trans ?_ (h.off k)
    by_cases hk : k = d
    · rw [hk, SMap.upd, SMap.get_set_same]
    · rw [SMap.upd, SMap.get_set_other _ _ _ _ _ _ hk]

theorem Captures.foldl (h : Captures s t) {α : Type} (f : State → α → State) (l : List α) (hf : ∀ a, ∀ i ∈ l, Captures s a → Captures s (f a i)) :
    Captures s (l.foldl f t) :=
  List.foldlRecOn (motive := Captures s) l f h fun a ha i hi => hf a i hi ha

theorem captureAt_pane (d p x k : Nat) (hp : p < 64) (hx : x < 12) (hk : k < 16) : captureAt (R.TR_LEDGER d p x k) = true := by
  unfold captureAt R.TR_LEDGER
  rw [decide_eq_true_eq]
  omega

theorem captureAt_hub (x k : Nat) (hx : x < 33) (hk : k < 16) : captureAt (R.HTR_LEDGER x k) = true := by
  unfold captureAt R.HTR_LEDGER
  rw [decide_eq_true_eq]
  omega

/-- Where the counters of a hinge end stand. -/
theorem hngBlock_range {e : Nat} (he : e < 14) : ∃ b, hngBlock e = b ∧
    ((0x410000 ≤ b ∧ b ≤ 0x411000 ∧ 12 ≤ e) ∨ (0x1180000 + e / 3 * 0x400000 ≤ b ∧ b ≤ 0x1182000 + e / 3 * 0x400000)) := by
  refine ⟨_, rfl, ?_⟩
  unfold hngBlock
  split <;> omega

theorem captureAt_stage {e x k : Nat} (he : e < 14) (hx : x < 8) (hk : k < 16) : captureAt (R.HNGTR_LEDGER e x k) = true := by
  obtain ⟨b, hb, hrange⟩ := hngBlock_range he
  unfold captureAt R.HNGTR_LEDGER
  rw [hb, decide_eq_true_eq]
  omega

theorem captureAt_leaf {e j k : Nat} (he : e < 14) (hj : j < 32) (hk : k < 4) : captureAt (R.HNG_LEDGER e j k) = true := by
  obtain ⟨b, hb, hrange⟩ := hngBlock_range he
  unfold captureAt R.HNG_LEDGER
  rw [hb, decide_eq_true_eq]
  omega

theorem Captures.captureRouter (h : Captures s t) (r : Nat) : Captures s (t.captureRouter r) := by
  by_cases hr : r = 256
  · subst hr
    rw [t.captureRouter_hub]
    refine h.foldl _ _ fun a i hi ha => ha.setReg _ ?_
    have := List.mem_range.mp hi
    exact captureAt_hub _ _ (by omega) (by omega)
  · rw [t.captureRouter_pane hr]
    refine h.foldl _ _ fun a i hi ha => ha.setReg _ ?_
    have := List.mem_range.mp hi
    exact captureAt_pane _ _ _ _ (by omega) (by omega) (by omega)

/-! ### A hinge end -/

/-- The four counters of leaf j of hinge end e. -/
def State.captureLeaf (s a : State) (e j : Nat) : State :=
  (((a.setReg (R.HNG_LEDGER e j 0) (s.leaf e j).cNew).setReg (R.HNG_LEDGER e j 1) (s.leaf e j).cAcked).setReg (R.HNG_LEDGER e j 2)
    (s.leaf e j).cRecalled).setReg (R.HNG_LEDGER e j 3) (BitVec.ofNat 32 (s.leaf e j).held.length)

/-- The counters of the stages of hinge end e. -/
def State.captureStages (s a : State) (e : Nat) : State :=
  (List.range 128).foldl (fun a i => a.setReg (R.HNGTR_LEDGER e (i / 16) (i % 16)) (s.led (stageLink e (i / 16)) (i % 16))) a

theorem State.snapEnd_eq {s : State} {e : Nat} (he : (hingeOf e).isNone = false) :
    s.snapEnd e = s.captureStages ((List.range 32).foldl (fun a j => s.captureLeaf a e j) s) e := if_neg (ne_true_of_eq_false he)

theorem Captures.captureLeaf (h : Captures s t) {e j : Nat} (he : e < 14) (hj : j < 32) (b : State) : Captures s (b.captureLeaf t e j) :=
  (((h.setReg _ (captureAt_leaf he hj (by decide))).setReg _ (captureAt_leaf he hj (by decide))).setReg _
    (captureAt_leaf he hj (by decide))).setReg _ (captureAt_leaf he hj (by decide))

theorem Captures.captureStages (h : Captures s t) {e : Nat} (he : e < 14) (b : State) : Captures s (b.captureStages t e) :=
  h.foldl _ _ fun a i hi ha => ha.setReg _ (by
    have := List.mem_range.mp hi
    exact captureAt_stage he (by omega) (by omega))

theorem Captures.snapEnd (h : Captures s t) {e : Nat} (he : e < 14) : Captures s (t.snapEnd e) := by
  cases hh : (hingeOf e).isNone
  · rw [State.snapEnd_eq hh]
    exact (h.foldl _ _ fun a j hj ha => ha.captureLeaf he (List.mem_range.mp hj) t).captureStages he t
  · rw [State.snapEnd, if_pos hh]
    exact h

end

theorem State.reg_captureLeaf_other (s a : State) {e j off : Nat} (h : ∀ k, k < 4 → off ≠ R.HNG_LEDGER e j k) :
    (s.captureLeaf a e j).reg off = a.reg off := by
  unfold State.captureLeaf
  rw [State.reg_setReg_other _ _ (h 3 (by decide)), State.reg_setReg_other _ _ (h 2 (by decide)), State.reg_setReg_other _ _ (h 1 (by decide)),
    State.reg_setReg_other _ _ (h 0 (by decide))]

theorem State.reg_captureStages_other (s a : State) {e off : Nat} (h : ∀ x k, x < 8 → k < 16 → off ≠ R.HNGTR_LEDGER e x k) :
    (s.captureStages a e).reg off = a.reg off :=
  List.foldlRecOn (motive := fun b : State => b.reg off = a.reg off) _ _ rfl fun b hb i hi =>
    (State.reg_setReg_other b _ (h _ _ (by have := List.mem_range.mp hi; omega) (by omega))).trans hb

/-- What the four registers of a leaf show. -/
def LeafShown (s t : State) (e j : Nat) : Prop :=
  t.reg (R.HNG_LEDGER e j 0) = (s.leaf e j).cNew ∧ t.reg (R.HNG_LEDGER e j 1) = (s.leaf e j).cAcked ∧
    t.reg (R.HNG_LEDGER e j 2) = (s.leaf e j).cRecalled ∧ t.reg (R.HNG_LEDGER e j 3) = BitVec.ofNat 32 (s.leaf e j).held.length

theorem leafShown_captureLeaf (s a : State) (e j : Nat) : LeafShown s (s.captureLeaf a e j) e j := by
  have hne : ∀ i k, i ≠ k → R.HNG_LEDGER e j i ≠ R.HNG_LEDGER e j k := fun i k h => by
    unfold R.HNG_LEDGER
    omega
  unfold State.captureLeaf
  refine ⟨?_, ?_, ?_, State.reg_setReg_same _ _ _⟩
  · rw [State.reg_setReg_other _ _ (hne 0 3 (by decide)), State.reg_setReg_other _ _ (hne 0 2 (by decide)),
      State.reg_setReg_other _ _ (hne 0 1 (by decide)), State.reg_setReg_same]
  · rw [State.reg_setReg_other _ _ (hne 1 3 (by decide)), State.reg_setReg_other _ _ (hne 1 2 (by decide)), State.reg_setReg_same]
  · rw [State.reg_setReg_other _ _ (hne 2 3 (by decide)), State.reg_setReg_same]

theorem LeafShown.congr {s t u : State} {e j : Nat} (h : LeafShown s t e j)
    (hreg : ∀ k, k < 4 → u.reg (R.HNG_LEDGER e j k) = t.reg (R.HNG_LEDGER e j k)) : LeafShown s u e j := by
  obtain ⟨h0, h1, h2, h3⟩ := h
  exact ⟨(hreg 0 (by decide)).trans h0, (hreg 1 (by decide)).trans h1, (hreg 2 (by decide)).trans h2, (hreg 3 (by decide)).trans h3⟩

theorem hngLedger_ne {e j j' k k' : Nat} (hj : j ≠ j') (hk : k < 4) (hk' : k' < 4) : R.HNG_LEDGER e j k ≠ R.HNG_LEDGER e j' k' := by
  unfold R.HNG_LEDGER
  omega

theorem hngLedger_ne_stage {e j k x k' : Nat} (hx : x < 8) (hk : k' < 16) : R.HNG_LEDGER e j k ≠ R.HNGTR_LEDGER e x k' := by
  unfold R.HNG_LEDGER R.HNGTR_LEDGER
  omega

/-- A hinge end's leaves, once it is captured. -/
theorem leafShown_snapEnd (s : State) {e j : Nat} (he : (hingeOf e).isNone = false) (hj : j < 32) : LeafShown s (s.snapEnd e) e j := by
  rw [State.snapEnd_eq he]
  refine LeafShown.congr ?_ fun k hk => State.reg_captureStages_other s _ fun x k' hx hk' => hngLedger_ne_stage hx hk'
  refine foldl_establishes (I := fun _ => True) (Q := fun a => LeafShown s a e j) (List.mem_range.mpr hj) trivial (fun _ _ _ _ => trivial)
    (fun a _ => leafShown_captureLeaf s a e j) fun a i _ hne _ hq => hq.congr fun k hk => ?_
  exact State.reg_captureLeaf_other s a fun k' hk' => hngLedger_ne hne.symm hk hk'

/-- A hinge end's stages, once it is captured. -/
theorem State.reg_stage_snapEnd (s : State) {e x k : Nat} (he : (hingeOf e).isNone = false) (hx : x < 8) (hk : k < 16) :
    (s.snapEnd e).reg (R.HNGTR_LEDGER e x k) = s.led (stageLink e x) k := by
  have hinj : ∀ i j, i < 128 → j < 128 → R.HNGTR_LEDGER e (i / 16) (i % 16) = R.HNGTR_LEDGER e (j / 16) (j % 16) → i = j := by
    intro i j _ _ h
    unfold R.HNGTR_LEDGER at h
    omega
  have hreg := State.reg_foldl_setReg_range (fun i => R.HNGTR_LEDGER e (i / 16) (i % 16)) (fun i => s.led (stageLink e (i / 16)) (i % 16))
    ((List.range 32).foldl (fun a j => s.captureLeaf a e j) s) hinj (show 16 * x + k < 128 by omega)
  have hdiv : (16 * x + k) / 16 = x := by omega
  have hmod : (16 * x + k) % 16 = k := by omega
  rw [hdiv, hmod] at hreg
  rw [State.snapEnd_eq he]
  exact hreg

/-- Where the capture of a hinge end writes. -/
theorem State.reg_snapEnd_other (s : State) {e off : Nat} (h : off < hngBlock e + 0x400 ∨ hngBlock e + 0x1000 ≤ off) :
    (s.snapEnd e).reg off = s.reg off := by
  cases hh : (hingeOf e).isNone
  · rw [State.snapEnd_eq hh, State.reg_captureStages_other]
    · refine List.foldlRecOn (motive := fun b : State => b.reg off = s.reg off) _ _ rfl fun b hb j hj => ?_
      have := List.mem_range.mp hj
      refine (State.reg_captureLeaf_other s b fun k hk => ?_).trans hb
      unfold R.HNG_LEDGER
      omega
    · intro x k hx hk
      unfold R.HNGTR_LEDGER
      omega
  · rw [State.snapEnd, if_pos hh]

/-! ### A die -/

/-- The routers of a die that is captured: those that run at once, the others at their first edge. -/
def State.captureRouters (s a : State) (d : Nat) (ps : List Nat) : State :=
  ps.foldl (fun a p => if s.routerRuns (paneId d p) then a.captureRouter (paneId d p)
    else a.setPane (paneId d p) { a.pane (paneId d p) with gcap := true }) a

theorem State.captureDie_eq (s : State) (d : Nat) : s.captureDie d =
    (let s2 := s.captureRouters ((List.range 3).foldl (fun a h => a.snapEnd (3 * d + h)) s) d (List.range 64)
     { s2 with dies := SMap.upd {} s2.dies d fun x => { x with gcap := false } }) := rfl

theorem State.reg_captureDie_eq (s : State) (d off : Nat) : (s.captureDie d).reg off =
    (s.captureRouters ((List.range 3).foldl (fun a h => a.snapEnd (3 * d + h)) s) d (List.range 64)).reg off := by
  rw [State.captureDie_eq]
  generalize s.captureRouters _ d (List.range 64) = a
  rfl

theorem State.pane_captureDie_eq (s : State) (d q : Nat) : (s.captureDie d).pane q =
    (s.captureRouters ((List.range 3).foldl (fun a h => a.snapEnd (3 * d + h)) s) d (List.range 64)).pane q := by
  rw [State.captureDie_eq]
  generalize s.captureRouters _ d (List.range 64) = a
  rfl

theorem Captures.captureRouters {s t : State} (h : Captures s t) (b : State) (d : Nat) (ps : List Nat) :
    Captures s (b.captureRouters t d ps) :=
  h.foldl _ _ fun _ _ _ ha => iteInduction (fun _ => ha.captureRouter _) fun _ => ha.setPane _ _

theorem Captures.snapEnds {s t : State} (h : Captures s t) {d : Nat} (hd : d < 4) :
    Captures s ((List.range 3).foldl (fun a h => a.snapEnd (3 * d + h)) t) :=
  h.foldl _ _ fun a i hi ha => ha.snapEnd (by have := List.mem_range.mp hi; omega)

theorem Captures.captureDie {s t : State} (h : Captures s t) {d : Nat} (hd : d < 4) : Captures s (t.captureDie d) := by
  rw [State.captureDie_eq]
  exact ((h.snapEnds hd).captureRouters t d _).noteDie d false

theorem paneId_parts {d p : Nat} (hd : d < 4) (hp : p < 64) : paneId d p ≠ 256 ∧ paneId d p / 64 = d ∧ paneId d p % 64 = p := by
  unfold paneId
  omega

/-- A capture of routers of die d writes only at their ledgers. -/
theorem State.reg_captureRouters_other (s a : State) {d off : Nat} (hd : d < 4) (ps : List Nat) (hps : ∀ p ∈ ps, p < 64)
    (h : ∀ p ∈ ps, ∀ x k, x < 12 → k < 16 → off ≠ R.TR_LEDGER d p x k) : (s.captureRouters a d ps).reg off = a.reg off := by
  refine List.foldlRecOn (motive := fun b : State => b.reg off = a.reg off) _ _ rfl fun b hb p hp => ?_
  obtain ⟨hne, hdiv, hmod⟩ := paneId_parts hd (hps p hp)
  dsimp only
  split
  · refine (State.reg_captureRouter_other b (fun he => absurd he hne) fun _ => ?_).trans hb
    rw [hdiv, hmod]
    exact h p hp
  · exact hb

/-- A capture of die d writes only in the die. -/
theorem State.reg_captureDie_other (s : State) {d off : Nat} (hd : d < 4)
    (h : off < 0x1000000 + d * 0x400000 ∨ 0x1000000 + d * 0x400000 + 0x400000 ≤ off) : (s.captureDie d).reg off = s.reg off := by
  have hends : ((List.range 3).foldl (fun a h => a.snapEnd (3 * d + h)) s).reg off = s.reg off :=
    List.foldlRecOn (motive := fun b : State => b.reg off = s.reg off) _ _ rfl fun b hb i hi => by
      have hi3 := List.mem_range.mp hi
      refine (State.reg_snapEnd_other b ?_).trans hb
      unfold hngBlock
      rw [if_pos (by omega)]
      omega
  rw [State.reg_captureDie_eq, State.reg_captureRouters_other s _ hd (List.range 64) (fun p hp => List.mem_range.mp hp), hends]
  intro p hp x k hx hk
  have := List.mem_range.mp hp
  unfold R.TR_LEDGER
  omega

/-- A router of die d that runs shows its counters. -/
theorem State.reg_captureDie (s : State) {d p x k : Nat} (hd : d < 4) (hp : p < 64) (hx : x < 12) (hk : k < 16)
    (hruns : s.routerRuns (paneId d p) = true) :
    (s.captureDie d).reg (R.TR_LEDGER d p x k) = s.ledShown (portId (paneId d p) x) k := by
  rw [State.reg_captureDie_eq]
  refine foldl_establishes (I := Captures s) (Q := fun a => a.reg (R.TR_LEDGER d p x k) = s.ledShown (portId (paneId d p) x) k)
    (List.mem_range.mpr hp) ((Captures.refl s).snapEnds hd) (fun a i _ ha => ?_) (fun a ha => ?_) fun a i hi hne _ hq => ?_
  · exact iteInduction (fun _ => ha.captureRouter _) fun _ => ha.setPane _ _
  · obtain ⟨hne, hdiv, hmod⟩ := paneId_parts hd hp
    have hreg := a.reg_captureRouter_pane hne hx hk
    rw [hdiv, hmod, ha.ledShown] at hreg
    rw [if_pos hruns]
    exact hreg
  · refine Eq.trans ?_ hq
    have hi64 := List.mem_range.mp hi
    obtain ⟨hne', hdiv, hmod⟩ := paneId_parts hd hi64
    split
    · refine State.reg_captureRouter_other a (fun he => absurd he hne') fun _ x' k' hx' hk' => ?_
      rw [hdiv, hmod]
      unfold R.TR_LEDGER
      omega
    · rfl

/-! ### Notes for the first edge -/

theorem State.pane_setPane (s : State) (r q : Nat) (x : PaneSt) : (s.setPane r x).pane q = if q = r then x else s.pane q := by
  by_cases h : q = r
  · rw [if_pos h, h]
    exact SMap.get_set_same _ _ _ _
  · rw [if_neg h]
    exact SMap.get_set_other _ _ _ _ _ _ h

theorem State.panes_captureRouter (s : State) (r : Nat) : (s.captureRouter r).pane = s.pane := by
  have h : (s.captureRouter r).panes = s.panes := (congrArg State.panes (s.captureRouter_regsDiffer r).frame :)
  funext q
  rw [State.pane, State.pane, h]

theorem State.gcap_captureRouters {s a : State} {d r : Nat} {ps : List Nat} (h : (a.pane r).gcap = true) :
    ((s.captureRouters a d ps).pane r).gcap = true := by
  refine List.foldlRecOn (motive := fun b : State => (b.pane r).gcap = true) _ _ h fun b hb p _ => ?_
  dsimp only
  split
  · rwa [State.panes_captureRouter]
  · rw [State.pane_setPane]
    split
    · rfl
    · exact hb

theorem State.panes_snapEnd (s : State) (e : Nat) : (s.snapEnd e).panes = s.panes := by
  cases hh : (hingeOf e).isNone
  · rw [State.snapEnd_eq hh]
    have hleaves : ((List.range 32).foldl (fun a j => s.captureLeaf a e j) s).panes = s.panes :=
      List.foldlRecOn (motive := fun a : State => a.panes = s.panes) _ _ rfl fun _ ha _ _ => ha
    exact List.foldlRecOn (motive := fun a : State => a.panes = s.panes) _ _ hleaves fun _ ha _ _ => ha
  · rw [State.snapEnd, if_pos hh]

theorem State.panes_snapEnds (s : State) (es : List Nat) (f : Nat → Nat) : (es.foldl (fun a h => a.snapEnd (f h)) s).pane = s.pane := by
  have h : (es.foldl (fun a h => a.snapEnd (f h)) s).panes = s.panes :=
    List.foldlRecOn (motive := fun a : State => a.panes = s.panes) _ _ rfl fun a ha _ _ => (a.panes_snapEnd _).trans ha
  funext q
  rw [State.pane, State.pane, h]

/-- A note for the first edge stays through the capture of a die. -/
theorem State.gcap_captureDie {s : State} {d r : Nat} (h : (s.pane r).gcap = true) : ((s.captureDie d).pane r).gcap = true := by
  rw [State.pane_captureDie_eq]
  refine State.gcap_captureRouters (a := (List.range 3).foldl (fun a h => a.snapEnd (3 * d + h)) s) ?_
  rwa [State.panes_snapEnds s _ (3 * d + ·)]

/-- A router of die d whose clock stands is noted. -/
theorem State.gcap_captureDie_of_stands {s : State} {d p : Nat} (hp : p < 64) (hstands : s.routerRuns (paneId d p) = false) :
    ((s.captureDie d).pane (paneId d p)).gcap = true := by
  rw [State.pane_captureDie_eq]
  refine foldl_establishes (I := fun _ => True) (Q := fun a : State => (a.pane (paneId d p)).gcap = true) (List.mem_range.mpr hp) trivial
    (fun _ _ _ _ => trivial) (fun a _ => ?_) fun a i _ _ _ hq => State.gcap_captureRouters (s := s) (a := a) (d := d) (ps := [i]) hq
  rw [hstands, if_neg Bool.false_ne_true, State.pane_setPane, if_pos rfl]

/-! ### The capture of all -/

/-- What the tick does in die d: it captures it, or notes that it is to be captured once reached. -/
def State.captureAtDie (s a : State) (d : Nat) : State := if s.pathUp d then a.captureDie d else a.captureLater d

/-- The dies that have power. -/
def State.litDies (s : State) : List Nat := (List.range 4).filter fun d => !s.dieDark d

theorem State.mem_litDies {s : State} {d : Nat} : d ∈ s.litDies ↔ d < 4 ∧ s.dieDark d = false := by
  simp [State.litDies]

/-- The hub's captures. -/
def State.captureHub (s : State) : State := [12, 13].foldl State.snapEnd (s.captureRouter 256)

theorem State.captureHub_eq (s : State) : s.captureHub = ((s.captureRouter 256).snapEnd 12).snapEnd 13 := by
  rw [State.captureHub, List.foldl_cons, List.foldl_cons, List.foldl_nil]

theorem exec_globalCapture {s : State} (hdue : s.gsnapDue ≠ 0) (hruns : s.hubRuns = true) : exec .globalCapture s =
    .next { (s.litDies.foldl s.captureAtDie s.captureHub).setFld R.TR_GSNAP F.TR_GSNAP.GSEQ (s.fld R.TR_GSNAP F.TR_GSNAP.GSEQ + 1) with
      gsnapDue := s.gsnapDue - 1 } := congrArg Host.Outcome.next (if_pos ⟨hdue, hruns⟩)

theorem captures_captureHub (s : State) : Captures s s.captureHub :=
  ((Captures.refl s).captureRouter 256).foldl _ _ fun _ e he ha => ha.snapEnd (by
    simp only [List.mem_cons, List.not_mem_nil, or_false] at he
    omega)

theorem Captures.captureAtDie {s t : State} (h : Captures s t) (b : State) {d : Nat} (hd : d < 4) : Captures s (b.captureAtDie t d) :=
  iteInduction (fun _ => h.captureDie hd) fun _ => h.noteDie d true

theorem State.reg_captureAtDie_other (s a : State) {d off : Nat} (hd : d < 4)
    (h : off < 0x1000000 + d * 0x400000 ∨ 0x1000000 + d * 0x400000 + 0x400000 ≤ off) : (s.captureAtDie a d).reg off = a.reg off :=
  iteInduction (motive := fun b : State => b.reg off = a.reg off) (fun _ => a.reg_captureDie_other hd h) fun _ => rfl

section
variable {s : State}

theorem captures_all (s : State) : Captures s (s.litDies.foldl s.captureAtDie s.captureHub) :=
  (captures_captureHub s).foldl _ _ fun _ _ hd ha => ha.captureAtDie s (State.mem_litDies.mp hd).1

theorem hngBlock_hub : hngBlock 12 = 0x410000 ∧ hngBlock 13 = 0x411000 := by
  simp [hngBlock]

/-- What the hub's captures show stays through those of the dies. -/
theorem State.reg_of_captureHub (s : State) {off : Nat} (h : off < 0x1000000) :
    (s.litDies.foldl s.captureAtDie s.captureHub).reg off = s.captureHub.reg off :=
  List.foldlRecOn (motive := fun a : State => a.reg off = s.captureHub.reg off) _ _ rfl fun a ha _ hd =>
    (s.reg_captureAtDie_other a (State.mem_litDies.mp hd).1 (.inl (by omega))).trans ha

theorem State.reg_hub_captureHub (s : State) {x k : Nat} (hx : x < 33) (hk : k < 16) :
    s.captureHub.reg (R.HTR_LEDGER x k) = s.ledShown (portId 256 x) k := by
  have hout : ∀ (a : State) (e : Nat), e = 12 ∨ e = 13 → (a.snapEnd e).reg (R.HTR_LEDGER x k) = a.reg (R.HTR_LEDGER x k) := fun a e he =>
    State.reg_snapEnd_other a (.inl (by
      have hb : 0x410000 ≤ hngBlock e := by
        rcases he with rfl | rfl
        · exact hngBlock_hub.1.ge
        · rw [hngBlock_hub.2]
          omega
      unfold R.HTR_LEDGER
      omega))
  rw [State.captureHub_eq, hout _ 13 (.inr rfl), hout _ 12 (.inl rfl), s.reg_captureRouter_hub hx hk]

/-- The hub's hinge ends, as their captures show them. -/
theorem State.ends_captureHub (s : State) {e : Nat} (he : e = 12 ∨ e = 13) :
    (∀ j, j < 32 → LeafShown s s.captureHub e j) ∧
    (∀ x k, x < 8 → k < 16 → s.captureHub.reg (R.HNGTR_LEDGER e x k) = s.led (stageLink e x) k) := by
  have hrouter : Captures s (s.captureRouter 256) := (Captures.refl s).captureRouter 256
  rw [State.captureHub_eq]
  generalize s.captureRouter 256 = b at hrouter
  have hfirst : Captures s (b.snapEnd 12) := hrouter.snapEnd (by decide)
  have hshown : ∀ (a : State), Captures s a → (∀ j, j < 32 → LeafShown s (a.snapEnd e) e j) ∧
      (∀ x k, x < 8 → k < 16 → (a.snapEnd e).reg (R.HNGTR_LEDGER e x k) = s.led (stageLink e x) k) := fun a ha => by
    have hhinge : (hingeOf e).isNone = false := by rcases he with rfl | rfl <;> decide
    refine ⟨fun j hj => ?_, fun x k hx hk => ?_⟩
    · have h := leafShown_snapEnd a hhinge hj
      rwa [LeafShown, ha.leaf] at h
    · rw [a.reg_stage_snapEnd hhinge hx hk, ha.led]
  rcases he with rfl | rfl
  · obtain ⟨hleaves, hstages⟩ := hshown _ hrouter
    have hkeep : ∀ off, off < 0x411000 → ((b.snapEnd 12).snapEnd 13).reg off = (b.snapEnd 12).reg off := fun off hoff =>
      State.reg_snapEnd_other _ (.inl (by
        rw [hngBlock_hub.2]
        omega))
    have hb := hngBlock_hub.1
    refine ⟨fun j hj => (hleaves j hj).congr fun k hk => hkeep _ ?_, fun x k hx hk => (hkeep _ ?_).trans (hstages x k hx hk)⟩
    · unfold R.HNG_LEDGER
      omega
    · unfold R.HNGTR_LEDGER
      omega
  · exact hshown _ hfirst

variable {d p : Nat} (hd : d < 4) (hdark : s.dieDark d = false)
include hd hdark

/-- A router that the tick reaches and that runs shows its counters. -/
theorem State.reg_captured (hp : p < 64) (hup : s.pathUp d = true) (hruns : s.routerRuns (64 * d + p) = true) {x k : Nat} (hx : x < 12) (hk : k < 16) :
    (s.litDies.foldl s.captureAtDie s.captureHub).reg (R.TR_LEDGER d p x k) = s.ledShown (portId (64 * d + p) x) k := by
  have hid : paneId d p = 64 * d + p := by rw [paneId, Nat.mul_comm]
  have hne : 64 * d + p ≠ 256 := by omega
  refine foldl_establishes (I := Captures s) (Q := fun a => a.reg (R.TR_LEDGER d p x k) = s.ledShown (portId (64 * d + p) x) k)
    (State.mem_litDies.mpr ⟨hd, hdark⟩) (captures_captureHub s) (fun a i hi ha => ha.captureAtDie s (State.mem_litDies.mp hi).1) (fun a ha => ?_)
    fun a i hi hne _ hq => (s.reg_captureAtDie_other a (State.mem_litDies.mp hi).1 ?_).trans hq
  · rw [State.captureAtDie, if_pos hup, a.reg_captureDie hd hp hx hk (by rw [hid, ha.routerRuns hne, hruns]), ha.ledShown, hid]
  · have := (State.mem_litDies.mp hi).1
    unfold R.TR_LEDGER
    omega

/-- One whose clock stands is noted. -/
theorem State.gcap_captured (hp : p < 64) (hup : s.pathUp d = true) (hstands : s.routerRuns (64 * d + p) = false) :
    ((s.litDies.foldl s.captureAtDie s.captureHub).pane (64 * d + p)).gcap = true := by
  have hid : paneId d p = 64 * d + p := by rw [paneId, Nat.mul_comm]
  have hne : 64 * d + p ≠ 256 := by omega
  refine foldl_establishes (I := Captures s) (Q := fun a : State => (a.pane (64 * d + p)).gcap = true)
    (State.mem_litDies.mpr ⟨hd, hdark⟩) (captures_captureHub s) (fun a i hi ha => ha.captureAtDie s (State.mem_litDies.mp hi).1) (fun a ha => ?_)
    fun a i hi hne _ hq => iteInduction (motive := fun b : State => (b.pane (64 * d + p)).gcap = true) (fun _ => a.gcap_captureDie hq) fun _ => hq
  rw [State.captureAtDie, if_pos hup, ← hid]
  exact State.gcap_captureDie_of_stands hp (by rw [hid, ha.routerRuns hne, hstands])

/-- A die that the tick has yet to reach is noted. -/
theorem State.gcap_die_captured (hdown : s.pathUp d = false) :
    (SMap.get {} (s.litDies.foldl s.captureAtDie s.captureHub).dies d).gcap = true := by
  refine foldl_establishes (I := fun _ => True) (Q := fun a : State => (SMap.get {} a.dies d).gcap = true)
    (State.mem_litDies.mpr ⟨hd, hdark⟩) trivial (fun _ _ _ _ => trivial) (fun a _ => ?_) fun a i _ hne _ hq => ?_
  · rw [State.captureAtDie, hdown, if_neg Bool.false_ne_true, State.captureLater, SMap.upd, SMap.get_set_same]
  · unfold State.captureAtDie
    split
    · rw [State.dies_captureDie, SMap.upd, SMap.get_set_other _ _ _ _ _ _ hne.symm, hq]
    · rw [State.captureLater, SMap.upd, SMap.get_set_other _ _ _ _ _ _ hne.symm, hq]

end

end Sys2Proof.Machine
end

section
/-!
PROOF. The end of a park (R298): the ports that face the die are boarded up, and stay so once the die's state is gone.
-/
namespace Sys2Proof.Machine
open Sys2Proof.Claims

/-! ### Marks that are set -/

section
variable {s : State} {k : Nat} {cause : Nat}

theorem State.marks_closed (s : State) (k cause : Nat) : (s.closed k cause).marks = s.marks :=
  State.marks_of_regs (congrArg State.stageBrd (s.closed_frame k cause) :) (congrArg State.regs (s.closed_frame k cause) :)

theorem State.marks_board_of_open (h : s.boarded k = false) : (s.board k cause).marks = ((s.closed k cause).setBoarded k true).marks := by
  rw [State.board_of_open h]
  dsimp only
  split_ifs
  · exact State.marks_fmCut _ _
  · rfl
  · exact (State.marks_noteBoarded _ _ _).trans (State.marks_fmCut _ _)
  · exact State.marks_noteBoarded _ _ _

/-- A port with a mark that is boarded up shows it. -/
theorem State.boarded_board_same (hmark : 32768 ≤ k ∨ markBit k < 32) : (s.board k cause).boarded k = true := by
  by_cases h : s.boarded k = true
  · rwa [State.board_of_boarded h]
  · rw [State.boarded_of_marks (State.marks_board_of_open (Bool.eq_false_of_not_eq_true h)), State.boarded_setBoarded_same hmark]

theorem State.boarded_board_mono (hmark : 32768 ≤ k ∨ markBit k < 32) {l : Nat} (hl : s.boarded l = true) :
    (s.board k cause).boarded l = true := by
  by_cases h : s.boarded k = true
  · rwa [State.board_of_boarded h]
  · rw [State.boarded_of_marks (State.marks_board_of_open (Bool.eq_false_of_not_eq_true h))]
    exact State.boarded_setBoarded_true hmark ((State.boarded_of_marks (s.marks_closed k cause) l).trans hl)

/-- Boarding up does not touch the note of how the last park ended. -/
theorem State.gsnap_board : (s.board k cause).reg R.TR_GSNAP = s.reg R.TR_GSNAP := by
  by_cases h : s.boarded k = true
  · rw [State.board_of_boarded h]
  · rw [State.reg_of_marks (State.marks_board_of_open (Bool.eq_false_of_not_eq_true h)) (by decide),
      ← State.reg_of_marks (s.marks_closed k cause) (by decide), State.setBoarded_eq]
    split
    · rfl
    · refine State.reg_setFld_other _ _ _ ?_
      unfold markReg R.TR_GSNAP R.TR_HBRD_L R.TR_HBRD_H R.TR_STAT
      split_ifs <;> omega

end

/-- A list of ports that are boarded up one after the other: all of them are. -/
theorem State.boarded_boards {s : State} {ls : List Nat} {cause l : Nat} (hmarks : ∀ k ∈ ls, 32768 ≤ k ∨ markBit k < 32) (hl : l ∈ ls) :
    (ls.foldl (fun a k => a.board k cause) s).boarded l = true :=
  foldl_establishes (I := fun _ => True) (Q := fun a : State => a.boarded l = true) hl trivial (fun _ _ _ _ => trivial)
    (fun _ _ => State.boarded_board_same (hmarks l hl)) fun _ k hk _ _ hq => State.boarded_board_mono (hmarks k hk) hq

/-! ### The ports that face a die -/

theorem mem_of_mem_ite_nil {α : Type} {c : Prop} [Decidable c] {a : α} {l : List α} (h : a ∈ if c then [] else l) : a ∈ l := by
  split at h
  · cases h
  · exact h

/-- A port or a stage that faces die d: at a hinge end of another die, or of the hub. -/
theorem State.mem_facing {s : State} {d l : Nat} (h : l ∈ s.facing d) :
    ∃ e x, e < 14 ∧ x < 8 ∧ endDie e ≠ some d ∧ (l = endRouter e x ∨ l = stageLink e x) := by
  have hends : ∀ k < 6, (hingeEnds k).1 < 14 ∧ (hingeEnds k).2 < 14 ∧ endDie (hingeEnds k).1 ≠ endDie (hingeEnds k).2 := by decide
  obtain ⟨k, hk, hl⟩ := List.mem_flatMap.mp h
  obtain ⟨h1, h2, hne⟩ := hends k (List.mem_range.mp hk)
  dsimp only at hl
  split at hl
  · cases hl
  · next e he =>
    have hend : e < 14 ∧ endDie e ≠ some d := by
      split at he
      · next hd =>
        obtain rfl : (hingeEnds k).2 = e := Option.some.inj he
        exact ⟨h2, fun h => hne (hd.trans h.symm)⟩
      · next hd =>
        split at he
        · obtain rfl : (hingeEnds k).1 = e := Option.some.inj he
          exact ⟨h1, hd⟩
        · cases he
    have hmem : ∃ x ∈ List.range 8, l ∈ [endRouter e x, stageLink e x] := by
      exact List.mem_flatMap.mp (mem_of_mem_ite_nil hl)
    obtain ⟨x, hx, hlx⟩ := hmem
    exact ⟨e, x, hend.1, List.mem_range.mp hx, hend.2, by simpa using hlx⟩

theorem markBit_endRouter : ∀ e < 14, ∀ x < 8, markBit (endRouter e x) < 32 := by decide

theorem hasMark_of_mem_facing {s : State} {d l : Nat} (h : l ∈ s.facing d) : 32768 ≤ l ∨ markBit l < 32 := by
  obtain ⟨e, x, he, hx, -, rfl | rfl⟩ := State.mem_facing h
  · exact .inr (markBit_endRouter e he x hx)
  · refine .inl ?_
    unfold stageLink
    omega

/-! ### What the rest of a park leaves of the marks -/

theorem hingeEnds_lt (k : Nat) : (hingeEnds k).1 < 14 ∧ (hingeEnds k).2 < 14 := by
  unfold hingeEnds
  split <;> decide

theorem markAt_hinge {e : Nat} (he : e < 14) : markAt (R.HNG_STAT e) = false ∧ markAt (R.HNG_ERR e) = false := by
  obtain ⟨b, hb, hrange⟩ := hngBlock_range he
  unfold markAt R.HNG_STAT R.HNG_ERR
  rw [hb]
  refine ⟨decide_eq_false_iff_not.mpr ?_, decide_eq_false_iff_not.mpr ?_⟩ <;> omega

theorem State.marks_setHingeState (s : State) {e : Nat} (he : e < 14) (st : Nat) : (s.setHingeState e st).marks = s.marks := by
  have hstat := s.marks_setFld (off := R.HNG_STAT e) F.HNG_STAT.STATE st (markAt_hinge he).1
  unfold State.setHingeState
  dsimp only
  split
  · exact (State.marks_setFld _ _ _ (markAt_hinge he).2).trans hstat
  · exact hstat

theorem State.marks_discardChan (s : State) {pane k : Nat} (hk : k < 64) (count : Bool) : (s.discardChan pane k count).marks = s.marks := by
  have hstat : markAt (R.PANE_CHSTAT (pane / 64) (pane % 64) k) = false := by
    unfold markAt R.PANE_CHSTAT
    rw [decide_eq_false_iff_not]
    omega
  unfold State.discardChan
  dsimp only
  split
  · exact State.marks_addSat _ _ _ hstat
  · rfl

theorem endSide_lt (e : Nat) : endSide e < 4 := by
  by_cases he : e < 12
  · have hall : ∀ e < 12, endSide e < 4 := by decide
    exact hall e he
  · have hside : endSide e = 0 := by
      unfold endSide
      rw [List.getD_eq_default]
      exact Nat.not_lt.mp he
    rw [hside]
    decide

theorem edgeChan_lt (e i : Nat) (hi : i < 128) : (edgeChan e (i / 64) (i % 64)).2 < 64 := by
  have := endSide_lt e
  show 16 * endSide e + 8 * (i / 64) + i % 64 % 8 < 64
  omega

theorem State.marks_parkHinges (s : State) (d : Nat) : (s.parkHinges d).marks = s.marks := by
  refine State.marks_foldl _ _ _ fun a k _ => ?_
  obtain ⟨h1, h2⟩ := hingeEnds_lt k
  extract_lets es e a1 a2 a3 h
  split
  · have he : e < 14 := by
      simp only [e, es]
      split <;> assumption
    have ha1 : a1.marks = a.marks := State.marks_foldl _ _ _ fun _ _ _ => rfl
    have ha2 : a2.marks = a1.marks := State.marks_foldl _ _ _ fun b i _ => by
      dsimp only
      split
      · rfl
      · exact (State.marks_ports _).1 _ _ _
    have ha3 : a3.marks = a2.marks := by
      simp only [a3]
      split
      · rfl
      · refine State.marks_foldl _ _ _ fun b i hi => ?_
        have hi128 := List.mem_range.mp hi
        exact (State.marks_discardChan _ (edgeChan_lt _ i hi128) _).trans (State.marks_discardChan _ (edgeChan_lt _ i hi128) _)
    have hset : ∀ (b : State) x rs, ((b.setHinge k x).setTickWait e rs).marks = b.marks := fun _ _ _ => rfl
    clear_value h a3
    exact (hset _ _ _).trans ((a3.marks_setHingeState he 4).trans (ha3.trans (ha2.trans ha1)))
  · rfl

/-! ### What a die that is cleared keeps -/

/-- A value that is listed stays when other keys are dropped. -/
theorem SMap.get_drop_of_listed {α : Type} {x : α} {m : SMap α} {p : Nat → Bool} {k : Nat} (hp : p k = false) (h : SMap.get x m k ≠ x) :
    SMap.get x (SMap.drop m p) k = SMap.get x m k := by
  induction m with
  | nil => rfl
  | cons e m ih =>
    obtain ⟨j, v⟩ := e
    rw [SMap.get] at h ⊢
    by_cases hj : j = k
    · subst hj
      rw [SMap.drop, List.filter_cons_of_pos (by simp [hp]), SMap.get, if_pos rfl, if_pos rfl]
    · rw [if_neg hj] at h ⊢
      by_cases hlt : k < j
      · exact absurd (if_pos hlt) h
      · rw [if_neg hlt] at h ⊢
        refine Eq.trans ?_ (ih h)
        by_cases hpj : p j = true
        · rw [SMap.drop, List.filter_cons_of_neg (by simp [hpj])]
          rfl
        · rw [SMap.drop, List.filter_cons_of_pos (by simp [hpj]), SMap.get, if_neg hj, if_neg hlt]
          rfl

theorem State.marks_clearTins (s : State) (d : Nat) : (s.clearTins d).marks = s.marks := by
  refine (State.marks_foldl _ _ _ fun a e _ => ?_).trans (State.marks_of_regs rfl rfl)
  split
  · exact ((State.marks_ports _).2.2.2.1 _ _ _).trans ((State.marks_ports _).2.1 _ _ _)
  · rfl

theorem State.regs_clearDie (s : State) (d top : Nat) : (s.clearDie d top).regs = SMap.drop (s.clearTins d).regs (inDie d top) := rfl

theorem State.stageBrd_clearDie (s : State) (d top : Nat) : (s.clearDie d top).stageBrd = s.stageBrd := by
  show (s.clearTins d).stageBrd = s.stageBrd
  exact congrArg Prod.fst (s.marks_clearTins d)

/-- A register of another die, or of the hub, that does not read as at reset keeps its value. -/
theorem State.reg_clearDie (s : State) {d top off : Nat} (hmark : markAt off = true) (hout : inDie d top off = false)
    (h : s.reg off ≠ resetVal off) : (s.clearDie d top).reg off = s.reg off := by
  have htins : (s.clearTins d).reg off = s.reg off := State.reg_of_marks (s.marks_clearTins d) hmark
  rw [State.reg, State.regs_clearDie]
  refine (SMap.get_drop_of_listed hout ?_).trans htins
  rw [← State.reg, htins]
  exact h

/-! ### The end -/

/-- The ports that face die d, boarded up for a park. -/
def State.parkBoards (s : State) (d : Nat) : State := (s.facing d).foldl (fun a l => a.board l 3) s

/-- Die d has no power, and HUB_PCTL tells so. -/
structure Parked (d : Nat) (t : State) : Prop where
  park : t.park = none
  off : (SMap.get {} t.dies d).off = true
  parked : (t.reg R.HUB_PCTL).getLsbD (20 + d) = true
  busy : t.fld R.HUB_PCTL F.HUB_PCTL.BUSY = 0
  result : t.fld R.HUB_PCTL F.HUB_PCTL.RESULT = 0

/-- What a park leaves of the marks that stood in `s` once the ports were boarded up. -/
structure MarksStay (d : Nat) (s t : State) : Prop where
  regs : ∀ off, markAt off = true → inDie d 0x400000 off = false → s.reg off ≠ resetVal off → t.reg off = s.reg off
  stages : ∀ e x, x < 8 → endDie e ≠ some d → SMap.get false s.stageBrd (stageLink e x) = true →
    SMap.get false t.stageBrd (stageLink e x) = true

section
variable {d : Nat} {s t u : State}

theorem Parked.congr (h : Parked d t) (hpark : u.park = t.park) (hdies : u.dies = t.dies) (hregs : u.regs = t.regs) : Parked d u where
  park := hpark.trans h.park
  off := by rw [hdies, h.off]
  parked := by rw [State.reg_congr hregs, h.parked]
  busy := by rw [State.fld, State.reg_congr hregs, ← State.fld, h.busy]
  result := by rw [State.fld, State.reg_congr hregs, ← State.fld, h.result]

theorem MarksStay.congr (h : MarksStay d s t) (hmarks : u.marks = t.marks) : MarksStay d s u where
  regs off hoff hout hne := (State.reg_of_marks hmarks hoff).trans (h.regs off hoff hout hne)
  stages e x hx he hl := by
    rw [show u.stageBrd = t.stageBrd from congrArg Prod.fst hmarks]
    exact h.stages e x hx he hl

/-- The die is cleared, and the hinges to it. -/
theorem marksStay_clearDie (s : State) (d : Nat) : MarksStay d s ((s.parkHinges d).clearDie d 0x400000) where
  regs off hoff hout hne := by
    have hhinges := State.reg_of_marks (s.marks_parkHinges d) hoff
    rw [State.reg_clearDie _ hoff hout (by rwa [hhinges]), hhinges]
  stages e x _ _ hl := by
    rw [State.stageBrd_clearDie, show (s.parkHinges d).stageBrd = s.stageBrd from congrArg Prod.fst (s.marks_parkHinges d), hl]

/-- The marks of its own stages go with the die. -/
theorem MarksStay.dropStages (h : MarksStay d s t) (hregs : u.regs = t.regs)
    (hstage : u.stageBrd = SMap.drop t.stageBrd fun l => decide (endDie ((l - 32768) / 8) = some d)) : MarksStay d s u where
  regs off hoff hout hne := (congrFun (State.reg_congr hregs) off).trans (h.regs off hoff hout hne)
  stages e x hx he hl := by
    have hkept := h.stages e x hx he hl
    have hkey : decide (endDie ((stageLink e x - 32768) / 8) = some d) = false := by
      rw [show (stageLink e x - 32768) / 8 = e by unfold stageLink; omega]
      exact decide_eq_false he
    rw [hstage, SMap.get_drop_of_listed hkey, hkept]
    rw [hkept]
    decide

theorem fld_pctl_after (s : State) (hd : d < 4) :
    let t := ((s.setFld R.HUB_PCTL ⟨20 + d, 20 + d⟩ 1).setFld R.HUB_PCTL F.HUB_PCTL.BUSY 0).setFld R.HUB_PCTL F.HUB_PCTL.RESULT 0
    (t.reg R.HUB_PCTL).getLsbD (20 + d) = true ∧ t.fld R.HUB_PCTL F.HUB_PCTL.BUSY = 0 ∧ t.fld R.HUB_PCTL F.HUB_PCTL.RESULT = 0 := by
  have hhi : (⟨20 + d, 20 + d⟩ : Fld).hi < 32 := show 20 + d < 32 by omega
  refine ⟨?_, ?_, State.fld_setFld_same _ _ _ _ (by decide) (by decide)⟩
  · rw [State.reg_bit, State.flag_setFld_other _ _ _ _ _ (by decide) (by decide) (Nat.le_refl _) (.inl (show 20 + d < 26 by omega)),
      State.flag_setFld_other _ _ _ _ _ (by decide) (by decide) (Nat.le_refl _) (.inl (show 20 + d < 30 by omega))]
    exact State.flag_setFld_one _ _ _ (Nat.le_refl _) hhi
  · rw [State.fld_setFld_other _ _ _ _ _ (by decide) (by decide) (by decide) (by decide)]
    exact State.fld_setFld_same _ _ _ _ (by decide) (by decide)

end

theorem State.off_updDie (s : State) (d : Nat) : (SMap.get {} (s.updDie d fun x => { step := x.step, off := true }).dies d).off = true := by
  rw [State.updDie, SMap.upd, SMap.get_set_same]

/-- The commands of that number end with the result. -/
theorem State.result_updCmd (s : State) (id : Nat) (r : Nat × Nat × Nat) :
    ∀ h ∈ (s.updCmd id fun x => { x with result := some r }).host, h.id = id → h.result = some r := by
  intro h hh hid
  obtain ⟨c, -, rfl⟩ := List.mem_map.mp hh
  by_cases hc : c.id = id
  · rw [if_pos hc]
  · rw [if_neg hc] at hid
    exact absurd hid hc

/-- The end of a park with the result that the command which asked for it reports, if one did. -/
theorem reported_spec {d : Nat} {s t : State} (cmd : Option Nat) (r : Nat × Nat × Nat) (hp : Parked d t) (hm : MarksStay d s t) :
    let u := match cmd with
      | some id => t.updCmd id fun x => { x with result := some r }
      | none => t
    Parked d u ∧ MarksStay d s u ∧ ∀ id, cmd = some id → ∀ h ∈ u.host, h.id = id → h.result = some r := by
  cases cmd with
  | none => exact ⟨hp, hm, nofun⟩
  | some id =>
    refine ⟨hp.congr rfl rfl rfl, hm.congr (State.marks_of_regs rfl rfl), fun i hi => ?_⟩
    cases hi
    exact t.result_updCmd id r

/-- What the end of a park comes to. -/
theorem State.parkEnd_spec (s : State) (p : ParkSt) (late : Bool) (hd : p.die < 4) :
    Parked p.die (s.parkEnd p late) ∧ MarksStay p.die (s.parkBoards p.die) (s.parkEnd p late) ∧
    ∀ id, p.cmd = some id → ∀ h ∈ (s.parkEnd p late).host, h.id = id → h.result = some (0, if late then 1 else 0, 0) := by
  unfold State.parkEnd
  extract_lets d s1 s2 mine inRouter faces s3 left k s4 s5
  have h2 : MarksStay d s1 s2 := marksStay_clearDie s1 d
  have h3 : MarksStay d s1 s3 := h2.dropStages rfl rfl
  have hpark3 : s3.park = none := rfl
  clear_value s3
  have h4 : MarksStay d s1 s4 := h3.congr (State.marks_of_regs rfl rfl)
  have hpark4 : s4.park = none := hpark3
  have hoff4 : (SMap.get {} s4.dies d).off = true := State.off_updDie _ d
  clear_value s4
  have hbstat : ∀ a : State, (a.setFld R.CFG_BSTAT ⟨16 + d, 16 + d⟩ 0).marks = a.marks := fun a => a.marks_setFld _ _ (by decide)
  have hpctl : ∀ (a : State) f n, (a.setFld R.HUB_PCTL f n).marks = a.marks := fun a f n => a.marks_setFld f n (by decide)
  have h5 : MarksStay d s1 s5 := h4.congr ((hpctl _ _ _).trans ((hpctl _ _ _).trans ((hpctl _ _ _).trans ((hbstat _).trans
    (s4.marks_setFld _ _ (by decide))))))
  have hp5 : Parked d s5 := by
    obtain ⟨hbit, hbusy, hresult⟩ := fld_pctl_after ((s4.setFld R.KPR_STAT F.KPR_STAT.NHALT (min 255 left.length)).setFld R.CFG_BSTAT
      ⟨16 + d, 16 + d⟩ 0) hd
    exact ⟨hpark4, hoff4, hbit, hbusy, hresult⟩
  clear_value s5
  exact reported_spec p.cmd _ hp5 h5

/-! ### The ports that face it -/

theorem State.ne_reset_of_flag {s : State} {off : Nat} {f : Fld} (h : s.flag off f = true) (hreset : resetVal off = 0) :
    s.reg off ≠ resetVal off := by
  intro he
  rw [State.flag, State.fld, he, hreset] at h
  simp [getF, bitsOf] at h

theorem markReg_endRouter : ∀ e < 14, ∀ x < 8, endRouter e x < 32768 ∧ resetVal (markReg (endRouter e x)) = 0 ∧
    ∀ d < 4, endDie e ≠ some d → inDie d 0x400000 (markReg (endRouter e x)) = false := by decide +kernel

/-- A port or stage of another die that was boarded up shows it still. -/
theorem MarksStay.boarded {d l : Nat} {s t r : State} (h : MarksStay d s t) (hd : d < 4) (hl : l ∈ r.facing d) (hb : s.boarded l = true) :
    t.boarded l = true := by
  obtain ⟨e, x, he, hx, hne, rfl | rfl⟩ := State.mem_facing hl
  · obtain ⟨hlt, hreset, hout⟩ := markReg_endRouter e he x hx
    rw [State.boarded_eq, if_neg (Nat.not_le.mpr hlt)] at hb ⊢
    rw [State.flag, State.fld, h.regs _ (markAt_markReg _) (hout d hd hne) (State.ne_reset_of_flag hb hreset)]
    exact hb
  · have hge : 32768 ≤ stageLink e x := by
      unfold stageLink
      omega
    rw [State.boarded_eq, if_pos hge] at hb ⊢
    exact h.stages e x hx hne hb

theorem State.boarded_parkBoards {s : State} {d l : Nat} (hl : l ∈ s.facing d) : (s.parkBoards d).boarded l = true :=
  State.boarded_boards (fun _ hk => hasMark_of_mem_facing hk) hl

theorem State.gsnap_parkBoards (s : State) (d : Nat) : (s.parkBoards d).reg R.TR_GSNAP = s.reg R.TR_GSNAP :=
  List.foldlRecOn (motive := fun a : State => a.reg R.TR_GSNAP = s.reg R.TR_GSNAP) _ _ rfl fun _ ha _ _ => State.gsnap_board.trans ha

/-- That a park ran out of time stays noted. -/
theorem MarksStay.pdexp {d : Nat} {s t : State} (hd : d < 4) (h : MarksStay d (s.parkBoards d) t) (hs : s.flag R.TR_GSNAP F.TR_GSNAP.PDEXP = true) :
    t.flag R.TR_GSNAP F.TR_GSNAP.PDEXP = true := by
  have hb : (s.parkBoards d).flag R.TR_GSNAP F.TR_GSNAP.PDEXP = true := by rwa [State.flag, State.fld, s.gsnap_parkBoards]
  have hout : inDie d 0x400000 R.TR_GSNAP = false := by
    unfold inDie R.TR_GSNAP
    rw [decide_eq_false_iff_not]
    omega
  rw [State.flag, State.fld, h.regs _ (by decide) hout (State.ne_reset_of_flag hb (by decide +kernel))]
  exact hb

theorem State.facing_setFld_gsnap (s : State) (f : Fld) (n d : Nat) : (s.setFld R.TR_GSNAP f n).facing d = s.facing d := by
  have hdark : (s.setFld R.TR_GSNAP f n).dieDark = s.dieDark := by
    funext k
    rw [State.dieDark, State.dieDark, State.reg_setFld_other _ _ _ (by decide)]
    rfl
  unfold State.facing
  rw [hdark]

/-- A park that has ended: the ports that face the die are boarded up, and the die is without power. -/
def ParkEnded (s : State) (p : ParkSt) (late : Bool) (t : State) : Prop :=
  t.park = none ∧ (SMap.get {} t.dies p.die).off = true ∧ (∀ l ∈ s.facing p.die, t.boarded l = true) ∧
    (t.reg R.HUB_PCTL).getLsbD (20 + p.die) = true ∧ t.fld R.HUB_PCTL F.HUB_PCTL.BUSY = 0 ∧ t.fld R.HUB_PCTL F.HUB_PCTL.RESULT = 0 ∧
    (late = true → t.flag R.TR_GSNAP F.TR_GSNAP.PDEXP = true) ∧
    ∀ id, p.cmd = some id → ∀ h ∈ t.host, h.id = id → h.result = some (0, if late then 1 else 0, 0)

/-! ### The two ways in which a park ends -/

section
variable {s : State} {p : ParkSt} (hpark : s.park = some p)
include hpark

theorem exec_drainEnd (h : s.drained0 p.die = true) : exec .drainEnd s = .next (s.parkEnd p false) := by
  show Host.Outcome.next _ = _
  rw [hpark]
  exact congrArg Host.Outcome.next (if_pos h)

theorem exec_drainTimeout : exec .drainTimeout s = .next ((s.setFld R.TR_GSNAP F.TR_GSNAP.PDEXP 1).parkEnd p true) := by
  show Host.Outcome.next _ = _
  rw [hpark]

omit hpark in
theorem parkEnd_ended (s : State) {a : State} {late : Bool} (hd : p.die < 4) (hfacing : a.facing p.die = s.facing p.die)
    (hlate : late = true → a.flag R.TR_GSNAP F.TR_GSNAP.PDEXP = true) : ParkEnded s p late (a.parkEnd p late) := by
  obtain ⟨hparked, hmarks, hhost⟩ := a.parkEnd_spec p late hd
  refine ⟨hparked.park, hparked.off, fun l hl => ?_, hparked.parked, hparked.busy, hparked.result, fun h => hmarks.pdexp hd (hlate h), hhost⟩
  rw [← hfacing] at hl
  exact hmarks.boarded hd hl (State.boarded_parkBoards hl)

/-- A park ends once the die has drained, or when its time is up. -/
theorem exec_park_ends {c : Instr} {late : Bool} (hd : p.die < 4)
    (hc : (c = .drainEnd ∧ late = false ∧ s.drained0 p.die = true) ∨ (c = .drainTimeout ∧ late = true)) :
    ∃ t, exec c s = .next t ∧ ParkEnded s p late t := by
  rcases hc with ⟨rfl, rfl, hdrained⟩ | ⟨rfl, rfl⟩
  · exact ⟨_, exec_drainEnd hpark hdrained, parkEnd_ended s hd rfl nofun⟩
  · exact ⟨_, exec_drainTimeout hpark, parkEnd_ended s hd (s.facing_setFld_gsnap _ _ _) fun _ =>
      State.flag_setFld_one _ _ _ (by decide) (by decide)⟩

end

end Sys2Proof.Machine
end

section
/-!
PROOF. Boarding up, unboarding, captures and the end of a park (R197-R200, R203, R277, R298).
-/
namespace Sys2Proof.Machine
open Sys2Proof.Claims

/-! ### The global capture, clause by clause -/

section
variable {s : State}

/-- A state after the captures of all dies, with the count of captures. -/
def State.counted (s a : State) : State :=
  { a.setFld R.TR_GSNAP F.TR_GSNAP.GSEQ (s.fld R.TR_GSNAP F.TR_GSNAP.GSEQ + 1) with gsnapDue := s.gsnapDue - 1 }

theorem State.reg_counted (s a : State) {off : Nat} (h : off ≠ R.TR_GSNAP) : (s.counted a).reg off = a.reg off :=
  State.reg_setFld_other a _ _ h

theorem Captures.counted_frame {a : State} (h : Captures s a) : s.counted a =
    { s with regs := (s.counted a).regs, panes := (s.counted a).panes, dies := (s.counted a).dies, gsnapDue := s.gsnapDue - 1 } :=
  congrArg (fun x : State => { x with regs := (s.counted a).regs, gsnapDue := s.gsnapDue - 1 }) h.frame

theorem LeafShown.counted {a : State} {e j : Nat} (h : LeafShown s a e j) (he : e < 14) (hj : j < 32) : LeafShown s (s.counted a) e j :=
  h.congr fun k hk => s.reg_counted a (by
    obtain ⟨b, hb, hrange⟩ := hngBlock_range he
    unfold R.HNG_LEDGER R.TR_GSNAP
    omega)

/-- The hub's counters. -/
theorem State.reg_hub_counted (s : State) {x k : Nat} (hx : x < 33) (hk : k < 16) :
    (s.counted (s.litDies.foldl s.captureAtDie s.captureHub)).reg (R.HTR_LEDGER x k) = s.ledShown (portId 256 x) k := by
  rw [s.reg_counted _ (by unfold R.HTR_LEDGER R.TR_GSNAP; omega), s.reg_of_captureHub (by unfold R.HTR_LEDGER; omega),
    s.reg_hub_captureHub hx hk]

/-- Those of the hub's hinge ends. -/
theorem State.ends_counted (s : State) {e : Nat} (he : e = 12 ∨ e = 13) :
    (∀ j, j < 32 → LeafShown s (s.counted (s.litDies.foldl s.captureAtDie s.captureHub)) e j) ∧
    (∀ x k, x < 8 → k < 16 →
      (s.counted (s.litDies.foldl s.captureAtDie s.captureHub)).reg (R.HNGTR_LEDGER e x k) = s.led (stageLink e x) k) := by
  obtain ⟨hleaves, hstages⟩ := s.ends_captureHub he
  have hlt : e < 14 := by omega
  have hblock : 0x410000 ≤ hngBlock e ∧ hngBlock e ≤ 0x411000 := by
    unfold hngBlock
    rw [if_neg (by omega)]
    omega
  refine ⟨fun j hj => ((hleaves j hj).congr fun k _ => s.reg_of_captureHub ?_).counted hlt hj, fun x k hx hk => ?_⟩
  · unfold R.HNG_LEDGER
    omega
  · rw [s.reg_counted _ (by unfold R.HNGTR_LEDGER R.TR_GSNAP; omega), s.reg_of_captureHub (by unfold R.HNGTR_LEDGER; omega), hstages x k hx hk]

theorem exec_globalCapture_due (hdue : s.gsnapDue ≠ 0) (hruns : s.hubRuns = true) :
    exec .globalCapture s = .next (s.counted (s.litDies.foldl s.captureAtDie s.captureHub)) := exec_globalCapture hdue hruns

end

/-- Settles O30: a register shows what the fold of a capture wrote there, the other steps writing elsewhere; a port's mark is one bit of a register
that nothing but boarding touches; and the marks of the ports that face a parked die stand outside it and are not what their registers reset to, so
they stay when the die's state is dropped. -/
theorem boardingAndCaptures : Obligations.BoardingAndCaptures := by
  unfold Obligations.BoardingAndCaptures
  refine ⟨?_, fun s p c late hpark hd hc => exec_park_ends hpark hd hc, ?_⟩
  · intro s l r hstands hr hreached waits
    have hwaits := fun b : Bool => State.brdCmd_waits (l := l) hstands hr hreached b
    exact ⟨congrArg Host.Outcome.next ((State.reachPort_of_reached hr hreached 16 _).trans (hwaits true)),
      congrArg Host.Outcome.next ((State.reachPort_of_reached hr hreached 0 _).trans (hwaits false))⟩
  intro s l r hex hruns
  have hl : l.val < 32768 := l.isLt.trans (by decide)
  have hbit := State.markBit_lt hex
  refine ⟨?_, ?_, ?_, exec_trCmdBoard hruns hex, ?_, ?_, fun hb => State.board_of_boarded hb 0, exec_trCmdUnboard_open hruns, ?_,
    fun d p => trCmdSnap_clause, fun d p => exec_trCmdSnap_waits, exec_trGsnapGo s, ?_, ?_, ?_, ?_⟩
  case refine_1 => exact fun v i f htocr hi hfront hfate hno => exec_creditTimeout_of_flit hruns hex htocr hi hfront hfate hno
  case refine_2 => exact fun v pk rest htocr hq hno => exec_creditTimeout_of_queue hruns hex htocr hq hno
  case refine_3 => exact fun u htocp hlocal hu hlink hposted hcpl => exec_completionTimeout hruns hex htocp hlocal hu hlink hposted hcpl
  case refine_4 => exact fun cause _ hopen hport => board_fmPort_clause hopen hport
  case refine_5 => exact fun cause hcause hopen hport => board_plain_clause hl hopen hport hbit hcause
  case refine_6 =>
    intro hpath hb hpark
    have h := State.unboardNow_unboarded hl hex hb hpark
    exact ⟨_, exec_trCmdUnboard hruns hpath, h.opened, fun v hv => ⟨h.credits v hv, h.queues v⟩, h.tracked, h.srcs, h.owns⟩
  case refine_7 => exact fun hdue => congrArg Host.Outcome.next (if_neg fun h => h.1 hdue)
  case refine_8 =>
    intro hdue hhub
    have hall := captures_all s
    refine ⟨_, exec_globalCapture_due hdue hhub, hall.counted_frame, fun x k hx hk => ?_, fun e j k he hj hk c hc => ?_, fun d p hd hp hdark hup => ?_,
      fun d hd hdark hdown => State.gcap_die_captured hd hdark hdown, State.fld_setFld_same _ _ _ _ (by decide) (by decide)⟩
    · exact s.reg_hub_counted hx hk
    · obtain ⟨hleaves, hstages⟩ := s.ends_counted he
      obtain ⟨h0, h1, h2, h3⟩ := hleaves j hj
      exact ⟨h0, h1, h2, h3, hstages k c hk hc⟩
    · refine ⟨fun hrun x k hx hk => ?_, State.gcap_captured hd hdark hp hup⟩
      refine (s.reg_counted _ ?_).trans (State.reg_captured hd hdark hp hup hrun hx hk)
      unfold R.TR_LEDGER R.TR_GSNAP
      omega
  case refine_9 => exact fun p hpark hdrained => exec_drainEnd hpark hdrained
  case refine_10 => exact fun p hpark => exec_drainTimeout hpark

end Sys2Proof.Machine
end

section
/-!
PROOF. The commands of the stream directory (R209, Table 8.20): one is written where none runs, the one that runs is performed, and its result is
shown.
-/
namespace Sys2Proof.Machine
open Sys2Proof.Claims

/-! ### The command that begins -/

/-- A command of the directory has begun: beside the registers SD_CMD and SD_RES, of which INDEX is as it was, only the command that runs has
changed. -/
structure SdBegun (s t : State) : Prop where
  differ : RegsDiffer { s with sdOp := none } t
  regs : RegsBut s t [R.SD_CMD, R.SD_RES]
  index : t.fld R.SD_RES F.SD_RES.INDEX = s.fld R.SD_RES F.SD_RES.INDEX

theorem sdBegun_refl (s : State) : SdBegun s { s with sdOp := none } := ⟨⟨s.regs, rfl⟩, fun _ _ => rfl, rfl⟩

theorem SdBegun.setFld_busy {s t : State} (h : SdBegun s t) (n : Nat) : SdBegun s (t.setFld R.SD_RES F.SD_RES.BUSY n) where
  differ := h.differ.setFld _ _ _
  regs := regsBut_setFld h.regs (by decide) _ _
  index := (t.fld_setFld_other _ _ _ _ (by decide) (by decide) (by decide) (by decide)).trans h.index

theorem getF_sdCmdWord {op : Nat} (hop : op < 4) (klen : Bool) : (sdCmdWord op klen).getLsbD 31 = true ∧
    getF (sdCmdWord op klen) F.SD_CMD.OP = op ∧ decide (getF (sdCmdWord op klen) F.SD_CMD.KLEN = 1) = klen := by
  revert op klen
  decide

/-- A write of SD_CMD gives it a value, and no more. -/
theorem sdBegun_writeReg (s : State) (v : HWord) : SdBegun s { s.writeReg R.SD_CMD v with sdOp := none } := by
  obtain ⟨row, -, hreg, hkind⟩ : ∃ row ∈ regTab, regAt R.SD_CMD = some (row, []) ∧ row.kind = .SD_CMD := by decide +kernel
  have hm : stMember row.kind [] = none := by rw [hkind]; rfl
  have habs : s.absent R.SD_CMD row.kind [] = false := by rw [hkind]; rfl
  rw [writeReg_unstaged hreg habs hm]
  exact ⟨⟨_, rfl⟩, regsBut_mono (regsBut_putReg s R.SD_CMD _) (by decide),
    congrArg (getF · F.SD_RES.INDEX) ((s.reg_putReg R.SD_CMD R.SD_RES _).trans (if_neg (by decide)))⟩

theorem State.setFld_sdOp (s : State) (o : Option (Nat × Bool)) (off : Nat) (f : Fld) (n : Nat) :
    ({ State.setFld { s with sdOp := o } off f n with sdOp := none } : State) = State.setFld { s with sdOp := none } off f n := rfl

section
variable {s : State} {op : Nat} (hop : op < 4) {klen : Bool}
include hop

theorem State.sdCmdWrite_of_idle (h : s.sdOp = none) : s.sdCmdWrite (sdCmdWord op klen) =
    State.setFld { s.writeReg R.SD_CMD (sdCmdWord op klen) with sdOp := some (op, klen) } R.SD_RES F.SD_RES.BUSY 1 := by
  obtain ⟨hgo, hcmd, hlen⟩ := getF_sdCmdWord hop klen
  unfold State.sdCmdWrite
  rw [if_pos hgo, if_neg (by simp [h]), hcmd, hlen]

theorem State.sdCmdWrite_of_running {x : Nat × Bool} (h : s.sdOp = some x) : s.sdCmdWrite (sdCmdWord op klen) = s := by
  unfold State.sdCmdWrite
  rw [if_pos (getF_sdCmdWord hop klen).1, if_pos (by simp [h])]

/-- A command that may begin is performed, in a state in which it has begun. -/
theorem State.sdCommand_begun (h : s.sdOp = none ∨ s.sdOp = some (op, klen)) :
    ∃ t, s.sdCommand op klen = t.sdExec op klen ∧ SdBegun s t := by
  obtain h | h := h
  · have hw := State.sdCmdWrite_of_idle (klen := klen) hop h
    refine ⟨_, if_pos (by rw [hw]; rfl), ?_⟩
    rw [hw, State.setFld_sdOp]
    exact ((sdBegun_writeReg s _).setFld_busy 1).setFld_busy 0
  · have hw := State.sdCmdWrite_of_running (klen := klen) hop h
    refine ⟨_, if_pos (by rw [hw]; exact h), ?_⟩
    rw [hw]
    exact (sdBegun_refl s).setFld_busy 0

/-- While another command runs, the one that is written is ignored. -/
theorem State.sdCommand_ignored {x : Nat × Bool} (h : s.sdOp = some x) (hx : x ≠ (op, klen)) : s.sdCommand op klen = s := by
  have hw := State.sdCmdWrite_of_running (klen := klen) hop h
  exact (if_neg (by rw [hw, h]; simpa using hx)).trans hw

end

/-! ### What a command works on -/

theorem State.pair40_congr {s t : State} {offs : List Nat} (h : RegsBut s t offs) {lo hi : Nat} (hlo : lo ∉ offs) (hhi : hi ∉ offs) :
    t.pair40 lo hi = s.pair40 lo hi := by rw [State.pair40, h lo hlo, h hi hhi, State.pair40]

/-- The key that software has written, its second word 0 where it has none, and the action. -/
def State.sdKey0 (s : State) : Word := s.pair40 R.SD_K0L R.SD_K0H
def State.sdKey1 (s : State) (klen : Bool) : Word := if klen then s.pair40 R.SD_K1L R.SD_K1H else 0
def State.sdAct (s : State) : Word := s.pair40 R.SD_AL R.SD_AH

section
variable {s t : State} (h : SdBegun s t)
include h

theorem SdBegun.key0 : t.sdKey0 = s.sdKey0 := State.pair40_congr h.regs (by decide) (by decide)

theorem SdBegun.key1 (klen : Bool) : t.sdKey1 klen = s.sdKey1 klen := by
  rw [State.sdKey1, State.pair40_congr h.regs (by decide) (by decide), State.sdKey1]

theorem SdBegun.act : t.sdAct = s.sdAct := State.pair40_congr h.regs (by decide) (by decide)

theorem SdBegun.sdEnt : t.sdEnt = s.sdEnt := by
  obtain ⟨rs, rfl⟩ := h.differ
  rfl

theorem SdBegun.sdFind (klen : Bool) : t.sdFind klen (t.sdKey1 klen) t.sdKey0 = s.sdFind klen (s.sdKey1 klen) s.sdKey0 := by
  rw [h.key0, h.key1, State.sdFind, h.sdEnt, State.sdFind]

end

/-! ### The four commands, by what they find -/

section
variable {t : State} {klen : Bool}

theorem State.sdExec_setmiss (t : State) (klen : Bool) : t.sdExec 0 klen = State.sdResult { t with sdMiss := t.sdAct } 0 none := rfl

theorem State.sdExec_of_found {i : Nat} (h : t.sdFind klen (t.sdKey1 klen) t.sdKey0 = some i) :
    t.sdExec 1 klen = (t.setSdEnt i { t.sdEnt i with act := t.sdAct }).sdResult 1 (some i) ∧
    t.sdExec 2 klen = (t.setSdEnt i { t.sdEnt i with valid := false }).sdResult 0 (some i) ∧
    t.sdExec 3 klen = t.sdResult 0 (some i) := by
  simp only [State.sdKey1, State.sdKey0] at h
  simp only [State.sdExec, h]
  exact ⟨rfl, trivial, trivial⟩

theorem State.sdExec_of_missing (h : t.sdFind klen (t.sdKey1 klen) t.sdKey0 = none) :
    t.sdExec 2 klen = t.sdResult 2 none ∧ t.sdExec 3 klen = t.sdResult 2 none ∧
    t.sdExec 1 klen = match (sdCandidates klen (t.sdKey1 klen) t.sdKey0).find? fun i => !(t.sdEnt i).valid with
      | some i => (t.setSdEnt i { valid := true, klen := klen, k1 := t.sdKey1 klen, k0 := t.sdKey0, act := t.sdAct }).sdResult 0 (some i)
      | none => t.sdResult 3 none := by
  simp only [State.sdKey1, State.sdKey0] at h
  simp only [State.sdExec, h]
  exact ⟨trivial, trivial, rfl⟩

end

/-! ### What a command shows -/

/-- Beside what `SdBegun` names, RESULT shows `r` and INDEX `ix`. -/
structure SdShown (s t : State) (r ix : Nat) : Prop where
  regs : RegsBut s t [R.SD_CMD, R.SD_RES]
  result : t.fld R.SD_RES F.SD_RES.RESULT = r
  index : t.fld R.SD_RES F.SD_RES.INDEX = ix

theorem sdShown_none {s t : State} (h : RegsBut s t [R.SD_CMD, R.SD_RES]) {r : Nat} (hr : r < 4) :
    SdShown s (t.sdResult r none) r (t.fld R.SD_RES F.SD_RES.INDEX) where
  regs := regsBut_setFld h (by decide) _ _
  result := (t.fld_setFld_same _ _ _ (by decide) (by decide)).trans (Nat.mod_eq_of_lt hr)
  index := t.fld_setFld_other _ _ _ _ (by decide) (by decide) (by decide) (by decide)

theorem sdShown_some {s t : State} (h : RegsBut s t [R.SD_CMD, R.SD_RES]) {r : Nat} (hr : r < 4) (i : Nat) :
    SdShown s (t.sdResult r (some i)) r (i % 2 ^ 17) where
  regs := regsBut_setFld (regsBut_setFld h (by decide) _ _) (by decide) _ _
  result := (State.fld_setFld_other _ _ _ _ _ (by decide) (by decide) (by decide) (by decide)).trans
    ((t.fld_setFld_same _ _ _ (by decide) (by decide)).trans (Nat.mod_eq_of_lt hr))
  index := State.fld_setFld_same _ _ _ _ (by decide) (by decide)

theorem regsDiffer_sdResult (t : State) (r : Nat) : ∀ i, RegsDiffer t (t.sdResult r i)
  | none => RegsDiffer.setFld ⟨t.regs, rfl⟩ _ _ _
  | some _ => (RegsDiffer.setFld ⟨t.regs, rfl⟩ _ _ _).setFld _ _ _

section
variable {s t : State} (h : SdBegun s t)
include h

/-- SETMISS ends. -/
theorem SdBegun.ends_setmiss (w : Word) {r : Nat} (hr : r < 4) : let u := State.sdResult { t with sdMiss := w } r none
    u = { s with sdOp := none, regs := u.regs, sdMiss := w } ∧ RegsBut s u [R.SD_CMD, R.SD_RES] ∧ u.fld R.SD_RES F.SD_RES.RESULT = r ∧
      u.fld R.SD_RES F.SD_RES.INDEX = s.fld R.SD_RES F.SD_RES.INDEX := by
  obtain ⟨hregs, hres, hix⟩ := sdShown_none (t := { t with sdMiss := w }) h.regs hr
  obtain ⟨rs, hrs⟩ := regsDiffer_sdResult { t with sdMiss := w } r none
  obtain ⟨rs0, rfl⟩ := h.differ
  exact ⟨by rw [hrs], hregs, hres, hix.trans h.index⟩

/-- A command that has found nothing to change ends. -/
theorem SdBegun.ends_unfound {r : Nat} (hr : r < 4) : let u := t.sdResult r none
    u = { s with sdOp := none, regs := u.regs } ∧ RegsBut s u [R.SD_CMD, R.SD_RES] ∧ u.fld R.SD_RES F.SD_RES.RESULT = r ∧
      u.fld R.SD_RES F.SD_RES.INDEX = s.fld R.SD_RES F.SD_RES.INDEX := by
  obtain ⟨hregs, hres, hix⟩ := sdShown_none h.regs hr
  obtain ⟨rs, hrs⟩ := regsDiffer_sdResult t r none
  obtain ⟨rs0, rfl⟩ := h.differ
  exact ⟨by rw [hrs], hregs, hres, hix.trans h.index⟩

/-- FIND ends with the entry found. -/
theorem SdBegun.ends_found {r : Nat} (hr : r < 4) (i : Nat) : let u := t.sdResult r (some i)
    u = { s with sdOp := none, regs := u.regs } ∧ RegsBut s u [R.SD_CMD, R.SD_RES] ∧ u.fld R.SD_RES F.SD_RES.RESULT = r ∧
      u.fld R.SD_RES F.SD_RES.INDEX = i % 2 ^ 17 := by
  obtain ⟨hregs, hres, hix⟩ := sdShown_some h.regs hr i
  obtain ⟨rs, hrs⟩ := regsDiffer_sdResult t r (some i)
  obtain ⟨rs0, rfl⟩ := h.differ
  exact ⟨by rw [hrs], hregs, hres, hix⟩

/-- A command ends that has written one entry. -/
theorem SdBegun.ends_written {r : Nat} (hr : r < 4) (i : Nat) (x : SdEnt) : let u := (t.setSdEnt i x).sdResult r (some i)
    u = { s with sdOp := none, regs := u.regs, sd := u.sd } ∧ RegsBut s u [R.SD_CMD, R.SD_RES] ∧ u.fld R.SD_RES F.SD_RES.RESULT = r ∧
      u.fld R.SD_RES F.SD_RES.INDEX = i % 2 ^ 17 ∧ u.sdEnt i = x ∧ ∀ j, j ≠ i → u.sdEnt j = s.sdEnt j := by
  have hsame : (t.setSdEnt i x).sdEnt i = x := SMap.get_set_same _ _ _ _
  have hother (j : Nat) (hj : j ≠ i) : (t.setSdEnt i x).sdEnt j = s.sdEnt j := (SMap.get_set_other _ _ _ _ _ _ hj).trans (congrFun h.sdEnt j)
  obtain ⟨hregs, hres, hix⟩ := sdShown_some (t := t.setSdEnt i x) h.regs hr i
  obtain ⟨rs, hrs⟩ := regsDiffer_sdResult (t.setSdEnt i x) r (some i)
  obtain ⟨rs0, rfl⟩ := h.differ
  refine ⟨by rw [hrs]; rfl, hregs, hres, hix, ?_, fun j hj => ?_⟩
  · rw [hrs]
    exact hsame
  · rw [hrs]
    exact hother j hj

end

/-- An entry that holds a key is one of the key's candidates. -/
theorem State.sdFind_some {s : State} {klen : Bool} {k1 k0 : Word} {i : Nat} (h : s.sdFind klen k1 k0 = some i) :
    (s.sdEnt i).valid = true ∧ (s.sdEnt i).klen = klen ∧ (s.sdEnt i).k0 = k0 ∧ (klen = true → (s.sdEnt i).k1 = k1) ∧
    i ∈ sdCandidates klen k1 k0 := by
  have hholds := List.find?_some h
  simp only [SdEnt.holds, Bool.and_eq_true, decide_eq_true_eq, Bool.or_eq_true, Bool.not_eq_true'] at hholds
  obtain ⟨⟨hvalid, hklen, hk0⟩, hk1⟩ := hholds
  exact ⟨hvalid, hklen, hk0, fun hk => hk1.resolve_left (by simp [hk]), List.mem_of_find?_eq_some h⟩

/-- Settles O31: a command that may begin ends as what it finds in the directory has it; another that runs leaves it without effect. -/
theorem streamDirectory : Obligations.StreamDirectory := by
  intro s klen k0 k1 act two res ix free may
  have begins (op : Nat) (hop : op < 4) (hmay : may op) := State.sdCommand_begun hop hmay
  refine ⟨fun hmay => ?setmiss, fun i hfound => ⟨fun hmay => ?_, fun hmay => ?_, fun hmay => ?_⟩,
    fun hmiss => ⟨fun hmay => ?_, fun hmay => ?_, fun hfull hmay => ?_, fun pre i post hcand hpre hfree hmay => ?_⟩,
    fun i => State.sdFind_some, fun x hx => ⟨fun hne => ?_, fun hne => ?_, fun hne => ?_, fun hne => ?_⟩⟩
  case setmiss =>
    obtain ⟨t, ht, hb⟩ := begins 0 (by decide) hmay
    have hw := t.sdExec_setmiss klen
    rw [hb.act] at hw
    exact ⟨_, congrArg Host.Outcome.next (ht.trans hw), hb.ends_setmiss _ (by decide)⟩
  · obtain ⟨t, ht, hb⟩ := begins 1 (by decide) hmay
    have hw := (State.sdExec_of_found ((hb.sdFind klen).trans hfound)).1
    rw [hb.sdEnt, hb.act] at hw
    exact ⟨_, congrArg Host.Outcome.next (ht.trans hw), hb.ends_written (by decide) i _⟩
  · obtain ⟨t, ht, hb⟩ := begins 2 (by decide) hmay
    have hw := (State.sdExec_of_found ((hb.sdFind klen).trans hfound)).2.1
    rw [hb.sdEnt] at hw
    exact ⟨_, congrArg Host.Outcome.next (ht.trans hw), hb.ends_written (by decide) i _⟩
  · obtain ⟨t, ht, hb⟩ := begins 3 (by decide) hmay
    have hw := (State.sdExec_of_found ((hb.sdFind klen).trans hfound)).2.2
    exact ⟨_, congrArg Host.Outcome.next (ht.trans hw), hb.ends_found (by decide) i⟩
  · obtain ⟨t, ht, hb⟩ := begins 2 (by decide) hmay
    have hw := (State.sdExec_of_missing ((hb.sdFind klen).trans hmiss)).1
    exact ⟨_, congrArg Host.Outcome.next (ht.trans hw), hb.ends_unfound (by decide)⟩
  · obtain ⟨t, ht, hb⟩ := begins 3 (by decide) hmay
    have hw := (State.sdExec_of_missing ((hb.sdFind klen).trans hmiss)).2.1
    exact ⟨_, congrArg Host.Outcome.next (ht.trans hw), hb.ends_unfound (by decide)⟩
  · obtain ⟨t, ht, hb⟩ := begins 1 (by decide) hmay
    have hw := (State.sdExec_of_missing ((hb.sdFind klen).trans hmiss)).2.2
    rw [hb.sdEnt, hb.key0, hb.key1, List.find?_eq_none.2 fun i hi => by simp [hfull i hi]] at hw
    exact ⟨_, congrArg Host.Outcome.next (ht.trans hw), hb.ends_unfound (by decide)⟩
  · obtain ⟨t, ht, hb⟩ := begins 1 (by decide) hmay
    have hw := (State.sdExec_of_missing ((hb.sdFind klen).trans hmiss)).2.2
    have hfirst : (sdCandidates klen (s.sdKey1 klen) s.sdKey0).find? (fun i => !(s.sdEnt i).valid) = some i :=
      List.find?_eq_some_iff_append.2 ⟨by simpa using hfree, pre, post, hcand, fun j hj => by simp [hpre j hj]⟩
    rw [hb.sdEnt, hb.key0, hb.key1, hb.act, hfirst] at hw
    exact ⟨_, congrArg Host.Outcome.next (ht.trans hw), hb.ends_written (by decide) i _⟩
  all_goals exact congrArg Host.Outcome.next (State.sdCommand_ignored (by decide) hx hne)

end Sys2Proof.Machine
end

section
/-!
PROOF. The registers that a reset of the PCI Express endpoint gives up (R283) are dropped from the register file. LinksAndBar2 speaks of every state,
one whose register file is not in canonical form (`Memory.wf`) among them, and there a dropped entry may uncover another.
-/
namespace Sys2Proof.Machine

/-- A register file whose keys do not rise: HUB_PARTID, listed behind HOST_CTL, reads as its reset value. -/
def partIdBehindHostCtl : State := { regs := [(R.HOST_CTL, 1), (R.HUB_PARTID, 1)] }

theorem reg_partId_of_pcieReset {t : State} (h : exec (.pcieReset 0) partIdBehindHostCtl = .next t) : t.reg R.HUB_PARTID = 1 := by
  obtain rfl := Host.Outcome.next.inj h
  decide +kernel

/-- Refutes O37: PERST_N drops HOST_CTL from the register file of `partIdBehindHostCtl`. The statement has every register outside the chapter keep
its value; HUB_PARTID, no longer behind a greater key, now reads as what the file lists for it. -/
theorem not_linksAndBar2 : ¬ Obligations.LinksAndBar2 := by
  intro h
  obtain ⟨hlink, -, -⟩ := h
  obtain ⟨-, -, -, -, -, -, -, hreset, -⟩ := hlink partIdBehindHostCtl
  obtain ⟨t, hexec, -, -, -, hregs⟩ := (hreset 0 (by decide)).2 (by decide)
  have hkept : t.reg R.HUB_PARTID = partIdBehindHostCtl.reg R.HUB_PARTID := (hregs R.HUB_PARTID).2 (by decide)
  rw [reg_partId_of_pcieReset hexec] at hkept
  exact absurd hkept (by decide +kernel)

end Sys2Proof.Machine
end
